-- ==== Sys2Proof/Word.lean ====
section
/-! DEFINITION. The words of the machine (R4, R5, R12). -/

namespace Sys2Proof

/-- A byte of memory. -/
abbrev Byte := BitVec 8
/-- A lane register or an instruction word. -/
abbrev Word := BitVec 32
/-- A register pair, a c register, or a virtual address in a pair. -/
abbrev DWord := BitVec 64
/-- A program counter: a 57-bit virtual address (R12). -/
abbrev PC := BitVec 57

end Sys2Proof
end

