-- ==== Sys2Proof/Syntax.lean ====
section
/-! DEFINITION. The instruction set: one constructor per row of the opcode table. Rows 0 to 299 are instruction words
(R55, R65, and R169 for the command processor's `kwait`); the others are the steps the part's other units take: packets, host
commands, mailbox operations and the events of the memory side, the engines and the scheduler. -/

namespace Sys2Proof

/-- Who a step concerns: a thread of the core by resident-warp slot and lane (R116, R118), or a sequencer context (R275). -/
inductive Agent where
  | thread (slot lane : Nat)
  | stream (n : Nat)
  deriving DecidableEq, Repr

/-- A queue level of Table 8-6 that can pull. -/
inductive QLevel where
  | die | cluster | core
  deriving DecidableEq, Repr

/-- What a request of another module asks for at this module's memory (R388, R392): an atomic is a member of major 0x23 with its operand
and, for a compare, the expected value; an `fwait` brings the value it leaves at. -/
inductive RemoteKind where
  | read (n : Nat)
  | write (bs : List (BitVec 8))
  | amo (f : Nat) (b expect : BitVec 64)
  | fwait (empty : BitVec 32)
  deriving DecidableEq, Repr

/-- An X request that arrives from another module: sender, the peer port it comes in at, physical address at this module, the depth a
write carries, and whether a flit that failed twice delivers its data poisoned (R269, R388, R390). -/
structure RemoteReq where
  sender : Nat
  port : Nat := 0
  pa : Nat
  depth : Nat
  kind : RemoteKind
  poisoned : Bool := false
  deriving DecidableEq, Repr

/-- Where an error was met (R355, R356): a sector of memory or of the L1, a register, a byte of a block's scratch or of a tile by its number, or a
byte of a frame. -/
inductive EccSite where
  | memSector (pa : Nat)
  | l1Sector (line sec : Nat)
  | register (slot lane p : Nat)
  | sram (key off : Nat)
  | frame (f off : Nat)
  deriving DecidableEq, Repr

/-- How an error that ECC met ends (R355, R356): corrected in the path, or uncorrectable with a retry that succeeds or fails. -/
inductive EccEnd where
  | corrected
  | transient
  | lasting
  deriving DecidableEq, Repr

/-- How training ended: for the module, and the peer ports that failed (R391, R408). -/
structure Training where
  ok : Bool
  out : List Nat := []
  deriving DecidableEq, Repr

/-- An instruction word's payload word in front of it, if there is one (R60). -/
abbrev Payload := Option (BitVec 25)

/-- The steps of the part. In a word row `s` is the switch marker (R28), register fields are named as in the table, and
`p` is the payload of the word before it (R60), none when the word stands alone. -/
inductive Instr where
  /-- ADD (R80): Writes trunc32(a + b) to d. -/
  | add (s : Bool) (d : BitVec 7) (a : BitVec 7) (b : BitVec 7) (p : Payload)
  /-- SUB (R80): Writes trunc32(a - b) to d. -/
  | sub (s : Bool) (d : BitVec 7) (a : BitVec 7) (b : BitVec 7) (p : Payload)
  /-- AND (R80): Writes a AND b to d. -/
  | and (s : Bool) (d : BitVec 7) (a : BitVec 7) (b : BitVec 7) (p : Payload)
  /-- OR (R80): Writes a OR b to d. -/
  | or (s : Bool) (d : BitVec 7) (a : BitVec 7) (b : BitVec 7) (p : Payload)
  /-- XOR (R80): Writes a XOR b to d. -/
  | xor (s : Bool) (d : BitVec 7) (a : BitVec 7) (b : BitVec 7) (p : Payload)
  /-- ANDN (R80): Writes a AND NOT b to d. -/
  | andn (s : Bool) (d : BitVec 7) (a : BitVec 7) (b : BitVec 7) (p : Payload)
  /-- SHL (R80): Shifts a left by b, giving 0 for b of 32 or more. -/
  | shl (s : Bool) (d : BitVec 7) (a : BitVec 7) (b : BitVec 7) (p : Payload)
  /-- SHR (R80): Shifts a right with zero fill, giving 0 for b of 32 or more. -/
  | shr (s : Bool) (d : BitVec 7) (a : BitVec 7) (b : BitVec 7) (p : Payload)
  /-- SAR (R80): Shifts a right arithmetically by b. -/
  | sar (s : Bool) (d : BitVec 7) (a : BitVec 7) (b : BitVec 7) (p : Payload)
  /-- ROT (R80): Rotates a left by b mod 32. -/
  | rot (s : Bool) (d : BitVec 7) (a : BitVec 7) (b : BitVec 7) (p : Payload)
  /-- MIN (R80): Writes the signed minimum of a and b. -/
  | min (s : Bool) (d : BitVec 7) (a : BitVec 7) (b : BitVec 7) (p : Payload)
  /-- MAX (R80): Writes the signed maximum of a and b. -/
  | max (s : Bool) (d : BitVec 7) (a : BitVec 7) (b : BitVec 7) (p : Payload)
  /-- MINN (R80): Writes the unsigned minimum of a and b. -/
  | minn (s : Bool) (d : BitVec 7) (a : BitVec 7) (b : BitVec 7) (p : Payload)
  /-- MAXN (R80): Writes the unsigned maximum of a and b. -/
  | maxn (s : Bool) (d : BitVec 7) (a : BitVec 7) (b : BitVec 7) (p : Payload)
  /-- MUL (R80): Writes trunc32(a x b). -/
  | mul (s : Bool) (d : BitVec 7) (a : BitVec 7) (b : BitVec 7) (p : Payload)
  /-- MULH (R80): Writes the high word of the signed 64-bit product. -/
  | mulh (s : Bool) (d : BitVec 7) (a : BitVec 7) (b : BitVec 7) (p : Payload)
  /-- MULHN (R81): Writes the high word of the unsigned 64-bit product. -/
  | mulhn (s : Bool) (d : BitVec 7) (a : BitVec 7) (b : BitVec 7) (p : Payload)
  /-- DIV (R81): Signed division truncating toward zero, with fixed results for zero and overflow. -/
  | div (s : Bool) (d : BitVec 7) (a : BitVec 7) (b : BitVec 7) (p : Payload)
  /-- DIVN (R81): Unsigned division, with 0xFFFF_FFFF for a zero divisor. -/
  | divn (s : Bool) (d : BitVec 7) (a : BitVec 7) (b : BitVec 7) (p : Payload)
  /-- REM (R81): Signed remainder with the sign of a. -/
  | rem (s : Bool) (d : BitVec 7) (a : BitVec 7) (b : BitVec 7) (p : Payload)
  /-- REMN (R81): Unsigned remainder, a for a zero divisor. -/
  | remn (s : Bool) (d : BitVec 7) (a : BitVec 7) (b : BitVec 7) (p : Payload)
  /-- CLZ (R81): Counts the leading zeros of a. -/
  | clz (s : Bool) (d : BitVec 7) (a : BitVec 7) (p : Payload)
  /-- POPC (R81): Counts the one bits of a. -/
  | popc (s : Bool) (d : BitVec 7) (a : BitVec 7) (p : Payload)
  /-- BREV (R81): Reverses the bits of a. -/
  | brev (s : Bool) (d : BitVec 7) (a : BitVec 7) (p : Payload)
  /-- ABS (R81): Writes the absolute value of signed a. -/
  | abs (s : Bool) (d : BitVec 7) (a : BitVec 7) (p : Payload)
  /-- NEG (R81): Writes trunc32(-a). -/
  | neg (s : Bool) (d : BitVec 7) (a : BitVec 7) (p : Payload)
  /-- SEL (R81): Writes a if d is non-zero, else b. -/
  | sel (s : Bool) (d : BitVec 7) (a : BitVec 7) (b : BitVec 7) (p : Payload)
  /-- MLA (R81): Writes trunc32(d + a x b). -/
  | mla (s : Bool) (d : BitVec 7) (a : BitVec 7) (b : BitVec 7) (p : Payload)
  /-- ADDS (R81): Signed saturating addition. -/
  | adds (s : Bool) (d : BitVec 7) (a : BitVec 7) (b : BitVec 7) (p : Payload)
  /-- SUBS (R81): Signed saturating subtraction. -/
  | subs (s : Bool) (d : BitVec 7) (a : BitVec 7) (b : BitVec 7) (p : Payload)
  /-- ADDSN (R81): Unsigned saturating addition. -/
  | addsn (s : Bool) (d : BitVec 7) (a : BitVec 7) (b : BitVec 7) (p : Payload)
  /-- SUBSN (R81): Unsigned saturating subtraction. -/
  | subsn (s : Bool) (d : BitVec 7) (a : BitVec 7) (b : BitVec 7) (p : Payload)
  /-- EQ (R82): Writes 1 if a equals b, else 0. -/
  | eq (s : Bool) (d : BitVec 7) (a : BitVec 7) (b : BitVec 7) (p : Payload)
  /-- NE (R82): Writes 1 if a differs from b. -/
  | ne (s : Bool) (d : BitVec 7) (a : BitVec 7) (b : BitVec 7) (p : Payload)
  /-- LT (R82): Writes 1 if a is less than b, signed. -/
  | lt (s : Bool) (d : BitVec 7) (a : BitVec 7) (b : BitVec 7) (p : Payload)
  /-- LE (R82): Writes 1 if a is at most b, signed. -/
  | le (s : Bool) (d : BitVec 7) (a : BitVec 7) (b : BitVec 7) (p : Payload)
  /-- LTN (R82): Writes 1 if a is less than b, unsigned. -/
  | ltn (s : Bool) (d : BitVec 7) (a : BitVec 7) (b : BitVec 7) (p : Payload)
  /-- LEN (R82): Writes 1 if a is at most b, unsigned. -/
  | len (s : Bool) (d : BitVec 7) (a : BitVec 7) (b : BitVec 7) (p : Payload)
  /-- ADD64 (R83): Adds two register pairs modulo 2^64. -/
  | add64 (s : Bool) (d : BitVec 7) (a : BitVec 7) (b : BitVec 7) (p : Payload)
  /-- SUB64 (R83): Subtracts two register pairs modulo 2^64. -/
  | sub64 (s : Bool) (d : BitVec 7) (a : BitVec 7) (b : BitVec 7) (p : Payload)
  /-- MUL64 (R83): Writes the low 64 bits of the pair product. -/
  | mul64 (s : Bool) (d : BitVec 7) (a : BitVec 7) (b : BitVec 7) (p : Payload)
  /-- SHL64 (R83): Shifts a pair left by a single-register amount. -/
  | shl64 (s : Bool) (d : BitVec 7) (a : BitVec 7) (b : BitVec 7) (p : Payload)
  /-- SHR64 (R83): Shifts a pair right with zero fill. -/
  | shr64 (s : Bool) (d : BitVec 7) (a : BitVec 7) (b : BitVec 7) (p : Payload)
  /-- SAR64 (R83): Shifts a pair right arithmetically. -/
  | sar64 (s : Bool) (d : BitVec 7) (a : BitVec 7) (b : BitVec 7) (p : Payload)
  /-- EQ64 (R83): Writes 1 if two pairs are equal. -/
  | eq64 (s : Bool) (d : BitVec 7) (a : BitVec 7) (b : BitVec 7) (p : Payload)
  /-- LT64 (R83): Writes 1 if pair a is less than pair b, signed. -/
  | lt64 (s : Bool) (d : BitVec 7) (a : BitVec 7) (b : BitVec 7) (p : Payload)
  /-- LTN64 (R83): Writes 1 if pair a is less than pair b, unsigned. -/
  | ltn64 (s : Bool) (d : BitVec 7) (a : BitVec 7) (b : BitVec 7) (p : Payload)
  /-- MOV64 (R83): Copies a pair. -/
  | mov64 (s : Bool) (d : BitVec 7) (a : BitVec 7) (p : Payload)
  /-- ADDX (R83): Adds a sign-extended single to a pair. -/
  | addx (s : Bool) (d : BitVec 7) (a : BitVec 7) (b : BitVec 7) (p : Payload)
  /-- ADDXN (R83): Adds a zero-extended single to a pair. -/
  | addxn (s : Bool) (d : BitVec 7) (a : BitVec 7) (b : BitVec 7) (p : Payload)
  /-- ADDI (R84): Adds a sign-extended 11-bit immediate. -/
  | addi (s : Bool) (d : BitVec 7) (a : BitVec 7) (i : BitVec 11) (p : Payload)
  /-- ANDI (R84): ANDs a sign-extended immediate. -/
  | andi (s : Bool) (d : BitVec 7) (a : BitVec 7) (i : BitVec 11) (p : Payload)
  /-- ORI (R84): ORs a sign-extended immediate. -/
  | ori (s : Bool) (d : BitVec 7) (a : BitVec 7) (i : BitVec 11) (p : Payload)
  /-- XORI (R84): XORs a sign-extended immediate. -/
  | xori (s : Bool) (d : BitVec 7) (a : BitVec 7) (i : BitVec 11) (p : Payload)
  /-- SHLI (R84): Shifts left by an immediate amount. -/
  | shli (s : Bool) (d : BitVec 7) (a : BitVec 7) (n : BitVec 5) (p : Payload)
  /-- SHRI (R84): Shifts right with zero fill by an immediate amount. -/
  | shri (s : Bool) (d : BitVec 7) (a : BitVec 7) (n : BitVec 5) (p : Payload)
  /-- SARI (R84): Shifts right arithmetically by an immediate amount. -/
  | sari (s : Bool) (d : BitVec 7) (a : BitVec 7) (n : BitVec 5) (p : Payload)
  /-- ROTI (R84): Rotates left by an immediate amount. -/
  | roti (s : Bool) (d : BitVec 7) (a : BitVec 7) (n : BitVec 5) (p : Payload)
  /-- SLTI (R84): Writes 1 if a is less than the immediate, signed. -/
  | slti (s : Bool) (d : BitVec 7) (a : BitVec 7) (i : BitVec 11) (p : Payload)
  /-- SLTNI (R84): Writes 1 if a is less than the immediate, unsigned. -/
  | sltni (s : Bool) (d : BitVec 7) (a : BitVec 7) (i : BitVec 11) (p : Payload)
  /-- ADDXI (R84): Adds a sign-extended immediate to a pair. -/
  | addxi (s : Bool) (d : BitVec 7) (a : BitVec 7) (i : BitVec 11) (p : Payload)
  /-- MOVH (R84): Writes imm18 << 14 to d. -/
  | movh (s : Bool) (d : BitVec 7) (n : BitVec 18) (p : Payload)
  /-- MOVL (R84): Replaces bits [13:0] of d with the immediate. -/
  | movl (s : Bool) (d : BitVec 7) (n : BitVec 14) (p : Payload)
  /-- BZ (R85): Branches when a equals 0. -/
  | bz (s : Bool) (a : BitVec 7) (o : BitVec 16)
  /-- BNZ (R85): Branches when a is not 0. -/
  | bnz (s : Bool) (a : BitVec 7) (o : BitVec 16)
  /-- BLTZ (R85): Branches when a is negative. -/
  | bltz (s : Bool) (a : BitVec 7) (o : BitVec 16)
  /-- BGEZ (R85): Branches when a is not negative. -/
  | bgez (s : Bool) (a : BitVec 7) (o : BitVec 16)
  /-- JMP (R85): Jumps to a PC-relative target. -/
  | jmp (s : Bool) (o : BitVec 25)
  /-- CALL (R14): Pushes the return address on the kp stack and jumps. -/
  | call (s : Bool) (o : BitVec 25)
  /-- JR (R86): Jumps to the address in a pair. -/
  | jr (s : Bool) (a : BitVec 7)
  /-- CALLR (R14): Calls the address in a pair. -/
  | callr (s : Bool) (a : BitVec 7)
  /-- RET (R14): Pops the return address from the kp stack into the PC. -/
  | ret (s : Bool)
  /-- EXIT (R87): Takes a pending deferred trap or ends the thread. -/
  | exit (s : Bool)
  /-- NOP (R86): Advances the PC by 4. -/
  | nop (s : Bool)
  /-- YIELD (R88): Makes the thread not ready for 16 cycles and resets its ready age. -/
  | yield (s : Bool)
  /-- TRAP (R89): Raises SW_TRAP with TINFO = n. -/
  | trap (s : Bool) (n : BitVec 7)
  /-- BRK (R89): Raises BREAK with TINFO = n. -/
  | brk (s : Bool) (n : BitVec 7)
  /-- RETT (R351): Returns from the trap handler to TRPC and restores WB. -/
  | rett (s : Bool)
  /-- BRX_Z (R153): Exile branch when a equals 0. -/
  | brxZ (s : Bool) (a : BitVec 7) (o : BitVec 16)
  /-- BRX_NZ (R153): Exile branch when a is not 0. -/
  | brxNz (s : Bool) (a : BitVec 7) (o : BitVec 16)
  /-- BRX_LTZ (R153): Exile branch when a is negative. -/
  | brxLtz (s : Bool) (a : BitVec 7) (o : BitVec 16)
  /-- BRX_GEZ (R153): Exile branch when a is not negative. -/
  | brxGez (s : Bool) (a : BitVec 7) (o : BitVec 16)
  /-- CONT (R154): Emits a continuation record into the core queue and continues. -/
  | cont (s : Bool) (d : BitVec 7) (a : BitVec 7)
  /-- QPUT (R154): Queues a task by affinity key as a release. -/
  | qput (s : Bool) (d : BitVec 7) (a : BitVec 7) (b : BitVec 7)
  /-- WATCH (R255): Attaches a watched region from a descriptor. -/
  | watch (s : Bool) (d : BitVec 7) (a : BitVec 7)
  /-- UNWATCH (R256): Detaches an attachment, draining or discarding its records. -/
  | unwatch (s : Bool) (d : BitVec 7) (a : BitVec 7) (b : BitVec 7)
  /-- WGROW (R196): Requests more registers per thread for the warp. -/
  | wgrow (s : Bool) (d : BitVec 7) (a : BitVec 7)
  /-- WSHRINK (R198): Reduces the warp's registers per thread. -/
  | wshrink (s : Bool) (d : BitVec 7) (a : BitVec 7)
  /-- WBASE (R91): Sets the thread's window base. -/
  | wbase (s : Bool) (a : BitVec 7)
  /-- WISET (R92): Sets the warp's wi register. -/
  | wiset (s : Bool) (a : BitVec 7)
  /-- VRGAT (R93): Reads a register by index relative to WB. -/
  | vrgat (s : Bool) (d : BitVec 7) (a : BitVec 7)
  /-- VRSCA (R93): Writes a register by index relative to WB. -/
  | vrsca (s : Bool) (a : BitVec 7) (b : BitVec 7)
  /-- POOL_REQ (R199): Requests a grow or shrink of a pool role. -/
  | poolReq (s : Bool) (d : BitVec 7) (a : BitVec 7)
  /-- POOL_REL (R200): Releases the block's scratch extent or tiles. -/
  | poolRel (s : Bool) (d : BitVec 7) (a : BitVec 7)
  /-- POOL_MAP (R201): Reads a PMAP entry. -/
  | poolMap (s : Bool) (d : BitVec 7) (a : BitVec 7)
  /-- POOL_OCC (R202): Reads a pool occupancy count or counter by selector. -/
  | poolOcc (s : Bool) (d : BitVec 7) (a : BitVec 7)
  /-- TSTATE (R203): Reads a snapshot of a local tile's status. -/
  | tstate (s : Bool) (d : BitVec 7) (a : BitVec 7)
  /-- TMARK (R204): Marks a ready, unread local tile empty. -/
  | tmark (s : Bool) (d : BitVec 7) (a : BitVec 7)
  /-- FADD_S (R106): FP32 addition, rounded. -/
  | faddS (s : Bool) (d : BitVec 7) (a : BitVec 7) (b : BitVec 7) (p : Payload)
  /-- FSUB_S (R106): FP32 subtraction, rounded. -/
  | fsubS (s : Bool) (d : BitVec 7) (a : BitVec 7) (b : BitVec 7) (p : Payload)
  /-- FMUL_S (R106): FP32 multiplication, rounded. -/
  | fmulS (s : Bool) (d : BitVec 7) (a : BitVec 7) (b : BitVec 7) (p : Payload)
  /-- FMIN_S (R107): FP32 minimum. -/
  | fminS (s : Bool) (d : BitVec 7) (a : BitVec 7) (b : BitVec 7) (p : Payload)
  /-- FMAX_S (R107): FP32 maximum. -/
  | fmaxS (s : Bool) (d : BitVec 7) (a : BitVec 7) (b : BitVec 7) (p : Payload)
  /-- FDIV_S (R106): FP32 division, correctly rounded. -/
  | fdivS (s : Bool) (d : BitVec 7) (a : BitVec 7) (b : BitVec 7) (p : Payload)
  /-- FSQRT_S (R106): FP32 square root, correctly rounded. -/
  | fsqrtS (s : Bool) (d : BitVec 7) (a : BitVec 7) (p : Payload)
  /-- FRCP_S (R106): FP32 reciprocal, correctly rounded. -/
  | frcpS (s : Bool) (d : BitVec 7) (a : BitVec 7) (p : Payload)
  /-- FABS_S (R105): Clears the FP32 sign bit. -/
  | fabsS (s : Bool) (d : BitVec 7) (a : BitVec 7) (p : Payload)
  /-- FNEG_S (R105): Inverts the FP32 sign bit. -/
  | fnegS (s : Bool) (d : BitVec 7) (a : BitVec 7) (p : Payload)
  /-- FEQ_S (R108): FP32 equality compare. -/
  | feqS (s : Bool) (d : BitVec 7) (a : BitVec 7) (b : BitVec 7) (p : Payload)
  /-- FLT_S (R108): FP32 less-than compare. -/
  | fltS (s : Bool) (d : BitVec 7) (a : BitVec 7) (b : BitVec 7) (p : Payload)
  /-- FLE_S (R108): FP32 less-or-equal compare. -/
  | fleS (s : Bool) (d : BitVec 7) (a : BitVec 7) (b : BitVec 7) (p : Payload)
  /-- FUN_S (R108): FP32 unordered compare. -/
  | funS (s : Bool) (d : BitVec 7) (a : BitVec 7) (b : BitVec 7) (p : Payload)
  /-- FMA_S (R106): FP32 fused d + a x b. -/
  | fmaS (s : Bool) (d : BitVec 7) (a : BitVec 7) (b : BitVec 7) (p : Payload)
  /-- FNMA_S (R106): FP32 fused d - a x b. -/
  | fnmaS (s : Bool) (d : BitVec 7) (a : BitVec 7) (b : BitVec 7) (p : Payload)
  /-- FADD_D (R106): FP64 addition, rounded. -/
  | faddD (s : Bool) (d : BitVec 7) (a : BitVec 7) (b : BitVec 7) (p : Payload)
  /-- FSUB_D (R106): FP64 subtraction, rounded. -/
  | fsubD (s : Bool) (d : BitVec 7) (a : BitVec 7) (b : BitVec 7) (p : Payload)
  /-- FMUL_D (R106): FP64 multiplication, rounded. -/
  | fmulD (s : Bool) (d : BitVec 7) (a : BitVec 7) (b : BitVec 7) (p : Payload)
  /-- FMIN_D (R107): FP64 minimum. -/
  | fminD (s : Bool) (d : BitVec 7) (a : BitVec 7) (b : BitVec 7) (p : Payload)
  /-- FMAX_D (R107): FP64 maximum. -/
  | fmaxD (s : Bool) (d : BitVec 7) (a : BitVec 7) (b : BitVec 7) (p : Payload)
  /-- FDIV_D (R106): FP64 division. -/
  | fdivD (s : Bool) (d : BitVec 7) (a : BitVec 7) (b : BitVec 7) (p : Payload)
  /-- FSQRT_D (R106): FP64 square root. -/
  | fsqrtD (s : Bool) (d : BitVec 7) (a : BitVec 7) (p : Payload)
  /-- FRCP_D (R106): FP64 reciprocal. -/
  | frcpD (s : Bool) (d : BitVec 7) (a : BitVec 7) (p : Payload)
  /-- FABS_D (R105): Clears the FP64 sign bit. -/
  | fabsD (s : Bool) (d : BitVec 7) (a : BitVec 7) (p : Payload)
  /-- FNEG_D (R105): Inverts the FP64 sign bit. -/
  | fnegD (s : Bool) (d : BitVec 7) (a : BitVec 7) (p : Payload)
  /-- FEQ_D (R108): FP64 equality compare. -/
  | feqD (s : Bool) (d : BitVec 7) (a : BitVec 7) (b : BitVec 7) (p : Payload)
  /-- FLT_D (R108): FP64 less-than compare. -/
  | fltD (s : Bool) (d : BitVec 7) (a : BitVec 7) (b : BitVec 7) (p : Payload)
  /-- FLE_D (R108): FP64 less-or-equal compare. -/
  | fleD (s : Bool) (d : BitVec 7) (a : BitVec 7) (b : BitVec 7) (p : Payload)
  /-- FUN_D (R108): FP64 unordered compare. -/
  | funD (s : Bool) (d : BitVec 7) (a : BitVec 7) (b : BitVec 7) (p : Payload)
  /-- FMA_D (R106): FP64 fused d + a x b. -/
  | fmaD (s : Bool) (d : BitVec 7) (a : BitVec 7) (b : BitVec 7) (p : Payload)
  /-- FNMA_D (R106): FP64 fused d - a x b. -/
  | fnmaD (s : Bool) (d : BitVec 7) (a : BitVec 7) (b : BitVec 7) (p : Payload)
  /-- FADD_H2 (R106): Packed FP16 addition. -/
  | faddH2 (s : Bool) (d : BitVec 7) (a : BitVec 7) (b : BitVec 7) (p : Payload)
  /-- FSUB_H2 (R106): Packed FP16 subtraction. -/
  | fsubH2 (s : Bool) (d : BitVec 7) (a : BitVec 7) (b : BitVec 7) (p : Payload)
  /-- FMUL_H2 (R106): Packed FP16 multiplication. -/
  | fmulH2 (s : Bool) (d : BitVec 7) (a : BitVec 7) (b : BitVec 7) (p : Payload)
  /-- FMIN_H2 (R107): Packed FP16 minimum. -/
  | fminH2 (s : Bool) (d : BitVec 7) (a : BitVec 7) (b : BitVec 7) (p : Payload)
  /-- FMAX_H2 (R107): Packed FP16 maximum. -/
  | fmaxH2 (s : Bool) (d : BitVec 7) (a : BitVec 7) (b : BitVec 7) (p : Payload)
  /-- FDIV_H2 (R106): Packed FP16 division. -/
  | fdivH2 (s : Bool) (d : BitVec 7) (a : BitVec 7) (b : BitVec 7) (p : Payload)
  /-- FSQRT_H2 (R106): Packed FP16 square root. -/
  | fsqrtH2 (s : Bool) (d : BitVec 7) (a : BitVec 7) (p : Payload)
  /-- FRCP_H2 (R106): Packed FP16 reciprocal. -/
  | frcpH2 (s : Bool) (d : BitVec 7) (a : BitVec 7) (p : Payload)
  /-- FABS_H2 (R105): Clears both FP16 sign bits. -/
  | fabsH2 (s : Bool) (d : BitVec 7) (a : BitVec 7) (p : Payload)
  /-- FNEG_H2 (R105): Inverts both FP16 sign bits. -/
  | fnegH2 (s : Bool) (d : BitVec 7) (a : BitVec 7) (p : Payload)
  /-- FEQ_H2 (R108): Packed FP16 equality compare. -/
  | feqH2 (s : Bool) (d : BitVec 7) (a : BitVec 7) (b : BitVec 7) (p : Payload)
  /-- FLT_H2 (R108): Packed FP16 less-than compare. -/
  | fltH2 (s : Bool) (d : BitVec 7) (a : BitVec 7) (b : BitVec 7) (p : Payload)
  /-- FLE_H2 (R108): Packed FP16 less-or-equal compare. -/
  | fleH2 (s : Bool) (d : BitVec 7) (a : BitVec 7) (b : BitVec 7) (p : Payload)
  /-- FUN_H2 (R108): Packed FP16 unordered compare. -/
  | funH2 (s : Bool) (d : BitVec 7) (a : BitVec 7) (b : BitVec 7) (p : Payload)
  /-- FMA_H2 (R106): Packed FP16 fused multiply-add. -/
  | fmaH2 (s : Bool) (d : BitVec 7) (a : BitVec 7) (b : BitVec 7) (p : Payload)
  /-- FNMA_H2 (R106): Packed FP16 fused negated multiply-add. -/
  | fnmaH2 (s : Bool) (d : BitVec 7) (a : BitVec 7) (b : BitVec 7) (p : Payload)
  /-- FADD_B2 (R106): Packed BF16 addition. -/
  | faddB2 (s : Bool) (d : BitVec 7) (a : BitVec 7) (b : BitVec 7) (p : Payload)
  /-- FSUB_B2 (R106): Packed BF16 subtraction. -/
  | fsubB2 (s : Bool) (d : BitVec 7) (a : BitVec 7) (b : BitVec 7) (p : Payload)
  /-- FMUL_B2 (R106): Packed BF16 multiplication. -/
  | fmulB2 (s : Bool) (d : BitVec 7) (a : BitVec 7) (b : BitVec 7) (p : Payload)
  /-- FMIN_B2 (R107): Packed BF16 minimum. -/
  | fminB2 (s : Bool) (d : BitVec 7) (a : BitVec 7) (b : BitVec 7) (p : Payload)
  /-- FMAX_B2 (R107): Packed BF16 maximum. -/
  | fmaxB2 (s : Bool) (d : BitVec 7) (a : BitVec 7) (b : BitVec 7) (p : Payload)
  /-- FDIV_B2 (R106): Packed BF16 division. -/
  | fdivB2 (s : Bool) (d : BitVec 7) (a : BitVec 7) (b : BitVec 7) (p : Payload)
  /-- FSQRT_B2 (R106): Packed BF16 square root. -/
  | fsqrtB2 (s : Bool) (d : BitVec 7) (a : BitVec 7) (p : Payload)
  /-- FRCP_B2 (R106): Packed BF16 reciprocal. -/
  | frcpB2 (s : Bool) (d : BitVec 7) (a : BitVec 7) (p : Payload)
  /-- FABS_B2 (R105): Clears both BF16 sign bits. -/
  | fabsB2 (s : Bool) (d : BitVec 7) (a : BitVec 7) (p : Payload)
  /-- FNEG_B2 (R105): Inverts both BF16 sign bits. -/
  | fnegB2 (s : Bool) (d : BitVec 7) (a : BitVec 7) (p : Payload)
  /-- FEQ_B2 (R108): Packed BF16 equality compare. -/
  | feqB2 (s : Bool) (d : BitVec 7) (a : BitVec 7) (b : BitVec 7) (p : Payload)
  /-- FLT_B2 (R108): Packed BF16 less-than compare. -/
  | fltB2 (s : Bool) (d : BitVec 7) (a : BitVec 7) (b : BitVec 7) (p : Payload)
  /-- FLE_B2 (R108): Packed BF16 less-or-equal compare. -/
  | fleB2 (s : Bool) (d : BitVec 7) (a : BitVec 7) (b : BitVec 7) (p : Payload)
  /-- FUN_B2 (R108): Packed BF16 unordered compare. -/
  | funB2 (s : Bool) (d : BitVec 7) (a : BitVec 7) (b : BitVec 7) (p : Payload)
  /-- FMA_B2 (R106): Packed BF16 fused multiply-add. -/
  | fmaB2 (s : Bool) (d : BitVec 7) (a : BitVec 7) (b : BitVec 7) (p : Payload)
  /-- FNMA_B2 (R106): Packed BF16 fused negated multiply-add. -/
  | fnmaB2 (s : Bool) (d : BitVec 7) (a : BitVec 7) (b : BitVec 7) (p : Payload)
  /-- FEXP2 (R110): Correctly rounded FP32 2^a. -/
  | fexp2 (s : Bool) (d : BitVec 7) (a : BitVec 7) (p : Payload)
  /-- FLOG2 (R110): Correctly rounded FP32 log2 a. -/
  | flog2 (s : Bool) (d : BitVec 7) (a : BitVec 7) (p : Payload)
  /-- FSIN (R110): Correctly rounded FP32 sine. -/
  | fsin (s : Bool) (d : BitVec 7) (a : BitVec 7) (p : Payload)
  /-- FCOS (R110): Correctly rounded FP32 cosine. -/
  | fcos (s : Bool) (d : BitVec 7) (a : BitVec 7) (p : Payload)
  /-- FRSQ (R110): Correctly rounded FP32 reciprocal square root. -/
  | frsq (s : Bool) (d : BitVec 7) (a : BitVec 7) (p : Payload)
  /-- FTANH (R110): Correctly rounded FP32 hyperbolic tangent. -/
  | ftanh (s : Bool) (d : BitVec 7) (a : BitVec 7) (p : Payload)
  /-- CVT (R111): Converts one value between the formats the conversion code names. -/
  | cvt (s : Bool) (d : BitVec 7) (a : BitVec 7) (c : BitVec 7) (p : Payload)
  /-- CVTP (R112): Packs or unpacks an FP32 pair and a 16-bit packed word. -/
  | cvtp (s : Bool) (d : BitVec 7) (a : BitVec 7) (c : BitVec 7) (p : Payload)
  /-- CVTQ (R113): Packs or unpacks an FP32 quad and narrow elements. -/
  | cvtq (s : Bool) (d : BitVec 7) (a : BitVec 7) (c : BitVec 7) (p : Payload)
  /-- FCLASS (R114): Writes a one-hot class mask of a value. -/
  | fclass (s : Bool) (d : BitVec 7) (a : BitVec 7) (k : BitVec 7) (p : Payload)
  /-- FSCL (R115): Scales an FP32 value by 2^b. -/
  | fscl (s : Bool) (d : BitVec 7) (a : BitVec 7) (b : BitVec 7) (p : Payload)
  /-- LD_B (R94): Loads a zero-extended byte from G or X. -/
  | ldB (s : Bool) (t : BitVec 7) (r : BitVec 7) (i : BitVec 7) (p : Payload)
  /-- LD_BS (R94): Loads a sign-extended byte. -/
  | ldBs (s : Bool) (t : BitVec 7) (r : BitVec 7) (i : BitVec 7) (p : Payload)
  /-- LD_H (R94): Loads a zero-extended halfword. -/
  | ldH (s : Bool) (t : BitVec 7) (r : BitVec 7) (i : BitVec 7) (p : Payload)
  /-- LD_HS (R94): Loads a sign-extended halfword. -/
  | ldHs (s : Bool) (t : BitVec 7) (r : BitVec 7) (i : BitVec 7) (p : Payload)
  /-- LD_W (R94): Loads a word. -/
  | ldW (s : Bool) (t : BitVec 7) (r : BitVec 7) (i : BitVec 7) (p : Payload)
  /-- LD_D (R94): Loads a doubleword into a pair. -/
  | ldD (s : Bool) (t : BitVec 7) (r : BitVec 7) (i : BitVec 7) (p : Payload)
  /-- LD_Q (R94): Loads 16 bytes into a quad. -/
  | ldQ (s : Bool) (t : BitVec 7) (r : BitVec 7) (i : BitVec 7) (p : Payload)
  /-- LD_O (R94): Loads 32 bytes into an octet. -/
  | ldO (s : Bool) (t : BitVec 7) (r : BitVec 7) (i : BitVec 7) (p : Payload)
  /-- LDMC_Q (R241): Multicast 16-byte load under a core mask. -/
  | ldmcQ (s : Bool) (t : BitVec 7) (r : BitVec 7) (i : BitVec 7) (p : Payload)
  /-- ST_B (R94): Stores a byte. -/
  | stB (s : Bool) (t : BitVec 7) (r : BitVec 7) (i : BitVec 7) (p : Payload)
  /-- ST_H (R94): Stores a halfword. -/
  | stH (s : Bool) (t : BitVec 7) (r : BitVec 7) (i : BitVec 7) (p : Payload)
  /-- ST_W (R94): Stores a word. -/
  | stW (s : Bool) (t : BitVec 7) (r : BitVec 7) (i : BitVec 7) (p : Payload)
  /-- ST_D (R94): Stores a pair. -/
  | stD (s : Bool) (t : BitVec 7) (r : BitVec 7) (i : BitVec 7) (p : Payload)
  /-- ST_Q (R94): Stores a quad. -/
  | stQ (s : Bool) (t : BitVec 7) (r : BitVec 7) (i : BitVec 7) (p : Payload)
  /-- ST_O (R94): Stores an octet. -/
  | stO (s : Bool) (t : BitVec 7) (r : BitVec 7) (i : BitVec 7) (p : Payload)
  /-- LDS_W (R94): Loads a word from scratch. -/
  | ldsW (s : Bool) (t : BitVec 7) (r : BitVec 7) (i : BitVec 7) (p : Payload)
  /-- LDS_D (R94): Loads a pair from scratch. -/
  | ldsD (s : Bool) (t : BitVec 7) (r : BitVec 7) (i : BitVec 7) (p : Payload)
  /-- LDS_Q (R94): Loads a quad from scratch. -/
  | ldsQ (s : Bool) (t : BitVec 7) (r : BitVec 7) (i : BitVec 7) (p : Payload)
  /-- STS_W (R94): Stores a word to scratch. -/
  | stsW (s : Bool) (t : BitVec 7) (r : BitVec 7) (i : BitVec 7) (p : Payload)
  /-- STS_D (R94): Stores a pair to scratch. -/
  | stsD (s : Bool) (t : BitVec 7) (r : BitVec 7) (i : BitVec 7) (p : Payload)
  /-- STS_Q (R94): Stores a quad to scratch. -/
  | stsQ (s : Bool) (t : BitVec 7) (r : BitVec 7) (i : BitVec 7) (p : Payload)
  /-- AMO_ADD (R235): Atomic 32-bit add at the home. -/
  | amoAdd (s : Bool) (d : BitVec 7) (a : BitVec 7) (b : BitVec 7) (p : Payload)
  /-- AMO_AND (R235): Atomic AND at the home. -/
  | amoAnd (s : Bool) (d : BitVec 7) (a : BitVec 7) (b : BitVec 7) (p : Payload)
  /-- AMO_OR (R235): Atomic OR at the home. -/
  | amoOr (s : Bool) (d : BitVec 7) (a : BitVec 7) (b : BitVec 7) (p : Payload)
  /-- AMO_XOR (R235): Atomic XOR at the home. -/
  | amoXor (s : Bool) (d : BitVec 7) (a : BitVec 7) (b : BitVec 7) (p : Payload)
  /-- AMO_MIN (R235): Atomic signed minimum. -/
  | amoMin (s : Bool) (d : BitVec 7) (a : BitVec 7) (b : BitVec 7) (p : Payload)
  /-- AMO_MAX (R235): Atomic signed maximum. -/
  | amoMax (s : Bool) (d : BitVec 7) (a : BitVec 7) (b : BitVec 7) (p : Payload)
  /-- AMO_MINN (R235): Atomic unsigned minimum. -/
  | amoMinn (s : Bool) (d : BitVec 7) (a : BitVec 7) (b : BitVec 7) (p : Payload)
  /-- AMO_MAXN (R235): Atomic unsigned maximum. -/
  | amoMaxn (s : Bool) (d : BitVec 7) (a : BitVec 7) (b : BitVec 7) (p : Payload)
  /-- AMO_SWAP (R235): Atomic swap. -/
  | amoSwap (s : Bool) (d : BitVec 7) (a : BitVec 7) (b : BitVec 7) (p : Payload)
  /-- AMO_CAS (R235): Atomic 32-bit compare-and-swap. -/
  | amoCas (s : Bool) (d : BitVec 7) (a : BitVec 7) (b : BitVec 7) (p : Payload)
  /-- AMO_FADD (R236): Atomic FP32 add, RNE. -/
  | amoFadd (s : Bool) (d : BitVec 7) (a : BitVec 7) (b : BitVec 7) (p : Payload)
  /-- AMO_ADDB2 (R236): Atomic packed BF16 add. -/
  | amoAddb2 (s : Bool) (d : BitVec 7) (a : BitVec 7) (b : BitVec 7) (p : Payload)
  /-- AMO_ADDH2 (R236): Atomic packed FP16 add. -/
  | amoAddh2 (s : Bool) (d : BitVec 7) (a : BitVec 7) (b : BitVec 7) (p : Payload)
  /-- AMO_ADD64 (R235): Atomic 64-bit add. -/
  | amoAdd64 (s : Bool) (d : BitVec 7) (a : BitVec 7) (b : BitVec 7) (p : Payload)
  /-- AMO_CAS64 (R235): Atomic 64-bit compare-and-swap. -/
  | amoCas64 (s : Bool) (d : BitVec 7) (a : BitVec 7) (b : BitVec 7) (p : Payload)
  /-- AMO_INC (R235): Atomic wrapping increment bounded by b. -/
  | amoInc (s : Bool) (d : BitVec 7) (a : BitVec 7) (b : BitVec 7) (p : Payload)
  /-- SAMO_ADD (R235): Scratch atomic add. -/
  | samoAdd (s : Bool) (d : BitVec 7) (a : BitVec 7) (b : BitVec 7) (p : Payload)
  /-- SAMO_AND (R235): Scratch atomic AND. -/
  | samoAnd (s : Bool) (d : BitVec 7) (a : BitVec 7) (b : BitVec 7) (p : Payload)
  /-- SAMO_OR (R235): Scratch atomic OR. -/
  | samoOr (s : Bool) (d : BitVec 7) (a : BitVec 7) (b : BitVec 7) (p : Payload)
  /-- SAMO_XOR (R235): Scratch atomic XOR. -/
  | samoXor (s : Bool) (d : BitVec 7) (a : BitVec 7) (b : BitVec 7) (p : Payload)
  /-- SAMO_MIN (R235): Scratch atomic signed minimum. -/
  | samoMin (s : Bool) (d : BitVec 7) (a : BitVec 7) (b : BitVec 7) (p : Payload)
  /-- SAMO_MAX (R235): Scratch atomic signed maximum. -/
  | samoMax (s : Bool) (d : BitVec 7) (a : BitVec 7) (b : BitVec 7) (p : Payload)
  /-- SAMO_MINN (R235): Scratch atomic unsigned minimum. -/
  | samoMinn (s : Bool) (d : BitVec 7) (a : BitVec 7) (b : BitVec 7) (p : Payload)
  /-- SAMO_MAXN (R235): Scratch atomic unsigned maximum. -/
  | samoMaxn (s : Bool) (d : BitVec 7) (a : BitVec 7) (b : BitVec 7) (p : Payload)
  /-- SAMO_SWAP (R235): Scratch atomic swap. -/
  | samoSwap (s : Bool) (d : BitVec 7) (a : BitVec 7) (b : BitVec 7) (p : Payload)
  /-- SAMO_CAS (R235): Scratch atomic compare-and-swap. -/
  | samoCas (s : Bool) (d : BitVec 7) (a : BitVec 7) (b : BitVec 7) (p : Payload)
  /-- SAMO_FADD (R236): Scratch atomic FP32 add. -/
  | samoFadd (s : Bool) (d : BitVec 7) (a : BitVec 7) (b : BitVec 7) (p : Payload)
  /-- SAMO_ADDB2 (R236): Scratch atomic packed BF16 add. -/
  | samoAddb2 (s : Bool) (d : BitVec 7) (a : BitVec 7) (b : BitVec 7) (p : Payload)
  /-- SAMO_ADDH2 (R236): Scratch atomic packed FP16 add. -/
  | samoAddh2 (s : Bool) (d : BitVec 7) (a : BitVec 7) (b : BitVec 7) (p : Payload)
  /-- SAMO_ADD64 (R235): Scratch atomic 64-bit add. -/
  | samoAdd64 (s : Bool) (d : BitVec 7) (a : BitVec 7) (b : BitVec 7) (p : Payload)
  /-- SAMO_CAS64 (R235): Scratch atomic 64-bit compare-and-swap. -/
  | samoCas64 (s : Bool) (d : BitVec 7) (a : BitVec 7) (b : BitVec 7) (p : Payload)
  /-- SAMO_INC (R235): Scratch atomic bounded increment. -/
  | samoInc (s : Bool) (d : BitVec 7) (a : BitVec 7) (b : BitVec 7) (p : Payload)
  /-- FENCE (R221): Acquire and release fence that also holds later reads. -/
  | fence (s : Bool) (c : BitVec 3) (m : BitVec 3)
  /-- FENCE_ACQ (R220): Acquire fence at a scope and storage mask. -/
  | fenceAcq (s : Bool) (c : BitVec 3) (m : BitVec 3)
  /-- FENCE_REL (R219): Release fence at a scope and storage mask. -/
  | fenceRel (s : Bool) (c : BitVec 3) (m : BitVec 3)
  /-- WCT (R245): Waits for all write acknowledgements and returns the largest WCT. -/
  | wct (s : Bool) (d : BitVec 7)
  /-- FLUSH (R246): Writes back the core's dirty lines in a range. -/
  | flush (s : Bool) (a : BitVec 7) (b : BitVec 7)
  /-- ICINV (R98): Invalidates instruction caches and loop buffers over a range. -/
  | icinv (s : Bool) (a : BitVec 7) (b : BitVec 7)
  /-- FWAIT (R248): Waits at the home while a word equals the empty value. -/
  | fwait (s : Bool) (d : BitVec 7) (a : BitVec 7) (b : BitVec 7)
  /-- PREF (R247): Requests a sector into L1 without a result. -/
  | pref (s : Bool) (a : BitVec 7)
  /-- WVOTE_ANY (R141): Warp vote: 1 if any member's a is non-zero. -/
  | wvoteAny (s : Bool) (d : BitVec 7) (a : BitVec 7) (b : BitVec 7)
  /-- WVOTE_ALL (R141): Warp vote: 1 if every member's a is non-zero. -/
  | wvoteAll (s : Bool) (d : BitVec 7) (a : BitVec 7) (b : BitVec 7)
  /-- WBALLOT (R141): Warp ballot of non-zero members. -/
  | wballot (s : Bool) (d : BitVec 7) (a : BitVec 7) (b : BitVec 7)
  /-- WRED_ADD (R142): Warp integer sum over the fixed tree. -/
  | wredAdd (s : Bool) (d : BitVec 7) (a : BitVec 7) (b : BitVec 7)
  /-- WRED_FADD (R143): Warp FP32 sum over the fixed tree. -/
  | wredFadd (s : Bool) (d : BitVec 7) (a : BitVec 7) (b : BitVec 7)
  /-- WRED_MIN (R142): Warp signed minimum. -/
  | wredMin (s : Bool) (d : BitVec 7) (a : BitVec 7) (b : BitVec 7)
  /-- WRED_MAX (R142): Warp signed maximum. -/
  | wredMax (s : Bool) (d : BitVec 7) (a : BitVec 7) (b : BitVec 7)
  /-- WSCAN_ADD (R142): Warp inclusive integer scan. -/
  | wscanAdd (s : Bool) (d : BitVec 7) (a : BitVec 7) (b : BitVec 7)
  /-- WSCAN_FADD (R142): Warp inclusive FP32 scan. -/
  | wscanFadd (s : Bool) (d : BitVec 7) (a : BitVec 7) (b : BitVec 7)
  /-- WSEGSCAN_ADD (R142): Warp segmented integer scan. -/
  | wsegscanAdd (s : Bool) (d : BitVec 7) (a : BitVec 7) (b : BitVec 7)
  /-- WSEGSCAN_FADD (R142): Warp segmented FP32 scan. -/
  | wsegscanFadd (s : Bool) (d : BitVec 7) (a : BitVec 7) (b : BitVec 7)
  /-- WISECT (R144): Merge step of a sorted-key intersection. -/
  | wisect (s : Bool) (d : BitVec 7) (a : BitVec 7) (b : BitVec 7)
  /-- WNZ (R145): Ballot of members non-zero under a kind. -/
  | wnz (s : Bool) (d : BitVec 7) (a : BitVec 7) (b : BitVec 7)
  /-- WMM (R146): Warp matrix multiply-accumulate. -/
  | wmm (s : Bool) (d : BitVec 7) (a : BitVec 7) (b : BitVec 7) (p : Payload)
  /-- WSYNC (R147): Completes when every named thread has arrived at the same PC. -/
  | wsync (s : Bool) (b : BitVec 7)
  /-- WPERM (R141): Reads a from the member at lane d[4:0]. -/
  | wperm (s : Bool) (d : BitVec 7) (a : BitVec 7) (b : BitVec 7)
  /-- NB_INIT (R151): Sets a barrier's count. -/
  | nbInit (s : Bool) (a : BitVec 7) (n : BitVec 4)
  /-- NB_ARRIVE (R149): Arrives on a barrier as a release. -/
  | nbArrive (s : Bool) (d : BitVec 7) (n : BitVec 4)
  /-- NB_WAIT (R151): Parks until the barrier phase differs from the token. -/
  | nbWait (s : Bool) (d : BitVec 7) (a : BitVec 7) (n : BitVec 4)
  /-- NB_MEET (R151): Arrives and waits on a barrier. -/
  | nbMeet (s : Bool) (d : BitVec 7) (n : BitVec 4)
  /-- NB_TEST (R151): Tests whether the phase differs from the token. -/
  | nbTest (s : Bool) (d : BitVec 7) (a : BitVec 7) (n : BitVec 4)
  /-- NB_STAT (R151): Reads a barrier field by selector. -/
  | nbStat (s : Bool) (d : BitVec 7) (e : BitVec 3) (n : BitVec 4)
  /-- XRED_ADD (R152): Crossing reduction by 64-bit addition into x_k. -/
  | xredAdd (s : Bool) (k : BitVec 3) (a : BitVec 7) (b : BitVec 7)
  /-- XRED_FADD (R152): Crossing reduction by FP64 addition. -/
  | xredFadd (s : Bool) (k : BitVec 3) (a : BitVec 7) (b : BitVec 7)
  /-- XRED_MAX (R152): Crossing reduction by signed maximum. -/
  | xredMax (s : Bool) (k : BitVec 3) (a : BitVec 7) (b : BitVec 7)
  /-- XRED_OR (R152): Crossing reduction by bitwise OR. -/
  | xredOr (s : Bool) (k : BitVec 3) (a : BitVec 7) (b : BitVec 7)
  /-- CPY (R332): Queues a copy-engine operation from a descriptor. -/
  | cpy (s : Bool) (d : BitVec 7) (a : BitVec 7) (p : Payload)
  /-- MCPY (R334): Queues a multicast copy into the scratch of named cores' blocks. -/
  | mcpy (s : Bool) (d : BitVec 7) (a : BitVec 7) (b : BitVec 7) (p : Payload)
  /-- FGET (R328): Reads one decoded element through the fetch unit. -/
  | fget (s : Bool) (d : BitVec 7) (a : BitVec 7) (b : BitVec 7) (p : Payload)
  /-- FGETB (R329): Decodes a window into scratch through the fetch unit. -/
  | fgetb (s : Bool) (d : BitVec 7) (a : BitVec 7) (b : BitVec 7) (p : Payload)
  /-- TLD (R300): Loads a memory window into a tile or frame. -/
  | tld (s : Bool) (d : BitVec 7) (a : BitVec 7) (p : Payload)
  /-- TST (R301): Stores a tile or frame window to memory. -/
  | tst (s : Bool) (d : BitVec 7) (a : BitVec 7) (p : Payload)
  /-- TSTC (R302): Writes a compressed tile image within a budget. -/
  | tstc (s : Bool) (d : BitVec 7) (a : BitVec 7) (b : BitVec 7) (p : Payload)
  /-- TZERO (R303): Zeroes a tile or frame window. -/
  | tzero (s : Bool) (d : BitVec 7) (p : Payload)
  /-- TMOV (R303): Copies a window bit for bit. -/
  | tmov (s : Bool) (d : BitVec 7) (a : BitVec 7) (p : Payload)
  /-- TFREE (R303): Drains a ready tile to empty. -/
  | tfree (s : Bool) (d : BitVec 7) (p : Payload)
  /-- TCVT (R304): Converts a window between formats. -/
  | tcvt (s : Bool) (d : BitVec 7) (a : BitVec 7) (p : Payload)
  /-- TLAY (R305): Loads a layout record into a slot. -/
  | tlay (s : Bool) (n : BitVec 3) (a : BitVec 7) (p : Payload)
  /-- MMA (R306): Matrix multiply-accumulate into a frame. -/
  | mma (s : Bool) (d : BitVec 7) (a : BitVec 7) (b : BitVec 7) (p : Payload)
  /-- MMAN (R306): Matrix multiply with negated products accumulated. -/
  | mman (s : Bool) (d : BitVec 7) (a : BitVec 7) (b : BitVec 7) (p : Payload)
  /-- MMS (R306): Matrix multiply starting from -0. -/
  | mms (s : Bool) (d : BitVec 7) (a : BitVec 7) (b : BitVec 7) (p : Payload)
  /-- TLU (R308): LU factorisation with partial pivoting in a frame. -/
  | tlu (s : Bool) (d : BitVec 7) (p : Payload)
  /-- TCHOL (R309): Cholesky factorisation in a frame. -/
  | tchol (s : Bool) (d : BitVec 7) (p : Payload)
  /-- TQR (R310): Householder QR factorisation in a frame. -/
  | tqr (s : Bool) (d : BitVec 7) (p : Payload)
  /-- TTRSL (R311): Lower triangular solve. -/
  | ttrsl (s : Bool) (d : BitVec 7) (a : BitVec 7) (p : Payload)
  /-- TTRSU (R311): Upper triangular solve. -/
  | ttrsu (s : Bool) (d : BitVec 7) (a : BitVec 7) (p : Payload)
  /-- TTRSN (R311): Unit lower triangular solve. -/
  | ttrsn (s : Bool) (d : BitVec 7) (a : BitVec 7) (p : Payload)
  /-- TPERM (R312): Applies pivot row swaps. -/
  | tperm (s : Bool) (d : BitVec 7) (a : BitVec 7) (p : Payload)
  /-- TQAPP (R313): Applies Q from a QR factor. -/
  | tqapp (s : Bool) (d : BitVec 7) (a : BitVec 7) (p : Payload)
  /-- TQAPPT (R313): Applies Q transpose from a QR factor. -/
  | tqappt (s : Bool) (d : BitVec 7) (a : BitVec 7) (p : Payload)
  /-- SVMV (R316): Shared-value rows times one activation vector. -/
  | svmv (s : Bool) (d : BitVec 7) (a : BitVec 7) (b : BitVec 7) (p : Payload)
  /-- SVMM (R316): Shared-value rows times several activation vectors. -/
  | svmm (s : Bool) (d : BitVec 7) (a : BitVec 7) (b : BitVec 7) (p : Payload)
  /-- SBAR_INIT (R318): Stream sets a barrier count. -/
  | sbarInit (s : Bool) (a : BitVec 7) (n : BitVec 4)
  /-- SBAR_ARRIVE (R319): Stream arrival on a barrier. -/
  | sbarArrive (s : Bool) (d : BitVec 7) (n : BitVec 4)
  /-- SBAR_WAIT (R318): Stream waits for a barrier phase change. -/
  | sbarWait (s : Bool) (d : BitVec 7) (a : BitVec 7) (n : BitVec 4)
  /-- XRD (R320): Reads a crossing register after an expected sequence. -/
  | xrd (s : Bool) (d : BitVec 7) (k : BitVec 3) (e : BitVec 7)
  /-- SFENCE (R321): Stream fence over its entries and accesses. -/
  | sfence (s : Bool) (c : BitVec 3) (m : BitVec 3)
  /-- SEND (R322): Ends the matrix stream. -/
  | send (s : Bool)
  /-- SSTAT (R318): Reads MSTAT, TBCONF or mtmask. -/
  | sstat (s : Bool) (d : BitVec 7) (e : BitVec 7)
  /-- SETFMT (R318): Sets the stream's format word. -/
  | setfmt (s : Bool) (a : BitVec 7)
  /-- CSRR (R101): Reads a CSR. -/
  | csrr (s : Bool) (d : BitVec 7) (n : BitVec 14)
  /-- CSRW (R101): Writes a CSR. -/
  | csrw (s : Bool) (n : BitVec 14) (a : BitVec 7)
  /-- PREFIX (R60): Prefix word whose payload modifies the next word. -/
  | pfxWord (p : BitVec 25) (w : BitVec 32)
  /-- KWAIT_EQ (R169): Command-processor wait until a word equals a value. -/
  | kwaitEq (b : BitVec 5) (a : BitVec 5) (d : BitVec 5)
  /-- KWAIT_NE (R169): Command-processor wait until a word differs from a value. -/
  | kwaitNe (b : BitVec 5) (a : BitVec 5) (d : BitVec 5)
  /-- KWAIT_GEU (R169): Command-processor wait until a word is at least a value, unsigned. -/
  | kwaitGeu (b : BitVec 5) (a : BitVec 5) (d : BitVec 5)
  /-- KWAIT_REREAD (R169): A blocked kwait re-reads its word on a store commit or every 1,024 ns. -/
  | kwaitReread (h : Nat)
  /-- REGISTER_RESULT_WRITE (R26): An outstanding register result completes its write after its latency. -/
  | registerResultWrite (who : Agent) (tag : Nat)
  /-- YIELD_EXPIRY (R88): The 16 cycles after a yield end and the thread becomes ready. -/
  | yieldExpiry (who : Agent)
  /-- READY_AGE_MARK (R123): A thread's ready age reaches 1,024 and it is marked. -/
  | readyAgeMark (who : Agent)
  /-- TRAP_ENTRY (R346): After outstanding results complete, the trap frame is written and the handler entered. -/
  | trapEntry (who : Agent)
  /-- FORMER_WARP_RELEASE (R134): The former releases a full or due free warp once slot and pages are free. -/
  | formerWarpRelease
  /-- FORMER_PARTIAL_TIMEOUT (R134): A partial warp's oldest record reaches 256 cycles in the core queue. -/
  | formerPartialTimeout
  /-- BLOCK_START (R168): The dispatcher starts the first block whose resources can be granted. -/
  | blockStart
  /-- QUEUE_PULL (R165): A queue holding fewer than 8 entries pulls a block of entries from the level above. -/
  | queuePull (lvl : QLevel)
  /-- QUEUE_MOVE_COMPLETE (R165): A queue move takes effect 1 to 64 cycles after it starts. -/
  | queueMoveComplete
  /-- WQ_RING_REFILL (R164): A context ring refills a block into its segment when room for eight appears. -/
  | wqRingRefill (q : Nat) (c : Nat)
  /-- TREE_COMPLETE (R163): A spawn tree completes when its counter is 0 and the time base reaches TCT. -/
  | treeComplete (t : Nat)
  /-- LAUNCH (R171): Packet that checks a header, allocates a tree and queues the seed block. -/
  | launch (q : Nat)
  /-- WAIT (R171): Packet that waits on a memory word under a relation. -/
  | wait (q : Nat)
  /-- SIGNAL (R171): Packet that releases and stores or adds a value. -/
  | signal (q : Nat)
  /-- JOIN (R171): Packet that waits for the queue's earlier trees to complete. -/
  | join (q : Nat)
  /-- COND (R171): Packet that reads a word and skips packets if the relation fails. -/
  | cond (q : Nat)
  /-- PATCH (R171): Packet that applies a table of 8-byte stores then releases. -/
  | patch (q : Nat)
  /-- DOORBELL (R395): Host write advancing a queue's write index as a release. -/
  | doorbell (q : Nat) (v : BitVec 64)
  /-- KICK (R176): Host write starting, holding or refusing a graph replay with patches. -/
  | kick (g : Nat) (v : BitVec 64)
  /-- MAP_QUEUE (R155): Command mapping a queue and adopting the context descriptor. -/
  | mapQueue
  /-- UNMAP_CTX (R174): Command unmapping a context and discarding its work. -/
  | unmapCtx
  /-- CLEAR_ERROR (R172): Command clearing a queue's ERROR state. -/
  | clearError
  /-- PREEMPT (R366): Command swapping a context out of every core. -/
  | preempt
  /-- RESUME (R366): Command restoring a context's saved slots. -/
  | resume
  /-- REG_GRAPH (R175): Command checking and registering a graph object. -/
  | regGraph
  /-- INVAL (R376): Command invalidating translations of a context range. -/
  | inval
  /-- COPY (R397): Command running a copy on a cluster's copy engine at depth 0. -/
  | copy
  /-- CHECKPOINT (R404): Command scheduling a checkpoint of the module set at stamp T. -/
  | checkpoint
  /-- RESTORE (R406): Command reading back a checkpoint image. -/
  | restore
  /-- BADCMD (R397): A command with an unknown code or bad field is refused with no effect. -/
  | badcmd
  /-- IRQMASK (R398): Host write of the interrupt mask; unmasking a set source sends its message. -/
  | irqmask (hi : Bool) (v : BitVec 64)
  /-- PWRCAP (R409): Host write of the power limit, clamped to 1,200-3,000 W. -/
  | pwrcap (v : BitVec 64)
  /-- REGISTER_WRITE (R394): Host write to a window register with no behaviour of its own. -/
  | registerWrite (off : Nat) (v : BitVec 64)
  /-- HOST_APERTURE_READ (R393): Host read through the aperture, served at the home. -/
  | hostApertureRead (pa : Nat) (n : Nat)
  /-- HOST_APERTURE_WRITE (R393): Host write through the aperture, committing at the home at depth 0. -/
  | hostApertureWrite (pa : Nat) (bs : List (BitVec 8))
  /-- ATTEST (R402): Mailbox operation returning a signed attestation report. -/
  | attest (req : BitVec 64)
  /-- CERT (R403): Mailbox operation returning part of the certificate chain. -/
  | cert (req : BitVec 64)
  /-- TIME_SET (R403): Mailbox operation loading the time base everywhere. -/
  | timeSet (req : BitVec 64)
  /-- DOMAIN_SET (R403): Mailbox operation setting MODNUM or a domain-table entry. -/
  | domainSet (req : BitVec 64)
  /-- GRANT_RANGE (R403): Mailbox GRANT kind 0 granting a master a physical range. -/
  | grantRange (req : BitVec 64)
  /-- REVOKE_RANGE (R403): Mailbox GRANT kind 1 revoking a range. -/
  | revokeRange (req : BitVec 64)
  /-- SET_EXPORT_WINDOW (R403): Mailbox GRANT kind 2 setting an export window. -/
  | setExportWindow (req : BitVec 64)
  /-- UNFREEZE_RESUME (R360): Mailbox unfreeze re-sending a frozen master's held requests. -/
  | unfreezeResume (req : BitVec 64)
  /-- UNFREEZE_RESET (R360): Mailbox unfreeze resetting a master and unmapping its contexts with FROZEN. -/
  | unfreezeReset (req : BitVec 64)
  /-- FW_LOAD (R403): Mailbox operation writing image bytes to staging, LAST starting verification. -/
  | fwLoad (req : BitVec 64)
  /-- MAILBOX_BADOP (R403): A request word with an unknown OP is answered BADOP. -/
  | mailboxBadop (req : BitVec 64)
  /-- FW_VERIFY (R399): The boot ROM finishes checking the image and starts firmware or fails. -/
  | fwVerify
  /-- MODULE_RESET (R408): Module reset returns STATE to RESET and resets registers. -/
  | moduleReset
  /-- TRAIN_COMPLETE (R408): HBM and link training ends and STATE becomes READY. -/
  | trainComplete (t : Training)
  /-- THERMAL_PREEMPT (R409): A die reaching 105 C pre-empts every context and holds the lowest clock. -/
  | thermalPreempt (temp : Nat)
  /-- THERMAL_POWER_OFF (R409): A die reaching 115 C removes power. -/
  | thermalPowerOff (temp : Nat)
  /-- POWER_CAP_ADJUST (R409): Each 1 ms average steps the arithmetic clock to hold power under PWRCAP. -/
  | powerCapAdjust (watts : Nat)
  /-- TIME_MESSAGE (R386): A domain time message arrives and the time base slews toward it. -/
  | timeMessage (t : Nat)
  /-- TIME_SYNC_LOSS (R386): Skew to domain time exceeds 40 ns; source 68 is set and peers treated unreachable. -/
  | timeSyncLoss
  /-- HEARTBEAT (R407): A 1 ms heartbeat is exchanged with each peer. -/
  | heartbeat (m : Nat)
  /-- HEARTBEAT_TIMEOUT (R407): A peer silent for 100 ms is declared unreachable. -/
  | heartbeatTimeout (m : Nat)
  /-- FLIT_CRC_FAIL (R390): A flit failing CRC is retransmitted, poisoned on a second failure. -/
  | flitCrcFail (port : Nat) (second : Bool) (id : Nat)
  /-- UNREACHABLE_COMPLETION (R390): A request to an unreachable module is completed by the sender's port within 100 us. -/
  | unreachableCompletion (id : Nat)
  /-- REMOTE_REQUEST (R388): An X request arrives at the owner and is checked against its export table. -/
  | remoteRequest (rq : RemoteReq)
  /-- WRITE_COMMIT (R213): A write commits at its home slice and receives a WCT. -/
  | writeCommit (id : Nat)
  /-- FWAIT_RETRY (R248): A woken fwait thread repeats its read-and-register step at the home. -/
  | fwaitRetry (who : Agent)
  /-- WRITE_ACK (R214): A write acknowledgement with its WCT reaches the writing agent. -/
  | writeAck (id : Nat)
  /-- FILL_REQUEST (R210): A miss is served at the home with a lease expiry and value time. -/
  | fillRequest (id : Nat)
  /-- FILL_REPLY (R210): A fill reply installs a sector in L1 without overwriting dirty bytes. -/
  | fillReply (id : Nat)
  /-- ATOMIC_AT_HOME (R238): An atomic request is applied at its home in lane order. -/
  | atomicAtHome (id : Nat)
  /-- MCAST_REQUEST (R242): A multicast request reaches a slice and joins, opens or is served alone. -/
  | mcastRequest (id : Nat)
  /-- MCAST_WINDOW_CLOSE (R242): A merge window closes on its last request or its time limit and one reply is sent. -/
  | mcastWindowClose (w : Nat)
  /-- MCAST_SLOT_FREE (R242): A closed window's slot frees W cycles after close. -/
  | mcastSlotFree (w : Nat)
  /-- RELEASE_POINT (R219): A parked release completes once its reads are served and the time base passes PCT. -/
  | releasePoint (who : Agent)
  /-- ICINV_COMPLETE (R98): Every core acknowledges the invalidation and the thread resumes. -/
  | icinvComplete (who : Agent)
  /-- FLUSH_COMPLETE (R246): Every flush write-back is acknowledged. -/
  | flushComplete (who : Agent)
  /-- CSRW_IN_FORCE (R101): A Y-level CSR write is in force on every core of the context. -/
  | csrwInForce (who : Agent)
  /-- WATCH_COMPLETE (R255): Every covered slice acknowledges an attachment and the id is written. -/
  | watchComplete (who : Agent)
  /-- UNWATCH_COMPLETE (R256): Detach acknowledged and pending records drained or discarded. -/
  | unwatchComplete (who : Agent)
  /-- TRIGGER_REFILL (R263): A slice reads back a context's oldest ring block when its count is low enough. -/
  | triggerRefill (q : Nat) (c : Nat)
  /-- TRIG_OVERFLOW (R264): Lost-record count is reported at most once every 4,096 ns. -/
  | trigOverflow (q : Nat) (c : Nat)
  /-- TRIGGER_DISPATCH (R265): A pending record becomes a task in the slice's segment. -/
  | triggerDispatch (q : Nat)
  /-- C_WRITEBACK_DONE (R191): A C shrink's write-backs are acknowledged and the banks change role. -/
  | cWritebackDone
  /-- RELOCATION_COMPLETE (R192): A scratch relocation finishes copying and releases arena banks. -/
  | relocationComplete
  /-- WGROW_GRANT (R196): A parked blocking wgrow is granted as pages appear. -/
  | wgrowGrant
  /-- WSHRINK_COMPLETE (R198): Outstanding writes to freed registers complete and pages are freed. -/
  | wshrinkComplete (who : Agent)
  /-- POOL_REL_COMPLETE (R200): The block's scratch accesses complete and its extent is freed. -/
  | poolRelComplete (who : Agent)
  /-- PASS_GRANT (R282): The arbiter grants the next pass to one eligible entry. -/
  | passGrant
  /-- PASS_END (R290): A pass ends, its done bit and mtmask are written. -/
  | passEnd
  /-- ENGINE_RELEASE (R291): An operation with REL completes once the time base reaches its OPCT. -/
  | engineRelease (n : Nat)
  /-- TILE_FETCH (R284): The tile fetch unit reads an operand line at the home after write-back. -/
  | tileFetch (n : Nat)
  /-- COPY_OP_START (R332): The copy engine starts its next accepted or set-aside operation. -/
  | copyOpStart
  /-- COPY_OP_COMPLETE (R332): A copy operation completes and posts its status. -/
  | copyOpComplete (id : Nat)
  /-- FGET_DECODE (R328): The fetch unit delivers a decoded element or a precise trap. -/
  | fgetDecode (who : Agent)
  /-- FGETB_COMPLETE (R329): A fetch window operation finishes writing scratch and posts status. -/
  | fgetbComplete (id : Nat)
  /-- FAULT_RECORD_WRITE (R377): A fault record is written when the fault queue has room. -/
  | faultRecordWrite (i : Nat)
  /-- FAULT_RESPONSE (R379): The fault unit reads a non-zero RESP and replays or traps the waiters. -/
  | faultResponse (i : Nat)
  /-- FAULT_QUEUE_REREAD (R377): The device re-reads the fault-queue header on a store or every 1,024 ns. -/
  | faultQueueReread (c : Nat)
  /-- ECC_RETRY (R356): An uncorrectable error's retry completes as transient or lasting poison. -/
  | eccRetry (site : EccSite) (how : EccEnd)
  /-- WALKER_GRANT (R374): A waiting translation miss is granted a walker. -/
  | walkerGrant
  /-- WALK_COMPLETE (R374): A page walk completes with a translation or a fault. -/
  | walkComplete (i : Nat)
  /-- PLANE_SWAP (R362): A swap request takes effect at an instruction boundary. -/
  | planeSwap
  /-- SWAP_END (R362): After 48 cycles the planes exchange roles. -/
  | swapEnd
  /-- SAVE_COMPLETE (R363): The spill engine finishes the save and writes the header. -/
  | saveComplete
  /-- RESTORE_START (R364): A restore starts once the standby plane is EMPTY and resources are reserved. -/
  | restoreStart (c : Nat)
  /-- RESTORE_COMPLETE (R364): The restore reads finish and the plane becomes READY or the context is unmapped. -/
  | restoreComplete
  /-- ENGINE_IMAGE_RESTORE (R364): After the swap, engine image and frames are read into the cluster. -/
  | engineImageRestore
  /-- CHECKPOINT_QUIESCE (R404): At time T the module pre-empts contexts and holds work. -/
  | checkpointQuiesce
  /-- QUIESCED (R404): A QUIESCED message from a module of the set is received. -/
  | quiesced (m : Nat)
  /-- CHECKPOINT_ABANDON (R404): Missing QUIESCED after 1 s abandons the checkpoint. -/
  | checkpointAbandon
  /-- CHECKPOINT_CLOSE (R404): Streaming ends, the valid header is written and held work released. -/
  | checkpointClose
  /-- RESTORE_READBACK_DONE (R406): A RESTORE finishes reading the image and checking its CRC. -/
  | restoreReadbackDone
  /-- INSTRUCTION_FETCH_FILL (R122): A line that missed in both the loop buffer and the instruction cache arrives, and the group waiting on it becomes ready. -/
  | instructionFetchFill (who : Agent)
  /-- RESERVED_MAJOR (R66): A thread fetches a word with a reserved major, an unlisted f code or the all-zero word, and takes illegal-instruction. -/
  | reservedMajor (w : BitVec 32)
  /-- IRQSTAT_CLEAR (R398): A host write of ones to IRQSTAT clears interrupt source bits, so a later setting sends a new message. -/
  | irqstatClear (hi : Bool) (v : BitVec 64)
  /-- CTXERR_CLEAR (R173): A host write of ones to CTXERR clears the per-context error-record bits. -/
  | ctxerrClear (v : BitVec 64)
  /-- BRING_UP_START (R408): After module reset the boot ROM comes up and STATE moves from RESET to WAIT_FW. -/
  | bringUpStart
  /-- PLDM_REQUEST (R410): An MCTP/PLDM monitoring request arrives on the management connection and is answered with PWR, TEMP, STATE or the RAS counts. -/
  | pldmRequest (sel : Nat)
  deriving DecidableEq, Repr

end Sys2Proof
end

