-- ==== Sys2Proof/WellFormed.lean ====
section
/-! DEFINITION. Which instructions are legal: the register fields an instruction names (R15, R16, R57 to R59), the payload
its word accepts (R60 to R64, Table 3-3) and the field rules of its entry. One table, `Instr.shape`, holds all three; the
decoder's must-be-zero fields (R57) are in `Decode`. -/

namespace Sys2Proof

/-- How an instruction uses a register field: source, destination, or read and then written. -/
inductive UseKind where
  | src | dst | upd
  deriving DecidableEq, Repr

/-- The operand position of a field: d, a or b, whose payload bits can add `wi` or a pattern to it (R61), or none of them. -/
inductive Slot where
  | d | a | b | x
  deriving DecidableEq, Repr

/-- A register field: its encoding, how many registers it names (1, 2, 4 or 8), and its use. -/
structure Use where
  f : BitVec 7
  n : Nat
  role : UseKind
  slot : Slot
  deriving DecidableEq, Repr

/-- The members that take a memory payload (R62, R231, R234, R240). -/
inductive MemKind where
  | load | store | sload | sstore | atomic | ldmc
  deriving DecidableEq, Repr

/-- The payload a word accepts (Table 3-3): none; ALU, with whether the member rounds and whether it reads a and b as
operands that a pattern can stand on; memory; collective; tile, with the MOD bits its entry defines; or only zeros (R327). -/
inductive PKind where
  | none
  | alu (rounds useA useB : Bool)
  | mem (k : MemKind)
  | coll
  | tile (mods : BitVec 12)
  | zero
  deriving DecidableEq, Repr

/-- What makes an instruction legal: register fields, payload, the entry's own field rule, and where it may run (R66, R67). -/
structure Shape where
  uses : List Use
  pk : PKind
  extra : Bool
  simt : Bool
  stream : Bool
  deriving DecidableEq, Repr

/-! ## Register fields -/

/-- A field of the SIMT side is legal (R16, R19, R57, R58). -/
def Use.okSimt (u : Use) : Bool :=
  match u.n with
  | 1 => if u.role = .src then decide (u.f.toNat ≤ 125) else decide (u.f.toNat ≤ 95 ∨ u.f.toNat = 112)
  | n => decide (u.f.toNat ≤ 95 ∧ u.f.toNat % n = 0)

/-- A field of a matrix stream is legal: c0 to c31 (R59). -/
def Use.okStream (u : Use) : Bool := decide (u.f.toNat ≤ 31)

/-! ## Payload fields -/

/-- Bits `lo + len - 1 .. lo` of a payload, as a number. -/
def pbits (p : BitVec 25) (lo len : Nat) : Nat := (p.extractLsb' lo len).toNat

/-- Table 3-5: which amounts a pattern takes. -/
def patternOk (pat amt : Nat) : Bool :=
  match pat with
  | 0 => amt == 0
  | 1 => amt != 0
  | 2 => true
  | 3 => amt != 0
  | 4 => decide (1 ≤ amt ∧ amt ≤ 5)
  | 5 => amt != 0
  | 6 => amt != 0
  | _ => false

/-- No `wi` is added to a field that names a special register (R15, R61). -/
def wiOk (uses : List Use) (slot : Slot) (wi : Nat) : Bool :=
  wi == 0 || uses.all (fun u => u.slot != slot || decide (u.f.toNat ≤ 95))

/-- R61 and R103: an ALU payload. A quad source takes no pattern. -/
def aluPayloadOk (uses : List Use) (rounds useA useB : Bool) (p : BitVec 25) : Bool :=
  patternOk (pbits p 22 3) (pbits p 17 5) && patternOk (pbits p 14 3) (pbits p 9 5)
  && (useA || (pbits p 22 3 == 0 && pbits p 17 5 == 0 && pbits p 3 1 == 0))
  && (useB || (pbits p 14 3 == 0 && pbits p 9 5 == 0 && pbits p 2 1 == 0))
  && wiOk uses .d (pbits p 4 1) && wiOk uses .a (pbits p 3 1) && wiOk uses .b (pbits p 2 1)
  && (rounds || (pbits p 6 3 == 0 && pbits p 5 1 == 0))
  && decide (pbits p 6 3 ≤ 5)
  && pbits p 0 2 == 0
  && uses.all (fun u => u.slot != .a || u.n != 4 || pbits p 22 3 == 0)

/-- The ordering part of R62 and R64: a scope and a mask stand exactly with ACQ or REL. -/
def orderOk (p : BitVec 25) : Bool :=
  if pbits p 23 2 = 0 then pbits p 17 6 == 0 else pbits p 17 3 != 0

/-- R62, R96, R231, R234 and R240: a memory payload. SMASK is [17] S, [18] G, [19] X. A plain scratch access may set HINT. -/
def memPayloadOk (k : MemKind) (p : BitVec 25) : Bool :=
  orderOk p && pbits p 0 8 == 0
  && (match k with
      | .load => pbits p 23 1 == 0 && pbits p 8 7 == 0 && (pbits p 24 1 == 0 || pbits p 18 2 != 0)
      | .store => pbits p 24 1 == 0 && pbits p 8 7 == 0 && (pbits p 23 1 == 0 || pbits p 18 2 != 0)
      | .sload => pbits p 23 1 == 0 && pbits p 8 7 == 0 && (pbits p 24 1 == 0 || pbits p 15 2 == 0 && pbits p 17 1 != 0)
      | .sstore => pbits p 24 1 == 0 && pbits p 8 7 == 0 && (pbits p 23 1 == 0 || pbits p 15 2 == 0 && pbits p 17 1 != 0)
      | .atomic => pbits p 8 9 == 0
      | .ldmc => pbits p 23 1 == 0 && pbits p 15 2 == 0 && (pbits p 24 1 == 0 || pbits p 18 2 != 0)
          && decide (pbits p 8 7 ≤ 94 ∧ pbits p 8 7 % 2 = 0))

/-- R64: a tile payload with the MOD bits `mods`. -/
def tilePayloadOk (mods : BitVec 12) (p : BitVec 25) : Bool :=
  orderOk p && (pbits p 12 1 == 1 || pbits p 13 4 == 0) && (p.extractLsb' 0 12 &&& ~~~mods) == 0

/-- A payload is one its word accepts; a word that requires one (Table 3-3) has it. -/
def payloadOk (sh : Shape) : Payload → Bool
  | none => match sh.pk with
    | .coll => false
    | .mem .ldmc => false
    | _ => true
  | some p => match sh.pk with
    | .none => false
    | .alu r ua ub => aluPayloadOk sh.uses r ua ub p
    | .mem k => memPayloadOk k p
    | .coll => pbits p 0 18 == 0 && decide (pbits p 18 7 ≤ 125)
    | .tile m => tilePayloadOk m p
    | .zero => p == 0

/-- The even register that names the core mask of `ldmc.q` (R62), and the format-word field of `wmm` (R63). -/
def ldmcMask (p : Payload) : BitVec 7 := (p.getD 0).extractLsb' 8 7
def wmmFormat (p : Payload) : BitVec 7 := (p.getD 0).extractLsb' 18 7

/-! ## Conversion codes (R68, Table 3-10) -/

/-- `cvt`: c[6:4] is 0 to 7, c[3:0] 0 to 15, and the two do not name one format. -/
def cvtCodeOk (c : BitVec 7) : Bool :=
  let x := c.toNat
  x != 0x00 && x != 0x11 && x != 0x22 && x != 0x33 && x != 0x4C && x != 0x5D && x != 0x6E && x != 0x7F

def cvtpCodeOk (c : BitVec 7) : Bool :=
  decide (c.toNat / 16 ≤ 1) && decide (c.toNat % 16 = 2 ∨ c.toNat % 16 = 3)

def cvtqCodeOk (c : BitVec 7) : Bool :=
  decide (c.toNat / 16 ≤ 1) && decide (4 ≤ c.toNat % 16 ∧ c.toNat % 16 ≤ 7)

/-- Registers of a `cvt` source: a pair for FP64, I64 and N64. -/
def cvtSrcRegs (c : BitVec 7) : Nat :=
  if c.toNat / 16 = 1 ∨ c.toNat / 16 = 6 ∨ c.toNat / 16 = 7 then 2 else 1

/-- Registers of a `cvt` destination: a pair for FP64, I64 and N64. -/
def cvtDstRegs (c : BitVec 7) : Nat :=
  if c.toNat % 16 = 1 ∨ c.toNat % 16 = 14 ∨ c.toNat % 16 = 15 then 2 else 1

/-! ## Forms -/

/-- Three register operands under an ALU payload: majors 0x01 to 0x04 and 0x18 to 0x1D. `nd`, `na`, `nb` are the register counts. -/
def Shape.alu3 (nd na nb : Nat) (rounds : Bool) (stream : Bool) (d a b : BitVec 7) : Shape :=
  ⟨[⟨a, na, .src, .a⟩, ⟨b, nb, .src, .b⟩, ⟨d, nd, .dst, .d⟩], .alu rounds true true, true, true, stream⟩

/-- As `alu3`, for a member that also reads d. -/
def Shape.alu3u (nd na nb : Nat) (rounds : Bool) (stream : Bool) (d a b : BitVec 7) : Shape :=
  ⟨[⟨a, na, .src, .a⟩, ⟨b, nb, .src, .b⟩, ⟨d, nd, .upd, .d⟩], .alu rounds true true, true, true, stream⟩

/-- d and a under an ALU payload; `useB` where a pattern on the unread b is still legal (R61, R103). -/
def Shape.alu2 (nd na : Nat) (rounds useB : Bool) (extra : Bool) (stream : Bool) (d a : BitVec 7) : Shape :=
  ⟨[⟨a, na, .src, .a⟩, ⟨d, nd, .dst, .d⟩], .alu rounds true useB, extra, true, stream⟩

/-- `movh` and `movl`: d alone. -/
def Shape.mov (k : UseKind) (d : BitVec 7) : Shape := ⟨[⟨d, 1, k, .d⟩], .alu false false false, true, true, true⟩

/-- No payload: register fields given as uses. -/
def Shape.plain (uses : List Use) (extra : Bool := true) (stream : Bool := false) : Shape := ⟨uses, .none, extra, true, stream⟩

/-- A global load of `n` registers (R94); a stream takes the single and the pair forms (R67). -/
def Shape.ld (n : Nat) (t r : BitVec 7) : Shape := ⟨[⟨r, 2, .src, .a⟩, ⟨t, n, .dst, .d⟩], .mem .load, true, true, decide (n ≤ 2)⟩
def Shape.ldmc (t r : BitVec 7) (p : Payload) : Shape :=
  ⟨[⟨r, 2, .src, .a⟩, ⟨t, 4, .dst, .d⟩, ⟨ldmcMask p, 2, .src, .b⟩], .mem .ldmc, true, true, false⟩
def Shape.st (n : Nat) (t r : BitVec 7) : Shape := ⟨[⟨r, 2, .src, .a⟩, ⟨t, n, .src, .d⟩], .mem .store, true, true, decide (n ≤ 2)⟩
def Shape.lds (n : Nat) (t r : BitVec 7) : Shape := ⟨[⟨r, 1, .src, .a⟩, ⟨t, n, .dst, .d⟩], .mem .sload, true, true, false⟩
def Shape.sts (n : Nat) (t r : BitVec 7) : Shape := ⟨[⟨r, 1, .src, .a⟩, ⟨t, n, .src, .d⟩], .mem .sstore, true, true, false⟩

/-- An atomic whose address takes `na` registers and whose value takes `n`; `k` is how it uses d (R234). -/
def Shape.amo (na n : Nat) (k : UseKind) (d a b : BitVec 7) : Shape :=
  ⟨[⟨a, na, .src, .a⟩, ⟨b, n, .src, .b⟩, ⟨d, n, k, .d⟩], .mem .atomic, true, true, false⟩

/-- A collective of a and a mask (R141); `k` is how it uses d. -/
def Shape.coll (k : UseKind) (d a b : BitVec 7) : Shape := .plain [⟨a, 1, .src, .a⟩, ⟨b, 1, .src, .b⟩, ⟨d, 1, k, .d⟩]
def Shape.wmm (d a b : BitVec 7) (p : Payload) : Shape :=
  ⟨[⟨a, 1, .src, .a⟩, ⟨b, 1, .src, .b⟩, ⟨wmmFormat p, 1, .src, .x⟩, ⟨d, 2, .upd, .d⟩], .coll, true, true, false⟩

/-- Major 0x2A: a pair a, `nb` registers of b, a status or element in d (R327). -/
def Shape.eng (pk : PKind) (nb : Nat) (d a b : BitVec 7) : Shape :=
  ⟨[⟨a, 2, .src, .a⟩] ++ (if nb = 0 then [] else [⟨b, nb, .src, .b⟩]) ++ [⟨d, 1, .dst, .d⟩], pk, true, true, false⟩

/-- A tile instruction of a stream, which reads the c registers of `fs` (R294). -/
def Shape.tile (mods : BitVec 12) (fs : List (BitVec 7)) : Shape := ⟨fs.map (⟨·, 1, .src, .x⟩), .tile mods, true, false, true⟩

/-- A control instruction of a stream (R318). -/
def Shape.seq (uses : List Use) (extra : Bool := true) : Shape := ⟨uses, .none, extra, false, true⟩

def Shape.cvt (d a c : BitVec 7) : Shape := .alu2 (cvtDstRegs c) (cvtSrcRegs c) true false (cvtCodeOk c) false d a
def Shape.cvtp (d a c : BitVec 7) : Shape :=
  if c.toNat < 16 then .alu2 1 2 true false (cvtpCodeOk c) false d a else .alu2 2 1 false false (cvtpCodeOk c) false d a
def Shape.cvtq (d a c : BitVec 7) : Shape :=
  if c.toNat < 16 then .alu2 1 4 true false (cvtqCodeOk c) false d a else .alu2 4 1 false false (cvtqCodeOk c) false d a
def Shape.fclass (d a k : BitVec 7) : Shape := .alu2 1 (if k = 1 then 2 else 1) false false (decide (k.toNat < 4)) false d a

/-! ## The table -/

/-- The shape of each instruction word; the steps without a word name no register. -/
def Instr.shape : Instr → Shape
  | .add _ d a b _ => .alu3 1 1 1 false true d a b
  | .sub _ d a b _ => .alu3 1 1 1 false true d a b
  | .and _ d a b _ => .alu3 1 1 1 false true d a b
  | .or _ d a b _ => .alu3 1 1 1 false true d a b
  | .xor _ d a b _ => .alu3 1 1 1 false true d a b
  | .andn _ d a b _ => .alu3 1 1 1 false true d a b
  | .shl _ d a b _ => .alu3 1 1 1 false true d a b
  | .shr _ d a b _ => .alu3 1 1 1 false true d a b
  | .sar _ d a b _ => .alu3 1 1 1 false true d a b
  | .rot _ d a b _ => .alu3 1 1 1 false true d a b
  | .min _ d a b _ => .alu3 1 1 1 false true d a b
  | .max _ d a b _ => .alu3 1 1 1 false true d a b
  | .minn _ d a b _ => .alu3 1 1 1 false true d a b
  | .maxn _ d a b _ => .alu3 1 1 1 false true d a b
  | .mul _ d a b _ => .alu3 1 1 1 false true d a b
  | .mulh _ d a b _ => .alu3 1 1 1 false true d a b
  | .mulhn _ d a b _ => .alu3 1 1 1 false true d a b
  | .div _ d a b _ => .alu3 1 1 1 false true d a b
  | .divn _ d a b _ => .alu3 1 1 1 false true d a b
  | .rem _ d a b _ => .alu3 1 1 1 false true d a b
  | .remn _ d a b _ => .alu3 1 1 1 false true d a b
  | .clz _ d a _ => .alu2 1 1 false true true true d a
  | .popc _ d a _ => .alu2 1 1 false true true true d a
  | .brev _ d a _ => .alu2 1 1 false true true true d a
  | .abs _ d a _ => .alu2 1 1 false true true true d a
  | .neg _ d a _ => .alu2 1 1 false true true true d a
  | .sel _ d a b _ => .alu3u 1 1 1 false true d a b
  | .mla _ d a b _ => .alu3u 1 1 1 false true d a b
  | .adds _ d a b _ => .alu3 1 1 1 false true d a b
  | .subs _ d a b _ => .alu3 1 1 1 false true d a b
  | .addsn _ d a b _ => .alu3 1 1 1 false true d a b
  | .subsn _ d a b _ => .alu3 1 1 1 false true d a b
  | .eq _ d a b _ => .alu3 1 1 1 false true d a b
  | .ne _ d a b _ => .alu3 1 1 1 false true d a b
  | .lt _ d a b _ => .alu3 1 1 1 false true d a b
  | .le _ d a b _ => .alu3 1 1 1 false true d a b
  | .ltn _ d a b _ => .alu3 1 1 1 false true d a b
  | .len _ d a b _ => .alu3 1 1 1 false true d a b
  | .add64 _ d a b _ => .alu3 2 2 2 false true d a b
  | .sub64 _ d a b _ => .alu3 2 2 2 false true d a b
  | .mul64 _ d a b _ => .alu3 2 2 2 false true d a b
  | .shl64 _ d a b _ => .alu3 2 2 1 false true d a b
  | .shr64 _ d a b _ => .alu3 2 2 1 false true d a b
  | .sar64 _ d a b _ => .alu3 2 2 1 false true d a b
  | .eq64 _ d a b _ => .alu3 1 2 2 false true d a b
  | .lt64 _ d a b _ => .alu3 1 2 2 false true d a b
  | .ltn64 _ d a b _ => .alu3 1 2 2 false true d a b
  | .mov64 _ d a _ => .alu2 2 2 false true true true d a
  | .addx _ d a b _ => .alu3 2 2 1 false true d a b
  | .addxn _ d a b _ => .alu3 2 2 1 false true d a b
  | .addi _ d a _ _ => .alu2 1 1 false false true true d a
  | .andi _ d a _ _ => .alu2 1 1 false false true true d a
  | .ori _ d a _ _ => .alu2 1 1 false false true true d a
  | .xori _ d a _ _ => .alu2 1 1 false false true true d a
  | .shli _ d a _ _ => .alu2 1 1 false false true true d a
  | .shri _ d a _ _ => .alu2 1 1 false false true true d a
  | .sari _ d a _ _ => .alu2 1 1 false false true true d a
  | .roti _ d a _ _ => .alu2 1 1 false false true true d a
  | .slti _ d a _ _ => .alu2 1 1 false false true true d a
  | .sltni _ d a _ _ => .alu2 1 1 false false true true d a
  | .addxi _ d a _ _ => .alu2 2 2 false false true true d a
  | .movh _ d _ _ => .mov .dst d
  | .movl _ d _ _ => .mov .upd d
  | .bz _ a _ => .plain [⟨a, 1, .src, .a⟩] true true
  | .bnz _ a _ => .plain [⟨a, 1, .src, .a⟩] true true
  | .bltz _ a _ => .plain [⟨a, 1, .src, .a⟩] true true
  | .bgez _ a _ => .plain [⟨a, 1, .src, .a⟩] true true
  | .jmp _ _ => .plain [] true true
  | .call _ _ => .plain [] true true
  | .jr _ a => .plain [⟨a, 2, .src, .a⟩] true true
  | .callr _ a => .plain [⟨a, 2, .src, .a⟩] true true
  | .ret _ => .plain [] true true
  | .exit _ => .plain []
  | .nop _ => .plain [] true true
  | .yield _ => .plain []
  | .trap _ _ => .plain []
  | .brk _ _ => .plain []
  | .rett _ => .plain []
  | .brxZ _ a _ => .plain [⟨a, 1, .src, .a⟩]
  | .brxNz _ a _ => .plain [⟨a, 1, .src, .a⟩]
  | .brxLtz _ a _ => .plain [⟨a, 1, .src, .a⟩]
  | .brxGez _ a _ => .plain [⟨a, 1, .src, .a⟩]
  | .cont _ d a => .plain [⟨a, 2, .src, .a⟩, ⟨d, 1, .dst, .d⟩]
  | .qput _ d a b => .plain [⟨a, 2, .src, .a⟩, ⟨b, 1, .src, .b⟩, ⟨d, 1, .dst, .d⟩]
  | .watch _ d a => .plain [⟨a, 2, .src, .a⟩, ⟨d, 1, .dst, .d⟩]
  | .unwatch _ d a b => .plain [⟨a, 1, .src, .a⟩, ⟨b, 1, .src, .b⟩, ⟨d, 1, .dst, .d⟩]
  | .wgrow _ d a => .plain [⟨a, 1, .src, .a⟩, ⟨d, 1, .dst, .d⟩]
  | .wshrink _ d a => .plain [⟨a, 1, .src, .a⟩, ⟨d, 1, .dst, .d⟩]
  | .wbase _ a => .plain [⟨a, 1, .src, .a⟩]
  | .wiset _ a => .plain [⟨a, 1, .src, .a⟩]
  | .vrgat _ d a => .plain [⟨a, 1, .src, .a⟩, ⟨d, 1, .dst, .d⟩]
  | .vrsca _ a b => .plain [⟨a, 1, .src, .a⟩, ⟨b, 1, .src, .b⟩]
  | .poolReq _ d a => .plain [⟨a, 1, .src, .a⟩, ⟨d, 1, .dst, .d⟩]
  | .poolRel _ d a => .plain [⟨a, 1, .src, .a⟩, ⟨d, 1, .dst, .d⟩]
  | .poolMap _ d a => .plain [⟨a, 1, .src, .a⟩, ⟨d, 1, .dst, .d⟩]
  | .poolOcc _ d a => .plain [⟨a, 1, .src, .a⟩, ⟨d, 1, .dst, .d⟩]
  | .tstate _ d a => .plain [⟨a, 1, .src, .a⟩, ⟨d, 1, .dst, .d⟩]
  | .tmark _ d a => .plain [⟨a, 1, .src, .a⟩, ⟨d, 1, .dst, .d⟩]
  | .faddS _ d a b _ => .alu3 1 1 1 true false d a b
  | .fsubS _ d a b _ => .alu3 1 1 1 true false d a b
  | .fmulS _ d a b _ => .alu3 1 1 1 true false d a b
  | .fminS _ d a b _ => .alu3 1 1 1 false false d a b
  | .fmaxS _ d a b _ => .alu3 1 1 1 false false d a b
  | .fdivS _ d a b _ => .alu3 1 1 1 true false d a b
  | .fsqrtS _ d a _ => .alu2 1 1 true false true false d a
  | .frcpS _ d a _ => .alu2 1 1 true false true false d a
  | .fabsS _ d a _ => .alu2 1 1 false false true false d a
  | .fnegS _ d a _ => .alu2 1 1 false false true false d a
  | .feqS _ d a b _ => .alu3 1 1 1 false false d a b
  | .fltS _ d a b _ => .alu3 1 1 1 false false d a b
  | .fleS _ d a b _ => .alu3 1 1 1 false false d a b
  | .funS _ d a b _ => .alu3 1 1 1 false false d a b
  | .fmaS _ d a b _ => .alu3u 1 1 1 true false d a b
  | .fnmaS _ d a b _ => .alu3u 1 1 1 true false d a b
  | .faddD _ d a b _ => .alu3 2 2 2 true false d a b
  | .fsubD _ d a b _ => .alu3 2 2 2 true false d a b
  | .fmulD _ d a b _ => .alu3 2 2 2 true false d a b
  | .fminD _ d a b _ => .alu3 2 2 2 false false d a b
  | .fmaxD _ d a b _ => .alu3 2 2 2 false false d a b
  | .fdivD _ d a b _ => .alu3 2 2 2 true false d a b
  | .fsqrtD _ d a _ => .alu2 2 2 true false true false d a
  | .frcpD _ d a _ => .alu2 2 2 true false true false d a
  | .fabsD _ d a _ => .alu2 2 2 false false true false d a
  | .fnegD _ d a _ => .alu2 2 2 false false true false d a
  | .feqD _ d a b _ => .alu3 1 2 2 false false d a b
  | .fltD _ d a b _ => .alu3 1 2 2 false false d a b
  | .fleD _ d a b _ => .alu3 1 2 2 false false d a b
  | .funD _ d a b _ => .alu3 1 2 2 false false d a b
  | .fmaD _ d a b _ => .alu3u 2 2 2 true false d a b
  | .fnmaD _ d a b _ => .alu3u 2 2 2 true false d a b
  | .faddH2 _ d a b _ => .alu3 1 1 1 true false d a b
  | .fsubH2 _ d a b _ => .alu3 1 1 1 true false d a b
  | .fmulH2 _ d a b _ => .alu3 1 1 1 true false d a b
  | .fminH2 _ d a b _ => .alu3 1 1 1 false false d a b
  | .fmaxH2 _ d a b _ => .alu3 1 1 1 false false d a b
  | .fdivH2 _ d a b _ => .alu3 1 1 1 true false d a b
  | .fsqrtH2 _ d a _ => .alu2 1 1 true false true false d a
  | .frcpH2 _ d a _ => .alu2 1 1 true false true false d a
  | .fabsH2 _ d a _ => .alu2 1 1 false false true false d a
  | .fnegH2 _ d a _ => .alu2 1 1 false false true false d a
  | .feqH2 _ d a b _ => .alu3 1 1 1 false false d a b
  | .fltH2 _ d a b _ => .alu3 1 1 1 false false d a b
  | .fleH2 _ d a b _ => .alu3 1 1 1 false false d a b
  | .funH2 _ d a b _ => .alu3 1 1 1 false false d a b
  | .fmaH2 _ d a b _ => .alu3u 1 1 1 true false d a b
  | .fnmaH2 _ d a b _ => .alu3u 1 1 1 true false d a b
  | .faddB2 _ d a b _ => .alu3 1 1 1 true false d a b
  | .fsubB2 _ d a b _ => .alu3 1 1 1 true false d a b
  | .fmulB2 _ d a b _ => .alu3 1 1 1 true false d a b
  | .fminB2 _ d a b _ => .alu3 1 1 1 false false d a b
  | .fmaxB2 _ d a b _ => .alu3 1 1 1 false false d a b
  | .fdivB2 _ d a b _ => .alu3 1 1 1 true false d a b
  | .fsqrtB2 _ d a _ => .alu2 1 1 true false true false d a
  | .frcpB2 _ d a _ => .alu2 1 1 true false true false d a
  | .fabsB2 _ d a _ => .alu2 1 1 false false true false d a
  | .fnegB2 _ d a _ => .alu2 1 1 false false true false d a
  | .feqB2 _ d a b _ => .alu3 1 1 1 false false d a b
  | .fltB2 _ d a b _ => .alu3 1 1 1 false false d a b
  | .fleB2 _ d a b _ => .alu3 1 1 1 false false d a b
  | .funB2 _ d a b _ => .alu3 1 1 1 false false d a b
  | .fmaB2 _ d a b _ => .alu3u 1 1 1 true false d a b
  | .fnmaB2 _ d a b _ => .alu3u 1 1 1 true false d a b
  | .fexp2 _ d a _ => .alu2 1 1 true false true false d a
  | .flog2 _ d a _ => .alu2 1 1 true false true false d a
  | .fsin _ d a _ => .alu2 1 1 true false true false d a
  | .fcos _ d a _ => .alu2 1 1 true false true false d a
  | .frsq _ d a _ => .alu2 1 1 true false true false d a
  | .ftanh _ d a _ => .alu2 1 1 true false true false d a
  | .cvt _ d a c _ => .cvt d a c
  | .cvtp _ d a c _ => .cvtp d a c
  | .cvtq _ d a c _ => .cvtq d a c
  | .fclass _ d a k _ => .fclass d a k
  | .fscl _ d a b _ => .alu3 1 1 1 true false d a b
  | .ldB _ t r _ _ => .ld 1 t r
  | .ldBs _ t r _ _ => .ld 1 t r
  | .ldH _ t r _ _ => .ld 1 t r
  | .ldHs _ t r _ _ => .ld 1 t r
  | .ldW _ t r _ _ => .ld 1 t r
  | .ldD _ t r _ _ => .ld 2 t r
  | .ldQ _ t r _ _ => .ld 4 t r
  | .ldO _ t r _ _ => .ld 8 t r
  | .ldmcQ _ t r _ p => .ldmc t r p
  | .stB _ t r _ _ => .st 1 t r
  | .stH _ t r _ _ => .st 1 t r
  | .stW _ t r _ _ => .st 1 t r
  | .stD _ t r _ _ => .st 2 t r
  | .stQ _ t r _ _ => .st 4 t r
  | .stO _ t r _ _ => .st 8 t r
  | .ldsW _ t r _ _ => .lds 1 t r
  | .ldsD _ t r _ _ => .lds 2 t r
  | .ldsQ _ t r _ _ => .lds 4 t r
  | .stsW _ t r _ _ => .sts 1 t r
  | .stsD _ t r _ _ => .sts 2 t r
  | .stsQ _ t r _ _ => .sts 4 t r
  | .amoAdd _ d a b _ => .amo 2 1 .dst d a b
  | .amoAnd _ d a b _ => .amo 2 1 .dst d a b
  | .amoOr _ d a b _ => .amo 2 1 .dst d a b
  | .amoXor _ d a b _ => .amo 2 1 .dst d a b
  | .amoMin _ d a b _ => .amo 2 1 .dst d a b
  | .amoMax _ d a b _ => .amo 2 1 .dst d a b
  | .amoMinn _ d a b _ => .amo 2 1 .dst d a b
  | .amoMaxn _ d a b _ => .amo 2 1 .dst d a b
  | .amoSwap _ d a b _ => .amo 2 1 .dst d a b
  | .amoCas _ d a b _ => .amo 2 1 .upd d a b
  | .amoFadd _ d a b _ => .amo 2 1 .dst d a b
  | .amoAddb2 _ d a b _ => .amo 2 1 .dst d a b
  | .amoAddh2 _ d a b _ => .amo 2 1 .dst d a b
  | .amoAdd64 _ d a b _ => .amo 2 2 .dst d a b
  | .amoCas64 _ d a b _ => .amo 2 2 .upd d a b
  | .amoInc _ d a b _ => .amo 2 1 .dst d a b
  | .samoAdd _ d a b _ => .amo 1 1 .dst d a b
  | .samoAnd _ d a b _ => .amo 1 1 .dst d a b
  | .samoOr _ d a b _ => .amo 1 1 .dst d a b
  | .samoXor _ d a b _ => .amo 1 1 .dst d a b
  | .samoMin _ d a b _ => .amo 1 1 .dst d a b
  | .samoMax _ d a b _ => .amo 1 1 .dst d a b
  | .samoMinn _ d a b _ => .amo 1 1 .dst d a b
  | .samoMaxn _ d a b _ => .amo 1 1 .dst d a b
  | .samoSwap _ d a b _ => .amo 1 1 .dst d a b
  | .samoCas _ d a b _ => .amo 1 1 .upd d a b
  | .samoFadd _ d a b _ => .amo 1 1 .dst d a b
  | .samoAddb2 _ d a b _ => .amo 1 1 .dst d a b
  | .samoAddh2 _ d a b _ => .amo 1 1 .dst d a b
  | .samoAdd64 _ d a b _ => .amo 1 2 .dst d a b
  | .samoCas64 _ d a b _ => .amo 1 2 .upd d a b
  | .samoInc _ d a b _ => .amo 1 1 .dst d a b
  | .fence _ _ m => .plain [] (decide (m ≠ 0))
  | .fenceAcq _ _ m => .plain [] (decide (m ≠ 0))
  | .fenceRel _ _ m => .plain [] (decide (m ≠ 0))
  | .wct _ d => .plain [⟨d, 2, .dst, .d⟩]
  | .flush _ a b => .plain [⟨a, 2, .src, .a⟩, ⟨b, 1, .src, .b⟩]
  | .icinv _ a b => .plain [⟨a, 2, .src, .a⟩, ⟨b, 1, .src, .b⟩]
  | .fwait _ d a b => .plain [⟨a, 2, .src, .a⟩, ⟨b, 1, .src, .b⟩, ⟨d, 1, .dst, .d⟩]
  | .pref _ a => .plain [⟨a, 2, .src, .a⟩]
  | .wvoteAny _ d a b => .coll .dst d a b
  | .wvoteAll _ d a b => .coll .dst d a b
  | .wballot _ d a b => .coll .dst d a b
  | .wredAdd _ d a b => .coll .dst d a b
  | .wredFadd _ d a b => .coll .dst d a b
  | .wredMin _ d a b => .coll .dst d a b
  | .wredMax _ d a b => .coll .dst d a b
  | .wscanAdd _ d a b => .coll .dst d a b
  | .wscanFadd _ d a b => .coll .dst d a b
  | .wsegscanAdd _ d a b => .coll .upd d a b
  | .wsegscanFadd _ d a b => .coll .upd d a b
  | .wisect _ d a b => .coll .upd d a b
  | .wnz _ d a b => .coll .upd d a b
  | .wmm _ d a b p => .wmm d a b p
  | .wsync _ b => .plain [⟨b, 1, .src, .b⟩]
  | .wperm _ d a b => .coll .upd d a b
  | .nbInit _ a _ => .plain [⟨a, 1, .src, .a⟩]
  | .nbArrive _ d _ => .plain [⟨d, 1, .dst, .d⟩]
  | .nbWait _ d a _ => .plain [⟨a, 1, .src, .a⟩, ⟨d, 1, .dst, .d⟩]
  | .nbMeet _ d _ => .plain [⟨d, 1, .dst, .d⟩]
  | .nbTest _ d a _ => .plain [⟨a, 1, .src, .a⟩, ⟨d, 1, .dst, .d⟩]
  | .nbStat _ d e _ => .plain [⟨d, 1, .dst, .d⟩] (decide (e.toNat < 5))
  | .xredAdd _ _ a b => .plain [⟨a, 2, .src, .a⟩, ⟨b, 1, .src, .b⟩]
  | .xredFadd _ _ a b => .plain [⟨a, 2, .src, .a⟩, ⟨b, 1, .src, .b⟩]
  | .xredMax _ _ a b => .plain [⟨a, 2, .src, .a⟩, ⟨b, 1, .src, .b⟩]
  | .xredOr _ _ a b => .plain [⟨a, 2, .src, .a⟩, ⟨b, 1, .src, .b⟩]
  | .cpy _ d a _ => .eng (.tile 0) 0 d a 0
  | .mcpy _ d a b _ => .eng (.tile 0) 2 d a b
  | .fget _ d a b _ => .eng .zero 2 d a b
  | .fgetb _ d a b _ => .eng (.tile 0) 4 d a b
  | .tld _ d a _ => .tile 0x800 [d, a]
  | .tst _ d a _ => .tile 0x800 [d, a]
  | .tstc _ d a b _ => .tile 0x800 [d, a, b]
  | .tzero _ d _ => .tile 0x81f [d]
  | .tmov _ d a _ => .tile 0x80f [d, a]
  | .tfree _ d _ => .tile 0x800 [d]
  | .tcvt _ d a _ => .tile 0x83f [d, a]
  | .tlay _ _ a _ => .tile 0x800 [a]
  | .mma _ d a b _ => .tile 0x800 [d, a, b]
  | .mman _ d a b _ => .tile 0x800 [d, a, b]
  | .mms _ d a b _ => .tile 0x800 [d, a, b]
  | .tlu _ d _ => .tile 0x800 [d]
  | .tchol _ d _ => .tile 0x800 [d]
  | .tqr _ d _ => .tile 0x800 [d]
  | .ttrsl _ d a _ => .tile 0x800 [d, a]
  | .ttrsu _ d a _ => .tile 0x800 [d, a]
  | .ttrsn _ d a _ => .tile 0x800 [d, a]
  | .tperm _ d a _ => .tile 0x801 [d, a]
  | .tqapp _ d a _ => .tile 0x800 [d, a]
  | .tqappt _ d a _ => .tile 0x800 [d, a]
  | .svmv _ d a b _ => .tile 0x800 [d, a, b]
  | .svmm _ d a b _ => .tile 0x800 [d, a, b]
  | .sbarInit _ a _ => .seq [⟨a, 1, .src, .a⟩]
  | .sbarArrive _ d _ => .seq [⟨d, 1, .dst, .d⟩]
  | .sbarWait _ d a _ => .seq [⟨d, 1, .dst, .d⟩, ⟨a, 1, .src, .a⟩]
  | .xrd _ d _ e => .seq [⟨d, 1, .dst, .d⟩, ⟨e, 1, .src, .b⟩]
  | .sfence _ _ m => .seq [] (decide (m ≠ 0))
  | .send _ => .seq []
  | .sstat _ d e => .seq [⟨d, 1, .dst, .d⟩] (decide (e.toNat < 3))
  | .setfmt _ a => .seq [⟨a, 1, .src, .a⟩]
  | .csrr _ d _ => .plain [⟨d, 1, .dst, .d⟩]
  | .csrw _ _ a => .plain [⟨a, 1, .src, .a⟩]
  | .pfxWord _ _ => ⟨[], .none, true, false, false⟩
  | .kwaitEq _ _ _ => ⟨[], .none, true, false, false⟩
  | .kwaitNe _ _ _ => ⟨[], .none, true, false, false⟩
  | .kwaitGeu _ _ _ => ⟨[], .none, true, false, false⟩
  | .kwaitReread _ => ⟨[], .none, true, false, false⟩
  | .registerResultWrite _ _ => ⟨[], .none, true, false, false⟩
  | .yieldExpiry _ => ⟨[], .none, true, false, false⟩
  | .readyAgeMark _ => ⟨[], .none, true, false, false⟩
  | .trapEntry _ => ⟨[], .none, true, false, false⟩
  | .formerWarpRelease => ⟨[], .none, true, false, false⟩
  | .formerPartialTimeout => ⟨[], .none, true, false, false⟩
  | .blockStart => ⟨[], .none, true, false, false⟩
  | .queuePull _ => ⟨[], .none, true, false, false⟩
  | .queueMoveComplete => ⟨[], .none, true, false, false⟩
  | .wqRingRefill _ _ => ⟨[], .none, true, false, false⟩
  | .treeComplete _ => ⟨[], .none, true, false, false⟩
  | .launch _ => ⟨[], .none, true, false, false⟩
  | .wait _ => ⟨[], .none, true, false, false⟩
  | .signal _ => ⟨[], .none, true, false, false⟩
  | .join _ => ⟨[], .none, true, false, false⟩
  | .cond _ => ⟨[], .none, true, false, false⟩
  | .patch _ => ⟨[], .none, true, false, false⟩
  | .doorbell _ _ => ⟨[], .none, true, false, false⟩
  | .kick _ _ => ⟨[], .none, true, false, false⟩
  | .mapQueue => ⟨[], .none, true, false, false⟩
  | .unmapCtx => ⟨[], .none, true, false, false⟩
  | .clearError => ⟨[], .none, true, false, false⟩
  | .preempt => ⟨[], .none, true, false, false⟩
  | .resume => ⟨[], .none, true, false, false⟩
  | .regGraph => ⟨[], .none, true, false, false⟩
  | .inval => ⟨[], .none, true, false, false⟩
  | .copy => ⟨[], .none, true, false, false⟩
  | .checkpoint => ⟨[], .none, true, false, false⟩
  | .restore => ⟨[], .none, true, false, false⟩
  | .badcmd => ⟨[], .none, true, false, false⟩
  | .irqmask _ _ => ⟨[], .none, true, false, false⟩
  | .pwrcap _ => ⟨[], .none, true, false, false⟩
  | .registerWrite _ _ => ⟨[], .none, true, false, false⟩
  | .hostApertureRead _ _ => ⟨[], .none, true, false, false⟩
  | .hostApertureWrite _ _ => ⟨[], .none, true, false, false⟩
  | .attest _ => ⟨[], .none, true, false, false⟩
  | .cert _ => ⟨[], .none, true, false, false⟩
  | .timeSet _ => ⟨[], .none, true, false, false⟩
  | .domainSet _ => ⟨[], .none, true, false, false⟩
  | .grantRange _ => ⟨[], .none, true, false, false⟩
  | .revokeRange _ => ⟨[], .none, true, false, false⟩
  | .setExportWindow _ => ⟨[], .none, true, false, false⟩
  | .unfreezeResume _ => ⟨[], .none, true, false, false⟩
  | .unfreezeReset _ => ⟨[], .none, true, false, false⟩
  | .fwLoad _ => ⟨[], .none, true, false, false⟩
  | .mailboxBadop _ => ⟨[], .none, true, false, false⟩
  | .fwVerify => ⟨[], .none, true, false, false⟩
  | .moduleReset => ⟨[], .none, true, false, false⟩
  | .trainComplete _ => ⟨[], .none, true, false, false⟩
  | .thermalPreempt _ => ⟨[], .none, true, false, false⟩
  | .thermalPowerOff _ => ⟨[], .none, true, false, false⟩
  | .powerCapAdjust _ => ⟨[], .none, true, false, false⟩
  | .timeMessage _ => ⟨[], .none, true, false, false⟩
  | .timeSyncLoss => ⟨[], .none, true, false, false⟩
  | .heartbeat _ => ⟨[], .none, true, false, false⟩
  | .heartbeatTimeout _ => ⟨[], .none, true, false, false⟩
  | .flitCrcFail _ _ _ => ⟨[], .none, true, false, false⟩
  | .unreachableCompletion _ => ⟨[], .none, true, false, false⟩
  | .remoteRequest _ => ⟨[], .none, true, false, false⟩
  | .writeCommit _ => ⟨[], .none, true, false, false⟩
  | .fwaitRetry _ => ⟨[], .none, true, false, false⟩
  | .writeAck _ => ⟨[], .none, true, false, false⟩
  | .fillRequest _ => ⟨[], .none, true, false, false⟩
  | .fillReply _ => ⟨[], .none, true, false, false⟩
  | .atomicAtHome _ => ⟨[], .none, true, false, false⟩
  | .mcastRequest _ => ⟨[], .none, true, false, false⟩
  | .mcastWindowClose _ => ⟨[], .none, true, false, false⟩
  | .mcastSlotFree _ => ⟨[], .none, true, false, false⟩
  | .releasePoint _ => ⟨[], .none, true, false, false⟩
  | .icinvComplete _ => ⟨[], .none, true, false, false⟩
  | .flushComplete _ => ⟨[], .none, true, false, false⟩
  | .csrwInForce _ => ⟨[], .none, true, false, false⟩
  | .watchComplete _ => ⟨[], .none, true, false, false⟩
  | .unwatchComplete _ => ⟨[], .none, true, false, false⟩
  | .triggerRefill _ _ => ⟨[], .none, true, false, false⟩
  | .trigOverflow _ _ => ⟨[], .none, true, false, false⟩
  | .triggerDispatch _ => ⟨[], .none, true, false, false⟩
  | .cWritebackDone => ⟨[], .none, true, false, false⟩
  | .relocationComplete => ⟨[], .none, true, false, false⟩
  | .wgrowGrant => ⟨[], .none, true, false, false⟩
  | .wshrinkComplete _ => ⟨[], .none, true, false, false⟩
  | .poolRelComplete _ => ⟨[], .none, true, false, false⟩
  | .passGrant => ⟨[], .none, true, false, false⟩
  | .passEnd => ⟨[], .none, true, false, false⟩
  | .engineRelease _ => ⟨[], .none, true, false, false⟩
  | .tileFetch _ => ⟨[], .none, true, false, false⟩
  | .copyOpStart => ⟨[], .none, true, false, false⟩
  | .copyOpComplete _ => ⟨[], .none, true, false, false⟩
  | .fgetDecode _ => ⟨[], .none, true, false, false⟩
  | .fgetbComplete _ => ⟨[], .none, true, false, false⟩
  | .faultRecordWrite _ => ⟨[], .none, true, false, false⟩
  | .faultResponse _ => ⟨[], .none, true, false, false⟩
  | .faultQueueReread _ => ⟨[], .none, true, false, false⟩
  | .eccRetry _ _ => ⟨[], .none, true, false, false⟩
  | .walkerGrant => ⟨[], .none, true, false, false⟩
  | .walkComplete _ => ⟨[], .none, true, false, false⟩
  | .planeSwap => ⟨[], .none, true, false, false⟩
  | .swapEnd => ⟨[], .none, true, false, false⟩
  | .saveComplete => ⟨[], .none, true, false, false⟩
  | .restoreStart _ => ⟨[], .none, true, false, false⟩
  | .restoreComplete => ⟨[], .none, true, false, false⟩
  | .engineImageRestore => ⟨[], .none, true, false, false⟩
  | .checkpointQuiesce => ⟨[], .none, true, false, false⟩
  | .quiesced _ => ⟨[], .none, true, false, false⟩
  | .checkpointAbandon => ⟨[], .none, true, false, false⟩
  | .checkpointClose => ⟨[], .none, true, false, false⟩
  | .restoreReadbackDone => ⟨[], .none, true, false, false⟩
  | .instructionFetchFill _ => ⟨[], .none, true, false, false⟩
  | .reservedMajor _ => ⟨[], .none, true, false, false⟩
  | .irqstatClear _ _ => ⟨[], .none, true, false, false⟩
  | .ctxerrClear _ => ⟨[], .none, true, false, false⟩
  | .bringUpStart => ⟨[], .none, true, false, false⟩
  | .pldmRequest _ => ⟨[], .none, true, false, false⟩

/-- The payload in front of an instruction word. -/
def Instr.payload : Instr → Payload
  | .add _ _ _ _ p => p
  | .sub _ _ _ _ p => p
  | .and _ _ _ _ p => p
  | .or _ _ _ _ p => p
  | .xor _ _ _ _ p => p
  | .andn _ _ _ _ p => p
  | .shl _ _ _ _ p => p
  | .shr _ _ _ _ p => p
  | .sar _ _ _ _ p => p
  | .rot _ _ _ _ p => p
  | .min _ _ _ _ p => p
  | .max _ _ _ _ p => p
  | .minn _ _ _ _ p => p
  | .maxn _ _ _ _ p => p
  | .mul _ _ _ _ p => p
  | .mulh _ _ _ _ p => p
  | .mulhn _ _ _ _ p => p
  | .div _ _ _ _ p => p
  | .divn _ _ _ _ p => p
  | .rem _ _ _ _ p => p
  | .remn _ _ _ _ p => p
  | .clz _ _ _ p => p
  | .popc _ _ _ p => p
  | .brev _ _ _ p => p
  | .abs _ _ _ p => p
  | .neg _ _ _ p => p
  | .sel _ _ _ _ p => p
  | .mla _ _ _ _ p => p
  | .adds _ _ _ _ p => p
  | .subs _ _ _ _ p => p
  | .addsn _ _ _ _ p => p
  | .subsn _ _ _ _ p => p
  | .eq _ _ _ _ p => p
  | .ne _ _ _ _ p => p
  | .lt _ _ _ _ p => p
  | .le _ _ _ _ p => p
  | .ltn _ _ _ _ p => p
  | .len _ _ _ _ p => p
  | .add64 _ _ _ _ p => p
  | .sub64 _ _ _ _ p => p
  | .mul64 _ _ _ _ p => p
  | .shl64 _ _ _ _ p => p
  | .shr64 _ _ _ _ p => p
  | .sar64 _ _ _ _ p => p
  | .eq64 _ _ _ _ p => p
  | .lt64 _ _ _ _ p => p
  | .ltn64 _ _ _ _ p => p
  | .mov64 _ _ _ p => p
  | .addx _ _ _ _ p => p
  | .addxn _ _ _ _ p => p
  | .addi _ _ _ _ p => p
  | .andi _ _ _ _ p => p
  | .ori _ _ _ _ p => p
  | .xori _ _ _ _ p => p
  | .shli _ _ _ _ p => p
  | .shri _ _ _ _ p => p
  | .sari _ _ _ _ p => p
  | .roti _ _ _ _ p => p
  | .slti _ _ _ _ p => p
  | .sltni _ _ _ _ p => p
  | .addxi _ _ _ _ p => p
  | .movh _ _ _ p => p
  | .movl _ _ _ p => p
  | .faddS _ _ _ _ p => p
  | .fsubS _ _ _ _ p => p
  | .fmulS _ _ _ _ p => p
  | .fminS _ _ _ _ p => p
  | .fmaxS _ _ _ _ p => p
  | .fdivS _ _ _ _ p => p
  | .fsqrtS _ _ _ p => p
  | .frcpS _ _ _ p => p
  | .fabsS _ _ _ p => p
  | .fnegS _ _ _ p => p
  | .feqS _ _ _ _ p => p
  | .fltS _ _ _ _ p => p
  | .fleS _ _ _ _ p => p
  | .funS _ _ _ _ p => p
  | .fmaS _ _ _ _ p => p
  | .fnmaS _ _ _ _ p => p
  | .faddD _ _ _ _ p => p
  | .fsubD _ _ _ _ p => p
  | .fmulD _ _ _ _ p => p
  | .fminD _ _ _ _ p => p
  | .fmaxD _ _ _ _ p => p
  | .fdivD _ _ _ _ p => p
  | .fsqrtD _ _ _ p => p
  | .frcpD _ _ _ p => p
  | .fabsD _ _ _ p => p
  | .fnegD _ _ _ p => p
  | .feqD _ _ _ _ p => p
  | .fltD _ _ _ _ p => p
  | .fleD _ _ _ _ p => p
  | .funD _ _ _ _ p => p
  | .fmaD _ _ _ _ p => p
  | .fnmaD _ _ _ _ p => p
  | .faddH2 _ _ _ _ p => p
  | .fsubH2 _ _ _ _ p => p
  | .fmulH2 _ _ _ _ p => p
  | .fminH2 _ _ _ _ p => p
  | .fmaxH2 _ _ _ _ p => p
  | .fdivH2 _ _ _ _ p => p
  | .fsqrtH2 _ _ _ p => p
  | .frcpH2 _ _ _ p => p
  | .fabsH2 _ _ _ p => p
  | .fnegH2 _ _ _ p => p
  | .feqH2 _ _ _ _ p => p
  | .fltH2 _ _ _ _ p => p
  | .fleH2 _ _ _ _ p => p
  | .funH2 _ _ _ _ p => p
  | .fmaH2 _ _ _ _ p => p
  | .fnmaH2 _ _ _ _ p => p
  | .faddB2 _ _ _ _ p => p
  | .fsubB2 _ _ _ _ p => p
  | .fmulB2 _ _ _ _ p => p
  | .fminB2 _ _ _ _ p => p
  | .fmaxB2 _ _ _ _ p => p
  | .fdivB2 _ _ _ _ p => p
  | .fsqrtB2 _ _ _ p => p
  | .frcpB2 _ _ _ p => p
  | .fabsB2 _ _ _ p => p
  | .fnegB2 _ _ _ p => p
  | .feqB2 _ _ _ _ p => p
  | .fltB2 _ _ _ _ p => p
  | .fleB2 _ _ _ _ p => p
  | .funB2 _ _ _ _ p => p
  | .fmaB2 _ _ _ _ p => p
  | .fnmaB2 _ _ _ _ p => p
  | .fexp2 _ _ _ p => p
  | .flog2 _ _ _ p => p
  | .fsin _ _ _ p => p
  | .fcos _ _ _ p => p
  | .frsq _ _ _ p => p
  | .ftanh _ _ _ p => p
  | .cvt _ _ _ _ p => p
  | .cvtp _ _ _ _ p => p
  | .cvtq _ _ _ _ p => p
  | .fclass _ _ _ _ p => p
  | .fscl _ _ _ _ p => p
  | .ldB _ _ _ _ p => p
  | .ldBs _ _ _ _ p => p
  | .ldH _ _ _ _ p => p
  | .ldHs _ _ _ _ p => p
  | .ldW _ _ _ _ p => p
  | .ldD _ _ _ _ p => p
  | .ldQ _ _ _ _ p => p
  | .ldO _ _ _ _ p => p
  | .ldmcQ _ _ _ _ p => p
  | .stB _ _ _ _ p => p
  | .stH _ _ _ _ p => p
  | .stW _ _ _ _ p => p
  | .stD _ _ _ _ p => p
  | .stQ _ _ _ _ p => p
  | .stO _ _ _ _ p => p
  | .ldsW _ _ _ _ p => p
  | .ldsD _ _ _ _ p => p
  | .ldsQ _ _ _ _ p => p
  | .stsW _ _ _ _ p => p
  | .stsD _ _ _ _ p => p
  | .stsQ _ _ _ _ p => p
  | .amoAdd _ _ _ _ p => p
  | .amoAnd _ _ _ _ p => p
  | .amoOr _ _ _ _ p => p
  | .amoXor _ _ _ _ p => p
  | .amoMin _ _ _ _ p => p
  | .amoMax _ _ _ _ p => p
  | .amoMinn _ _ _ _ p => p
  | .amoMaxn _ _ _ _ p => p
  | .amoSwap _ _ _ _ p => p
  | .amoCas _ _ _ _ p => p
  | .amoFadd _ _ _ _ p => p
  | .amoAddb2 _ _ _ _ p => p
  | .amoAddh2 _ _ _ _ p => p
  | .amoAdd64 _ _ _ _ p => p
  | .amoCas64 _ _ _ _ p => p
  | .amoInc _ _ _ _ p => p
  | .samoAdd _ _ _ _ p => p
  | .samoAnd _ _ _ _ p => p
  | .samoOr _ _ _ _ p => p
  | .samoXor _ _ _ _ p => p
  | .samoMin _ _ _ _ p => p
  | .samoMax _ _ _ _ p => p
  | .samoMinn _ _ _ _ p => p
  | .samoMaxn _ _ _ _ p => p
  | .samoSwap _ _ _ _ p => p
  | .samoCas _ _ _ _ p => p
  | .samoFadd _ _ _ _ p => p
  | .samoAddb2 _ _ _ _ p => p
  | .samoAddh2 _ _ _ _ p => p
  | .samoAdd64 _ _ _ _ p => p
  | .samoCas64 _ _ _ _ p => p
  | .samoInc _ _ _ _ p => p
  | .wmm _ _ _ _ p => p
  | .cpy _ _ _ p => p
  | .mcpy _ _ _ _ p => p
  | .fget _ _ _ _ p => p
  | .fgetb _ _ _ _ p => p
  | .tld _ _ _ p => p
  | .tst _ _ _ p => p
  | .tstc _ _ _ _ p => p
  | .tzero _ _ p => p
  | .tmov _ _ _ p => p
  | .tfree _ _ p => p
  | .tcvt _ _ _ p => p
  | .tlay _ _ _ p => p
  | .mma _ _ _ _ p => p
  | .mman _ _ _ _ p => p
  | .mms _ _ _ _ p => p
  | .tlu _ _ p => p
  | .tchol _ _ p => p
  | .tqr _ _ p => p
  | .ttrsl _ _ _ p => p
  | .ttrsu _ _ _ p => p
  | .ttrsn _ _ _ p => p
  | .tperm _ _ _ p => p
  | .tqapp _ _ _ p => p
  | .tqappt _ _ _ p => p
  | .svmv _ _ _ _ p => p
  | .svmm _ _ _ _ p => p
  | _ => none

/-- The fields of a SIMT instruction are legal, its payload aside. -/
def Instr.fieldsOk (i : Instr) : Bool := i.shape.uses.all Use.okSimt && i.shape.extra && i.shape.simt

/-- Legal for a SIMT thread (R57, R58, R60 to R66). -/
def Instr.legalSimt (i : Instr) : Bool := i.fieldsOk && payloadOk i.shape i.payload

/-- Legal in a matrix stream (R59, R67): of the payloads, it takes only a tile payload. -/
def Instr.legalStream (i : Instr) : Bool :=
  i.shape.uses.all Use.okStream && i.shape.extra && i.shape.stream
  && (match i.payload with
      | none => true
      | some p => match i.shape.pk with
        | .tile m => tilePayloadOk m p
        | _ => false)

/-- The words of the command processor's own instruction (R169) are legal on a hart. -/
def Instr.legalHart : Instr → Bool
  | .kwaitEq _ _ _ => true
  | .kwaitNe _ _ _ => true
  | .kwaitGeu _ _ _ => true
  | _ => false

/-- Well-formed: legal somewhere on the part. -/
def Instr.wf (i : Instr) : Bool := i.legalSimt || i.legalStream || i.legalHart

end Sys2Proof
end

