-- ==== Sys2Proof/Decode.lean ====
section
/-! DEFINITION. Decoding (R55 to R67): total on any words, rejecting what the opcode map does not list; and the encoder. A word
is taken apart by its format (Table 3-1); fields an entry does not name are checked to be zero here (R57).
What builds an instruction is marked noncomputable only because Lean's compiled code numbers at most 245 constructors with
fields and the opcode table has 414 rows; the kernel evaluates all of it. -/

namespace Sys2Proof

/-! ## Formats -/

def sOf (w : Word) : Bool := w.getLsbD 31
def majorOf (w : Word) : BitVec 6 := w.extractLsb' 25 6
def dOf (w : Word) : BitVec 7 := w.extractLsb' 18 7
def aOf (w : Word) : BitVec 7 := w.extractLsb' 11 7
def bOf (w : Word) : BitVec 7 := w.extractLsb' 4 7
def fOf (w : Word) : BitVec 4 := w.extractLsb' 0 4
def imm11Of (w : Word) : BitVec 11 := w.extractLsb' 0 11
def imm18Of (w : Word) : BitVec 18 := w.extractLsb' 0 18
def ccOf (w : Word) : BitVec 2 := w.extractLsb' 16 2
def off16Of (w : Word) : BitVec 16 := w.extractLsb' 0 16
def off25Of (w : Word) : BitVec 25 := w.extractLsb' 0 25

def packA (s : Bool) (M : BitVec 6) (d a b : BitVec 7) (f : BitVec 4) : Word := BitVec.ofBool s ++ M ++ d ++ a ++ b ++ f
def packI (s : Bool) (M : BitVec 6) (d a : BitVec 7) (i : BitVec 11) : Word := BitVec.ofBool s ++ M ++ d ++ a ++ i
def packH (s : Bool) (M : BitVec 6) (d : BitVec 7) (n : BitVec 18) : Word := BitVec.ofBool s ++ M ++ d ++ n
def packB (s : Bool) (M : BitVec 6) (a : BitVec 7) (cc : BitVec 2) (o : BitVec 16) : Word := BitVec.ofBool s ++ M ++ a ++ cc ++ o
def packJ (s : Bool) (M : BitVec 6) (o : BitVec 25) : Word := BitVec.ofBool s ++ M ++ o

/-- Which words accept a payload in front of them (Table 3-3). -/
def acceptsPayload (M f : Nat) : Bool :=
  decide (0x01 ≤ M ∧ M ≤ 0x0E) || decide (0x18 ≤ M ∧ M ≤ 0x1D) || decide (0x20 ≤ M ∧ M ≤ 0x24) || decide (M = 0x28 ∧ f = 13)
  || decide (M = 0x2A) || decide (0x30 ≤ M ∧ M ≤ 0x33)

/-! ## One function per major -/

/-- Major 0x01. -/
def dec01 (s : Bool) (f : BitVec 4) (d a b : BitVec 7) (p : Payload) : Option Instr :=
  match f.toNat with
  | 0 => some (.add s d a b p)
  | 1 => some (.sub s d a b p)
  | 2 => some (.and s d a b p)
  | 3 => some (.or s d a b p)
  | 4 => some (.xor s d a b p)
  | 5 => some (.andn s d a b p)
  | 6 => some (.shl s d a b p)
  | 7 => some (.shr s d a b p)
  | 8 => some (.sar s d a b p)
  | 9 => some (.rot s d a b p)
  | 10 => some (.min s d a b p)
  | 11 => some (.max s d a b p)
  | 12 => some (.minn s d a b p)
  | 13 => some (.maxn s d a b p)
  | 14 => some (.mul s d a b p)
  | _ => some (.mulh s d a b p)

/-- Major 0x02. -/
def dec02 (s : Bool) (f : BitVec 4) (d a b : BitVec 7) (p : Payload) : Option Instr :=
  match f.toNat with
  | 0 => some (.mulhn s d a b p)
  | 1 => some (.div s d a b p)
  | 2 => some (.divn s d a b p)
  | 3 => some (.rem s d a b p)
  | 4 => some (.remn s d a b p)
  | 5 => if b = 0 then some (.clz s d a p) else none
  | 6 => if b = 0 then some (.popc s d a p) else none
  | 7 => if b = 0 then some (.brev s d a p) else none
  | 8 => if b = 0 then some (.abs s d a p) else none
  | 9 => if b = 0 then some (.neg s d a p) else none
  | 10 => some (.sel s d a b p)
  | 11 => some (.mla s d a b p)
  | 12 => some (.adds s d a b p)
  | 13 => some (.subs s d a b p)
  | 14 => some (.addsn s d a b p)
  | _ => some (.subsn s d a b p)

/-- Major 0x03. -/
def dec03 (s : Bool) (f : BitVec 4) (d a b : BitVec 7) (p : Payload) : Option Instr :=
  match f.toNat with
  | 0 => some (.eq s d a b p)
  | 1 => some (.ne s d a b p)
  | 2 => some (.lt s d a b p)
  | 3 => some (.le s d a b p)
  | 4 => some (.ltn s d a b p)
  | 5 => some (.len s d a b p)
  | _ => none

/-- Major 0x04. -/
def dec04 (s : Bool) (f : BitVec 4) (d a b : BitVec 7) (p : Payload) : Option Instr :=
  match f.toNat with
  | 0 => some (.add64 s d a b p)
  | 1 => some (.sub64 s d a b p)
  | 2 => some (.mul64 s d a b p)
  | 3 => some (.shl64 s d a b p)
  | 4 => some (.shr64 s d a b p)
  | 5 => some (.sar64 s d a b p)
  | 6 => some (.eq64 s d a b p)
  | 7 => some (.lt64 s d a b p)
  | 8 => some (.ltn64 s d a b p)
  | 9 => if b = 0 then some (.mov64 s d a p) else none
  | 10 => some (.addx s d a b p)
  | 11 => some (.addxn s d a b p)
  | _ => none

/-- Major 0x05. -/
def dec05 (s : Bool) (d a : BitVec 7) (i : BitVec 11) (p : Payload) : Option Instr :=
  some (.addi s d a i p)

/-- Major 0x06. -/
def dec06 (s : Bool) (d a : BitVec 7) (i : BitVec 11) (p : Payload) : Option Instr :=
  some (.andi s d a i p)

/-- Major 0x07. -/
def dec07 (s : Bool) (d a : BitVec 7) (i : BitVec 11) (p : Payload) : Option Instr :=
  some (.ori s d a i p)

/-- Major 0x08. -/
def dec08 (s : Bool) (d a : BitVec 7) (i : BitVec 11) (p : Payload) : Option Instr :=
  some (.xori s d a i p)

/-- Major 0x09. -/
def dec09 (s : Bool) (d a : BitVec 7) (i : BitVec 11) (p : Payload) : Option Instr :=
  if i.extractLsb' 5 4 = 0 then
    match (i.extractLsb' 9 2).toNat with
    | 0 => some (.shli s d a (i.extractLsb' 0 5) p)
    | 1 => some (.shri s d a (i.extractLsb' 0 5) p)
    | 2 => some (.sari s d a (i.extractLsb' 0 5) p)
    | _ => some (.roti s d a (i.extractLsb' 0 5) p)
  else none

/-- Major 0x0A. -/
def dec0A (s : Bool) (d a : BitVec 7) (i : BitVec 11) (p : Payload) : Option Instr :=
  some (.slti s d a i p)

/-- Major 0x0B. -/
def dec0B (s : Bool) (d a : BitVec 7) (i : BitVec 11) (p : Payload) : Option Instr :=
  some (.sltni s d a i p)

/-- Major 0x0C. -/
def dec0C (s : Bool) (d a : BitVec 7) (i : BitVec 11) (p : Payload) : Option Instr :=
  some (.addxi s d a i p)

/-- Major 0x0D. -/
def dec0D (s : Bool) (d : BitVec 7) (n : BitVec 18) (p : Payload) : Option Instr :=
  some (.movh s d n p)

/-- Major 0x0E. -/
def dec0E (s : Bool) (d : BitVec 7) (n : BitVec 18) (p : Payload) : Option Instr :=
  if n.extractLsb' 14 4 = 0 then some (.movl s d (n.extractLsb' 0 14) p) else none

/-- Major 0x10. -/
def dec10 (s : Bool) (d : BitVec 7) (cc : BitVec 2) (o : BitVec 16) : Option Instr :=
  match cc.toNat with
  | 0 => some (.bz s d o)
  | 1 => some (.bnz s d o)
  | 2 => some (.bltz s d o)
  | _ => some (.bgez s d o)

/-- Major 0x11. -/
def dec11 (s : Bool) (o : BitVec 25) : Option Instr :=
  some (.jmp s o)

/-- Major 0x12. -/
def dec12 (s : Bool) (o : BitVec 25) : Option Instr :=
  some (.call s o)

/-- Major 0x13. -/
def dec13 (s : Bool) (f : BitVec 4) (d a b : BitVec 7) : Option Instr :=
  match f.toNat with
  | 0 => if d = 0 ∧ b = 0 then some (.jr s a) else none
  | 1 => if d = 0 ∧ b = 0 then some (.callr s a) else none
  | 2 => if d = 0 ∧ a = 0 ∧ b = 0 then some (.ret s) else none
  | 3 => if d = 0 ∧ a = 0 ∧ b = 0 then some (.exit s) else none
  | 4 => if d = 0 ∧ a = 0 ∧ b = 0 then some (.nop s) else none
  | 5 => if d = 0 ∧ a = 0 ∧ b = 0 then some (.yield s) else none
  | 6 => if d = 0 ∧ a = 0 then some (.trap s b) else none
  | 7 => if d = 0 ∧ a = 0 then some (.brk s b) else none
  | 8 => if d = 0 ∧ a = 0 ∧ b = 0 then some (.rett s) else none
  | _ => none

/-- Major 0x14. -/
def dec14 (s : Bool) (d : BitVec 7) (cc : BitVec 2) (o : BitVec 16) : Option Instr :=
  match cc.toNat with
  | 0 => some (.brxZ s d o)
  | 1 => some (.brxNz s d o)
  | 2 => some (.brxLtz s d o)
  | _ => some (.brxGez s d o)

/-- Major 0x15. -/
def dec15 (s : Bool) (f : BitVec 4) (d a b : BitVec 7) : Option Instr :=
  match f.toNat with
  | 0 => if b = 0 then some (.cont s d a) else none
  | 1 => some (.qput s d a b)
  | 2 => if b = 0 then some (.watch s d a) else none
  | 3 => some (.unwatch s d a b)
  | _ => none

/-- Major 0x16. -/
def dec16 (s : Bool) (f : BitVec 4) (d a b : BitVec 7) : Option Instr :=
  match f.toNat with
  | 0 => if b = 0 then some (.wgrow s d a) else none
  | 1 => if b = 0 then some (.wshrink s d a) else none
  | 2 => if d = 0 ∧ b = 0 then some (.wbase s a) else none
  | 3 => if d = 0 ∧ b = 0 then some (.wiset s a) else none
  | 4 => if b = 0 then some (.vrgat s d a) else none
  | 5 => if d = 0 then some (.vrsca s a b) else none
  | 6 => if b = 0 then some (.poolReq s d a) else none
  | 7 => if b = 0 then some (.poolRel s d a) else none
  | 8 => if b = 0 then some (.poolMap s d a) else none
  | 9 => if b = 0 then some (.poolOcc s d a) else none
  | 10 => if b = 0 then some (.tstate s d a) else none
  | 11 => if b = 0 then some (.tmark s d a) else none
  | _ => none

/-- Major 0x18. -/
def dec18 (s : Bool) (f : BitVec 4) (d a b : BitVec 7) (p : Payload) : Option Instr :=
  match f.toNat with
  | 0 => some (.faddS s d a b p)
  | 1 => some (.fsubS s d a b p)
  | 2 => some (.fmulS s d a b p)
  | 3 => some (.fminS s d a b p)
  | 4 => some (.fmaxS s d a b p)
  | 5 => some (.fdivS s d a b p)
  | 6 => if b = 0 then some (.fsqrtS s d a p) else none
  | 7 => if b = 0 then some (.frcpS s d a p) else none
  | 8 => if b = 0 then some (.fabsS s d a p) else none
  | 9 => if b = 0 then some (.fnegS s d a p) else none
  | 10 => some (.feqS s d a b p)
  | 11 => some (.fltS s d a b p)
  | 12 => some (.fleS s d a b p)
  | 13 => some (.funS s d a b p)
  | 14 => some (.fmaS s d a b p)
  | _ => some (.fnmaS s d a b p)

/-- Major 0x19. -/
def dec19 (s : Bool) (f : BitVec 4) (d a b : BitVec 7) (p : Payload) : Option Instr :=
  match f.toNat with
  | 0 => some (.faddD s d a b p)
  | 1 => some (.fsubD s d a b p)
  | 2 => some (.fmulD s d a b p)
  | 3 => some (.fminD s d a b p)
  | 4 => some (.fmaxD s d a b p)
  | 5 => some (.fdivD s d a b p)
  | 6 => if b = 0 then some (.fsqrtD s d a p) else none
  | 7 => if b = 0 then some (.frcpD s d a p) else none
  | 8 => if b = 0 then some (.fabsD s d a p) else none
  | 9 => if b = 0 then some (.fnegD s d a p) else none
  | 10 => some (.feqD s d a b p)
  | 11 => some (.fltD s d a b p)
  | 12 => some (.fleD s d a b p)
  | 13 => some (.funD s d a b p)
  | 14 => some (.fmaD s d a b p)
  | _ => some (.fnmaD s d a b p)

/-- Major 0x1A. -/
def dec1A (s : Bool) (f : BitVec 4) (d a b : BitVec 7) (p : Payload) : Option Instr :=
  match f.toNat with
  | 0 => some (.faddH2 s d a b p)
  | 1 => some (.fsubH2 s d a b p)
  | 2 => some (.fmulH2 s d a b p)
  | 3 => some (.fminH2 s d a b p)
  | 4 => some (.fmaxH2 s d a b p)
  | 5 => some (.fdivH2 s d a b p)
  | 6 => if b = 0 then some (.fsqrtH2 s d a p) else none
  | 7 => if b = 0 then some (.frcpH2 s d a p) else none
  | 8 => if b = 0 then some (.fabsH2 s d a p) else none
  | 9 => if b = 0 then some (.fnegH2 s d a p) else none
  | 10 => some (.feqH2 s d a b p)
  | 11 => some (.fltH2 s d a b p)
  | 12 => some (.fleH2 s d a b p)
  | 13 => some (.funH2 s d a b p)
  | 14 => some (.fmaH2 s d a b p)
  | _ => some (.fnmaH2 s d a b p)

/-- Major 0x1B. -/
def dec1B (s : Bool) (f : BitVec 4) (d a b : BitVec 7) (p : Payload) : Option Instr :=
  match f.toNat with
  | 0 => some (.faddB2 s d a b p)
  | 1 => some (.fsubB2 s d a b p)
  | 2 => some (.fmulB2 s d a b p)
  | 3 => some (.fminB2 s d a b p)
  | 4 => some (.fmaxB2 s d a b p)
  | 5 => some (.fdivB2 s d a b p)
  | 6 => if b = 0 then some (.fsqrtB2 s d a p) else none
  | 7 => if b = 0 then some (.frcpB2 s d a p) else none
  | 8 => if b = 0 then some (.fabsB2 s d a p) else none
  | 9 => if b = 0 then some (.fnegB2 s d a p) else none
  | 10 => some (.feqB2 s d a b p)
  | 11 => some (.fltB2 s d a b p)
  | 12 => some (.fleB2 s d a b p)
  | 13 => some (.funB2 s d a b p)
  | 14 => some (.fmaB2 s d a b p)
  | _ => some (.fnmaB2 s d a b p)

/-- Major 0x1C. -/
def dec1C (s : Bool) (f : BitVec 4) (d a b : BitVec 7) (p : Payload) : Option Instr :=
  match f.toNat with
  | 0 => if b = 0 then some (.fexp2 s d a p) else none
  | 1 => if b = 0 then some (.flog2 s d a p) else none
  | 2 => if b = 0 then some (.fsin s d a p) else none
  | 3 => if b = 0 then some (.fcos s d a p) else none
  | 4 => if b = 0 then some (.frsq s d a p) else none
  | 5 => if b = 0 then some (.ftanh s d a p) else none
  | _ => none

/-- Major 0x1D. -/
def dec1D (s : Bool) (f : BitVec 4) (d a b : BitVec 7) (p : Payload) : Option Instr :=
  match f.toNat with
  | 0 => some (.cvt s d a b p)
  | 1 => some (.cvtp s d a b p)
  | 2 => some (.cvtq s d a b p)
  | 3 => some (.fclass s d a b p)
  | 4 => some (.fscl s d a b p)
  | _ => none

/-- Major 0x20. -/
def dec20 (s : Bool) (f : BitVec 4) (d a b : BitVec 7) (p : Payload) : Option Instr :=
  match f.toNat with
  | 0 => some (.ldB s d a b p)
  | 1 => some (.ldBs s d a b p)
  | 2 => some (.ldH s d a b p)
  | 3 => some (.ldHs s d a b p)
  | 4 => some (.ldW s d a b p)
  | 5 => some (.ldD s d a b p)
  | 6 => some (.ldQ s d a b p)
  | 7 => some (.ldO s d a b p)
  | 8 => some (.ldmcQ s d a b p)
  | _ => none

/-- Major 0x21. -/
def dec21 (s : Bool) (f : BitVec 4) (d a b : BitVec 7) (p : Payload) : Option Instr :=
  match f.toNat with
  | 0 => some (.stB s d a b p)
  | 1 => some (.stH s d a b p)
  | 2 => some (.stW s d a b p)
  | 3 => some (.stD s d a b p)
  | 4 => some (.stQ s d a b p)
  | 5 => some (.stO s d a b p)
  | _ => none

/-- Major 0x22. -/
def dec22 (s : Bool) (f : BitVec 4) (d a b : BitVec 7) (p : Payload) : Option Instr :=
  match f.toNat with
  | 0 => some (.ldsW s d a b p)
  | 1 => some (.ldsD s d a b p)
  | 2 => some (.ldsQ s d a b p)
  | 3 => some (.stsW s d a b p)
  | 4 => some (.stsD s d a b p)
  | 5 => some (.stsQ s d a b p)
  | _ => none

/-- Major 0x23. -/
def dec23 (s : Bool) (f : BitVec 4) (d a b : BitVec 7) (p : Payload) : Option Instr :=
  match f.toNat with
  | 0 => some (.amoAdd s d a b p)
  | 1 => some (.amoAnd s d a b p)
  | 2 => some (.amoOr s d a b p)
  | 3 => some (.amoXor s d a b p)
  | 4 => some (.amoMin s d a b p)
  | 5 => some (.amoMax s d a b p)
  | 6 => some (.amoMinn s d a b p)
  | 7 => some (.amoMaxn s d a b p)
  | 8 => some (.amoSwap s d a b p)
  | 9 => some (.amoCas s d a b p)
  | 10 => some (.amoFadd s d a b p)
  | 11 => some (.amoAddb2 s d a b p)
  | 12 => some (.amoAddh2 s d a b p)
  | 13 => some (.amoAdd64 s d a b p)
  | 14 => some (.amoCas64 s d a b p)
  | _ => some (.amoInc s d a b p)

/-- Major 0x24. -/
def dec24 (s : Bool) (f : BitVec 4) (d a b : BitVec 7) (p : Payload) : Option Instr :=
  match f.toNat with
  | 0 => some (.samoAdd s d a b p)
  | 1 => some (.samoAnd s d a b p)
  | 2 => some (.samoOr s d a b p)
  | 3 => some (.samoXor s d a b p)
  | 4 => some (.samoMin s d a b p)
  | 5 => some (.samoMax s d a b p)
  | 6 => some (.samoMinn s d a b p)
  | 7 => some (.samoMaxn s d a b p)
  | 8 => some (.samoSwap s d a b p)
  | 9 => some (.samoCas s d a b p)
  | 10 => some (.samoFadd s d a b p)
  | 11 => some (.samoAddb2 s d a b p)
  | 12 => some (.samoAddh2 s d a b p)
  | 13 => some (.samoAdd64 s d a b p)
  | 14 => some (.samoCas64 s d a b p)
  | _ => some (.samoInc s d a b p)

/-- Major 0x25. -/
def dec25 (s : Bool) (f : BitVec 4) (d a b : BitVec 7) : Option Instr :=
  match f.toNat with
  | 0 => if d = 0 ∧ a = 0 ∧ b.extractLsb' 0 1 = 0 then some (.fence s (b.extractLsb' 4 3) (b.extractLsb' 1 3)) else none
  | 1 => if d = 0 ∧ a = 0 ∧ b.extractLsb' 0 1 = 0 then some (.fenceAcq s (b.extractLsb' 4 3) (b.extractLsb' 1 3)) else none
  | 2 => if d = 0 ∧ a = 0 ∧ b.extractLsb' 0 1 = 0 then some (.fenceRel s (b.extractLsb' 4 3) (b.extractLsb' 1 3)) else none
  | 3 => if a = 0 ∧ b = 0 then some (.wct s d) else none
  | 4 => if d = 0 then some (.flush s a b) else none
  | 5 => if d = 0 then some (.icinv s a b) else none
  | 6 => some (.fwait s d a b)
  | 7 => if d = 0 ∧ b = 0 then some (.pref s a) else none
  | _ => none

/-- Major 0x28. -/
noncomputable def dec28 (s : Bool) (f : BitVec 4) (d a b : BitVec 7) (p : Payload) : Option Instr :=
  match f.toNat with
  | 0 => some (.wvoteAny s d a b)
  | 1 => some (.wvoteAll s d a b)
  | 2 => some (.wballot s d a b)
  | 3 => some (.wredAdd s d a b)
  | 4 => some (.wredFadd s d a b)
  | 5 => some (.wredMin s d a b)
  | 6 => some (.wredMax s d a b)
  | 7 => some (.wscanAdd s d a b)
  | 8 => some (.wscanFadd s d a b)
  | 9 => some (.wsegscanAdd s d a b)
  | 10 => some (.wsegscanFadd s d a b)
  | 11 => some (.wisect s d a b)
  | 12 => some (.wnz s d a b)
  | 13 => some (.wmm s d a b p)
  | 14 => if d = 0 ∧ a = 0 then some (.wsync s b) else none
  | _ => some (.wperm s d a b)

/-- Major 0x29. -/
noncomputable def dec29 (s : Bool) (f : BitVec 4) (d a b : BitVec 7) : Option Instr :=
  match f.toNat with
  | 0 => if d = 0 ∧ b.extractLsb' 4 3 = 0 then some (.nbInit s a (b.extractLsb' 0 4)) else none
  | 1 => if a = 0 ∧ b.extractLsb' 4 3 = 0 then some (.nbArrive s d (b.extractLsb' 0 4)) else none
  | 2 => if b.extractLsb' 4 3 = 0 then some (.nbWait s d a (b.extractLsb' 0 4)) else none
  | 3 => if a = 0 ∧ b.extractLsb' 4 3 = 0 then some (.nbMeet s d (b.extractLsb' 0 4)) else none
  | 4 => if b.extractLsb' 4 3 = 0 then some (.nbTest s d a (b.extractLsb' 0 4)) else none
  | 5 => if a = 0 then some (.nbStat s d (b.extractLsb' 4 3) (b.extractLsb' 0 4)) else none
  | 6 => if d.extractLsb' 3 4 = 0 then some (.xredAdd s (d.extractLsb' 0 3) a b) else none
  | 7 => if d.extractLsb' 3 4 = 0 then some (.xredFadd s (d.extractLsb' 0 3) a b) else none
  | 8 => if d.extractLsb' 3 4 = 0 then some (.xredMax s (d.extractLsb' 0 3) a b) else none
  | 9 => if d.extractLsb' 3 4 = 0 then some (.xredOr s (d.extractLsb' 0 3) a b) else none
  | _ => none

/-- Major 0x2A. -/
noncomputable def dec2A (s : Bool) (f : BitVec 4) (d a b : BitVec 7) (p : Payload) : Option Instr :=
  match f.toNat with
  | 0 => if b = 0 then some (.cpy s d a p) else none
  | 1 => some (.mcpy s d a b p)
  | 2 => some (.fget s d a b p)
  | 3 => some (.fgetb s d a b p)
  | _ => none

/-- Major 0x30. -/
noncomputable def dec30 (s : Bool) (f : BitVec 4) (d a b : BitVec 7) (p : Payload) : Option Instr :=
  match f.toNat with
  | 0 => if b = 0 then some (.tld s d a p) else none
  | 1 => if b = 0 then some (.tst s d a p) else none
  | 2 => some (.tstc s d a b p)
  | 3 => if a = 0 ∧ b = 0 then some (.tzero s d p) else none
  | 4 => if b = 0 then some (.tmov s d a p) else none
  | 5 => if a = 0 ∧ b = 0 then some (.tfree s d p) else none
  | 6 => if b = 0 then some (.tcvt s d a p) else none
  | 7 => if d.extractLsb' 3 4 = 0 ∧ b = 0 then some (.tlay s (d.extractLsb' 0 3) a p) else none
  | _ => none

/-- Major 0x31. -/
noncomputable def dec31 (s : Bool) (f : BitVec 4) (d a b : BitVec 7) (p : Payload) : Option Instr :=
  match f.toNat with
  | 0 => some (.mma s d a b p)
  | 1 => some (.mman s d a b p)
  | 2 => some (.mms s d a b p)
  | _ => none

/-- Major 0x32. -/
noncomputable def dec32 (s : Bool) (f : BitVec 4) (d a b : BitVec 7) (p : Payload) : Option Instr :=
  match f.toNat with
  | 0 => if a = 0 ∧ b = 0 then some (.tlu s d p) else none
  | 1 => if a = 0 ∧ b = 0 then some (.tchol s d p) else none
  | 2 => if a = 0 ∧ b = 0 then some (.tqr s d p) else none
  | 3 => if b = 0 then some (.ttrsl s d a p) else none
  | 4 => if b = 0 then some (.ttrsu s d a p) else none
  | 5 => if b = 0 then some (.ttrsn s d a p) else none
  | 6 => if b = 0 then some (.tperm s d a p) else none
  | 7 => if b = 0 then some (.tqapp s d a p) else none
  | 8 => if b = 0 then some (.tqappt s d a p) else none
  | _ => none

/-- Major 0x33. -/
noncomputable def dec33 (s : Bool) (f : BitVec 4) (d a b : BitVec 7) (p : Payload) : Option Instr :=
  match f.toNat with
  | 0 => some (.svmv s d a b p)
  | 1 => some (.svmm s d a b p)
  | _ => none

/-- Major 0x34. -/
noncomputable def dec34 (s : Bool) (f : BitVec 4) (d a b : BitVec 7) : Option Instr :=
  match f.toNat with
  | 0 => if d = 0 ∧ b.extractLsb' 4 3 = 0 then some (.sbarInit s a (b.extractLsb' 0 4)) else none
  | 1 => if a = 0 ∧ b.extractLsb' 4 3 = 0 then some (.sbarArrive s d (b.extractLsb' 0 4)) else none
  | 2 => if b.extractLsb' 4 3 = 0 then some (.sbarWait s d a (b.extractLsb' 0 4)) else none
  | 3 => if a.extractLsb' 3 4 = 4 then some (.xrd s d (a.extractLsb' 0 3) b) else none
  | 4 => if d = 0 ∧ a = 0 ∧ b.extractLsb' 0 1 = 0 then some (.sfence s (b.extractLsb' 4 3) (b.extractLsb' 1 3)) else none
  | 5 => if d = 0 ∧ a = 0 ∧ b = 0 then some (.send s) else none
  | 6 => if a = 0 then some (.sstat s d b) else none
  | 7 => if d = 0 ∧ b = 0 then some (.setfmt s a) else none
  | _ => none

/-- Major 0x3E. -/
noncomputable def dec3E (s : Bool) (f : BitVec 4) (d a b : BitVec 7) : Option Instr :=
  match f.toNat with
  | 0 => some (.csrr s d (a ++ b))
  | 1 => some (.csrw s (d ++ b) a)
  | _ => none

/-- The instruction of a word with the payload in front of it, if any; none for a prefix word, a reserved word (R66) and one
whose must-be-zero fields are not. -/
noncomputable def decodeWord (w : Word) (p : Payload) : Option Instr :=
  if p.isSome && !acceptsPayload (majorOf w).toNat (fOf w).toNat then none else
  match (majorOf w).toNat with
  | 0x01 => dec01 (sOf w) (fOf w) (dOf w) (aOf w) (bOf w) p
  | 0x02 => dec02 (sOf w) (fOf w) (dOf w) (aOf w) (bOf w) p
  | 0x03 => dec03 (sOf w) (fOf w) (dOf w) (aOf w) (bOf w) p
  | 0x04 => dec04 (sOf w) (fOf w) (dOf w) (aOf w) (bOf w) p
  | 0x05 => dec05 (sOf w) (dOf w) (aOf w) (imm11Of w) p
  | 0x06 => dec06 (sOf w) (dOf w) (aOf w) (imm11Of w) p
  | 0x07 => dec07 (sOf w) (dOf w) (aOf w) (imm11Of w) p
  | 0x08 => dec08 (sOf w) (dOf w) (aOf w) (imm11Of w) p
  | 0x09 => dec09 (sOf w) (dOf w) (aOf w) (imm11Of w) p
  | 0x0A => dec0A (sOf w) (dOf w) (aOf w) (imm11Of w) p
  | 0x0B => dec0B (sOf w) (dOf w) (aOf w) (imm11Of w) p
  | 0x0C => dec0C (sOf w) (dOf w) (aOf w) (imm11Of w) p
  | 0x0D => dec0D (sOf w) (dOf w) (imm18Of w) p
  | 0x0E => dec0E (sOf w) (dOf w) (imm18Of w) p
  | 0x10 => dec10 (sOf w) (dOf w) (ccOf w) (off16Of w)
  | 0x11 => dec11 (sOf w) (off25Of w)
  | 0x12 => dec12 (sOf w) (off25Of w)
  | 0x13 => dec13 (sOf w) (fOf w) (dOf w) (aOf w) (bOf w)
  | 0x14 => dec14 (sOf w) (dOf w) (ccOf w) (off16Of w)
  | 0x15 => dec15 (sOf w) (fOf w) (dOf w) (aOf w) (bOf w)
  | 0x16 => dec16 (sOf w) (fOf w) (dOf w) (aOf w) (bOf w)
  | 0x18 => dec18 (sOf w) (fOf w) (dOf w) (aOf w) (bOf w) p
  | 0x19 => dec19 (sOf w) (fOf w) (dOf w) (aOf w) (bOf w) p
  | 0x1A => dec1A (sOf w) (fOf w) (dOf w) (aOf w) (bOf w) p
  | 0x1B => dec1B (sOf w) (fOf w) (dOf w) (aOf w) (bOf w) p
  | 0x1C => dec1C (sOf w) (fOf w) (dOf w) (aOf w) (bOf w) p
  | 0x1D => dec1D (sOf w) (fOf w) (dOf w) (aOf w) (bOf w) p
  | 0x20 => dec20 (sOf w) (fOf w) (dOf w) (aOf w) (bOf w) p
  | 0x21 => dec21 (sOf w) (fOf w) (dOf w) (aOf w) (bOf w) p
  | 0x22 => dec22 (sOf w) (fOf w) (dOf w) (aOf w) (bOf w) p
  | 0x23 => dec23 (sOf w) (fOf w) (dOf w) (aOf w) (bOf w) p
  | 0x24 => dec24 (sOf w) (fOf w) (dOf w) (aOf w) (bOf w) p
  | 0x25 => dec25 (sOf w) (fOf w) (dOf w) (aOf w) (bOf w)
  | 0x28 => dec28 (sOf w) (fOf w) (dOf w) (aOf w) (bOf w) p
  | 0x29 => dec29 (sOf w) (fOf w) (dOf w) (aOf w) (bOf w)
  | 0x2A => dec2A (sOf w) (fOf w) (dOf w) (aOf w) (bOf w) p
  | 0x30 => dec30 (sOf w) (fOf w) (dOf w) (aOf w) (bOf w) p
  | 0x31 => dec31 (sOf w) (fOf w) (dOf w) (aOf w) (bOf w) p
  | 0x32 => dec32 (sOf w) (fOf w) (dOf w) (aOf w) (bOf w) p
  | 0x33 => dec33 (sOf w) (fOf w) (dOf w) (aOf w) (bOf w) p
  | 0x34 => dec34 (sOf w) (fOf w) (dOf w) (aOf w) (bOf w)
  | 0x3E => dec3E (sOf w) (fOf w) (dOf w) (aOf w) (bOf w)
  | _ => none

/-- Whether a word is of major 0x3F, whose payload stands in bits [24:0] (R60). -/
def isPayloadWord (w : Word) : Bool := majorOf w == 0x3F

/-- The instruction at a word `w0` followed by `w1` (R23, R60). A payload word that its next word does not accept is the
illegal pair `pfxWord`; one with S = 1 decodes to nothing. -/
noncomputable def decodePair (w0 w1 : Word) : Option Instr :=
  if isPayloadWord w0 then
    if sOf w0 then none else
    match decodeWord w1 (some (off25Of w0)) with
    | some i => some i
    | none => some (.pfxWord (off25Of w0) w1)
  else decodeWord w0 none

/-- The word of the command processor's `kwait` (R169): bits [31:25] zero, custom-0 opcode 0x0B, the relation in bits [14:12]. -/
noncomputable def decodeHart (w : Word) : Option Instr :=
  if w.extractLsb' 25 7 = 0 ∧ w.extractLsb' 0 7 = 0x0B then
    match (w.extractLsb' 12 3).toNat with
    | 0 => some (.kwaitEq (w.extractLsb' 20 5) (w.extractLsb' 15 5) (w.extractLsb' 7 5))
    | 1 => some (.kwaitNe (w.extractLsb' 20 5) (w.extractLsb' 15 5) (w.extractLsb' 7 5))
    | 2 => some (.kwaitGeu (w.extractLsb' 20 5) (w.extractLsb' 15 5) (w.extractLsb' 7 5))
    | _ => none
  else none

def packHart (b a : BitVec 5) (rel : BitVec 3) (d : BitVec 5) : Word := (0 : BitVec 7) ++ b ++ a ++ rel ++ d ++ (0x0B : BitVec 7)

/-! ## The encoder -/

/-- The instruction word of a word row, its payload word aside; zero for a step that has none. -/
def encodeWord : Instr → Word
  | .add s d a b _ => packA s 1 d a b 0
  | .sub s d a b _ => packA s 1 d a b 1
  | .and s d a b _ => packA s 1 d a b 2
  | .or s d a b _ => packA s 1 d a b 3
  | .xor s d a b _ => packA s 1 d a b 4
  | .andn s d a b _ => packA s 1 d a b 5
  | .shl s d a b _ => packA s 1 d a b 6
  | .shr s d a b _ => packA s 1 d a b 7
  | .sar s d a b _ => packA s 1 d a b 8
  | .rot s d a b _ => packA s 1 d a b 9
  | .min s d a b _ => packA s 1 d a b 10
  | .max s d a b _ => packA s 1 d a b 11
  | .minn s d a b _ => packA s 1 d a b 12
  | .maxn s d a b _ => packA s 1 d a b 13
  | .mul s d a b _ => packA s 1 d a b 14
  | .mulh s d a b _ => packA s 1 d a b 15
  | .mulhn s d a b _ => packA s 2 d a b 0
  | .div s d a b _ => packA s 2 d a b 1
  | .divn s d a b _ => packA s 2 d a b 2
  | .rem s d a b _ => packA s 2 d a b 3
  | .remn s d a b _ => packA s 2 d a b 4
  | .clz s d a _ => packA s 2 d a 0#7 5
  | .popc s d a _ => packA s 2 d a 0#7 6
  | .brev s d a _ => packA s 2 d a 0#7 7
  | .abs s d a _ => packA s 2 d a 0#7 8
  | .neg s d a _ => packA s 2 d a 0#7 9
  | .sel s d a b _ => packA s 2 d a b 10
  | .mla s d a b _ => packA s 2 d a b 11
  | .adds s d a b _ => packA s 2 d a b 12
  | .subs s d a b _ => packA s 2 d a b 13
  | .addsn s d a b _ => packA s 2 d a b 14
  | .subsn s d a b _ => packA s 2 d a b 15
  | .eq s d a b _ => packA s 3 d a b 0
  | .ne s d a b _ => packA s 3 d a b 1
  | .lt s d a b _ => packA s 3 d a b 2
  | .le s d a b _ => packA s 3 d a b 3
  | .ltn s d a b _ => packA s 3 d a b 4
  | .len s d a b _ => packA s 3 d a b 5
  | .add64 s d a b _ => packA s 4 d a b 0
  | .sub64 s d a b _ => packA s 4 d a b 1
  | .mul64 s d a b _ => packA s 4 d a b 2
  | .shl64 s d a b _ => packA s 4 d a b 3
  | .shr64 s d a b _ => packA s 4 d a b 4
  | .sar64 s d a b _ => packA s 4 d a b 5
  | .eq64 s d a b _ => packA s 4 d a b 6
  | .lt64 s d a b _ => packA s 4 d a b 7
  | .ltn64 s d a b _ => packA s 4 d a b 8
  | .mov64 s d a _ => packA s 4 d a 0#7 9
  | .addx s d a b _ => packA s 4 d a b 10
  | .addxn s d a b _ => packA s 4 d a b 11
  | .addi s d a i _ => packI s 5 d a i
  | .andi s d a i _ => packI s 6 d a i
  | .ori s d a i _ => packI s 7 d a i
  | .xori s d a i _ => packI s 8 d a i
  | .shli s d a n _ => packI s 9 d a (0#6 ++ n)
  | .shri s d a n _ => packI s 9 d a (16#6 ++ n)
  | .sari s d a n _ => packI s 9 d a (32#6 ++ n)
  | .roti s d a n _ => packI s 9 d a (48#6 ++ n)
  | .slti s d a i _ => packI s 10 d a i
  | .sltni s d a i _ => packI s 11 d a i
  | .addxi s d a i _ => packI s 12 d a i
  | .movh s d n _ => packH s 13 d n
  | .movl s d n _ => packH s 14 d (0#4 ++ n)
  | .bz s a o => packB s 16 a 0 o
  | .bnz s a o => packB s 16 a 1 o
  | .bltz s a o => packB s 16 a 2 o
  | .bgez s a o => packB s 16 a 3 o
  | .jmp s o => packJ s 17 o
  | .call s o => packJ s 18 o
  | .jr s a => packA s 19 0#7 a 0#7 0
  | .callr s a => packA s 19 0#7 a 0#7 1
  | .ret s => packA s 19 0#7 0#7 0#7 2
  | .exit s => packA s 19 0#7 0#7 0#7 3
  | .nop s => packA s 19 0#7 0#7 0#7 4
  | .yield s => packA s 19 0#7 0#7 0#7 5
  | .trap s n => packA s 19 0#7 0#7 n 6
  | .brk s n => packA s 19 0#7 0#7 n 7
  | .rett s => packA s 19 0#7 0#7 0#7 8
  | .brxZ s a o => packB s 20 a 0 o
  | .brxNz s a o => packB s 20 a 1 o
  | .brxLtz s a o => packB s 20 a 2 o
  | .brxGez s a o => packB s 20 a 3 o
  | .cont s d a => packA s 21 d a 0#7 0
  | .qput s d a b => packA s 21 d a b 1
  | .watch s d a => packA s 21 d a 0#7 2
  | .unwatch s d a b => packA s 21 d a b 3
  | .wgrow s d a => packA s 22 d a 0#7 0
  | .wshrink s d a => packA s 22 d a 0#7 1
  | .wbase s a => packA s 22 0#7 a 0#7 2
  | .wiset s a => packA s 22 0#7 a 0#7 3
  | .vrgat s d a => packA s 22 d a 0#7 4
  | .vrsca s a b => packA s 22 0#7 a b 5
  | .poolReq s d a => packA s 22 d a 0#7 6
  | .poolRel s d a => packA s 22 d a 0#7 7
  | .poolMap s d a => packA s 22 d a 0#7 8
  | .poolOcc s d a => packA s 22 d a 0#7 9
  | .tstate s d a => packA s 22 d a 0#7 10
  | .tmark s d a => packA s 22 d a 0#7 11
  | .faddS s d a b _ => packA s 24 d a b 0
  | .fsubS s d a b _ => packA s 24 d a b 1
  | .fmulS s d a b _ => packA s 24 d a b 2
  | .fminS s d a b _ => packA s 24 d a b 3
  | .fmaxS s d a b _ => packA s 24 d a b 4
  | .fdivS s d a b _ => packA s 24 d a b 5
  | .fsqrtS s d a _ => packA s 24 d a 0#7 6
  | .frcpS s d a _ => packA s 24 d a 0#7 7
  | .fabsS s d a _ => packA s 24 d a 0#7 8
  | .fnegS s d a _ => packA s 24 d a 0#7 9
  | .feqS s d a b _ => packA s 24 d a b 10
  | .fltS s d a b _ => packA s 24 d a b 11
  | .fleS s d a b _ => packA s 24 d a b 12
  | .funS s d a b _ => packA s 24 d a b 13
  | .fmaS s d a b _ => packA s 24 d a b 14
  | .fnmaS s d a b _ => packA s 24 d a b 15
  | .faddD s d a b _ => packA s 25 d a b 0
  | .fsubD s d a b _ => packA s 25 d a b 1
  | .fmulD s d a b _ => packA s 25 d a b 2
  | .fminD s d a b _ => packA s 25 d a b 3
  | .fmaxD s d a b _ => packA s 25 d a b 4
  | .fdivD s d a b _ => packA s 25 d a b 5
  | .fsqrtD s d a _ => packA s 25 d a 0#7 6
  | .frcpD s d a _ => packA s 25 d a 0#7 7
  | .fabsD s d a _ => packA s 25 d a 0#7 8
  | .fnegD s d a _ => packA s 25 d a 0#7 9
  | .feqD s d a b _ => packA s 25 d a b 10
  | .fltD s d a b _ => packA s 25 d a b 11
  | .fleD s d a b _ => packA s 25 d a b 12
  | .funD s d a b _ => packA s 25 d a b 13
  | .fmaD s d a b _ => packA s 25 d a b 14
  | .fnmaD s d a b _ => packA s 25 d a b 15
  | .faddH2 s d a b _ => packA s 26 d a b 0
  | .fsubH2 s d a b _ => packA s 26 d a b 1
  | .fmulH2 s d a b _ => packA s 26 d a b 2
  | .fminH2 s d a b _ => packA s 26 d a b 3
  | .fmaxH2 s d a b _ => packA s 26 d a b 4
  | .fdivH2 s d a b _ => packA s 26 d a b 5
  | .fsqrtH2 s d a _ => packA s 26 d a 0#7 6
  | .frcpH2 s d a _ => packA s 26 d a 0#7 7
  | .fabsH2 s d a _ => packA s 26 d a 0#7 8
  | .fnegH2 s d a _ => packA s 26 d a 0#7 9
  | .feqH2 s d a b _ => packA s 26 d a b 10
  | .fltH2 s d a b _ => packA s 26 d a b 11
  | .fleH2 s d a b _ => packA s 26 d a b 12
  | .funH2 s d a b _ => packA s 26 d a b 13
  | .fmaH2 s d a b _ => packA s 26 d a b 14
  | .fnmaH2 s d a b _ => packA s 26 d a b 15
  | .faddB2 s d a b _ => packA s 27 d a b 0
  | .fsubB2 s d a b _ => packA s 27 d a b 1
  | .fmulB2 s d a b _ => packA s 27 d a b 2
  | .fminB2 s d a b _ => packA s 27 d a b 3
  | .fmaxB2 s d a b _ => packA s 27 d a b 4
  | .fdivB2 s d a b _ => packA s 27 d a b 5
  | .fsqrtB2 s d a _ => packA s 27 d a 0#7 6
  | .frcpB2 s d a _ => packA s 27 d a 0#7 7
  | .fabsB2 s d a _ => packA s 27 d a 0#7 8
  | .fnegB2 s d a _ => packA s 27 d a 0#7 9
  | .feqB2 s d a b _ => packA s 27 d a b 10
  | .fltB2 s d a b _ => packA s 27 d a b 11
  | .fleB2 s d a b _ => packA s 27 d a b 12
  | .funB2 s d a b _ => packA s 27 d a b 13
  | .fmaB2 s d a b _ => packA s 27 d a b 14
  | .fnmaB2 s d a b _ => packA s 27 d a b 15
  | .fexp2 s d a _ => packA s 28 d a 0#7 0
  | .flog2 s d a _ => packA s 28 d a 0#7 1
  | .fsin s d a _ => packA s 28 d a 0#7 2
  | .fcos s d a _ => packA s 28 d a 0#7 3
  | .frsq s d a _ => packA s 28 d a 0#7 4
  | .ftanh s d a _ => packA s 28 d a 0#7 5
  | .cvt s d a c _ => packA s 29 d a c 0
  | .cvtp s d a c _ => packA s 29 d a c 1
  | .cvtq s d a c _ => packA s 29 d a c 2
  | .fclass s d a k _ => packA s 29 d a k 3
  | .fscl s d a b _ => packA s 29 d a b 4
  | .ldB s t r i _ => packA s 32 t r i 0
  | .ldBs s t r i _ => packA s 32 t r i 1
  | .ldH s t r i _ => packA s 32 t r i 2
  | .ldHs s t r i _ => packA s 32 t r i 3
  | .ldW s t r i _ => packA s 32 t r i 4
  | .ldD s t r i _ => packA s 32 t r i 5
  | .ldQ s t r i _ => packA s 32 t r i 6
  | .ldO s t r i _ => packA s 32 t r i 7
  | .ldmcQ s t r i _ => packA s 32 t r i 8
  | .stB s t r i _ => packA s 33 t r i 0
  | .stH s t r i _ => packA s 33 t r i 1
  | .stW s t r i _ => packA s 33 t r i 2
  | .stD s t r i _ => packA s 33 t r i 3
  | .stQ s t r i _ => packA s 33 t r i 4
  | .stO s t r i _ => packA s 33 t r i 5
  | .ldsW s t r i _ => packA s 34 t r i 0
  | .ldsD s t r i _ => packA s 34 t r i 1
  | .ldsQ s t r i _ => packA s 34 t r i 2
  | .stsW s t r i _ => packA s 34 t r i 3
  | .stsD s t r i _ => packA s 34 t r i 4
  | .stsQ s t r i _ => packA s 34 t r i 5
  | .amoAdd s d a b _ => packA s 35 d a b 0
  | .amoAnd s d a b _ => packA s 35 d a b 1
  | .amoOr s d a b _ => packA s 35 d a b 2
  | .amoXor s d a b _ => packA s 35 d a b 3
  | .amoMin s d a b _ => packA s 35 d a b 4
  | .amoMax s d a b _ => packA s 35 d a b 5
  | .amoMinn s d a b _ => packA s 35 d a b 6
  | .amoMaxn s d a b _ => packA s 35 d a b 7
  | .amoSwap s d a b _ => packA s 35 d a b 8
  | .amoCas s d a b _ => packA s 35 d a b 9
  | .amoFadd s d a b _ => packA s 35 d a b 10
  | .amoAddb2 s d a b _ => packA s 35 d a b 11
  | .amoAddh2 s d a b _ => packA s 35 d a b 12
  | .amoAdd64 s d a b _ => packA s 35 d a b 13
  | .amoCas64 s d a b _ => packA s 35 d a b 14
  | .amoInc s d a b _ => packA s 35 d a b 15
  | .samoAdd s d a b _ => packA s 36 d a b 0
  | .samoAnd s d a b _ => packA s 36 d a b 1
  | .samoOr s d a b _ => packA s 36 d a b 2
  | .samoXor s d a b _ => packA s 36 d a b 3
  | .samoMin s d a b _ => packA s 36 d a b 4
  | .samoMax s d a b _ => packA s 36 d a b 5
  | .samoMinn s d a b _ => packA s 36 d a b 6
  | .samoMaxn s d a b _ => packA s 36 d a b 7
  | .samoSwap s d a b _ => packA s 36 d a b 8
  | .samoCas s d a b _ => packA s 36 d a b 9
  | .samoFadd s d a b _ => packA s 36 d a b 10
  | .samoAddb2 s d a b _ => packA s 36 d a b 11
  | .samoAddh2 s d a b _ => packA s 36 d a b 12
  | .samoAdd64 s d a b _ => packA s 36 d a b 13
  | .samoCas64 s d a b _ => packA s 36 d a b 14
  | .samoInc s d a b _ => packA s 36 d a b 15
  | .fence s c m => packA s 37 0#7 0#7 (c ++ m ++ 0#1) 0
  | .fenceAcq s c m => packA s 37 0#7 0#7 (c ++ m ++ 0#1) 1
  | .fenceRel s c m => packA s 37 0#7 0#7 (c ++ m ++ 0#1) 2
  | .wct s d => packA s 37 d 0#7 0#7 3
  | .flush s a b => packA s 37 0#7 a b 4
  | .icinv s a b => packA s 37 0#7 a b 5
  | .fwait s d a b => packA s 37 d a b 6
  | .pref s a => packA s 37 0#7 a 0#7 7
  | .wvoteAny s d a b => packA s 40 d a b 0
  | .wvoteAll s d a b => packA s 40 d a b 1
  | .wballot s d a b => packA s 40 d a b 2
  | .wredAdd s d a b => packA s 40 d a b 3
  | .wredFadd s d a b => packA s 40 d a b 4
  | .wredMin s d a b => packA s 40 d a b 5
  | .wredMax s d a b => packA s 40 d a b 6
  | .wscanAdd s d a b => packA s 40 d a b 7
  | .wscanFadd s d a b => packA s 40 d a b 8
  | .wsegscanAdd s d a b => packA s 40 d a b 9
  | .wsegscanFadd s d a b => packA s 40 d a b 10
  | .wisect s d a b => packA s 40 d a b 11
  | .wnz s d a b => packA s 40 d a b 12
  | .wmm s d a b _ => packA s 40 d a b 13
  | .wsync s b => packA s 40 0#7 0#7 b 14
  | .wperm s d a b => packA s 40 d a b 15
  | .nbInit s a n => packA s 41 0#7 a (0#3 ++ n) 0
  | .nbArrive s d n => packA s 41 d 0#7 (0#3 ++ n) 1
  | .nbWait s d a n => packA s 41 d a (0#3 ++ n) 2
  | .nbMeet s d n => packA s 41 d 0#7 (0#3 ++ n) 3
  | .nbTest s d a n => packA s 41 d a (0#3 ++ n) 4
  | .nbStat s d e n => packA s 41 d 0#7 (e ++ n) 5
  | .xredAdd s k a b => packA s 41 (0#4 ++ k) a b 6
  | .xredFadd s k a b => packA s 41 (0#4 ++ k) a b 7
  | .xredMax s k a b => packA s 41 (0#4 ++ k) a b 8
  | .xredOr s k a b => packA s 41 (0#4 ++ k) a b 9
  | .cpy s d a _ => packA s 42 d a 0#7 0
  | .mcpy s d a b _ => packA s 42 d a b 1
  | .fget s d a b _ => packA s 42 d a b 2
  | .fgetb s d a b _ => packA s 42 d a b 3
  | .tld s d a _ => packA s 48 d a 0#7 0
  | .tst s d a _ => packA s 48 d a 0#7 1
  | .tstc s d a b _ => packA s 48 d a b 2
  | .tzero s d _ => packA s 48 d 0#7 0#7 3
  | .tmov s d a _ => packA s 48 d a 0#7 4
  | .tfree s d _ => packA s 48 d 0#7 0#7 5
  | .tcvt s d a _ => packA s 48 d a 0#7 6
  | .tlay s n a _ => packA s 48 (0#4 ++ n) a 0#7 7
  | .mma s d a b _ => packA s 49 d a b 0
  | .mman s d a b _ => packA s 49 d a b 1
  | .mms s d a b _ => packA s 49 d a b 2
  | .tlu s d _ => packA s 50 d 0#7 0#7 0
  | .tchol s d _ => packA s 50 d 0#7 0#7 1
  | .tqr s d _ => packA s 50 d 0#7 0#7 2
  | .ttrsl s d a _ => packA s 50 d a 0#7 3
  | .ttrsu s d a _ => packA s 50 d a 0#7 4
  | .ttrsn s d a _ => packA s 50 d a 0#7 5
  | .tperm s d a _ => packA s 50 d a 0#7 6
  | .tqapp s d a _ => packA s 50 d a 0#7 7
  | .tqappt s d a _ => packA s 50 d a 0#7 8
  | .svmv s d a b _ => packA s 51 d a b 0
  | .svmm s d a b _ => packA s 51 d a b 1
  | .sbarInit s a n => packA s 52 0#7 a (0#3 ++ n) 0
  | .sbarArrive s d n => packA s 52 d 0#7 (0#3 ++ n) 1
  | .sbarWait s d a n => packA s 52 d a (0#3 ++ n) 2
  | .xrd s d k e => packA s 52 d (4#4 ++ k) e 3
  | .sfence s c m => packA s 52 0#7 0#7 (c ++ m ++ 0#1) 4
  | .send s => packA s 52 0#7 0#7 0#7 5
  | .sstat s d e => packA s 52 d 0#7 e 6
  | .setfmt s a => packA s 52 0#7 a 0#7 7
  | .csrr s d n => packA s 62 d (n.extractLsb' 7 7) (n.extractLsb' 0 7) 0
  | .csrw s n a => packA s 62 (n.extractLsb' 7 7) a (n.extractLsb' 0 7) 1
  | .pfxWord _ w => w
  | .kwaitEq b a d => packHart b a 0 d
  | .kwaitNe b a d => packHart b a 1 d
  | .kwaitGeu b a d => packHart b a 2 d
  | _ => 0

/-- The payload word of R60. -/
def packPayload (p : BitVec 25) : Word := packJ false 0x3F p

/-- The words of an instruction, the first at the lowest address. -/
def encode (i : Instr) : List Word :=
  match i with
  | .pfxWord p w => [packPayload p, w]
  | i => match i.payload with
    | none => [encodeWord i]
    | some p => [packPayload p, encodeWord i]

/-- The instruction that words hold, the first at the lowest address: a hart's word, a word, or a payload word and its word. -/
noncomputable def decode : List Word → Option Instr
  | [w] => match decodeHart w with
    | some i => some i
    | none => decodePair w 0
  | [w0, w1] => decodePair w0 w1
  | _ => none

/-- How many bytes an instruction takes (R12). -/
def Instr.bytes (i : Instr) : Nat := if i.payload.isSome then 8 else 4

/-- The instruction whose bits are `w` under the table's numbering: bits [31:0] the first word, the next word above them. -/
noncomputable def decodeTableWord (nbits w : Nat) : Option Instr :=
  let w := w % 2 ^ nbits
  let w0 := BitVec.ofNat 32 w
  match decodeHart w0 with
  | some i => some i
  | none => decodePair w0 (BitVec.ofNat 32 (w / 2 ^ 32))

end Sys2Proof
end

