-- ==== Sys2Proof/Machine/Flags.lean ====
section
/-! DEFINITION. Conditions and comparisons: the machine has no flags; a comparison writes 0 or 1 (R82, R83), a branch tests a
register (R85, Table 3-9), and a wait or a COND packet compares two 64-bit words (R169, R171). -/

namespace Sys2Proof.Machine

open Sys2Proof

/-- 1 where a relation holds, else 0. -/
def flag {n : Nat} (p : Bool) : BitVec n := if p then 1 else 0

/-- The condition codes of Table 3-9 over a register of any width. -/
def condZ {n : Nat} (a : BitVec n) : Bool := a == 0
def condNz {n : Nat} (a : BitVec n) : Bool := a != 0
def condLtz {n : Nat} (a : BitVec n) : Bool := a.msb
def condGez {n : Nat} (a : BitVec n) : Bool := !a.msb

/-- The relations of `kwait`, WAIT and COND: 0 equal, 1 not equal, 2 unsigned greater or equal. -/
def relHolds (cmp : Nat) (m v : DWord) : Bool :=
  match cmp with
  | 0 => m == v
  | 1 => m != v
  | _ => v.ule m

end Sys2Proof.Machine
end

