-- ==== Sys2Proof/Config.lean ====
section
/-! DEFINITION. What the specification leaves open, as constants without a body: nothing can evaluate them or prove a value of
them. A free value is drawn by applying one to the counter `freeCtr` of the state. Also the part's fixed numbers (R3). -/

namespace Sys2Proof.Config

/-- The 3-bit features of `CAP` (R69). -/
def cap : BitVec 128 := 0xFFFF

/-- Bytes of device memory: 512 GiB (R3, R207). -/
def memBytes : Nat := 2 ^ 39

/-- Lines of 128 bytes in a set of a slice (R284): 16 in each of 1,024 sets are the slice's 2 MiB (R3). -/
def sliceWays : Nat := 16

/-- The set of a line in its slice, modulo 1,024 (the specification gives no index function). -/
opaque sliceSet : Nat → Nat

/-- What a new tile, scratch extent or frame holds where nothing has written it (the specification gives no value). -/
opaque freeByte : Nat → Byte

/-- A 64-bit value the specification does not state (a crossing whose arrivals bring different operations). -/
opaque freeWord : Nat → DWord

/-- What an instruction that may not trap on poison reads in a poisoned register: by the draw, the thread's number and the register. -/
opaque freeReg : Nat → Nat → Nat → Word

/-- How far beyond the skew bound another module's completion time lies: that module's leases are not in this model. -/
opaque freeDelay : Nat → Nat

/-- Whether the wait table of another module's slice has an entry for a word (R249). -/
opaque remoteRoom : Nat → Bool

/-- Whether a TLB builds the group's translation from the leaf of a contiguous group that a walk ends at (R373). -/
opaque groupTaken : Nat → Bool

/-- Whether agents of another module have written a word since it was last read here (R388). -/
opaque othersWrite : Nat → Bool

/-- The hash that chooses a peer port by owner module and physical kilobyte (R389). -/
opaque portHash : Nat → Nat → Nat

/-- What another module's attachments refuse of a write that commits there (R269): granule, attachment, and the granule's first byte and
length in the line. -/
opaque remoteEvents : Nat → List (BitVec 64 × Nat × Nat × Nat)

/-- A byte of another module's memory that no step here has given, by the number of cycles in which others may have written it, and its home
address (R387, R388). -/
opaque freeRemote : Nat → Nat → Byte

/-- Whether agents of another module have written a byte in a cycle (R388), by the cycle's draw and the home address. -/
opaque othersWrote : Nat → Nat → Bool

/-- Device-internal bytes of a control or engine image in the save area (R369, R370). -/
opaque freeImage : Nat → Byte

/-- SM3 digest of a byte string (GB/T 32905, named by R399 and R401 and not described). -/
opaque sm3 : List Byte → BitVec 256

/-- Whether an SM2 signature over a digest verifies against the fused key (GB/T 32918, R399). -/
opaque sm2Verify : BitVec 256 → BitVec 512 → Bool

/-- An SM2 signature made with the device key over a digest (R402); a signature draws a random number. -/
opaque sm2Sign : Nat → BitVec 256 → BitVec 512

/-- Whether the owner of another module's memory refuses a request, by its export table (R388). -/
opaque remoteRefuses : Nat → Bool

/-- Whether a target's export window covers a checkpoint region at a base (R406). -/
opaque targetCovers : Nat → Nat → Bool

/-- Whether a checkpoint image read back meets its CRC, and how much of it is read before that is known (R406). -/
opaque readBackOk : Nat → Bool
opaque readBackLen : Nat → Nat

/-- The lowest arithmetic clock (R409), in steps of 25 MHz above the first. -/
opaque lowestStep : Nat

/-- The digest of the protection tables, whose byte layout R402 does not give, by master, context, base and length. -/
opaque tablesDigest : List (Nat × Nat × Nat × Nat) → BitVec 256

/-- The certificate chain of the device key (R403). -/
opaque certChain : List Byte

/-- The part's serial and public identity words in an attestation report (R402). -/
opaque deviceId : BitVec 256

end Sys2Proof.Config
end

