-- ==== Sys2Proof/Machine/State.lean ====
section
/-! DEFINITION. The machine's state as plain data: one CK-9 module seen from one executing core, that core's cluster, and the
module's memory side, command processor, host window and root core. Stores keyed by a number are lists of pairs in one
canonical form (Machine/Store.lean). -/

namespace Sys2Proof.Machine

open Sys2Proof

/-! ## Traps (R343 to R346) -/

/-- The causes of Table 18-1. -/
inductive Cause where
  | illegal | instAlign | addrCanon | align | scratchBounds | regBounds | ifetch | page | prot | poison
  | swTrap | brk | collSelf | collExited | collMismatch | fmtDiverge | fmtInvalid
  | barArg | barBusy | barNone | xredNone | fetchErr | cascade
  deriving DecidableEq, Repr

/-- A trap: its cause and the values of `TADDR` and `TINFO` (Table 18-1). -/
structure Trap where
  cause : Cause
  addr : DWord := 0
  info : Word := 0
  deriving DecidableEq, Repr

/-- The trap frame (R11, Table 4-8). -/
structure TrapFrame where
  trpc : DWord := 0
  tcause : Word := 0
  taddr : DWord := 0
  tinfo : Word := 0
  deriving DecidableEq, Repr

/-- A deferred `CASCADE` (R267): the first refusal's granule, attachment and depth, and the further refusals. -/
structure Deferred where
  gran : DWord
  aid : Nat
  depth : Nat
  more : Nat := 0
  deriving DecidableEq, Repr

/-! ## Results (R26 to R30) -/

/-- What a result captures beside its registers: bits [63:32] for `tnowh` (R18), or for `pool.occ` 0x28 (R202). -/
inductive Capture where
  | none
  | tnow (v : Word)
  | occ (v : Word)
  deriving DecidableEq, Repr

/-- An outstanding register result (R26): the registers it writes with their values (once `ready`), and its latency bounds (R30). -/
structure Result (w : Nat) where
  tag : Nat
  regs : List (Nat × BitVec w)
  cap : Capture := .none
  ready : Bool := true
  issued : Nat
  minLat : Nat
  maxLat : Option Nat
  deriving DecidableEq, Repr

/-! ## Threads, warps, blocks (R11, R116 to R121) -/

/-- How a data access wants its page (R372, R378). -/
inductive Acc where
  | read | write | atomic | fetch
  deriving DecidableEq, Repr

/-- An attachment of a watched region (R254). `tree` none is the context's detached tree; `stopped` once its slices have stopped
testing writes (R256). -/
structure Att where
  id : Nat
  ctx : Nat
  tree : Option Nat
  va : Nat
  pa : Nat
  len : Nat
  gran : Nat
  depth : Nat
  prio : Nat
  entry : DWord
  lb : DWord
  args : DWord
  stopped : Bool := false
  deriving DecidableEq, Repr

/-- Why a thread is not ready (R122). A thread parked inside an instruction keeps its PC at that instruction, and goes on at
`npc` when the instruction completes. Destinations are physical registers; none is a discarded result. -/
inductive Park where
  | none
  /-- after an S-marked instruction (R28) -/
  | switch
  /-- the cycles after `yield` (R88) -/
  | yield (till : Nat)
  /-- until the time base passes the PCT that its record carried, of the thread `uid` (R136) -/
  | time (till uid seq : Nat)
  /-- arrived at a collective (R128) -/
  | coll
  /-- in a `ret` until its load returns (R14) -/
  | ret (tag : Nat)
  /-- in a fence, before its point (R219 to R221, R244) -/
  | fence (acq rel : Bool) (scope : Nat) (mask : BitVec 3)
  /-- in an ordered load or atomic whose acquiring read is not served yet (R220) -/
  | acquire (tag : Nat)
  /-- the record its instruction reads is on its way; the instruction issues with it (R154, R257, R330, R160) -/
  | record (tag : Nat)
  /-- before the release point of a barrier arrival (R149); `meet` waits after it -/
  | arrive (n : Nat) (dst : Option Nat) (meet : Bool)
  /-- at a numbered barrier until its phase leaves the token (R151) -/
  | barWait (n : Nat) (token : Nat) (dst : Option Nat)
  /-- before the release point of a crossing arrival (R152) -/
  | xredRel (op k : Nat) (v : DWord) (mask : Word)
  /-- arrived at a crossing register (R152) -/
  | xred (k : Nat)
  /-- in `wct` until every write is acknowledged (R245) -/
  | wct (dst : Nat)
  /-- in `flush` until its write-backs are acknowledged (R246) -/
  | flush (ids : List Nat)
  /-- in `icinv` over the lines from `lo` to `hi` (R98) -/
  | icinv (lo hi : Nat) (ids : List Nat)
  /-- in a Y-level `csrw` until the value is in force (R101) -/
  | csrw (n : Nat) (v : Word)
  /-- in `fwait` on the word at `pa`, virtual address `va`; `asleep` once registered (R248) -/
  | fwait (va : DWord) (pa : Nat) (empty : Word) (dst : Option Nat) (asleep : Bool)
  /-- in `watch` until every slice acknowledged (R255) -/
  | watch (dst : Option Nat) (att : Att)
  /-- in `unwatch` (R256) -/
  | unwatch (dst : Option Nat) (id : Nat) (discard : Bool)
  /-- a translation miss of an access at `va` (R375) -/
  | walk (va : Nat) (acc : Acc)
  /-- exiled by a `brx`: the record of this entry PC waits for the outstanding results (R131, R132) -/
  | exile (entry : PC)
  /-- a translation miss of a `pref` at `va`, which no fault follows (R247) -/
  | pref (va : Nat)
  /-- a page that a range instruction translates is walked for, whatever it permits (R98, R246, R255) -/
  | pages (page : Nat)
  /-- a recoverable fault of an access at `va` (R354) -/
  | fault (va : Nat) (acc : Acc)
  /-- the load-store queue cannot take the access: an earlier release of the thread has not reached its point (R122, R219) -/
  | storeWait
  /-- the word at the PC is in neither the loop buffer nor the instruction cache (R122) -/
  | ifetch (va : Nat)
  /-- a blocking `wgrow` (R196) with its result's number, its size and its place in the order of requests -/
  | wgrow (tag : Nat) (n : Nat) (since : Nat)
  /-- `wshrink` waiting for results to freed registers (R198) -/
  | wshrink (tag : Nat) (n : Nat)
  /-- `pool.rel` of scratch waiting for scratch accesses (R200) -/
  | poolRel (tag : Nat)
  /-- `fget` of a handle, not past its checks (R328); `df` is the destination field, `word` the instruction word -/
  | fget (df : BitVec 7) (dst : Option Nat) (handle : DWord) (row col word : Word)
  /-- the queue of the copy engine (unit 1) or the fetch unit (unit 2) is full (R327) -/
  | queueFull (unit : Nat)
  /-- a trap that has not entered its handler (R29, R122) -/
  | trap (t : Trap) (trpc : DWord) (deferred : Bool)
  deriving DecidableEq, Repr

/-- One thread (Table 1-1, R346, R348, R214, R245, R259). `uid` is the model's own number of it, which no later thread of its slot
and lane shares. -/
structure Thread where
  live : Bool := false
  uid : Nat := 0
  slot : Nat := 0
  lane : Nat := 0
  tid : Nat := 0
  pc : PC := 0
  npc : PC := 0
  kp : DWord := 0
  wb : Nat := 0
  regs : List (Nat × Word) := []
  poisoned : List Nat := []
  pend : List (Result 32) := []
  tcap : Option Word := none
  occCap : Word := 0
  pct : Nat := 0
  wctMax : Nat := 0
  frame : TrapFrame := {}
  swb : Nat := 0
  inh : Bool := false
  deferred : Option Deferred := none
  park : Park := .none
  smark : Bool := false
  /-- the capture of the instruction it is parked in, which becomes outstanding when the instruction ends (R18, R29) -/
  held : Option (Result 32) := none
  age : Nat := 0
  marked : Bool := false
  depth : Nat := 0
  /-- the record that was read for the instruction at a PC: its home address and bytes, none where they are poisoned -/
  got : Option (PC × Nat × Option (List Byte)) := none
  /-- pages that the range instruction in progress has translated: page number, and the home page if there is one (R98, R246, R255) -/
  found : List (Nat × Option Nat) := []
  deriving DecidableEq, Repr

/-- One resident warp (R118, R119): its register allocation, `wi`, launch constants, identity, register pages (bank, page)
and the state of its latest pool request (R188). A free warp has no block. -/
structure Warp where
  slot : Nat
  regsPer : Nat := 8
  wi : Nat := 0
  consts : List (Nat × Word) := []
  wid : Nat := 0
  bid : Nat := 0
  gsz : Nat := 1
  nthr : Nat := 32
  role : Nat := 0
  block : Option Nat := none
  tree : Nat := 0
  prio : Nat := 0
  pages : List (Nat × Nat) := []
  lastReq : Nat := 0
  reqBusy : Bool := false
  bct : Nat := 0
  deriving DecidableEq, Repr

/-- One numbered barrier (Table 7-3); participants and arrived threads are bit sets over `tid`. -/
structure Barrier where
  count : Nat := 0
  pending : Nat := 0
  phase : Nat := 0
  status : Word := 0
  last : Word := 0
  part : Nat := 0
  arrived : Nat := 0
  deriving DecidableEq, Repr

/-- An open crossing reduction (R152): operation, mask, and arrivals (slot, lane, value). -/
structure Crossing where
  k : Nat
  op : Nat
  mask : Word
  /-- an arrival brought another operation than the first -/
  mixed : Bool := false
  got : List (Nat × Nat × DWord) := []
  deriving DecidableEq, Repr

/-- A resident block (R120, R121, R184, R187, R275). `handle` is the model's key of it, `slot0` the slot of its warp 0, which
`PMAP` tags show (R179); `bct` its completion time so far (R163). -/
structure Block where
  handle : Nat
  slot0 : Nat := 0
  ctx : Nat := 0
  tree : Nat := 0
  hdr : DWord := 0
  args : DWord := 0
  bid : Nat := 0
  gsz : Nat := 1
  nthr : Nat := 32
  prio : Nat := 0
  depth : Nat := 0
  scratch : Nat := 0
  sbase : Nat := 0
  bars : List (Nat × Barrier) := []
  crossings : List Crossing := []
  frames : List Nat := []
  stream : Option Nat := none
  bct : Nat := 0
  /-- the words at ARGS have not been read (R160) -/
  argsWait : Bool := false
  ended : Bool := false
  deriving DecidableEq, Repr

/-- A member's arrival at a collective (R128, R141): operands read on arrival, destination registers. -/
structure CollArrival where
  lane : Nat
  av : Word
  bv : Word := 0
  dv : DWord := 0
  fv : Word := 0
  dst : Option Nat
  smark : Bool := false
  deriving DecidableEq, Repr

/-- An open instance of a collective (R128): warp, PC, member of major 0x28, mask, in-handler state, arrivals. -/
structure Coll where
  slot : Nat
  pc : PC
  f : Nat
  mask : Word
  inh : Bool
  got : List CollArrival := []
  deriving DecidableEq, Repr

/-! ## The pool (chapter 9) -/

/-- Bank roles (Table 9-1). -/
inductive Role where
  | free | regs | scratch | cache | tile
  deriving DecidableEq, Repr

/-- A `PMAP` entry (Table 9-2). -/
structure Bank where
  busy : Bool := false
  role : Role := .free
  tag : Nat := 0x3F
  deriving DecidableEq, Repr

/-- Tile states (Table 9-3). -/
inductive TileSt where
  | empty | filling | ready | draining
  deriving DecidableEq, Repr

/-- A tile-table entry (R187): its M bank, the owning block, its state. A block's local indices follow the list's order. `key`
is the model's own number of it, under which its bytes are kept. -/
structure Tile where
  key : Nat := 0
  bank : Nat
  owner : Nat
  st : TileSt := .empty
  readers : Nat := 0
  deriving DecidableEq, Repr

/-- What the banks of a grow or a C shrink become (R190, R191); `pages` are those a register grow has reserved in G banks. -/
inductive BankUse where
  | toFree
  | toTile (owner : Nat)
  | toRegs (slot : Nat) (want : Nat) (pages : List (Nat × Nat))
  deriving DecidableEq, Repr

/-- A handshake of a core (R188): banks that change role once the write messages of their dirty lines are acknowledged, or a
relocation that releases `n` banks after the moves (handle, from, to). `warp` is the requester whose result code it completes. -/
inductive Handshake where
  | writeback (banks : List Nat) (ids : List Nat) (use : BankUse) (warp : Option Nat)
  | reloc (n : Nat) (moves : List (Nat × Nat × Nat)) (warp : Option Nat)
  deriving DecidableEq, Repr

/-- An L1 line (R186, R210, R216, R233, R259): the C bank whose way holds it, sector valid bits, expiries and value times, dirty-byte
mask, scope tag, depth, and the context of its dirty bytes. `who` are the threads whose stores are dirty in it, `bundle` the bundle
of the latest store. -/
structure L1Line where
  line : Nat
  bank : Nat := 0
  valid0 : Bool := false
  valid1 : Bool := false
  exp0 : Nat := 0
  exp1 : Nat := 0
  vt0 : Nat := 0
  vt1 : Nat := 0
  dirty : Nat := 0
  scope : Nat := 0
  depth : Nat := 0
  who : List Nat := []
  bundle : Nat := 0
  ctx : Nat := 0
  keep : Bool := false
  used : Nat := 0
  poison0 : Bool := false
  poison1 : Bool := false
  bytes : List (Nat × Byte) := []
  deriving DecidableEq, Repr

/-! ## Continuation records, tasks and queues (chapters 6 and 8) -/

/-- A continuation record (R131) with what its queue entry carries beside it (R133, R166, R259). -/
structure ContRec where
  hdr : DWord
  regs : List (Nat × Word)
  pct : Nat
  depth : Nat
  deriving DecidableEq, Repr

/-- A trigger record (Table 12-4) with its attachment's context and slice, creation order, and place (R260, R261). -/
structure TrigRec where
  ctx : Nat
  slice : Nat
  aid : Nat
  gaddr : DWord
  depth : Nat
  count : Nat
  wct : Nat
  prio : Nat
  seq : Nat
  tree : Nat
  spilled : Option Nat := none
  tagged : Bool := true
  deriving DecidableEq, Repr

/-- What a queue entry holds (Table 8-6): a task with the next block to give up, one block, or a record for a core. -/
inductive Work where
  | task (hdr lb args : DWord) (bcount next : Nat)
  | block (hdr lb args : DWord) (bcount bid : Nat)
  | cont (cid : Nat) (r : ContRec)
  deriving DecidableEq, Repr

/-- A queue entry (R164 to R168): priority, cycle first queued, times passed over, carried PCT with the number of the
thread whose writes may still add to it, depth, the trigger record of triggered work (R265), when it entered its queue, and the
cycles a record spent in the core queue before (R166). -/
structure QEntry where
  ctx : Nat
  tree : Nat
  prio : Nat
  since : Nat
  passed : Nat := 0
  pct : Nat := 0
  uid : Option Nat := none
  depth : Nat := 0
  trig : Option (TrigRec × DWord) := none
  entered : Nat := 0
  waited : Nat := 0
  /-- which `qput` queued it, so that equal tasks are told apart; writes with a lower number are older than it -/
  task : Nat := 0
  work : Work
  deriving DecidableEq, Repr

/-- A move between queue levels that has started (R165). -/
structure QMove where
  toLvl : QLevel
  entries : List QEntry
  deriving DecidableEq, Repr

/-- A context's overflow ring of a segment (R164): its blocks, oldest first, and the blocks ever written. -/
structure WqRing where
  q : Nat
  ctx : Nat
  blocks : List (List QEntry) := []
  head : Nat := 0
  deriving DecidableEq, Repr

/-- A spawn tree (R162, R163): counter, completion time, signal, and who waits: its queue (JOIN) or graph node. -/
structure Tree where
  n : Nat
  ctx : Nat
  count : Nat
  tct : Nat := 0
  isOpen : Bool := true
  sigAddr : DWord := 0
  sigVal : DWord := 0
  queue : Option Nat := none
  node : Option (Nat × Nat) := none
  detached : Bool := false
  /-- the completion time of the signal, once written -/
  sigAt : Option Nat := none
  deriving DecidableEq, Repr

/-! ## Contexts (Table 8-1) -/

/-- A mapped context: descriptor fields, the CSR values of Table 4-8 that it holds, and the device's indices for its rings. -/
structure Ctx where
  n : Nat
  desc : Nat := 0
  errAddr : Nat := 0
  ptRoot : Nat := 0
  saveArea : Nat := 0
  fqSize : Nat := 16
  fqAddr : Nat := 0
  trBlk : Nat := 0
  tRing : Nat := 0
  wqBlk : Nat := 1
  wqRing : Nat := 0
  hvec : DWord := 0
  lease : Word := 1024
  mcwin : Word := 256
  tqlim : Word := 256
  sys : Bool := false
  stkSize : Nat := 64
  stkBase : Nat := 0
  nerr : Nat := 0
  widx : Nat := 0
  ridx : Nat := 0
  detTree : Nat := 0
  paused : Bool := false
  pins : List (Nat × Nat) := []
  deriving DecidableEq, Repr

/-! ## The memory side (chapters 10 to 12) -/

/-- What a slice records for a line (R211). -/
structure LineRec where
  exp : Nat := 0
  expOff : Nat := 0
  vl : Nat := 0
  deriving DecidableEq, Repr

/-- A register load that waits for bytes (R94, R240): the result it completes, the address and size, and the extension. `known`
are the home addresses whose byte no longer depends on the core's dirty bytes at the load's arrival: with a byte, the load gets that
one (R224); with none, the home's, since a later store of the same thread has made the byte dirty (R22). -/
structure LoadWait where
  stream : Option Nat := none
  slot : Nat
  lane : Nat
  pc : PC := 0
  tag : Nat
  va : DWord := 0
  pa : Nat
  size : Nat
  signed : Bool := false
  known : List (Nat × Option Byte) := []
  /-- a byte it knows is poisoned (R357) -/
  bad : Bool := false
  deriving DecidableEq, Repr

/-- A fill request, or its reply once the home served it (R210): sector bytes, expiry, value time, poison. Lines and addresses of
the core's requests are home addresses: a physical address of this module, or, in the memory of module m, (m + 1) × 2^39 plus the
physical address there. -/
structure Fill where
  line : Nat
  sec : Nat
  lease : Nat
  ctx : Nat := 0
  bundle : Nat := 0
  alloc : Bool := true
  keep : Bool := false
  waits : List LoadWait := []
  reply : Option (List Byte × Nat × Nat × Bool) := none
  deriving DecidableEq, Repr

/-- One thread's part of a request: the thread's number, its spawn tree, and the bytes it brought. -/
structure Share where
  uid : Nat
  tree : Nat
  lo : Nat
  len : Nat
  /-- the number of its issue -/
  seq : Nat := 0
  deriving DecidableEq, Repr

/-- Which agent's write it is (R214, R258, R259, R267): threads, a stream, a thread that forces
a write-back, the core's evictions, an operation of the matrix engine (unit 0) or the copy engine (unit 1), or an agent outside
the cluster. -/
inductive Writer where
  | threads (who : List Share)
  | stream (n block tree : Nat)
  | forced (uid : Nat)
  | evict
  | engine (unit op : Nat)
  | host
  | module (m : Nat)
  deriving DecidableEq, Repr

/-- A refused event that returns with an acknowledgement (R267): granule, attachment, refused depth, and the granule's bytes at
the home. -/
structure Refused where
  gran : DWord
  aid : Nat
  depth : Nat
  lo : Nat := 0
  len : Nat := 0
  deriving DecidableEq, Repr

/-- A write on its way to its home (R213, R215, R216), or its acknowledgement. `intoL1` bytes reach the core's own copy when it
returns; a write-back carries its line's scope tag and the threads whose stores it brings. -/
structure WriteMsg where
  ws : List (Nat × Byte)
  writer : Writer
  depth : Nat
  tag : Nat := 0
  who : List Nat := []
  bundle : Nat := 0
  intoL1 : Bool := false
  /-- sectors whose poison a write-back carries (R356) -/
  poison : List Nat := []
  ctx : Nat := 0
  ack : Option (Nat × List Refused) := none
  deriving DecidableEq, Repr

/-- One thread's step of an atomic request (R235, R238). -/
structure AtomicStep where
  uid : Nat
  tree : Nat := 0
  slot : Nat
  lane : Nat
  tag : Nat
  f : Nat
  va : DWord := 0
  pa : Nat
  b : DWord
  expect : DWord
  pc : PC := 0
  deriving DecidableEq, Repr

/-- An atomic request of one bundle to one line (R238). -/
structure AtomicMsg where
  steps : List AtomicStep
  depth : Nat
  ctx : Nat := 0
  bundle : Nat := 0
  ack : Option (Nat × List Refused) := none
  deriving DecidableEq, Repr

/-- A multicast request (R241, R243): its key, the requester's core and `LEASE`, and the loads it serves. -/
structure McastMsg where
  line : Nat
  n0 : Nat
  mask : DWord
  bit : Nat
  lease : Nat
  bundle : Nat := 0
  ctx : Nat := 0
  waits : List LoadWait
  deriving DecidableEq, Repr

inductive MsgBody where
  | fill (f : Fill)
  | write (w : WriteMsg)
  | atomic (a : AtomicMsg)
  | mcast (m : McastMsg)
  deriving DecidableEq, Repr

/-- A message between the core and a home, in issue order (R209). -/
structure Msg where
  id : Nat
  body : MsgBody
  deriving DecidableEq, Repr

/-- A store or atomic that waits for its release point (R219, R232). What its thread issued before it has a number below `seq`. -/
structure Queued where
  seq : Nat := 0
  uid : Nat
  slot : Nat
  lane : Nat
  rel : Option (Nat × BitVec 3)
  scope : Nat
  hint : Nat
  scratch : Option Nat := none
  ws : List (Nat × Byte) := []
  atom : Option AtomicStep := none
  depth : Nat
  bundle : Nat
  tree : Nat := 0
  ctx : Nat := 0
  deriving DecidableEq, Repr

/-- A `qput` that has issued and waits for its release point (R154); `seq` as in `Queued`. -/
structure QPut where
  seq : Nat := 0
  uid : Nat
  slot : Nat
  lane : Nat
  tag : Nat
  hdr : DWord
  key : Word
  words : List DWord
  tree : Nat := 0
  depth : Nat := 0
  prio : Nat := 0
  deriving DecidableEq, Repr

/-- A wait-table entry (R249): word address and parked threads, those of other modules by module. -/
structure WaitEnt where
  pa : Nat
  who : List (Nat × Nat)
  /-- modules whose `fwait` waits here -/
  remote : List Nat := []
  deriving DecidableEq, Repr

/-- A merge window of a slice (R242) with the requests that have joined it. -/
structure Window where
  slice : Nat
  line : Nat
  n0 : Nat
  mask : DWord
  joined : DWord
  asked : DWord
  reqs : List McastMsg
  opened : Nat
  closed : Option Nat := none
  len : Nat
  deriving DecidableEq, Repr

/-- A context's trigger overflow ring of one slice (R263): block indices and lost records (R264). -/
structure TrigRing where
  slice : Nat
  ctx : Nat
  head : Nat := 0
  tail : Nat := 0
  lost : Nat := 0
  reported : Option Nat := none
  deriving DecidableEq, Repr

/-! ## Translation and faults (chapter 19) -/

/-- A cached translation (R374): context, first page (4 KiB units), pages, physical page or module, permissions. -/
structure TlbEnt where
  ctx : Nat
  vpage : Nat
  pages : Nat
  ppage : Nat
  remote : Option Nat
  r : Bool
  w : Bool
  x : Bool
  deriving DecidableEq, Repr

/-- A walk waiting for a walker or walking (R374). -/
structure Walk where
  ctx : Nat
  page : Nat
  acc : Acc
  granted : Bool := false
  /-- the engines of the cluster that wait for it, each with its kind of access -/
  engs : List (Nat × Acc) := []
  deriving DecidableEq, Repr

/-- An engine's access whose walk has ended in a fault: the engine takes the fault when it tries again (R293, R336). -/
structure Missed where
  master : Nat
  ctx : Nat
  page : Nat
  acc : Acc
  deriving DecidableEq, Repr

/-- An outstanding fault (R377 to R379); `idx` is its place in the fault queue once written. -/
structure FaultRec where
  ctx : Nat
  page : Nat
  acc : Acc
  kind : Nat
  level : Nat
  entry : DWord
  srcid : Nat
  idx : Option Nat := none
  deriving DecidableEq, Repr

/-! ## The cluster: sequencer contexts, engine, copy engine and fetch unit (chapters 14 to 16) -/

/-- Why a stream is not ready (R277, R318 to R321). -/
inductive SPark where
  | none
  | switch
  | barArrive (n : Nat) (dst : Nat)
  | barWait (n : Nat) (token : Nat) (dst : Nat)
  | xrd (k : Nat) (e : Nat) (dst : Nat)
  | sfence (scope : Nat) (mask : BitVec 3) (ents : List Nat)
  /-- no entry of the reservation table is free for the context (R277) -/
  | tableFull
  /-- the next word is not fetched (R277) -/
  | ifetch (va : Nat)
  | walk (va : Nat) (acc : Acc)
  | fault (va : Nat) (acc : Acc)
  /-- it stops on a cause met by the instruction at an address, once its entries have completed (R279) -/
  | stopping (cause : Nat) (at_ : DWord)
  deriving DecidableEq, Repr

/-- A sequencer context (Table 14-1). -/
structure SeqCtx where
  n : Nat := 0
  held : Bool := false
  block : Nat := 0
  pc : PC := 0
  npc : PC := 0
  regs : List (Nat × DWord) := []
  pend : List (Result 64) := []
  xval : List (Nat × DWord) := []
  xseq : List (Nat × Nat) := []
  fmt : Word := 0
  mtmask : BitVec 64 := 0
  mtph : Nat := 0
  dph : Nat := 0
  stop : Nat := 0
  last : Word := 0
  tbconf : DWord := 0
  layouts : List (Nat × BitVec 256) := []
  rstack : List PC := []
  spct : Nat := 0
  /-- the largest OPCT of the context's completed entries (R321) -/
  opct : Nat := 0
  park : SPark := .none
  smark : Bool := false
  deriving DecidableEq, Repr

/-- Where a reservation entry stands (R280 to R291). -/
inductive EStage where
  /-- made, not yet accepted on its tiles -/
  | waiting
  /-- accepted; its next micro-tile's operands are not fetched -/
  | accepted
  /-- operands of the next micro-tile fetched -/
  | fetched
  /-- in a pass that ends at a cycle -/
  | inPass (till : Nat)
  /-- computed or failed; completes once its writes are acknowledged and its REL is met (R291) -/
  | releasing
  deriving DecidableEq, Repr

/-- A reservation entry (R280): the member (major, f), captured operand words and payload, its context, and its progress. `seq` is
the model's number of it; `banks` the tiles bound at creation by operand position (0 d, 1 a, 2 b), `taken` those accepted; `snap`
the bytes fetched for the next micro-tile by virtual address; `later` the header that `tstc` writes last, `res` its result. -/
structure REntry where
  n : Nat
  maj : Nat
  f : Nat
  dnum : Nat
  dv : DWord
  av : DWord
  bv : DWord
  payload : BitVec 25
  ctx : Nat
  block : Nat
  fmt : Word
  issued : Nat
  seq : Nat
  prio : Nat
  depth : Nat
  phase : Nat
  done : BitVec 64 := 0
  stage : EStage := .waiting
  checked : Bool := false
  status : Word := 0
  opct : Nat := 0
  tag : Option Nat := none
  banks : List (Nat × Nat) := []
  taken : List Nat := []
  waitIds : List Nat := []
  snap : List (Nat × Byte) := []
  later : List (Nat × Byte) := []
  res : Option DWord := none
  frozenFault : Option (Nat × Acc) := none
  frozenSwap : Bool := false
  /-- cycles it was frozen, which do not age it (R292) -/
  stood : Nat := 0
  denied : Bool := false
  /-- it ends for a failed check, which undoes its acceptances (R297) -/
  undone : Bool := false
  /-- the lines that it holds pinned in their slices (R284) -/
  pins : List Nat := []
  deriving DecidableEq, Repr

/-- The kinds of operation the copy engine and the fetch unit run (R327, R397). -/
inductive CopyKind where
  | cpy | mcpy | fgetb | hostCopy
  deriving DecidableEq, Repr

/-- An accepted copy or fetch operation (R327 to R334): descriptor or handle, window words, payload, issuer, progress. A host copy
has its cluster in `slot`; `bank` and `srcBank` are the numbers of the tiles it names; `accepted` once Table 9-3 took it. -/
structure CopyOp where
  id : Nat
  kind : CopyKind
  slot : Nat := 0
  lane : Nat := 0
  tag : Nat := 0
  dst : Option Nat := none
  block : Option Nat
  ctx : Nat
  desc : BitVec 512
  hdr : DWord := 0
  tree : Nat := 0
  addr : DWord := 0
  bv : DWord := 0
  quad : BitVec 128 := 0
  payload : BitVec 25 := 0
  depth : Nat := 0
  accepted : Bool := false
  started : Bool := false
  waitIds : List Nat := []
  status : Word := 0
  opct : Nat := 0
  bank : Option Nat := none
  srcBank : Option Nat := none
  rcv : List (Nat × Word) := []
  /-- the bytes moved, or the window rows written, so far (R329, R336) -/
  done : Nat := 0
  /-- the bytes of a decoded window row that are still to be written, and their place in the scratch (R329, R336) -/
  rest : List Byte := []
  restAt : Nat := 0
  /-- the gathered row in progress and its index (R331) -/
  gat : Option (Nat × Nat) := none
  /-- the largest value time of what the fetch unit read for it -/
  vt : Nat := 0
  frozen : Option (Nat × Acc) := none
  denied : Bool := false
  /-- a host's, whose descriptor met a page fault and is still to be read (R336, R397) -/
  undescribed : Bool := false
  deriving DecidableEq, Repr

/-- A unit that the fetch unit has decoded (R326): the context and what names the unit for it, the lines it was read from, their
smallest expiry and largest value time, the cycle of its reads, and its source bytes by virtual address. -/
structure FetchedUnit where
  ctx : Nat
  key : List Nat
  lines : List Nat
  exp : Nat
  vt : Nat
  born : Nat
  bytes : List (Nat × Byte)
  deriving DecidableEq, Repr

/-- The cluster of the core: contexts other than the acting one, the reservation table, frames and their vectors, the queues
of the copy engine and fetch unit, and the fetch cache. -/
structure Cluster where
  seqs : List SeqCtx := []
  lastSeq : Nat := 15
  table : List REntry := []
  nextSeq : Nat := 0
  frameOwner : List (Nat × Nat) := []
  frames : List (Nat × Byte) := []
  vectors : List (Nat × DWord) := []
  copyQ : List CopyOp := []
  fetchQ : List CopyOp := []
  fetchCache : List FetchedUnit := []
  deriving DecidableEq, Repr

/-! ## The plane (R178, R361) -/

/-- A plane of the core: pool and control store of one context. -/
structure Plane where
  ctx : Option Nat := none
  threads : List Thread := []
  warps : List Warp := []
  blocks : List Block := []
  colls : List Coll := []
  pmap : List (Nat × Bank) := []
  arena : List Nat := []
  tiles : List Tile := []
  sram : List (Nat × Byte) := []
  l1 : List L1Line := []
  shake : Option Handshake := none
  shakeQ : List Handshake := []
  conts : List QEntry := []
  net : List Msg := []
  storeQ : List Queued := []
  puts : List QPut := []
  deriving DecidableEq, Repr

/-- The plane of module reset: the C floor, and every other bank F (R181). -/
def freshPlane : Plane := { pmap := [(30, { role := .cache }), (31, { role := .cache })] }

/-- The standby plane's state (Table 19-1). -/
inductive StandbySt where
  | empty | restoring | ready | saving
  deriving DecidableEq, Repr

/-- The standby plane (R361), the cluster state that belongs to it, and, while a swap runs, the cycle its 48 cycles end. -/
structure Standby where
  st : StandbySt := .empty
  plane : Plane := freshPlane
  seqs : List SeqCtx := []
  entries : List REntry := []
  ops : List CopyOp := []
  frames : List (Nat × Byte) := []
  vectors : List (Nat × DWord) := []
  nframes : Nat := 0
  engineDue : Bool := false
  stime : Nat := 0
  deriving DecidableEq, Repr

/-- What the save slot of a context holds beside its image in memory (R369): the device-internal control and engine images. -/
structure SaveSlot where
  ctx : Nat
  standby : Standby
  deriving DecidableEq, Repr

/-! ## The command processor (chapter 8) -/

/-- A mapped queue (R170 to R172). `cur` is the packet in progress, `did` whether its stores are made, `skip` how many packets a COND
still passes over, `pct` the largest completion time of the queue's writes and value time of its reads. -/
structure CpQueue where
  q : Nat
  ctx : Nat
  ring : Nat
  log2n : Nat
  rptr : Nat
  errRec : Nat
  ridx : Nat := 0
  widx : Nat := 0
  err : Bool := false
  pins : List (Nat × Nat) := []
  cur : Option Nat := none
  did : Bool := false
  skip : Nat := 0
  pct : Nat := 0
  deriving DecidableEq, Repr

/-- A hardware thread of the command processor (R169): registers x0 to x31, pc, the `kwait` it blocks in, and the machine-mode
registers of the RISC-V privileged specification that a hart with machine mode alone holds (`mtvec`, `mepc`, `mcause`, `mtval`, MIE and
MPIE of `mstatus`, `mscratch`, `mie`, the retired instructions of `minstret`, and what `mcycle` adds to the cycle count). `pct` is the
largest completion time of its writes and value time of its reads. -/
structure Hart where
  n : Nat := 0
  pc : Nat := 0
  x : List (Nat × DWord) := []
  wait : Option (Nat × Nat × Nat × Nat) := none
  mtvec : DWord := 0
  mepc : DWord := 0
  mcause : DWord := 0
  mtval : DWord := 0
  mie : Bool := false
  mpie : Bool := false
  mscratch : DWord := 0
  mieReg : DWord := 0
  minstret : DWord := 0
  mcycleOff : DWord := 0
  pct : Nat := 0
  deriving DecidableEq, Repr

/-- A graph node's state in a replay (R177). -/
inductive NodeSt where
  | wait | run | done | skipped
  deriving DecidableEq, Repr

/-- A registered graph object (R175 to R177). `sel` gives the successors that COND nodes selected; `pct` the
latest time its accesses carry; `sigAt` the completion time of the signal written. -/
structure Graph where
  g : Nat
  ctx : Nat
  nodes : Nat
  nnodes : Nat
  sigAddr : DWord
  sigVal : DWord
  running : Bool := false
  st : List (Nat × NodeSt) := []
  sel : List (Nat × Nat) := []
  heldKick : Option DWord := none
  pct : Nat := 0
  sigAt : Option Nat := none
  /-- the nodes that patches have changed (R176) -/
  patched : List Nat := []
  deriving DecidableEq, Repr

/-! ## Host window, root core, links, power (chapter 21) -/

/-- Bring-up states (R408). -/
inductive BringUp where
  | reset | waitFw | verify | train | ready | failed
  deriving DecidableEq, Repr

/-- The reply to a request of another module (R388, R390, R392): bytes, poison, a refusal by the export check, or the news that a word it
waits for has changed. -/
inductive RemoteAns where
  | bytes (bs : List Byte)
  | poison
  | refused
  | woken
  deriving DecidableEq, Repr

/-- What the device sends through its ports: interrupt messages (R398), replies to aperture reads (R393), management replies
(R410), heartbeats, domain time and checkpoint messages (R386, R404, R407), and replies to other modules. -/
inductive Out where
  | irq (addr : DWord) (data : Word)
  | readData (bs : Option (List Byte))
  | pldm (v : DWord)
  | heartbeat (m : Nat)
  | quiesced (t : Nat)
  | timeMessage (t : Nat)
  | remoteReply (m : Nat) (ans : RemoteAns) (wct : Nat) (refused : List Refused)
  deriving DecidableEq, Repr

/-- The register window (Table 21-1). -/
structure Window21 where
  state : BringUp := .reset
  modnum : Nat := 0
  cmdrec : List (Nat × DWord) := []
  cmdRes : Nat := 0
  cmdWord : Word := 0
  irqstat : BitVec 128 := 0
  irqmask : BitVec 128 := 0
  irqaddr : List (Nat × DWord) := []
  irqdata : List (Nat × DWord) := []
  ctxerr : Word := 0
  rasCorrected : Nat := 0
  rasTransient : Nat := 0
  rasLasting : Nat := 0
  rasRetry : Nat := 0
  rasIdx : Nat := 0
  mbox : List (Nat × Byte) := []
  /-- the largest completion time of the host's writes to device memory (R395) -/
  hostPct : Nat := 0
  pwrcap : Nat := 3000
  pwr : Nat := 0
  temp : Nat := 0
  deriving DecidableEq, Repr

/-- A domain-table entry (R387, R403). -/
structure DomEnt where
  m : Nat
  pool : Bool := false
  ports : Nat
  deriving DecidableEq, Repr

/-- An export window (R388). -/
structure Export where
  w : Nat
  base : Nat
  len : Nat
  r : Bool
  wr : Bool
  deriving DecidableEq, Repr

/-- A range the root core granted a master on behalf of a context (R358, R403). -/
structure Grant where
  master : Nat
  ctx : Nat
  base : Nat
  len : Nat
  deriving DecidableEq, Repr

/-- A frozen master and its violation record (R359). -/
structure Frozen where
  master : Nat
  ctx : Nat
  pa : Nat
  time : Nat
  deriving DecidableEq, Repr

/-- Where an error of the RAS log was met (R356): in a store of the part, or at a peer port. -/
inductive RasSite where
  | cell (x : EccSite)
  | link (port : Nat)
  deriving DecidableEq, Repr

/-- A log entry of the RAS log (R356). -/
structure RasEnt where
  site : RasSite
  lasting : Bool
  time : Nat
  deriving DecidableEq, Repr

/-- A request at a link port (R358, R388, R393): the host's read or write through the aperture, or another module's. -/
inductive PortReq where
  | hostRead (pa n : Nat)
  | hostWrite (pa : Nat) (bs : List Byte) (poisoned : Bool)
  | remote (rq : RemoteReq)
  deriving DecidableEq, Repr

/-- The root core (R401). -/
structure Root where
  domain : List DomEnt := []
  exports : List Export := []
  grants : List Grant := []
  frozen : List Frozen := []
  staging : List (Nat × Byte) := []
  staged : Nat := 0
  imgLen : Nat := 0
  verifyFailed : Bool := false
  fwver : Word := 0
  rdig : BitVec 256 := 0
  qdig : BitVec 256 := 0
  ras : List RasEnt := []
  /-- the SEQ of a request whose reply is to come (R403) -/
  serving : Option Nat := none
  /-- violation records of refused requests of other modules (R388): `master` is the sender's MODNUM -/
  violations : List Frozen := []
  /-- domain-table changes that wait for X requests to their module (R389) -/
  domNext : List (Nat × Option DomEnt) := []
  /-- requests that link ports hold since a violation froze them (R359) -/
  portHeld : List PortReq := []
  deriving DecidableEq, Repr

/-- A peer port's link state (R390). -/
structure Port where
  n : Nat
  fails : List Nat := []
  out : Bool := false
  deriving DecidableEq, Repr

/-- Where a checkpoint or restore of the module stands (R404, R406). -/
inductive CkptSt where
  | idle
  | armed | draining | barrier (since : Nat) | streaming | restoring
  deriving DecidableEq, Repr

/-- A checkpoint or restore command in progress. -/
structure Ckpt where
  st : CkptSt := .idle
  t : Nat := 0
  target : Nat := 0
  base : Nat := 0
  set : List Nat := []
  got : List Nat := []
  auto : Bool := false
  /-- the number of the free word of the header -/
  hdr : Nat := 0
  /-- host writes held until step 5 -/
  held : List (Nat × List Byte × Bool) := []
  deriving DecidableEq, Repr

/-- Which unit acts in a step: the SIMT side, the sequencer, or a hart of the command processor. -/
inductive Actor where
  | simt | stream | hart
  deriving DecidableEq, Repr

/-- Whose turn it is in the current cycle. -/
inductive Turn where
  | pick | stream | hart | core | tick
  deriving DecidableEq, Repr

/-- Time (R2, R386): the core's cycle count, the time base in ns, the part of a ns gone by, the slew still to make, the clock. -/
structure Clock where
  cycle : Nat := 0
  tbase : Nat := 0
  phase : Nat := 0
  slew : Int := 0
  /-- ns since the slew last moved the time base -/
  since : Nat := 0
  mhz : Nat := 1200
  deriving DecidableEq, Repr

/-- What the command in progress waits for (R396): to be unfrozen, the saves of a PREEMPT, the restores of a RESUME, the accesses
older than a message number and the stored bytes of the lines of an INVAL, or an event of its own. -/
inductive CmdWait where
  | none
  | held
  | preempt (c : Nat)
  | resume (c : Nat)
  | inval (c : Nat) (before : Nat) (lines : List Nat)
  | event
  deriving DecidableEq, Repr

/-- A release at scope device over G that the device makes before it tells the host (R173, R377): the completion time it waits for, the
interrupt source it then sets, and the context whose CTXERR bit it sets. -/
structure Notice where
  till : Nat
  src : Nat
  err : Option Nat := none
  deriving DecidableEq, Repr

/-- A host's write to a doorbell or a kick register (R394). -/
inductive Bell where
  | door (q : Nat) (v : DWord)
  | kick (g : Nat) (v : DWord)
  deriving DecidableEq, Repr

/-- The command processor: queues, harts, their program words, graph objects, and the command in progress. `stopped` while a
checkpoint holds packets, completions and signals (R404). -/
structure Cp where
  queues : List CpQueue := []
  harts : List Hart := []
  lastHart : Nat := 31
  fw : List (Nat × Word) := []
  graphs : List Graph := []
  cmd : CmdWait := .none
  /-- the record of a held command, as CMDGO took it (R396) -/
  cmdrec : List (Nat × DWord) := []
  /-- doorbells and kicks that wait as releases for earlier host writes (R395) -/
  bells : List Bell := []
  notices : List Notice := []
  /-- contexts whose saved images are being resumed -/
  resuming : List Nat := []
  stopped : Bool := false
  deriving DecidableEq, Repr

/-- The PCT of a thread that has ended, or the one that a record or task took from it at its emission: `seq` is the number of the emission,
and the thread's writes with a lower number still add to it (R87, R136, R154). -/
structure Carried where
  uid : Nat
  seq : Option Nat
  pct : Nat
  deriving DecidableEq, Repr

/-- The work queue below and above the core (Table 8-6) and the spawn trees. -/
structure Sched where
  segs : List (Nat × List QEntry) := []
  rings : List WqRing := []
  dieQ : List QEntry := []
  clusterQ : List QEntry := []
  coreQ : List QEntry := []
  lastSlice : Nat := 71
  moving : List QMove := []
  trees : List Tree := []
  /-- PCTs of threads that have ended or whose record or task waits, while their writes return -/
  carried : List Carried := []
  lastStart : Option Nat := none
  deriving DecidableEq, Repr

/-- The slices: line records, evictions' EVMAX, poison, attachments, trigger records and rings, wait table, reservations, merge windows. -/
structure Slices where
  lines : List (Nat × LineRec) := []
  evmax : List (Nat × Nat) := []
  poison : List Nat := []
  atts : List Att := []
  trigs : List TrigRec := []
  trigRings : List TrigRing := []
  trigSeq : Nat := 0
  lastDispatch : List (Nat × Nat) := []
  waits : List WaitEnt := []
  /-- the reservations of the command processor's harts: hart and address -/
  resv : List (Nat × Nat) := []
  windows : List Window := []
  deriving DecidableEq, Repr

/-- What a checkpoint writes to its target (R404 step 4, R406): the header's words, the state image, the memory image. -/
structure CkptImage where
  target : Nat
  base : Nat
  /-- the number of the state image's free bytes, and how many they are -/
  hdr : Nat := 0
  slen : Nat := 0
  t : Nat
  modnum : Nat
  sched : Sched
  sl : Slices
  cp : Cp
  ctxs : List Ctx
  slots : List SaveSlot
  mem : List Host.Cell
  deriving DecidableEq, Repr

/-- Translation: the core, cluster and die TLBs, walks, and the fault unit (R374, R379). -/
structure Xlat where
  coreTlb : List TlbEnt := []
  clusterTlb : List TlbEnt := []
  dieTlb : List TlbEnt := []
  walkCache : List (Nat × DWord) := []
  walks : List Walk := []
  missed : List Missed := []
  faults : List FaultRec := []
  deriving DecidableEq, Repr

/-- The whole machine. -/
structure State where
  /-- which core of the module this is: `cid` (R18) -/
  coreNo : Nat := 0
  /-- the acting thread; the others are in `pl.threads` -/
  th : Thread := {}
  /-- the acting sequencer context; the others are in `cl.seqs` -/
  sq : SeqCtx := {}
  /-- the acting hart; the others are in `cp.harts` -/
  hart : Hart := {}
  actor : Actor := .simt
  turn : Turn := .pick
  /-- threads of the bundle that have still to execute, and all its threads (slot, lane) (R124) -/
  bundle : List (Nat × Nat) := []
  bundleAll : List (Nat × Nat) := []
  bundleNo : Nat := 0
  /-- the side of a `brx` bundle that is exiled (R132): of bundle number, 0 none, 1 the threads that take the branch, 2 the others -/
  split : Option (Nat × Nat) := none
  /-- steps that are due: events of the units, and what comes from outside -/
  agenda : List Instr := []
  clock : Clock := {}
  pl : Plane := {}
  standby : Standby := {}
  swapEnd : Option Nat := none
  slots : List SaveSlot := []
  /-- bank-cycle counters by role code (R202) -/
  bankCycles : List (Nat × Nat) := []
  epct : Nat := 0
  /-- the largest completion time of the write-backs that releases of the core's threads forced, by the scope tag of the line (R219,
  condition 3) -/
  backs : List (Nat × Nat) := []
  /-- instruction words held by the instruction cache and loop buffer, by context and virtual address (R25) -/
  icache : List (Nat × Word) := []
  /-- the home line of each line that the instruction cache took, by context and virtual address (R98) -/
  icHome : List (Nat × Nat) := []
  cl : Cluster := {}
  sched : Sched := {}
  ctxs : List Ctx := []
  /-- device memory, the homes of G (R205, R207) -/
  mem : List Host.Cell := []
  /-- memory of the other modules of the domain by home address (R387); every byte a step has given is listed -/
  remote : List Host.Cell := []
  /-- cycles in which agents of other modules may have written to it (R388) -/
  remoteEra : Nat := 0
  sl : Slices := {}
  xl : Xlat := {}
  cp : Cp := {}
  win : Window21 := {}
  root : Root := {}
  ports : List Port := []
  unreachable : List Nat := []
  heard : List (Nat × Nat) := []
  lastLost : List (Nat × Nat) := []
  syncLost : Bool := false
  /-- peer ports whose flit failed twice in this cycle and carried a read for which there is no message (R356, R390) -/
  badPorts : List Nat := []
  /-- modules to which the ports are closed since they were lost (R407) -/
  closed : List Nat := []
  /-- when heartbeats were sent last (R407) -/
  beat : Nat := 0
  /-- the module set of the last checkpoint or restore (R404, R406, R407) -/
  ckptSet : List Nat := []
  ckpt : Ckpt := {}
  images : List CkptImage := []
  out : List Out := []
  powered : Bool := true
  nextId : Nat := 0
  /-- the model's own: how many free values have been drawn -/
  freeCtr : Nat := 0
  deriving DecidableEq, Repr

/-- Why the machine stops with a fault. -/
inductive Fault where
  /-- raised by the step of a module whose power was removed at 115 °C (R409): nothing runs any more. Safe. -/
  | poweredOff
  deriving DecidableEq, Repr

/-- Why the model gives no next state. -/
inductive Refusal where
  /-- an instruction that has no meaning yet, by its mnemonic. Safe. -/
  | notModelled (mnemonic : String)
  deriving DecidableEq, Repr

/-- The machine right after module reset: nothing is loaded, mapped or resident; the C floor holds banks 30 and 31 (R181). -/
def State.reset : State :=
  { pl := freshPlane }

end Sys2Proof.Machine
end

