-- ==== Sys2Proof/Machine/Store.lean ====
section
/-! DEFINITION. Stores keyed by a number, in one canonical form: keys strictly rising and no entry equal to what an unlisted key
reads as. Memory, register files, scratch and frames are such stores. -/

namespace Sys2Proof.Machine

open Sys2Proof

/-- The value at `n`; `z` is what an unlisted key reads as. -/
def stGet {α : Type} (z : α) : List (Nat × α) → Nat → α
  | [], _ => z
  | (k, v) :: t, n => if n < k then z else if n = k then v else stGet z t n

/-- Sets the value at `n`, keeping the canonical form. -/
def stSet {α : Type} [DecidableEq α] (z : α) : List (Nat × α) → Nat → α → List (Nat × α)
  | [], n, v => if v = z then [] else [(n, v)]
  | (k, w) :: t, n, v =>
    if n < k then (if v = z then (k, w) :: t else (n, v) :: (k, w) :: t)
    else if n = k then (if v = z then t else (n, v) :: t)
    else (k, w) :: stSet z t n v

/-- Sets the values of a list of pairs, the first first. -/
def stSetAll {α : Type} [DecidableEq α] (z : α) (m : List (Nat × α)) (ws : List (Nat × α)) : List (Nat × α) :=
  ws.foldl (fun m w => stSet z m w.1 w.2) m

/-- Every key of the list is above `n`. -/
def stAbove {α : Type} (n : Nat) : List (Nat × α) → Bool
  | [] => true
  | (k, _) :: _ => decide (n < k)

/-- The canonical form. -/
def stWf {α : Type} [DecidableEq α] (z : α) : List (Nat × α) → Bool
  | [] => true
  | (k, v) :: t => decide (v ≠ z) && stAbove k t && stWf z t

/-! ## Bytes -/

/-- What a byte of memory that nothing has written reads as: zero (DESIGN CHOICE, log entry 2). -/
def memBlank : Byte := 0

/-- Memory's canonical form (R205). -/
def Memory.wf (m : List Host.Cell) : Bool := stWf memBlank m

/-- One byte of a byte store. -/
def getByte (m : List (Nat × Byte)) (a : Nat) : Byte := stGet memBlank m a

def getBytes (m : List (Nat × Byte)) (a : Nat) : Nat → List Byte
  | 0 => []
  | n + 1 => getByte m a :: getBytes m (a + 1) n

def setBytes (m : List (Nat × Byte)) (ws : List (Nat × Byte)) : List (Nat × Byte) := stSetAll memBlank m ws

/-- Little-endian value of bytes (R4). -/
def leNat : List Byte → Nat
  | [] => 0
  | b :: t => b.toNat + 256 * leNat t

/-- The little-endian bytes of a number (R4). -/
def leBytes (v : Nat) : Nat → List Byte
  | 0 => []
  | n + 1 => BitVec.ofNat 8 v :: leBytes (v / 256) n

/-- Bytes with the addresses from `a` upwards. -/
def atAddr (a : Nat) : List Byte → List (Nat × Byte)
  | [] => []
  | b :: t => (a, b) :: atAddr (a + 1) t

/-- The little-endian number of `n` bytes at `a`. -/
def getLe (m : List (Nat × Byte)) (a n : Nat) : Nat := leNat (getBytes m a n)

/-- Writes the low `n` bytes of `v` at `a`. -/
def setLe (m : List (Nat × Byte)) (a n v : Nat) : List (Nat × Byte) := setBytes m (atAddr a (leBytes v n))

/-! ## Lists of records -/

/-- Changes every entry that satisfies `p`. -/
def updIf {α : Type} (p : α → Bool) (f : α → α) (l : List α) : List α := l.map (fun x => if p x then f x else x)

/-- The first number below `n` that is not in the list. -/
def firstFree (l : List Nat) (n : Nat) : Option Nat := (List.range n).find? (fun k => !l.contains k)

end Sys2Proof.Machine
end

