-- ==== Sys2Proof/Machine/Look.lean ====
section
/-! DEFINITION. Lookups and updates of the records a state holds: contexts, warps, blocks, threads; and addresses. -/

namespace Sys2Proof.Machine

open Sys2Proof

/-- What a step answers. -/
abbrev Answer := Host.Outcome State Fault Refusal

/-! ## Addresses -/

/-- Bits [63:57] all equal bit 56 (R12, R21). -/
def canonical (v : DWord) : Bool := (v.truncate 57).signExtend 64 == v

/-- A program counter as a 64-bit address. -/
def pc64 (pc : PC) : DWord := pc.signExtend 64

/-- The slice that owns a physical address, numbered over the module (R207). -/
def homeSlice (pa : Nat) : Nat :=
  let k := pa / 1024 % 2 ^ 27
  pa / 2 ^ 37 % 4 * 72 + (k % 512 + k / 512 % 512 + k / 2 ^ 18 % 512) % 72

/-- The die of a slice or of a cluster (R207, R18). -/
def dieOfSlice (q : Nat) : Nat := q / 72

def lineOf (pa : Nat) : Nat := pa / 128

/-- `xid`, `did` and the cluster's number in its die, of the core (R18). -/
def State.xid (s : State) : Nat := s.coreNo / 4
def State.did (s : State) : Nat := s.coreNo / 288

/-! ## Neighbourhoods (R241) -/

/-- The neighbourhood base of a cluster-in-die. -/
def neighbourhood (c : Nat) : Nat := min (16 * (c / 16)) 56

/-- The bit of the core in a core mask. -/
def coreBit (s : State) : Nat := 4 * (s.xid % 72 - neighbourhood (s.xid % 72)) + s.coreNo % 4

/-! ## Contexts -/

def State.ctx? (s : State) (c : Nat) : Option Ctx := s.ctxs.find? (·.n == c)

/-- The context of the active plane; with none mapped, one with every field at its default. -/
def State.curCtx (s : State) : Ctx :=
  match s.pl.ctx with
  | none => { n := 0 }
  | some c => (s.ctx? c).getD { n := c }

def State.updCtx (s : State) (c : Nat) (f : Ctx → Ctx) : State := { s with ctxs := updIf (·.n == c) f s.ctxs }

/-! ## Warps and blocks -/

def State.warpAt? (s : State) (slot : Nat) : Option Warp := s.pl.warps.find? (·.slot == slot)

/-- The warp of a slot; a slot without one counts as the smallest allocation (R119). -/
def State.warpAt (s : State) (slot : Nat) : Warp := (s.warpAt? slot).getD { slot := slot }

/-- The acting thread's warp. -/
def State.warp (s : State) : Warp := s.warpAt s.th.slot

def State.updWarp (s : State) (slot : Nat) (f : Warp → Warp) : State :=
  { s with pl := { s.pl with warps := updIf (·.slot == slot) f s.pl.warps } }

def State.block? (s : State) (h : Nat) : Option Block := s.pl.blocks.find? (·.handle == h)

def State.updBlock (s : State) (h : Nat) (f : Block → Block) : State :=
  { s with pl := { s.pl with blocks := updIf (·.handle == h) f s.pl.blocks } }

/-- The acting thread's block; none in a free warp (R118). -/
def State.thBlock (s : State) : Option Block := s.warp.block.bind s.block?

/-! ## Threads -/

def Thread.key (t : Thread) : Nat := t.slot * 32 + t.lane

def Thread.is (t : Thread) (slot lane : Nat) : Bool := t.slot == slot && t.lane == lane

/-- Puts a thread among the others, in the order of slot and lane. -/
def insThread (t : Thread) : List Thread → List Thread
  | [] => [t]
  | u :: l => if t.key < u.key then t :: u :: l else if t.key = u.key then t :: l else u :: insThread t l

/-- A living thread by slot and lane, the acting one included. -/
def State.thread? (s : State) (slot lane : Nat) : Option Thread :=
  if s.th.live && s.th.is slot lane then some s.th else s.pl.threads.find? (fun t => t.live && t.is slot lane)

/-- Every living thread of the active plane. -/
def State.living (s : State) : List Thread :=
  if s.th.live then insThread s.th s.pl.threads else s.pl.threads

/-- Stores the acting thread among the others; a thread that is not living is dropped. -/
def State.stow (s : State) : State :=
  if s.th.live then { s with th := {}, pl := { s.pl with threads := insThread s.th s.pl.threads } }
  else { s with th := {} }

/-- Makes a thread the acting one; with no such thread the acting thread is one that is not living. -/
def State.fetchThread (s : State) (slot lane : Nat) : State :=
  let s := s.stow
  match s.pl.threads.find? (·.is slot lane) with
  | none => s
  | some t => { s with th := t, pl := { s.pl with threads := s.pl.threads.filter (fun u => !u.is slot lane) } }

/-- Runs `f` with another thread acting, and brings the first back; nothing happens where the thread does not live. -/
def State.asThread (s : State) (slot lane : Nat) (f : State → State) : State :=
  if s.th.live && s.th.is slot lane then f s
  else if s.pl.threads.any (·.is slot lane) then
    let me := s.th
    let s' := (f (s.fetchThread slot lane)).stow
    if me.live then s'.fetchThread me.slot me.lane else { s' with th := me }
  else s

/-- Changes the acting thread. -/
def State.updTh (s : State) (f : Thread → Thread) : State := { s with th := f s.th }

/-- Changes every living thread that satisfies `p`. -/
def State.updThreads (s : State) (p : Thread → Bool) (f : Thread → Thread) : State :=
  { s with
    th := if s.th.live && p s.th then f s.th else s.th
    pl := { s.pl with threads := updIf p f s.pl.threads } }

/-! ## Sequencer contexts -/

/-- Brings a sequencer context to act; the one that acted goes back among the others. -/
def State.stowSeq (s : State) : State :=
  if s.sq.held then { s with sq := {}, cl := { s.cl with seqs := s.cl.seqs.filter (·.n != s.sq.n) ++ [s.sq] } } else s

def State.fetchSeq (s : State) (n : Nat) : State :=
  let s := s.stowSeq
  match s.cl.seqs.find? (·.n == n) with
  | none => { s with sq := { n := n } }
  | some q => { s with sq := q, cl := { s.cl with seqs := s.cl.seqs.filter (·.n != n) } }

/-- Runs `f` with another context acting, and brings the first back. -/
def State.asSeq (s : State) (n : Nat) (f : State → State) : State :=
  if s.sq.held && s.sq.n == n then f s
  else if s.cl.seqs.any (·.n == n) then
    let me := s.sq
    let s' := (f (s.fetchSeq n)).stowSeq
    if me.held then s'.fetchSeq me.n else { s' with sq := me }
  else s

/-- Every held context. -/
def State.allSeqs (s : State) : List SeqCtx := if s.sq.held then s.sq :: s.cl.seqs else s.cl.seqs

def State.updSeqs (s : State) (p : SeqCtx → Bool) (f : SeqCtx → SeqCtx) : State :=
  { s with sq := if s.sq.held && p s.sq then f s.sq else s.sq, cl := { s.cl with seqs := updIf p f s.cl.seqs } }

/-- A fresh number for a message, result or operation. -/
def State.fresh (s : State) : Nat × State := (s.nextId, { s with nextId := s.nextId + 1 })

/-- A fresh index for a free value. -/
def State.draw (s : State) : Nat × State := (s.freeCtr, { s with freeCtr := s.freeCtr + 1 })

end Sys2Proof.Machine
end

