-- ==== Sys2Proof/Machine/Bank.lean ====
section
/-! DEFINITION. The banks of the active plane (R178 to R187): roles, register pages, the scratch arena, staging tiles, and the
bytes of scratch and tiles. Bytes are kept under the number of their block or tile; a byte that nothing has written is a free
value (`Config.freeByte`). -/

namespace Sys2Proof.Machine

open Sys2Proof

/-! ## Roles (R179, R181) -/

def roleCode : Role → Nat
  | .free => 0
  | .regs => 1
  | .scratch => 2
  | .cache => 3
  | .tile => 4

def bankOf (pm : List (Nat × Bank)) (k : Nat) : Bank := stGet {} pm k

def setBank (pm : List (Nat × Bank)) (k : Nat) (b : Bank) : List (Nat × Bank) := stSet {} pm k b

/-- The banks of a role, ascending. -/
def banksOf (pm : List (Nat × Bank)) (r : Role) : List Nat := (List.range 32).filter (fun k => decide ((bankOf pm k).role = r))

/-- F banks that no grow has reserved, and C banks that no handshake holds. -/
def freeBanks (pm : List (Nat × Bank)) : List Nat := (banksOf pm .free).filter (fun k => !(bankOf pm k).busy)

def cacheBanks (pm : List (Nat × Bank)) : List Nat := (banksOf pm .cache).filter (fun k => !(bankOf pm k).busy)

def setRole (r : Role) (pm : List (Nat × Bank)) (k : Nat) : List (Nat × Bank) := setBank pm k { role := r }

def State.withPmap (s : State) (pm : List (Nat × Bank)) : State := { s with pl := { s.pl with pmap := pm } }

/-! ## Register pages (R182, R183) -/

/-- The pages a waiting grow has reserved (R190). -/
def reservedPages (h : Handshake) : List (Nat × Nat) :=
  match h with
  | .writeback _ _ (.toRegs _ _ pg) _ => pg
  | _ => []

/-- The pages that are taken: those of warps, and reserved ones. -/
def usedPages (s : State) : List (Nat × Nat) :=
  s.pl.warps.flatMap (·.pages) ++ (s.pl.shake.toList ++ s.pl.shakeQ).flatMap reservedPages

def pagesFree (used : List (Nat × Nat)) (k : Nat) : List Nat := (List.range 16).filter (fun j => !used.contains (k, j))

/-- Free pages in G banks. DESIGN CHOICE (log entry 75): a page that a pending grow has reserved is not free. -/
def freePages (s : State) : Nat := ((banksOf s.pl.pmap .regs).map (fun k => (pagesFree (usedPages s) k).length)).sum

/-- The G bank with the fewest free pages and at least one (R182). -/
def tightest (pm : List (Nat × Bank)) (used : List (Nat × Nat)) : Option Nat :=
  (banksOf pm .regs).foldl (fun best k =>
    let n := (pagesFree used k).length
    if n = 0 then best
    else match best with
      | none => some k
      | some b => if n < (pagesFree used b).length then some k else some b) none

/-- One page, and the bank map after it (R182). -/
def takePage (pm : List (Nat × Bank)) (used : List (Nat × Nat)) : Option ((Nat × Nat) × List (Nat × Bank)) :=
  match tightest pm used with
  | some k => ((pagesFree used k).head?).map (fun j => ((k, j), pm))
  | none => ((freeBanks pm).head?).map (fun k => ((k, 0), setRole .regs pm k))

/-- `n` pages, whole or none. -/
def takePages : Nat → List (Nat × Bank) → List (Nat × Nat) → Option (List (Nat × Nat) × List (Nat × Bank))
  | 0, pm, _ => some ([], pm)
  | n + 1, pm, used =>
    match takePage pm used with
    | none => none
    | some (pg, pm) => (takePages n pm (pg :: used)).map (fun r => (pg :: r.1, r.2))

/-- The banks that a handshake takes part with. -/
def shakeBanks (h : Handshake) : List Nat :=
  match h with
  | .writeback ks _ _ _ => ks ++ (reservedPages h).map (·.1)
  | .reloc _ _ _ => []

/-- G banks without an allocated page become F (R183); one with pages reserved for a pending grow stays reserved (R190), and an F bank
that no handshake names any more is free (R181). -/
def settleRegs (s : State) : State :=
  let held := s.pl.warps.flatMap (·.pages)
  let kept := (s.pl.shake.toList ++ s.pl.shakeQ).flatMap shakeBanks
  let empty := (banksOf s.pl.pmap .regs).filter (fun k => !held.any (·.1 == k))
  s.withPmap ((empty ++ banksOf s.pl.pmap .free).foldl (fun pm k => setBank pm k { role := .free, busy := (bankOf pm k).busy && kept.contains k || empty.contains k && kept.contains k }) s.pl.pmap)

/-! ## The scratch arena (R184, R185) -/

/-- The tags of the arena's banks show their positions. -/
def retag (arena : List Nat) (pm : List (Nat × Bank)) : List (Nat × Bank) :=
  (List.range arena.length).foldl (fun pm i =>
    let k := arena.getD i 0
    setBank pm k { bankOf pm k with role := .scratch, tag := i }) pm

/-- Arena bytes that the extents reach. -/
def arenaEnd (bs : List Block) : Nat := (bs.filter (·.scratch != 0)).foldl (fun m b => max m (b.sbase + b.scratch)) 0

/-- The last banks of the arena that hold no extent byte become F (R185). DESIGN CHOICE (log entry 75): where a relocation runs they do so
at once, as R185 says, though R181 keeps the role of a bank that takes part in a handshake. -/
def trimArena (s : State) : State :=
  let keep := (arenaEnd s.pl.blocks + 16383) / 16384
  let s' := s.withPmap ((s.pl.arena.drop keep).foldl (setRole .free) s.pl.pmap)
  { s' with pl := { s'.pl with arena := s.pl.arena.take keep } }

/-- The lowest place for `size` bytes beside the extents given (start, size); every start is a multiple of 128. -/
def placeExtent (ext : List (Nat × Nat)) (size : Nat) : Nat :=
  let fits := fun (y : Nat) => ext.all (fun e => decide (y + size ≤ e.1 ∨ e.1 + e.2 ≤ y))
  ((0 :: ext.map (fun e => e.1 + e.2)).filter fits).foldl (fun m y => some (match m with | none => y | some x => min x y)) (none : Option Nat)
    |>.getD 0

def extents (bs : List Block) : List (Nat × Nat) := (bs.filter (·.scratch != 0)).map (fun b => (b.sbase, b.scratch))

/-- The places a relocation moves extents to. -/
def moveTargets (s : State) : List (Nat × Nat) :=
  match s.pl.shake with
  | some (.reloc _ moves _) => moves.map (fun m => (m.2.2, ((s.block? m.1).map (·.scratch)).getD 0))
  | _ => []

/-- F banks join the arena until it reaches `upto` bytes, lowest-numbered first; none if there are too few. -/
def growArena (upto : Nat) (s : State) : Option State :=
  let want := (upto + 16383) / 16384 - s.pl.arena.length
  let take := (freeBanks s.pl.pmap).take want
  if take.length < want then none
  else
    let arena := s.pl.arena ++ take
    some { s with pl := { s.pl with arena := arena, pmap := retag arena s.pl.pmap } }

/-! ## Tiles (R187) -/

/-- A block's tiles in local order. -/
def tilesOf (s : State) (h : Nat) : List Tile := s.pl.tiles.filter (·.owner == h)

def tileAt (s : State) (h i : Nat) : Option Tile := (tilesOf s h)[i]?

def updTile (key : Nat) (f : Tile → Tile) (s : State) : State := { s with pl := { s.pl with tiles := updIf (·.key == key) f s.pl.tiles } }

def tileIdle (t : Tile) : Bool := (decide (t.st = .empty) || decide (t.st = .ready)) && t.readers == 0

/-- A tile's bank becomes F. -/
def freeTile (t : Tile) (s : State) : State :=
  { s with pl := { s.pl with tiles := s.pl.tiles.filter (·.key != t.key), pmap := setRole .free s.pl.pmap t.bank } }

/-- A bank becomes M for a block, its tile empty; the tag shows the block's handle. -/
def addTile (bank owner : Nat) (s : State) : State :=
  let (k, s) := s.fresh
  let tag := ((s.block? owner).map (·.slot0)).getD 0x3F
  { s with pl := { s.pl with
      tiles := s.pl.tiles ++ [{ key := k, bank := bank, owner := owner }]
      pmap := setBank s.pl.pmap bank { role := .tile, tag := tag } } }

/-! ## Bytes -/

/-- Bytes kept with no blank value: every written byte is listed. -/
def soGet : List (Nat × Byte) → Nat → Option Byte
  | [], _ => none
  | (k, v) :: t, n => if n < k then none else if n = k then some v else soGet t n

def soSet : List (Nat × Byte) → Nat → Byte → List (Nat × Byte)
  | [], n, v => [(n, v)]
  | (k, w) :: t, n, v => if n < k then (n, v) :: (k, w) :: t else if n = k then (n, v) :: t else (k, w) :: soSet t n v

def soSetAll (m : List (Nat × Byte)) (ws : List (Nat × Byte)) : List (Nat × Byte) := ws.foldl (fun m w => soSet m w.1 w.2) m

/-- Byte `o` of the scratch or tile with number `key`. -/
def sramByte (m : List (Nat × Byte)) (key o : Nat) : Byte := (soGet m (key * 2 ^ 20 + o)).getD (Config.freeByte (key * 2 ^ 20 + o))

def sramBytes (m : List (Nat × Byte)) (key o n : Nat) : List Byte := (List.range n).map (fun i => sramByte m key (o + i))

def sramWrite (key o : Nat) (bs : List Byte) (s : State) : State :=
  { s with pl := { s.pl with sram := soSetAll s.pl.sram (atAddr (key * 2 ^ 20 + o) bs) } }

/-- The bytes of a block or tile that is gone. -/
def sramDrop (key : Nat) (s : State) : State := { s with pl := { s.pl with sram := s.pl.sram.filter (fun x => x.1 / 2 ^ 20 != key) } }

end Sys2Proof.Machine
end

