-- ==== Sys2Proof/Machine/Numeric.lean ====
section
/-! DEFINITION. Number formats and arithmetic (chapter 2). Values are exact dyadics, with a sticky mark where the exact result
lies strictly between two of them; every operation forms its exact result and rounds it once (R37). -/

namespace Sys2Proof.Machine

open Sys2Proof

/-! ## Formats (R33) -/

/-- The floating-point formats of Table 2-2. -/
inductive Fmt where
  | f64 | f32 | f16 | bf16 | e4m3 | e5m2 | e2m1
  deriving DecidableEq, Repr

/-- Exponent bits, fraction bits and bias of Table 2-2. -/
def Fmt.ew : Fmt → Nat
  | .f64 => 11 | .f32 => 8 | .f16 => 5 | .bf16 => 8 | .e4m3 => 4 | .e5m2 => 5 | .e2m1 => 2
def Fmt.fw : Fmt → Nat
  | .f64 => 52 | .f32 => 23 | .f16 => 10 | .bf16 => 7 | .e4m3 => 3 | .e5m2 => 2 | .e2m1 => 1
def Fmt.bias : Fmt → Nat
  | .f64 => 1023 | .f32 => 127 | .f16 => 15 | .bf16 => 127 | .e4m3 => 7 | .e5m2 => 15 | .e2m1 => 1

/-- Position of the sign bit, and so the width less one. -/
def Fmt.signPos (f : Fmt) : Nat := f.ew + f.fw

/-- The code of the largest finite magnitude. -/
def Fmt.maxCode : Fmt → Nat
  | .e4m3 => 0x7E
  | .e2m1 => 7
  | f => (2 ^ f.ew - 1) * 2 ^ f.fw - 1

/-- The canonical quiet NaN (Table 2-3); E2M1 has none, and a NaN becomes +0 there (R40). -/
def Fmt.nan : Fmt → Nat
  | .f64 => 0x7FF8000000000000 | .f32 => 0x7FC00000 | .f16 => 0x7E00 | .bf16 => 0x7FC0 | .e4m3 => 0x7F | .e5m2 => 0x7E | .e2m1 => 0

/-- An exact value: ±m · 2^e; where `up` is set the magnitude lies strictly between m and m + 1 units. -/
inductive FX where
  | nan
  | inf (neg : Bool)
  | num (neg : Bool) (m : Nat) (e : Int) (up : Bool)
  deriving DecidableEq, Repr

/-- The value of a code (R33, R34). -/
def Fmt.decode (f : Fmt) (c : Nat) : FX :=
  let neg := c.testBit f.signPos
  let ex := c / 2 ^ f.fw % 2 ^ f.ew
  let fr := c % 2 ^ f.fw
  let special := match f with
    | .e2m1 => false
    | .e4m3 => ex == 15 && fr == 7
    | _ => ex == 2 ^ f.ew - 1
  if special then (if f ≠ .e4m3 ∧ fr = 0 then .inf neg else .nan)
  else if ex = 0 then .num neg fr (1 - f.bias - f.fw) false
  else .num neg (2 ^ f.fw + fr) ((ex : Int) - f.bias - f.fw) false

def FX.isNan : FX → Bool
  | .nan => true
  | _ => false

def FX.isZero : FX → Bool
  | .num _ 0 _ false => true
  | _ => false

def FX.neg : FX → Bool
  | .nan => false
  | .inf n => n
  | .num n _ _ _ => n

def FX.flip : FX → FX
  | .nan => .nan
  | .inf n => .inf (!n)
  | .num n m e u => .num (!n) m e u

/-! ## Rounding (R37 to R42) -/

/-- How a result is rounded: mode code, saturation, and the entry of the matrix B for ordered dither. -/
structure RM where
  mode : Nat := 0
  sat : Bool := false
  dith : Nat := 0
  deriving DecidableEq, Repr

/-- The matrix B of Table 2-6. -/
def ditherB : List Nat :=
  [0, 32, 8, 40, 2, 34, 10, 42, 48, 16, 56, 24, 50, 18, 58, 26, 12, 44, 4, 36, 14, 46, 6, 38, 60, 28, 52, 20, 62, 30, 54, 22,
   3, 35, 11, 43, 1, 33, 9, 41, 51, 19, 59, 27, 49, 17, 57, 25, 15, 47, 7, 39, 13, 45, 5, 37, 63, 31, 55, 23, 61, 29, 53, 21]

/-- B at position (r, c) under phase p (R41). -/
def ditherAt (r c p : Nat) : Nat := ditherB.getD ((r + p % 8) % 8 * 8 + (c + p / 8 % 8) % 8) 0

/-- B for a vector element of index e (R42). -/
def ditherLane (e : Nat) : Nat := ditherAt (e / 8 % 8) (e % 8) 0

/-- Whether the magnitude q + (rem / unit) rounds up to q + 1; `up` adds an amount below every other. -/
def roundsUp (rm : RM) (neg : Bool) (q rem unit : Nat) (up : Bool) : Bool :=
  let exact := rem == 0 && !up
  match rm.mode with
  | 1 => false
  | 2 => !neg && !exact
  | 3 => neg && !exact
  | 4 => decide (2 * rem ≥ unit)
  | 5 => decide (rem * 128 > (2 * rm.dith + 1) * unit) || (up && decide (rem * 128 = (2 * rm.dith + 1) * unit))
  | _ => decide (2 * rem > unit) || (decide (2 * rem = unit) && (up || q % 2 == 1))

/-- m · 2^e over the unit 2^qe: quotient, remainder and the unit of the remainder. -/
def splitAt (m : Nat) (e qe : Int) : Nat × Nat × Nat :=
  if qe ≤ e then (m <<< (e - qe).toNat, 0, 1)
  else let k := (qe - e).toNat; (m >>> k, m % 2 ^ k, 2 ^ k)

/-- The code that is delivered beyond the largest finite magnitude (R39, Table 2-4). -/
def Fmt.overflow (f : Fmt) (rm : RM) (neg : Bool) : Nat :=
  let s := if neg then 2 ^ f.signPos else 0
  let toMax := rm.sat || f == .e2m1 || rm.mode == 1 || (rm.mode == 2 && neg) || (rm.mode == 3 && !neg)
  if toMax then s + f.maxCode else if f = .e4m3 then 0x7F else s + f.maxCode + 1

/-- Delivers an infinite value (R39, R40). -/
def Fmt.infCode (f : Fmt) (sat neg : Bool) : Nat :=
  let s := if neg then 2 ^ f.signPos else 0
  if sat || f == .e2m1 then s + f.maxCode else if f = .e4m3 then 0x7F else s + f.maxCode + 1

/-- round(x, fmt, mode) of R37 with the special values of R34 and R39. A zero keeps the sign it carries. DESIGN CHOICE (log entry 90): an exact result
that is not zero and rounds to zero keeps its sign. -/
def Fmt.round (f : Fmt) (rm : RM) (x : FX) : Nat :=
  match x with
  | .nan => f.nan
  | .inf neg => f.infCode rm.sat neg
  | .num neg m e up =>
    let s := if neg then 2 ^ f.signPos else 0
    if m = 0 ∧ !up then s
    else
      let lo : Int := 1 - f.bias - f.fw
      let qe := max (e + (Nat.log2 m : Int) - f.fw) lo
      let (q, rem, unit) := splitAt m e qe
      let q' := if roundsUp rm neg q rem unit up then q + 1 else q
      let code := (qe - lo).toNat * 2 ^ f.fw + q'
      if code > f.maxCode then f.overflow rm neg else s + code

/-- Rounds to an integer in units of one (R37, R40), clamped to lo .. hi; NaN gives 0. -/
def roundInt (rm : RM) (x : FX) (lo hi : Int) : Int :=
  match x with
  | .nan => 0
  | .inf neg => if neg then lo else hi
  | .num neg m e up =>
    let (q, rem, unit) := splitAt m e 0
    let q' : Int := (if roundsUp rm neg q rem unit up then q + 1 else q : Nat)
    max lo (min hi (if neg then -q' else q'))

/-! ## Exact operations -/

/-- An exact integer as a value. -/
def FX.ofInt (v : Int) : FX := .num (decide (v < 0)) v.natAbs 0 false

/-- A finite value as a signed multiple of 2^lo. -/
def FX.scaled (lo : Int) : FX → Int
  | .num neg m e _ => let k : Int := (m <<< (e - lo).toNat : Nat); if neg then -k else k
  | _ => 0

def FX.expo : FX → Int
  | .num _ _ e _ => e
  | _ => 0

/-- The exact sum of a list of values, its specials by R54 and a zero's sign by R38. -/
def sumFX (rdn : Bool) (xs : List FX) : FX :=
  let infs := xs.filter (fun x => match x with | .inf _ => true | _ => false)
  if xs.any FX.isNan then .nan
  else if infs.any FX.neg && infs.any (fun x => !x.neg) then .nan
  else match infs with
    | x :: _ => x
    | [] =>
      let lo := xs.foldl (fun m x => min m x.expo) (xs.headD (.num false 0 0 false)).expo
      let v := xs.foldl (fun a x => a + x.scaled lo) (0 : Int)
      if v = 0 then
        if xs.all FX.isZero && (xs.all FX.neg || xs.all (fun x => !x.neg)) then .num ((xs.map FX.neg).headD false) 0 0 false
        else .num rdn 0 0 false
      else .num (decide (v < 0)) v.natAbs lo false

def addFX (rm : RM) (a b : FX) : FX := sumFX (rm.mode == 3) [a, b]

/-- The exact product (R38, R109). -/
def mulFX (a b : FX) : FX :=
  match a, b with
  | .nan, _ => .nan
  | _, .nan => .nan
  | .inf s, y => if y.isZero then .nan else .inf (s ^^ y.neg)
  | x, .inf s => if x.isZero then .nan else .inf (x.neg ^^ s)
  | .num s m e _, .num t n g _ => .num (s ^^ t) (m * n) (e + g) false

def fmaFX (rm : RM) (d a b : FX) : FX := addFX rm d (mulFX a b)

/-- How many bits beyond the divisor a quotient or root is carried; with the sticky mark this decides every rounding. -/
def guardBits : Nat := 160

/-- The quotient (R109). DESIGN CHOICE (log entry 79): infinity over a finite number, zero among them, and zero over a finite number that is not
zero have the exclusive-or of the signs. -/
def divFX (a b : FX) : FX :=
  match a, b with
  | .nan, _ => .nan
  | _, .nan => .nan
  | .inf _, .inf _ => .nan
  | .inf s, y => .inf (s ^^ y.neg)
  | x, .inf t => .num (x.neg ^^ t) 0 0 false
  | .num s m e _, .num t n g _ =>
    if n = 0 then (if m = 0 then .nan else .inf (s ^^ t))
    else if m = 0 then .num (s ^^ t) 0 0 false
    else
      let k := guardBits + Nat.log2 n
      .num (s ^^ t) ((m <<< k) / n) (e - g - k) (decide ((m <<< k) % n ≠ 0))

/-- The integer square root, bit by bit from bit `k`. -/
def isqrtGo (n : Nat) : Nat → Nat → Nat
  | 0, r => if (r + 1) * (r + 1) ≤ n then r + 1 else r
  | k + 1, r => let c := r + 2 ^ (k + 1); isqrtGo n k (if c * c ≤ n then c else r)

def isqrt (n : Nat) : Nat := isqrtGo n (Nat.log2 n / 2 + 1) 0

/-- The square root (R109). -/
def sqrtFX (a : FX) : FX :=
  match a with
  | .nan => .nan
  | .inf neg => if neg then .nan else .inf false
  | .num neg m e _ =>
    if m = 0 then a else if neg then .nan
    else
      let odd : Nat := if e % 2 = 0 then 0 else 1
      let n := m <<< (2 * guardBits + odd)
      let r := isqrt n
      .num false r ((e - odd) / 2 - guardBits) (decide (r * r ≠ n))

/-- One over the square root of a positive finite value (R110). -/
def rsqrtFX (m : Nat) (e : Int) : FX :=
  let odd : Nat := if e % 2 = 0 then 0 else 1
  let n := m <<< odd
  let k := guardBits + Nat.log2 n
  let r := isqrt ((2 ^ (2 * k)) / n)
  .num false r (-((e - odd) / 2) - k) (decide (r * r * n ≠ 2 ^ (2 * k)))

/-- Multiplies by a power of two. -/
def scaleFX (x : FX) (n : Int) : FX :=
  match x with
  | .num s m e u => if m = 0 ∧ !u then x else .num s m (e + n) u
  | x => x

/-- Whether a is less than b, and whether they are equal, for two values that are not NaN (R108). -/
def ltFX (a b : FX) : Bool :=
  match a, b with
  | .inf s, .inf t => s && !t
  | .inf s, _ => s
  | _, .inf t => !t
  | a, b => let lo := min a.expo b.expo; decide (a.scaled lo < b.scaled lo)

def eqFX (a b : FX) : Bool :=
  match a, b with
  | .inf s, .inf t => s == t
  | .inf _, _ => false
  | _, .inf _ => false
  | a, b => let lo := min a.expo b.expo; decide (a.scaled lo = b.scaled lo)

/-! ## FP32 functions (R110)

Values are numbers over 2^512, formed with far more bits than any FP32 operand needs to be rounded correctly; no result that is
not listed as exact is a dyadic number, so the sticky mark is set (log entry 12). -/

def fxW : Nat := 512
def fxOne : Nat := 2 ^ 512

/-- π · 2^512 and ln 2 · 2^512, rounded down. -/
def fxPi : Nat := 0x3243f6a8885a308d313198a2e03707344a4093822299f31d0082efa98ec4e6c89452821e638d01377be5466cf34e90c6cc0ac29b7c97c50dd3f84d5b5b5470917
def fxLn2 : Nat := 0xb17217f7d1cf79abc9e3b39803f2f6af40f343267298b62d8a0d175b8baafa2be7b876206debac98559552fb4afa1b10ed2eae35c138214427573b291169b825

def fxMul (a b : Nat) : Nat := (a * b) >>> fxW

/-- Taylor sum of exp at r below one: `t` is the current term, of index `n`. -/
def expGo (r : Nat) : Nat → Nat → Nat → Nat → Nat
  | 0, _, _, s => s
  | fuel + 1, n, t, s => let t' := fxMul t r / (n + 1); expGo r fuel (n + 1) t' (s + t')

def fxExp (r : Nat) : Nat := expGo r 110 0 fxOne fxOne

/-- Alternating sums for sine (from the term r) and cosine (from the term 1). -/
def trigGo (r2 : Nat) : Nat → Nat → Nat → Int → Bool → Int
  | 0, _, _, s, _ => s
  | fuel + 1, n, t, s, neg =>
    let t' := fxMul t r2 / ((n + 1) * (n + 2))
    trigGo r2 fuel (n + 2) t' (if neg then s - t' else s + t') (!neg)

def fxSin (r : Nat) : Nat := (trigGo (fxMul r r) 70 1 r r true).toNat
def fxCos (r : Nat) : Nat := (trigGo (fxMul r r) 70 0 fxOne fxOne true).toNat

/-- atanh(t) by its series. -/
def atanhGo (t2 : Nat) : Nat → Nat → Nat → Nat → Nat
  | 0, _, _, s => s
  | fuel + 1, k, p, s => let p' := fxMul p t2; atanhGo t2 fuel (k + 1) p' (s + p' / (2 * k + 3))

def fxAtanh (t : Nat) : Nat := atanhGo (fxMul t t) 175 0 t t

/-- A finite magnitude as a number over 2^512; exact for every FP32 value. -/
def toFx (m : Nat) (e : Int) : Nat := (splitAt m e (-512)).1

/-- 2^a. -/
def exp2FX : FX → FX
  | .nan => .nan
  | .inf neg => if neg then .num false 0 0 false else .inf false
  | .num neg m e _ =>
    if m = 0 then .num false 1 0 false
    else if e + (Nat.log2 m : Int) ≥ 10 then .num false 1 (if neg then -1024 else 1024) true
    else
      let x : Int := if neg then -(toFx m e : Int) else toFx m e
      let n := x / (fxOne : Int)
      let r := (x % (fxOne : Int)).toNat
      if r = 0 then .num false 1 n false else .num false (fxExp (fxMul r fxLn2)) (n - 512) true

/-- log2 a. -/
def log2FX : FX → FX
  | .nan => .nan
  | .inf neg => if neg then .nan else .inf false
  | .num neg m e _ =>
    if m = 0 then .inf true else if neg then .nan
    else
      let l := Nat.log2 m
      let k : Int := e + l
      if m = 2 ^ l then (if k = 0 then .num false 0 0 false else .ofInt k)
      else
        let z := m <<< (fxW - l)
        let t := ((z - fxOne) <<< fxW) / (z + fxOne)
        let lg := ((2 * fxAtanh t) <<< fxW) / fxLn2
        let v : Int := k * (fxOne : Int) + lg
        .num (decide (v < 0)) v.natAbs (-512) true

/-- The quadrant and the rest of a magnitude over π/2. -/
def quadrant (m : Nat) (e : Int) : Nat × Nat :=
  let x := toFx m e
  let h := fxPi / 2
  (x / h, x - (x / h) * h)

def sinFX : FX → FX
  | .nan => .nan
  | .inf _ => .nan
  | .num neg m e u =>
    if m = 0 then .num neg m e u
    else
      let (k, r) := quadrant m e
      let v := if k % 2 = 0 then fxSin r else fxCos r
      .num (neg ^^ decide (k % 4 ≥ 2)) v (-512) true

def cosFX : FX → FX
  | .nan => .nan
  | .inf _ => .nan
  | .num _ m e _ =>
    if m = 0 then .num false 1 0 false
    else
      let (k, r) := quadrant m e
      let v := if k % 2 = 0 then fxCos r else fxSin r
      .num (decide (k % 4 = 1 ∨ k % 4 = 2)) (min v (fxOne - 1)) (-512) true

def rsqFX : FX → FX
  | .nan => .nan
  | .inf neg => if neg then .nan else .num false 0 0 false
  | .num neg m e _ => if m = 0 then .inf neg else if neg then .nan else rsqrtFX m e

/-- tanh a = (1 − E) / (1 + E) with E = exp(−2|a|). -/
def tanhFX : FX → FX
  | .nan => .nan
  | .inf neg => .num neg 1 0 false
  | .num neg m e u =>
    if m = 0 then .num neg m e u
    else if e + (Nat.log2 m : Int) ≥ 7 then .num neg (fxOne - 1) (-512) true
    else
      let y := 2 * toFx m e
      let n := y / fxLn2 + 1
      let ex := fxExp (n * fxLn2 - y) >>> n
      .num neg (min (((fxOne - ex) <<< fxW) / (fxOne + ex)) (fxOne - 1)) (-512) true

/-! ## P2P8 (R43 to R45) -/

/-- A P2P8 element in units of 2^−6. -/
def p2p8Units (c : Nat) : Int :=
  let term := fun (x : Nat) => if x % 8 = 7 then (0 : Int) else let v : Int := (2 ^ (6 - x % 8) : Nat); if x ≥ 8 then -v else v
  term (c / 16 % 16) + term (c % 16)

def p2p8FX (c : Nat) : FX := .num (decide (p2p8Units c < 0)) (p2p8Units c).natAbs (-6) false

/-- The canonical encodings (R44): zero; one term; two terms that no single term and no smaller e1 gives. -/
def p2p8IsCanon (c : Nat) : Bool :=
  let s1 := c / 128 % 2; let e1 := c / 16 % 8; let s2 := c / 8 % 2; let e2 := c % 8
  if e1 = 7 then c == 0x77
  else if e2 = 7 then s2 == 0
  else if s1 = s2 then (e1 == 0 && e2 == 0) || (decide (e1 < e2) && !(decide (e2 = e1 + 1) && decide (1 ≤ e1)))
  else decide (e1 + 2 ≤ e2)

def p2p8Canon : List Nat := (List.range 256).filter p2p8IsCanon

/-- Whether code c lies nearer to n/den units than code b, a tie going to the smaller e1 and then the smaller e2 (R45). -/
def p2p8Better (n : Int) (den : Nat) (c b : Nat) : Bool :=
  let dc := (n - p2p8Units c * den).natAbs
  let db := (n - p2p8Units b * den).natAbs
  decide (dc < db) || (decide (dc = db) && decide ((c / 16 % 8) * 8 + c % 8 < (b / 16 % 8) * 8 + b % 8))

/-- The nearest P2P8 code to x / scale, for a finite x and a finite non-zero scale (R45). -/
def p2p8Round (x scale : FX) : Nat :=
  match x, scale with
  | .num xn xm xe _, .num sn sm se _ =>
    let d := xe + 6 - se
    let n : Nat := if d ≥ 0 then xm <<< d.toNat else xm
    let den : Nat := if d ≥ 0 then sm else sm <<< (-d).toNat
    let v : Int := if xn ^^ sn then -(n : Int) else n
    p2p8Canon.foldl (fun b c => if p2p8Better v den c b then c else b) 0x77
  | _, _ => 0x77

/-! ## Operations on codes -/

/-- Applies an exact unary, binary or ternary operation to codes of one format and rounds once. -/
def fop1 (f : Fmt) (rm : RM) (op : FX → FX) (a : Nat) : Nat := f.round rm (op (f.decode a))
def fop2 (f : Fmt) (rm : RM) (op : FX → FX → FX) (a b : Nat) : Nat := f.round rm (op (f.decode a) (f.decode b))
def fop3 (f : Fmt) (rm : RM) (op : FX → FX → FX → FX) (d a b : Nat) : Nat := f.round rm (op (f.decode d) (f.decode a) (f.decode b))

def fadd (f : Fmt) (rm : RM) (a b : Nat) : Nat := fop2 f rm (addFX rm) a b
def fsub (f : Fmt) (rm : RM) (a b : Nat) : Nat := fop2 f rm (fun x y => addFX rm x y.flip) a b
def fmul (f : Fmt) (rm : RM) (a b : Nat) : Nat := fop2 f rm mulFX a b
def fdiv (f : Fmt) (rm : RM) (a b : Nat) : Nat := fop2 f rm divFX a b
def fsqrt (f : Fmt) (rm : RM) (a : Nat) : Nat := fop1 f rm sqrtFX a
def frcp (f : Fmt) (rm : RM) (a : Nat) : Nat := fop1 f rm (divFX (.num false 1 0 false)) a
def ffma (f : Fmt) (rm : RM) (d a b : Nat) : Nat := fop3 f rm (fmaFX rm) d a b
def ffnma (f : Fmt) (rm : RM) (d a b : Nat) : Nat := fop3 f rm (fun d a b => addFX rm d (mulFX a b).flip) d a b

/-- The magnitude order in which −0 is below +0 (R107). -/
def orderKey (f : Fmt) (c : Nat) : Int :=
  let mag : Int := (c % 2 ^ f.signPos : Nat)
  if c.testBit f.signPos then -mag - 1 else mag

/-- `fmin` and `fmax` (R107). -/
def fminmax (f : Fmt) (wantMax : Bool) (a b : Nat) : Nat :=
  match (f.decode a).isNan, (f.decode b).isNan with
  | true, true => f.nan
  | true, false => b
  | false, true => a
  | false, false =>
    if wantMax then (if orderKey f a ≥ orderKey f b then a else b) else (if orderKey f a ≤ orderKey f b then a else b)

def fabs (f : Fmt) (a : Nat) : Nat := a % 2 ^ f.signPos
def fneg (f : Fmt) (a : Nat) : Nat := if a.testBit f.signPos then a % 2 ^ f.signPos else a % 2 ^ f.signPos + 2 ^ f.signPos

/-- The compares of R108. -/
def fun2 (f : Fmt) (a b : Nat) : Bool := (f.decode a).isNan || (f.decode b).isNan
def feq (f : Fmt) (a b : Nat) : Bool := !fun2 f a b && eqFX (f.decode a) (f.decode b)
def flt (f : Fmt) (a b : Nat) : Bool := !fun2 f a b && ltFX (f.decode a) (f.decode b)
def fle (f : Fmt) (a b : Nat) : Bool := !fun2 f a b && !ltFX (f.decode b) (f.decode a)

/-- One-hot class mask (R114). -/
def fclassMask (f : Fmt) (a : Nat) : Nat :=
  let neg := a.testBit f.signPos
  match f.decode a with
  | .nan => if a.testBit (f.fw - 1) then 2 ^ 9 else 2 ^ 8
  | .inf _ => if neg then 1 else 2 ^ 7
  | .num _ m _ _ =>
    if m = 0 then (if neg then 2 ^ 3 else 2 ^ 4)
    else if m < 2 ^ f.fw then (if neg then 2 ^ 2 else 2 ^ 5)
    else (if neg then 2 ^ 1 else 2 ^ 6)

/-- Halves of a packed word, each with its own operation (R102). -/
def halves2 (op : Nat → Nat → Nat → Nat) (a b : Nat) : Nat :=
  op 0 (a % 65536) (b % 65536) + 65536 * op 1 (a / 65536 % 65536) (b / 65536 % 65536)

/-! ## Element codes (Table 2-1) -/

/-- Width in bits of an element code. -/
def elemWidth : Nat → Nat
  | 0 => 32 | 1 => 64 | 2 => 16 | 3 => 16 | 4 => 8 | 5 => 8 | 6 => 4 | 7 => 8 | 8 => 8 | 9 => 8 | 10 => 16 | 11 => 16
  | 12 => 32 | 13 => 32 | 14 => 4 | _ => 8

/-- The floating-point format of an element code. -/
def elemFmt : Nat → Option Fmt
  | 0 => some .f32 | 1 => some .f64 | 2 => some .f16 | 3 => some .bf16 | 4 => some .e4m3 | 5 => some .e5m2 | 6 => some .e2m1
  | _ => none

/-- Range of an integer element code. -/
def elemRange : Nat → Int × Int
  | 8 => (-128, 127) | 9 => (0, 255) | 10 => (-32768, 32767) | 11 => (0, 65535)
  | 12 => (-2147483648, 2147483647) | 13 => (0, 4294967295) | _ => (-8, 7)

/-- An element's exact value. -/
def elemDecode (code c : Nat) : FX :=
  match elemFmt code with
  | some f => f.decode c
  | none => if code = 7 then p2p8FX c else
    let w := elemWidth code
    .ofInt (if (elemRange code).1 < 0 ∧ c.testBit (w - 1) then (c : Int) - 2 ^ w else c)

/-- Converts an exact value to an element (R111): P2P8 by R45, integers saturating, floating point rounded. -/
def elemEncode (code : Nat) (rm : RM) (x : FX) : Nat :=
  match elemFmt code with
  | some f => f.round rm x
  | none =>
    if code = 7 then p2p8Round x (.num false 1 0 false)
    else let r := elemRange code; ((roundInt rm x r.1 r.2) % 2 ^ elemWidth code).toNat

/-- The value of a block scale code (Table 2-8). -/
def scaleFXOf (mode c : Nat) : FX :=
  match mode with
  | 0 => .num false 1 0 false
  | 3 => Fmt.e4m3.decode c
  | _ => if c = 0xFF then .nan else .num false 1 ((c : Int) - 127) false

/-- A scaled element (R47). DESIGN CHOICE (log entry 79): under a zero scale a NaN element, whose sign R38 does not name, counts as
positive in the zero's sign. -/
def scaledElem (mode scale code c : Nat) : FX :=
  match mode with
  | 0 => elemDecode code c
  | _ =>
    let s := scaleFXOf mode scale
    if s.isZero then .num (s.neg ^^ (elemDecode code c).neg) 0 0 false else mulFX s (elemDecode code c)

/-- Whether a block mode stands with an element code (R46). -/
def modeOk (mode code : Nat) : Bool := mode == 0 || (decide (mode ≤ 3) && decide (4 ≤ code ∧ code ≤ 7))

def blockSize (mode : Nat) : Nat := if mode = 1 then 32 else 16

/-- R51: a format word is valid. -/
def fmtPairOk (a b acc : Nat) : Bool :=
  match acc with
  | 1 => a == 1 && b == 1
  | 0 => (decide (a = b) && (a == 0 || a == 2 || a == 3 || a == 6))
      || ((a == 4 || a == 5) && (b == 4 || b == 5)) || (a == 7 && (b == 3 || b == 4 || b == 5))
  | _ => false

def fmtValid (w : Nat) : Bool :=
  w / 2 ^ 24 == 0 && decide (w / 2 ^ 20 % 8 ≤ 5)
  && modeOk (w / 16 % 16) (w % 16) && modeOk (w / 2 ^ 12 % 16) (w / 2 ^ 8 % 16)
  && fmtPairOk (w % 16) (w / 2 ^ 8 % 16) (w / 2 ^ 16 % 16)

/-- One block in block-scaled form (R49): its scale code and element codes. -/
def blockEncode (code mode : Nat) (rm : RM) (dith : Nat → Nat) (xs : List FX) : Nat × List Nat :=
  let none0 := if code = 7 then 0x77 else 0
  let bad := xs.any (fun x => match x with | .num _ _ _ _ => false | _ => true)
  if bad then ((if mode = 3 then 0x7F else 0xFF), xs.map (fun _ => none0))
  else
    let mag := fun (x : FX) => match x with | .num _ m e u => FX.num false m e u | y => y
    let amax := xs.foldl (fun a x => if ltFX a (mag x) then mag x else a) (FX.num false 0 0 false)
    match amax with
    | .num _ m e _ =>
      if m = 0 then (0, xs.map (fun x => if code = 7 then 0x77 else if x.neg then 2 ^ (elemWidth code - 1) else 0))
      else
        let emax : Int := match code with | 4 => 8 | 5 => 15 | 6 => 2 | _ => 0
        let maxElem : FX := match code with | 7 => .num false 2 0 false | c => (elemDecode c ((elemFmt c).getD .e2m1).maxCode)
        let sc : Nat :=
          if mode = 3 then
            let c := Fmt.e4m3.round { mode := 2 } (divFX amax maxElem)
            if c = 0 then 1 else if c > 0x7E then 0x7E else c
          else (max (-127) (min 127 (e + (Nat.log2 m : Int) - emax)) + 127).toNat
        let s := scaleFXOf mode sc
        (sc, xs.mapIdx (fun j x =>
          if code = 7 then p2p8Round x s
          else elemEncode code { rm with sat := true, dith := dith j } (divFX x s)))
    | _ => (0, [])

/-- A result as it is written: a NaN is the canonical one (R34). -/
def Fmt.canon (f : Fmt) (c : Nat) : Nat := if (f.decode c).isNan then f.nan else c

/-! ## Sums in order (R53) -/

def f32Add (a b : Nat) : Nat := fadd .f32 {} a b
def f64Add (a b : Nat) : Nat := fadd .f64 {} a b

/-- One exact group of products added to an accumulator and rounded (R53, R54). -/
def groupAcc (f : Fmt) (acc : Nat) (ps : List FX) : Nat := f.round {} (sumFX false (f.decode acc :: ps))

end Sys2Proof.Machine
end

