-- ==== Sys2Proof/Machine/Collect.lean ====
section
/-! DEFINITION. What a collective computes (R141 to R146) and what a crossing reduction computes (R152): the fixed trees and
scans over lanes, and each member's result from the operands its members brought. -/

namespace Sys2Proof.Machine

open Sys2Proof

/-! ## Trees and scans (R142); an absent operand is none -/

def comb {α : Type} (op : α → α → α) : Option α → Option α → Option α
  | none, q => q
  | p, none => p
  | some p, some q => some (op p q)

/-- One level of the tree: neighbours combine. -/
def pairUp {α : Type} (op : α → α → α) : List (Option α) → List (Option α)
  | p :: q :: t => comb op p q :: pairUp op t
  | l => l

/-- The reduction over 32 places: five levels. -/
def treeRed {α : Type} (op : α → α → α) (xs : List (Option α)) : Option α :=
  (pairUp op (pairUp op (pairUp op (pairUp op (pairUp op xs))))).headD none

/-- One level of the scan, over distance `k`. -/
def scanStep {α : Type} (op : α → α → α) (k : Nat) (xs : List (Option α)) : List (Option α) :=
  xs.mapIdx (fun l x => if l < k then x else comb op (xs.getD (l - k) none) x)

/-- The inclusive scan over 32 places. -/
def scan32 {α : Type} (op : α → α → α) (xs : List (Option α)) : List (Option α) :=
  scanStep op 16 (scanStep op 8 (scanStep op 4 (scanStep op 2 (scanStep op 1 xs))))

/-- The pairs of a segmented scan. -/
def segOp {α : Type} (op : α → α → α) (p q : Bool × α) : Bool × α := (p.1 || q.1, if q.1 then q.2 else op p.2 q.2)

def sminW {n : Nat} (a b : BitVec n) : BitVec n := if a.toInt ≤ b.toInt then a else b
def smaxW {n : Nat} (a b : BitVec n) : BitVec n := if a.toInt ≥ b.toInt then a else b
def faddW (a b : Word) : Word := BitVec.ofNat 32 (f32Add a.toNat b.toNat)
/-- The FP32 result of a collective, whose NaN is canonical also where one operand alone makes it (R34, R143). -/
def canonW (v : Word) : Word := BitVec.ofNat 32 (Fmt.f32.canon v.toNat)
def faddD64 (a b : DWord) : DWord := BitVec.ofNat 64 (f64Add a.toNat b.toNat)

/-! ## Members -/

/-- The operand of each lane, in lane order. -/
def perLane {α : Type} (got : List CollArrival) (f : CollArrival → α) : List (Option α) :=
  (List.range 32).map (fun l => (got.find? (·.lane == l)).map f)

/-- A ballot of the members that satisfy `p`. -/
def ballot (got : List CollArrival) (p : CollArrival → Bool) : Word :=
  got.foldl (fun w g => if p g then w ||| (1#32 <<< g.lane) else w) 0

/-- R144. -/
def isect (got : List CollArrival) (me : CollArrival) : Word :=
  let mx := got.foldl (fun m g => max m g.av.toNat) 0
  let my := got.foldl (fun m g => max m (g.dv.toNat % 2 ^ 32)) 0
  let c := min mx my
  let advx := (got.filter (fun g => decide (g.av.toNat ≤ c))).length
  let advy := (got.filter (fun g => decide (g.dv.toNat % 2 ^ 32 ≤ c))).length
  let found := if got.any (fun g => g.dv.toNat % 2 ^ 32 == me.av.toNat) then 1 else 0
  BitVec.ofNat 32 (advy * 65536 + advx * 256 + found)

/-- R145. -/
def nonZeroKind (g : CollArrival) : Bool :=
  match g.dv.toNat % 4 with
  | 0 => g.av.toNat % 2 ^ 31 != 0
  | 1 => g.av.toNat % 2 ^ 15 != 0 || g.av.toNat / 2 ^ 16 % 2 ^ 15 != 0
  | _ => g.av != 0

/-- The single-register result of a member with mask word `mask` for every f but `wmm` and `wsync` (Table 7-2). A floating-point result that is
a NaN is canonical, also where `comb` has passed on one lone operand (R34, R142, R143). -/
def collWord (f : Nat) (got : List CollArrival) (me : CollArrival) : Word :=
  let av := perLane got (·.av)
  let flagged := perLane got (fun g => (g.dv.truncate 32 != (0 : Word), g.av))
  let at1 := fun (xs : List (Option Word)) => (xs.getD me.lane none).getD 0
  let at2 := fun (xs : List (Option (Bool × Word))) => ((xs.getD me.lane none).map (·.2)).getD 0
  match f with
  | 0 => if got.any (·.av != 0) then 1 else 0
  | 1 => if got.all (·.av != 0) then 1 else 0
  | 2 => ballot got (·.av != 0)
  | 3 => (treeRed (· + ·) av).getD 0
  | 4 => canonW ((treeRed faddW av).getD 0)
  | 5 => (treeRed sminW av).getD 0
  | 6 => (treeRed smaxW av).getD 0
  | 7 => at1 (scan32 (· + ·) av)
  | 8 => canonW (at1 (scan32 faddW av))
  | 9 => at2 (scan32 (segOp (· + ·)) flagged)
  | 10 => canonW (at2 (scan32 (segOp faddW) flagged))
  | 11 => isect got me
  | 12 => ballot got nonZeroKind
  | 15 => (((got.find? (·.lane == me.dv.toNat % 32)).map (·.av))).getD 0
  | _ => 0

/-- Element `j` of width `w` of a word (R32). -/
def elemAt (v : Word) (w j : Nat) : Nat := v.toNat / 2 ^ (w * j) % 2 ^ w

/-- Whether `wmm` takes a format word (R146). -/
def wmmFmtOk (f : Nat) : Bool :=
  fmtValid f && f / 2 ^ 16 % 16 != 1 && f % 16 != 1 && f / 2 ^ 8 % 16 != 1 && f / 16 % 16 == 0 && f / 2 ^ 12 % 16 == 0
  && elemWidth (f % 16) == elemWidth (f / 2 ^ 8 % 16)

/-- One element of C for `wmm`: row `r`, column `c` (R146). -/
def wmmElem (fmt : Nat) (got : List CollArrival) (r c acc : Nat) : Nat :=
  let w := elemWidth (fmt % 16)
  let e := 32 / w
  let lane := fun (l : Nat) => got.find? (·.lane == l)
  let prods := (List.range (4 * e)).map (fun k =>
    let x := ((lane (r * 4 + k / e)).map (fun g => elemAt g.av w (k % e))).getD 0
    let y := ((lane (c * 4 + k / e)).map (fun g => elemAt g.bv w (k % e))).getD 0
    mulFX (elemDecode (fmt % 16) x) (elemDecode (fmt / 2 ^ 8 % 16) y))
  groupAcc .f32 acc prods

/-- The pair a member of `wmm` receives. -/
def wmmPair (fmt : Nat) (got : List CollArrival) (me : CollArrival) : List Word :=
  let r := me.lane / 4
  let c := 2 * (me.lane % 4)
  [BitVec.ofNat 32 (wmmElem fmt got r c (me.dv.toNat % 2 ^ 32)), BitVec.ofNat 32 (wmmElem fmt got r (c + 1) (me.dv.toNat / 2 ^ 32))]

/-- How a complete instance ends: each member's result words, or one trap cause for every member (R146). -/
inductive CollEnd where
  | results (ws : List (Nat × List Word))
  | diverge
  | badFormat
  deriving DecidableEq, Repr

def collEnd (f : Nat) (got : List CollArrival) : CollEnd :=
  if f = 14 then .results (got.map (fun g => (g.lane, [])))
  else if f = 13 then
    match got with
    | [] => .results []
    | g0 :: _ =>
      if got.any (·.fv != g0.fv) then .diverge
      else if !wmmFmtOk g0.fv.toNat then .badFormat
      else .results (got.map (fun g => (g.lane, wmmPair g0.fv.toNat got g)))
  else .results (got.map (fun g => (g.lane, [collWord f got g])))

/-! ## Crossing reductions (R152) -/

def xredOp (op : Nat) : DWord → DWord → DWord :=
  match op with
  | 6 => (· + ·)
  | 7 => faddD64
  | 8 => smaxW
  | _ => (· ||| ·)

/-- The value of a complete crossing: a tree in each warp by lane, then a tree over the warps by `wid`; a NaN of `fadd` is canonical (R34). `got` holds (wid, lane, value). -/
def xredValue (op : Nat) (got : List (Nat × Nat × DWord)) : DWord :=
  let warp := fun (w : Nat) => treeRed (xredOp op)
    ((List.range 32).map (fun l => (got.find? (fun g => g.1 == w && g.2.1 == l)).map (·.2.2)))
  let r := (treeRed (xredOp op) ((List.range 32).map warp)).getD 0
  if op = 7 then BitVec.ofNat 64 (Fmt.f64.canon r.toNat) else r

end Sys2Proof.Machine
end

