-- ==== Sys2Proof/Machine/Home.lean ====
section
/-! DEFINITION. What happens at a home slice (R205 to R214, R249, R258 to R264): commits with their completion times, the
value-change test with trigger records and wakes, reads and leases; and the error records and interrupts the device writes. -/

namespace Sys2Proof.Machine

open Sys2Proof

/-! ## Interrupts (R398) -/

/-- Sends interrupt `v`'s message to the host. -/
def sendIrq (v : Nat) (s : State) : State :=
  { s with out := s.out ++ [.irq (stGet 0 s.win.irqaddr v) ((stGet 0 s.win.irqdata v).truncate 32)] }

/-- Sets interrupt source `v`: a message goes out when the bit rises and is not masked. -/
def setIrq (v : Nat) (s : State) : State :=
  let was := s.win.irqstat.getLsbD v
  let s' := { s with win := { s.win with irqstat := s.win.irqstat ||| (1#128 <<< v) } }
  if !was && s.win.irqmask.getLsbD v then sendIrq v s' else s'

/-! ## Line records (R211) -/

/-- The slice's record of a line; a line it did not hold enters with EVMAX. -/
def lineRec (s : State) (l : Nat) : LineRec :=
  match s.sl.lines.find? (·.1 == l) with
  | some r => r.2
  | none => let e := stGet 0 s.sl.evmax (homeSlice (l * 128)); { exp := e, expOff := e, vl := e }

/-- Lines that entries of the reservation table hold pinned in their slices (R284). -/
def pinnedLines (s : State) : List Nat := s.cl.table.flatMap (·.pins)

/-- The last of a list that is in no other list: of a set's lines, the latest used first, the one not used for longest. -/
def lastOut (pins : List Nat) (l : List (Nat × LineRec)) : Option (Nat × LineRec) := (l.filter (fun x => !pins.contains x.1)).getLast?

/-- A slice's record of a line, which it then holds as the latest used. A slice holds 16 lines in each of 1,024 sets (R284); a set that is full
lets the line leave that it has not used for longest and no entry has pinned, and EVMAX rises to that line's expiry (R211; the set of a line
and the line that leaves are log entry 69). -/
def setLineRec (l : Nat) (r : LineRec) (s : State) : State :=
  let q := homeSlice (l * 128)
  let others := s.sl.lines.filter (·.1 != l)
  let mine := others.filter (fun x => homeSlice (x.1 * 128) == q)
  let set := if mine.length < Config.sliceWays then mine else mine.filter (fun x => Config.sliceSet x.1 % 1024 == Config.sliceSet l % 1024)
  if set.length < Config.sliceWays then { s with sl := { s.sl with lines := (l, r) :: others } }
  else match lastOut (pinnedLines s) set with
    | none => { s with sl := { s.sl with lines := (l, r) :: others } }
    | some v => { s with sl := { s.sl with
        lines := (l, r) :: others.filter (·.1 != v.1)
        evmax := stSet 0 s.sl.evmax q (max (stGet 0 s.sl.evmax q) v.2.exp) } }

/-! ## Spawn-tree counters (R162) -/

/-- A thread that a `brx` has exiled and whose record waits for its results (R131, R132). -/
def inExile (t : Thread) : Bool := match t.park with | .exile _ => true | _ => false

/-- How many threads of both planes are so, and those of them that are of a tree: their places in the core queue and the counter are kept
(R153). -/
def exiles (s : State) : Nat := (s.living.filter inExile).length + (s.standby.plane.threads.filter inExile).length
def treeExiles (s : State) (t : Nat) : Nat :=
  (s.living.filter (fun x => inExile x && (s.warpAt x.slot).tree == t)).length
  + (s.standby.plane.threads.filter (fun x => inExile x && (s.standby.plane.warps.find? (·.slot == x.slot)).map (·.tree) == some t)).length

/-- Whether a tree's counter can take `k` more. -/
def treeCanAdd (s : State) (t k : Nat) : Bool :=
  match s.sched.trees.find? (·.n == t) with
  | some tr => decide (tr.count + treeExiles s t + k < 2 ^ 48)
  | none => false

def treeUpd (t : Nat) (f : Tree → Tree) (s : State) : State :=
  { s with sched := { s.sched with trees := updIf (·.n == t) f s.sched.trees } }

def treeAdd (t k : Nat) (s : State) : State := treeUpd t (fun r => { r with count := r.count + k }) s

def treeSub (t k : Nat) (s : State) : State := treeUpd t (fun r => { r with count := r.count - k }) s

/-! ## Trigger records (R258 to R264) -/

/-- The tree an attachment's records are charged to: its own while that is open, else the context's detached tree (R268). -/
def attTree (s : State) (k : Att) : Nat :=
  let det := ((s.ctx? k.ctx).map (·.detTree)).getD 0
  match k.tree with
  | none => det
  | some t => if s.sched.trees.any (fun r => r.n == t && r.isOpen) then t else det

/-- A record's 32 bytes (Table 12-4). -/
def trigBytes (r : TrigRec) : List Byte :=
  leBytes (r.gaddr.toNat + 2 ^ 64 * r.wct + 2 ^ 128 * r.count + 2 ^ 160 * r.aid + 2 ^ 169 * r.depth + 2 ^ 172 * r.prio) 32

/-- The device's physical address of a ring byte of a context, through the pages it took at mapping (R156). -/
def pinned (c : Ctx) (va : Nat) : Option Nat := (c.pins.find? (·.1 == va / 4096)).map (fun p => p.2 * 4096 + va % 4096)

/-- Writes of the device to its own rings: untested, and they wake nothing (R263). -/
def ringWrite (c : Ctx) (va : Nat) (bs : List Byte) (s : State) : State :=
  match pinned c va with
  | none => s
  | some pa => { s with mem := setBytes s.mem (atAddr pa bs) }

def trigRing (s : State) (q c : Nat) : TrigRing := (s.sl.trigRings.find? (fun r => r.slice == q && r.ctx == c)).getD { slice := q, ctx := c }

def setTrigRing (r : TrigRing) (s : State) : State :=
  { s with sl := { s.sl with trigRings := r :: s.sl.trigRings.filter (fun x => !(x.slice == r.slice && x.ctx == r.ctx)) } }

/-- Virtual address of a spilled record: ring `q`, position counted in records (R263). -/
def trigRingVa (c : Ctx) (q pos : Nat) : Nat := c.tRing + (q * c.trBlk) * 256 + pos % (c.trBlk * 8) * 32

/-- Puts the eight oldest on-chip records of a context on its ring, or loses them where the ring is full (R263, R264). DESIGN CHOICE (log entry 107): the
oldest spilled record, whose tag is dropped, is the one made first. -/
def spillTrigs (q c : Nat) (s : State) : State :=
  match s.ctx? c with
  | none => s
  | some ctx =>
    let mine := fun (r : TrigRec) => r.slice == q && r.ctx == c && r.spilled.isNone
    let old := ((s.sl.trigs.filter mine).map (·.seq)).take 8
    let ring := trigRing s q c
    if ctx.trBlk = 0 ∨ ring.head - ring.tail ≥ ctx.trBlk then
      let lost := s.sl.trigs.filter (fun r => mine r && old.contains r.seq)
      let s := lost.foldl (fun s r => treeSub r.tree 1 s) s
      let s := { s with sl := { s.sl with trigs := s.sl.trigs.filter (fun r => !(mine r && old.contains r.seq)) } }
      setTrigRing { ring with lost := ring.lost + lost.length } s
    else
      let place := fun (r : TrigRec) => ring.head * 8 + old.idxOf r.seq
      let trigs := updIf (fun r => mine r && old.contains r.seq) (fun r => { r with spilled := some (place r) }) s.sl.trigs
      let tagged := trigs.filter (fun r => r.slice == q && r.spilled.isSome && r.tagged)
      let drop := (tagged.map (·.seq)).take (tagged.length - 1024)
      let trigs := updIf (fun r => r.slice == q && r.spilled.isSome && drop.contains r.seq) (fun r => { r with tagged := false }) trigs
      let s := { s with sl := { s.sl with trigs := trigs } }
      let s := (s.sl.trigs.filter (fun r => r.slice == q && r.ctx == c && old.contains r.seq)).foldl
        (fun s r => ringWrite ctx (trigRingVa ctx q (r.spilled.getD 0)) (trigBytes r) s) s
      setTrigRing { ring with head := ring.head + 1 } s

def onChip (s : State) (q c : Nat) : Nat := (s.sl.trigs.filter (fun r => r.slice == q && r.ctx == c && r.spilled.isNone)).length

/-- Makes room for one more record of a context in a slice (R263). -/
def makeRoom (q c : Nat) (s : State) : State :=
  let lim := ((s.ctx? c).map (·.tqlim.toNat)).getD 256
  let s := if onChip s q c ≥ lim then spillTrigs q c s else s
  let all := (s.sl.trigs.filter (fun r => r.slice == q && r.spilled.isNone)).length
  if all < 256 then s else
  let most := (s.ctxs.map (fun x => onChip s q x.n)).foldl max 0
  match (s.ctxs.filter (fun x => onChip s q x.n == most)).foldl (fun m x => some (min (m.getD x.n) x.n)) (none : Option Nat) with
  | none => s
  | some v => spillTrigs q v s

/-- One event (R260): a refusal, a record coalesced into, or a new record; a charge that is refused counts a lost record (R162).
DESIGN CHOICE (log entry 106): of two pending records of the granule that are both found, the change joins the older. -/
def trigEvent (k : Att) (g : Nat) (depth wct : Nat) (s : State) : State × List Refused :=
  let gaddr := BitVec.ofNat 64 (k.va + g * k.gran)
  let q := homeSlice (k.pa + g * k.gran)
  if depth + 1 > k.depth then (s, [{ gran := gaddr, aid := k.id, depth := depth + 1, lo := k.pa + g * k.gran, len := k.gran }])
  else
    let hit := fun (r : TrigRec) => r.ctx == k.ctx && r.aid == k.id && r.slice == q && r.gaddr == gaddr && r.tagged
    match s.sl.trigs.find? hit with
    | some r =>
      let r' := { r with count := min (r.count + 1) (2 ^ 32 - 1), wct := wct, depth := max r.depth (depth + 1) }
      let s' := { s with sl := { s.sl with trigs := updIf (fun x => hit x && x.seq == r.seq) (fun _ => r') s.sl.trigs } }
      match r.spilled, s.ctx? k.ctx with
      | some pos, some c => (ringWrite c (trigRingVa c q pos) (trigBytes r') s', [])
      | _, _ => (s', [])
    | none =>
      let t := attTree s k
      if !treeCanAdd s t 1 then
        let ring := trigRing s q k.ctx
        (setTrigRing { ring with lost := ring.lost + 1 } s, [])
      else
        let s := makeRoom q k.ctx (treeAdd t 1 s)
        let r : TrigRec := { ctx := k.ctx, slice := q, aid := k.id, gaddr := gaddr, depth := depth + 1, count := 1, wct := wct, prio := k.prio, seq := s.sl.trigSeq, tree := t }
        ({ s with sl := { s.sl with trigs := s.sl.trigs ++ [r], trigSeq := s.sl.trigSeq + 1 } }, [])

/-- The granules of an attachment in which a changed byte lies. -/
def changedGranules (k : Att) (changed : List Nat) : List Nat :=
  ((changed.filter (fun a => k.pa ≤ a && a < k.pa + k.len)).map (fun a => (a - k.pa) / k.gran)).eraseDups

/-! ## Commit (R213) -/

/-- Where a write comes from, for the skew bound: a die of this module, this module off any die, or another module. -/
inductive From where
  | die (d : Nat)
  | module
  | other
  deriving DecidableEq, Repr

/-- The skew bound of R213. -/
def sigma (f : From) (q t expOff : Nat) : Nat :=
  match f with
  | .die d => if d = dieOfSlice q ∧ t ≥ expOff then 2 else 4
  | .module => 4
  | .other => 40

/-- Every waiting thread of a word that a write changed is woken, whichever plane's write it was, and the entry freed (R249). -/
def wakeWaiters (changed : List Nat) (s : State) : State :=
  let hit := fun (w : WaitEnt) => changed.any (fun a => w.pa ≤ a && a < w.pa + 4)
  let who := (s.sl.waits.filter hit).flatMap (·.who)
  let away := (s.sl.waits.filter hit).flatMap (·.remote)
  let s := { s with sl := { s.sl with waits := s.sl.waits.filter (fun w => !hit w) }, out := s.out ++ away.map (fun m => Out.remoteReply m .woken 0 []) }
  let wake := fun (t : Thread) => match t.park with
    | .fwait va pa e d _ => { t with park := .fwait va pa e d false }
    | _ => t
  let mine := fun (t : Thread) => who.contains (t.slot, t.lane) && (match t.park with
    | .fwait _ pa _ _ _ => changed.any (fun a => pa ≤ a && a < pa + 4)
    | _ => false)
  let s := s.updThreads mine wake
  { s with standby := { s.standby with plane := { s.standby.plane with threads := updIf mine wake s.standby.plane.threads } } }

/-- One write commits at its home (R213, R222): memory changes, the completion time is fixed, poison clears where the write
covers a sector (R357), the reservations of the line end, attachments are tested (R258) and waits woken (R249). Answers the WCT and the refused events (R267). -/
def commit (ws : List (Nat × Byte)) (depth : Nat) (f : From) (s : State) : State × Nat × List Refused :=
  match ws with
  | [] => (s, s.clock.tbase, [])
  | (a0, _) :: _ =>
    let l := lineOf a0
    let q := homeSlice a0
    let r := lineRec s l
    let t := s.clock.tbase
    let wct := max t r.exp + sigma f q t r.expOff
    let addrs := ws.map (·.1)
    let poisoned := fun (a : Nat) => s.sl.poison.contains (a / 64)
    let mem' := setBytes s.mem ws
    let changed := addrs.filter (fun a => poisoned a || getByte s.mem a != getByte mem' a)
    let covered := (addrs.map (· / 64)).eraseDups.filter (fun c => (List.range 64).all (fun i => addrs.contains (c * 64 + i)))
    let s := setLineRec l { r with vl := wct }
      { s with mem := mem', sl := { s.sl with
        poison := s.sl.poison.filter (fun c => !covered.contains c), resv := s.sl.resv.filter (fun x => lineOf x.2 != l) } }
    let s := wakeWaiters changed s
    let evs := (s.sl.atts.filter (fun k => !k.stopped)).flatMap (fun k => (changedGranules k changed).map (fun g => (k, g)))
    let (s, refused) := evs.foldl (fun (x : State × List Refused) e =>
      let (s', rf) := trigEvent e.1 e.2 depth wct x.1; (s', x.2 ++ rf)) (s, ([] : List Refused))
    (s, wct, refused)

/-! ## Reads at the home (R210, R224) -/

/-- A sector is poisoned (R356). -/
def isPoisoned (s : State) (pa n : Nat) : Bool :=
  s.sl.poison.contains (pa / 64) || s.sl.poison.contains ((pa + n - 1) / 64)

/-- The bytes a read served at the home gets. -/
def homeRead (s : State) (pa n : Nat) : List Byte := getBytes s.mem pa n

/-- Grants a lease of `len` ns on a line to an agent of a die (R210, R211): its expiry and value time. -/
def grantLease (l len die : Nat) (s : State) : State × Nat × Nat :=
  let r := lineRec s l
  let e := s.clock.tbase + len
  let off := if die = dieOfSlice (homeSlice (l * 128)) then r.expOff else max r.expOff e
  (setLineRec l { r with exp := max r.exp e, expOff := off } s, e, r.vl)

/-! ## Error records (R172, R173) -/

/-- The 64 bytes of Table 8-9. -/
def errBytes (code qidx index time : Nat) (detail : DWord) (seq : Nat) : List Byte :=
  leBytes (code + 2 ^ 48 * qidx + 2 ^ 64 * index + 2 ^ 128 * time + 2 ^ 192 * detail.toNat + 2 ^ 256 * seq) 64

/-- The device releases at scope device over G what it wrote, complete at `till`, and then sets an interrupt source. -/
def notify (till src : Nat) (err : Option Nat) (s : State) : State :=
  { s with cp := { s.cp with notices := s.cp.notices ++ [{ till := till, src := src, err := err }] } }

/-- One such release is reached: CTXERR and the source. -/
def giveNotice (s : State) (n : Notice) : State :=
  let s := match n.err with
    | some c => { s with win := { s.win with ctxerr := s.win.ctxerr ||| (1#32 <<< c) } }
    | none => s
  setIrq n.src s

/-- The releases that the time base has reached. -/
def settleNotices (s : State) : State :=
  let due := s.cp.notices.filter (fun n => decide (n.till ≤ s.clock.tbase))
  due.foldl giveNotice { s with cp := { s.cp with notices := s.cp.notices.filter (fun n => !decide (n.till ≤ s.clock.tbase)) } }

/-- Writes a context error record; once its release is reached, the context's bit in CTXERR and interrupt source 101 are set (R173). -/
def ctxError (c code : Nat) (detail : DWord) (s : State) : State :=
  match s.ctx? c with
  | none => s
  | some ctx =>
    let (s, t) := match pinned ctx (ctx.errAddr + 64 * (ctx.nerr % 64)) with
      | none => (s, 0)
      | some pa =>
        let r := commit (atAddr pa (errBytes code 0xFFFF 0 s.clock.tbase detail ((ctx.nerr + 1) % 2 ^ 32))) 0 .module s
        (r.1, r.2.1)
    notify t 101 (some c) (s.updCtx c (fun x => { x with nerr := x.nerr + 1 }))

/-- A refusal that no living thread receives (R267). DESIGN CHOICE (log entry 104): the record goes to the writer's context, also where the attachment
is another's. -/
def reportRefused (c : Nat) (rf : List Refused) (s : State) : State := rf.foldl (fun s r => ctxError c 17 r.gran s) s

/-- A commit of a write with no living thread behind it: its refusals become error records of context `c`. -/
def commitQuiet (c : Nat) (ws : List (Nat × Byte)) (depth : Nat) (f : From) (s : State) : State × Nat :=
  let (s, w, rf) := commit ws depth f s
  (reportRefused c rf s, w)

/-- The bytes of a write split by line (R206), each line's part one write. -/
def byLine (ws : List (Nat × Byte)) : List (List (Nat × Byte)) :=
  ((ws.map (fun w => lineOf w.1)).eraseDups).map (fun l => ws.filter (fun w => lineOf w.1 == l))

/-- Commits several lines' writes; the largest completion time. -/
def commitLines (c : Nat) (ws : List (Nat × Byte)) (depth : Nat) (f : From) (s : State) : State × Nat :=
  (byLine ws).foldl (fun (x : State × Nat) w => let (s', t) := commitQuiet c w depth f x.1; (s', max x.2 t)) (s, 0)

end Sys2Proof.Machine
end

