-- ==== Sys2Proof/Machine/Results.lean ====
section
/-! DEFINITION. Register results (R26 to R30): issue, completion in order per register, and the end of a park inside an
instruction. A result is outstanding from issue until its write completes. -/

namespace Sys2Proof.Machine

open Sys2Proof

/-- Whether a result shares a register with one of a list (R27). -/
def overlaps {w : Nat} (r : Result w) (l : List (Result w)) : Bool :=
  l.any (fun q => q.regs.any (fun x => r.regs.any (fun y => x.1 == y.1)))

/-- Takes out the first result of a list, from its front, that satisfies `p`, is ready and is behind no earlier result to one
of its registers (R27); `before` are the results ahead. -/
def takeResult {w : Nat} (p : Result w → Bool) (before : List (Result w)) : List (Result w) → Option (Result w × List (Result w))
  | [] => none
  | r :: t => if p r && r.ready && !overlaps r before then some (r, before ++ t) else takeResult p (before ++ [r]) t

/-- Each result of a list is one that `p` admits, or is ready and held behind such a one by its register, directly or not (R27). -/
def onlyBehind {w : Nat} (p : Result w → Bool) (held : List (Result w)) : List (Result w) → Bool
  | [] => true
  | r :: t => (p r || (r.ready && overlaps r held)) && onlyBehind p (held ++ [r]) t

/-- A thread with one result's registers written (R26); the write clears a register's poison (Table 18-4). -/
def Thread.write (t : Thread) (r : Result 32) : Thread :=
  { t with
    regs := stSetAll 0 t.regs r.regs
    poisoned := t.poisoned.filter (fun p => !r.regs.any (fun x => x.1 == p))
    tcap := match r.cap with | .tnow v => some v | _ => t.tcap
    occCap := match r.cap with | .occ v => v | _ => t.occCap }

/-- A thread parked under S goes on once it has no outstanding result (R28). -/
def Thread.settle (t : Thread) : Thread :=
  match t.park with
  | .switch => if t.pend.isEmpty then { t with park := .none } else t
  | _ => t

/-- Completes the first result that satisfies `p` and may complete. -/
def Thread.complete (t : Thread) (p : Result 32 → Bool) : Thread :=
  match takeResult p [] t.pend with
  | none => t
  | some (r, rest) => ({ t.write r with pend := rest }).settle

/-- Completes results that satisfy `p` until none is left that may, at most `n` of them. -/
def Thread.completeN (p : Result 32 → Bool) : Nat → Thread → Thread
  | 0, t => t
  | n + 1, t => Thread.completeN p n (t.complete p)

/-- Every ready result completes, in order of issue (R29). -/
def Thread.completeAll (t : Thread) : Thread := Thread.completeN (fun _ => true) t.pend.length t

/-- Every result that must have arrived by `cycle` completes (R30). -/
def Thread.completeDue (cycle : Nat) (t : Thread) : Thread :=
  Thread.completeN (fun r => match r.maxLat with | some m => decide (cycle ≥ r.issued + m) | none => r.ready && decide (cycle ≥ r.issued + r.minLat))
    t.pend.length t

/-- Every outstanding result is ready. -/
def Thread.allReady (t : Thread) : Bool := t.pend.all (·.ready)

/-- The acting thread gets an outstanding result; answers its number. -/
def addResult (regs : List (Nat × Word)) (lo : Nat) (hi : Option Nat) (cap : Capture) (ready : Bool) (s : State) : Nat × State :=
  let (tag, s) := s.fresh
  let r : Result 32 := { tag := tag, regs := regs, cap := cap, ready := ready, issued := s.clock.cycle, minLat := lo, maxLat := hi }
  (tag, s.updTh (fun t => { t with pend := t.pend ++ [r] }))

/-- A result of a scratch load or atomic, which alone has the latency 18 or more (Table 1-4). -/
def Result.ofScratch (r : Result 32) : Bool := r.minLat == 18 && r.maxLat.isNone

/-- A result of known value with fixed latency. -/
def giveResult (regs : List (Nat × Word)) (lat : Nat) (s : State) : State := (addResult regs lat (some lat) .none true s).2

/-- The value of a waiting result arrives (a load, an atomic, an engine's status): register `i` of it gets word `i` of `ws`. -/
def Thread.arrive (t : Thread) (tag : Nat) (ws : List Word) : Thread :=
  { t with pend := updIf (·.tag == tag) (fun r => { r with ready := true, regs := r.regs.mapIdx (fun i x => (x.1, ws.getD i 0)) }) t.pend }

/-- A waiting result is given up: the instruction trapped, and its result is never written (R29). -/
def Thread.dropResult (t : Thread) (tag : Nat) : Thread := { t with pend := t.pend.filter (·.tag != tag) }

/-- A parked instruction is over: its capture becomes outstanding, and the thread goes on at `npc`, after its results if it carried S
(R18, R28). -/
def Thread.resume (t : Thread) : Thread :=
  let pend := t.pend ++ t.held.toList
  { t with pc := t.npc, pend := pend, held := none, park := if t.smark && !pend.isEmpty then .switch else .none }

/-- A parked instruction ends with a result in `dst` (none where it is discarded). -/
def resumeWith (dst : Option Nat) (v : Word) (lat : Nat) (s : State) : State :=
  (giveResult ((dst.toList).map (fun p => (p, v))) lat s).updTh Thread.resume

/-! ## Streams (R277) -/

/-- A write to c0 is discarded (Table 14-1). -/
def SeqCtx.write (q : SeqCtx) (r : Result 64) : SeqCtx :=
  { q with regs := stSetAll 0 q.regs (r.regs.filter (·.1 != 0)) }

def SeqCtx.settle (q : SeqCtx) : SeqCtx :=
  match q.park with
  | .switch => if q.pend.isEmpty then { q with park := .none } else q
  | _ => q

def SeqCtx.complete (q : SeqCtx) (p : Result 64 → Bool) : SeqCtx :=
  match takeResult p [] q.pend with
  | none => q
  | some (r, rest) => ({ q.write r with pend := rest }).settle

def SeqCtx.completeN (p : Result 64 → Bool) : Nat → SeqCtx → SeqCtx
  | 0, q => q
  | n + 1, q => SeqCtx.completeN p n (q.complete p)

def SeqCtx.completeAll (q : SeqCtx) : SeqCtx := SeqCtx.completeN (fun _ => true) q.pend.length q

def SeqCtx.completeDue (cycle : Nat) (q : SeqCtx) : SeqCtx :=
  SeqCtx.completeN (fun r => match r.maxLat with | some m => decide (cycle ≥ r.issued + m) | none => r.ready && decide (cycle ≥ r.issued + r.minLat))
    q.pend.length q

def SeqCtx.arrive (q : SeqCtx) (tag : Nat) (v : DWord) : SeqCtx :=
  { q with pend := updIf (·.tag == tag) (fun r => { r with ready := true, regs := r.regs.map (fun x => (x.1, v)) }) q.pend }

/-- The acting context gets an outstanding result. -/
def addResultS (regs : List (Nat × DWord)) (lo : Nat) (hi : Option Nat) (ready : Bool) (s : State) : Nat × State :=
  let (tag, s) := s.fresh
  let r : Result 64 := { tag := tag, regs := regs, ready := ready, issued := s.clock.cycle, minLat := lo, maxLat := hi }
  (tag, { s with sq := { s.sq with pend := s.sq.pend ++ [r] } })

def SeqCtx.resume (q : SeqCtx) : SeqCtx :=
  { q with pc := q.npc, park := if q.smark && !q.pend.isEmpty then .switch else .none }

def resumeWithS (dst : Nat) (v : DWord) (lat : Nat) (s : State) : State :=
  let s := (addResultS [(dst, v)] lat (some lat) true s).2
  { s with sq := s.sq.resume }

end Sys2Proof.Machine
end

