-- ==== Sys2Proof/Machine/Life.lean ====
section
/-! DEFINITION. How waits between threads end (R129, R149 to R152) and how a thread, a warp and a block end (R87, R117 to R119,
R150, R163, R185, R194, R350). -/

namespace Sys2Proof.Machine

open Sys2Proof

/-- The stop causes of a matrix stream (Table 14-2). -/
def stopIllegal : Nat := 2

/-! ## Numbered barriers (R148 to R151) -/

/-- Barrier `n` of a block; one that nothing has changed is as at block start (R148). -/
def barOf (b : Block) (n : Nat) : Barrier :=
  ((b.bars.find? (·.1 == n)).map (·.2)).getD { count := b.nthr, pending := b.nthr, part := 2 ^ b.nthr - 1 }

def setBar (h n : Nat) (r : Barrier) (s : State) : State :=
  s.updBlock h (fun b => { b with bars := (n, r) :: b.bars.filter (·.1 != n) })

/-- Whether a thread is of block `h`. -/
def ofBlock (s : State) (h : Nat) (t : Thread) : Bool := (s.warpAt t.slot).block == some h

/-- Wakes every waiter whose token differs from PHASE: it receives LAST (R149, R151). -/
def wakeBar (h n : Nat) (s : State) : State :=
  match s.block? h with
  | none => s
  | some b =>
    let r := barOf b n
    let waits := fun (t : Thread) => match t.park with
      | .barWait m tok _ => m == n && tok != r.phase && ofBlock s h t
      | _ => false
    let s := (s.living.filter waits).foldl (fun s t => s.asThread t.slot t.lane (fun s =>
      match s.th.park with
      | .barWait _ _ d => resumeWith d r.last 4 s
      | _ => s)) s
    let swaits := fun (q : SeqCtx) => match q.park with
      | .barWait m tok _ => m == n && tok != r.phase && q.block == h
      | _ => false
    (s.allSeqs.filter swaits).foldl (fun s q => s.asSeq q.n (fun s =>
      match s.sq.park with
      | .barWait _ _ d => resumeWithS d (r.last.zeroExtend 64) 4 s
      | _ => s)) s

/-- The phase flip of R149. -/
def flipBar (h n : Nat) (r : Barrier) (s : State) : State :=
  wakeBar h n (setBar h n { r with last := r.status, status := 0, pending := r.count, phase := (r.phase + 1) % 2 ^ 16, arrived := 0 } s)

/-- An arrival with status `st`, of the thread `tid` or of an engine or stream (R149); none where COUNT is 0. -/
def arriveBar (h n : Nat) (st : Word) (tid : Option Nat) (s : State) : Option State :=
  match s.block? h with
  | none => none
  | some b =>
    let r := barOf b n
    if r.count = 0 then none
    else
      let r := match tid with
        | some t => { r with part := r.part ||| 2 ^ t, arrived := r.arrived ||| 2 ^ t }
        | none => r
      let r := { r with status := if r.status = 0 then st else r.status, pending := r.pending - 1 }
      some (if r.pending = 0 then flipBar h n r s else setBar h n r s)

/-- An arrival of an engine: dropped where COUNT is 0 (R149). -/
def engineArrive (h n : Nat) (st : Word) (s : State) : State := (arriveBar h n st none s).getD s

/-- A participant stops living (R150). A barrier that is already empty stays empty. -/
def leaveBar (h tid n : Nat) (s : State) : State :=
  match s.block? h with
  | none => s
  | some b =>
    let r := barOf b n
    if !r.part.testBit tid || r.count = 0 then s
    else
      let arrived := r.arrived.testBit tid
      let r := { r with count := r.count - 1, part := r.part ^^^ 2 ^ tid, pending := if arrived then r.pending else r.pending - 1 }
      if !arrived && r.pending = 0 then flipBar h n r s else setBar h n r s

/-! ## Crossing registers (R152, R320) -/

/-- Whether an `xrd` that expects `e` may go on (R320). -/
def xrdReady (seq e : Nat) : Bool := e == 0 || decide ((seq + 2 ^ 32 - e) % 2 ^ 32 < 2 ^ 31)

/-- Streams parked at crossing register `k` go on where SEQ allows. -/
def wakeXrd (q : Nat) (s : State) : State :=
  s.asSeq q (fun s =>
    match s.sq.park with
    | .xrd k e d => if xrdReady (stGet 0 s.sq.xseq k) e then resumeWithS d (stGet 0 s.sq.xval k) 4 s else s
    | _ => s)

/-- Completes the open instance of register `k` where every living thread of every named warp has arrived. The block's context takes the value, also
one that the engine image still holds (R364). -/
def settleCrossing (h k : Nat) (s : State) : State :=
  match s.block? h with
  | none => s
  | some b =>
    match b.crossings.find? (·.k == k) with
    | none => s
    | some x =>
      let awaited := s.living.filter (fun t => ofBlock s h t && x.mask.getLsbD (s.warpAt t.slot).wid)
      if x.got.isEmpty || awaited.any (fun t => !x.got.any (fun g => g.1 == t.slot && g.2.1 == t.lane)) then s
      else
        let (i, s) := if x.mixed then s.draw else (0, s)
        let v := if x.mixed then Config.freeWord i else xredValue x.op (x.got.map (fun g => ((s.warpAt g.1).wid, g.2.1, g.2.2)))
        let s := s.updBlock h (fun b => { b with crossings := b.crossings.filter (·.k != k) })
        let take := fun (q : SeqCtx) => { q with xval := stSet 0 q.xval k v, xseq := stSet 0 q.xseq k ((stGet 0 q.xseq k + 1) % 2 ^ 32) }
        let s := s.updSeqs (fun q => q.held && q.block == h && b.stream == some q.n) take
        let s := { s with standby := { s.standby with seqs := updIf (fun q => q.block == h) take s.standby.seqs } }
        let s := s.updThreads (fun t => x.got.any (fun g => t.is g.1 g.2.1)) Thread.resume
        match b.stream with
        | some q => if s.allSeqs.any (fun c => c.n == q && c.block == h) then wakeXrd q s else s
        | none => s

/-! ## Traps of waiting threads (R129) -/

/-- A thread that waits inside an instruction takes a trap at it: it holds the trap until it enters its handler (R122). -/
def trapAt (slot lane : Nat) (t : Trap) (s : State) : State :=
  s.updThreads (·.is slot lane) (fun x => { x with park := .trap t (pc64 x.pc) false, held := none })

/-! ## Collective instances (R128, R129) -/

def findColl (s : State) (slot : Nat) (pc : PC) : Option Coll := s.pl.colls.find? (fun c => c.slot == slot && c.pc == pc)

def dropColl (slot : Nat) (pc : PC) (s : State) : State :=
  { s with pl := { s.pl with colls := s.pl.colls.filter (fun c => !(c.slot == slot && c.pc == pc)) } }

def putColl (c : Coll) (s : State) : State :=
  let s := dropColl c.slot c.pc s
  { s with pl := { s.pl with colls := s.pl.colls ++ [c] } }

/-- Every arrived member takes a trap, and the instance ends. -/
def failColl (c : Coll) (t : CollArrival → Trap) (s : State) : State :=
  c.got.foldl (fun s g => trapAt c.slot g.lane (t g) s) (dropColl c.slot c.pc s)

/-- The instance is complete (R129, R141, R146): members go on in this cycle, results complete 8 cycles later, 16 for `wmm`. -/
def completeColl (c : Coll) (s : State) : State :=
  match collEnd c.f c.got with
  | .diverge => failColl c (fun g => { cause := .fmtDiverge, info := g.fv }) s
  | .badFormat => failColl c (fun g => { cause := .fmtInvalid, info := g.fv }) s
  | .results ws =>
    let lat := if c.f = 13 then 16 else 8
    c.got.foldl (fun s g => s.asThread c.slot g.lane (fun s =>
      let vals := ((ws.find? (·.1 == g.lane)).map (·.2)).getD []
      let regs := match g.dst with
        | some p => vals.mapIdx (fun i v => (p + i, v))
        | none => []
      let s := if vals.isEmpty then s else giveResult regs lat s
      s.updTh Thread.resume)) (dropColl c.slot c.pc s)

/-- The lanes of a warp that hold a living thread. -/
def livingMask (s : State) (slot : Nat) : Word :=
  s.living.foldl (fun m t => if t.slot == slot then m ||| (1#32 <<< t.lane) else m) 0

def arrivedMask (c : Coll) : Word := c.got.foldl (fun m g => m ||| (1#32 <<< g.lane)) 0

/-- The last two rows of Table 6-2: exited, else complete. -/
def settleColl (slot : Nat) (pc : PC) (s : State) : State :=
  match findColl s slot pc with
  | none => s
  | some c =>
    let alive := livingMask s slot
    let dead := c.mask &&& ~~~alive
    let waiting := c.mask &&& alive &&& ~~~(arrivedMask c)
    if c.got.isEmpty then dropColl slot pc s
    else if waiting != 0 then s
    else if dead != 0 then failColl c (fun _ => { cause := .collExited, info := dead }) s
    else completeColl c s

/-- A member leaves an instance without an end (R128). -/
def leaveColl (slot lane : Nat) (s : State) : State :=
  let cs := s.pl.colls.map (fun c => if c.slot == slot then { c with got := c.got.filter (·.lane != lane) } else c)
  { s with pl := { s.pl with colls := cs.filter (fun c => !c.got.isEmpty) } }

/-! ## The ends of threads, warps and blocks -/

/-- A deferred `CASCADE` that no living thread takes goes to the context's error ring (R267, R348). -/
def reportDeferred (d : Option Deferred) (s : State) : State :=
  match d, s.pl.ctx with
  | some d, some c => ctxError c 17 d.gran s
  | _, _ => s

/-- A fence register wait-table entry loses a thread; an empty entry is freed (R250). -/
def leaveWaits (slot lane : Nat) (s : State) : State :=
  { s with sl := { s.sl with
    waits := (s.sl.waits.map (fun w => { w with who := w.who.filter (fun p => !(p.1 == slot && p.2 == lane)) })).filter
      (fun w => !w.who.isEmpty || !w.remote.isEmpty) } }

/-- A completion time joins a tree's (R163). -/
def treeTime (t w : Nat) (s : State) : State := treeUpd t (fun r => { r with tct := max r.tct w }) s

/-- An ended block without stream leaves the core: its tiles that are idle become F, and so does the last of the others when
its operation ends (R194, R275). -/
def dropBlock (h : Nat) (s : State) : State :=
  let s := ((tilesOf s h).filter tileIdle).foldl (fun s t => freeTile t (sramDrop t.key s)) s
  match s.block? h with
  | none => s
  | some b =>
    if b.stream.isNone && (tilesOf s h).isEmpty then
      sramDrop h { s with pl := { s.pl with blocks := s.pl.blocks.filter (·.handle != h) } }
    else s

/-- Releases a sequencer context whose stream and entries have ended and whose block's last warp has ended, with the block's
frames (R275). -/
def settleSeq (n : Nat) (s : State) : State :=
  match s.allSeqs.find? (·.n == n) with
  | none => s
  | some q =>
    let ended := match s.block? q.block with
      | some b => b.ended
      | none => true
    if q.stop = 0 || s.cl.table.any (·.ctx == n) || !ended then s
    else
      let mine := (s.cl.frameOwner.filter (·.2 == q.block)).map (·.1)
      let s := { s with
        sq := if s.sq.held && s.sq.n == n then {} else s.sq
        cl := { s.cl with
          seqs := s.cl.seqs.filter (·.n != n)
          frameOwner := s.cl.frameOwner.filter (·.2 != q.block)
          frames := s.cl.frames.filter (fun x => !mine.contains (x.1 / 65536))
          vectors := s.cl.vectors.filter (fun x => !mine.contains (x.1 / 128)) } }
      let s := s.updBlock q.block (fun b => { b with stream := none, bct := max b.bct q.spct })
      let s := match s.block? q.block with
        | some b => treeTime b.tree b.bct s
        | none => s
      dropBlock q.block s

/-- The status word of a stopped stream (Table 14-4). -/
def msStopStatus : Word := 0x0B030000

/-- A context that takes a cause of Table 14-2 issues nothing more; once its entries have completed, arrived and posted their status, STOP takes the
cause, every barrier whose STATUS is 0 takes `MS_STOP`, and the record with CODE 24 is written (R279). -/
def settleStop (n : Nat) (s : State) : State :=
  match s.allSeqs.find? (·.n == n) with
  | none => s
  | some q => match q.park with
    | .stopping cause at_ =>
      if s.cl.table.any (·.ctx == n) then s
      else
        let s := s.updSeqs (·.n == n) (fun q => { q with stop := cause, park := .none })
        let s := s.updBlock q.block (fun b => { b with bars := (List.range 16).map (fun k =>
          let r := barOf b k; (k, if r.status = 0 then { r with status := msStopStatus } else r)) })
        let s := match s.block? q.block with
          | some b => ctxError b.ctx 24 at_ s
          | none => s
        settleSeq n s
    | _ => settleSeq n s

/-- A block's last warp has ended: its extent and idle tiles are freed, and its tree counts one less (R162, R163, R185, R194). -/
def endBlock (h : Nat) (s : State) : State :=
  match s.block? h with
  | none => s
  | some b =>
    let s := s.updBlock h (fun b => { b with ended := true, scratch := 0 })
    let s := treeTime b.tree b.bct (treeSub b.tree 1 (trimArena s))
    match b.stream with
    | some q => settleSeq q (dropBlock h s)
    | none => dropBlock h s

/-- A handshake of a warp that has ended goes on; what it had reserved for the warp becomes F. -/
def forgetWarp (slot : Nat) (h : Handshake) : Handshake :=
  let keep := fun (w : Option Nat) => if w = some slot then none else w
  match h with
  | .writeback b ids (.toRegs k n pg) w => .writeback b ids (if k = slot then .toFree else .toRegs k n pg) (keep w)
  | .writeback b ids u w => .writeback b ids u (keep w)
  | .reloc n m w => .reloc n m (keep w)

/-- A warp none of whose threads lives ends: its pages are freed (R118, R119). -/
def endWarp (slot : Nat) (s : State) : State :=
  let w := s.warpAt slot
  let s := { s with pl := { s.pl with shake := s.pl.shake.map (forgetWarp slot), shakeQ := s.pl.shakeQ.map (forgetWarp slot) } }
  let s := settleRegs { s with pl := { s.pl with warps := s.pl.warps.filter (·.slot != slot), colls := s.pl.colls.filter (·.slot != slot) } }
  match w.block with
  | none => treeTime w.tree w.bct (treeSub w.tree 1 s)
  | some h => if s.pl.warps.any (·.block == some h) then s else endBlock h s

/-- The PCT that was kept for a thread that has ended (no `seq`), or for one of its emissions. -/
def carriedPct (s : State) (uid : Nat) (seq : Option Nat) : Nat :=
  ((s.sched.carried.find? (fun x => x.uid == uid && x.seq == seq)).map (·.pct)).getD 0

/-- A thread's PCT is kept for what waits on its writes (R87, R133, R154). -/
def carryPct (uid : Nat) (seq : Option Nat) (pct : Nat) (s : State) : State :=
  { s with sched := { s.sched with carried := { uid := uid, seq := seq, pct := pct } :: s.sched.carried.filter (fun x => !(x.uid == uid && x.seq == seq)) } }

/-- The acting thread stops living (R87, R133, R150, R350): its results are discarded, its PCT joins its block's or warp's
completion time, and barriers, crossings and collectives that name it are settled. -/
def endThread (s : State) : State :=
  let t := s.th
  let w := s.warp
  let s := { s with th := {} }
  let s := leaveWaits t.slot t.lane (leaveColl t.slot t.lane s)
  let s := if s.pl.net.isEmpty && s.pl.storeQ.isEmpty && s.pl.puts.isEmpty then s else carryPct t.uid none t.pct s
  let s := match w.block with
    | none => s.updWarp t.slot (fun w => { w with bct := max w.bct t.pct })
    | some h => s.updBlock h (fun b => { b with bct := max b.bct t.pct })
  let s := match w.block with
    | none => s
    | some h =>
      let s := (List.range 16).foldl (fun s n => leaveBar h t.tid n s) s
      (List.range 8).foldl (fun s k => settleCrossing h k s) s
  let s := ((s.pl.colls.filter (fun c => c.slot == t.slot && c.mask.getLsbD t.lane)).map (·.pc)).foldl (fun s pc => settleColl t.slot pc s) s
  if s.pl.threads.any (·.slot == t.slot) then s else endWarp t.slot s

/-- The acting thread is killed with a context error record (R349, R350, R353). -/
def killThread (code : Nat) (detail : DWord) (s : State) : State :=
  let d := s.th.deferred
  let s := match s.pl.ctx with
    | some c => ctxError c code detail s
    | none => s
  endThread (reportDeferred d s)

end Sys2Proof.Machine
end

