-- ==== Sys2Proof/Machine/Operands.lean ====
section
/-! DEFINITION. How an instruction reads its operands: physical register indices and their bounds (R15, R16, R57, R61, R78,
R103), special registers (R18), operand patterns (R140), and the c registers of a stream (R276). An operand of several
registers is one number, its first register lowest. -/

namespace Sys2Proof.Machine

open Sys2Proof

/-- An instruction word as it executes: the word, its payload and its shape. -/
structure Ins where
  word : Word
  p : Payload
  sh : Shape
  deriving DecidableEq, Repr

/-- Whether the switch marker is set (R28). -/
def Ins.s (i : Ins) : Bool := i.word.msb

/-- An ALU payload's bits; zero for any other payload or none (R61). -/
def Ins.alu (i : Ins) : BitVec 25 :=
  match i.sh.pk with
  | .alu _ _ _ => i.p.getD 0
  | _ => 0

/-- The operands an instruction has read, by position, and the first physical register of its destination (none for `z`). -/
structure Opnds where
  a : BitVec 256 := 0
  b : BitVec 256 := 0
  d : BitVec 256 := 0
  x : BitVec 256 := 0
  pd : Option Nat := none
  deriving DecidableEq, Repr

def wordOf (v : BitVec 256) : Word := v.truncate 32
def dwordOf (v : BitVec 256) : DWord := v.truncate 64
/-- Register `i` of a wide operand. -/
def wordAt (v : BitVec 256) (i : Nat) : Word := v.extractLsb' (32 * i) 32

/-! ## Physical registers -/

/-- Whether the payload adds `wi` to a position (R61). -/
def wiAt (p : BitVec 25) : Slot → Bool
  | .d => p.getLsbD 4
  | .a => p.getLsbD 3
  | .b => p.getLsbD 2
  | .x => false

/-- The physical index of a register field (R15). -/
def physOf (wb wi : Nat) (p : BitVec 25) (u : Use) : Nat := wb + u.f.toNat + (if wiAt p u.slot then wi else 0)

/-- The index a field's bounds check rejects, if it does (R15, R16, R57, R78, R103). -/
def boundsFail (wb wi regs : Nat) (p : BitVec 25) (u : Use) : Option Nat :=
  if u.f.toNat ≥ 96 then none
  else
    let k := physOf wb wi p u
    if k ≥ regs ∨ (wiAt p u.slot = true ∧ k % u.n ≠ 0) then some k
    else if k + u.n > regs then some (k + u.n - 1)
    else none

/-! ## Special registers (R18) -/

/-- The value of a special register for a thread. -/
def special (s : State) (t : Thread) (f : Nat) : Word :=
  let w := s.warpAt t.slot
  let n := fun (k : Nat) => BitVec.ofNat 32 k
  if f < 112 then stGet 0 w.consts (f - 96)
  else match f with
    | 113 => n t.lane
    | 114 => n t.tid
    | 115 => n w.wid
    | 116 => n w.bid
    | 117 => n w.gsz
    | 118 => n w.nthr
    | 119 => n w.role
    | 120 => n s.clock.cycle
    | 121 => n s.clock.tbase
    | 122 => t.tcap.getD (n (s.clock.tbase / 2 ^ 32))
    | 123 => n s.coreNo
    | 124 => n s.xid
    | 125 => n s.did
    | _ => 0

/-! ## Patterns (R140) -/

/-- The source lane of a lane under a pattern; none reads zero (Table 7-1). -/
def sourceLane (pat amt l : Nat) : Option Nat :=
  match pat with
  | 0 => some l
  | 1 => some ((l + amt) % 32)
  | 2 => some amt
  | 3 => some (l ^^^ amt)
  | 4 => some (l ^^^ (2 ^ amt - 1))
  | 5 => if l < amt then none else some (l - amt)
  | 6 => if l + amt > 31 then none else some (l + amt)
  | _ => none

/-- The pattern and amount of a position (Table 3-5). -/
def patternAt (p : BitVec 25) : Slot → Nat × Nat
  | .a => (pbits p 22 3, pbits p 17 5)
  | .b => (pbits p 14 3, pbits p 9 5)
  | _ => (0, 0)

/-- The thread whose registers a position reads: the acting one, another of its warp, or none, which reads zero (R130). -/
def sourceThread (s : State) (p : BitVec 25) (sl : Slot) : Option Thread :=
  match patternAt p sl with
  | (0, _) => some s.th
  | (pat, amt) => (sourceLane pat amt s.th.lane).bind (fun l => if l = s.th.lane then some s.th else s.thread? s.th.slot l)

/-! ## Reading -/

/-- The registers from `k` on as one number, the first lowest. -/
def readRegs (t : Thread) (k : Nat) : Nat → BitVec 256
  | 0 => 0
  | n + 1 => (stGet 0 t.regs k).zeroExtend 256 ||| (readRegs t (k + 1) n <<< 32)

/-- The value a field reads (R15, R18, R26, R140). -/
def readUse (s : State) (p : BitVec 25) (u : Use) : BitVec 256 :=
  match sourceThread s p u.slot with
  | none => 0
  | some t =>
    if u.f.toNat < 96 then readRegs t (physOf s.th.wb s.warp.wi p u) u.n
    else (special s t u.f.toNat).zeroExtend 256

/-- A poisoned register that a field would read (R357). -/
def poisonUse (s : State) (p : BitVec 25) (u : Use) : Option Nat :=
  if u.role = .dst ∨ u.f.toNat ≥ 96 then none
  else (sourceThread s p u.slot).bind (fun t => t.poisoned.find? (fun k =>
    let k0 := physOf s.th.wb s.warp.wi p u
    decide (k0 ≤ k ∧ k < k0 + u.n)))

/-- Whether an operand makes the `tnow` capture (R18). DESIGN CHOICE (log entry 88): a permuted one makes it for the reading thread, also
where its lane reads zero because the other thread is absent or not living. -/
def capturesNow (i : Ins) : Bool := i.sh.uses.any (fun u => u.role != .dst && u.f == 121)

/-- Adds one use to the operands: its value where it is read, its register where it is written. -/
def addUse (s : State) (p : BitVec 25) (o : Opnds) (u : Use) : Opnds :=
  let v := if u.role = .dst then 0 else readUse s p u
  match u.slot with
  | .a => { o with a := v }
  | .b => { o with b := v }
  | .x => { o with x := v }
  | .d => { o with d := v, pd := if u.role = .src ∨ u.f.toNat ≥ 96 then none else some (physOf s.th.wb s.warp.wi p u) }

/-- Every operand of an instruction, read at its issue (R23). -/
def operands (i : Ins) (s : State) : Opnds := i.sh.uses.foldl (addUse s i.alu) {}

/-- The thread with free values in its poisoned registers. -/
def Thread.freed (k : Nat) (t : Thread) : Thread :=
  { t with regs := t.poisoned.foldl (fun r p => stSet 0 r p (Config.freeReg k t.uid p)) t.regs }

/-- The operands of an instruction that takes no POISON trap (R104), with free values for the poisoned registers among them. -/
def freedOperands (i : Ins) (k : Nat) (s : State) : Opnds :=
  operands i { s with th := s.th.freed k, pl := { s.pl with threads := s.pl.threads.map (Thread.freed k) } }

/-! ## Streams -/

/-- A c register; c0 reads 0 (Table 14-1). -/
def readC (q : SeqCtx) (n : Nat) : DWord := if n = 0 then 0 else stGet 0 q.regs n

def addUseC (q : SeqCtx) (o : Opnds) (u : Use) : Opnds :=
  let v := if u.role = .dst then 0 else (readC q u.f.toNat).zeroExtend 256
  match u.slot with
  | .a => { o with a := v }
  | .b => { o with b := v }
  | .x => { o with x := v }
  | .d => { o with d := v, pd := if u.role = .src then none else some u.f.toNat }

def operandsC (i : Ins) (s : State) : Opnds := i.sh.uses.foldl (addUseC s.sq) {}

end Sys2Proof.Machine
end

