-- ==== Sys2Proof/Machine/Ops.lean ====
section
/-! DEFINITION. The named operations every meaning is written with: taking a trap and returning from one (R343 to R351), the
legality and bounds checks in the order of R23 and R24, the end of an instruction (R12, R28), and a stream's stop (R279). -/

namespace Sys2Proof.Machine

open Sys2Proof

/-! ## Taking a trap (R343 to R349) -/

/-- The numbers of Table 18-1. -/
def causeCode : Cause → Nat
  | .illegal => 1
  | .instAlign => 2
  | .addrCanon => 3
  | .align => 4
  | .scratchBounds => 5
  | .regBounds => 6
  | .ifetch => 7
  | .page => 8
  | .prot => 9
  | .poison => 10
  | .swTrap => 11
  | .brk => 12
  | .collSelf => 16
  | .collExited => 17
  | .collMismatch => 18
  | .fmtDiverge => 19
  | .fmtInvalid => 20
  | .barArg => 24
  | .barBusy => 25
  | .barNone => 26
  | .xredNone => 27
  | .fetchErr => 28
  | .cascade => 32

/-- `TCAUSE` (Table 18-2). -/
def tcause (t : Trap) (deferred : Bool) : Word := BitVec.ofNat 32 (causeCode t.cause + if deferred then 256 else 0)

/-- The PC of the handler. A vector that breaks R12 gives a PC that the specification does not state: a free value. -/
def handlerPc (hvec : DWord) (s : State) : PC × State :=
  if canonical hvec && hvec.extractLsb' 0 2 == 0 then (hvec.truncate 57, s)
  else let (i, s) := s.draw; ((Config.freeWord i).truncate 57 &&& ~~~3, s)

/-- The address of the instruction that raised a trap which saves `trpc`: that of `trap` is not the address saved (R345). -/
def causePc (t : Trap) (trpc : DWord) (s : State) : DWord := if t.cause = .swTrap then pc64 s.th.pc else trpc

/-- Trap entry (R346): the outstanding results complete; a thread in its handler is killed, and so is one with no handler;
else the frame is written, the window moves to the top eight registers, and the PC goes to the handler. -/
def enterTrap (t : Trap) (trpc : DWord) (deferred : Bool) (s : State) : State :=
  let s := s.updTh Thread.completeAll
  if s.th.inh then killThread 32 (causePc t trpc s) s
  else if s.curCtx.hvec = 0 then killThread 33 trpc s
  else
    let (pc, s) := handlerPc s.curCtx.hvec s
    let top := s.warp.regsPer - 8
    s.updTh (fun x => { x with
      frame := { trpc := trpc, tcause := tcause t deferred, taddr := t.addr, tinfo := t.info }
      swb := x.wb, wb := top, inh := true, pc := pc, park := .none, smark := false, held := none, got := none })

/-- The address a trap saves (R345): the word after a `trap`, else the instruction or its prefix. -/
def trapPc (t : Trap) (s : State) : DWord := if t.cause = .swTrap then pc64 (s.th.pc + 4) else pc64 s.th.pc

/-- A trap saving `trpc`: entered now if every outstanding result can complete, else held until they have (R29, R122). -/
def raiseAt (t : Trap) (trpc : DWord) (deferred : Bool) (s : State) : State :=
  if s.th.allReady then enterTrap t trpc deferred s
  else s.updTh (fun x => { x with park := .trap t trpc deferred, smark := false })

/-- The acting thread takes a trap at its instruction. -/
def raise (t : Trap) (s : State) : State := raiseAt t (trapPc t s) false s

/-- The return from a handler (R351). -/
def leaveHandler (s : State) : State :=
  s.updTh (fun x => { x with pc := x.frame.trpc.truncate 57, wb := x.swb, inh := false })

/-! ## The end of an instruction -/

/-- The address of the next instruction (R12). -/
def nextPc (i : Ins) (s : State) : PC := s.th.pc + (if i.p.isSome then 8 else 4)

/-- The capture a read of `tnow` makes, 12 cycles from issue (R18, Table 1-4). -/
def capture (i : Ins) (s : State) : State :=
  if capturesNow i then (addResult [] 12 (some 12) (.tnow (BitVec.ofNat 32 (s.clock.tbase / 2 ^ 32))) true s).2 else s

/-- The same of an instruction that parks its thread: it is outstanding once the instruction ends, and a trap drops it (R29). -/
def captureHeld (i : Ins) (s : State) : State :=
  if capturesNow i then
    let (tag, s) := s.fresh
    let r : Result 32 := { tag := tag, regs := [], cap := .tnow (BitVec.ofNat 32 (s.clock.tbase / 2 ^ 32)), issued := s.clock.cycle, minLat := 12, maxLat := some 12 }
    s.updTh (fun t => { t with held := some r })
  else s.updTh (fun t => { t with held := none })

/-- The capture of an instruction that issues now with result number `tag`: it goes with that result, if the instruction traps later (R29). -/
def captureAs (i : Ins) (tag : Nat) (s : State) : State :=
  if capturesNow i then
    let r : Result 32 := { tag := tag, regs := [], cap := .tnow (BitVec.ofNat 32 (s.clock.tbase / 2 ^ 32)), issued := s.clock.cycle, minLat := 12, maxLat := some 12 }
    s.updTh (fun t => { t with pend := t.pend ++ [r] })
  else s

/-- The thread goes on at `pc`, after its results if S is set (R28). -/
def leaveTo (i : Ins) (pc : PC) (s : State) : State :=
  s.updTh (fun t => { t with pc := pc, held := none, park := if i.s && !t.pend.isEmpty then .switch else .none })

/-- The instruction has issued and the thread goes on at `pc`. -/
def goto (i : Ins) (pc : PC) (s : State) : State := leaveTo i pc (capture i s)

/-- The thread goes on at the next instruction. -/
def finish (i : Ins) (s : State) : State := goto i (nextPc i s) s

/-- The thread is parked in the instruction. -/
def stay (i : Ins) (pk : Park) (s : State) : State := s.updTh (fun t => { t with npc := nextPc i s, smark := i.s, park := pk })

/-- The thread stays in the instruction, parked, with its capture to come. -/
def hold (i : Ins) (pk : Park) (s : State) : State := stay i pk (captureHeld i s)

/-- An instruction whose result has number `tag` goes on, or waits in itself for that result where it acquires (R220). -/
def goOrAcquire (i : Ins) (acq : Bool) (tag : Nat) (s : State) : State :=
  let s := captureAs i tag s
  if acq then stay i (.acquire tag) (s.updTh (fun t => { t with held := none })) else leaveTo i (nextPc i s) s

/-- The registers of a result of `n` words, none where it is discarded (R19). -/
def destRegs (o : Opnds) (ws : List Word) : List (Nat × Word) :=
  match o.pd with
  | none => []
  | some p => ws.mapIdx (fun k v => (p + k, v))

def dwordWords (v : DWord) : List Word := [v.truncate 32, v.extractLsb' 32 32]

/-- An instruction whose one effect is its result: it has latency `lo` to `hi`, and the thread goes on. -/
def result (i : Ins) (o : Opnds) (ws : List Word) (lo hi : Nat) (s : State) : State :=
  finish i (addResult (destRegs o ws) lo (some hi) .none true s).2

/-! ## Checks in the order of R23 and R24 -/

/-- The word in front, as it stands in memory (R60). -/
def payloadWord (p : BitVec 25) : Word := packPayload p

/-- Whether a stream may run the word (R59, R67): the only payload a stream takes is a tile payload. -/
def streamOk (i : Ins) : Bool :=
  i.sh.uses.all Use.okStream && i.sh.extra && i.sh.stream
  && (match i.p, i.sh.pk with
      | none, _ => true
      | some p, .tile m => tilePayloadOk m p
      | some _, _ => false)

/-- What stands before the instruction's own effect (R23, R24): its prefix, its fields, the bounds of its registers, poison. DESIGN CHOICE (log entry
99): of several registers that fail, TINFO names that of field a before b before d. -/
def checkFail (i : Ins) (s : State) : Option Trap :=
  if !payloadOk i.sh i.p then some { cause := .illegal, info := match i.p with | some p => payloadWord p | none => i.word }
  else if !(i.sh.uses.all Use.okSimt && i.sh.extra && i.sh.simt) then some { cause := .illegal, info := i.word }
  else match i.sh.uses.findSome? (boundsFail s.th.wb s.warp.wi s.warp.regsPer i.alu) with
    | some p => some { cause := .regBounds, info := BitVec.ofNat 32 p }
    | none => match i.sh.uses.findSome? (poisonUse s i.alu) with
      | some p => some { cause := .poison, info := BitVec.ofNat 32 p }
      | none => none

/-- One instruction of a SIMT thread: its checks, then its effect. -/
def simtStep (i : Ins) (body : Opnds → State → State) (s : State) : State :=
  match checkFail i s with
  | some t => raise t s
  | none => body (operands i s) s

/-- An instruction whose rule admits no POISON trap (R104, R195, R247, R257): with a poisoned source it ends as `bad` says. -/
def simtQuiet (i : Ins) (bad : State → State) (body : Opnds → State → State) (s : State) : State :=
  match checkFail i s with
  | some t => if t.cause = .poison then bad s else raise t s
  | none => body (operands i s) s

/-- A floating-point instruction, which raises only ILLEGAL and REG_BOUNDS (R104): a poisoned operand is a free value (log entry 81). -/
def simtFloat (i : Ins) (body : Opnds → State → State) (s : State) : State :=
  simtQuiet i (fun s => body (freedOperands i s.freeCtr s) { s with freeCtr := s.freeCtr + 1 }) body s

/-! ## Streams -/

/-- A stream stops on a cause met by the instruction at `at_` (R279); one that stops already keeps its first cause. -/
def stopStreamAt (at_ : DWord) (cause : Nat) (s : State) : State :=
  match s.sq.park with
  | .stopping _ _ => s
  | _ => settleStop s.sq.n { s with sq := { s.sq with park := .stopping cause at_ } }

/-- A stream stops on a cause of the instruction at its PC. -/
def stopStream (cause : Nat) (s : State) : State := stopStreamAt (pc64 s.sq.pc) cause s

def nextPcS (i : Ins) (s : State) : PC := s.sq.pc + (if i.p.isSome then 8 else 4)

def gotoS (i : Ins) (pc : PC) (s : State) : State :=
  { s with sq := { s.sq with pc := pc, park := if i.s && !s.sq.pend.isEmpty then .switch else .none } }

def finishS (i : Ins) (s : State) : State := gotoS i (nextPcS i s) s

def holdS (i : Ins) (pk : SPark) (s : State) : State :=
  { s with sq := { s.sq with npc := nextPcS i s, smark := i.s, park := pk } }

/-- A stream instruction whose one effect is its result. -/
def resultS (i : Ins) (o : Opnds) (v : DWord) (lo hi : Nat) (s : State) : State :=
  finishS i (addResultS ((o.pd.toList).map (fun p => (p, v))) lo (some hi) true s).2

def streamStep (i : Ins) (body : Opnds → State → State) (s : State) : State :=
  if streamOk i then body (operandsC i s) s else stopStream stopIllegal s

/-! ## Instructions -/

/-- An instruction with an effect on a thread and one on a stream. -/
def run (i : Ins) (thread stream : Opnds → State → State) (s : State) : Answer :=
  match s.actor with
  | .stream => .next (streamStep i stream s)
  | _ => .next (simtStep i thread s)

/-- An instruction of a thread; a stream stops on it (R67). -/
def runThread (i : Ins) (thread : Opnds → State → State) (s : State) : Answer := run i thread (fun _ s => stopStream stopIllegal s) s

/-- An instruction of a thread that takes no POISON trap. -/
def runQuiet (i : Ins) (bad : State → State) (thread : Opnds → State → State) (s : State) : Answer :=
  match s.actor with
  | .stream => .next (streamStep i (fun _ s => stopStream stopIllegal s) s)
  | _ => .next (simtQuiet i bad thread s)

/-- A floating-point instruction of a thread (R104). -/
def runFloat (i : Ins) (thread : Opnds → State → State) (s : State) : Answer :=
  match s.actor with
  | .stream => .next (streamStep i (fun _ s => stopStream stopIllegal s) s)
  | _ => .next (simtFloat i thread s)

/-- An instruction of a stream; a thread takes ILLEGAL on it (R67). -/
def runStream (i : Ins) (stream : Opnds → State → State) (s : State) : Answer :=
  run i (fun _ s => raise { cause := .illegal, info := i.word } s) stream s

/-! ## Deferred traps (R267, R348, R353) -/

/-- The `CASCADE` a thread holds, as a trap. -/
def cascadeTrap (d : Deferred) : Trap :=
  { cause := .cascade, addr := d.gran, info := BitVec.ofNat 32 (d.aid % 512 + d.depth % 16 * 512 + min d.more 65535 * 65536) }

/-- An instruction before which a deferred trap is taken (R267, R348), unless the thread is in its handler. Until the thread's results are
complete the trap stays pending, and further refusals count (R29, R353). -/
def afterDeferred (k : State → State) (s : State) : State :=
  match s.th.deferred with
  | some d =>
    if s.th.inh then k s
    else if s.th.allReady then enterTrap (cascadeTrap d) (pc64 s.th.pc) true (s.updTh (fun t => { t with deferred := none }))
    else s.updTh (fun t => { t with park := .switch, smark := false })
  | none => k s

/-! ## The rest of a bundle -/

/-- The threads of the bundle that are still to execute the acting thread's instruction, it included. -/
def bundleRest (s : State) : List Thread :=
  s.th :: s.living.filter (fun t => !t.is s.th.slot s.th.lane && s.bundle.any (fun b => t.is b.1 b.2) && t.pc == s.th.pc && decide (t.park = .none))

end Sys2Proof.Machine
end

