-- ==== Sys2Proof/Machine/Xlat.lean ====
section
/-! DEFINITION. Address translation (R371 to R376): page-table entries, the walk, the TLBs of core, cluster and die, the walk
cache, and home addresses. -/

namespace Sys2Proof.Machine

open Sys2Proof

/-! ## Home addresses (R205, R387) -/

/-- The home address of a physical address at a module (none is this one). -/
def homeAddr (m : Option Nat) (pa : Nat) : Nat :=
  match m with
  | none => pa
  | some k => (k + 1) * 2 ^ 39 + pa

/-- Whether a home address lies in another module's memory, space X. -/
def isX (h : Nat) : Bool := decide (h ≥ 2 ^ 39)

def xModule (h : Nat) : Nat := h / 2 ^ 39 - 1

/-- Bytes of a checkpoint's region (Table 21-8). -/
def ckptBytes : Nat := 0x10000000 + 2 ^ 39

/-- The number of the byte at a target's base: its home address, or where the base lies beyond the addresses of X, a number of its own. -/
def targetHome (target base : Nat) : Nat := if base < 2 ^ 39 then (target + 1) * 2 ^ 39 + base else 2 ^ 50 + target * 2 ^ 65 + base

/-- The number of a checkpoint image's first byte. -/
def CkptImage.start (x : CkptImage) : Nat := targetHome x.target x.base

/-- A byte of another module, by its number, lies in the region at a target's base. -/
def inTarget (target base h : Nat) : Bool :=
  decide (targetHome target base ≤ h ∧ h < targetHome target base + ckptBytes) && (decide (2 ^ 39 ≤ base) || xModule h == target)

/-- What a checkpoint image has at a home address (Table 21-8): the state image, whose bytes are the device's, and the memory image; the
header is written as bytes. -/
def CkptImage.byteAt (x : CkptImage) (h : Nat) : Option Byte :=
  let o := h - x.start
  if inTarget x.target x.base h = false then none
  else if 0x1000 ≤ o ∧ o < 0x1000 + x.slen then some (Config.freeImage (x.hdr * 2 ^ 29 + o))
  else if 0x10000000 ≤ o ∧ o < 0x10000000 + 2 ^ 39 then some (getByte x.mem (o - 0x10000000))
  else none

/-- The byte a read served at the home gets. -/
def homeByte (s : State) (h : Nat) : Byte :=
  if isX h then (match soGet s.remote h with
    | some b => b
    | none => (s.images.findSome? (·.byteAt h)).getD (Config.freeRemote s.remoteEra h)) else getByte s.mem h

def homeBytes (s : State) (h n : Nat) : List Byte := (List.range n).map (fun i => homeByte s (h + i))

/-! ## Page-table entries (R372) -/

def pteBit (e : DWord) (k : Nat) : Bool := e.getLsbD k

/-- Bytes of a leaf's page (Table 19-5). -/
def pageBytes (lvl : Nat) : Nat := 2 ^ (12 + 9 * lvl)

/-- Physical bits of an entry. -/
def ptePa (e : DWord) : Nat := e.toNat / 2 ^ 12 % 2 ^ 27 * 4096

/-- Whether module `m` is in the domain and is not this one (R372). -/
def remoteOk (s : State) (m : Nat) : Bool := m != s.win.modnum && s.root.domain.any (·.m == m)

/-- A valid entry breaks a rule of R371 or R372. -/
def malformed (s : State) (lvl : Nat) (e : DWord) : Bool :=
  let n := e.toNat
  let rsv := n / 2 ^ 39 % 2 ^ 17 != 0 || n / 2 ^ 8 % 16 != 0 || pteBit e 2
  if pteBit e 1 then rsv || lvl == 0 || n / 2 ^ 3 % 32 != 0 || n / 2 ^ 56 != 0
  else rsv || decide (lvl ≥ 3) || (lvl == 2 && pteBit e 6) || ptePa e % pageBytes lvl != 0
    || (if pteBit e 7 then !remoteOk s (n / 2 ^ 56) else n / 2 ^ 56 != 0)

/-- Whether an entry's permissions admit an access (R372). -/
def permits (r w x : Bool) : Acc → Bool
  | .read => r
  | .write => w
  | .atomic => r && w
  | .fetch => x

/-! ## The walk (R371, R374) -/

/-- Key of a walk-cache entry: context, level, and the address bits above what the entry covers. -/
def walkKey (c lvl va : Nat) : Nat := (c * 8 + lvl) * 2 ^ 57 + va % 2 ^ 57 / pageBytes lvl

/-- How a walk ends: a leaf, or a fault with kind, level and entry (Table 19-7). `seen` are the table entries it read. -/
inductive WalkEnd where
  | leaf (lvl : Nat) (e : DWord) (seen : List (Nat × DWord))
  | fault (kind lvl : Nat) (e : DWord)
  deriving DecidableEq, Repr

/-- The walk from a table at a level down. DESIGN CHOICE (log entry 95): a poisoned entry, whose value nothing gets (R357), counts as a malformed one,
and the fault's record shows 0 for it. -/
def walkFrom (s : State) (c va : Nat) (acc : Acc) : Nat → Nat → List (Nat × DWord) → WalkEnd
  | lvl, table, seen =>
    let addr := table + va / pageBytes lvl % 512 * 8
    let hit := s.xl.walkCache.find? (·.1 == walkKey c lvl va)
    let e : DWord := match hit with
      | some x => x.2
      | none => BitVec.ofNat 64 (getLe s.mem addr 8)
    if hit.isNone && s.sl.poison.contains (addr / 64) then .fault 2 lvl 0
    else if !pteBit e 0 then .fault 0 lvl e
    else if malformed s lvl e then .fault 2 lvl e
    else if pteBit e 1 then
      match lvl with
      | 0 => .fault 2 0 e
      | n + 1 => walkFrom s c va acc n (ptePa e) ((walkKey c lvl va, e) :: seen)
    else if permits (pteBit e 3) (pteBit e 4) (pteBit e 5) acc then .leaf lvl e seen
    else .fault 1 lvl e

/-- The walk of a context's page tables. -/
def walkPage (s : State) (c va : Nat) (acc : Acc) : WalkEnd :=
  walkFrom s c (va % 2 ^ 57) acc 4 ((s.ctx? c).map (·.ptRoot) |>.getD 0) []

/-- The translation a leaf gives. -/
def leafEnt (c va lvl : Nat) (e : DWord) : TlbEnt :=
  { ctx := c
    vpage := va % 2 ^ 57 / pageBytes lvl * 512 ^ lvl
    pages := 512 ^ lvl
    ppage := ptePa e / 4096
    remote := if pteBit e 7 then some (e.toNat / 2 ^ 56) else none
    r := pteBit e 3, w := pteBit e 4, x := pteBit e 5 }

/-- The group translation built from a leaf of a contiguous group (R373): 16 pages of its size, aligned, with its attributes. In a group
that keeps the rules it agrees with the leaf's own. DESIGN CHOICE (log entry 71): in one that breaks them the leaf's address, aligned
to the group's size, is the group's. -/
def groupEnt (t : TlbEnt) : TlbEnt :=
  let n := 16 * t.pages
  { t with vpage := t.vpage / n * n, pages := n, ppage := t.ppage / n * n }

/-! ## TLBs (R374) -/

def TlbEnt.covers (t : TlbEnt) (c va : Nat) (acc : Acc) : Bool :=
  let p := va % 2 ^ 57 / 4096
  t.ctx == c && decide (t.vpage ≤ p ∧ p < t.vpage + t.pages) && permits t.r t.w t.x acc

/-- The home address an entry gives. -/
def TlbEnt.home (t : TlbEnt) (va : Nat) : Nat :=
  homeAddr t.remote ((t.ppage + (va % 2 ^ 57 / 4096 - t.vpage)) * 4096 + va % 4096)

/-- An entry joins a TLB of `cap` entries, the oldest leaving. -/
def tlbAdd (cap : Nat) (l : List TlbEnt) (t : TlbEnt) : List TlbEnt :=
  (t :: l.filter (fun x => !(x.ctx == t.ctx && x.vpage == t.vpage && x.pages == t.pages))).take cap

def tlbHit (l : List TlbEnt) (c va : Nat) (acc : Acc) : Option TlbEnt := l.find? (·.covers c va acc)

/-- A translation the core, the cluster or the die holds; the levels below it take the entry. None is a miss. -/
def translate (c va : Nat) (acc : Acc) (s : State) : Option Nat × State :=
  match tlbHit s.xl.coreTlb c va acc with
  | some t => (some (t.home va), s)
  | none =>
    match tlbHit s.xl.clusterTlb c va acc with
    | some t => (some (t.home va), { s with xl := { s.xl with coreTlb := tlbAdd 64 s.xl.coreTlb t } })
    | none =>
      match tlbHit s.xl.dieTlb c va acc with
      | some t => (some (t.home va), { s with xl := { s.xl with
          coreTlb := tlbAdd 64 s.xl.coreTlb t, clusterTlb := tlbAdd 1024 s.xl.clusterTlb t } })
      | none => (none, s)

/-- A translation for the cluster's engines, from the cluster TLB on. -/
def translateCl (c va : Nat) (acc : Acc) (s : State) : Option Nat × State :=
  match tlbHit s.xl.clusterTlb c va acc with
  | some t => (some (t.home va), s)
  | none =>
    match tlbHit s.xl.dieTlb c va acc with
    | some t => (some (t.home va), { s with xl := { s.xl with clusterTlb := tlbAdd 1024 s.xl.clusterTlb t } })
    | none => (none, s)

/-- A miss waits for a walk; misses on one page of one context are one walk. -/
def wantWalk (c va : Nat) (acc : Acc) (s : State) : State :=
  let p := va % 2 ^ 57 / 4096
  if s.xl.walks.any (fun w => w.ctx == c && w.page == p) then s
  else { s with xl := { s.xl with walks := s.xl.walks ++ [{ ctx := c, page := p, acc := acc }] } }

/-- The miss of an engine, or of the core's dispatcher: an entry of a TLB above its own, or the walk it waits for. -/
def engMiss (m c va : Nat) (acc : Acc) (s : State) : State :=
  match (if m = s.coreNo then translate c va acc s else translateCl c va acc s) with
  | (some _, s) => s
  | (none, s) =>
    let s := wantWalk c va acc s
    let mine := fun (w : Walk) => w.ctx == c && w.page == va % 2 ^ 57 / 4096 && !w.engs.contains (m, acc)
    { s with xl := { s.xl with walks := updIf mine (fun w => { w with engs := w.engs ++ [(m, acc)] }) s.xl.walks } }

/-- The translation that a walk's leaf leaves in the TLBs: its own, or its group's. -/
def leafTaken (c va lvl : Nat) (e : DWord) (s : State) : TlbEnt × State :=
  let t := leafEnt c va lvl e
  if pteBit e 6 then let (i, s) := s.draw; (if Config.groupTaken i then groupEnt t else t, s) else (t, s)

/-- What a walk that found a leaf puts into the TLBs and the walk cache; the core's own TLB takes it for a miss of the core. -/
def learnLeaf (core : Bool) (t : TlbEnt) (seen : List (Nat × DWord)) (s : State) : State :=
  { s with xl := { s.xl with
      coreTlb := if core then tlbAdd 64 s.xl.coreTlb t else s.xl.coreTlb
      clusterTlb := tlbAdd 1024 s.xl.clusterTlb t
      dieTlb := tlbAdd 16384 s.xl.dieTlb t
      walkCache := (seen ++ s.xl.walkCache.filter (fun x => !seen.any (·.1 == x.1))).take 256 } }

/-- An entry translates an address of a context's range [lo, hi). -/
def TlbEnt.meets (t : TlbEnt) (c lo hi : Nat) : Bool := t.ctx == c && decide (t.vpage * 4096 < hi ∧ lo < (t.vpage + t.pages) * 4096)

/-- The home address `h` is one that an entry for the context's range gives. -/
def droppedHome (s : State) (c lo hi h : Nat) : Bool :=
  (s.xl.coreTlb ++ s.xl.clusterTlb ++ s.xl.dieTlb).any (fun t => t.meets c lo hi && decide (t.home (t.vpage * 4096) ≤ h ∧ h < t.home (t.vpage * 4096) + t.pages * 4096))

/-- Every entry that translates an address of a context's range [lo, hi) is dropped (R376, R379), and what was read by those addresses: the
fetch unit's units, instruction words, and pages found for a range instruction. -/
def dropTranslations (c lo hi : Nat) (s : State) : State :=
  let keep := fun (t : TlbEnt) => !t.meets c lo hi
  let keepW := fun (x : Nat × DWord) =>
    let tag := x.1 / 2 ^ 57
    let size := pageBytes (tag % 8)
    let base := x.1 % 2 ^ 57 * size
    !(tag / 8 == c && decide (base < hi ∧ lo < base + size))
  let keepU := fun (u : FetchedUnit) => !(u.ctx == c && u.bytes.any (fun b => decide (lo ≤ b.1 ∧ b.1 < hi)))
  let forget := fun (t : Thread) => match t.park with
    | .icinv _ _ _ => t
    | _ => { t with found := t.found.filter (fun x => !decide (x.1 * 4096 < hi ∧ lo < (x.1 + 1) * 4096)) }
  let s := if s.pl.ctx = some c then s.updThreads (fun t => !t.found.isEmpty) forget else s
  { s with
    icache := s.icache.filter (fun x => !(x.1 / 2 ^ 57 == c && decide (lo ≤ x.1 % 2 ^ 57 ∧ x.1 % 2 ^ 57 < hi)))
    cl := { s.cl with fetchCache := s.cl.fetchCache.filter keepU }
    xl := { s.xl with
      coreTlb := s.xl.coreTlb.filter keep
      clusterTlb := s.xl.clusterTlb.filter keep
      dieTlb := s.xl.dieTlb.filter keep
      walkCache := s.xl.walkCache.filter keepW } }

/-- The translation the device itself makes under a context's tables when it maps or watches (R156, R255): the home address. -/
def probe (s : State) (c va : Nat) (acc : Acc) : Option Nat :=
  match walkPage s c va acc with
  | .leaf lvl e _ => some ((leafEnt c va lvl e).home va)
  | .fault _ _ _ => none

/-! ## Data accesses of a thread (R375) -/

/-- The context the core runs. -/
def State.ctxNo (s : State) : Nat := s.pl.ctx.getD 0

/-- A TLB's entry for a page, whatever it permits. -/
def pageHit (l : List TlbEnt) (c page : Nat) : Option TlbEnt := l.find? (fun t => t.ctx == c && decide (t.vpage ≤ page ∧ page < t.vpage + t.pages))

/-- The home page of a page that the core, the cluster or the die holds; the levels below take the entry. -/
def pageFound (c page : Nat) (s : State) : Option Nat × State :=
  match pageHit s.xl.coreTlb c page with
  | some t => (some (t.home (page * 4096)), s)
  | none => match pageHit s.xl.clusterTlb c page with
    | some t => (some (t.home (page * 4096)), { s with xl := { s.xl with coreTlb := tlbAdd 64 s.xl.coreTlb t } })
    | none => match pageHit s.xl.dieTlb c page with
      | some t => (some (t.home (page * 4096)), { s with xl := { s.xl with coreTlb := tlbAdd 64 s.xl.coreTlb t, clusterTlb := tlbAdd 1024 s.xl.clusterTlb t } })
      | none => (none, s)

/-- The acting thread's range instruction finds the pages that TLBs hold; answers the first that none holds. -/
def findPages (c : Nat) : List Nat → State → Option Nat × State
  | [], s => (none, s)
  | p :: t, s =>
    if s.th.found.any (·.1 == p) then findPages c t s
    else match pageFound c p s with
      | (some h, s) => findPages c t (s.updTh (fun x => { x with found := x.found ++ [(p, some h)] }))
      | (none, s) => (some p, s)

/-- The pages of `n` bytes from `va` on. -/
def rangePages (va n : Nat) : List Nat := (List.range ((va % 4096 + n + 4095) / 4096)).map (fun k => (va / 4096 + k) % 2 ^ 45)

/-- A range instruction of the acting thread translates its pages, whatever they permit (R98, R246, R255); for one that no TLB holds the
thread waits for a walk, and the instruction replays. -/
def withPages (pages : List Nat) (k : List (Nat × Option Nat) → State → State) (s : State) : State :=
  match findPages s.ctxNo pages s with
  | (none, s) => k s.th.found s
  | (some p, s) => (wantWalk s.ctxNo (p * 4096) .read s).updTh (fun t => { t with park := .pages p })

/-- The home page that a range instruction found for a page. -/
def homeOf (pages : List (Nat × Option Nat)) (p : Nat) : Option Nat := (pages.find? (·.1 == p)).bind (·.2)

/-- Translates a data access of the acting thread; on a miss the thread waits and the instruction replays. -/
def withHome (va : DWord) (acc : Acc) (k : Nat → State → State) (s : State) : State :=
  match translate s.ctxNo va.toNat acc s with
  | (some h, s) => k h s
  | (none, s) => (wantWalk s.ctxNo va.toNat acc s).updTh (fun t => { t with park := .walk va.toNat acc })

/-- The same for a stream (R278, R279). -/
def withHomeS (va : DWord) (acc : Acc) (k : Nat → State → State) (s : State) : State :=
  match translateCl s.ctxNo va.toNat acc s with
  | (some h, s) => k h s
  | (none, s) =>
    let s := wantWalk s.ctxNo va.toNat acc s
    { s with sq := { s.sq with park := .walk va.toNat acc } }

end Sys2Proof.Machine
end

