-- ==== Sys2Proof/Machine/Cache.lean ====
section
/-! DEFINITION. The core's L1 and the messages between the core and the homes (R209, R210, R215, R216, R233, R237): write-backs,
fills, write-through stores and atomics on their way, and the rule that keeps one core's requests to one line in order. -/

namespace Sys2Proof.Machine

open Sys2Proof

/-! ## Messages (R209) -/

/-- Sends a message: it joins the core's messages last. -/
def netSend (b : MsgBody) (s : State) : Nat × State :=
  let (id, s) := s.fresh
  (id, { s with pl := { s.pl with net := s.pl.net ++ [{ id := id, body := b }] } })

def netUpd (id : Nat) (f : MsgBody → MsgBody) (s : State) : State :=
  { s with pl := { s.pl with net := updIf (·.id == id) (fun m => { m with body := f m.body }) s.pl.net } }

def netDrop (id : Nat) (s : State) : State := { s with pl := { s.pl with net := s.pl.net.filter (·.id != id) } }

/-- The line of a message. -/
def bodyLine : MsgBody → Nat
  | .fill f => f.line
  | .write w => match w.ws with | [] => 0 | x :: _ => lineOf x.1
  | .atomic a => match a.steps with | [] => 0 | x :: _ => lineOf x.pa
  | .mcast m => m.line

/-- The home has served the message. -/
def bodyServed : MsgBody → Bool
  | .fill f => f.reply.isSome
  | .write w => w.ack.isSome
  | .atomic a => a.ack.isSome
  | .mcast _ => false

/-- The messages ahead of one. -/
def netBefore (s : State) (id : Nat) : List Msg := s.pl.net.takeWhile (·.id != id)

/-- A message of the other plane to a line is older than number `id` and not served. -/
def otherBefore (s : State) (id line : Nat) : Bool :=
  s.standby.plane.net.any (fun x => decide (x.id < id) && bodyLine x.body == line && !bodyServed x.body)

/-- The home may serve a message: every earlier one of the core to its line has been served, of either plane (R209). -/
def mayServe (s : State) (m : Msg) : Bool :=
  !bodyServed m.body && (netBefore s m.id).all (fun x => bodyLine x.body != bodyLine m.body || bodyServed x.body)
  && !otherBefore s m.id (bodyLine m.body)

/-- The answer to a message may arrive: no earlier one to its line is left. -/
def mayReturn (s : State) (m : Msg) : Bool :=
  bodyServed m.body && (netBefore s m.id).all (fun x => bodyLine x.body != bodyLine m.body)

/-! ## The lines of the L1 (R186, R210) -/

def l1Find (s : State) (line : Nat) : Option L1Line := s.pl.l1.find? (·.line == line)

def l1Put (l : L1Line) (s : State) : State :=
  { s with pl := { s.pl with l1 := l :: s.pl.l1.filter (·.line != l.line) } }

def l1Drop (line : Nat) (s : State) : State := { s with pl := { s.pl with l1 := s.pl.l1.filter (·.line != line) } }

/-- Bits `lo .. lo + n - 1`. -/
def bitSpan (lo n : Nat) : Nat := (2 ^ n - 1) * 2 ^ lo

def spanAll (mask lo n : Nat) : Bool := decide (mask / 2 ^ lo % 2 ^ n = 2 ^ n - 1)
def spanAny (mask lo n : Nat) : Bool := decide (mask / 2 ^ lo % 2 ^ n ≠ 0)

/-- The dirty bytes of a line with their home addresses. -/
def dirtyBytes (l : L1Line) : List (Nat × Byte) :=
  ((List.range 128).filter (fun k => l.dirty.testBit k)).map (fun k => (l.line * 128 + k, stGet 0 l.bytes k))

/-- The poisoned dirty sectors of a line (R356). -/
def dirtyPoison (l : L1Line) : List Nat :=
  (if l.poison0 && spanAny l.dirty 0 64 then [l.line * 2] else []) ++ (if l.poison1 && spanAny l.dirty 64 64 then [l.line * 2 + 1] else [])

/-- A dirty byte of the core is poisoned (R356). -/
def dirtyBad (s : State) (a : Nat) : Bool :=
  match l1Find s (lineOf a) with
  | some l => !isX a && l.dirty.testBit (a % 128) && (if a % 128 < 64 then l.poison0 else l.poison1)
  | none => false

/-- Changes the loads of every read on its way. -/
def updReads (f : List LoadWait → List LoadWait) (s : State) : State :=
  { s with
    pl := { s.pl with net := s.pl.net.map (fun m => { m with body := match m.body with
      | .fill x => .fill { x with waits := f x.waits }
      | .mcast x => .mcast { x with waits := f x.waits }
      | b => b }) }
    sl := { s.sl with windows := s.sl.windows.map (fun w => { w with reqs := w.reqs.map (fun x => { x with waits := f x.waits }) }) } }

/-- A load learns bytes it asks for and does not know yet; `bad` are poisoned sectors among them (R357). -/
def LoadWait.learn (bs : List (Nat × Option Byte)) (bad : List Nat) (w : LoadWait) : LoadWait :=
  let new := bs.filter (fun x => decide (w.pa ≤ x.1 ∧ x.1 < w.pa + w.size) && !w.known.any (·.1 == x.1))
  { w with known := w.known ++ new, bad := w.bad || new.any (fun x => bad.contains (x.1 / 64)) }

/-- Loads of threads learn bytes. -/
def learnAll (bs : List (Nat × Option Byte)) (bad : List Nat) (l : List LoadWait) : List LoadWait :=
  l.map (fun w => if w.stream.isSome then w else w.learn bs bad)

/-- A fill on its way that would bring an old copy of a sector installs none (R224, R233, R237). -/
def cancelFills (p : Fill → Bool) (line sec : Nat) (s : State) : State :=
  { s with pl := { s.pl with net := s.pl.net.map (fun m => match m.body with
    | .fill f => if f.line == line && f.sec == sec && p f then { m with body := .fill { f with alloc := false } } else m
    | _ => m) } }

/-- The sector's copy is no longer valid. -/
def l1Invalidate (line sec : Nat) (s : State) : State :=
  match l1Find s line with
  | none => s
  | some l => l1Put (if sec = 0 then { l with valid0 := false } else { l with valid1 := false }) s

/-- The core keeps no copy of the sector, and takes none from a fill on its way. -/
def l1Lose (line sec : Nat) (s : State) : State := l1Invalidate line sec (cancelFills (fun _ => true) line sec s)

/-- A thread has read a byte at the home: its core's copy of the sector, and one on its way, may be older, and no later load of the
thread may get it (R224). -/
def l1Forget (h : Nat) (s : State) : State := if isX h then s else l1Lose (lineOf h) (h % 128 / 64) s

/-- The same where the read leaves for the home now: fills ahead of it bring older copies, but for that of its own bundle. -/
def l1Renew (h : Nat) (s : State) : State :=
  if isX h then s
  else l1Invalidate (lineOf h) (h % 128 / 64) (cancelFills (fun f => f.bundle != s.bundleNo || f.reply.isSome) (lineOf h) (h % 128 / 64) s)

/-- Writes back a line's dirty bytes on behalf of a writer (R216); the loads on their way keep the bytes that leave, and fills on their way,
which lack them, install no copy (R224); answers the message. The line stays, clean. -/
def writeBack (line : Nat) (w : Writer) (s : State) : Option Nat × State :=
  match l1Find s line with
  | none => (none, s)
  | some l =>
    if l.dirty = 0 then (none, s)
    else
      let m : WriteMsg := { ws := dirtyBytes l, writer := w, depth := l.depth, tag := l.scope, who := l.who, bundle := l.bundle, poison := dirtyPoison l, ctx := l.ctx }
      let s := updReads (learnAll ((dirtyBytes l).map (fun x => (x.1, some x.2))) (dirtyPoison l)) s
      let s := if spanAny l.dirty 0 64 then cancelFills (fun _ => true) line 0 s else s
      let s := if spanAny l.dirty 64 64 then cancelFills (fun _ => true) line 1 s else s
      let (id, s) := netSend (.write m) (l1Put { l with dirty := 0, scope := 0, depth := 0, who := [], bundle := 0 } s)
      (some id, s)

/-- Writes back every line that satisfies `p`; answers the messages. -/
def writeBackAll (p : L1Line → Bool) (w : Writer) (s : State) : List Nat × State :=
  ((s.pl.l1.filter (fun l => l.dirty != 0 && p l)).map (·.line)).foldl (fun (x : List Nat × State) line =>
    let (id, s) := writeBack line w x.2; (x.1 ++ id.toList, s)) ([], s)

/-- The way that leaves a full set: the least recently used line that is not marked keep, else of all (R186, R233). -/
def victim (ls : List L1Line) : Option L1Line :=
  let pick := fun (xs : List L1Line) => xs.foldl (fun (b : Option L1Line) l =>
    match b with
    | none => some l
    | some v => if l.used < v.used then some l else some v) none
  match pick (ls.filter (fun l => !l.keep)) with
  | some l => some l
  | none => pick ls

/-- A line leaves the L1, its dirty bytes written back (R216). -/
def evict (line : Nat) (s : State) : Option Nat × State :=
  let (id, s) := writeBack line .evict s
  (id, l1Drop line s)

/-- The banks of the way set: C banks but for those of a C write-back that has started (R190, R191). -/
def wayBanks (s : State) : List Nat :=
  let gone := match s.pl.shake with
    | some (.writeback ks _ _ _) => ks
    | _ => []
  (banksOf s.pl.pmap .cache).filter (fun k => !gone.contains k)

/-- The line is in the L1, without a fill; a full set evicts. -/
def l1Ensure (line : Nat) (s : State) : L1Line × State :=
  let (stamp, s) := s.fresh
  match l1Find s line with
  | some l => ({ l with used := stamp }, s)
  | none =>
    let ways := wayBanks s
    let mates := s.pl.l1.filter (fun l => l.line % 128 == line % 128 && ways.contains l.bank)
    match ways.find? (fun k => !mates.any (·.bank == k)) with
    | some k => ({ line := line, bank := k, used := stamp }, s)
    | none =>
      match victim mates with
      | some v => ({ line := line, bank := v.bank, used := stamp }, (evict v.line s).2)
      | none => ({ line := line, bank := 30, used := stamp }, s)

/-- A number joins a list that holds none twice. -/
def joinNo (l : List Nat) (n : Nat) : List Nat := if l.contains n then l else l ++ [n]

/-- The write-back of a line that an earlier store of the same bundle dirtied, where the line has left the L1 meanwhile: the
bundle's stores to the line are one request (R97). -/
def bundleEvict (s : State) (bundle line : Nat) : Option Msg :=
  s.pl.net.find? (fun m => match m.body with
    | .write w => decide (w.writer = .evict) && w.bundle == bundle && bodyLine m.body == line && w.ack.isNone
    | _ => false)

/-- A store of a thread at scope thread, warp or block (R97, R215, R259). -/
def l1Write (h : Nat) (bs : List Byte) (scope depth uid bundle : Nat) (keep : Bool) (s : State) : State :=
  match (if (l1Find s (lineOf h)).isNone then bundleEvict s bundle (lineOf h) else none) with
  | some m => netUpd m.id (fun b => match b with
      | .write w => .write { w with
          ws := w.ws.filter (fun x => !(atAddr h bs).any (·.1 == x.1)) ++ atAddr h bs
          depth := max w.depth depth, tag := max w.tag scope, who := joinNo w.who uid }
      | b => b) s
  | none =>
    let (l, s) := l1Ensure (lineOf h) s
    l1Put { l with
      bytes := stSetAll 0 l.bytes (atAddr (h % 128) bs)
      dirty := l.dirty ||| bitSpan (h % 128) bs.length
      scope := if l.dirty = 0 then scope else max l.scope scope
      depth := if l.dirty = 0 then depth else max l.depth depth
      who := if l.dirty = 0 then [uid] else joinNo l.who uid
      bundle := bundle
      ctx := s.ctxNo
      keep := l.keep || keep } s

/-- Bytes of a line's copy that a write-back has taken and whose commit is not known to the core yet: they are not a copy of what
the home holds (R224). -/
def inWriteBack (s : State) (h n : Nat) : Bool :=
  s.pl.net.any (fun m => match m.body with
    | .write w => (match w.writer with | .forced _ => true | .evict => true | _ => false) && w.ws.any (fun x => decide (h ≤ x.1 ∧ x.1 < h + n))
    | _ => false)

/-- What the L1 gives for a read of one sector (R210): bytes, with the value time when a valid sector gives some; or poison. -/
inductive L1Read where
  | hit (bs : List Byte) (vt : Option Nat)
  | poisoned
  | miss
  deriving DecidableEq, Repr

def sectorOk (s : State) (l : L1Line) (sec : Nat) : Bool :=
  if sec = 0 then l.valid0 && decide (s.clock.tbase < l.exp0) else l.valid1 && decide (s.clock.tbase < l.exp1)

def l1Read (s : State) (h n : Nat) : L1Read :=
  match l1Find s (lineOf h) with
  | none => .miss
  | some l =>
    let o := h % 128
    let sec := o / 64
    let bs := (List.range n).map (fun k => stGet 0 l.bytes (o + k))
    if spanAll l.dirty o n then (if (if sec = 0 then l.poison0 else l.poison1) then .poisoned else .hit bs none)
    else if sectorOk s l sec && !inWriteBack s h n then
      if (if sec = 0 then l.poison0 else l.poison1) then .poisoned else .hit bs (some (if sec = 0 then l.vt0 else l.vt1))
    else .miss

/-- Marks a line as used now. -/
def l1Touch (line : Nat) (s : State) : State :=
  match l1Find s line with
  | none => s
  | some l => let (stamp, s) := s.fresh; l1Put { l with used := stamp } s

/-- The loads of a line that threads have on their way do not see the stores that these threads make now (R22): a byte they ask for is the one
that is dirty in the L1 now, else the home's; and so it is for the other loads of the same read, which a bundle made as one (R97). -/
def holdLoads (who : List (Nat × Nat)) (line : Nat) (s : State) : State :=
  let addrs := (List.range 128).map (fun k => line * 128 + k)
  let now := fun (a : Nat) => match l1Find s line with
    | some l => if l.dirty.testBit (a % 128) then some (stGet 0 l.bytes (a % 128)) else none
    | none => none
  let bad := (addrs.filter (fun a => dirtyBad s a)).map (· / 64)
  let mine := fun (w : LoadWait) => w.stream.isNone && who.contains (w.slot, w.lane) && lineOf w.pa == line
  updReads (fun l => if l.any mine then learnAll (addrs.map (fun a => (a, now a))) bad l else l) s

/-- A fill installs its sector without touching dirty bytes (R210). -/
def l1Install (line sec : Nat) (bs : List Byte) (exp vt : Nat) (keep : Bool) (s : State) : State :=
  let (l, s) := l1Ensure line s
  let ws := (atAddr (sec * 64) bs).filter (fun w => !l.dirty.testBit w.1)
  let l := { l with bytes := stSetAll 0 l.bytes ws, keep := keep }
  l1Put (if sec = 0 then { l with valid0 := true, exp0 := exp, vt0 := vt, poison0 := l.poison0 && spanAny l.dirty 0 64 }
    else { l with valid1 := true, exp1 := exp, vt1 := vt, poison1 := l.poison1 && spanAny l.dirty 64 64 }) s

/-- The copy that a core holds of a written line carries the write's completion time from its acknowledgement on (R214, R224). -/
def l1Stamp (ws : List (Nat × Byte)) (wct : Nat) (s : State) : State :=
  match ws with
  | [] => s
  | x :: _ => match l1Find s (lineOf x.1) with
    | none => s
    | some l => l1Put { l with
        vt0 := if ws.any (fun w => w.1 % 128 / 64 == 0) then max l.vt0 wct else l.vt0
        vt1 := if ws.any (fun w => w.1 % 128 / 64 == 1) then max l.vt1 wct else l.vt1 } s

/-- The core takes acknowledged write-through bytes into the copy it holds (R215). -/
def l1Take (ws : List (Nat × Byte)) (s : State) : State :=
  match ws with
  | [] => s
  | x :: _ => match l1Find s (lineOf x.1) with
    | none => s
    | some l => l1Put { l with bytes := stSetAll 0 l.bytes ((ws.filter (fun w => !l.dirty.testBit (w.1 % 128))).map (fun w => (w.1 % 128, w.2))) } s

/-! ## A thread's own writes that are not acknowledged (R215, R22) -/

/-- The bytes that its latest waiting writes give a thread, and whether they are all of those it asks for. -/
def ownBytes (ws : List (Nat × Byte)) (h n : Nat) : Option (List Byte) :=
  let at_ := fun (a : Nat) => (ws.reverse.find? (·.1 == a)).map (·.2)
  if (List.range n).all (fun k => (at_ (h + k)).isSome) then some ((List.range n).map (fun k => (at_ (h + k)).getD 0)) else none

def overlapsSpan (ws : List (Nat × Byte)) (h n : Nat) : Bool := ws.any (fun w => decide (h ≤ w.1 ∧ w.1 < h + n))

/-- Writes of a thread that wait for a release point. -/
def ownQueue (s : State) (uid : Nat) : List Queued := s.pl.storeQ.filter (·.uid == uid)

/-- The bytes of a thread's write-through requests on their way. -/
def ownSent (s : State) (uid : Nat) : List (Nat × Byte) :=
  s.pl.net.flatMap (fun m => match m.body with
    | .write w => match w.writer with
      | .threads who => if who.any (·.uid == uid) then w.ws else []
      | _ => []
    | _ => [])

/-- A thread has writes on their way that no answer has come for: its PCT counts as unbounded (R214). -/
def writesOpen (s : State) (uid : Nat) : Bool :=
  s.pl.net.any (fun m => match m.body with
    | .write w => match w.writer with
      | .threads who => who.any (·.uid == uid)
      | .forced u => u == uid || w.who.contains uid
      | _ => w.who.contains uid
    | .atomic a => a.steps.any (·.uid == uid)
    | _ => false)

/-- The space of a home address by its bit in a storage mask (R218). -/
def spaceOf (h : Nat) : Nat := if isX h then 2 else 1

/-- The space of a waiting write, and its bytes. -/
def Queued.space (q : Queued) : Nat :=
  match q.scratch, q.atom, q.ws with
  | some _, _, _ => 0
  | none, some a, _ => spaceOf a.pa
  | none, none, (h, _) :: _ => spaceOf h
  | none, none, [] => 1

/-- A waiting write touches the line of `h` in a space. -/
def Queued.touches (q : Queued) (space h : Nat) : Bool :=
  q.space == space && (match q.atom with | some a => lineOf a.pa == lineOf h | none => q.ws.any (fun x => lineOf x.1 == lineOf h))

/-- A waiting write holds a later one of its thread: that lies in a space of the release's mask, or touches the same line (R22, R218,
R219). -/
def Queued.holds (q : Queued) (space h : Nat) : Bool :=
  (match q.rel with | some (_, m) => m.getLsbD space | none => false) || q.touches space h

/-- The first byte of a waiting write. -/
def Queued.addr (q : Queued) : Nat :=
  match q.atom with
  | some a => a.pa
  | none => (q.ws.head?.map (·.1)).getD 0

/-- An earlier write or put of its thread holds a waiting write. -/
def queuedHeld (s : State) (q : Queued) : Bool :=
  (ownQueue s q.uid).any (fun x => decide (x.seq < q.seq) && x.holds q.space q.addr)
  || (q.space == 1 && s.pl.puts.any (fun x => x.uid == q.uid && decide (x.seq < q.seq)))

/-- A write of the thread to `h` in a space must wait behind one of its releases that has not reached its point (R219). A `qput`
releases over G (R154). -/
def writeHeld (s : State) (uid space h : Nat) : Bool :=
  (ownQueue s uid).any (·.holds space h) || (space == 1 && s.pl.puts.any (·.uid == uid))

end Sys2Proof.Machine
end

