-- ==== Sys2Proof/Machine/Mem.lean ====
section
/-! DEFINITION. Memory accesses at issue and the points of releases and acquires (R94 to R97, R214, R215, R219 to R221, R231 to
R239): addresses, loads, stores, atomics, and what a release waits for. -/

namespace Sys2Proof.Machine

open Sys2Proof

/-! ## The memory payload (R62) -/

/-- The ordering an access carries: acquire, release, agent scope, storage mask (S, G, X from bit 0), hint. -/
structure MemOrd where
  acq : Bool := false
  rel : Bool := false
  scope : Nat := 0
  mask : BitVec 3 := 0
  hint : Nat := 0
  deriving DecidableEq, Repr

def memOrd (p : Payload) : MemOrd :=
  match p with
  | none => {}
  | some p => { acq := p.getLsbD 24, rel := p.getLsbD 23, scope := pbits p 20 3, mask := p.extractLsb' 17 3, hint := pbits p 15 2 }

/-- Whether a home address lies in a space of a mask. -/
def inMask (mask : BitVec 3) (h : Nat) : Bool := if isX h then mask.getLsbD 2 else mask.getLsbD 1

/-! ## Addresses (R95) -/

/-- The global address of an access. -/
def globalAddr (base : DWord) (imm : BitVec 7) (size : Nat) : DWord := base + imm.signExtend 64 * BitVec.ofNat 64 size

/-- What the address checks of a global access refuse. -/
def globalFail (addr : DWord) (size : Nat) : Option Trap :=
  if !canonical addr then some { cause := .addrCanon, addr := addr }
  else if addr.toNat % size ≠ 0 then some { cause := .align, addr := addr, info := BitVec.ofNat 32 size }
  else none

/-- The scratch offset of an access: an unbounded integer. -/
def scratchOff (base : Word) (imm : BitVec 7) (size : Nat) : Int := (base.toNat : Int) + imm.toInt * size

/-- Scratch bytes of the acting thread's block; a free warp has none (R135). -/
def scratchSize (s : State) : Nat := (s.thBlock.map (·.scratch)).getD 0

def scratchFail (off : Int) (size bytes : Nat) : Option Trap :=
  let shown := (BitVec.ofInt 32 off).signExtend 64
  if off % (size : Int) ≠ 0 then some { cause := .align, addr := shown, info := BitVec.ofNat 32 size }
  else if off < 0 ∨ off + size > bytes then some { cause := .scratchBounds, addr := shown, info := BitVec.ofNat 32 size }
  else none

/-! ## Values -/

/-- The words a load of `size` bytes writes (Table 4-6). -/
def loadWords (size : Nat) (signed : Bool) (bs : List Byte) : List Word :=
  let v := leNat bs
  match size with
  | 1 => [if signed then (BitVec.ofNat 8 v).signExtend 32 else BitVec.ofNat 32 v]
  | 2 => [if signed then (BitVec.ofNat 16 v).signExtend 32 else BitVec.ofNat 32 v]
  | n => (List.range (n / 4)).map (fun j => BitVec.ofNat 32 (v / 2 ^ (32 * j)))

/-- The c-register value of a stream's load (Table 4-1). -/
def loadC (size : Nat) (signed : Bool) (bs : List Byte) : DWord :=
  let v := leNat bs
  match size, signed with
  | 1, true => (BitVec.ofNat 8 v).signExtend 64
  | 2, true => (BitVec.ofNat 16 v).signExtend 64
  | _, _ => BitVec.ofNat 64 v

/-! ## What a release waits for (R214, R219) -/

/-- A read of one of these results in a space of the mask has not been served; one whose atomic waits for its own release point has
not either, unless the atomic is `but` itself. -/
def readsOpen (s : State) (tags : List Nat) (mask : BitVec 3) (but : Option Nat := none) : Bool :=
  s.pl.net.any (fun m => match m.body with
    | .fill f => f.reply.isNone && f.waits.any (fun w => tags.contains w.tag && inMask mask w.pa)
    | .atomic a => a.ack.isNone && a.steps.any (fun w => tags.contains w.tag && inMask mask w.pa)
    | .mcast x => x.waits.any (fun w => tags.contains w.tag) && mask.getLsbD 1
    | _ => false)
  || (mask.getLsbD 1 && s.sl.windows.any (fun w => w.reqs.any (fun x => x.waits.any (fun x => tags.contains x.tag))))
  || s.pl.storeQ.any (fun q => match q.atom with
    | some a => tags.contains a.tag && mask.getLsbD q.space && but != some a.tag
    | none => false)

/-- The reads a thread has outstanding. -/
def readTags (s : State) (uid : Nat) : List Nat :=
  match s.living.find? (·.uid == uid) with
  | some t => t.pend.map (·.tag)
  | none => []

/-- An eviction, C shrink or `flush` write-back is on its way: EPCT counts as unbounded (R214). -/
def evictsOpen (s : State) : Bool :=
  s.pl.net.any (fun m => match m.body with
    | .write w => decide (w.writer = .evict)
    | _ => false)

/-- A thread's PCT, also where the thread has ended while its writes return (R87). -/
def pctOf (s : State) (uid : Nat) : Nat :=
  match s.living.find? (·.uid == uid) with
  | some t => t.pct
  | none => carriedPct s uid none

/-- A write of the thread that it issued before `seq` and that waits for its own release point: it is not performed, and its PCT
counts as unbounded (R214). -/
def queuedBefore (s : State) (uid seq : Nat) (spaces : Nat → Bool) : Bool :=
  (ownQueue s uid).any (fun q => decide (q.seq < seq) && spaces q.space)

/-- Conditions 1, 2 and 4 of R219 at the thread's core, for what the thread issued before `seq`; scratch writes with no release of
their own are performed as they issue. `own` is the result of the releasing atomic itself. -/
def releaseMet (s : State) (uid seq : Nat) (mask : BitVec 3) (own : Option Nat) : Bool :=
  !readsOpen s ((readTags s uid).filter (fun t => decide (t < seq))) mask own
  && !(mask.getLsbD 0 && queuedBefore s uid seq (· == 0))
  && (mask.extractLsb' 1 2 == 0
      || (!writesOpen s uid && !queuedBefore s uid seq (· != 0) && !evictsOpen s && decide (s.clock.tbase ≥ max (pctOf s uid) s.epct)))

/-- The completion times of the core's narrower lines that another thread's release has sent home join the thread's PCT too (condition 3 of
R219). -/
def joinBacks (uid scope : Nat) (s : State) : State :=
  { s with pl := { s.pl with net := s.pl.net.map (fun m => match m.body with
    | .write w => (match w.writer with
      | .forced u => if u ≠ uid ∧ w.tag < scope then { m with body := .write { w with who := joinNo w.who uid } } else m
      | _ => m)
    | _ => m) } }

/-- The write-backs of the core's lines narrower than a scope that releases forced are acknowledged, and the time base is at least their
completion times (conditions 3 and 4 of R219), whichever thread's release it was. -/
def backsMet (s : State) (scope : Nat) : Bool :=
  !s.pl.net.any (fun m => match m.body with
    | .write w => (match w.writer with | .forced _ => decide (w.tag < scope) | _ => false)
    | _ => false)
  && s.backs.all (fun x => decide (scope ≤ x.1 ∨ x.2 ≤ s.clock.tbase))

/-- One step towards the release point of what a thread issued at `seq`: dirty lines narrower than the scope are written back
(condition 3), and the answer says whether the point is reached. -/
def releaseStep (uid seq scope : Nat) (mask : BitVec 3) (own : Option Nat) (s : State) : Bool × State :=
  let (ids, s) := if mask.getLsbD 1 then writeBackAll (fun l => decide (l.scope < scope)) (.forced uid) (joinBacks uid scope s) else ([], s)
  (ids.isEmpty && releaseMet s uid seq mask own && (!mask.getLsbD 1 || backsMet s scope), s)

/-! ## Loads -/

/-- A read of the acting thread asks the home for its sector; those of one bundle to one sector are one request (R97, R210). -/
def askFill (w : LoadWait) (hint : Nat) (s : State) : State :=
  let line := lineOf w.pa
  let sec := w.pa % 128 / 64
  let mine := fun (m : Msg) => match m.body with
    | .fill f => f.bundle == s.bundleNo && f.line == line && f.sec == sec && f.reply.isNone
    | _ => false
  match s.pl.net.find? mine with
  | some m => netUpd m.id (fun b => match b with
      | .fill f => .fill { f with waits := f.waits ++ [w] }
      | b => b) s
  | none =>
    let lease := if hint = 3 then 64 else s.curCtx.lease.toNat
    (netSend (.fill { line := line, sec := sec, lease := lease, ctx := s.ctxNo, bundle := s.bundleNo, alloc := !isX w.pa && hint != 1, keep := hint == 2, waits := [w] }) s).2

/-- What the acting thread's read of `size` bytes at `h` waits with. -/
def waitOf (s : State) (tag : Nat) (va : DWord) (h size : Nat) (signed : Bool) : LoadWait :=
  { slot := s.th.slot, lane := s.th.lane, pc := s.th.pc, tag := tag, va := va, pa := h, size := size, signed := signed }

/-- A result that waits for memory, and the request that serves it. -/
def requestFill (va : DWord) (h size : Nat) (signed : Bool) (o : Opnds) (ord : MemOrd) (s : State) : Nat × State :=
  let n := if size < 4 then 1 else size / 4
  let (tag, s) := addResult (destRegs o (List.replicate n 0)) 40 none .none false s
  (tag, askFill (waitOf s tag va h size signed) ord.hint s)

/-- A read is served at a value time, the WCT of a write: it joins PCT, and the largest WCT recorded (R214, R245). -/
def Thread.sawVt (t : Thread) (vt : Option Nat) : Thread := { t with pct := max t.pct (vt.getD 0), wctMax := max t.wctMax (vt.getD 0) }

/-- The bytes of a load that its core holds for it although the L1 gives no hit: dirty bytes, which are later than any
write-through of the thread to them, and bytes of its write-throughs on their way (R215, R224). -/
def forwarded (s : State) (sent : List (Nat × Byte)) (h n : Nat) : Option (List Byte) :=
  let dirty : List (Nat × Byte) := match l1Find s (lineOf h) with
    | some l => dirtyBytes l
    | none => []
  ownBytes (sent ++ dirty) h n

/-- Where a load gets its bytes: it has them, with the value time they carry; it must ask the home; poison; or it waits behind a
write of the thread that has not left (R22, R215, R224). -/
inductive LoadPath where
  | value (bs : List Byte) (vt : Option Nat)
  | ask
  | poison
  | wait
  deriving DecidableEq, Repr

/-- The path of a load of the acting thread; `home` is set for one that must be served at the home. -/
def loadPath (s : State) (h size : Nat) (home : Bool) : LoadPath :=
  let queued := ownQueue s s.th.uid
  let qs := queued.flatMap (fun q => if q.scratch.isSome then [] else q.ws)
  if queued.any (fun q => match q.atom with | some a => q.scratch.isNone && lineOf a.pa == lineOf h | none => false)
      || (overlapsSpan qs h size && (home || isX h || (ownBytes qs h size).isNone)) then .wait
  else match ownBytes qs h size with
    | some bs => .value bs none
    | none =>
      let sent := ownSent s s.th.uid
      let ask : LoadPath := if !isX h && isPoisoned s h size then .poison else .ask
      if home || isX h then ask
      else if overlapsSpan sent h size then
        if (List.range size).any (fun k => dirtyBad s (h + k)) then .poison
        else match forwarded s sent h size with
        | some bs => .value bs none
        | none => ask
      else match l1Read s h size with
        | .hit bs vt => .value bs vt
        | .poisoned => .poison
        | .miss => ask

/-- Another load of the bundle asks the home for a sector of the line: one that has executed, or one that is still to execute. The
loads of the line are then all of that one read (R97). -/
def bundleAsks (i : Ins) (imm : BitVec 7) (size : Nat) (atHome : Bool) (line : Nat) (s : State) : Bool :=
  s.pl.net.any (fun m => match m.body with
    | .fill f => f.bundle == s.bundleNo && f.line == line && f.reply.isNone && !f.waits.isEmpty
    | _ => false)
  || ((bundleRest s).drop 1).any (fun t =>
    let s' := { s with th := t }
    (checkFail i s').isNone &&
      (let a := globalAddr (dwordOf (operands i s').a) imm size
       (globalFail a size).isNone && (match (translate s.ctxNo a.toNat .read s).1 with
        | some h => !isX h && lineOf h == line && decide (loadPath s' h size atHome = .ask)
        | none => false)))

/-- Bytes of an access are among those that writes of the thread carry which are not acknowledged. -/
def overlapsOwn (s : State) (uid h n : Nat) : Bool :=
  overlapsSpan ((ownQueue s uid).flatMap (fun q => if q.scratch.isSome then [] else q.ws)) h n || overlapsSpan (ownSent s uid) h n

/-- The path of a load of a bundle: one that its L1 could serve goes to the home with the others of its line, and takes its dirty bytes when
those get theirs (R97). -/
def bundlePath (i : Ins) (imm : BitVec 7) (size : Nat) (atHome : Bool) (h : Nat) (s : State) : LoadPath :=
  match loadPath s h size atHome with
  | .value bs vt => if !overlapsOwn s s.th.uid h size && bundleAsks i imm size atHome (lineOf h) s then .ask else .value bs vt
  | p => p

/-- The address of a load as its instruction gives it: the offset and the size. -/
def immOf (w : Word) : BitVec 7 := w.extractLsb' 4 7

/-- A load from home address `h` (R94, R97, R215, R224, R231 to R233). -/
def loadFrom (i : Ins) (o : Opnds) (addr : DWord) (size : Nat) (signed : Bool) (ord : MemOrd) (h : Nat) (s : State) : State :=
  let atHome := ord.acq && decide (ord.scope ≥ 4)
  match bundlePath i (immOf i.word) size atHome h s with
  | .wait => s.updTh (fun t => { t with park := .storeWait })
  | .poison => raise { cause := .poison, addr := addr } s
  | .value bs vt =>
    let s := (l1Touch (lineOf h) s).updTh (·.sawVt vt)
    finish i (addResult (destRegs o (loadWords size signed bs)) 40 none .none true s).2
  | .ask =>
    let s := if atHome && !isX h then (writeBack (lineOf h) (.forced s.th.uid) s).2 else s
    let (tag, s) := requestFill addr h size signed o ord (l1Renew h s)
    if ord.acq then hold i (.acquire tag) s else finish i s

/-! ## Records (R154, R160, R257, R330) -/

/-- The acting thread's instruction at its PC reads a 64-byte record at `h` as an ordinary load, and issues with its bytes; `bad`
where they are poisoned. Until a read of the home has brought them the thread waits. -/
def readRecord (va : DWord) (h : Nat) (bad : State → State) (k : List Byte → State → State) (s : State) : State :=
  let give := fun (bs : Option (List Byte)) (s : State) => match bs with
    | some bs => k bs s
    | none => bad s
  let ask := fun (s : State) =>
    let (tag, s) := s.fresh
    (askFill (waitOf s tag va h 64 false) 0 (l1Renew h s)).updTh (fun t => { t with park := .record tag, got := none })
  match s.th.got with
  | some (pc, a, bs) => if pc = s.th.pc ∧ a = h then give bs (s.updTh (fun t => { t with got := none })) else ask s
  | none =>
    match loadPath s h 64 false with
    | .wait => s.updTh (fun t => { t with park := .storeWait })
    | .poison => bad s
    | .value bs vt => k bs ((l1Touch (lineOf h) s).updTh (·.sawVt vt))
    | .ask => ask s

/-- `ld` of `size` bytes on a thread. -/
def loadG (i : Ins) (imm : BitVec 7) (size : Nat) (signed : Bool) (o : Opnds) (s : State) : State :=
  let addr := globalAddr (dwordOf o.a) imm size
  match globalFail addr size with
  | some t => raise t s
  | none => withHome addr .read (fun h s => loadFrom i o addr size signed (memOrd i.p) h s) s

/-! ## Stores -/

/-- Sends a write-through store; the stores of one bundle to one line are one request (R97, R215). -/
def sendStore (uid seq tree depth bundle hint ctx : Nat) (ws : List (Nat × Byte)) (s : State) : State :=
  match ws with
  | [] => s
  | (h, _) :: _ =>
    let line := lineOf h
    let mine := fun (m : Msg) => match m.body with
      | .write w => w.bundle == bundle && bodyLine m.body == line && w.ack.isNone && (match w.writer with | .threads _ => true | _ => false)
      | _ => false
    let share : Share := { uid := uid, tree := tree, lo := h, len := ws.length, seq := seq }
    let s := if hint = 1 && !isX h then l1Lose line (h % 128 / 64) s else s
    match s.pl.net.find? mine with
    | some m => netUpd m.id (fun b => match b with
        | .write w => .write { w with
            ws := w.ws.filter (fun x => !ws.any (·.1 == x.1)) ++ ws
            depth := max w.depth depth
            writer := match w.writer with | .threads who => .threads (who ++ [share]) | x => x }
        | b => b) s
    | none =>
      let s := if isX h then s else (writeBack line (.forced uid) s).2
      (netSend (.write { ws := ws, writer := .threads [share], depth := depth, bundle := bundle, intoL1 := !isX h && hint != 1, ctx := ctx }) s).2

/-- A store's bytes go to the L1, or through to the home (Table 10-3, Table 11-1). It has a number of its own among what its thread issues. The
loads on their way of its bundle's threads see none of the bundle's stores to the line (R22, R97). -/
def putStore (q : Queued) (s : State) : State :=
  match q.ws with
  | [] => s
  | (h, _) :: _ =>
    let s := s.fresh.2
    if !isX h && decide (q.scope < 3) && q.hint != 1 then
      let who := (q.slot, q.lane) :: (if q.bundle == s.bundleNo then s.bundle else [])
      l1Write h (q.ws.map (·.2)) q.scope q.depth q.uid q.bundle (q.hint == 2) (holdLoads who (lineOf h) s)
    else sendStore q.uid q.seq q.tree q.depth q.bundle q.hint q.ctx q.ws s

/-- A store of the acting thread as it waits or goes. -/
def queuedOf (s : State) (ord : MemOrd) (ws : List (Nat × Byte)) : Queued :=
  { seq := s.nextId, uid := s.th.uid, slot := s.th.slot, lane := s.th.lane
    rel := if ord.rel then some (ord.scope, ord.mask) else none
    scope := ord.scope, hint := ord.hint, ws := ws, depth := s.th.depth, bundle := s.bundleNo, tree := s.warp.tree, ctx := s.ctxNo }

def enqueue (q : Queued) (s : State) : State := { s with nextId := s.nextId + 1, pl := { s.pl with storeQ := s.pl.storeQ ++ [q] } }

/-- A write of the acting thread to `h` waits: one of its own releases is ahead of it, or one of a thread of its bundle that is still to execute
this instruction, or of one whose write to the line waits already; the bundle's part of a line is one request (R97, R219). -/
def lineHeld (s : State) (space h : Nat) : Bool :=
  (bundleRest s).any (fun t => writeHeld s t.uid space h) || s.pl.storeQ.any (fun q => q.bundle == s.bundleNo && q.touches space h)

/-- `st` of `size` bytes on a thread (R94 to R97, R215, R232). -/
def storeG (i : Ins) (imm : BitVec 7) (size : Nat) (o : Opnds) (s : State) : State :=
  let ord := memOrd i.p
  let addr := globalAddr (dwordOf o.a) imm size
  match globalFail addr size with
  | some t => raise t s
  | none => withHome addr .write (fun h s =>
      let q := queuedOf s ord (atAddr h (leBytes o.d.toNat size))
      finish i (if ord.rel || lineHeld s (spaceOf h) h then enqueue q s else putStore q s)) s

/-! ## Streams (R278): no L1 -/

def loadGS (i : Ins) (imm : BitVec 7) (size : Nat) (signed : Bool) (o : Opnds) (s : State) : State :=
  let addr := globalAddr (dwordOf o.a) imm size
  if !canonical addr then stopStream 4 s
  else if addr.toNat % size ≠ 0 then stopStream 3 s
  else withHomeS addr .read (fun h s =>
    if !isX h && isPoisoned s h size then stopStream 7 s
    else
      let (tag, s) := addResultS ((o.pd.toList).map (fun p => (p, 0))) 40 none false s
      let w : LoadWait := { stream := some s.sq.n, slot := 0, lane := 0, pc := s.sq.pc, tag := tag, va := addr, pa := h, size := size, signed := signed }
      let f : Fill := { line := lineOf h, sec := h % 128 / 64, lease := 0, ctx := s.ctxNo, alloc := false, waits := [w] }
      finishS i (netSend (.fill f) s).2) s

/-- The depth and tree of a stream's block (Table 12-3). -/
def seqBlock (s : State) : Option Block := s.block? s.sq.block

def storeGS (i : Ins) (imm : BitVec 7) (size : Nat) (o : Opnds) (s : State) : State :=
  let addr := globalAddr (dwordOf o.a) imm size
  if !canonical addr then stopStream 4 s
  else if addr.toNat % size ≠ 0 then stopStream 3 s
  else withHomeS addr .write (fun h s =>
    let m : WriteMsg := { ws := atAddr h (leBytes o.d.toNat size), writer := .stream s.sq.n s.sq.block (((seqBlock s).map (·.tree)).getD 0), depth := ((seqBlock s).map (·.depth)).getD 0, ctx := s.ctxNo }
    finishS i (netSend (.write m) s).2) s

/-- Bytes of an atomic of majors 0x23 and 0x24. -/
def amoSize (f : Nat) : Nat := if f = 13 ∨ f = 14 then 8 else 4

/-! ## Scratch (R94, R95, R184, R192) -/

/-- The block's scratch is being moved (R192). -/
def scratchHeld (s : State) : Bool :=
  match s.pl.shake, s.warp.block with
  | some (.reloc _ moves _), some h => moves.any (·.1 == h)
  | _, _ => false

/-- A scratch access at offset `off`, once its checks pass and its block's scratch stands still. -/
def scratchAccess (off : Int) (size : Nat) (k : Nat → Nat → State → State) (s : State) : State :=
  match scratchFail off size (scratchSize s) with
  | some t => raise t s
  | none =>
    if scratchHeld s then s.updTh (fun t => { t with park := .storeWait })
    else match s.warp.block with
      | none => s
      | some h => k h off.toNat s

/-- The bytes a scratch load gets: its own store that waits for a release point, else the block's (R22); none where it must wait for
a waiting write of its thread. -/
def scratchBytes (s : State) (h off n : Nat) : Option (List Byte) :=
  let mine := (ownQueue s s.th.uid).filter (fun q => q.scratch.isSome)
  let qs := mine.flatMap (·.ws)
  if mine.any (fun q => match q.atom with | some a => decide (a.pa < off + n ∧ off < a.pa + amoSize a.f) | none => false) then none
  else if overlapsSpan qs off n then ownBytes qs off n
  else some (sramBytes s.pl.sram h off n)

/-- A scratch load (R94, R95). -/
def loadS (i : Ins) (imm : BitVec 7) (size : Nat) (o : Opnds) (s : State) : State :=
  scratchAccess (scratchOff (wordOf o.a) imm size) size (fun h off s =>
    match scratchBytes s h off size with
    | none => s.updTh (fun t => { t with park := .storeWait })
    | some bs => finish i (addResult (destRegs o (loadWords size false bs)) 18 none .none true s).2) s

/-- A scratch store; one with REL, and one behind it, waits for its point (R219). -/
def storeS (i : Ins) (imm : BitVec 7) (size : Nat) (o : Opnds) (s : State) : State :=
  let ord := memOrd i.p
  scratchAccess (scratchOff (wordOf o.a) imm size) size (fun h off s =>
    let bs := leBytes o.d.toNat size
    finish i (if ord.rel || lineHeld s 0 off then enqueue { queuedOf s ord (atAddr off bs) with scratch := some h } s else sramWrite h off bs s)) s

/-! ## Atomics (R234 to R239) -/

/-- Each half of a packed sum (R236). -/
def addHalves (fmt : Fmt) (x y : Word) : Word := BitVec.ofNat 32 (halves2 (fun _ a b => fadd fmt {} a b) x.toNat y.toNat)

/-- The new value of Table 11-2; none where nothing is written. -/
def amoNew (f : Nat) (old b expect : DWord) : Option DWord :=
  let o : Word := old.truncate 32
  let v : Word := b.truncate 32
  let w := fun (x : Word) => some (x.zeroExtend 64)
  match f with
  | 0 => w (o + v)
  | 1 => w (o &&& v)
  | 2 => w (o ||| v)
  | 3 => w (o ^^^ v)
  | 4 => w (sminW o v)
  | 5 => w (smaxW o v)
  | 6 => w (if o.toNat ≤ v.toNat then o else v)
  | 7 => w (if o.toNat ≥ v.toNat then o else v)
  | 8 => w v
  | 9 => if o = expect.truncate 32 then w v else none
  | 10 => w (BitVec.ofNat 32 (f32Add o.toNat v.toNat))
  | 11 => w (addHalves .bf16 o v)
  | 12 => w (addHalves .f16 o v)
  | 13 => some (old + b)
  | 14 => if old = expect then some b else none
  | _ => w (if o.toNat ≥ v.toNat then 0 else o + 1)

/-- The registers' words of an atomic's old value. -/
def amoWords (f : Nat) (old : DWord) : List Word := if amoSize f = 8 then dwordWords old else [old.truncate 32]

/-- Sends an atomic to its home: the line's dirty bytes go ahead of it and the touched sector's copy is dropped (R237); the
atomics of one bundle to one line are one request (R238). -/
def sendAtomic (st : AtomicStep) (depth bundle ctx : Nat) (s : State) : State :=
  let line := lineOf st.pa
  let mine := fun (m : Msg) => match m.body with
    | .atomic a => a.bundle == bundle && bodyLine m.body == line && a.ack.isNone
    | _ => false
  let s := if isX st.pa then s
    else l1Lose line (st.pa % 128 / 64) (writeBack line (.forced st.uid) s).2
  match s.pl.net.find? mine with
  | some m => netUpd m.id (fun b => match b with
      | .atomic a => .atomic { a with steps := a.steps ++ [st], depth := max a.depth depth }
      | b => b) s
  | none => (netSend (.atomic { steps := [st], depth := depth, bundle := bundle, ctx := ctx }) s).2

/-- A step of the acting thread's atomic, with the result it will complete. -/
def amoStep (f : Nat) (va : DWord) (h : Nat) (o : Opnds) (minLat : Nat) (s : State) : AtomicStep × State :=
  let n := if amoSize f = 8 then 2 else 1
  let (tag, s) := addResult (destRegs o (List.replicate n 0)) minLat none .none false s
  ({ uid := s.th.uid, tree := s.warp.tree, slot := s.th.slot, lane := s.th.lane, tag := tag, f := f, va := va, pa := h
     b := dwordOf o.b, expect := dwordOf o.d, pc := s.th.pc }, s)

/-- `amo` (R234 to R239). -/
def atomicG (i : Ins) (f : Nat) (o : Opnds) (s : State) : State :=
  let ord := memOrd i.p
  let addr := dwordOf o.a
  match globalFail addr (amoSize f) with
  | some t => raise t s
  | none => withHome addr .atomic (fun h s =>
      if !isX h && isPoisoned s h (amoSize f) then raise { cause := .poison, addr := addr } s
      else
        let q := queuedOf s ord []
        let held := lineHeld s (spaceOf h) h
        let (st, s) := amoStep f addr h o 40 s
        goOrAcquire i ord.acq st.tag (if ord.rel || held then enqueue { q with atom := some st } s else sendAtomic st s.th.depth s.bundleNo s.ctxNo s)) s

/-- One atomic step on bytes of a block's scratch: the old value, and the state after. -/
def scratchAmo (key off f : Nat) (b expect : DWord) (s : State) : DWord × State :=
  let old := BitVec.ofNat 64 (leNat (sramBytes s.pl.sram key off (amoSize f)))
  match amoNew f old b expect with
  | none => (old, s)
  | some v => (old, sramWrite key off (leBytes v.toNat (amoSize f)) s)

/-- `samo`: performed in the pool; one with REL, and one behind it, waits for its point (R219, R237). -/
def atomicS (i : Ins) (f : Nat) (o : Opnds) (s : State) : State :=
  let ord := memOrd i.p
  scratchAccess ((wordOf o.a).toNat : Int) (amoSize f) (fun h off s =>
    if ord.rel || lineHeld s 0 off then
      let q := queuedOf s ord []
      let (st, s) := amoStep f 0 off o 18 s
      goOrAcquire i ord.acq st.tag (enqueue { q with atom := some st, scratch := some h } s)
    else
      let (old, s) := scratchAmo h off f (dwordOf o.b) (dwordOf o.d) s
      finish i (addResult (destRegs o (amoWords f old)) 18 none .none true s).2) s

/-! ## Release points of waiting stores and atomics (R219, R232, R238) -/

/-- An acquiring access of the acting thread has been served (R220). -/
def Thread.served (t : Thread) (tag : Nat) : Thread :=
  match t.park with
  | .acquire k => if k = tag then t.resume else t
  | _ => t

/-- A store or atomic that has reached its point takes effect or leaves for its home. -/
def performQueued (q : Queued) (s : State) : State :=
  match q.scratch, q.atom with
  | some h, none => match q.ws with
    | [] => s
    | (o, _) :: _ => sramWrite h o (q.ws.map (·.2)) s
  | some h, some a =>
    let (old, s) := scratchAmo h a.pa a.f a.b a.expect s
    s.updThreads (·.uid == q.uid) (fun t => (t.arrive a.tag (amoWords a.f old)).served a.tag)
  | none, some a => sendAtomic a q.depth q.bundle q.ctx s
  | none, none => putStore q s

/-- Waiting stores and atomics of one bundle to one line go when every one of them has reached its point (R232, R238). -/
def queuedLine (q : Queued) : Nat :=
  match q.scratch, q.atom, q.ws with
  | some h, _, _ => h * 2 ^ 60
  | none, some a, _ => lineOf a.pa
  | none, none, (h, _) :: _ => lineOf h
  | none, none, [] => 0

/-- A thread whose access found the queue closed tries again once a write of it has gone. -/
def wakeStores (who : List Nat) (s : State) : State :=
  s.updThreads (fun t => decide (t.park = .storeWait) && who.contains t.uid) (fun t => { t with park := .none })

/-- The numbers of the threads that have nothing waiting for a release point. -/
def unqueued (s : State) : List Nat :=
  let held := s.pl.storeQ.map (·.uid) ++ s.pl.puts.map (·.uid)
  (s.living.map (·.uid)).filter (fun u => !held.contains u)

/-- One step of the group of waiting writes that `q` is in: towards the points, or away. -/
def stepQueued (q : Queued) (s : State) : State :=
  let group := s.pl.storeQ.filter (fun x => x.bundle == q.bundle && queuedLine x == queuedLine q && x.scratch == q.scratch)
  let (ok, s) := group.foldl (fun (x : Bool × State) g =>
    match g.rel with
    | none => (x.1 && !queuedHeld x.2 g, x.2)
    | some (sc, m) =>
      let (k, s) := releaseStep g.uid g.seq sc m (g.atom.map (·.tag)) x.2
      (x.1 && k && !queuedHeld s g, s)) (true, s)
  if !ok then s
  else
    let s := { s with pl := { s.pl with storeQ := s.pl.storeQ.filter (fun x => !group.contains x) } }
    let s := if q.scratch.isNone then holdLoads (group.map (fun x => (x.slot, x.lane))) (queuedLine q) s else s
    wakeStores (group.map (·.uid)) (group.foldl (fun s g => performQueued g s) s)

end Sys2Proof.Machine
end

