-- ==== Sys2Proof/Machine/Atomic.lean ====
section
/-! DEFINITION. Atomics: majors 0x23 and 0x24 (R234 to R239). -/

namespace Sys2Proof.Machine

open Sys2Proof

/-- A global atomic, and a scratch atomic (R234). -/
def amo (i : Ins) (f : Nat) (s : State) : Answer := runThread i (atomicG i f) s
def samo (i : Ins) (f : Nat) (s : State) : Answer := runThread i (atomicS i f) s

/-- AMO_ADD (R235). -/
def execAmoAdd (sw : Bool) (d a b : BitVec 7) (p : Payload) (s : State) : Answer :=
  amo ⟨packA sw 35 d a b 0, p, .amo 2 1 .dst d a b⟩ 0 s

/-- AMO_AND (R235). -/
def execAmoAnd (sw : Bool) (d a b : BitVec 7) (p : Payload) (s : State) : Answer :=
  amo ⟨packA sw 35 d a b 1, p, .amo 2 1 .dst d a b⟩ 1 s

/-- AMO_OR (R235). -/
def execAmoOr (sw : Bool) (d a b : BitVec 7) (p : Payload) (s : State) : Answer :=
  amo ⟨packA sw 35 d a b 2, p, .amo 2 1 .dst d a b⟩ 2 s

/-- AMO_XOR (R235). -/
def execAmoXor (sw : Bool) (d a b : BitVec 7) (p : Payload) (s : State) : Answer :=
  amo ⟨packA sw 35 d a b 3, p, .amo 2 1 .dst d a b⟩ 3 s

/-- AMO_MIN (R235). -/
def execAmoMin (sw : Bool) (d a b : BitVec 7) (p : Payload) (s : State) : Answer :=
  amo ⟨packA sw 35 d a b 4, p, .amo 2 1 .dst d a b⟩ 4 s

/-- AMO_MAX (R235). -/
def execAmoMax (sw : Bool) (d a b : BitVec 7) (p : Payload) (s : State) : Answer :=
  amo ⟨packA sw 35 d a b 5, p, .amo 2 1 .dst d a b⟩ 5 s

/-- AMO_MINN (R235). -/
def execAmoMinn (sw : Bool) (d a b : BitVec 7) (p : Payload) (s : State) : Answer :=
  amo ⟨packA sw 35 d a b 6, p, .amo 2 1 .dst d a b⟩ 6 s

/-- AMO_MAXN (R235). -/
def execAmoMaxn (sw : Bool) (d a b : BitVec 7) (p : Payload) (s : State) : Answer :=
  amo ⟨packA sw 35 d a b 7, p, .amo 2 1 .dst d a b⟩ 7 s

/-- AMO_SWAP (R235). -/
def execAmoSwap (sw : Bool) (d a b : BitVec 7) (p : Payload) (s : State) : Answer :=
  amo ⟨packA sw 35 d a b 8, p, .amo 2 1 .dst d a b⟩ 8 s

/-- AMO_CAS (R235). -/
def execAmoCas (sw : Bool) (d a b : BitVec 7) (p : Payload) (s : State) : Answer :=
  amo ⟨packA sw 35 d a b 9, p, .amo 2 1 .upd d a b⟩ 9 s

/-- AMO_FADD (R236). -/
def execAmoFadd (sw : Bool) (d a b : BitVec 7) (p : Payload) (s : State) : Answer :=
  amo ⟨packA sw 35 d a b 10, p, .amo 2 1 .dst d a b⟩ 10 s

/-- AMO_ADDB2 (R236). -/
def execAmoAddb2 (sw : Bool) (d a b : BitVec 7) (p : Payload) (s : State) : Answer :=
  amo ⟨packA sw 35 d a b 11, p, .amo 2 1 .dst d a b⟩ 11 s

/-- AMO_ADDH2 (R236). -/
def execAmoAddh2 (sw : Bool) (d a b : BitVec 7) (p : Payload) (s : State) : Answer :=
  amo ⟨packA sw 35 d a b 12, p, .amo 2 1 .dst d a b⟩ 12 s

/-- AMO_ADD64 (R235). -/
def execAmoAdd64 (sw : Bool) (d a b : BitVec 7) (p : Payload) (s : State) : Answer :=
  amo ⟨packA sw 35 d a b 13, p, .amo 2 2 .dst d a b⟩ 13 s

/-- AMO_CAS64 (R235). -/
def execAmoCas64 (sw : Bool) (d a b : BitVec 7) (p : Payload) (s : State) : Answer :=
  amo ⟨packA sw 35 d a b 14, p, .amo 2 2 .upd d a b⟩ 14 s

/-- AMO_INC (R235). -/
def execAmoInc (sw : Bool) (d a b : BitVec 7) (p : Payload) (s : State) : Answer :=
  amo ⟨packA sw 35 d a b 15, p, .amo 2 1 .dst d a b⟩ 15 s

/-- SAMO_ADD (R235). -/
def execSamoAdd (sw : Bool) (d a b : BitVec 7) (p : Payload) (s : State) : Answer :=
  samo ⟨packA sw 36 d a b 0, p, .amo 1 1 .dst d a b⟩ 0 s

/-- SAMO_AND (R235). -/
def execSamoAnd (sw : Bool) (d a b : BitVec 7) (p : Payload) (s : State) : Answer :=
  samo ⟨packA sw 36 d a b 1, p, .amo 1 1 .dst d a b⟩ 1 s

/-- SAMO_OR (R235). -/
def execSamoOr (sw : Bool) (d a b : BitVec 7) (p : Payload) (s : State) : Answer :=
  samo ⟨packA sw 36 d a b 2, p, .amo 1 1 .dst d a b⟩ 2 s

/-- SAMO_XOR (R235). -/
def execSamoXor (sw : Bool) (d a b : BitVec 7) (p : Payload) (s : State) : Answer :=
  samo ⟨packA sw 36 d a b 3, p, .amo 1 1 .dst d a b⟩ 3 s

/-- SAMO_MIN (R235). -/
def execSamoMin (sw : Bool) (d a b : BitVec 7) (p : Payload) (s : State) : Answer :=
  samo ⟨packA sw 36 d a b 4, p, .amo 1 1 .dst d a b⟩ 4 s

/-- SAMO_MAX (R235). -/
def execSamoMax (sw : Bool) (d a b : BitVec 7) (p : Payload) (s : State) : Answer :=
  samo ⟨packA sw 36 d a b 5, p, .amo 1 1 .dst d a b⟩ 5 s

/-- SAMO_MINN (R235). -/
def execSamoMinn (sw : Bool) (d a b : BitVec 7) (p : Payload) (s : State) : Answer :=
  samo ⟨packA sw 36 d a b 6, p, .amo 1 1 .dst d a b⟩ 6 s

/-- SAMO_MAXN (R235). -/
def execSamoMaxn (sw : Bool) (d a b : BitVec 7) (p : Payload) (s : State) : Answer :=
  samo ⟨packA sw 36 d a b 7, p, .amo 1 1 .dst d a b⟩ 7 s

/-- SAMO_SWAP (R235). -/
def execSamoSwap (sw : Bool) (d a b : BitVec 7) (p : Payload) (s : State) : Answer :=
  samo ⟨packA sw 36 d a b 8, p, .amo 1 1 .dst d a b⟩ 8 s

/-- SAMO_CAS (R235). -/
def execSamoCas (sw : Bool) (d a b : BitVec 7) (p : Payload) (s : State) : Answer :=
  samo ⟨packA sw 36 d a b 9, p, .amo 1 1 .upd d a b⟩ 9 s

/-- SAMO_FADD (R236). -/
def execSamoFadd (sw : Bool) (d a b : BitVec 7) (p : Payload) (s : State) : Answer :=
  samo ⟨packA sw 36 d a b 10, p, .amo 1 1 .dst d a b⟩ 10 s

/-- SAMO_ADDB2 (R236). -/
def execSamoAddb2 (sw : Bool) (d a b : BitVec 7) (p : Payload) (s : State) : Answer :=
  samo ⟨packA sw 36 d a b 11, p, .amo 1 1 .dst d a b⟩ 11 s

/-- SAMO_ADDH2 (R236). -/
def execSamoAddh2 (sw : Bool) (d a b : BitVec 7) (p : Payload) (s : State) : Answer :=
  samo ⟨packA sw 36 d a b 12, p, .amo 1 1 .dst d a b⟩ 12 s

/-- SAMO_ADD64 (R235). -/
def execSamoAdd64 (sw : Bool) (d a b : BitVec 7) (p : Payload) (s : State) : Answer :=
  samo ⟨packA sw 36 d a b 13, p, .amo 1 2 .dst d a b⟩ 13 s

/-- SAMO_CAS64 (R235). -/
def execSamoCas64 (sw : Bool) (d a b : BitVec 7) (p : Payload) (s : State) : Answer :=
  samo ⟨packA sw 36 d a b 14, p, .amo 1 2 .upd d a b⟩ 14 s

/-- SAMO_INC (R235). -/
def execSamoInc (sw : Bool) (d a b : BitVec 7) (p : Payload) (s : State) : Answer :=
  samo ⟨packA sw 36 d a b 15, p, .amo 1 1 .dst d a b⟩ 15 s

end Sys2Proof.Machine
end

