-- ==== Sys2Proof/Machine/Barrier.lean ====
section
/-! DEFINITION. Numbered barriers and crossing reductions: major 0x29 (R148 to R152). -/

namespace Sys2Proof.Machine

open Sys2Proof

/-! ## Numbered barriers (R148 to R151) -/

/-- The barrier an engine operation arrives on (R64): its BAR where ARR is set. -/
def payloadBar (p : BitVec 25) : Option Nat := if p.getLsbD 12 then some (pbits p 13 4) else none

/-- Blocks of the core that an `mcpy` writes: those of the issuer's task, where the core is named, in ascending `bid` (R334). -/
def receivers (s : State) (c : CopyOp) : List Block :=
  if !c.bv.getLsbD (coreBit s) then []
  else (s.pl.blocks.filter (fun b => !b.ended && b.ctx == c.ctx && b.hdr == c.hdr && b.tree == c.tree)).foldl (fun (acc : List Block) b =>
    acc.takeWhile (fun y => decide (y.bid ≤ b.bid)) ++ [b] ++ acc.dropWhile (fun y => decide (y.bid ≤ b.bid))) []

/-- The blocks on whose barriers a copy operation arrives: an `mcpy`'s receivers, which are fixed once its moves are over, and else the issuer's
block (R327, R334). -/
def arrivesOn (s : State) (c : CopyOp) (h : Nat) : Bool :=
  match c.kind with
  | .mcpy => if c.rcv.isEmpty then (receivers s c).any (·.handle == h) else c.rcv.any (·.1 == h)
  | _ => c.block == some h

/-- An engine operation with arrival on barrier `n` of block `h` is outstanding. -/
def engineOwes (s : State) (h n : Nat) : Bool :=
  s.cl.table.any (fun e => e.block == h && payloadBar e.payload == some n)
  || s.cl.copyQ.any (fun c => arrivesOn s c h && payloadBar c.payload == some n)
  || s.cl.fetchQ.any (fun c => c.block == some h && payloadBar c.payload == some n)

/-- A thread or the stream of block `h` is parked in a wait on barrier `n`. -/
def barWaited (s : State) (h n : Nat) : Bool :=
  s.living.any (fun t => ofBlock s h t && (match t.park with | .barWait m _ _ => m == n | _ => false))
  || s.allSeqs.any (fun q => q.block == h && (match q.park with | .barWait m _ _ => m == n | _ => false))

/-- Why `nb.init` and `sbar.init` refuse a count: 24 BAR_ARG, 25 BAR_BUSY. -/
def initFail (s : State) (b : Block) (n : Nat) (v : Nat) : Option Cause :=
  if v = 0 ∨ v > 65535 then some .barArg
  else if (barOf b n).pending ≠ (barOf b n).count ∨ barWaited s b.handle n = true ∨ engineOwes s b.handle n = true then some .barBusy
  else none

/-- COUNT and PEND take the value; PHASE is kept. -/
def initBar (b : Block) (n v : Nat) (s : State) : State :=
  setBar b.handle n { barOf b n with count := v, pending := v, status := 0, last := 0, part := 0, arrived := 0 } s

/-- The value of the highest lane of the bundle whose thread initialises the barrier: a thread of its block (R151). -/
def highestValue (i : Ins) (s : State) : Word :=
  let mine := fun (t : Thread) => (s.warpAt t.slot).block == s.warp.block
  let live := (bundleRest s).filter (fun t => mine t && (checkFail i { s with th := t }).isNone)
  let top := live.foldl (fun (m : Thread) t => if t.lane > m.lane then t else m) s.th
  wordOf (operands i { s with th := top }).a

/-- A member of Table 7-4: a thread of a free warp takes BAR_NONE. -/
def barOp (n : BitVec 4) (k : Block → State → State) (s : State) : State :=
  match s.thBlock with
  | none => raise { cause := .barNone, info := n.zeroExtend 32 } s
  | some b => k b s

def nbInitOp (i : Ins) (n : BitVec 4) (s : State) : State :=
  barOp n (fun b s =>
    let v := (highestValue i s).toNat
    match initFail s b n.toNat v with
    | some c => raise { cause := c, info := n.zeroExtend 32 } s
    | none => finish i (initBar b n.toNat v s)) s

/-- An arrival waits in the instruction for its release point (R149). -/
def nbArriveOp (i : Ins) (n : BitVec 4) (meet : Bool) (o : Opnds) (s : State) : State :=
  afterDeferred (barOp n (fun _ => hold i (.arrive n.toNat o.pd meet))) s

/-- The arrival of a thread that has reached its release point; a wait follows in `nb.meet` (R149, R151). -/
def applyArrive (n : Nat) (dst : Option Nat) (meet : Bool) (s : State) : State :=
  let trap : Trap := { cause := .barArg, info := BitVec.ofNat 32 n }
  match s.thBlock with
  | none => s
  | some b =>
    let token := (barOf b n).phase
    let s0 := s.updTh (fun t => { t with park := if meet then .barWait n token dst else t.park })
    match arriveBar b.handle n 0 (some s.th.tid) s0 with
    | none => trapAt s.th.slot s.th.lane trap s
    | some s => if meet then s else resumeWith dst (BitVec.ofNat 32 token) 4 s

/-- A wait for the barrier's PHASE to differ from the token (R151). PRESUMED (log entry 100): the register results of this major have the integer latency,
4 cycles. -/
def nbWaitOp (i : Ins) (n : BitVec 4) (o : Opnds) (s : State) : State :=
  afterDeferred (barOp n fun b s =>
    let r := barOf b n.toNat
    let token := (wordOf o.a).toNat % 65536
    if r.phase ≠ token then result i o [r.last] 4 4 s
    else hold i (.barWait n.toNat token o.pd) s) s

def nbTestOp (i : Ins) (n : BitVec 4) (o : Opnds) (s : State) : State :=
  barOp n (fun b s => result i o [flag ((barOf b n.toNat).phase != (wordOf o.a).toNat % 65536)] 4 4 s) s

/-- The fields of Table 7-3 by selector. -/
def barField (r : Barrier) (e : Nat) : Word :=
  match e with
  | 0 => r.status
  | 1 => r.last
  | 2 => BitVec.ofNat 32 r.count
  | 3 => BitVec.ofNat 32 r.pending
  | _ => BitVec.ofNat 32 r.phase

def nbStatOp (i : Ins) (n : BitVec 4) (e : BitVec 3) (o : Opnds) (s : State) : State :=
  barOp n (fun b s => result i o [barField (barOf b n.toNat) e.toNat] 4 4 s) s

/-! ## Crossing reductions (R152) -/

/-- `xred`: the checks at issue; the arrival waits for its release point at scope cluster. -/
def xredOp1 (i : Ins) (op : Nat) (k : BitVec 3) (o : Opnds) (s : State) : State :=
  let mask := wordOf o.b
  match s.thBlock.bind (·.stream) with
  | none => raise { cause := .xredNone, info := k.zeroExtend 32 } s
  | some _ =>
    if !mask.getLsbD s.warp.wid then raise { cause := .collSelf, info := mask } s
    else hold i (.xredRel op k.toNat (dwordOf o.a) mask) s

/-- The arrival at a crossing register: a mismatch, or the thread waits and a complete instance ends. -/
def applyXred (op k : Nat) (v : DWord) (mask : Word) (s : State) : State :=
  match s.thBlock with
  | none => s
  | some b =>
    let x := (b.crossings.find? (·.k == k)).getD { k := k, op := op, mask := mask }
    let trap : Trap := { cause := .collMismatch, info := x.mask }
    if x.mask ≠ mask then
      let s := s.updBlock b.handle (fun b => { b with crossings := b.crossings.filter (·.k != k) })
      (x.got.map (fun g => (g.1, g.2.1)) ++ [(s.th.slot, s.th.lane)]).foldl (fun s g => trapAt g.1 g.2 trap s) s
    else
      let x := { x with got := x.got ++ [(s.th.slot, s.th.lane, v)], mixed := x.mixed || x.op != op }
      let s := s.updTh (fun t => { t with park := .xred k })
      let s := s.updBlock b.handle (fun b => { b with crossings := b.crossings.filter (·.k != k) ++ [x] })
      settleCrossing b.handle k s

/-- NB_INIT (R151). -/
def execNbInit (sw : Bool) (a : BitVec 7) (n : BitVec 4) (s : State) : Answer :=
  (fun (i0 : Ins) => runThread i0 (fun _ => nbInitOp i0 n) s) ⟨packA sw 41 0#7 a (0#3 ++ n) 0, none, .plain [⟨a, 1, .src, .a⟩]⟩

/-- NB_ARRIVE (R149). -/
def execNbArrive (sw : Bool) (d : BitVec 7) (n : BitVec 4) (s : State) : Answer :=
  (fun (i0 : Ins) => runThread i0 (fun o => nbArriveOp i0 n false o) s) ⟨packA sw 41 d 0#7 (0#3 ++ n) 1, none, .plain [⟨d, 1, .dst, .d⟩]⟩

/-- NB_WAIT (R151). -/
def execNbWait (sw : Bool) (d a : BitVec 7) (n : BitVec 4) (s : State) : Answer :=
  (fun (i0 : Ins) => runThread i0 (fun o => nbWaitOp i0 n o) s) ⟨packA sw 41 d a (0#3 ++ n) 2, none, .plain [⟨a, 1, .src, .a⟩, ⟨d, 1, .dst, .d⟩]⟩

/-- NB_MEET (R151). -/
def execNbMeet (sw : Bool) (d : BitVec 7) (n : BitVec 4) (s : State) : Answer :=
  (fun (i0 : Ins) => runThread i0 (fun o => nbArriveOp i0 n true o) s) ⟨packA sw 41 d 0#7 (0#3 ++ n) 3, none, .plain [⟨d, 1, .dst, .d⟩]⟩

/-- NB_TEST (R151). -/
def execNbTest (sw : Bool) (d a : BitVec 7) (n : BitVec 4) (s : State) : Answer :=
  (fun (i0 : Ins) => runThread i0 (fun o => nbTestOp i0 n o) s) ⟨packA sw 41 d a (0#3 ++ n) 4, none, .plain [⟨a, 1, .src, .a⟩, ⟨d, 1, .dst, .d⟩]⟩

/-- NB_STAT (R151). -/
def execNbStat (sw : Bool) (d : BitVec 7) (e : BitVec 3) (n : BitVec 4) (s : State) : Answer :=
  (fun (i0 : Ins) => runThread i0 (fun o => nbStatOp i0 n e o) s) ⟨packA sw 41 d 0#7 (e ++ n) 5, none, .plain [⟨d, 1, .dst, .d⟩] (decide (e.toNat < 5))⟩

/-- XRED_ADD (R152). -/
def execXredAdd (sw : Bool) (k : BitVec 3) (a b : BitVec 7) (s : State) : Answer :=
  (fun (i0 : Ins) => runThread i0 (xredOp1 i0 6 k) s) ⟨packA sw 41 (0#4 ++ k) a b 6, none, .plain [⟨a, 2, .src, .a⟩, ⟨b, 1, .src, .b⟩]⟩

/-- XRED_FADD (R152). -/
def execXredFadd (sw : Bool) (k : BitVec 3) (a b : BitVec 7) (s : State) : Answer :=
  (fun (i0 : Ins) => runThread i0 (xredOp1 i0 7 k) s) ⟨packA sw 41 (0#4 ++ k) a b 7, none, .plain [⟨a, 2, .src, .a⟩, ⟨b, 1, .src, .b⟩]⟩

/-- XRED_MAX (R152). -/
def execXredMax (sw : Bool) (k : BitVec 3) (a b : BitVec 7) (s : State) : Answer :=
  (fun (i0 : Ins) => runThread i0 (xredOp1 i0 8 k) s) ⟨packA sw 41 (0#4 ++ k) a b 8, none, .plain [⟨a, 2, .src, .a⟩, ⟨b, 1, .src, .b⟩]⟩

/-- XRED_OR (R152). -/
def execXredOr (sw : Bool) (k : BitVec 3) (a b : BitVec 7) (s : State) : Answer :=
  (fun (i0 : Ins) => runThread i0 (xredOp1 i0 9 k) s) ⟨packA sw 41 (0#4 ++ k) a b 9, none, .plain [⟨a, 2, .src, .a⟩, ⟨b, 1, .src, .b⟩]⟩

end Sys2Proof.Machine
end

