-- ==== Sys2Proof/Machine/Order.lean ====
section
/-! DEFINITION. Fences, completion, ranges and futures: major 0x25 (R98, R244 to R248). -/

namespace Sys2Proof.Machine

open Sys2Proof

/-! ## Fences (R244) -/

def fenceOp (i : Ins) (acq rel : Bool) (c m : BitVec 3) (s : State) : Answer :=
  runThread i (fun _ => afterDeferred (hold i (.fence acq rel c.toNat m))) s

/-! ## Ranges (R98, R246) -/

/-- Whether a line overlaps the home bytes of a virtual range whose pages are found. -/
def inPages (pages : List (Nat × Option Nat)) (base len line : Nat) : Bool :=
  (List.range ((base % 4096 + len + 4095) / 4096)).any (fun k =>
    match homeOf pages ((base / 4096 + k) % 2 ^ 45) with
    | none => false
    | some h =>
      let lo := h + (if k = 0 then base % 4096 else 0)
      let hi := min (h + 4096) (h + (base % 4096 + len - k * 4096))
      decide (line * 128 < hi ∧ lo < line * 128 + 128))

/-- The checks both range instructions make; a length of 0 completes. DESIGN CHOICE (log entry 70): the last address is formed modulo
2^64, so a range may wrap. -/
def rangeOp (i : Ins) (o : Opnds) (k : Nat → Nat → State → State) (s : State) : State :=
  let base := dwordOf o.a
  let len := (wordOf o.b).toNat
  let last := base + BitVec.ofNat 64 len - 1
  if len = 0 then finish i s
  else if !canonical base then raise { cause := .addrCanon, addr := base } s
  else if !canonical last then raise { cause := .addrCanon, addr := last } s
  else k base.toNat len s

/-- A range instruction waits until the stores of its thread that wait for release points have been performed (R22). -/
def afterOwn (k : State → State) (s : State) : State :=
  if (ownQueue s s.th.uid).isEmpty then k s else s.updTh (fun t => { t with park := .storeWait })

/-- `flush` (R246): the write-backs join EPCT. -/
def flushRange (i : Ins) (o : Opnds) (s : State) : State :=
  rangeOp i o (fun base len => afterOwn (withPages (rangePages base len) (fun pages s =>
    let (ids, s) := writeBackAll (fun l => inPages pages base len l.line) .evict (s.updTh (fun t => { t with found := [] }))
    hold i (.flush ids) s))) s

/-- `icinv` (R98): the dirty lines of the range go first; the pages found stay with the thread until it ends. -/
def icinvRange (i : Ins) (o : Opnds) (s : State) : State :=
  rangeOp i o (fun base len => afterOwn (withPages (rangePages base len) (fun pages s =>
    let (ids, s) := writeBackAll (fun l => inPages pages base len l.line) (.forced s.th.uid) s
    hold i (.icinv (base / 128 * 128) ((base + len + 127) / 128 * 128) ids) s))) s

/-! ## `wct`, `fwait`, `pref` (R245, R247, R248) -/

/-- `wct` ends once every write of the thread is acknowledged: the pair receives the largest WCT recorded. -/
def settleWct (s : State) : State :=
  match s.th.park with
  | .wct p =>
    if writesOpen s s.th.uid || !(ownQueue s s.th.uid).isEmpty then s
    else
      let v := BitVec.ofNat 64 s.th.wctMax
      (giveResult [(p, v.truncate 32), (p + 1, v.extractLsb' 32 32)] 4 s).updTh Thread.resume
  | _ => s

def wctOp (i : Ins) (o : Opnds) (s : State) : State := settleWct (hold i (.wct (o.pd.getD 0)) s)

/-- `fwait` registers its read at the home; the read itself is the step `FWAIT_RETRY`. -/
def fwaitOp (i : Ins) (o : Opnds) (s : State) : State :=
  let addr := dwordOf o.a
  match globalFail addr 4 with
  | some t => raise t s
  | none => withHome addr .read (fun h s =>
      if loadPath s h 4 true = .wait then s.updTh (fun t => { t with park := .storeWait })
      else if !isX h && isPoisoned s h 4 then raise { cause := .poison, addr := addr } s
      else
        let s := if isX h then s else (writeBack (lineOf h) (.forced s.th.uid) s).2
        hold i (.fwait addr h (wordOf o.b) o.pd false) s) s

/-- A sector's valid bit in the L1 (R210). -/
def sectorValid (s : State) (line sec : Nat) : Bool :=
  match l1Find s line with
  | some l => if sec = 0 then l.valid0 else l.valid1
  | none => false

/-- `pref`: a fill that no load waits for, where the sector is in G, mapped and not valid; on a translation miss the thread waits for
the walk, which no fault follows. -/
def prefOp (i : Ins) (o : Opnds) (s : State) : State :=
  let addr := dwordOf o.a
  let page := addr.toNat % 2 ^ 57 / 4096
  if !canonical addr then finish i s
  else if s.th.got == some (s.th.pc, page, none) then finish i (s.updTh (fun t => { t with got := none }))
  else match translate s.ctxNo addr.toNat .read s with
    | (none, s) => (wantWalk s.ctxNo addr.toNat .read s).updTh (fun t => { t with park := .pref addr.toNat })
    | (some h, s) =>
      let line := lineOf h
      let sec := h % 128 / 64
      if isX h || sectorValid s line sec then finish i s
      else finish i (netSend (.fill { line := line, sec := sec, lease := s.curCtx.lease.toNat, ctx := s.ctxNo, bundle := s.bundleNo }) s).2

/-- FENCE (R221). -/
def execFence (sw : Bool) (c m : BitVec 3) (s : State) : Answer :=
  fenceOp ⟨packA sw 37 0#7 0#7 (c ++ m ++ 0#1) 0, none, .plain [] (decide (m ≠ 0))⟩ true true c m s

/-- FENCE_ACQ (R220). -/
def execFenceAcq (sw : Bool) (c m : BitVec 3) (s : State) : Answer :=
  fenceOp ⟨packA sw 37 0#7 0#7 (c ++ m ++ 0#1) 1, none, .plain [] (decide (m ≠ 0))⟩ true false c m s

/-- FENCE_REL (R219). -/
def execFenceRel (sw : Bool) (c m : BitVec 3) (s : State) : Answer :=
  fenceOp ⟨packA sw 37 0#7 0#7 (c ++ m ++ 0#1) 2, none, .plain [] (decide (m ≠ 0))⟩ false true c m s

/-- WCT (R245). -/
def execWct (sw : Bool) (d : BitVec 7) (s : State) : Answer :=
  (fun (i0 : Ins) => runThread i0 (wctOp i0) s) ⟨packA sw 37 d 0#7 0#7 3, none, .plain [⟨d, 2, .dst, .d⟩]⟩

/-- FLUSH (R246). -/
def execFlush (sw : Bool) (a b : BitVec 7) (s : State) : Answer :=
  (fun (i0 : Ins) => runThread i0 (flushRange i0) s) ⟨packA sw 37 0#7 a b 4, none, .plain [⟨a, 2, .src, .a⟩, ⟨b, 1, .src, .b⟩]⟩

/-- ICINV (R98). -/
def execIcinv (sw : Bool) (a b : BitVec 7) (s : State) : Answer :=
  (fun (i0 : Ins) => runThread i0 (icinvRange i0) s) ⟨packA sw 37 0#7 a b 5, none, .plain [⟨a, 2, .src, .a⟩, ⟨b, 1, .src, .b⟩]⟩

/-- FWAIT (R248). -/
def execFwait (sw : Bool) (d a b : BitVec 7) (s : State) : Answer :=
  (fun (i0 : Ins) => runThread i0 (fwaitOp i0) s) ⟨packA sw 37 d a b 6, none, .plain [⟨a, 2, .src, .a⟩, ⟨b, 1, .src, .b⟩, ⟨d, 1, .dst, .d⟩]⟩

/-- PREF (R247). -/
def execPref (sw : Bool) (a : BitVec 7) (s : State) : Answer :=
  (fun (i0 : Ins) => runQuiet i0 (finish i0) (prefOp i0) s) ⟨packA sw 37 0#7 a 0#7 7, none, .plain [⟨a, 2, .src, .a⟩]⟩

end Sys2Proof.Machine
end

