-- ==== Sys2Proof/Machine/Control.lean ====
section
/-! DEFINITION. Branches, jumps, calls, exit, yield, software traps: majors 0x10 to 0x13, and illegal words (R14, R60, R66, R85 to R90). -/

namespace Sys2Proof.Machine

open Sys2Proof

/-! ## Targets (R12, R56) -/

/-- What R12 refuses about a value for the PC. -/
def pcFail (v : DWord) : Option Trap :=
  if !canonical v then some { cause := .addrCanon, addr := v }
  else if v.extractLsb' 0 2 ≠ 0 then some { cause := .instAlign, addr := v }
  else none

/-- The stop cause of a stream for a value R12 refuses (Table 14-2). -/
def pcStop (v : DWord) : Option Nat :=
  if !canonical v then some 4 else if v.extractLsb' 0 2 ≠ 0 then some 3 else none

def branchTarget (pc : PC) (off : DWord) : DWord := pc64 pc + off * 4

/-- The PC goes to a value, checked. -/
def jumpTo (i : Ins) (v : DWord) (s : State) : State :=
  match pcFail v with
  | some t => raise t s
  | none => goto i (v.truncate 57) s

def jumpToS (i : Ins) (v : DWord) (s : State) : State :=
  match pcStop v with
  | some c => stopStream c s
  | none => gotoS i (v.truncate 57) s

/-- A branch on a register (R85). -/
def branch (i : Ins) (o16 : BitVec 16) (cond : (n : Nat) → BitVec n → Bool) (s : State) : Answer :=
  run i (fun o s => if cond 32 (wordOf o.a) then jumpTo i (branchTarget s.th.pc (o16.signExtend 64)) s else finish i s)
    (fun o s => if cond 64 (dwordOf o.a) then jumpToS i (branchTarget s.sq.pc (o16.signExtend 64)) s else finishS i s) s

/-! ## Calls (R14, R279) -/

/-- The checks of `call` before its store, in the order of R24. -/
def callFail (target kp : DWord) : Option Trap :=
  if !canonical target then some { cause := .addrCanon, addr := target }
  else if !canonical (kp - 8) then some { cause := .addrCanon, addr := kp - 8 }
  else if target.extractLsb' 0 2 ≠ 0 then some { cause := .instAlign, addr := target }
  else if kp.extractLsb' 0 3 ≠ 0 then some { cause := .align, addr := kp, info := 8 }
  else none

/-- The call step of R14. -/
def callTo (i : Ins) (target : DWord) (s : State) : State :=
  match callFail target s.th.kp with
  | some t => raise t s
  | none =>
    let sp := s.th.kp - 8
    withHome sp .write (fun h s =>
      if writeHeld s s.th.uid (spaceOf h) h then s.updTh (fun t => { t with park := .storeWait })
      else
        let s := putStore (queuedOf s {} (atAddr h (leBytes (pc64 (nextPc i s)).toNat 8))) s
        goto i (target.truncate 57) (s.updTh (fun t => { t with kp := sp }))) s

/-- A stream's call: 16 return addresses at most. -/
def callToS (i : Ins) (target : DWord) (s : State) : State :=
  match pcStop target with
  | some c => stopStream c s
  | none =>
    if s.sq.rstack.length ≥ 16 then stopStream 6 s
    else gotoS i (target.truncate 57) { s with sq := { s.sq with rstack := nextPcS i s :: s.sq.rstack } }

/-- The end of `ret` with the loaded doubleword (R14). -/
def finishRet (v : DWord) (s : State) : State :=
  match pcFail v with
  | some t => raise t s
  | none => s.updTh (fun t => ({ t with npc := v.truncate 57, kp := t.kp + 8 }).resume)

/-- What `ret` checks about kp as a load address. -/
def retFail (kp : DWord) : Option Trap :=
  if !canonical kp then some { cause := .addrCanon, addr := kp }
  else if kp.extractLsb' 0 3 ≠ 0 then some { cause := .align, addr := kp, info := 8 }
  else none

/-- `ret`: an ordinary load, then the return; the thread waits where the home must be asked. -/
def retOp (i : Ins) (s : State) : State :=
  let kp := s.th.kp
  match retFail kp with
  | some t => raise t s
  | none => withHome kp .read (fun h s =>
      match loadPath s h 8 false with
      | .wait => s.updTh (fun t => { t with park := .storeWait })
      | .poison => raise { cause := .poison, addr := kp } s
      | .value bs vt =>
        finishRet (BitVec.ofNat 64 (leNat bs)) (hold i .none ((l1Touch (lineOf h) s).updTh (·.sawVt vt)))
      | .ask =>
        let (tag, s) := s.fresh
        hold i (.ret tag) (askFill (waitOf s tag kp h 8 false) 0 (l1Renew h s))) s

def retOpS (i : Ins) (s : State) : State :=
  match s.sq.rstack with
  | [] => stopStream 6 s
  | r :: rest => gotoS i r { s with sq := { s.sq with rstack := rest } }

/-! ## Ends of threads, software traps (R87 to R90) -/

/-- `exit`: a deferred trap comes first; inside the handler it is reported and not taken (R87, R348). -/
def exitOp (s : State) : State := afterDeferred (fun s => endThread (reportDeferred s.th.deferred s)) s

/-- `yield`: not ready in the 16 cycles after its issue, the ready age from zero (R88). -/
def yieldOp (i : Ins) (s : State) : State := (hold i (.yield (s.clock.cycle + 16)) s).updTh (fun t => { t with age := 0 })

/-- `rett` (R90, R351): legal in a handler only. -/
def rettOp (i : Ins) (s : State) : State :=
  if !s.th.inh then raise { cause := .illegal, info := i.word } s
  else match pcFail s.th.frame.trpc with
    | some t => raise t s
    | none =>
      leaveHandler (goto i (s.th.frame.trpc.truncate 57) s)


/-- BZ (R85). -/
def execBz (sw : Bool) (a : BitVec 7) (o : BitVec 16) (s : State) : Answer :=
  branch ⟨packB sw 16 a 0 o, none, .plain [⟨a, 1, .src, .a⟩] true true⟩ o (fun _ a => condZ a) s

/-- BNZ (R85). -/
def execBnz (sw : Bool) (a : BitVec 7) (o : BitVec 16) (s : State) : Answer :=
  branch ⟨packB sw 16 a 1 o, none, .plain [⟨a, 1, .src, .a⟩] true true⟩ o (fun _ a => condNz a) s

/-- BLTZ (R85). -/
def execBltz (sw : Bool) (a : BitVec 7) (o : BitVec 16) (s : State) : Answer :=
  branch ⟨packB sw 16 a 2 o, none, .plain [⟨a, 1, .src, .a⟩] true true⟩ o (fun _ a => condLtz a) s

/-- BGEZ (R85). -/
def execBgez (sw : Bool) (a : BitVec 7) (o : BitVec 16) (s : State) : Answer :=
  branch ⟨packB sw 16 a 3 o, none, .plain [⟨a, 1, .src, .a⟩] true true⟩ o (fun _ a => condGez a) s

/-- JMP (R85). -/
def execJmp (sw : Bool) (o : BitVec 25) (s : State) : Answer :=
  (fun (i0 : Ins) => run i0 (fun _ s => jumpTo i0 (branchTarget s.th.pc (o.signExtend 64)) s)
    (fun _ s => jumpToS i0 (branchTarget s.sq.pc (o.signExtend 64)) s) s) ⟨packJ sw 17 o, none, .plain [] true true⟩

/-- CALL (R14). -/
def execCall (sw : Bool) (o : BitVec 25) (s : State) : Answer :=
  (fun (i0 : Ins) => run i0 (fun _ s => callTo i0 (branchTarget s.th.pc (o.signExtend 64)) s)
    (fun _ s => callToS i0 (branchTarget s.sq.pc (o.signExtend 64)) s) s) ⟨packJ sw 18 o, none, .plain [] true true⟩

/-- JR (R86). -/
def execJr (sw : Bool) (a : BitVec 7) (s : State) : Answer :=
  (fun (i0 : Ins) => run i0 (fun o => jumpTo i0 (dwordOf o.a)) (fun o => jumpToS i0 (dwordOf o.a)) s) ⟨packA sw 19 0#7 a 0#7 0, none, .plain [⟨a, 2, .src, .a⟩] true true⟩

/-- CALLR (R14). -/
def execCallr (sw : Bool) (a : BitVec 7) (s : State) : Answer :=
  (fun (i0 : Ins) => run i0 (fun o => callTo i0 (dwordOf o.a)) (fun o => callToS i0 (dwordOf o.a)) s) ⟨packA sw 19 0#7 a 0#7 1, none, .plain [⟨a, 2, .src, .a⟩] true true⟩

/-- RET (R14). -/
def execRet (sw : Bool) (s : State) : Answer :=
  (fun (i0 : Ins) => run i0 (fun _ => retOp i0) (fun _ => retOpS i0) s) ⟨packA sw 19 0#7 0#7 0#7 2, none, .plain [] true true⟩

/-- EXIT (R87). -/
def execExit (sw : Bool) (s : State) : Answer :=
  runThread ⟨packA sw 19 0#7 0#7 0#7 3, none, .plain []⟩ (fun _ => exitOp) s

/-- NOP (R86). -/
def execNop (sw : Bool) (s : State) : Answer :=
  (fun (i0 : Ins) => run i0 (fun _ => finish i0) (fun _ => finishS i0) s) ⟨packA sw 19 0#7 0#7 0#7 4, none, .plain [] true true⟩

/-- YIELD (R88). -/
def execYield (sw : Bool) (s : State) : Answer :=
  (fun (i0 : Ins) => runThread i0 (fun _ => yieldOp i0) s) ⟨packA sw 19 0#7 0#7 0#7 5, none, .plain []⟩

/-- TRAP (R89). -/
def execTrap (sw : Bool) (n : BitVec 7) (s : State) : Answer :=
  runThread ⟨packA sw 19 0#7 0#7 n 6, none, .plain []⟩ (fun _ => raise { cause := .swTrap, info := n.zeroExtend 32 }) s

/-- BRK (R89). -/
def execBrk (sw : Bool) (n : BitVec 7) (s : State) : Answer :=
  runThread ⟨packA sw 19 0#7 0#7 n 7, none, .plain []⟩ (fun _ => raise { cause := .brk, info := n.zeroExtend 32 }) s

/-- RETT (R351). -/
def execRett (sw : Bool) (s : State) : Answer :=
  (fun (i0 : Ins) => runThread i0 (fun _ => rettOp i0) s) ⟨packA sw 19 0#7 0#7 0#7 8, none, .plain []⟩

/-- A word with a reserved major or an unlisted code (R66): ILLEGAL, or the end of a stream. -/
def execReservedMajor (w : BitVec 32) (s : State) : Answer :=
  runThread ⟨w, none, .plain []⟩ (fun _ => raise { cause := .illegal, info := w }) s

/-- Whether the word's major, with its f code, takes a prefix (Table 3-3). -/
def takesPrefix (w : Word) : Bool :=
  let m := (majorOf w).toNat
  decide (1 ≤ m ∧ m ≤ 0x0E ∨ 0x18 ≤ m ∧ m ≤ 0x1D ∨ 0x20 ≤ m ∧ m ≤ 0x24 ∨ m = 0x2A ∨ 0x30 ≤ m ∧ m ≤ 0x33 ∨ m = 0x28 ∧ w.toNat % 16 = 13)

/-- The word whose decode failed: the attached word where its major takes the prefix, else the prefix (R60, Table 18-1). -/
def pairFault (p : BitVec 25) (w : Word) : Word := if takesPrefix w then w else payloadWord p

/-- PREFIX (R60): a prefix before a word that takes none, before another prefix, or before a word that names no instruction is illegal. -/
def execPfxWord (p : BitVec 25) (w : BitVec 32) (s : State) : Answer :=
  runThread ⟨payloadWord p, none, .plain []⟩ (fun _ => raise { cause := .illegal, info := pairFault p w }) s

end Sys2Proof.Machine
end

