-- ==== Sys2Proof/Machine/Plane.lean ====
section
/-! DEFINITION. Events of either plane, and the check every request meets where it enters the memory side (R358 to R360, R362). -/

namespace Sys2Proof.Machine

open Sys2Proof

/-! ## The standby plane's pending events (R362) -/

/-- The planes exchanged: what is asked of the standby plane. -/
def State.otherWay (s : State) : State :=
  let s := s.stow
  { s with pl := s.standby.plane, standby := { s.standby with plane := s.pl } }

/-- Runs `f` with the standby plane in the place of the active one: what is pending there goes on in its own plane. -/
def State.inOther (s : State) (f : State → State) : State :=
  let t := (f s.otherWay).stow
  { t with pl := t.standby.plane, standby := { t.standby with plane := t.pl } }

/-- Runs `f` with a thread acting. Slots from 64 on name the threads of the standby plane. -/
def State.atThread (s : State) (who : Agent) (f : State → State) : State :=
  match who with
  | .thread slot lane => if slot < 64 then s.asThread slot lane f else s.inOther (fun s => s.asThread (slot - 64) lane f)
  | .stream _ => s

/-- Runs `f` in the plane that a message is from. -/
def State.atMsg (s : State) (id : Nat) (f : State → State) : State :=
  if s.pl.net.any (·.id == id) then f s
  else if s.standby.plane.net.any (·.id == id) then s.inOther f
  else s

/-- The active plane holds no work, so it belongs to no context. -/
def planeIdle (s : State) : Bool := s.pl.blocks.isEmpty && s.pl.warps.isEmpty

/-- The context that the active plane belongs to. -/
def planeCtx (s : State) : Option Nat := if planeIdle s then none else s.pl.ctx

/-- The context that the standby plane belongs to: an EMPTY one holds none (Table 19-1). -/
def Standby.holds (b : Standby) : Option Nat := if b.st = .empty then none else b.plane.ctx

/-- A swap is asked for (R362): the active plane's context is pre-empted, or the standby plane holds a restored context. -/
def swapWanted (s : State) : Bool :=
  (match planeCtx s with
    | some c => ((s.ctx? c).map (·.paused)).getD false
    | none => false)
  || decide (s.standby.st = .ready)

/-! ## Protection tables and frozen masters (R358, R359) -/

/-- The names of the masters (R378, R403). -/
def masterCore (s : State) : Nat := s.coreNo
def masterEngine (s : State) (unit : Nat) : Nat := 0x8000 + 4 * s.xid + unit

/-- A peer port and the host port (R403). -/
def masterPort (p : Nat) : Nat := 0x4000 + p
def masterHost : Nat := 0x4030

/-- The command processor, and the units that R369 names as masters and R403 gives no number (the numbers are the model's). -/
def masterCp : Nat := 0x7FFF
def masterWalker : Nat := 0x7FFC
def masterFault : Nat := 0x7FFD
def masterSpill : Nat := 0x7FFE

def isFrozen (s : State) (m : Nat) : Bool := s.root.frozen.any (·.master == m)

/-- The master may reach the bytes on behalf of the context. -/
def granted (s : State) (m c pa n : Nat) : Bool :=
  s.root.grants.any (fun g => (g.master == m || g.master == 0xFFFF) && g.ctx == c && decide (g.base ≤ pa ∧ pa + n ≤ g.base + g.len))

/-- The same for a master whose requests name no context: a link port and a hart (log entry 29). -/
def reaches (s : State) (m pa n : Nat) : Bool :=
  s.root.grants.any (fun g => (g.master == m || g.master == 0xFFFF) && decide (g.base ≤ pa ∧ pa + n ≤ g.base + g.len))

/-- A multicast request belongs to the plane of the first state: not to the standby plane of its context. -/
def mcastHere (s : State) (x : McastMsg) : Bool := s.pl.ctx == some x.ctx || s.standby.plane.ctx != some x.ctx

/-- A core that freezes holds the multicast loads that wait in open windows, ahead of its other requests (R359). -/
def nackMcasts (s : State) : State :=
  let held := (s.sl.windows.filter (·.closed.isNone)).flatMap (·.reqs)
  if held.isEmpty then s
  else
    let ids := List.range' s.nextId held.length
    let msgs := fun (p : McastMsg → Bool) => ((ids.zip held).filter (fun x => p x.2)).map (fun x => ({ id := x.1, body := .mcast x.2 } : Msg))
    let here := msgs (mcastHere s)
    let there := msgs (fun x => !mcastHere s x)
    { s with
      nextId := s.nextId + held.length
      sl := { s.sl with windows := s.sl.windows.filter (·.closed.isSome) }
      pl := { s.pl with net := here ++ s.pl.net }
      standby := { s.standby with plane := { s.standby.plane with net := there ++ s.standby.plane.net } } }

/-- A violation freezes its master, with a record for the root core (R359). -/
def freeze (m c pa : Nat) (s : State) : State :=
  if isFrozen s m then s
  else
    let s := { s with freeCtr := s.freeCtr + 1, root := { s.root with frozen := s.root.frozen ++ [{ master := m, ctx := c, pa := pa, time := s.clock.tbase }] } }
    if m = masterCore s then nackMcasts s else s

/-- The peer ports that reach another module (R387, R390). -/
def livePorts (s : State) (m : Nat) : List Nat :=
  match s.root.domain.find? (·.m == m) with
  | some d => (List.range 48).filter (fun p => d.ports.testBit p && !s.ports.any (fun x => x.n == p && x.out))
  | none => []

/-- Another module cannot be reached (R386, R390, R407): sync is lost, it is silent, the ports to it are closed, or every one is out. -/
def isUnreachable (s : State) (m : Nat) : Bool := s.syncLost || s.unreachable.contains m || s.closed.contains m || (livePorts s m).isEmpty

/-- The port of every request for a physical kilobyte of another module (R389). -/
def portOf (s : State) (h : Nat) : Nat :=
  let l := livePorts s (xModule h)
  l.getD (Config.portHash (xModule h) (h % 2 ^ 39 / 1024) % l.length) 0

/-- The flit of a read at `h` that makes no message failed twice in this cycle (R356, R390): its port, which the third failure may have taken
out since, carried it. DESIGN CHOICE (log entry 93): every such read that the port carries in the cycle is poisoned. -/
def flitBad (s : State) (h : Nat) : Bool :=
  !s.badPorts.isEmpty && isX h && (match s.root.domain.find? (·.m == xModule h) with
    | some d =>
      let l := (List.range 48).filter (fun p => d.ports.testBit p && (s.badPorts.contains p || !s.ports.any (fun x => x.n == p && x.out)))
      s.badPorts.contains (l.getD (Config.portHash (xModule h) (h % 2 ^ 39 / 1024) % l.length) 0)
    | none => false)

/-- A read that makes no message meets poison: a mark of the sector, or its flit (R356, R357). -/
def readPoisoned (s : State) (h n : Nat) : Bool := isPoisoned s h n || flitBad s h

/-- What agents of another module have written to bytes of it since this module last reached them (R388): free, and known from here on. -/
def drift (pa n : Nat) (s : State) : State :=
  let (i, s) := s.draw
  if Config.othersWrite i then
    (List.range n).foldl (fun s k => let (j, s) := s.draw; { s with remote := soSetAll s.remote [(pa + k, Config.freeByte j)] }) s
  else s

/-- A request enters the memory side: a frozen master's is held, one outside the grants freezes it. Another module's memory is
checked by its owner, whose answer is free (R388); a request to a module that cannot be reached stays with its port, and one whose port is
frozen waits. -/
def gate (m c pa n : Nat) (k : State → State) (s : State) : State :=
  if isFrozen s m then s
  else if isX pa then
    if isUnreachable s (xModule pa) || isFrozen s (masterPort (portOf s pa)) then s
    else let (i, s) := s.draw; if Config.remoteRefuses i then freeze m c pa s else k (drift pa n s)
  else if granted s m c pa n then k s
  else freeze m c pa s

/-- The host port's number among the ports (R403). -/
def hostPort : Nat := 0x30

/-- The host port takes a write of the register window: a frozen port accepts no flit (R359), and one that a flit carried which failed twice
writes nothing (R356). DESIGN CHOICE (log entries 93 and 96). -/
def hostTakes (s : State) : Bool := !isFrozen s masterHost && !s.badPorts.contains hostPort

def hostFlit (k : State → State) (s : State) : State := if hostTakes s then k s else s

/-- A request at a link port: a frozen port takes none; one outside the grants freezes it, and the port holds it (R358, R359). -/
def portGate (m pa n : Nat) (rq : PortReq) (k : State → State) (s : State) : State :=
  if isFrozen s m then s
  else if reaches s m pa n then k s
  else freeze m 0 pa { s with root := { s.root with portHeld := s.root.portHeld ++ [rq] } }

/-- The addresses of the entries that a walk reads from a table at a level down; entries of the walk cache are not read. -/
def walkReads (s : State) (c va : Nat) : Nat → Nat → List Nat
  | lvl, table =>
    let addr := table + va / pageBytes lvl % 512 * 8
    let hit := s.xl.walkCache.find? (·.1 == walkKey c lvl va)
    let e : DWord := match hit with
      | some x => x.2
      | none => BitVec.ofNat 64 (getLe s.mem addr 8)
    let rest := match lvl with
      | 0 => []
      | n + 1 => if (hit.isSome || !s.sl.poison.contains (addr / 64)) && pteBit e 0 && !malformed s lvl e && pteBit e 1 then walkReads s c va n (ptePa e) else []
    if hit.isSome then rest else addr :: rest

/-- The first entry of a walk that the walkers may not read for the context (R358, R369). -/
def walkBarred (s : State) (c va : Nat) : Option Nat :=
  (walkReads s c (va % 2 ^ 57) 4 ((s.ctx? c).map (·.ptRoot) |>.getD 0)).find? (fun a => !granted s masterWalker c a 8)

end Sys2Proof.Machine
end

