-- ==== Sys2Proof/Machine/Net.lean ====
section
/-! DEFINITION. The memory side: fills, writes, atomics, multicast and `fwait` at the homes, and what returns (R97, R209 to R216, R238 to R249, R267). -/

namespace Sys2Proof.Machine

open Sys2Proof

/-- A request to a module that cannot be reached was completed by the port (R390): a record with CODE 48, at most every 4,096 ns. -/
def linkLost (c m : Nat) (s : State) : State :=
  match s.lastLost.find? (·.1 == c) with
  | some x => if s.clock.tbase < x.2 + 4096 then s else ctxError c 48 (BitVec.ofNat 64 m) { s with lastLost := (c, s.clock.tbase) :: s.lastLost.filter (·.1 != c) }
  | none => ctxError c 48 (BitVec.ofNat 64 m) { s with lastLost := (c, s.clock.tbase) :: s.lastLost }

/-! ## Completion times reach their writers (R87, R163, R214, R245) -/

/-- A completion time of one of its own writes joins a thread's PCT, and what was kept of it once the thread had ended or had emitted: at an
emission, the writes issued before it. `n` is the number of the write's issue. -/
def ownTime (uid n wct : Nat) (s : State) : State :=
  let s := s.updThreads (·.uid == uid) (fun t => { t with pct := max t.pct wct, wctMax := max t.wctMax wct })
  let its := fun (x : Carried) => x.uid == uid && (match x.seq with | some k => decide (n < k) | none => true)
  { s with sched := { s.sched with carried := updIf its (fun x => { x with pct := max x.pct wct }) s.sched.carried } }

/-- Threads that wait in `wct` go on once nothing of theirs is on its way. -/
def wakeWct (s : State) : State :=
  (s.living.filter (fun t => match t.park with | .wct _ => true | _ => false)).foldl (fun s t => s.asThread t.slot t.lane settleWct) s

/-! ## Refusals (R267) -/

/-- One refusal reaches the living threads that `p` admits, each of which holds or counts it; with none, an error record. -/
def refuseOne (c : Nat) (p : Thread → Bool) (r : Refused) (s : State) : State :=
  if (s.living.any p) then
    s.updThreads p (fun t => { t with deferred := some (match t.deferred with
      | none => { gran := r.gran, aid := r.aid, depth := r.depth }
      | some d => { d with more := min (d.more + 1) 65535 }) })
  else ctxError c 17 r.gran s

/-- The threads that brought a byte into the refused granule. -/
def shareHits (who : List Share) (r : Refused) (t : Thread) : Bool :=
  who.any (fun x => x.uid == t.uid && decide (x.lo < r.lo + r.len ∧ r.lo < x.lo + x.len))

def refuseAll (c : Nat) (who : Refused → Thread → Bool) (rf : List Refused) (s : State) : State :=
  rf.foldl (fun s r => refuseOne c (who r) r s) s

/-! ## Loads arrive (R210, R224, R357) -/

/-- A byte that a load gets from its core: what it knows of it, else the core's dirty byte (R22, R224 case 1). -/
def coreByte (s : State) (w : LoadWait) (a : Nat) : Option Byte :=
  match w.known.find? (·.1 == a) with
  | some x => x.2
  | none => match l1Find s (lineOf a) with
    | none => none
    | some l => if !isX a && l.dirty.testBit (a % 128) then some (stGet 0 l.bytes (a % 128)) else none

/-- The bytes a load gets with a reply, and whether the reply gave any. -/
def mergeDirty (s : State) (w : LoadWait) (bs : List Byte) : List Byte × Bool :=
  ((List.range w.size).map (fun k => (coreByte s w (w.pa + k)).getD (bs.getD k 0)),
   (List.range w.size).any (fun k => (coreByte s w (w.pa + k)).isNone))

/-- The value time of a read that is served now joins its stream's SPCT (R278) or its threads' PCT, where the read gives them some byte (R214). -/
def joinVt (l : List LoadWait) (vt : Nat) (s : State) : State :=
  l.foldl (fun s w => match w.stream with
    | some n => s.updSeqs (fun q => q.n == n && q.pend.any (·.tag == w.tag)) (fun q => { q with spct := max q.spct vt })
    | none =>
      if (mergeDirty s w []).2 then
        s.updThreads (fun t => t.is w.slot w.lane && (t.pend.any (·.tag == w.tag) || decide (t.park = .record w.tag ∨ t.park = .ret w.tag))) (·.sawVt (some vt))
      else s) s

/-- A load that has issued meets poison: its result is never written, and the thread traps at it (R29, R357). -/
def loadPoisoned (tag : Nat) (pc : PC) (va : DWord) (s : State) : State :=
  let s := leaveColl s.th.slot s.th.lane s
  s.updTh (fun t => { t.dropResult tag with park := .trap { cause := .poison, addr := va } (pc64 pc) false, smark := false })

/-- A load's bytes arrive at its thread or stream. -/
def deliver (w : LoadWait) (bs : List Byte) (vt : Nat) (bad : Bool) (s : State) : State :=
  match w.stream with
  | some n => s.asSeq n (fun s =>
      if !s.sq.pend.any (·.tag == w.tag) then s
      else if bad then
        let s := { s with sq := { s.sq with pend := s.sq.pend.filter (·.tag != w.tag) } }
        if s.sq.stop = 0 then stopStreamAt (pc64 w.pc) 7 s else settleSeq n s
      else { s with sq := { s.sq.arrive w.tag (loadC w.size w.signed bs) with spct := max s.sq.spct vt } })
  | none => s.asThread w.slot w.lane (fun s =>
      let (bs, any) := mergeDirty s w bs
      let bad := (bad && any) || w.bad || (List.range w.size).any (fun k => !w.known.any (·.1 == w.pa + k) && dirtyBad s (w.pa + k))
      if s.th.park = .record w.tag then
        s.updTh (fun t => { t.sawVt (if any then some vt else none) with park := .none, got := some (t.pc, w.pa, if bad then none else some bs) })
      else if s.th.park = .ret w.tag then
        if bad then raise { cause := .poison, addr := w.va } s
        else finishRet (BitVec.ofNat 64 (leNat bs)) (s.updTh (·.sawVt (if any then some vt else none)))
      else if !s.th.pend.any (·.tag == w.tag) then s
      else if bad then loadPoisoned w.tag w.pc w.va s
      else s.updTh (fun t => ((t.arrive w.tag (loadWords w.size w.signed bs)).sawVt (if any then some vt else none)).served w.tag))

/-- The part of a sector's or line's bytes that a load asked for; `base` is their home address. -/
def partOf (base : Nat) (bs : List Byte) (w : LoadWait) : List Byte := (bs.drop (w.pa - base)).take w.size

/-! ## Fills (R210) -/

/-- The reply of the home to one fill. -/
def fillAnswer (f : Fill) (s : State) : Fill × State :=
  let base := f.line * 128 + f.sec * 64
  if isPoisoned s base 64 then ({ f with reply := some ([], 0, 0, true) }, s)
  else if isX base then
    let (i, s) := s.draw
    ({ f with reply := some (homeBytes s base 64, 0, Config.freeDelay i, false) }, joinVt f.waits (Config.freeDelay i) s)
  else if f.alloc then
    let (s, e, vt) := grantLease f.line f.lease s.did s
    ({ f with reply := some (homeRead s base 64, e, vt, false) }, joinVt f.waits vt s)
  else
    let vt := (lineRec s f.line).vl
    ({ f with reply := some (homeRead s base 64, 0, vt, false) }, joinVt f.waits vt s)

def fillMaster (s : State) (f : Fill) : Nat := if f.waits.any (·.stream.isSome) then masterEngine s 3 else masterCore s

/-- An earlier multicast load of the core waits in an open window for the line: the core's other requests for it stay behind (R22, R209, R242). -/
def windowHolds (s : State) (line : Nat) : Bool :=
  s.sl.windows.any (fun w => w.line == line && w.closed.isNone && !w.reqs.isEmpty)

/-- A request reaches its home; the fills of one bundle for one line are one read of it (R97). -/
def serveFills (id : Nat) (f : Fill) (s : State) : State :=
  let same := fun (m : Msg) => match m.body with
    | .fill g => m.id == id || (g.bundle == f.bundle && g.line == f.line && g.reply.isNone && !f.waits.any (·.stream.isSome) && !g.waits.any (·.stream.isSome))
    | _ => false
  let mates := s.pl.net.filter (fun m => same m && (netBefore s m.id).all (fun x => bodyLine x.body != f.line || bodyServed x.body || same x) && !otherBefore s m.id f.line)
  mates.foldl (fun s m => match m.body with
    | .fill g => let (g', s) := fillAnswer g s; netUpd m.id (fun _ => .fill g') s
    | _ => s) s

def fillRequestStep (id : Nat) (s : State) : State :=
  match s.pl.net.find? (·.id == id) with
  | some m => match m.body with
    | .fill f => if mayServe s m && !windowHolds s f.line then gate (fillMaster s f) f.ctx (f.line * 128 + f.sec * 64) 64 (serveFills id f) s else s
    | _ => s
  | none => s

def fillReplyStep (id : Nat) (s : State) : State :=
  match s.pl.net.find? (·.id == id) with
  | some m => match m.body with
    | .fill f => match f.reply with
      | some (bs, e, vt, bad) =>
        if !mayReturn s m then s
        else
          let base := f.line * 128 + f.sec * 64
          let s := netDrop id s
          let s := if f.alloc && !bad then l1Install f.line f.sec bs e vt f.keep s
            else if f.waits.any (·.stream.isNone) then l1Invalidate f.line f.sec s else s
          f.waits.foldl (fun s w => deliver w (partOf base bs w) vt bad s) s
      | none => s
    | _ => s
  | none => s

/-! ## Writes (R209, R213, R214, R258, R388) -/

def writerMaster (s : State) : Writer → Nat
  | .engine 1 op => match s.cl.copyQ.find? (fun c => c.id == op && decide (c.kind = .hostCopy)) with
    | some c => 0x8000 + 4 * c.slot + 1
    | none => masterEngine s 1
  | .engine u _ => masterEngine s u
  | .stream _ _ _ => masterEngine s 3
  | .host => 0x4030
  | .module _ => 0x4000
  | _ => masterCore s

/-- The sectors that a write covers. -/
def fullSectors (ws : List (Nat × Byte)) : List Nat :=
  let addrs := ws.map (·.1)
  (addrs.map (· / 64)).eraseDups.filter (fun c => (List.range 64).all (fun i => addrs.contains (c * 64 + i)))

/-- A write to another module commits there; its completion time is in that module's time base, beyond its leases (R213, R388), and
the events that its attachments refuse are free (R269); a memory pool triggers nothing (R406). -/
def commitRemote (ws : List (Nat × Byte)) (depth : Nat) (s : State) : Nat × List Refused × State :=
  let (i, s) := s.draw
  let base := (ws.map (fun w => lineOf w.1 * 128)).headD 0
  let pool := s.root.domain.any (fun d => d.pool && d.m == xModule base)
  let rf := (if pool then [] else Config.remoteEvents i).filterMap (fun e =>
    let lo := base + e.2.2.1
    if ws.any (fun w => decide (lo ≤ w.1 ∧ w.1 < lo + e.2.2.2)) then some { gran := e.1, aid := e.2.1, depth := depth + 1, lo := lo, len := e.2.2.2 } else none)
  (s.clock.tbase + 40 + Config.freeDelay i, rf,
   { s with remote := soSetAll s.remote ws, sl := { s.sl with poison := s.sl.poison.filter (fun c => !(fullSectors ws).contains c) } })

/-- A write to a module that cannot be reached may or may not have committed there (R390). -/
def maybeRemote (ws : List (Nat × Byte)) (s : State) : State :=
  let (i, s) := s.draw
  if Config.freeDelay i % 2 = 0 then s else { s with remote := soSetAll s.remote ws }

/-- Sectors that a write brings poisoned stay so (R356). -/
def keepPoison (l : List Nat) (s : State) : State :=
  { s with sl := { s.sl with poison := s.sl.poison ++ l.filter (fun p => !s.sl.poison.contains p) } }

/-- The die of a write's agent (R213): a host copy's is that of the cluster whose engine runs it. -/
def writerDie (s : State) (w : Writer) : Nat :=
  match w with
  | .engine 1 op => match s.cl.copyQ.find? (fun c => c.id == op && decide (c.kind = .hostCopy)) with
    | some c => c.slot / 72
    | none => s.did
  | _ => s.did

/-- A write commits at its home; a write-back's poison stays with its sectors (R356). -/
def commitMsg (w : WriteMsg) (s : State) : WriteMsg × State :=
  match w.ws with
  | [] => ({ w with ack := some (0, []) }, s)
  | (h, _) :: _ =>
    if isX h then
      let (t, rf, s) := commitRemote w.ws w.depth s
      ({ w with ack := some (t, rf) }, keepPoison w.poison s)
    else
      let (s, t, rf) := commit w.ws w.depth (.die (writerDie s w.writer)) s
      ({ w with ack := some (t, rf) }, keepPoison w.poison s)

/-- The bytes from the lowest to the highest that a write carries; one of none, which asks nothing of any memory, counts as another module's. -/
def spanLo (ws : List (Nat × Byte)) : Nat := ws.foldl (fun n x => min n x.1) ((ws.map (·.1)).headD (2 ^ 39))
def spanLen (ws : List (Nat × Byte)) : Nat := ws.foldl (fun n x => max n (x.1 + 1)) 0 - (if ws.isEmpty then 0 else spanLo ws)

def writeCommitStep (id : Nat) (s : State) : State :=
  match s.pl.net.find? (·.id == id) with
  | some m => match m.body with
    | .write w =>
      if !mayServe s m || windowHolds s (bodyLine m.body) then s
      else gate (writerMaster s w.writer) w.ctx (spanLo w.ws) (spanLen w.ws) (fun s =>
        let (w', s) := commitMsg w s
        netUpd id (fun _ => .write w') s) s
    | _ => s
  | none => s

/-- A completion time of an engine operation's write (R214). -/
def engineTime (u op wct : Nat) (s : State) : State :=
  if u = 0 then
    let f := fun (e : REntry) => { e with opct := max e.opct wct }
    { s with
      cl := { s.cl with table := updIf (·.seq == op) f s.cl.table }
      standby := { s.standby with entries := updIf (·.seq == op) f s.standby.entries } }
  else
    let f := fun (c : CopyOp) => { c with opct := max c.opct wct }
    { s with
      cl := { s.cl with copyQ := updIf (·.id == op) f s.cl.copyQ }
      standby := { s.standby with ops := updIf (·.id == op) f s.standby.ops } }

/-- A write-back that some release forced counts for the trees that complete meanwhile, each a release of its own (R163, R219). -/
def joinTrees (wct : Nat) (s : State) : State :=
  { s with sched := { s.sched with trees := updIf (fun t => t.count == 0 && !t.detached && t.sigAt.isNone) (fun t => { t with tct := max t.tct wct }) s.sched.trees } }

/-- The acknowledgement of the write with message number `id` reaches its writer. -/
def acknowledged (id : Nat) (w : WriteMsg) (wct : Nat) (rf : List Refused) (s : State) : State :=
  match w.writer with
  | .threads who =>
    let s := who.foldl (fun s x => treeTime x.tree wct (ownTime x.uid x.seq wct s)) s
    let s := l1Stamp w.ws wct (if w.intoL1 then l1Take w.ws s else s)
    wakeWct (refuseAll w.ctx (fun r t => shareHits who r t) rf s)
  | .forced uid => wakeWct (refuseAll w.ctx (fun _ t => t.uid == uid) rf ((joinNo w.who uid).foldl (fun s u => ownTime u id wct s)
      (l1Stamp w.ws wct (joinTrees wct { s with backs := stSet 0 s.backs w.tag (max (stGet 0 s.backs w.tag) wct) }))))
  | .stream n h t =>
    let s := treeTime t wct (s.updBlock h (fun b => { b with bct := max b.bct wct }))
    reportRefused w.ctx rf (s.updSeqs (fun q => q.n == n && q.block == h) (fun q => { q with spct := max q.spct wct }))
  | .evict => wakeWct (reportRefused w.ctx rf (w.who.foldl (fun s u => ownTime u id wct s) (l1Stamp w.ws wct { s with epct := max s.epct wct })))
  | .engine u op => reportRefused w.ctx rf (engineTime u op wct s)
  | _ => reportRefused w.ctx rf s

/-- The threads of an atomic request with the bytes each brought. DESIGN CHOICE (log entry 105): a thread whose `cas` failed counts among those that
carried bytes (R267). -/
def atomicShares (a : AtomicMsg) : List Share := a.steps.map (fun x => { uid := x.uid, tree := x.tree, lo := x.pa, len := amoSize x.f, seq := x.tag })

def writeAckStep (id : Nat) (s : State) : State :=
  match s.pl.net.find? (·.id == id) with
  | some m =>
    if !mayReturn s m then s
    else match m.body with
      | .write w => match w.ack with
        | some (t, rf) => acknowledged id w t rf (netDrop id s)
        | none => s
      | .atomic a => match a.ack with
        | some (t, rf) =>
          let who := atomicShares a
          let s := who.foldl (fun s x => treeTime x.tree t (ownTime x.uid x.seq t s)) (netDrop id s)
          wakeWct (refuseAll a.ctx (fun r t => shareHits who r t) rf s)
        | none => s
      | _ => s
  | none => s

/-! ## Atomics at the home (R235 to R239, R357) -/

/-- The bytes a request has seen and written so far. -/
def stepByte (s : State) (w : List (Nat × Byte)) (a : Nat) : Byte := (soGet w a).getD (homeByte s a)

/-- One step of a request: its old value, and the bytes written after it. -/
def amoApply (s : State) (w : List (Nat × Byte)) (x : AtomicStep) : DWord × List (Nat × Byte) :=
  let n := amoSize x.f
  let old := BitVec.ofNat 64 (leNat ((List.range n).map (fun k => stepByte s w (x.pa + k))))
  match amoNew x.f old x.b x.expect with
  | none => (old, w)
  | some v => (old, soSetAll w (atAddr x.pa (leBytes v.toNat n)))

/-- A step's thread receives the old value with the value time of the line (R214), and an acquire ends; poison traps it. -/
def amoArrive (x : AtomicStep) (old : DWord) (vt : Nat) (bad : Bool) (s : State) : State :=
  s.asThread x.slot x.lane (fun s =>
    if !s.th.pend.any (·.tag == x.tag) then s
    else if bad then loadPoisoned x.tag x.pc x.va s
    else s.updTh (fun t => ((t.arrive x.tag (amoWords x.f old)).sawVt (some vt)).served x.tag))

/-- The request is applied in lane order, commits as one write, and its old values leave. -/
def serveAtomic (a : AtomicMsg) (s : State) : AtomicMsg × State :=
  let bad := fun (x : AtomicStep) => isPoisoned s x.pa 1
  let run := a.steps.foldl (fun (acc : List (AtomicStep × DWord) × List (Nat × Byte)) x =>
    if bad x then acc else
      let (old, w) := amoApply s acc.2 x
      (acc.1 ++ [(x, old)], w)) (([] : List (AtomicStep × DWord)), ([] : List (Nat × Byte)))
  let (vt, s) : Nat × State := match a.steps with
    | x :: _ => if isX x.pa then let (i, s) := s.draw; (Config.freeDelay i, s) else ((lineRec s (lineOf x.pa)).vl, s)
    | [] => (0, s)
  let (s, t, rf) : State × Nat × List Refused := match run.2 with
    | [] => (s, 0, [])
    | (h, _) :: _ => if isX h then let (t, rf, s) := commitRemote run.2 a.depth s; (s, t, rf) else commit run.2 a.depth (.die s.did) s
  let s := (a.steps.filter bad).foldl (fun s x => amoArrive x 0 0 true s) s
  let s := run.1.foldl (fun s r => amoArrive r.1 r.2 vt false s) s
  ({ a with ack := some (t, rf) }, s)

def atomicStep1 (id : Nat) (s : State) : State :=
  match s.pl.net.find? (·.id == id) with
  | some m => match m.body with
    | .atomic a =>
      if !mayServe s m || windowHolds s (bodyLine m.body) then s
      else gate (masterCore s) a.ctx (bodyLine m.body * 128) 128 (fun s =>
        let (a', s) := serveAtomic a s
        netUpd id (fun _ => .atomic a') s) s
    | _ => s
  | none => s

/-! ## Multicast windows (R242, R243) -/

/-- No write of the core that drops its copy of a sector, and no later read of it, is on its way to the home (R224, R233, R237): what a read
finds there now is no copy to keep, as a fill ahead of such a request leaves none (`l1Renew`). -/
def mayInstall (s : State) (line sec : Nat) : Bool :=
  !s.pl.net.any (fun m => match m.body with
    | .write w => w.ack.isNone && !w.intoL1 && (match w.writer with | .threads _ => true | _ => false) && w.ws.any (fun x => x.1 / 64 == 2 * line + sec)
    | .atomic a => a.ack.isNone && a.steps.any (fun x => x.pa / 64 == 2 * line + sec)
    | .fill f => f.line == line && f.sec == sec && f.reply.isNone && !f.waits.isEmpty
    | _ => false)

/-- Write-throughs that a read now served follows give the core's copy nothing when they return: its bytes are as new (R215, R224). -/
def leaveTaken (line : Nat) (s : State) : State :=
  { s with pl := { s.pl with net := s.pl.net.map (fun m => match m.body with
    | .write w => if bodyLine m.body == line && w.ack.isSome then { m with body := .write { w with intoL1 := false } } else m
    | _ => m) } }

/-- The line of a multicast reply to one request (R243): installed as fills under the lease of the request, and each load's bytes
delivered, in the plane that asked. -/
def mcastReply (x : McastMsg) (s : State) : State :=
  let line := x.line
  let base := line * 128
  let reply := fun (s : State) =>
    let bad := fun (a : Nat) => isPoisoned s a 1
    let bs := homeRead s base 128
    let (s, e, vt) := grantLease line x.lease s.did s
    let s := if bad base || !mayInstall s line 0 then s else l1Install line 0 (bs.take 64) e vt false s
    let s := if bad (base + 64) || !mayInstall s line 1 then s else l1Install line 1 (bs.drop 64) e vt false s
    x.waits.foldl (fun s w => deliver w (partOf base bs w) vt (bad w.pa) s) (leaveTaken line s)
  if mcastHere s x then reply s else s.inOther reply

def setWindow (i : Nat) (w : Window) (s : State) : State := { s with sl := { s.sl with windows := s.sl.windows.set i w } }

def sameKey (w : Window) (x : McastMsg) : Bool := w.line == x.line && w.n0 == x.n0 && w.mask == x.mask

/-- Closes window `i` now: one read serves every request that joined. -/
def closeWindow (i : Nat) (s : State) : State :=
  match s.sl.windows[i]? with
  | none => s
  | some w =>
    if w.closed.isSome then s
    else w.reqs.foldl (fun s x => mcastReply x s) (setWindow i { w with closed := some s.clock.cycle, reqs := [] } s)

/-- Closes it if every named core has asked. -/
def settleWindow (i : Nat) (s : State) : State :=
  match s.sl.windows[i]? with
  | none => s
  | some w => if w.mask &&& ~~~w.asked = 0 then closeWindow i s else s

def windowIdx (s : State) (p : Window → Bool) : Option Nat := s.sl.windows.findIdx? p

/-- A multicast request reaches its slice. -/
def serveMcast (id : Nat) (x : McastMsg) (s : State) : State :=
  let bit : DWord := 1#64 <<< x.bit
  let now := s.clock.cycle
  let late := fun (w : Window) => sameKey w x && (match w.closed with | some k => decide (now < k + w.len) && w.asked &&& bit == 0 | none => false)
  let s := netDrop id s
  match windowIdx s (fun w => sameKey w x && w.closed.isNone) with
  | some i => match s.sl.windows[i]? with
    | some w => settleWindow i (setWindow i { w with joined := w.joined ||| bit, asked := w.asked ||| bit, reqs := w.reqs ++ [x] } s)
    | none => s
  | none => match windowIdx s late with
    | some i => match s.sl.windows[i]? with
      | some w => mcastReply x (setWindow i { w with asked := w.asked ||| bit } s)
      | none => s
    | none =>
      let q := homeSlice (x.line * 128)
      if (s.sl.windows.filter (·.slice == q)).length < 16 then
        let w : Window := { slice := q, line := x.line, n0 := x.n0, mask := x.mask, joined := bit, asked := bit, reqs := [x]
                            opened := now, len := s.curCtx.mcwin.toNat }
        settleWindow s.sl.windows.length { s with sl := { s.sl with windows := s.sl.windows ++ [w] } }
      else mcastReply x s

/-- An earlier multicast load of the core waits in an open window of another key for the line: a later one stays behind it (R209). -/
def otherWindow (s : State) (x : McastMsg) : Bool :=
  s.sl.windows.any (fun w => w.line == x.line && !sameKey w x && w.closed.isNone && !w.reqs.isEmpty)

def mcastStep (id : Nat) (s : State) : State :=
  match s.pl.net.find? (·.id == id) with
  | some m => match m.body with
    | .mcast x => if mayServe s m && !otherWindow s x then gate (masterCore s) x.ctx (x.line * 128) 128 (serveMcast id x) s else s
    | _ => s
  | none => s

/-- A closed window whose slot may be used again. -/
def slotDone (s : State) (w : Window) : Bool :=
  match w.closed with
  | some k => decide (s.clock.cycle ≥ k + w.len) || w.mask &&& ~~~w.asked == 0
  | none => false

/-! ## `fwait` at the home (R248, R249) -/

/-- The entry of a word in its slice's wait table, or a free one, exists. -/
def waitRoom (s : State) (pa : Nat) : Bool :=
  s.sl.waits.any (·.pa == pa) || decide ((s.sl.waits.filter (fun w => homeSlice w.pa == homeSlice pa)).length < 1024)

def waitJoin (pa slot lane : Nat) (s : State) : State :=
  let ws := if s.sl.waits.any (·.pa == pa) then updIf (·.pa == pa) (fun w => { w with who := w.who ++ [(slot, lane)] }) s.sl.waits
    else s.sl.waits ++ [{ pa := pa, who := [(slot, lane)] }]
  { s with sl := { s.sl with waits := ws } }

/-- No request of the core to the line is ahead. -/
def lineClear (s : State) (h : Nat) : Bool :=
  !s.pl.net.any (fun m => bodyLine m.body == lineOf h && !bodyServed m.body) && !otherBefore s s.nextId (lineOf h)

/-- The read-and-register step of the acting thread: the core's dirty bytes of the line go first, and the requests of the core to the
line that are ahead are served (R209, R220). A word of another module is read again until it changes; whether its slice's table
has room is not known here. -/
def fwaitStep (s : State) : State :=
  match s.th.park with
  | .fwait va pa e d asleep =>
    let s := if isX pa then s else (writeBack (lineOf pa) (.forced s.th.uid) s).2
    if asleep && !isX pa then s
    else if !lineClear s pa || windowHolds s (lineOf pa) then s
    else if isX pa && isUnreachable s (xModule pa) then raise { cause := .poison, addr := va } (linkLost s.ctxNo (xModule pa) s)
    else gate (masterCore s) s.ctxNo pa 4 (fun s =>
      if readPoisoned s pa 4 then raise { cause := .poison, addr := va } s
      else
        let w : Word := BitVec.ofNat 32 (leNat (homeBytes s pa 4))
        let (room, vt, s) : Bool × Nat × State := if isX pa then
            let (i, s) := s.draw
            (asleep || Config.remoteRoom i, Config.freeDelay i, s)
          else (waitRoom s pa, (lineRec s (lineOf pa)).vl, s)
        let s := s.updTh (·.sawVt (some vt))
        if w ≠ e ∨ room = false then resumeWith d w 40 (l1Forget pa s)
        else (if isX pa then s else waitJoin pa s.th.slot s.th.lane s).updTh (fun t => { t with park := .fwait va pa e d true })) s
  | _ => s

/-! ## `flush` and `icinv` (R98, R246) -/

def anyInNet (s : State) (ids : List Nat) : Bool := s.pl.net.any (fun m => ids.contains m.id)

/-- The number of a cached instruction word: context and virtual address (R25). -/
def codeKey (c : Nat) (pc : PC) : Nat := c * 2 ^ 57 + pc.toNat

/-- A cached word is of a context's range, whose pages are found: at its addresses, or in the home bytes of its lines under another address
or context. -/
def codeIn (s : State) (c lo hi : Nat) (pages : List (Nat × Option Nat)) (key : Nat) : Bool :=
  let va := key % 2 ^ 57
  (key / 2 ^ 57 == c && decide ((va + 2 ^ 57 - lo % 2 ^ 57) % 2 ^ 57 < hi - lo))
  || (match s.icHome.find? (·.1 == key / 128 * 128) with
    | some h => inPages pages lo (hi - lo) (lineOf h.2)
    | none => false)

/-- The lines of a context's range leave the instruction caches (R98). -/
def dropCode (c lo hi : Nat) (pages : List (Nat × Option Nat)) (s : State) : State :=
  { s with icache := s.icache.filter (fun x => !codeIn s c lo hi pages x.1) }

/-- WRITE_COMMIT (R213). -/
def execWriteCommit (id : Nat) (s : State) : Answer :=
  .next (s.atMsg id (writeCommitStep id))

/-- WRITE_ACK (R214). -/
def execWriteAck (id : Nat) (s : State) : Answer :=
  .next (s.atMsg id (writeAckStep id))

/-- FILL_REQUEST (R210). -/
def execFillRequest (id : Nat) (s : State) : Answer :=
  .next (s.atMsg id (fillRequestStep id))

/-- FILL_REPLY (R210). -/
def execFillReply (id : Nat) (s : State) : Answer :=
  .next (s.atMsg id (fillReplyStep id))

/-- ATOMIC_AT_HOME (R238). -/
def execAtomicAtHome (id : Nat) (s : State) : Answer :=
  .next (s.atMsg id (atomicStep1 id))

/-- MCAST_REQUEST (R242). -/
def execMcastRequest (id : Nat) (s : State) : Answer :=
  .next (s.atMsg id (mcastStep id))

/-- MCAST_WINDOW_CLOSE (R242): a window closes at its time limit. -/
def execMcastWindowClose (w : Nat) (s : State) : Answer :=
  .next (match s.sl.windows[w]? with
  | some x => if x.closed.isNone && decide (s.clock.cycle ≥ x.opened + x.len) then closeWindow w s else s
  | none => s)

/-- MCAST_SLOT_FREE (R242). -/
def execMcastSlotFree (w : Nat) (s : State) : Answer :=
  .next (match s.sl.windows[w]? with
  | some x => if slotDone s x then { s with sl := { s.sl with windows := s.sl.windows.eraseIdx w } } else s
  | none => s)

/-- FWAIT_RETRY (R248). -/
def execFwaitRetry (who : Agent) (s : State) : Answer :=
  .next (s.atThread who fwaitStep)

/-- FLUSH_COMPLETE (R246). -/
def execFlushComplete (who : Agent) (s : State) : Answer :=
  .next (s.atThread who (fun s =>
    match s.th.park with
    | .flush ids => if anyInNet s ids then s else s.updTh Thread.resume
    | _ => s))

/-- ICINV_COMPLETE (R98): once every write-back is acknowledged and the time base has passed the thread's PCT. -/
def execIcinvComplete (who : Agent) (s : State) : Answer :=
  .next (s.atThread who (fun s =>
    match s.th.park with
    | .icinv lo hi ids =>
      if anyInNet s ids || writesOpen s s.th.uid || decide (s.clock.tbase < s.th.pct) then s
      else (dropCode s.ctxNo lo hi s.th.found s).updTh (fun t => { t.resume with found := [] })
    | _ => s))

end Sys2Proof.Machine
end

