-- ==== Sys2Proof/Machine/Fault.lean ====
section
/-! DEFINITION. Page walks, recoverable faults and stored errors (R354 to R357, R374, R377 to R379). -/

namespace Sys2Proof.Machine

open Sys2Proof

/-! ## Who waits on a page (R374, R379) -/

/-- The page of an address. -/
def pageOf (va : Nat) : Nat := va % 2 ^ 57 / 4096

def walkPark (page : Nat) (acc : Acc) : Park → Bool
  | .walk va a => pageOf va == page && a == acc
  | _ => false

def faultPark (page : Nat) (acc : Acc) : Park → Bool
  | .fault va a => pageOf va == page && a == acc
  | _ => false

def walkSPark (page : Nat) (acc : Acc) : SPark → Bool
  | .walk va a => pageOf va == page && a == acc
  | _ => false

def faultSPark (page : Nat) (acc : Acc) : SPark → Bool
  | .fault va a => pageOf va == page && a == acc
  | _ => false

/-- The context a stream runs for. -/
def seqCtxNo (s : State) (q : SeqCtx) : Nat := ((s.block? q.block).map (·.ctx)).getD 0

/-- A `pref` waits for the walk of a page. -/
def prefPark (page : Nat) (acc : Acc) : Park → Bool
  | .pref va => pageOf va == page && acc == .read
  | _ => false

/-- A range instruction waits for the walk of a page. -/
def pagesPark (page : Nat) (acc : Acc) : Park → Bool
  | .pages p => p == page && acc == .read
  | _ => false

/-- A thread of the core waits for the walk of a page with an access. -/
def coreWants (s : State) (c page : Nat) (acc : Acc) : Bool :=
  s.pl.ctx == some c && s.living.any (fun t => walkPark page acc t.park || prefPark page acc t.park || pagesPark page acc t.park)

/-- A thread or a stream that takes a fault waits for the walk of a page with an access. -/
def walkWanted (s : State) (c page : Nat) (acc : Acc) : Bool :=
  (s.pl.ctx == some c && s.living.any (fun t => walkPark page acc t.park)) || s.allSeqs.any (fun q => seqCtxNo s q == c && walkSPark page acc q.park)

/-- Those who wait for the walk of a page go on. -/
def wakeWalk (c page : Nat) (acc : Acc) (s : State) : State :=
  let s := if s.pl.ctx = some c then s.updThreads (fun t => walkPark page acc t.park || prefPark page acc t.park) (fun t => { t with park := .none }) else s
  s.updSeqs (fun q => seqCtxNo s q == c && walkSPark page acc q.park) (fun q => { q with park := .none })

/-- A `pref` whose page faults does nothing (R247): it issues once more, knowing that. -/
def failPrefs (c page : Nat) (acc : Acc) (s : State) : State :=
  if s.pl.ctx = some c then s.updThreads (fun t => prefPark page acc t.park) (fun t => { t with park := .none, got := some (t.pc, page, none) }) else s

/-- Range instructions that wait for a page know its home, or that it has none, and issue once more. -/
def notePages (c page : Nat) (acc : Acc) (h : Option Nat) (s : State) : State :=
  if s.pl.ctx = some c then s.updThreads (fun t => pagesPark page acc t.park) (fun t => { t with park := .none, found := t.found ++ [(page, h)] }) else s

/-- Those who wait for the walk of a page wait for its fault now. -/
def faultWalk (c page : Nat) (acc : Acc) (s : State) : State :=
  let f := fun (p : Park) => match p with | .walk va a => .fault va a | p => p
  let g := fun (p : SPark) => match p with | .walk va a => .fault va a | p => p
  let s := if s.pl.ctx = some c then s.updThreads (fun t => walkPark page acc t.park) (fun t => { t with park := f t.park }) else s
  s.updSeqs (fun q => seqCtxNo s q == c && walkSPark page acc q.park) (fun q => { q with park := g q.park })

/-- The unit a fault's record names (R378): the core where one of its threads waits, else the sequencer. -/
def faultSource (s : State) (c page : Nat) (acc : Acc) : Nat :=
  if s.pl.ctx = some c ∧ s.living.any (fun t => walkPark page acc t.park) then masterCore s else masterEngine s 3

/-! ## Outstanding faults (R377 to R379) -/

/-- A fault joins the record of its key or makes one; none where the unit is full. -/
def addFault (c page : Nat) (acc : Acc) (kind lvl : Nat) (e : DWord) (src : Nat) (s : State) : Option State :=
  if s.xl.faults.any (fun f => f.ctx == c && f.page == page && f.acc == acc) then some s
  else if s.xl.faults.length ≥ 1024 then none
  else some { s with xl := { s.xl with faults := s.xl.faults ++ [{ ctx := c, page := page, acc := acc, kind := kind, level := lvl, entry := e, srcid := src }] } }

/-- The end of a walk for one kind of access: a translation, or a fault; false where the fault waits for a place. The engines that
wait find it when they try again. -/
def walkOutcome (c page : Nat) (acc : Acc) (engs : List Nat) (s : State) : Bool × State :=
  if !(walkWanted s c page acc || coreWants s c page acc || !engs.isEmpty) then (true, s)
  else match walkPage s c (page * 4096) acc with
    | .leaf lvl e seen =>
      let (t, s) := leafTaken c (page * 4096) lvl e s
      (true, notePages c page acc (some ((leafEnt c (page * 4096) lvl e).home (page * 4096))) (wakeWalk c page acc (learnLeaf (coreWants s c page acc || engs.contains s.coreNo) t seen s)))
    | .fault kind lvl e =>
      let s := notePages c page acc (if kind = 1 then some ((leafEnt c (page * 4096) lvl e).home (page * 4096)) else none) s
      let s := failPrefs c page acc { s with xl := { s.xl with missed := s.xl.missed ++ engs.map (fun m => { master := m, ctx := c, page := page, acc := acc }) } }
      if !walkWanted s c page acc then (true, s)
      else match addFault c page acc kind lvl e (faultSource s c page acc) s with
      | some s => (true, faultWalk c page acc s)
      | none => (false, s)

def walkEnd (i : Nat) (s : State) : State :=
  match s.xl.walks[i]? with
  | none => s
  | some w =>
    if !w.granted || isFrozen s masterWalker then s
    else match walkBarred s w.ctx (w.page * 4096) with
    | some a => freeze masterWalker w.ctx a s
    | none =>
      let (ok, s) := [Acc.read, Acc.write, Acc.atomic, Acc.fetch].foldl (fun (x : Bool × State) a =>
        let (k, s) := walkOutcome w.ctx w.page a ((w.engs.filter (·.2 == a)).map (·.1)) x.2; (x.1 && k, s)) (true, s)
      let rest := fun (l : List Walk) => if ok then l.eraseIdx i else l.mapIdx (fun k w => if k = i then { w with engs := [] } else w)
      { s with xl := { s.xl with walks := rest s.xl.walks } }

/-- The next waiting walk gets a walker, of 64 (R374). -/
def grantWalk (s : State) : State :=
  match s.xl.walks.findIdx? (fun w => !w.granted) with
  | some i =>
    if (s.xl.walks.filter (·.granted)).length < 64 then
      { s with xl := { s.xl with walks := s.xl.walks.mapIdx (fun k w => if k = i then { w with granted := true } else w) } }
    else s
  | none => s

def accCode : Acc → Nat
  | .read => 0
  | .write => 1
  | .atomic => 2
  | .fetch => 3

/-- A fault record's 64 bytes (Table 19-7). -/
def faultBytes (f : FaultRec) (now : Nat) : List Byte :=
  leBytes (((BitVec.ofNat 57 (f.page * 4096)).signExtend 64).toNat + 2 ^ 128 * accCode f.acc + 2 ^ 160 * (f.kind % 4)
      + 2 ^ 164 * (f.level % 16) + 2 ^ 240 * (f.srcid % 65536) + 2 ^ 320 * f.entry.toNat + 2 ^ 384 * now) 64

/-- Record address of place `k` (R377). -/
def faultAddr (c : Ctx) (k : Nat) : Nat := c.fqAddr + 64 + 64 * (k % c.fqSize)

/-- A fault record is written where the queue has room, and the context's fault interrupt is raised (R377, R398). -/
def writeFault (i : Nat) (s : State) : State :=
  match s.xl.faults[i]? with
  | none => s
  | some f => match f.idx, s.ctx? f.ctx with
    | none, some c =>
      if (c.widx + 2 ^ 32 - c.ridx) % 2 ^ 32 ≥ c.fqSize || isFrozen s masterFault then s
      else if !granted s masterFault f.ctx (faultAddr c c.widx) 64 then freeze masterFault f.ctx (faultAddr c c.widx) s
      else if !granted s masterFault f.ctx c.fqAddr 64 then freeze masterFault f.ctx c.fqAddr s
      else
        let (s, t) := commitQuiet f.ctx (atAddr (faultAddr c c.widx) (faultBytes f s.clock.tbase)) 0 .module s
        let next := (c.widx + 1) % 2 ^ 32
        let (s, t') := commitQuiet f.ctx (atAddr c.fqAddr (leBytes next 4)) 0 .module s
        let s := s.updCtx f.ctx (fun x => { x with widx := next })
        let s := { s with xl := { s.xl with faults := s.xl.faults.mapIdx (fun k x => if k = i then { x with idx := some c.widx } else x) } }
        notify (max t t') (32 + f.ctx) none s
    | _, _ => s

/-- Where the response to a written record stands. -/
def respAddr (s : State) (f : FaultRec) : Nat :=
  match f.idx, s.ctx? f.ctx with
  | some k, some c => faultAddr c k + 56
  | _, _ => 0

/-- The response the unit reads (R379): RESP, or 2 for a record that RIDX has passed unanswered; other values count as 2. -/
def faultResp (s : State) (f : FaultRec) : Nat :=
  match f.idx, s.ctx? f.ctx with
  | some k, some c =>
    let r := getLe s.mem (faultAddr c k + 56) 8
    if r = 0 then (if (c.ridx + 2 ^ 32 - (k + 1)) % 2 ^ 32 < 2 ^ 31 then 2 else 0)
    else if r ≤ 3 then r else 2
  | _, _ => 0

/-- The trap of a waiter whose fault is unresolvable (R354, Table 18-1). -/
def faultTrap (va : Nat) (acc : Acc) (perm : Bool) : Trap :=
  let addr := (BitVec.ofNat 57 va).signExtend 64
  let isWrite := decide (acc = .write ∨ acc = .atomic)
  if acc = .fetch then { cause := .ifetch, addr := addr, info := if perm then 1 else 0 }
  else if perm then { cause := .prot, addr := addr, info := (if isWrite then 1 else 0) + (if acc = .atomic then 2 else 0) }
  else { cause := .page, addr := addr, info := if isWrite then 1 else 0 }

/-- What the engines' operations that met a page do with the answer `r` of its fault: they go on, or end with their fault status when
they are next looked at. -/
def answerEngines (f : FaultRec) (r : Nat) (s : State) : State :=
  let here := fun (x : Option (Nat × Acc)) => match x with | some (va, a) => pageOf va == f.page && a == f.acc | none => false
  let mineE := fun (e : REntry) => (s.pl.blocks ++ s.standby.plane.blocks).any (fun b => b.handle == e.block && b.ctx == f.ctx) && here e.frozenFault
  let mineC := fun (c : CopyOp) => c.ctx == f.ctx && here c.frozen
  let endE := fun (e : REntry) => { e with frozenFault := none, denied := e.denied || r != 1 }
  let endC := fun (c : CopyOp) => { c with frozen := none, denied := c.denied || r != 1 }
  let saved := fun (b : Standby) => { b with entries := updIf (fun e => here e.frozenFault) endE b.entries, ops := updIf mineC endC b.ops }
  { s with
    cl := { s.cl with table := updIf mineE endE s.cl.table, copyQ := updIf mineC endC s.cl.copyQ, fetchQ := updIf mineC endC s.cl.fetchQ }
    standby := { s.standby with entries := updIf mineE endE s.standby.entries, ops := updIf mineC endC s.standby.ops }
    slots := updIf (·.ctx == f.ctx) (fun x => { x with standby := saved x.standby }) s.slots }

/-- The threads and streams that wait for a resolved page replay. -/
def replayWaiters (f : FaultRec) (s : State) : State :=
  let s := dropTranslations f.ctx (f.page * 4096) (f.page * 4096 + 4096) s
  let s := if s.pl.ctx = some f.ctx then s.updThreads (fun t => faultPark f.page f.acc t.park) (fun t => { t with park := .none }) else s
  s.updSeqs (fun q => seqCtxNo s q == f.ctx && faultSPark f.page f.acc q.park) (fun q => { q with park := .none })

/-- The threads that wait for an unresolvable page trap, and the streams stop. -/
def trapWaiters (f : FaultRec) (perm : Bool) (s : State) : State :=
  let streams := (s.allSeqs.filter (fun q => seqCtxNo s q == f.ctx && faultSPark f.page f.acc q.park)).map (·.n)
  let s := if s.pl.ctx = some f.ctx then
      (s.living.filter (fun t => faultPark f.page f.acc t.park)).foldl (fun s t =>
        match t.park with
        | .fault va a => trapAt t.slot t.lane (faultTrap va a perm) s
        | _ => s) s
    else s
  streams.foldl (fun s n => s.asSeq n (stopStream 5)) s

/-- A fault is answered: its waiters replay or trap. -/
def answerFault (i : Nat) (s : State) : State :=
  match s.xl.faults[i]? with
  | none => s
  | some f =>
    let r := faultResp s f
    if isFrozen s masterFault then s
    else if !granted s masterFault f.ctx (respAddr s f) 8 then freeze masterFault f.ctx (respAddr s f) s
    else if r = 0 then s
    else
      let s := answerEngines f r { s with xl := { s.xl with faults := s.xl.faults.eraseIdx i } }
      if r = 1 then replayWaiters f s else trapWaiters f (r == 3) s

/-- The device reads a context's RIDX again (R377, R358). -/
def rereadRidx (c : Nat) (s : State) : State :=
  match s.ctx? c with
  | none => s
  | some x =>
    if isFrozen s masterFault then s
    else if !granted s masterFault c x.fqAddr 64 then freeze masterFault c x.fqAddr s
    else s.updCtx c (fun y => { y with ridx := getLe s.mem (x.fqAddr + 8) 4 })

/-! ## Stored errors (R355 to R357) -/

/-- An entry of the RAS log, and interrupt source 65 (R398). -/
def rasLog (site : RasSite) (lasting : Bool) (s : State) : State :=
  let w := s.win
  setIrq 65 { s with
    root := { s.root with ras := s.root.ras ++ [{ site := site, lasting := lasting, time := s.clock.tbase }] }
    win := { w with
      rasTransient := if lasting then w.rasTransient else w.rasTransient + 1
      rasLasting := if lasting then w.rasLasting + 1 else w.rasLasting
      rasIdx := w.rasIdx + 1 } }

def poisonSector (pa : Nat) (s : State) : State :=
  { s with sl := { s.sl with poison := (pa / 64) :: s.sl.poison.filter (· != pa / 64) } }

/-- The 64 bytes that a lasting error of a store without marks leaves: none that the specification states. -/
def lostSector (i : Nat) : List Byte := (List.range 64).map (fun k => Config.freeImage (i * 2 ^ 24 + k))

/-- The effect of a retry that failed: a mark at the sector or register; a clean L1 sector is filled again. DESIGN CHOICE (log entry 97): scratch,
tiles and frames carry no marks (R356), and what they hold there is free. -/
def eccLasting (site : EccSite) (s : State) : State :=
  match site with
  | .memSector pa => poisonSector pa s
  | .l1Sector line sec => match l1Find s line with
    | none => s
    | some l =>
      if spanAny l.dirty (sec * 64) 64 then l1Put (if sec = 0 then { l with poison0 := true } else { l with poison1 := true }) s
      else l1Invalidate line sec s
  | .register slot lane p => s.updThreads (·.is slot lane) (fun t => { t with poisoned := p :: t.poisoned.filter (· != p) })
  | .sram key off =>
    let (i, s) := s.draw
    sramWrite key (off / 64 * 64) (lostSector i) s
  | .frame f off =>
    let (i, s) := s.draw
    { s with cl := { s.cl with frames := setBytes s.cl.frames (atAddr ((f * 65536 + off) / 64 * 64) (lostSector i)) } }

def eccTransient (site : EccSite) (s : State) : State :=
  match site with
  | .l1Sector line sec => match l1Find s line with
    | some l => if spanAny l.dirty (sec * 64) 64 then s else l1Invalidate line sec s
    | none => s
  | _ => s

/-- WALKER_GRANT (R374). -/
def execWalkerGrant (s : State) : Answer :=
  .next (grantWalk s)

/-- WALK_COMPLETE (R374). -/
def execWalkComplete (i : Nat) (s : State) : Answer :=
  .next (walkEnd i s)

/-- FAULT_RECORD_WRITE (R377). -/
def execFaultRecordWrite (i : Nat) (s : State) : Answer :=
  .next (writeFault i s)

/-- FAULT_RESPONSE (R379). -/
def execFaultResponse (i : Nat) (s : State) : Answer :=
  .next (answerFault i s)

/-- FAULT_QUEUE_REREAD (R377). -/
def execFaultQueueReread (c : Nat) (s : State) : Answer :=
  .next (rereadRidx c s)

/-- ECC_RETRY (R355, R356): an error that ECC corrects is counted and has no other effect. -/
def execEccRetry (site : EccSite) (how : EccEnd) (s : State) : Answer :=
  .next (match how with
  | .corrected => { s with win := { s.win with rasCorrected := s.win.rasCorrected + 1 } }
  | .transient => rasLog (.cell site) false (eccTransient site s)
  | .lasting => rasLog (.cell site) true (eccLasting site s))

end Sys2Proof.Machine
end

