-- ==== Sys2Proof/Machine/Pool.lean ====
section
/-! DEFINITION. The SRAM pool: the pool instructions of major 0x16 and the handshakes (R188 to R204). -/

namespace Sys2Proof.Machine

open Sys2Proof

/-! ## Result codes (Table 9-4) -/

def pOk : Nat := 0
def pPending : Nat := 1
def pLive : Nat := 2
def pFloor : Nat := 3
def pOwner : Nat := 4
def pDeadlock : Nat := 5
def pBadArg : Nat := 6
def pStandby : Nat := 7

def codeWord (c : Nat) : Word := BitVec.ofNat 32 c

/-- A thread of the warp waits in a `wshrink`. -/
def shrinkAsked (s : State) (slot : Nat) : Bool :=
  s.living.any (fun t => t.slot == slot && (match t.park with | .wshrink _ _ => true | _ => false))

/-- A warp's latest request is complete with a code (R188, R202); a `wshrink` that waited for it is then in progress. -/
def reqDone (slot code : Nat) (s : State) : State :=
  let more := shrinkAsked s slot
  s.updWarp slot (fun w => { w with lastReq := code, reqBusy := more })

/-- A request that is answered at once: the code of the warp's latest request changes unless one is in progress (R188, R189). -/
def reqAnswered (slot code : Nat) (s : State) : State := if (s.warpAt slot).reqBusy then s else reqDone slot code s

def reqOpen (slot : Nat) (s : State) : State := s.updWarp slot (fun w => { w with reqBusy := true })

/-- The spill engine saves or restores the standby plane. -/
def standbyBusy (s : State) : Bool := decide (s.standby.st = .saving) || decide (s.standby.st = .restoring)

/-! ## Banks that change role (R190, R191) -/

def setBusy (b : Bool) (ks : List Nat) (s : State) : State :=
  s.withPmap (ks.foldl (fun pm k => setBank pm k { bankOf pm k with busy := b }) s.pl.pmap)

/-- A line with a dirty byte lies in one of the banks. -/
def dirtyIn (s : State) (ks : List Nat) : Bool := s.pl.l1.any (fun l => ks.contains l.bank && l.dirty != 0)

/-- Writes back and drops the dirty lines of the banks; answers the messages. -/
def writeBackBanks (ks : List Nat) (s : State) : List Nat × State :=
  ((s.pl.l1.filter (fun l => ks.contains l.bank && l.dirty != 0)).map (·.line)).foldl (fun (x : List Nat × State) line =>
    let (id, s) := evict line x.2; (x.1 ++ id.toList, s)) ([], s)

/-- A warp's registers per thread become `n`; its pages are taken by R182, and the new registers read 0 (R196). -/
def grantRegs (slot n : Nat) (s : State) : State :=
  let w := s.warpAt slot
  match takePages (n / 8 - w.pages.length) s.pl.pmap (usedPages s) with
  | none => s
  | some (pgs, pm) =>
    let s := (s.withPmap pm).updThreads (·.slot == slot) (fun t => { t with regs := t.regs.filter (fun x => decide (x.1 < w.regsPer)) })
    s.updWarp slot (fun w => { w with pages := w.pages ++ pgs, regsPer := n })

/-- The parked blocking `wgrow` requests, one per warp (R197): slot, size and place in the order; oldest first. -/
def growAsks (s : State) : List (Nat × Nat × Nat) :=
  let one := fun (l : List (Nat × Nat × Nat)) (slot n since : Nat) =>
    match l.find? (·.1 == slot) with
    | some x => (slot, max n x.2.1, min since x.2.2) :: l.filter (·.1 != slot)
    | none => (slot, n, since) :: l
  let all := s.living.foldl (fun l t => match t.park with | .wgrow _ n since => one l t.slot n since | _ => l) []
  all.foldl (fun acc x => acc.takeWhile (fun y => decide (y.2.2 < x.2.2)) ++ [x] ++ acc.dropWhile (fun y => decide (y.2.2 < x.2.2))) []

/-- Every thread of a warp that waits in a blocking `wgrow` receives the code. -/
def wakeGrow (slot code : Nat) (s : State) : State :=
  reqDone slot code (s.updThreads (·.slot == slot) (fun t =>
    match t.park with
    | .wgrow tag _ _ => (t.arrive tag [codeWord code]).resume
    | _ => t))

/-- Free pages and F banks cover a warp's growth to `n`. -/
def pagesCover (s : State) (slot n : Nat) : Bool :=
  decide (n / 8 - (s.warpAt slot).pages.length ≤ freePages s + 16 * (freeBanks s.pl.pmap).length)

/-- The banks of a pending grow's pages that became F since, reserved (R183, R190). -/
def keptBanks (u : BankUse) (s : State) : List Nat :=
  match u with
  | .toRegs _ _ pages => ((pages.map (·.1)).eraseDups).filter (fun k => decide ((bankOf s.pl.pmap k).role = .free) && (bankOf s.pl.pmap k).busy)
  | _ => []

/-- Banks take their new role. -/
def giveBanks (ks : List Nat) (u : BankUse) (s : State) : State :=
  let ks := ks ++ keptBanks u s
  let s := { s with pl := { s.pl with l1 := s.pl.l1.filter (fun l => !ks.contains l.bank), pmap := ks.foldl (setRole .free) s.pl.pmap } }
  match u with
  | .toFree => s
  | .toTile h => match s.block? h with
    | some b => if b.ended then s else ks.foldl (fun s k => addTile k h s) s
    | none => s
  | .toRegs slot n _ => match (growAsks s).find? (·.1 == slot) with
    | some x => if pagesCover s slot x.2.1 then settleRegs (wakeGrow slot pOk (grantRegs slot x.2.1 s)) else settleRegs s
    | none => settleRegs (grantRegs slot n s)

/-! ## Relocation (R192) -/

/-- The plan of a shrink: each extent in ascending SBASE at the lowest place beside those placed; (handle, from, to). -/
def planExtents (bs : List Block) : List (Nat × Nat × Nat) :=
  let live := (bs.filter (·.scratch != 0))
  let sorted := live.foldl (fun (acc : List Block) b =>
    acc.takeWhile (fun y => decide (y.sbase ≤ b.sbase)) ++ [b] ++ acc.dropWhile (fun y => decide (y.sbase ≤ b.sbase))) []
  (sorted.foldl (fun (x : List (Nat × Nat) × List (Nat × Nat × Nat)) b =>
    let dest := placeExtent x.1 b.scratch
    ((dest, b.scratch) :: x.1, x.2 ++ [(b.handle, b.sbase, dest)])) ([], [])).2

/-- The moves that free the last `n` arena banks; none where the extents do not fit. -/
def relocPlan (s : State) (n : Nat) : Option (List (Nat × Nat × Nat)) :=
  let plan := planExtents s.pl.blocks
  let upto := plan.foldl (fun m p => max m (p.2.2 + ((s.block? p.1).map (·.scratch)).getD 0)) 0
  if n > s.pl.arena.length ∨ upto > 16384 * (s.pl.arena.length - n) then none
  else some (plan.filter (fun p => p.2.1 != p.2.2))

/-- Arena banks that the bytes from `lo` to `hi` lie in. -/
def arenaBanks (s : State) (lo hi : Nat) : List Nat :=
  ((List.range s.pl.arena.length).filter (fun i => decide (i * 16384 < hi ∧ lo < (i + 1) * 16384))).map (fun i => s.pl.arena.getD i 0)

/-- The banks a relocation takes part with. -/
def relocBanks (s : State) (n : Nat) (moves : List (Nat × Nat × Nat)) : List Nat :=
  (s.pl.arena.drop (s.pl.arena.length - n)
    ++ moves.flatMap (fun m =>
      let sz := ((s.block? m.1).map (·.scratch)).getD 0
      arenaBanks s m.2.1 (m.2.1 + sz) ++ arenaBanks s m.2.2 (m.2.2 + sz))).eraseDups

/-! ## Handshakes (R188, R191) -/

def answerReq (w : Option Nat) (code : Nat) (s : State) : State :=
  match w with
  | some k => reqDone k code s
  | none => s

/-- A handshake starts; it ends at once where nothing is dirty, or where a relocation no longer fits. -/
def beginShake (h : Handshake) (s : State) : State :=
  match h with
  | .writeback ks _ u w =>
    let (ids, s) := writeBackBanks ks s
    if ids.isEmpty then answerReq w pOk (giveBanks ks u s)
    else { s with pl := { s.pl with shake := some (.writeback ks ids u w) } }
  | .reloc n _ w =>
    match relocPlan s n with
    | none => answerReq w pLive s
    | some moves =>
      let s := setBusy true (relocBanks s n moves) s
      { s with pl := { s.pl with shake := some (.reloc n moves w) } }

/-- Waiting handshakes start in request order while none runs; once a swap is asked for they wait, to be saved with their warps (R193). -/
def nextShakes : Nat → State → State
  | 0, s => s
  | n + 1, s =>
    match s.pl.shake, s.pl.shakeQ with
    | none, h :: t => if swapWanted s || standbyBusy s then s else nextShakes n (beginShake h { s with pl := { s.pl with shakeQ := t } })
    | _, _ => s

/-- Requests that waited over a swap are served after it. -/
def settleShakes (s : State) : State := if s.swapEnd.isSome then s else nextShakes s.pl.shakeQ.length s

/-- A handshake is asked for: it starts, or waits for those before it. -/
def askShake (h : Handshake) (s : State) : State :=
  let s := { s with pl := { s.pl with shakeQ := s.pl.shakeQ ++ [h] } }
  nextShakes s.pl.shakeQ.length s

/-- Banks change role now if nothing in them is dirty; else after a write-back. Answers the code (R189, R191). DESIGN CHOICE (log entry
75): a reserved F bank shows BUSY as a reserved C bank does. DESIGN CHOICE (log entry 103): the C banks of a shrink show it from the request on, also
while its handshake waits for an earlier one. -/
def changeBanks (ks : List Nat) (u : BankUse) (w : Option Nat) (s : State) : Nat × State :=
  if !dirtyIn s ks then (pOk, giveBanks ks u s)
  else if standbyBusy s then (pStandby, s)
  else (pPending, askShake (.writeback ks [] u w) (setBusy true ks s))

/-- The banks of a grow by `n` (R190): F, then C beyond the floor, highest first. -/
def growBanks (s : State) (n : Nat) : Option (List Nat) :=
  let f := (freeBanks s.pl.pmap).take n
  let c := (cacheBanks s.pl.pmap).reverse.take (n - f.length)
  if n - f.length + 2 > (cacheBanks s.pl.pmap).length ∧ n > f.length then none else some (f ++ c)

/-! ## `wgrow` and `wshrink` (R196 to R198) -/

/-- A register count that R196 and R198 admit. -/
def regCountOk (n : Nat) : Bool := n != 0 && n % 8 == 0 && decide (n ≤ 512)

/-- The growth of a warp that does not wait. -/
def growNow (slot n : Nat) (s : State) : Nat × State :=
  if !(growAsks s).isEmpty then (pLive, s)
  else if pagesCover s slot n then (pOk, grantRegs slot n s)
  else
    let short := n / 8 - (s.warpAt slot).pages.length - (freePages s + 16 * (freeBanks s.pl.pmap).length)
    match growBanks s ((freeBanks s.pl.pmap).length + (short + 15) / 16) with
    | none => (pFloor, s)
    | some ks => changeBanks ks (.toRegs slot n ((banksOf s.pl.pmap .regs).flatMap (fun k => (pagesFree (usedPages s) k).map (fun j => (k, j))))) (some slot) s

/-- Records a request's code. -/
def noteReq (slot : Nat) (r : Nat × State) : State := if r.1 = pPending then reqOpen slot r.2 else reqDone slot r.1 r.2

/-- An instruction whose thread waits for its code: written 12 cycles after issue where it is known at once (R195). -/
def poolDone (i : Ins) (o : Opnds) (code : Nat) (s : State) : State :=
  (result i o [codeWord code] 12 12 s).updTh (fun t => { t with park := .switch })

/-- A thread waits; its code is written when it comes, 12 cycles after issue at the earliest. -/
def poolHold (i : Ins) (o : Opnds) (pk : Nat → Park) (s : State) : State :=
  let (tag, s) := addResult (destRegs o [0]) 12 none .none false s
  (stay i (pk tag) (captureAs i tag s)).updTh (fun t => { t with smark := true })

def wgrowOp (i : Ins) (o : Opnds) (s : State) : State :=
  let v := (wordOf o.a).toNat
  let n := v % 1024
  let slot := s.th.slot
  if v / 1024 % 2 ^ 21 ≠ 0 ∨ !regCountOk n then poolDone i o pBadArg (reqAnswered slot pBadArg s)
  else if n ≤ s.warp.regsPer then poolDone i o pOk (reqAnswered slot pOk s)
  else if v / 2 ^ 31 = 1 ∧ ((growAsks s).any (·.1 == slot) = true ∨ s.warp.reqBusy = false) then
    let (since, s) := s.fresh
    poolHold i o (fun tag => .wgrow tag n since) (reqOpen slot s)
  else if s.warp.reqBusy then poolDone i o pPending s
  else
    let r := growNow slot n s
    poolDone i o r.1 (noteReq slot r)

/-- Every warp that holds pages waits in a blocking `wgrow`, and C is at its floor (R197). -/
def growStuck (s : State) : Bool :=
  (banksOf s.pl.pmap .cache).length == 2 && (s.pl.warps.filter (fun w => !w.pages.isEmpty)).all (fun w => (growAsks s).any (·.1 == w.slot))

/-- The grow-deadlock rule (R197): the oldest parked request that can be satisfied is granted, else the youngest is refused, until one
is granted or none is parked. -/
def breakDeadlock : Nat → State → State
  | 0, s => s
  | n + 1, s => match growAsks s with
    | [] => s
    | x :: rest => match (x :: rest).find? (fun y => pagesCover s y.1 y.2.1) with
      | some y => wakeGrow y.1 pOk (grantRegs y.1 y.2.1 s)
      | none => breakDeadlock n (wakeGrow ((x :: rest).getLast (by simp)).1 pDeadlock s)

/-- What the pool manager does next for the parked requests (R196, R197); none where it can do nothing. -/
def serveGrow (s : State) : Option State :=
  match growAsks s with
  | [] => none
  | x :: rest =>
    if pagesCover s x.1 x.2.1 then some (wakeGrow x.1 pOk (grantRegs x.1 x.2.1 s))
    else
      let spare := (cacheBanks s.pl.pmap).length - 2
      let short := x.2.1 / 8 - (s.warpAt x.1).pages.length - (freePages s + 16 * (freeBanks s.pl.pmap).length)
      if spare > 0 ∧ s.pl.shake = none ∧ s.pl.shakeQ = [] ∧ swapWanted s = false ∧ (!standbyBusy s || !dirtyIn s ((cacheBanks s.pl.pmap).reverse.take (min spare ((short + 15) / 16)))) then
        let c := (cacheBanks s.pl.pmap).reverse.take (min spare ((short + 15) / 16))
        if (short + 15) / 16 ≤ spare then
          some (changeBanks (freeBanks s.pl.pmap ++ c)
            (.toRegs x.1 x.2.1 ((banksOf s.pl.pmap .regs).flatMap (fun k => (pagesFree (usedPages s) k).map (fun j => (k, j))))) none s).2
        else some (changeBanks c .toFree none s).2
      else if growStuck s then some (breakDeadlock (rest.length + 1) s)
      else none

/-- The result is that of a `wshrink` in which the thread waits. -/
def shrinkTag (t : Thread) (tag : Nat) : Bool :=
  match t.park with
  | .wshrink k _ => k == tag
  | _ => false

/-- The registers that the instruction a thread is parked in will write: its results are outstanding since its issue (R26). -/
def parkRegs (t : Thread) : List Nat :=
  match t.park with
  | .arrive _ d _ => d.toList
  | .barWait _ _ d => d.toList
  | .fwait _ _ _ d _ => d.toList
  | .watch d _ => d.toList
  | .unwatch d _ _ => d.toList
  | .fget _ d _ _ _ _ => d.toList
  | .wct p => [p, p + 1]
  | _ => []

/-- The registers that open collectives of a warp will write in its thread of a lane; `wmm` writes a pair (R146). -/
def collRegs (s : State) (slot lane : Nat) : List Nat :=
  (s.pl.colls.filter (·.slot == slot)).flatMap (fun c => (c.got.filter (·.lane == lane)).flatMap (fun g =>
    (g.dst.toList).flatMap (fun p => if c.f = 13 then [p, p + 1] else [p])))

/-- A thread of the warp has a result outstanding to a register the shrink frees; the codes of `wshrink`s that wait are not meant. -/
def shrinkWaits (s : State) (slot n : Nat) : Bool :=
  s.living.any (fun t => t.slot == slot
    && (t.pend.any (fun r => !shrinkTag t r.tag && r.regs.any (fun x => decide (x.1 ≥ n)))
      || (parkRegs t ++ collRegs s slot t.lane).any (fun p => decide (p ≥ n))))

/-- A `wshrink` of the warp that waits was made before the one with this result. -/
def olderShrink (s : State) (slot tag : Nat) : Bool :=
  s.living.any (fun t => t.slot == slot && (match t.park with | .wshrink k _ => decide (k < tag) | _ => false))

/-- A window of the warp, a handler's saved one included, lies beyond the new size (R198, R348). -/
def windowBeyond (s : State) (slot n : Nat) : Bool :=
  s.living.any (fun t => t.slot == slot && (decide (t.wb > n - 2) || (t.inh && decide (t.swb > n - 2))))

/-- A request of the warp other than a `wshrink` is in progress. -/
def otherReq (s : State) (slot : Nat) : Bool :=
  let of := fun (h : Handshake) => match h with
    | .writeback _ _ _ w => w == some slot
    | .reloc _ _ w => w == some slot
  (s.pl.shake.toList ++ s.pl.shakeQ).any of || (growAsks s).any (·.1 == slot)
  || s.living.any (fun t => t.slot == slot && (match t.park with | .poolRel _ => true | _ => false))

/-- The warp's pages above `n` registers are freed. -/
def shrinkTo (slot n : Nat) (s : State) : State :=
  if n ≥ (s.warpAt slot).regsPer then reqDone slot pOk s
  else
    let s := s.updWarp slot (fun w => { w with regsPer := n, pages := w.pages.take (n / 8) })
    let s := s.updThreads (·.slot == slot) (fun t => { t with
      regs := t.regs.filter (fun x => decide (x.1 < n)), poisoned := t.poisoned.filter (fun p => decide (p < n)) })
    reqDone slot pOk (settleRegs s)

/-- `wshrink` (R198). DESIGN CHOICE (log entry 75): made while another request of its warp is in progress, it waits for that one, since
a warp has at most one (R188) and R198 gives it no `PENDING`. -/
def wshrinkOp (i : Ins) (o : Opnds) (s : State) : State :=
  let v := (wordOf o.a).toNat
  let slot := s.th.slot
  if v / 1024 ≠ 0 ∨ !regCountOk (v % 1024) then poolDone i o pBadArg (reqAnswered slot pBadArg s)
  else if v % 1024 ≥ s.warp.regsPer then poolDone i o pOk (reqAnswered slot pOk s)
  else if windowBeyond s slot (v % 1024) then poolDone i o pLive (reqAnswered slot pLive s)
  else if s.warp.reqBusy || shrinkWaits s slot (v % 1024) then poolHold i o (fun tag => .wshrink tag (v % 1024)) (reqOpen slot s)
  else poolDone i o pOk (shrinkTo slot (v % 1024) s)

/-! ## `pool.req` (R199) -/

/-- A request word's own form (Tables 9-7 and 9-8): operation, role, RELOC, EXACT, BANK and COUNT stand together. -/
def reqWordOk (v : Nat) : Bool :=
  let op := v / 2 ^ 30
  let role := v / 2 ^ 27 % 8
  let reloc := v / 2 ^ 26 % 2
  let exact_ := v / 2 ^ 25 % 2
  let count := v % 32
  decide (op ≤ 1) && (role == 3 || role == 4 || (role == 2 && op == 1))
  && (reloc == 0 || (op == 1 && role == 2)) && v / 2 ^ 21 % 16 == 0 && v / 2 ^ 5 % 2048 == 0
  && decide (1 ≤ count ∧ count ≤ 30)
  && (if exact_ == 1 then op == 0 && count == 1 else v / 2 ^ 16 % 32 == 0)

/-- Blocks that a bank's bytes belong to. -/
def bankOwners (s : State) (k : Nat) : List Nat :=
  match (bankOf s.pl.pmap k).role with
  | .tile => (s.pl.tiles.filter (·.bank == k)).map (·.owner)
  | .scratch =>
    let i := s.pl.arena.idxOf k
    (s.pl.blocks.filter (fun b => b.scratch != 0 && decide (b.sbase < (i + 1) * 16384 ∧ i * 16384 < b.sbase + b.scratch))).map (·.handle)
  | _ => []

/-- A grow of exactly one bank, for M or for C (Table 9-8). DESIGN CHOICE (log entry 75): an S bank that holds no extent's byte gives
`LIVE`. -/
def growExact (h k : Nat) (tile : Bool) (slot : Nat) (s : State) : Nat × State :=
  let b := bankOf s.pl.pmap k
  if (bankOwners s k).any (· != h) then (pOwner, s)
  else if b.busy then (pLive, s)
  else match b.role with
    | .free => (pOk, if tile then giveBanks [k] (.toTile h) s else s.withPmap (setRole .cache s.pl.pmap k))
    | .cache =>
      if !tile then (pOk, s)
      else if (cacheBanks s.pl.pmap).length ≤ 2 then (pFloor, s)
      else changeBanks [k] (.toTile h) (some slot) s
    | _ => (pLive, s)

/-- A shrink of S (R192). -/
def shrinkScratch (n : Nat) (reloc : Bool) (slot : Nat) (s : State) : Nat × State :=
  if !reloc then
    if n ≤ s.pl.arena.length ∧ arenaEnd s.pl.blocks ≤ 16384 * (s.pl.arena.length - n) then (pOk, trimArena s) else (pLive, s)
  else match relocPlan s n with
    | none => (pLive, s)
    | some [] => (pOk, trimArena s)
    | some _ => if standbyBusy s then (pStandby, s) else (pPending, askShake (.reloc n [] (some slot)) s)

/-- The effect of a request word that is well formed, of a warp with no request in progress. -/
def poolEffect (h v slot : Nat) (s : State) : Nat × State :=
  let role := v / 2 ^ 27 % 8
  let n := v % 32
  let mine := tilesOf s h
  if v / 2 ^ 30 = 0 then
    if v / 2 ^ 25 % 2 = 1 then growExact h (v / 2 ^ 16 % 32) (role == 4) slot s
    else if role = 3 then
      let f := (freeBanks s.pl.pmap).take n
      if f.length < n then (pLive, s) else (pOk, s.withPmap (f.foldl (setRole .cache) s.pl.pmap))
    else match growBanks s n with
      | none => (pFloor, s)
      | some ks => changeBanks ks (.toTile h) (some slot) s
  else if role = 3 then
    if (cacheBanks s.pl.pmap).length < n + 2 then (pFloor, s)
    else changeBanks ((cacheBanks s.pl.pmap).reverse.take n) .toFree (some slot) s
  else if role = 4 then
    let last := mine.drop (mine.length - n)
    if last.any (fun t => decide (t.st ≠ .empty)) then (pLive, s)
    else (pOk, last.foldl (fun s t => freeTile t (sramDrop t.key s)) s)
  else shrinkScratch n (v / 2 ^ 26 % 2 == 1) slot s

/-- An M request that the block or the tile table has no room for, or that names more tiles than the block holds (R199). -/
def tileCountBad (s : State) (h v : Nat) : Bool :=
  v / 2 ^ 27 % 8 == 4 && (if v / 2 ^ 30 = 0 then decide ((tilesOf s h).length + v % 32 > 32 ∨ s.pl.tiles.length + v % 32 > 32)
    else decide (v % 32 > (tilesOf s h).length))

def poolReqOp (i : Ins) (o : Opnds) (s : State) : State :=
  let v := (wordOf o.a).toNat
  let slot := s.th.slot
  match s.warp.block with
  | none => result i o [codeWord pBadArg] 12 12 (reqAnswered slot pBadArg s)
  | some h =>
    if !reqWordOk v || tileCountBad s h v then result i o [codeWord pBadArg] 12 12 (reqAnswered slot pBadArg s)
    else if s.warp.reqBusy then result i o [codeWord pPending] 12 12 s
    else
      let r := poolEffect h v slot s
      result i o [codeWord r.1] 12 12 (noteReq slot r)

/-! ## `pool.rel` (R200) -/

/-- The kinds a copy descriptor names (Table 16-3). -/
def copySrcKind (d : BitVec 512) : Nat := d.toNat / 2 ^ 168 % 4
def copyDstKind (d : BitVec 512) : Nat := d.toNat / 2 ^ 172 % 4

/-- An accepted operation reads or writes the scratch of block `h`. -/
def opScratch (s : State) (h : Nat) (c : CopyOp) : Bool :=
  match c.kind with
  | .cpy => c.block == some h && (copySrcKind c.desc == 1 || copyDstKind c.desc == 1)
  | .fgetb => c.block == some h
  | .mcpy => match s.block? h with
    | some b => b.tree == c.tree && b.hdr == c.hdr && c.bv.getLsbD (coreBit s)
    | none => false
  | .hostCopy => false

/-- A thread of the block has issued a scratch access that has not completed: a load or atomic whose result is outstanding, or a store
or atomic that waits for its release point (R192, R200). -/
def scratchIssued (s : State) (h : Nat) : Bool :=
  s.pl.storeQ.any (fun q => q.scratch == some h)
  || s.living.any (fun t => (s.warpAt t.slot).block == some h && t.pend.any Result.ofScratch)

/-- Accesses to the block's scratch that have not completed. -/
def scratchOpen (s : State) (h : Nat) : Bool :=
  scratchIssued s h
  || s.cl.copyQ.any (opScratch s h) || s.cl.fetchQ.any (opScratch s h)
  || (match s.pl.shake with | some (.reloc _ moves _) => moves.any (·.1 == h) | _ => false)

/-- The block's extent is freed. -/
def releaseScratch (h slot : Nat) (s : State) : State :=
  reqDone slot pOk (trimArena (sramDrop h (s.updBlock h (fun b => { b with scratch := 0 }))))

def poolRelOp (i : Ins) (o : Opnds) (s : State) : State :=
  let v := (wordOf o.a).toNat
  let slot := s.th.slot
  match s.warp.block with
  | none => poolDone i o pBadArg (reqAnswered slot pBadArg s)
  | some h =>
    if v ≠ 2 ∧ v ≠ 4 then poolDone i o pBadArg (reqAnswered slot pBadArg s)
    else if s.warp.reqBusy then poolDone i o pPending s
    else if v = 4 then
      if (tilesOf s h).any (fun t => decide (t.st ≠ .empty)) then poolDone i o pLive (reqDone slot pLive s)
      else poolDone i o pOk (reqDone slot pOk ((tilesOf s h).foldl (fun s t => freeTile t (sramDrop t.key s)) s))
    else if scratchOpen s h then poolHold i o (fun tag => .poolRel tag) (reqOpen slot s)
    else poolDone i o pOk (releaseScratch h slot s)

/-! ## Status reads (R201 to R204) -/

/-- A `PMAP` entry (Table 9-2). -/
def pmapWord (b : Bank) : Word := BitVec.ofNat 32 ((if b.busy then 2048 else 0) + roleCode b.role * 256 + b.tag % 64)

def poolMapOp (i : Ins) (o : Opnds) (s : State) : State :=
  let a := (wordOf o.a).toNat
  result i o [if a < 32 then pmapWord (bankOf s.pl.pmap a) else 0xFFFFFFFF] 4 4 s

def roleOf (k : Nat) : Role :=
  match k with
  | 0 => .free
  | 1 => .regs
  | 2 => .scratch
  | 3 => .cache
  | _ => .tile

/-- The counts of Table 9-9. The SBASE of a block with no extent is a value the specification does not state. -/
def occValue (a : Nat) (s : State) : Nat × State :=
  let b := s.thBlock
  let of := fun (f : Block → Nat) => (b.map f).getD 0
  if a ≤ 4 then ((banksOf s.pl.pmap (roleOf a)).length, s)
  else if 0x20 ≤ a ∧ a ≤ 0x24 then (stGet 0 s.bankCycles (a - 0x20) % 2 ^ 32, s)
  else match a with
    | 0x08 => (freePages s, s)
    | 0x10 => (s.warp.regsPer, s)
    | 0x11 => (match s.warp.block with
        | none => s.warp.pages.length
        | some h => ((s.pl.warps.filter (·.block == some h)).map (·.pages.length)).sum, s)
    | 0x12 => (of (·.scratch), s)
    | 0x13 => (of (fun b => (tilesOf s b.handle).length), s)
    | 0x14 => match b with
      | none => (0, s)
      | some b => if b.scratch = 0 then let (k, s) := s.draw; ((Config.freeWord k).toNat % 2 ^ 32, s) else (b.sbase, s)
    | 0x18 => (if s.warp.reqBusy then pPending else s.warp.lastReq, s)
    | 0x28 => (s.th.occCap.toNat, s)
    | _ => (0xFFFFFFFF, s)

def poolOccOp (i : Ins) (o : Opnds) (s : State) : State :=
  let a := (wordOf o.a).toNat
  let (v, s) := occValue a s
  let cap : Capture := if 0x20 ≤ a ∧ a ≤ 0x24 then .occ (BitVec.ofNat 32 (stGet 0 s.bankCycles (a - 0x20) / 2 ^ 32)) else .none
  finish i (addResult (destRegs o [codeWord v]) 4 (some 4) cap true s).2

/-- A block's local tile by a register's value. -/
def localTile (s : State) (a : Nat) : Option Tile := s.warp.block.bind (fun h => tileAt s h a)

def tileStCode : TileSt → Nat
  | .empty => 0
  | .filling => 1
  | .ready => 2
  | .draining => 3

def tstateOp (i : Ins) (o : Opnds) (s : State) : State :=
  let v := match localTile s (wordOf o.a).toNat with
    | none => 2 ^ 31
    | some t => t.readers % 64 * 1024 + t.bank * 32 + tileStCode t.st
  result i o [codeWord v] 4 4 s

def tmarkOp (i : Ins) (o : Opnds) (s : State) : State :=
  match localTile s (wordOf o.a).toNat with
  | none => result i o [codeWord pBadArg] 12 12 s
  | some t =>
    if t.st = .empty then result i o [codeWord pOk] 12 12 s
    else if t.st = .ready ∧ t.readers = 0 then result i o [codeWord pOk] 12 12 (updTile t.key (fun t => { t with st := .empty }) s)
    else result i o [codeWord pLive] 12 12 s

/-- A pool instruction with a poisoned operand takes no trap (R195): the rules give no value for d, and nothing changes. DEDUCED (log
entry 81). -/
def poolPoisoned (i : Ins) (lat : Nat) (parks : Bool) (s : State) : State :=
  let o := operands i s
  let (k, s) := s.draw
  let s := result i o [(Config.freeWord k).truncate 32] lat lat s
  if parks then s.updTh (fun t => { t with park := .switch }) else s

/-- WGROW (R196). -/
def execWgrow (sw : Bool) (d a : BitVec 7) (s : State) : Answer :=
  (fun (i0 : Ins) => runQuiet i0 (poolPoisoned i0 12 true) (wgrowOp i0) s) ⟨packA sw 22 d a 0#7 0, none, .plain [⟨a, 1, .src, .a⟩, ⟨d, 1, .dst, .d⟩]⟩

/-- WSHRINK (R198). -/
def execWshrink (sw : Bool) (d a : BitVec 7) (s : State) : Answer :=
  (fun (i0 : Ins) => runQuiet i0 (poolPoisoned i0 12 true) (wshrinkOp i0) s) ⟨packA sw 22 d a 0#7 1, none, .plain [⟨a, 1, .src, .a⟩, ⟨d, 1, .dst, .d⟩]⟩

/-- POOL_REQ (R199). -/
def execPoolReq (sw : Bool) (d a : BitVec 7) (s : State) : Answer :=
  (fun (i0 : Ins) => runQuiet i0 (poolPoisoned i0 12 false) (poolReqOp i0) s) ⟨packA sw 22 d a 0#7 6, none, .plain [⟨a, 1, .src, .a⟩, ⟨d, 1, .dst, .d⟩]⟩

/-- POOL_REL (R200). -/
def execPoolRel (sw : Bool) (d a : BitVec 7) (s : State) : Answer :=
  (fun (i0 : Ins) => runQuiet i0 (poolPoisoned i0 12 true) (poolRelOp i0) s) ⟨packA sw 22 d a 0#7 7, none, .plain [⟨a, 1, .src, .a⟩, ⟨d, 1, .dst, .d⟩]⟩

/-- POOL_MAP (R201). -/
def execPoolMap (sw : Bool) (d a : BitVec 7) (s : State) : Answer :=
  (fun (i0 : Ins) => runQuiet i0 (poolPoisoned i0 4 false) (poolMapOp i0) s) ⟨packA sw 22 d a 0#7 8, none, .plain [⟨a, 1, .src, .a⟩, ⟨d, 1, .dst, .d⟩]⟩

/-- POOL_OCC (R202). -/
def execPoolOcc (sw : Bool) (d a : BitVec 7) (s : State) : Answer :=
  (fun (i0 : Ins) => runQuiet i0 (poolPoisoned i0 4 false) (poolOccOp i0) s) ⟨packA sw 22 d a 0#7 9, none, .plain [⟨a, 1, .src, .a⟩, ⟨d, 1, .dst, .d⟩]⟩

/-- TSTATE (R203). -/
def execTstate (sw : Bool) (d a : BitVec 7) (s : State) : Answer :=
  (fun (i0 : Ins) => runQuiet i0 (poolPoisoned i0 4 false) (tstateOp i0) s) ⟨packA sw 22 d a 0#7 10, none, .plain [⟨a, 1, .src, .a⟩, ⟨d, 1, .dst, .d⟩]⟩

/-- TMARK (R204). -/
def execTmark (sw : Bool) (d a : BitVec 7) (s : State) : Answer :=
  (fun (i0 : Ins) => runQuiet i0 (poolPoisoned i0 12 false) (tmarkOp i0) s) ⟨packA sw 22 d a 0#7 11, none, .plain [⟨a, 1, .src, .a⟩, ⟨d, 1, .dst, .d⟩]⟩

/-! ## Events -/

/-- C_WRITEBACK_DONE (R191): every write-back of the handshake is acknowledged; lines that became dirty again go first. -/
def execCWritebackDone (s : State) : Answer :=
  match s.pl.shake with
  | some (.writeback ks ids u w) =>
    if s.pl.net.any (fun m => ids.contains m.id) then .next s
    else if dirtyIn s ks then
      let (ids, s) := writeBackBanks ks s
      .next { s with pl := { s.pl with shake := some (.writeback ks ids u w) } }
    else
      let s := { s with pl := { s.pl with shake := none } }
      let s := answerReq w pOk (giveBanks ks u s)
      .next (nextShakes s.pl.shakeQ.length s)
  | _ => .next s

/-- RELOCATION_COMPLETE (R192): the scratch accesses that were issued are over, the moved extents are at their new places, and the last
banks leave the arena. -/
def execRelocationComplete (s : State) : Answer :=
  match s.pl.shake with
  | some (.reloc _ moves w) =>
    if moves.any (fun m => scratchIssued s m.1) then .next s
    else
    let s := moves.foldl (fun s m => s.updBlock m.1 (fun b => if b.scratch = 0 then b else { b with sbase := m.2.2 })) s
    let s := setBusy false s.pl.arena { s with pl := { s.pl with shake := none } }
    let s := answerReq w pOk (trimArena s)
    let s := wakeStores (unqueued s) s
    .next (nextShakes s.pl.shakeQ.length s)
  | _ => .next s

/-- WGROW_GRANT (R196, R197): the pool manager serves the parked blocking `wgrow` requests, oldest first. -/
def execWgrowGrant (s : State) : Answer := .next ((serveGrow s).getD s)

/-- WSHRINK_COMPLETE (R188, R198): no other request of the warp is in progress, and no result to a freed register is outstanding; the pages
are freed. -/
def execWshrinkComplete (who : Agent) (s : State) : Answer :=
  .next (s.atThread who (fun s =>
      match s.th.park with
      | .wshrink tag n =>
        if otherReq s s.th.slot || olderShrink s s.th.slot tag || shrinkWaits s s.th.slot n then s
        else shrinkTo s.th.slot n (s.updTh (fun t => (t.arrive tag [codeWord pOk]).resume))
      | _ => s))

/-- POOL_REL_COMPLETE (R200): the block's scratch accesses have completed; its extent is freed. -/
def execPoolRelComplete (who : Agent) (s : State) : Answer :=
  .next (s.atThread who (fun s =>
      match s.th.park, s.warp.block with
      | .poolRel tag, some h =>
        if scratchOpen s h then s
        else releaseScratch h s.th.slot (s.updTh (fun t => (t.arrive tag [codeWord pOk]).resume))
      | _, _ => s))

end Sys2Proof.Machine
end

