-- ==== Sys2Proof/Machine/Engine.lean ====
section
/-! DEFINITION. What the cluster's engines share: status words and arrivals (R288), reads and writes of memory with their
faults, poison and protection checks (R284, R293, R326, R333, R336, R357 to R359), and the parse of shared-value rows (R314, R315). -/

namespace Sys2Proof.Machine

open Sys2Proof

/-! ## Status words (Table 14-4) -/

/-- A status word: code, reservation entry, unit (0 matrix engine, 1 copy engine, 2 fetch unit), detail. -/
def engStatus (code entry src detail : Nat) : Word :=
  BitVec.ofNat 32 (code % 256 * 2 ^ 24 + entry % 32 * 2 ^ 19 + src % 8 * 2 ^ 16 + detail % 65536)

/-- The CODE of a status word. -/
def statusCode (w : Word) : Nat := w.toNat / 2 ^ 24

/-- Runs `f` in the plane of context `c`; nothing happens where neither plane runs it. -/
def State.inCtx (s : State) (c : Nat) (f : State → State) : State :=
  if s.pl.ctx = some c then f s else if s.standby.holds = some c then s.inOther f else s

/-- The arrival of an operation whose tile payload sets ARR (R288). -/
def arriveEngine (block : Option Nat) (payload : BitVec 25) (st : Word) (s : State) : State :=
  match block, payloadBar payload with
  | some h, some n => engineArrive h n st s
  | _, _ => s

/-- Write-backs of the core, and writes of the issuing thread, that have not committed: an operation with ACQ follows them (R229). -/
def uncommitted (uid : Option Nat) (s : State) : List Nat :=
  (s.pl.net.filter (fun m => !bodyServed m.body && (match m.body with
    | .write w => (match w.writer with
      | .threads who => who.any (fun x => some x.uid == uid)
      | .forced _ => true
      | .evict => true
      | _ => false)
    | .atomic a => a.steps.any (fun x => some x.uid == uid)
    | _ => false))).map (·.id)

/-- What the first read of an operation with ACQ waits for (R229): the write-backs of every dirty line of the issuing core, made now, and what is on
its way already; answers the messages. -/
def acquireWriteBack (payload : BitVec 25) (uid : Option Nat) (s : State) : List Nat × State :=
  if payload.getLsbD 24 then
    let w := writeBackAll (fun _ => true) .evict s
    (uncommitted uid s ++ w.1, w.2)
  else ([], s)

/-- Messages of a list that have not been served at their homes, in either plane. -/
def unserved (s : State) (ids : List Nat) : Bool :=
  (s.pl.net ++ s.standby.plane.net).any (fun m => ids.contains m.id && !bodyServed m.body)

/-- An operation of unit `u` has a write that is not acknowledged. -/
def engineOpen (s : State) (u op : Nat) : Bool :=
  (s.pl.net ++ s.standby.plane.net).any (fun m => match m.body with
    | .write w => decide (w.writer = .engine u op)
    | _ => false)

/-- REL is met: the time base has reached the operation's OPCT (R229, R291). -/
def relMet (s : State) (payload : BitVec 25) (opct : Nat) : Bool := !payload.getLsbD 23 || decide (s.clock.tbase ≥ opct)

/-! ## Memory as an engine reaches it -/

/-- What keeps an engine from going on: a translation its TLB lacks, a page that faults, poison, a module that cannot be reached, a protection violation or a frozen master, another module's
memory where only G is admitted, or a malformed row. -/
inductive EStop where
  | miss (va : Nat) (acc : Acc)
  | fault (va : Nat) (acc : Acc)
  | poison
  | lost (m : Nat)
  | violation (m h : Nat)
  | held
  | space
  | malformed
  deriving DecidableEq, Repr

/-- What a computation over reads notes: the lines it reads, and their bytes by virtual address. -/
structure ReadLog where
  lines : List Nat := []
  bytes : List (Nat × Byte) := []
  deriving DecidableEq, Repr

/-- A read or a computation over reads. -/
abbrev EngM (α : Type) := ExceptT EStop (StateM ReadLog) α

/-- Notes a read of `bs` at a virtual address, of a line. -/
def noteRead (va line : Nat) (bs : List Byte) : EngM Unit :=
  modify (fun l => { lines := line :: l.lines, bytes := atAddr (va % 2 ^ 57) bs ++ l.bytes })

/-- A reader of `n` bytes at a virtual address that do not cross a line. -/
abbrev Reader := Nat → Nat → EngM (List Byte)

/-- A master is an engine of the core's cluster. -/
def ownUnit (s : State) (m : Nat) : Bool := decide (masterEngine s 0 ≤ m ∧ m ≤ masterEngine s 3)

/-- The TLB of a master: the cluster's for its engines, the core's for its dispatcher. -/
def unitTlb (s : State) (m : Nat) : Option (List TlbEnt) :=
  if ownUnit s m then some s.xl.clusterTlb else if m = masterCore s then some s.xl.coreTlb else none

/-- The home address of a context's virtual address for master `m` (R374): a master with a TLB has what that holds, a miss, or the fault its
walk ended in; a unit that R374 gives no TLB walks at once (log entry 72). -/
def engPage (s : State) (m c va : Nat) (acc : Acc) : Except EStop Nat :=
  match unitTlb s m with
  | some l => match tlbHit l c va acc with
    | some t => .ok (t.home va)
    | none =>
      if s.xl.missed.any (fun x => x.master == m && x.ctx == c && x.page == pageOf va && x.acc == acc) then .error (.fault va acc)
      else .error (.miss va acc)
  | none => if isFrozen s masterWalker then .error .held
    else match walkBarred s c va with
    | some a => .error (.violation masterWalker a)
    | none => match walkPage s c va acc with
      | .leaf lvl e _ => .ok ((leafEnt c va lvl e).home va)
      | .fault _ _ _ => .error (.fault va acc)

/-- The same with the protection check of a request of `n` bytes (R358, R359). A write to a module that cannot be reached is completed by the
port; a read there finds no data (R390). -/
def engHome (s : State) (m c va : Nat) (acc : Acc) (n : Nat) : Except EStop Nat := do
  let h ← engPage s m c va acc
  if isFrozen s m then throw .held
  else if isX h then
    if isUnreachable s (xModule h) then (if decide (acc = .read ∨ acc = .fetch) then throw (.lost (xModule h)) else pure h)
    else if isFrozen s (masterPort (portOf s h)) then throw .held
    else if Config.remoteRefuses s.freeCtr then throw (.violation m h) else pure h
  else if granted s m c h n then pure h
  else throw (.violation m h)

/-- A read at the home (R224 case 2). -/
def homeReader (s : State) (m c : Nat) (onlyG : Bool) : Reader := fun va n =>
  match engHome s m c va .read n with
  | .error e => throw e
  | .ok h =>
    if readPoisoned s h n then throw .poison
    else if isX h then (if onlyG then throw .space else do
      let bs := homeBytes s h n
      noteRead va (lineOf h) bs
      pure bs)
    else do
      let bs := homeRead s h n
      noteRead va (lineOf h) bs
      pure bs

/-- Runs a computation over reads: its end, and the lines it read. -/
def EngM.go {α : Type} (x : EngM α) : Except EStop α × List Nat :=
  let r := x.run.run {}
  (r.1, r.2.lines.reverse.eraseDups)

/-- The same with the bytes. -/
def EngM.goBytes {α : Type} (x : EngM α) : Except EStop α × ReadLog := x.run.run {}

/-- A reader of bytes fetched before. -/
def snapReader (snap : List (Nat × Byte)) : Reader := fun va n =>
  pure ((List.range n).map (fun i => (soGet snap ((va + i) % 2 ^ 57)).getD 0))

/-- A little-endian number of a reader. -/
def rdNat (rd : Reader) (va n : Nat) : EngM Nat := do
  let bs ← rd (va % 2 ^ 64) n
  pure (leNat bs)

/-- The end of a master's walk without a translation is no longer known: it walks again. -/
def forgetMiss (m c va : Nat) (acc : Acc) (s : State) : State :=
  { s with xl := { s.xl with missed := s.xl.missed.filter (fun x => !(x.master == m && x.ctx == c && x.page == pageOf va && x.acc == acc)) } }

/-- An operation meets a page fault: its record is made (R378); false where the fault unit is full, or the page can be translated now. -/
def engFault (m c va : Nat) (acc : Acc) (s : State) : Bool × State :=
  let s := forgetMiss m c va acc s
  match walkPage s c va acc with
  | .leaf _ _ _ => (false, s)
  | .fault kind lvl e => match addFault c (pageOf va) acc kind lvl e m s with
    | some s => (true, s)
    | none => (false, s)

/-- Writes of an engine operation, written through in requests of at most one line (R333). -/
def engWrite (u op c depth : Nat) (ws : List (Nat × Byte)) (s : State) : State :=
  (byLine ws).foldl (fun s w => (netSend (.write { ws := w, writer := .engine u op, depth := depth, ctx := c }) s).2) s

/-- A host command is complete: its result, and interrupt source 64 (R396). -/
def commandDone (res : Nat) (s : State) : State :=
  setIrq 64 { s with win := { s.win with cmdRes := res }, cp := { s.cp with cmd := .none } }

/-! ## Shared-value rows (R314, R315) -/

/-- A group of a row: its value's bits and its columns. -/
structure SvrGroup where
  value : Nat
  cols : List Nat
  deriving DecidableEq, Repr

/-- A 64-bit number is a canonical address. -/
def canonNat (v : Nat) : Bool := canonical (BitVec.ofNat 64 v)

/-- The `n` columns of a group from `va` on, each below `k` and above the one before. -/
def svrCols (rd : Reader) (k : Nat) : Nat → Nat → Option Nat → EngM (List Nat)
  | 0, _, _ => pure []
  | n + 1, va, last => do
    let c ← rdNat rd va 2
    if c ≥ k ∨ (match last with | some p => decide (c ≤ p) | none => false) = true then throw .malformed
    let rest ← svrCols rd k n (va + 2) (some c)
    pure (c :: rest)

/-- The `n` groups from `va` on, and the address after them. -/
def svrGroups (rd : Reader) (k : Nat) : Nat → Nat → EngM (List SvrGroup × Nat)
  | 0, va => pure ([], va)
  | n + 1, va => do
    let v ← rdNat rd va 2
    let cnt ← rdNat rd (va + 2) 2
    if cnt = 0 then throw .malformed
    let cols ← svrCols rd k cnt (va + 4) none
    let tok ← rdNat rd (va + 4 + 2 * cnt) 2
    if tok ≠ 0xFFFF then throw .malformed
    let rest ← svrGroups rd k n (va + 6 + 2 * cnt)
    pure (⟨v, cols⟩ :: rest.1, rest.2)

/-- The row that a directory entry names, over `k` columns. -/
def svrRow (rd : Reader) (dir i k : Nat) : EngM (List SvrGroup) := do
  let va ← rdNat rd (dir + 8 * i) 8
  if !canonNat va || va % 4 ≠ 0 then throw .malformed
  let hd ← rdNat rd va 4
  let dg := hd / 65536 % 256
  if hd % 65536 > 4096 ∨ dg > 64 ∨ hd / 2 ^ 24 ≠ 0 then throw .malformed
  let (gs, at_) ← svrGroups rd k dg (va + 4)
  let tail ← rdNat rd at_ 2
  if tail ≠ 0xFFFE then throw .malformed
  if (gs.map (·.cols.length)).sum ≠ hd % 65536 then throw .malformed
  pure gs

end Sys2Proof.Machine
end

