-- ==== Sys2Proof/Machine/Queue.lean ====
section
/-! DEFINITION. The work queue (R164 to R167): order, the queues of core, cluster and die, segments and their rings, arrivals
with their overflow moves; and continuation records (R131). -/

namespace Sys2Proof.Machine

open Sys2Proof

/-! ## Order (R167) -/

/-- The effective priority of an entry at a cycle. -/
def effPrio (now : Nat) (e : QEntry) : Nat := min 3 (e.prio + (now - e.since) / 65536)

/-- Whether `a` comes before `b`. DESIGN CHOICE (log entry 79): ties that R167 leaves open, those of tasks and blocks, go as its ties of
continuation records do, to the entry that came first. -/
def entryBefore (now : Nat) (a b : QEntry) : Bool :=
  if effPrio now a ≠ effPrio now b then decide (effPrio now a > effPrio now b)
  else if a.since ≠ b.since then decide (a.since < b.since)
  else decide (a.entered < b.entered)

def insEntry (now : Nat) (e : QEntry) : List QEntry → List QEntry
  | [] => [e]
  | x :: t => if entryBefore now e x then e :: x :: t else x :: insEntry now e t

/-- A queue in its order. -/
def inOrder (now : Nat) (l : List QEntry) : List QEntry := l.foldl (fun acc e => insEntry now e acc) []

/-- A queue without some of its entries. -/
def without (l es : List QEntry) : List QEntry := l.filter (fun e => !es.contains e)

/-! ## Segments and rings (R164) -/

def segOf (s : State) (q : Nat) : List QEntry := ((s.sched.segs.find? (·.1 == q)).map (·.2)).getD []

def setSeg (q : Nat) (l : List QEntry) (s : State) : State :=
  { s with sched := { s.sched with segs := (if l.isEmpty then [] else [(q, l)]) ++ s.sched.segs.filter (·.1 != q) } }

def ringOf (s : State) (q c : Nat) : WqRing := (s.sched.rings.find? (fun r => r.q == q && r.ctx == c)).getD { q := q, ctx := c }

def setRing (r : WqRing) (s : State) : State :=
  { s with sched := { s.sched with
    rings := (if r.blocks.isEmpty && r.head == 0 then [] else [r]) ++ s.sched.rings.filter (fun x => !(x.q == r.q && x.ctx == r.ctx)) } }

def wqBlk (s : State) (c : Nat) : Nat := ((s.ctx? c).map (·.wqBlk)).getD 1

/-- `n` bytes that the specification does not give. -/
def drawBytes : Nat → State → List Byte × State
  | 0, s => ([], s)
  | n + 1, s => let (i, s) := s.draw; let (bs, s) := drawBytes n s; (Config.freeByte i :: bs, s)

/-- The next block of a context's ring is written: 64 bytes an entry, whose layout is not given (R164, R263). -/
def spillBlock (r : WqRing) (es : List QEntry) (s : State) : State :=
  match s.ctx? r.ctx with
  | none => s
  | some c =>
    let (bs, s) := drawBytes (64 * es.length) s
    ringWrite c (c.wqRing + (r.q * c.wqBlk + r.head % max 1 c.wqBlk) * 512) bs s

/-- The segment takes an arrival, or its context's last entries with it move to the ring; none where both are full. -/
def segPush (q : Nat) (e : QEntry) (s : State) : Option State :=
  let seg := segOf s q
  if seg.length < 256 then some (setSeg q (seg ++ [e]) s)
  else
    let ring := ringOf s q e.ctx
    if ring.blocks.length ≥ wqBlk s e.ctx then none
    else
      let mine := inOrder s.clock.cycle (seg.filter (·.ctx == e.ctx) ++ [e])
      let all := mine.drop (mine.length - 8)
      let moved := if all.contains e then all else (mine.drop (mine.length - 7)) ++ [e]
      some (setRing { ring with blocks := ring.blocks ++ [moved], head := ring.head + 1 } (spillBlock ring moved (setSeg q (without seg moved) s)))

/-- The slice a task goes to by its key (R164): key 0 is the home slice. -/
def affinitySlice (key : Word) (home : Nat) : Nat :=
  if key = 0 then home else (key * 0x9E3779B1).toNat / 65536 % 288

/-! ## Arrivals and overflow (R165, R166) -/

/-- Entries go to the first segment of the die that takes each; none where one finds no place. -/
def segTakeAll : List QEntry → State → Option State
  | [], s => some s
  | e :: t, s => do
    let home := (List.range 72).map (fun k => s.did * 72 + k)
    let s ← match home.find? (fun k => decide ((segOf s k).length < 256)) with
      | some k => segPush k e s
      | none => home.findSome? (fun k => segPush k e s)
    segTakeAll t s

/-- Entries arrive at the die queue; a full queue moves its eight last entries up. None where nothing above has room. -/
def dieTake (es : List QEntry) (s : State) : Option State :=
  let q := s.sched.dieQ
  if q.length + es.length ≤ 512 then some { s with sched := { s.sched with dieQ := q ++ es } }
  else
    let ord := inOrder s.clock.cycle q
    let last := ord.drop (ord.length - 8)
    segTakeAll last { s with sched := { s.sched with dieQ := without q last ++ es } }

/-- Blocks arrive at the cluster queue; a full queue moves its eight last entries up. -/
def clusterTake (es : List QEntry) (s : State) : Option State :=
  let q := s.sched.clusterQ
  if q.length + es.length ≤ 64 then some { s with sched := { s.sched with clusterQ := q ++ es } }
  else
    let ord := inOrder s.clock.cycle q
    let last := ord.drop (ord.length - 8)
    dieTake last { s with sched := { s.sched with clusterQ := without q last ++ es } }

def isCont (e : QEntry) : Bool := match e.work with | .cont _ _ => true | _ => false

/-- Continuation records go to the core's home segment; those it cannot take stay. Answers the records that stay (R166). -/
def homeTake (es : List QEntry) (s : State) : List QEntry × State :=
  es.foldl (fun (x : List QEntry × State) e =>
    match segPush s.xid e x.2 with
    | some s => (x.1, s)
    | none => (x.1 ++ [e], x.2)) ([], s)

/-- A full core queue moves its eight last entries up; what finds no place there stays. -/
def coreOverflow (s : State) : State :=
  let ord := inOrder s.clock.cycle s.sched.coreQ
  let last := ord.drop (ord.length - 8)
  let sent := fun (e : QEntry) => { e with waited := e.waited + (s.clock.cycle - e.entered) }
  let (stay, s) := homeTake ((last.filter isCont).map sent) s
  let gone := last.filter (fun e => isCont e && !stay.contains (sent e))
  let s := { s with sched := { s.sched with coreQ := without s.sched.coreQ gone } }
  let blocks := last.filter (fun e => !isCont e)
  (clusterTake blocks { s with sched := { s.sched with coreQ := without s.sched.coreQ blocks } }).getD s

/-- The core queue has a place that no exiled thread's record is to have (R153). -/
def coreRoom (s : State) : Bool := decide (s.sched.coreQ.length + exiles s < 32)

/-- A place in the core queue: a full one moves entries up. None where nothing can move. -/
def corePlace (s : State) : Option State :=
  let s := if coreRoom s then s else coreOverflow s
  if coreRoom s then some s else none

/-- The core queue takes an arrival; none where it is full and nothing can move. -/
def corePush (e : QEntry) (s : State) : Option State :=
  (corePlace s).map (fun s => { s with sched := { s.sched with coreQ := s.sched.coreQ ++ [e] } })

/-! ## Continuation records (R131, R133) -/

/-- The smallest register class that holds A, or 3 (R131). -/
def regClass (a : Nat) : Nat := if a ≤ 16 then 0 else if a ≤ 32 then 1 else if a ≤ 64 then 2 else 3

/-- A record's header (Table 6-3). -/
def recHeader (tree cls lane : Nat) (entry : PC) : DWord :=
  BitVec.ofNat 64 (tree % 4096 * 2 ^ 52 + cls % 4 * 2 ^ 50 + lane % 32 * 2 ^ 45 + entry.toNat / 4 % 2 ^ 45)

/-- Whether a record can name an entry PC: bits [56:46] are equal. -/
def recEntryOk (entry : PC) : Bool := (entry.truncate 47).signExtend 57 == entry

/-- What a record checks before it is made (R131): the window holds v0 to v13, and the entry can be named. -/
def recFail (entry : PC) (s : State) : Option Trap :=
  if s.th.wb + 13 ≥ s.warp.regsPer then some { cause := .regBounds, info := BitVec.ofNat 32 (s.th.wb + 13) }
  else if !recEntryOk entry then some { cause := .addrCanon, addr := pc64 entry }
  else none

/-- The queue entry of the acting thread's record. -/
def recEntry (entry : PC) (s : State) : QEntry :=
  let r : ContRec := {
    hdr := recHeader s.warp.tree (regClass s.warp.regsPer) s.th.lane entry
    regs := (List.range 14).map (fun k => (k, stGet 0 s.th.regs (s.th.wb + k)))
    pct := s.th.pct, depth := s.th.depth }
  { ctx := s.ctxNo, tree := s.warp.tree, prio := s.warp.prio, since := s.clock.cycle, pct := s.th.pct, uid := some s.th.uid, depth := s.th.depth
    entered := s.clock.cycle, task := s.nextId, work := .cont s.coreNo r }

/-- Places a record, charged to its tree (R162); none is `QFULL`. -/
def placeRecord (entry : PC) (s : State) : Option State :=
  let t := s.warp.tree
  if !treeCanAdd s t 1 then none else (corePush (recEntry entry s) s).map (fun x => carryPct s.th.uid (some s.nextId) s.th.pct (treeAdd t 1 x))

end Sys2Proof.Machine
end

