-- ==== Sys2Proof/Machine/Enqueue.lean ====
section
/-! DEFINITION. Exile, continuation records and enqueue: majors 0x14 and 0x15, f = 0 and 1 (R131 to R133, R153, R154, R161). -/

namespace Sys2Proof.Machine

open Sys2Proof

/-! ## Exile (R131 to R133, R153) -/

/-- The members of the issuing bundle at the acting thread's PC. A thread outside a bundle is alone. -/
def bundleMates (s : State) : List Thread :=
  let mates := (s.living.filter (fun t => s.bundleAll.any (fun b => t.is b.1 b.2) && t.pc == s.th.pc && decide (t.park = .none)))
  if s.bundleAll.any (fun b => s.th.is b.1 b.2) then mates else [s.th]

/-- Whether a thread of the bundle takes the branch; none where its checks fail. -/
def takes (i : Ins) (cond : Word → Bool) (s : State) (t : Thread) : Option Bool :=
  let s := { s with th := t }
  match checkFail i s with
  | some _ => none
  | none => some (cond (wordOf (operands i s).a))

/-- Whether the core queue and the tree counters can take the records of these threads (R153, R162). -/
def canExile (s : State) (ts : List Thread) (entry : Thread → PC) : Bool :=
  (ts.foldl (fun (x : Option State) t => x.bind (fun y => (placeRecord (entry t) { y with th := t }))) (some s)).isSome

/-- The side of the bundle that is exiled: 0 none, 1 the threads that take the branch, 2 the others (R132). -/
def exileSide (i : Ins) (cond : Word → Bool) (target next : PC) (s : State) : Nat :=
  let votes := (bundleMates s).map (fun t => (t, takes i cond s t))
  let yes := (votes.filter (fun v => v.2 == some true)).map (·.1)
  let no := (votes.filter (fun v => v.2 == some false)).map (·.1)
  if yes.isEmpty || no.isEmpty then 0
  else
    let out := if yes.length ≤ no.length then yes else no
    let side : Nat := if yes.length ≤ no.length then 1 else 2
    let out' := out.filter (fun t => (recFail (if side = 1 then target else next) { s with th := t }).isNone)
    if canExile s out' (fun _ => if side = 1 then target else next) then side else 0

/-- What stops a record with this entry value, in the order of R24: the window, canonical form, what a record can name, alignment. -/
def recTrap (v : DWord) (s : State) : Option Trap :=
  match recFail (v.truncate 57) s with
  | some t => if t.cause = .regBounds then some t else if !canonical v then some { cause := .addrCanon, addr := v } else some t
  | none => pcFail v

/-- The acting thread is exiled with a record of entry `v`; one whose results are outstanding waits for them first, and its record's place is
kept for it (R131, R132, R153). -/
def exileAt (i : Ins) (v : DWord) (stay : State → State) (s : State) : State :=
  match recTrap v s with
  | some t => raise t s
  | none =>
    if !s.th.allReady then
      match (if treeCanAdd s s.warp.tree 1 then corePlace s else none) with
      | some s => (captureHeld i s).updTh (fun t => { t with npc := v.truncate 57, smark := i.s, park := .exile (v.truncate 57) })
      | none => stay s
    else
      match placeRecord (v.truncate 57) (s.updTh Thread.completeAll) with
      | some s => endThread s
      | none => stay s

/-- Exiled threads whose results have arrived make their records, in the places kept for them, and stop living (R131, R153). -/
def settleExiles (s : State) : State :=
  let due := s.living.filter (fun t => inExile t && t.allReady)
  due.foldl (fun s t => s.asThread t.slot t.lane (fun s => match s.th.park with
    | .exile e =>
      (match placeRecord e (s.updTh (fun t => { t.completeAll with park := .none })) with
        | some s => endThread s
        | none => s)
    | _ => s)) s

/-- `brx`: the smaller side of a split bundle is exiled; else an ordinary branch (R132, R153). -/
def brxOp (i : Ins) (o16 : BitVec 16) (cond : Word → Bool) (o : Opnds) (s : State) : State :=
    let v := branchTarget s.th.pc (o16.signExtend 64)
    let target : PC := v.truncate 57
    let next := nextPc i s
    let mine := cond (wordOf o.a)
    let side := match s.split with
      | some (n, c) => if n = s.bundleNo && s.bundleAll.any (fun b => s.th.is b.1 b.2) then c else exileSide i cond target next s
      | none => exileSide i cond target next s
    let s := { s with split := some (s.bundleNo, side) }
    let go := fun (s : State) => if mine then jumpTo i v s else finish i s
    if (side = 1 && mine) || (side = 2 && !mine) then exileAt i (if mine then v else pc64 next) go s else go s

/-! ## `cont` (R154) -/

/-- `cont`: the entry's checks, then the record; 0 is OK, 1 is QFULL (Table 7-5). DESIGN CHOICE (log entry 79): operand a, like the
registers of the record, is read once the outstanding results are complete (R131). -/
def contOp (i : Ins) (o : Opnds) (s : State) : State :=
  if !s.th.allReady then s.updTh (fun t => { t with park := .switch })
  else
    let v := dwordOf o.a
    match recTrap v s with
    | some t => raise t s
    | none =>
      let s := s.updTh Thread.completeAll
      let (st, s) := match placeRecord (v.truncate 57) s with
        | some s => ((0 : Word), s)
        | none => (1, s)
      finish i (addResult (destRegs o [st]) 40 none .none true s).2

/-! ## `qput` (R154, R161) -/

/-- The PRIO, BCOUNT, ARGS and LB of a task header. -/
def hdrPrio (h : BitVec 512) : Nat := h.toNat / 2 ^ 160 % 4
def hdrCount (h : BitVec 512) : Nat := h.toNat / 2 ^ 128 % 2 ^ 32
def hdrArgs (h : BitVec 512) : DWord := h.extractLsb' 64 64
def hdrLb (h : BitVec 512) : DWord := h.extractLsb' 0 64

/-- Whether a header meets Table 8-3. -/
def hdrOk (h : BitVec 512) : Bool :=
  h.toNat / 2 ^ 162 == 0 && hdrCount h != 0
  && (hdrArgs h == 0 || (canonical (hdrArgs h) && (hdrArgs h).toNat % 64 == 0))
  && canonical (hdrLb h) && (hdrLb h).toNat % 128 == 0

/-- The words a 64-byte load got, as one number. -/
def wordsNat (ws : List DWord) : Nat := ws.foldr (fun w n => w.toNat + 2 ^ 64 * n) 0

/-- A task arrives at a segment, charged to its tree (R162, R164); none is QFULL. -/
def queueTask (hdrAddr : DWord) (h : BitVec 512) (key : Word) (ctx tree depth pct task : Nat) (uid : Option Nat) (s : State) : Option State :=
  let e : QEntry := { ctx := ctx, tree := tree, prio := hdrPrio h, since := s.clock.cycle, pct := pct, uid := uid, depth := depth
                      entered := s.clock.cycle, task := task, work := .task hdrAddr (hdrLb h) (hdrArgs h) (hdrCount h) 0 }
  if !treeCanAdd s tree (hdrCount h) then none
  else (segPush (affinitySlice key s.xid) e s).map (treeAdd tree (hdrCount h))

/-- `qput`: the address is checked and the header read as a 64-byte load; the task is queued at the release point. -/
def qputOp (i : Ins) (o : Opnds) (s : State) : State :=
  let addr := dwordOf o.a
  match globalFail addr 64 with
  | some t => raise t s
  | none => withHome addr .read (fun h => readRecord addr h (raise { cause := .poison, addr := addr }) (fun bs s =>
          let seq := s.nextId
          let (tag, s) := addResult (destRegs o [0]) 40 none .none false s
          let q : QPut := { seq := seq, uid := s.th.uid, slot := s.th.slot, lane := s.th.lane, tag := tag, hdr := addr, key := wordOf o.b
                            words := (List.range 8).map (fun k => BitVec.ofNat 64 (leNat ((bs.drop (8 * k)).take 8)))
                            tree := s.warp.tree, depth := s.th.depth, prio := 0 }
          finish i { s with pl := { s.pl with puts := s.pl.puts ++ [q] } })) s

/-- A waiting `qput` towards its release point at scope device over G, where the task is queued or refused (Table 7-5). -/
def stepPut (q : QPut) (s : State) : State :=
  let (ok, s) := releaseStep q.uid q.seq 6 0b010 none s
  if !ok then s
  else
    let h : BitVec 512 := BitVec.ofNat 512 (wordsNat q.words)
    let pct := pctOf s q.uid
    let (st, s) : Word × State :=
      if !hdrOk h then (2, s)
      else match queueTask q.hdr h q.key s.ctxNo q.tree q.depth pct q.seq (some q.uid) s with
        | some s => (0, carryPct q.uid (some q.seq) pct s)
        | none => (1, s)
    let s := { s with pl := { s.pl with puts := s.pl.puts.filter (·.tag != q.tag) } }
    wakeStores [q.uid] (s.updThreads (·.uid == q.uid) (fun t => t.arrive q.tag [st]))

/-- BRX_Z (R153). -/
def execBrxZ (sw : Bool) (a : BitVec 7) (o : BitVec 16) (s : State) : Answer :=
  (fun (i0 : Ins) => runThread i0 (brxOp i0 o condZ) s) ⟨packB sw 20 a 0 o, none, .plain [⟨a, 1, .src, .a⟩]⟩

/-- BRX_NZ (R153). -/
def execBrxNz (sw : Bool) (a : BitVec 7) (o : BitVec 16) (s : State) : Answer :=
  (fun (i0 : Ins) => runThread i0 (brxOp i0 o condNz) s) ⟨packB sw 20 a 1 o, none, .plain [⟨a, 1, .src, .a⟩]⟩

/-- BRX_LTZ (R153). -/
def execBrxLtz (sw : Bool) (a : BitVec 7) (o : BitVec 16) (s : State) : Answer :=
  (fun (i0 : Ins) => runThread i0 (brxOp i0 o condLtz) s) ⟨packB sw 20 a 2 o, none, .plain [⟨a, 1, .src, .a⟩]⟩

/-- BRX_GEZ (R153). -/
def execBrxGez (sw : Bool) (a : BitVec 7) (o : BitVec 16) (s : State) : Answer :=
  (fun (i0 : Ins) => runThread i0 (brxOp i0 o condGez) s) ⟨packB sw 20 a 3 o, none, .plain [⟨a, 1, .src, .a⟩]⟩

/-- CONT (R154). -/
def execCont (sw : Bool) (d a : BitVec 7) (s : State) : Answer :=
  (fun (i0 : Ins) => runThread i0 (contOp i0) s) ⟨packA sw 21 d a 0#7 0, none, .plain [⟨a, 2, .src, .a⟩, ⟨d, 1, .dst, .d⟩]⟩

/-- QPUT (R154). -/
def execQput (sw : Bool) (d a b : BitVec 7) (s : State) : Answer :=
  (fun (i0 : Ins) => runThread i0 (qputOp i0) s) ⟨packA sw 21 d a b 1, none, .plain [⟨a, 2, .src, .a⟩, ⟨b, 1, .src, .b⟩, ⟨d, 1, .dst, .d⟩]⟩

end Sys2Proof.Machine
end

