-- ==== Sys2Proof/Machine/Fetch.lean ====
section
/-! DEFINITION. A thread's own events: results, yields, ages, trap entry and instruction fetch. -/

namespace Sys2Proof.Machine

open Sys2Proof

/-! ## Results, yields, ages, traps (R26, R88, R123, R346) -/

/-- The result's minimum latency has passed. -/
def minPassed {w : Nat} (now : Nat) (r : Result w) : Bool := decide (now ≥ r.issued + r.minLat)

/-- A thread of age 1,024 is marked. -/
def Thread.markAge (t : Thread) : Thread := if t.age ≥ 1024 then { t with marked := true } else t

/-- REGISTER_RESULT_WRITE (R26): a result writes its registers, unless it is not ready, too early, or behind an earlier one (R27). -/
def execRegisterResultWrite (who : Agent) (tag : Nat) (s : State) : Answer :=
  match who with
  | .stream n => .next (s.asSeq n (fun s => { s with sq := s.sq.complete (fun r => r.tag == tag && minPassed s.clock.cycle r) }))
  | who => .next (s.atThread who (fun s => s.updTh (fun t => t.complete (fun r => r.tag == tag && minPassed s.clock.cycle r))))

/-- YIELD_EXPIRY (R88). -/
def execYieldExpiry (who : Agent) (s : State) : Answer :=
  .next (s.atThread who (fun s =>
    match s.th.park with
    | .yield till => if s.clock.cycle > till then s.updTh Thread.resume else s
    | _ => s))

/-- READY_AGE_MARK (R123). -/
def execReadyAgeMark (who : Agent) (s : State) : Answer :=
  .next (s.atThread who (fun s => s.updTh Thread.markAge))

/-- TRAP_ENTRY (R346). -/
def execTrapEntry (who : Agent) (s : State) : Answer :=
  .next (s.atThread who (fun s =>
    match s.th.park with
    | .trap t pc d => if s.th.allReady then enterTrap t pc d s else s
    | _ => s))

/-! ## Instruction fetch (R25, R122, R375) -/

/-- A word in the instruction cache or loop buffer. -/
def codeWord? (s : State) (c : Nat) (pc : PC) : Option Word := (s.icache.find? (fun x => x.1 == codeKey c pc)).map (·.2)

/-- The words of the line at home address `at_` enter the instruction cache, but for those of a poisoned sector (R357). -/
def learnCode (c : Nat) (pc : PC) (at_ : Nat) (bs : List Byte) (s : State) : State :=
  let base : Nat := pc.toNat / 128 * 128
  let clean := (List.range 32).filter (fun k => !readPoisoned s (at_ + 4 * k) 4)
  let ws := clean.map (fun k => (c * 2 ^ 57 + base + 4 * k, BitVec.ofNat 32 (leNat ((bs.drop (4 * k)).take 4))))
  { s with icache := ws ++ s.icache.filter (fun x => !ws.any (·.1 == x.1)), icHome := (c * 2 ^ 57 + base, at_) :: s.icHome.filter (·.1 != c * 2 ^ 57 + base) }

/-- Threads that wait for a line go on. -/
def wakeFetch (line : Nat) (s : State) : State :=
  s.updThreads (fun t => match t.park with | .ifetch va => va / 128 == line / 128 | _ => false) (fun t => { t with park := .none })

/-- A word to be fetched is poisoned: the thread traps at it (Table 18-4). -/
def fetchPoison (va : Nat) (s : State) : State :=
  s.updTh (fun t => { t with park := .trap { cause := .poison, addr := pc64 (BitVec.ofNat 57 va) } (pc64 t.pc) false })

/-- A read of a master that goes on finds no module: the port completes it as poisoned (R390). -/
def lostRead (s : State) (m h : Nat) : Bool := !isFrozen s m && isX h && isUnreachable s (xModule h)

/-- The line that the acting thread waits for arrives; without a translation the thread waits for a walk first. -/
def fetchFill (s : State) : State :=
  match s.th.park with
  | .ifetch va =>
    let c := s.ctxNo
    match translate c va .fetch s with
    | (none, s) => (wantWalk c va .fetch s).updTh (fun t => { t with park := .walk va .fetch })
    | (some h, s) =>
      let base := h / 128 * 128
      if lostRead s (masterCore s) h then fetchPoison va (linkLost c (xModule h) s)
      else gate (masterCore s) c base 128 (fun s =>
        if readPoisoned s h 4 then fetchPoison va s
        else wakeFetch va (learnCode c (BitVec.ofNat 57 va) base (homeBytes s base 128) s)) s
  | _ => s

/-- The same for the acting stream (R277), whose words come through the cluster's TLB; poison stops it. -/
def fetchFillS (s : State) : State :=
  match s.sq.park with
  | .ifetch va =>
    let c := s.ctxNo
    match translateCl c va .fetch s with
    | (none, s) => let s := wantWalk c va .fetch s; { s with sq := { s.sq with park := .walk va .fetch } }
    | (some h, s) =>
      let base := h / 128 * 128
      if lostRead s (masterEngine s 3) h then stopStream 7 (linkLost c (xModule h) s)
      else gate (masterEngine s 3) c base 128 (fun s =>
        if readPoisoned s h 4 then stopStream 7 s
        else
          let s := learnCode c (BitVec.ofNat 57 va) base (homeBytes s base 128) s
          { s with sq := { s.sq with park := .none } }) s
  | _ => s

/-- INSTRUCTION_FETCH_FILL (R122). -/
def execInstructionFetchFill (who : Agent) (s : State) : Answer :=
  match who with
  | .stream n => .next (s.asSeq n fetchFillS)
  | who => .next (s.atThread who fetchFill)

end Sys2Proof.Machine
end

