-- ==== Sys2Proof/Machine/Start.lean ====
section
/-! DEFINITION. Readiness of a thread, launch blocks, the dispatcher and the former: how blocks and free warps start (R122, R134 to R136, R158 to R161, R168, R194, R266). -/

namespace Sys2Proof.Machine

open Sys2Proof

/-! ## Readiness (R122) -/

/-- The word at the thread's PC is in the instruction cache, and for a prefix the word after it too. -/
def wordReady (s : State) (t : Thread) : Bool :=
  match codeWord? s s.ctxNo t.pc with
  | none => false
  | some w => !isPayloadWord w || (codeWord? s s.ctxNo (t.pc + 4)).isSome

/-- The block of a thread still waits for the words at ARGS (R160). -/
def argsOpen (s : State) (t : Thread) : Bool := (((s.warpAt t.slot).block.bind s.block?).map (·.argsWait)).getD false

/-- A living thread that nothing holds, but for the presence of its word. -/
def threadOpen (s : State) (t : Thread) : Bool :=
  t.live && decide (t.park = .none) && s.swapEnd.isNone && !isFrozen s (masterCore s) && !argsOpen s t

/-- The instruction word at a PC: the attached one for a prefix. -/
def coreWord (s : State) (pc : PC) : Word :=
  let w := (codeWord? s s.ctxNo pc).getD 0
  if isPayloadWord w then (codeWord? s s.ctxNo (pc + 4)).getD 0 else w

/-- Operations that the unit an instruction goes to can still take, where its queue bounds them (R327). -/
def unitRoom (s : State) (w : Word) : Nat :=
  if majorOf w = 0x2A ∧ (fOf w = 0 ∨ fOf w = 1) then 32 - (s.cl.copyQ.filter (fun c => decide (c.kind ≠ .hostCopy) || c.slot == s.xid)).length
  else if majorOf w = 0x2A ∧ fOf w = 3 then 32 - s.cl.fetchQ.length
  else 32

/-- A SIMT scratch instruction: `lds`, `sts`, `samo` (R192). -/
def isScratchWord (w : Word) : Bool := majorOf w == 0x22 || majorOf w == 0x24

/-- The thread's block is being moved in the scratch (R192). -/
def blockMoves (s : State) (t : Thread) : Bool :=
  match s.pl.shake, (s.warpAt t.slot).block with
  | some (.reloc _ moves _), some h => moves.any (·.1 == h)
  | _, _ => false

/-- The unit that the thread's instruction needs can take it (R122, R192, R327). -/
def unitFree (s : State) (t : Thread) : Bool :=
  let w := coreWord s t.pc
  !(isScratchWord w && blockMoves s t) && unitRoom s w != 0

def threadReady (s : State) (t : Thread) : Bool := threadOpen s t && wordReady s t && unitFree s t

/-! ## Launch blocks (R158, R159) -/

/-- Field `lo + n - 1 .. lo` of a launch block. -/
def lbField (l : BitVec 1024) (lo n : Nat) : Nat := l.toNat / 2 ^ lo % 2 ^ n

def lbRoles (l : BitVec 1024) : Nat := lbField l 170 3
def lbWarps (l : BitVec 1024) (k : Nat) : Nat := lbField l (256 + 128 * k + 74) 6
def lbRegs (l : BitVec 1024) (k : Nat) : Nat := lbField l (256 + 128 * k + 64) 10
def lbEntry (l : BitVec 1024) (k : Nat) : DWord := BitVec.ofNat 64 (lbField l (256 + 128 * k) 64)
def lbScratch (l : BitVec 1024) : Nat := lbField l 128 32
def lbTiles (l : BitVec 1024) : Nat := lbField l 160 6
def lbFrames (l : BitVec 1024) : Nat := lbField l 166 4
def lbStream (l : BitVec 1024) : DWord := BitVec.ofNat 64 (lbField l 192 64)

/-- An aligned and canonical PC (R12). -/
def pcOk (v : DWord) : Bool := canonical v && v.toNat % 4 == 0

def lbRoleOk (l : BitVec 1024) (k : Nat) : Bool :=
  if k < lbRoles l then lbField l (256 + 128 * k + 80) 48 == 0 && decide (1 ≤ lbWarps l k ∧ lbWarps l k ≤ 32)
    && decide (8 ≤ lbRegs l k ∧ lbRegs l k ≤ 512) && lbRegs l k % 8 == 0 && pcOk (lbEntry l k)
  else lbField l (256 + 128 * k) 128 == 0

/-- Register pages of a block's warps. -/
def lbPages (l : BitVec 1024) : Nat := ((List.range 4).map (fun k => lbWarps l k * (lbRegs l k / 8))).sum
def lbWarpSum (l : BitVec 1024) : Nat := ((List.range 4).map (lbWarps l)).sum

/-- Every check of R159 but that of the features. -/
def lbShapeOk (l : BitVec 1024) : Bool :=
  lbField l 768 256 == 0 && lbField l 173 19 == 0 && decide (1 ≤ lbRoles l ∧ lbRoles l ≤ 4) && (List.range 4).all (lbRoleOk l)
  && pcOk (lbStream l) && decide (lbFrames l ≤ 8) && decide (lbTiles l ≤ 32) && lbScratch l % 128 == 0
  && decide (1 ≤ lbWarpSum l ∧ lbWarpSum l ≤ 32)
  && decide ((lbPages l + 15) / 16 + (lbScratch l + 16383) / 16384 + lbTiles l ≤ 30)

/-- The required features that the part lacks. -/
def lbFeatOk (l : BitVec 1024) : Bool := (l.truncate 128 &&& ~~~Config.cap) == 0

/-- 4 `LB_INVALID`, 5 `FEAT_MISSING`. -/
def lbFail (l : BitVec 1024) : Option Nat := if !lbShapeOk l then some 4 else if !lbFeatOk l then some 5 else none

/-- The launch block at a context's address, as the dispatcher reads it; none where it cannot be read. -/
def lbAt (s : State) (c : Nat) (lb : DWord) : Except EStop (Option (BitVec 1024)) :=
  match engHome s (masterCore s) c lb.toNat .read 128 with
  | .error (.violation m h) => .error (.violation m h)
  | .error (.miss va a) => .error (.miss va a)
  | .error (.fault va a) => .error (.fault va a)
  | .error _ => .ok none
  | .ok h => .ok (if readPoisoned s h 128 then none else some (BitVec.ofNat 1024 (leNat (homeBytes s h 128))))

/-! ## Whose work may start (R154, R165, R365) -/

/-- Work of context `c` may start on the core. -/
def ctxRuns (s : State) (c : Nat) : Bool :=
  (planeIdle s || s.pl.ctx == some c) && s.swapEnd.isNone && !s.slots.any (·.ctx == c) && s.standby.holds != some c
  && (match s.ctx? c with | some x => !x.paused | none => false)

/-- A message carries a write that a thread issued, or a write-back that it forced, before `seq`. -/
def Msg.older (m : Msg) (uid seq : Nat) : Bool :=
  match m.body with
  | .write w => (match w.writer with
    | .threads who => who.any (fun x => x.uid == uid && decide (x.seq < seq))
    | .forced u => (u == uid || w.who.contains uid) && decide (m.id < seq)
    | _ => w.who.contains uid && decide (m.id < seq))
  | .atomic a => a.steps.any (fun x => x.uid == uid && decide (x.tag < seq))
  | _ => false

/-- A thread of either plane has writes older than `seq` that are not acknowledged, or that wait for a release point (R214). -/
def writesAnywhere (s : State) (uid seq : Nat) : Bool :=
  [s.pl, s.standby.plane].any (fun p => p.net.any (·.older uid seq) || p.storeQ.any (fun q => q.uid == uid && decide (q.seq < seq)))

/-- The time base has passed what an entry carries: its PCT (R154), or the WCT of its record (R266). -/
def timePassed (s : State) (e : QEntry) : Bool :=
  (match e.uid with
    | some u => !writesAnywhere s u e.task && decide (s.clock.tbase ≥ carriedPct s u (some e.task))
    | none => true)
  && decide (s.clock.tbase ≥ e.pct) && (match e.trig with | some r => decide (s.clock.tbase ≥ r.1.wct) | none => true)

/-! ## The start of a block (R160, R194, R266, R275) -/

/-- A thread at its start (R14, R20). -/
def newThread (s : State) (uid slot lane tid : Nat) (pc : PC) (regs : List (Nat × Word)) (depth : Nat) (pk : Park) : Thread :=
  let c := s.curCtx
  let n := s.coreNo * 2048 + slot * 32 + lane
  { live := true, uid := uid, slot := slot, lane := lane, tid := tid, pc := pc, npc := pc, regs := stSetAll 0 [] regs, depth := depth, park := pk
    kp := c.stkBase + BitVec.ofNat 64 ((n + 1) * c.stkSize) }

/-- What a warp of a block starts with: role, registers per thread, entry. -/
structure WarpPlan where
  role : Nat
  regs : Nat
  entry : DWord
  deriving DecidableEq, Repr

/-- The warps of a launch block by `wid` (R121). -/
def warpPlan (l : BitVec 1024) : List WarpPlan :=
  (List.range 4).flatMap (fun k => List.replicate (lbWarps l k) { role := k, regs := lbRegs l k, entry := lbEntry l k })

/-- The pages of every warp, in order, and the banks after them. -/
def planPages : List WarpPlan → List (Nat × Bank) → List (Nat × Nat) → Option (List (List (Nat × Nat)) × List (Nat × Bank))
  | [], pm, _ => some ([], pm)
  | w :: t, pm, used =>
    match takePages (w.regs / 8) pm used with
    | none => none
    | some (pg, pm) => (planPages t pm (pg ++ used)).map (fun r => (pg :: r.1, r.2))

def freeSlots (s : State) : List Nat := (List.range 64).filter (fun k => !s.pl.warps.any (·.slot == k))

/-- Frames of the cluster that no block holds and no restore has reserved. -/
def freeFrames (s : State) : List Nat :=
  let held := if s.standby.engineDue then s.standby.nframes else 0
  let f := (List.range 8).filter (fun k => !s.cl.frameOwner.any (·.1 == k))
  f.take (f.length - held)

def freeSeq (s : State) : Option Nat :=
  let held := if s.standby.engineDue then s.standby.seqs.length else 0
  if s.allSeqs.length + held < 16 then firstFree (s.allSeqs.map (·.n)) 16 else none

/-- What a block is started with: its task's words, its index, and the registers and entry that a trigger record gives. -/
structure StartArgs where
  hdr : DWord
  args : DWord
  bcount : Nat
  bid : Nat
  regs : List (Nat × Word)
  entry : Option DWord

/-- The threads of one warp. -/
def warpThreads (s : State) (uid0 slot wid : Nat) (p : WarpPlan) (a : StartArgs) (depth : Nat) : List Thread :=
  let e := match a.entry with
    | some v => if p.role = 0 then v else p.entry
    | none => p.entry
  (List.range 32).map (fun l => newThread s (uid0 + l) slot l (wid * 32 + l) (e.truncate 57) a.regs depth .none)

/-- Takes every part of a block start at once; none where a part is missing. -/
def allocBlock (e : QEntry) (l : BitVec 1024) (a : StartArgs) (s : State) : Option State := do
  let plan := warpPlan l
  let slots := (freeSlots s).take plan.length
  let h := s.nextId
  let uid0 := h + 1
  let (pages, pm) ← planPages plan s.pl.pmap (usedPages s)
  let s := { (s.withPmap pm) with nextId := uid0 + 32 * plan.length }
  let size := lbScratch l
  let base := if size = 0 then 0 else placeExtent (extents s.pl.blocks ++ moveTargets s) size
  let s ← if size = 0 then some s else growArena (base + size) s
  let banks := (freeBanks s.pl.pmap).take (lbTiles l)
  let nframes := if lbStream l = 0 then 0 else lbFrames l
  let frames := (freeFrames s).take nframes
  let seq := if lbStream l = 0 then none else freeSeq s
  if slots.length < plan.length ∨ banks.length < lbTiles l ∨ s.pl.tiles.length + lbTiles l > 32 ∨ frames.length < nframes
    ∨ (lbStream l ≠ 0 ∧ seq.isNone) then none
  else
    let b : Block :=
      { handle := h, slot0 := slots.headD 0, ctx := e.ctx, tree := e.tree, hdr := a.hdr, args := a.args, bid := a.bid, gsz := a.bcount
        nthr := 32 * plan.length, prio := e.prio, depth := e.depth, scratch := size, sbase := base, frames := frames, stream := seq
        argsWait := a.args != 0 }
    let s := { s with pl := { s.pl with ctx := some e.ctx, blocks := s.pl.blocks ++ [b] } }
    let ws : List Warp := plan.mapIdx (fun i p =>
      { slot := slots.getD i 0, regsPer := p.regs, wid := i, bid := a.bid, gsz := a.bcount, nthr := 32 * plan.length, role := p.role
        block := some h, tree := e.tree, prio := e.prio, pages := pages.getD i [] })
    let s := { s with pl := { s.pl with warps := s.pl.warps ++ ws } }
    let ts := (plan.mapIdx (fun i p => warpThreads s (uid0 + 32 * i) (slots.getD i 0) i p a e.depth)).flatten
    let s := { s with pl := { s.pl with threads := ts.foldl (fun l t => insThread t l) s.pl.threads } }
    let s := banks.foldl (fun s k => addTile k h s) s
    let s := { s with cl := { s.cl with frameOwner := s.cl.frameOwner ++ frames.map (fun f => (f, h)) } }
    match seq with
    | none => some s
    | some n =>
      let q : SeqCtx := { n := n, held := true, block := h, pc := (lbStream l).truncate 57, npc := (lbStream l).truncate 57
                          regs := stSetAll 0 [] [(1, a.args), (2, BitVec.ofNat 64 a.bid), (3, BitVec.ofNat 64 a.bcount)] }
      some { s with cl := { s.cl with seqs := s.cl.seqs ++ [q] } }

/-! ## The words at ARGS (R160) -/

/-- The warps of a block get `s0` to `s15`, and its threads may issue. -/
def giveConsts (h : Nat) (ws : List Word) (s : State) : State :=
  let cs := stSetAll 0 [] (ws.mapIdx (fun i w => (i, w)))
  let s := { s with pl := { s.pl with warps := updIf (fun w => w.block == some h) (fun w => { w with consts := cs }) s.pl.warps } }
  s.updBlock h (fun b => { b with argsWait := false })

/-- Words that the specification does not state. -/
def drawWords : Nat → State → List Word × State
  | 0, s => ([], s)
  | n + 1, s => let (i, s) := s.draw; let (ws, s) := drawWords n s; ((Config.freeWord i).truncate 32 :: ws, s)

def freeConsts (h : Nat) (s : State) : State := let (ws, s) := drawWords 16 s; giveConsts h ws s

/-- The read of ARGS as a load of the first warp's first thread. -/
def loadArgs (b : Block) (s : State) : State :=
  withHome b.args .read (fun at_ s =>
    readRecord b.args at_
      (fun s => freeConsts b.handle (s.updTh (fun t => { t with park := .trap { cause := .poison, addr := b.args } (pc64 t.pc) false })))
      (fun bs => giveConsts b.handle ((List.range 16).map (fun k => BitVec.ofNat 32 (leNat ((bs.drop (4 * k)).take 4))))) s) s

/-- Blocks whose words at ARGS are still to be read. -/
def serveArgs (s : State) : State :=
  (s.pl.blocks.filter (·.argsWait)).foldl (fun s b =>
    match s.thread? b.slot0 0 with
    | none => freeConsts b.handle s
    | some t => match t.park with
      | .none => s.asThread b.slot0 0 (loadArgs b)
      | .walk _ _ => s
      | .fault _ _ => s
      | .record _ => s
      | .storeWait => s
      | _ => freeConsts b.handle s) s

/-! ## The dispatcher (R161, R168) -/

def dropEntry (e : QEntry) (s : State) : State := { s with sched := { s.sched with coreQ := s.sched.coreQ.filter (· != e) } }

/-- Two entries are of one task. -/
def sameTask (a b : QEntry) : Bool :=
  let key := fun (e : QEntry) => match e.work with
    | .task h l g n _ => some (h, l, g, n)
    | .block h l g n _ => some (h, l, g, n)
    | .cont _ _ => none
  a.ctx == b.ctx && a.tree == b.tree && a.since == b.since && a.task == b.task && a.trig == b.trig && (key a).isSome && key a == key b

/-- How many blocks an entry stands for. -/
def entryBlocks (e : QEntry) : Nat :=
  match e.work with
  | .task _ _ _ n k => n - k
  | .block _ _ _ _ _ => 1
  | .cont _ _ => 0

/-- A task whose launch block is invalid: its blocks that wait are discarded, its tree counts them off, and a record is written that
names its header, or the launch block of triggered work (R161, R252). -/
def discardTask (e : QEntry) (code : Nat) (s : State) : State :=
  let d := s.sched
  let all := d.segs.flatMap (·.2) ++ d.rings.flatMap (fun r => r.blocks.flatten) ++ d.dieQ ++ d.clusterQ ++ d.coreQ ++ d.moving.flatMap (·.entries)
  let n := ((all.filter (sameTask e)).map entryBlocks).sum
  let keep := fun (l : List QEntry) => l.filter (fun x => !sameTask e x)
  let s := { s with sched := { d with
    segs := (d.segs.map (fun x => (x.1, keep x.2))).filter (fun x => !x.2.isEmpty)
    rings := d.rings.map (fun r => { r with blocks := (r.blocks.map keep).filter (fun b => !b.isEmpty) })
    dieQ := keep d.dieQ, clusterQ := keep d.clusterQ, coreQ := keep d.coreQ
    moving := d.moving.map (fun m => { m with entries := keep m.entries }) } }
  let detail := match e.work with
    | .block h lb _ _ _ => if e.trig.isSome then lb else h
    | _ => 0
  ctxError e.ctx code detail (treeSub e.tree n s)

/-- The registers and entry that a trigger record gives (R266). -/
def startArgs (e : QEntry) (hdr args : DWord) (bcount bid : Nat) : StartArgs :=
  match e.trig with
  | some (r, entry) => { hdr := hdr, args := args, bcount := 1, bid := 0, entry := some entry
                         regs := [(0, r.gaddr.truncate 32), (1, r.gaddr.extractLsb' 32 32), (2, BitVec.ofNat 32 r.depth), (3, BitVec.ofNat 32 r.aid)] }
  | none => { hdr := hdr, args := args, bcount := bcount, bid := bid, entry := none, regs := [(0, args.truncate 32), (1, args.extractLsb' 32 32)] }

/-- Banks that a start lacks beyond those that are F. -/
def banksShort (l : BitVec 1024) (s : State) : Nat :=
  let g := (lbPages l - freePages s + 15) / 16
  let size := lbScratch l
  let base := placeExtent (extents s.pl.blocks ++ moveTargets s) size
  let sc := if size = 0 then 0 else (base + size + 16383) / 16384 - s.pl.arena.length
  g + sc + lbTiles l - (freeBanks s.pl.pmap).length

/-- Everything but banks is there. -/
def onlyBanksShort (l : BitVec 1024) (s : State) : Bool :=
  decide ((freeSlots s).length ≥ lbWarpSum l) && decide (s.pl.tiles.length + lbTiles l ≤ 32) && (lbStream l == 0 || (decide ((freeFrames s).length ≥ lbFrames l) && (freeSeq s).isSome))

/-- The C shrink for a start that lacks only banks (R194). -/
def shrinkForStart (l : BitVec 1024) (s : State) : State :=
  let n := banksShort l s
  let c := (cacheBanks s.pl.pmap).reverse.take n
  if n = 0 ∨ !onlyBanksShort l s ∨ (cacheBanks s.pl.pmap).length < n + 2 ∨ s.pl.shake.isSome = true ∨ s.pl.shakeQ.isEmpty = false
    ∨ (standbyBusy s = true ∧ dirtyIn s c = true) then s
  else (changeBanks c .toFree none s).2

/-- What an examination of an entry finds: it cannot be considered, a translation is sought first, its task is invalid, it lacks resources,
or it starts. -/
inductive Exam where
  | skip
  | seek (s : State)
  | stop (m h : Nat)
  | bad (code : Nat)
  | short (l : BitVec 1024)
  | start (s : State)

def examine1 (e : QEntry) (s : State) : Exam :=
  match e.work with
  | .block hdr lb args n bid =>
    if !ctxRuns s e.ctx || !timePassed s e then .skip
    else match lbAt s e.ctx lb with
      | .error (.violation m h) => .stop m h
      | .error (.miss va a) => .seek (engMiss (masterCore s) e.ctx va a s)
      | .error (.fault va a) => .seek (forgetMiss (masterCore s) e.ctx va a s)
      | .error _ => .skip
      | .ok none => .skip
      | .ok (some l) => match lbFail l with
        | some c => .bad c
        | none => match allocBlock e l (startArgs e hdr args n bid) { s with pl := { s.pl with ctx := some e.ctx } } with
          | some s => .start s
          | none => .short l
  | _ => .skip

/-- The dispatcher's pass over the entries of the core queue in order; `may`: a block may start in this cycle. -/
def examineAll (may : Bool) : List QEntry → State → State
  | [], s => s
  | e :: t, s =>
    match examine1 e s with
    | .skip => examineAll may t s
    | .seek s => examineAll may t s
    | .stop m h => freeze m e.ctx h s
    | .bad c => discardTask e c s
    | .start s' => if may then serveArgs (dropEntry e { s' with sched := { s'.sched with lastStart := some s.clock.cycle } }) else s
    | .short l =>
      let s := { s with sched := { s.sched with coreQ := updIf (· == e) (fun e => { e with passed := e.passed + 1 }) s.sched.coreQ } }
      let s := shrinkForStart l s
      if e.passed + 1 ≥ 16 then s else examineAll may t s

/-- A block may start: the last one started at least 4 cycles ago (R168). -/
def startMay (s : State) : Bool :=
  match s.sched.lastStart with
  | some c => decide (s.clock.cycle ≥ c + 4)
  | none => true

/-- BLOCK_START: the entries are examined in each cycle. -/
def blockStartStep (s : State) : State :=
  let s := serveArgs s
  examineAll (startMay s) (inOrder s.clock.cycle s.sched.coreQ) s

/-- Some entry can be dispatched: none that has been passed over 16 times stands before it (R168). -/
def canDispatch (s : State) : List QEntry → Bool
  | [] => false
  | e :: t => match examine1 e s with
    | .start _ => true
    | .short _ => decide (e.passed < 16) && canDispatch s t
    | _ => canDispatch s t

/-! ## The former (R134 to R136) -/

def recOf (e : QEntry) : Option ContRec := match e.work with | .cont _ r => some r | _ => none

/-- TREE, RCLS and ENTRY of a record's header; its lane. -/
def recKey (r : ContRec) : Nat × Nat := (r.hdr.toNat / 2 ^ 50, r.hdr.toNat % 2 ^ 45)
def recLane (r : ContRec) : Nat := r.hdr.toNat / 2 ^ 45 % 32

/-- The records of a warp under formation: those of the first's key, one per lane, in the order they entered. -/
def gather (first : QEntry) (l : List QEntry) : List (QEntry × ContRec) :=
  match recOf first with
  | none => []
  | some f => l.foldl (fun acc e =>
      match recOf e with
      | none => acc
      | some r => if e.ctx == first.ctx && recKey r == recKey f && !acc.any (fun x => recLane x.2 == recLane r) then acc ++ [(e, r)] else acc) []

/-- The entry PC of a record. -/
def recPc (r : ContRec) : PC := ((BitVec.ofNat 47 (r.hdr.toNat % 2 ^ 45 * 4)).signExtend 57)

/-- The oldest record of the group has been in the core queue for 256 cycles. -/
def groupDue (now : Nat) (g : List (QEntry × ContRec)) : Bool := g.any (fun x => decide (x.1.waited + (now - x.1.entered) ≥ 256))

/-- No thread is ready and no block of the queue can start. DESIGN CHOICE (log entry 87): of the other entries of the queue only blocks count
as ones that can be dispatched, since every partial warp would else wait for every other. -/
def coreQuiet (s : State) : Bool :=
  !s.living.any (threadReady s) && !canDispatch s (inOrder s.clock.cycle s.sched.coreQ)

/-- Releases a free warp of the records, where a slot and pages are free (Table 6-4). -/
def releaseWarp (g : List (QEntry × ContRec)) (s : State) : Option State := do
  let x ← g.head?
  let slot ← (freeSlots s).head?
  let a := 16 * 2 ^ (x.2.hdr.toNat / 2 ^ 50 % 4)
  let (pages, pm) ← takePages (a / 8) s.pl.pmap (usedPages s)
  let depth := g.foldl (fun m y => max m y.2.depth) 0
  let s := { (s.withPmap pm) with pl := { (s.withPmap pm).pl with ctx := some x.1.ctx } }
  let w : Warp := { slot := slot, regsPer := a, nthr := g.length, tree := x.1.tree, prio := x.1.prio, pages := pages }
  let ts := g.mapIdx (fun i y => newThread s (s.nextId + i) slot (recLane y.2) (recLane y.2) (recPc y.2) y.2.regs depth (.time y.2.pct (y.1.uid.getD 0) y.1.task))
  let s := { s with nextId := s.nextId + g.length, pl := { s.pl with warps := s.pl.warps ++ [w], threads := ts.foldl (fun l t => insThread t l) s.pl.threads } }
  let s := g.foldl (fun s y => dropEntry y.1 s) s
  some (treeSub x.1.tree g.length (treeAdd x.1.tree 1 s))

/-- The groups that may be released by `ok`, in the order of entry; one that lacks a slot or pages waits, and the others go on. -/
def formWarps (ok : List (QEntry × ContRec) → Bool) : Nat → State → State
  | 0, s => s
  | n + 1, s =>
    let l := s.sched.coreQ.filter (fun e => isCont e && ctxRuns s e.ctx)
    match ((l.map (fun e => gather e l)).filter ok).findSome? (fun g => releaseWarp g s) with
    | none => s
    | some s => formWarps ok n s

def formWarp (ok : List (QEntry × ContRec) → Bool) (s : State) : State := formWarps ok s.sched.coreQ.length s

def warpReleaseStep (s : State) : State :=
  let quiet := coreQuiet s
  formWarp (fun g => g.length == 32 || groupDue s.clock.cycle g || quiet) s

def partialTimeoutStep (s : State) : State := formWarp (fun g => decide (g.length < 32) && groupDue s.clock.cycle g) s

/-- FORMER_WARP_RELEASE (R134). -/
def execFormerWarpRelease (s : State) : Answer :=
  .next (warpReleaseStep s)

/-- FORMER_PARTIAL_TIMEOUT (R134). -/
def execFormerPartialTimeout (s : State) : Answer :=
  .next (partialTimeoutStep s)

/-- BLOCK_START (R168). -/
def execBlockStart (s : State) : Answer :=
  .next (blockStartStep s)

end Sys2Proof.Machine
end

