-- ==== Sys2Proof/Machine/Graph.lean ====
section
/-! DEFINITION. The command processor's accesses, launches, graph objects and the completion of spawn trees (R162, R163, R169,
R171, R172, R175 to R177). -/

namespace Sys2Proof.Machine

open Sys2Proof

/-! ## Accesses of the command processor (R156, R358, R401) -/

/-- A virtual address of a context as the command processor reads it: the home address and the bytes. -/
def cpRead (s : State) (c va n : Nat) : Except EStop (Nat × List Byte) := do
  let h ← engHome s masterCp c va .read n
  if readPoisoned s h n then throw .poison
  pure (h, homeBytes s h n)

/-- The value time of a read at its home (R214). -/
def readTime (h : Nat) (s : State) : Nat × State :=
  if isX h then let (i, s) := s.draw; (Config.freeDelay i, s) else ((lineRec s (lineOf h)).vl, s)

/-- A write of the command processor commits at its home, or is completed by the port (R390); its completion time. -/
def cpStore (c h : Nat) (bs : List Byte) (s : State) : Nat × State :=
  if isX h then
    if isUnreachable s (xModule h) then (s.clock.tbase + 40, linkLost c (xModule h) (maybeRemote (atAddr h bs) s))
    else let (t, rf, s) := commitRemote (atAddr h bs) 0 s; (t, reportRefused c rf s)
  else let (s, w) := commitQuiet c (atAddr h bs) 0 .module s; (w, s)

/-- A stop of an access: a violation freezes its master; every other one leaves the access waiting. DESIGN CHOICE (log entry 102): so does poison, for
which Table 18-4 names no effect on the command processor; the access is made again until the mark is gone. -/
def cpStop (c : Nat) (e : EStop) (s : State) : State :=
  match e with
  | .violation m h => freeze m c h s
  | .lost m => linkLost c m s
  | _ => s

/-- The command processor runs: the module is up, no checkpoint holds it, and it is not frozen. -/
def cpRuns (s : State) : Bool := decide (s.win.state = .ready) && !s.cp.stopped && !isFrozen s masterCp

/-! ## Launches (R171) -/

/-- The codes of a header's faults (R161, R172). -/
def hdrCodes (h : BitVec 512) : List Nat :=
  (if h.toNat / 2 ^ 162 ≠ 0 ∨ hdrCount h = 0 then [2] else [])
  ++ (if !canonical (hdrLb h) || (hdrLb h).toNat % 128 != 0 || (hdrArgs h != 0 && (!canonical (hdrArgs h) || (hdrArgs h).toNat % 64 != 0)) then [3] else [])

/-- What a seed's header lets a launch find: codes of faults, or the header. -/
def launchCheck (s : State) (c : Nat) (hdr : DWord) : Except EStop (Sum Nat (BitVec 512)) :=
  match cpRead s c hdr.toNat 64 with
  | .error (.violation m h) => .error (.violation m h)
  | .error .held => .error .held
  | .error _ => .ok (.inl 7)
  | .ok (_, bs) =>
    let h : BitVec 512 := BitVec.ofNat 512 (leNat bs)
    match hdrCodes h with
    | k :: _ => .ok (.inl k)
    | [] => match cpRead s c (hdrLb h).toNat 128 with
      | .error (.violation m x) => .error (.violation m x)
      | .error .held => .error .held
      | .error _ => .ok (.inl (if hdrCount h ≠ 1 then 6 else 7))
      | .ok (_, lb) =>
        let l : BitVec 1024 := BitVec.ofNat 1024 (leNat lb)
        match lbFail l with
        | some k => .ok (.inl k)
        | none => if hdrCount h ≠ 1 ∨ lbRoles l ≠ 1 ∨ lbWarps l 0 ≠ 1 then .ok (.inl 6) else .ok (.inr h)

/-- The module that a read found out of reach. -/
def lostIn {α : Type} (x : Except EStop α) : Option Nat := match x with | .error (.lost m) => some m | _ => none

/-- The record of a read of the command processor that found a module out of reach (R390). -/
def noteLost (c : Nat) (m : Option Nat) (s : State) : State := match m with | some m => linkLost c m s | none => s

/-- The module out of reach that a launch's header or launch block lies in. -/
def launchLost (s : State) (c : Nat) (hdr : DWord) : Option Nat :=
  match cpRead s c hdr.toNat 64 with
  | .ok (_, bs) =>
    let h : BitVec 512 := BitVec.ofNat 512 (leNat bs)
    if (hdrCodes h).isEmpty then lostIn (cpRead s c (hdrLb h).toNat 128) else none
  | x => lostIn x

def freeTree (s : State) : Option Nat := firstFree (s.sched.trees.map (·.n)) 4096

/-- A tree is allocated and the seed block queued; none while no tree is free or the segment and its ring are full. -/
def launchSeed (c : Nat) (hdr : DWord) (h : BitVec 512) (key : Word) (pct : Nat) (tr : Tree) (s : State) : Option State :=
  match freeTree s with
  | none => none
  | some n =>
    let e : QEntry := { ctx := c, tree := n, prio := hdrPrio h, since := s.clock.cycle, pct := pct, entered := s.clock.cycle
                        work := .task hdr (hdrLb h) (hdrArgs h) 1 0 }
    segPush (affinitySlice key 0) e { s with sched := { s.sched with trees := s.sched.trees ++ [{ tr with n := n, ctx := c, count := 1 }] } }

/-! ## Graph nodes (Table 8-10) -/

def ndType (n : BitVec 512) : Nat := n.toNat % 256
def ndPred (n : BitVec 512) : Nat := n.toNat / 2 ^ 16 % 65536
def ndAff (n : BitVec 512) : Word := n.extractLsb' 96 32
def ndAddr (n : BitVec 512) : DWord := n.extractLsb' 128 64
def ndVal (n : BitVec 512) : Nat := n.toNat / 2 ^ 192 % 2 ^ 64
def ndCmp (n : BitVec 512) : Nat := n.toNat / 2 ^ 256 % 4
def ndSlot (n : BitVec 512) (k : Nat) : Nat := n.toNat / 2 ^ (32 + 16 * k) % 65536

/-- The successors a node names. -/
def ndSuccs (n : BitVec 512) : List Nat := ((List.range 4).map (ndSlot n)).filter (· != 0xFFFF)

/-- A node meets Table 8-10 in a graph of `nn` nodes. -/
def nodeOk (nn : Nat) (n : BitVec 512) : Bool :=
  n.toNat / 2 ^ 258 == 0 && n.toNat / 256 % 256 == 0 && (ndSuccs n).all (fun k => decide (k < nn)) && canonical (ndAddr n)
  && (if ndType n = 1 then (ndAddr n).toNat % 64 == 0 && ndVal n == 0
      else ndType n == 2 && (ndAddr n).toNat % 8 == 0 && ndAff n == 0 && decide (ndCmp n < 3) && ndSlot n 2 == 0xFFFF && ndSlot n 3 == 0xFFFF)

def nodeVa (g : Graph) (i : Nat) : Nat := g.nodes + 64 * i

/-- A list of reads, or the first stop. -/
def readMany (s : State) (c n : Nat) : List Nat → Except EStop (List (BitVec 512))
  | [] => .ok []
  | va :: t => do
    let x ← cpRead s c va n
    let r ← readMany s c n t
    pure (BitVec.ofNat 512 (leNat x.2) :: r)

def graphNodes (s : State) (g : Graph) : Except EStop (List (BitVec 512)) :=
  readMany s g.ctx 64 ((List.range g.nnodes).map (nodeVa g))

/-- No cycle: nodes without a predecessor among those left are taken away until none is left. -/
def acyclic (nodes : List (BitVec 512)) : Nat → List Nat → Bool
  | _, [] => true
  | 0, _ :: _ => false
  | k + 1, x :: l =>
    let left := x :: l
    let kept := left.filter (fun i => left.any (fun p => ((nodes[p]?).map ndSuccs).getD [] |>.contains i))
    if kept.length = left.length then false else acyclic nodes k kept

/-- Edges into a node. -/
def edgesInto (nodes : List (BitVec 512)) (i : Nat) : Nat := (nodes.map (fun n => ((ndSuccs n).filter (· == i)).length)).sum

/-- A node breaks the checks of R175 on one node. -/
def nodeBad (nodes : List (BitVec 512)) (i : Nat) : Bool :=
  match nodes[i]? with
  | some n => !nodeOk nodes.length n || ndPred n != edgesInto nodes i
  | none => true

/-- The first node that breaks a check of R175, or 0 if a cycle does. -/
def graphBad (nodes : List (BitVec 512)) : Option Nat :=
  let nn := nodes.length
  match (List.range nn).find? (nodeBad nodes) with
  | some i => some i
  | none => if acyclic nodes nn (List.range nn) then none else some 0

/-! ## Replays (R176, R177) -/

def setGraph (g : Nat) (f : Graph → Graph) (s : State) : State := { s with cp := { s.cp with graphs := updIf (·.g == g) f s.cp.graphs } }

def nodeSt (g : Graph) (i : Nat) : NodeSt := stGet .wait g.st i

def resolved (x : NodeSt) : Bool := decide (x = .done ∨ x = .skipped)

def setNode (g i : Nat) (x : NodeSt) (s : State) : State := setGraph g (fun y => { y with st := stSet .wait y.st i x }) s

def predsOf (nodes : List (BitVec 512)) (i : Nat) : List Nat :=
  (List.range nodes.length).filter (fun p => ((nodes[p]?).map ndSuccs).getD [] |>.contains i)

/-- A predecessor that ran lets a node run: a LAUNCH, or a COND that selected it. -/
def lets (g : Graph) (nodes : List (BitVec 512)) (i p : Nat) : Bool :=
  decide (nodeSt g p = .done)
  && (((nodes[p]?).map ndType).getD 0 == 1 || g.sel.any (fun x => x.1 == p && x.2 == i))

/-- A node with NPRED = 0 is ready at the start of the replay (R177). -/
def atStart (nodes : List (BitVec 512)) (i : Nat) : Bool := ((nodes[i]?).map ndPred).getD 0 == 0

/-- The lowest node that waits and is ready: NPRED is 0, or its predecessors are all resolved. -/
def nextNode (g : Graph) (nodes : List (BitVec 512)) : Option Nat :=
  (List.range nodes.length).find? (fun i => decide (nodeSt g i = .wait) && (atStart nodes i || (predsOf nodes i).all (fun p => resolved (nodeSt g p))))

/-- A failing node ends the replay: the nodes that have not run are skipped (R176). -/
def endReplay (g : Graph) (i : Nat) (s : State) : State :=
  let s := ctxError g.ctx 8 (BitVec.ofNat 64 (nodeVa g i)) s
  (List.range g.nnodes).foldl (fun s k => if nodeSt g k = .wait then setNode g.g k .skipped s else s) s

/-- A patched node fails the check it meets again as it runs: R175's on the node, and that the graph has no cycle (R176). -/
def patchBad (g : Graph) (nodes : List (BitVec 512)) (i : Nat) : Bool :=
  g.patched.contains i && (nodeBad nodes i || !acyclic nodes nodes.length (List.range nodes.length))

/-- One ready node starts; none where it has to wait. -/
def startNode (g : Graph) (nodes : List (BitVec 512)) (i : Nat) (n : BitVec 512) (s : State) : Option State :=
  if !atStart nodes i && !(predsOf nodes i).isEmpty && !(predsOf nodes i).any (lets g nodes i) then some (setNode g.g i .skipped s)
  else if !nodeOk g.nnodes n || patchBad g nodes i then some (endReplay g i s)
  else if ndType n = 1 then
    if s.clock.tbase < g.pct then none
    else match launchCheck s g.ctx (ndAddr n) with
    | .error (.violation m h) => some (freeze m g.ctx h s)
    | .error _ => none
    | .ok (.inl _) => some (endReplay g i (noteLost g.ctx (launchLost s g.ctx (ndAddr n)) s))
    | .ok (.inr h) => (launchSeed g.ctx (ndAddr n) h (ndAff n) g.pct { n := 0, ctx := g.ctx, count := 0, node := some (g.g, i) } s).map (setNode g.g i .run)
  else match cpRead s g.ctx (ndAddr n).toNat 8 with
    | .error (.violation m h) => some (freeze m g.ctx h s)
    | .error (.lost m) => some (linkLost g.ctx m s)
    | .error _ => none
    | .ok (h, bs) =>
      let (vt, s) := readTime h s
      let to_ := if relHolds (ndCmp n) (BitVec.ofNat 64 (leNat bs)) (BitVec.ofNat 64 (ndVal n)) then ndSlot n 0 else ndSlot n 1
      some (setNode g.g i .done (setGraph g.g (fun y => { y with sel := (i, to_) :: y.sel.filter (·.1 != i), pct := max y.pct vt }) s))

/-- No node runs and none is ready, but some wait: patches have closed a cycle, and the replay ends at the lowest patched node of those
(R176; DESIGN CHOICE, log entry 78). -/
def endStuck (g : Graph) (s : State) : State :=
  let left := (List.range g.nnodes).filter (fun i => decide (nodeSt g i = .wait))
  if left.isEmpty || (List.range g.nnodes).any (fun i => decide (nodeSt g i = .run)) then s
  else endReplay g ((left.find? g.patched.contains).getD (left.headD 0)) s

/-- Ready nodes start in ascending order. -/
def runNodes (g : Nat) : Nat → State → State
  | 0, s => s
  | k + 1, s =>
    match s.cp.graphs.find? (·.g == g) with
    | none => s
    | some x =>
      if !x.running || !cpRuns s then s
      else match graphNodes s x with
        | .error e => cpStop x.ctx e s
        | .ok nodes => match nextNode x nodes with
          | none => endStuck x s
          | some i => match nodes[i]? with
            | none => s
            | some n => match startNode x nodes i n s with
              | none => s
              | some s => runNodes g k s

/-- The patch table of a kick (R176): the nodes, home addresses and bytes of its stores; none where it is invalid. -/
def patchPlan (s : State) (g : Graph) (va : Nat) : Except EStop (Option (List (Nat × Nat × List Byte))) :=
  let dead := fun {α : Type} (x : Except EStop α) => match x with
    | .error (.violation _ _) => false
    | .error .held => false
    | .error _ => true
    | .ok _ => false
  if !canonNat va then .ok none
  else
    let hd := cpRead s g.ctx va 16
    if dead hd then .ok none
    else do
      let h ← hd
      let v := leNat h.2
      let cnt := v % 65536
      if v / 65536 ≠ 0 ∨ cnt > 4095 then pure none
      else
        let ents := readMany s g.ctx 16 ((List.range cnt).map (fun k => va + 16 + 16 * k))
        if dead ents then pure none
        else do
          let es ← ents
          let bad := es.any (fun e => decide (e.toNat % 65536 ≥ g.nnodes) || e.toNat / 65536 % 256 % 8 != 0
            || decide (e.toNat / 65536 % 256 < 8 ∨ e.toNat / 65536 % 256 > 56) || e.toNat / 2 ^ 24 % 2 ^ 40 != 0)
          if bad then pure none
          else
            let plan : Except EStop (List (Nat × Nat × List Byte)) := es.mapM (fun e => do
              let h ← engHome s masterCp g.ctx (nodeVa g (e.toNat % 65536) + e.toNat / 65536 % 256) .write 8
              pure (e.toNat % 65536, h, leBytes (e.toNat / 2 ^ 64 % 2 ^ 64) 8))
            if dead plan then pure none else do
              let p ← plan
              pure (some p)

/-- The module out of reach that a kick's patch table lies in. -/
def patchLost (s : State) (g : Graph) (va : Nat) : Option Nat :=
  if !canonNat va then none
  else match cpRead s g.ctx va 16 with
    | .ok (_, bs) => if leNat bs / 65536 = 0 ∧ leNat bs % 65536 ≤ 4095 then lostIn (readMany s g.ctx 16 ((List.range (leNat bs % 65536)).map (fun k => va + 16 + 16 * k))) else none
    | x => lostIn x

/-- A replay starts: the patches are written, and every node waits. -/
def startReplay (g : Graph) (v : DWord) (s : State) : State :=
  let va := v.toNat / 256 * 256
  let go := fun (ws : List (Nat × Nat × List Byte)) (s : State) =>
    let (t, s) := ws.foldl (fun (x : Nat × State) w => let (t, s) := cpStore g.ctx w.2.1 w.2.2 x.2; (max x.1 t, s)) (g.pct, s)
    setGraph g.g (fun y => { y with
      running := true, st := [], sel := [], heldKick := none, pct := t, sigAt := none, patched := (y.patched ++ ws.map (·.1)).eraseDups }) s
  if va = 0 then go [] s
  else match patchPlan s g va with
    | .error e => setGraph g.g (fun y => { y with heldKick := some v }) (cpStop g.ctx e s)
    | .ok none => setGraph g.g (fun y => { y with heldKick := none }) (ctxError g.ctx 8 (BitVec.ofNat 64 va) (noteLost g.ctx (patchLost s g va) s))
    | .ok (some ws) => go ws s

/-- A replay whose nodes are all resolved writes its signal, and ends once that is complete; a held kick then starts. -/
def endIfDone (g : Nat) (s : State) : State :=
  match s.cp.graphs.find? (·.g == g) with
  | none => s
  | some x =>
    if !x.running || !cpRuns s || !(List.range x.nnodes).all (fun i => resolved (nodeSt x i)) then s
    else match x.sigAt with
      | some t => if s.clock.tbase < t then s else setIrq (69 + x.ctx) (setGraph g (fun y => { y with running := false }) s)
      | none =>
        if s.clock.tbase < x.pct then s
        else if x.sigAddr = 0 then setGraph g (fun y => { y with running := false }) s
        else match engHome s masterCp x.ctx x.sigAddr.toNat .write 8 with
          | .error e => cpStop x.ctx e s
          | .ok h =>
            let (t, s) := cpStore x.ctx h (leBytes x.sigVal.toNat 8) s
            setGraph g (fun y => { y with sigAt := some t, pct := max y.pct t }) s

/-- A graph that does not run starts its held kick. -/
def startHeld (g : Nat) (s : State) : State :=
  match s.cp.graphs.find? (·.g == g) with
  | none => s
  | some x => match x.heldKick with
    | some v => if x.running || !cpRuns s then s else startReplay x v s
    | none => s

/-- What a graph can do now. -/
def driveGraph (g : Nat) (s : State) : State :=
  let nn := ((s.cp.graphs.find? (·.g == g)).map (·.nnodes)).getD 0
  endIfDone g (runNodes g (nn + 1) (startHeld g (endIfDone g s)))

def driveGraphs (s : State) : State := (s.cp.graphs.map (·.g)).foldl (fun s g => driveGraph g s) s

/-- Earlier writes of the host to device memory are not complete: a checkpoint or a frozen port holds one, or the time base has not reached
their completion time. A release of the host waits for them (R395). -/
def hostOpen (s : State) : Bool :=
  decide (s.clock.tbase < s.win.hostPct) || !s.ckpt.held.isEmpty || s.root.portHeld.any (fun r => match r with | .hostWrite _ _ _ => true | _ => false)

/-- A write to a doorbell or a kick register is a release: it acts once the host's earlier writes are complete, in order (R395). -/
def ring (b : Bell) (act : State → State) (s : State) : State :=
  if hostOpen s || !s.cp.bells.isEmpty then { s with cp := { s.cp with bells := s.cp.bells ++ [b] } } else act s

/-- A kick acts: a replay starts, or the kick is held, or refused. A value whose graph id is not the register's number counts for no
graph. -/
def kickAct (g : Nat) (v : DWord) (s : State) : State :=
  if s.win.state ≠ .ready ∨ v.toNat % 256 ≠ g then s
  else match s.cp.graphs.find? (·.g == g) with
    | none => s
    | some x =>
      if x.heldKick.isSome then ctxError x.ctx 9 (BitVec.ofNat 64 (v.toNat / 256 * 256)) s
      else driveGraph g (setGraph g (fun y => { y with heldKick := some v }) s)

def kickStep (g : Nat) (v : DWord) (s : State) : State := ring (.kick g v) (kickAct g v) s

/-! ## The completion of a tree (R163, R171) -/

/-- A plane still holds something of a tree: writes on their way, or a block whose last warp or stream has not ended. -/
def planeHasTree (p : Plane) (t : Nat) : Bool :=
  p.net.any (fun m => match m.body with
    | .write w => (match w.writer with | .threads who => who.any (·.tree == t) | .stream _ _ k => k == t | _ => false)
    | .atomic a => a.steps.any (·.tree == t)
    | _ => false)
  || p.storeQ.any (·.tree == t) || p.puts.any (·.tree == t) || p.blocks.any (fun b => b.tree == t && !(b.ended && b.stream.isNone))

/-- The dirty lines of a saved plane that a release at scope device covers go to their homes. -/
def releaseSlot (c : Nat) (s : State) : State :=
  let lines := (s.slots.filter (·.ctx == c)).flatMap (fun x => x.standby.plane.l1.filter (fun l => l.dirty != 0 && decide (l.scope < 6)))
  let s := lines.foldl (fun s l => let (s, t) := commitQuiet c (dirtyBytes l) l.depth (.die s.did) s; { s with epct := max s.epct t }) s
  let clean := fun (l : L1Line) => if decide (l.scope < 6) then { l with dirty := 0, scope := 0, depth := 0, who := [], bundle := 0 } else l
  { s with slots := s.slots.map (fun x => if x.ctx == c then
      { x with standby := { x.standby with plane := { x.standby.plane with l1 := x.standby.plane.l1.map clean } } } else x) }

/-- Lines narrower than device are on their way home. -/
def backsOpen (p : Plane) : Bool :=
  p.net.any (fun m => match m.body with
    | .write w => (match w.writer with | .evict => true | .forced _ => decide (w.tag < 6) | _ => false)
    | _ => false)

/-- One step towards the release of a completed tree of context `c`: the core's dirty lines narrower than device go home, those of a
plane that holds another context's work apart, and the answer says whether all have been acknowledged and their completion times have passed. -/
def treeReleased (c : Nat) (s : State) : Bool × State :=
  let wb := fun (s : State) => (writeBackAll (fun l => decide (l.scope < 6)) .evict s).2
  let s := wb s
  let s := if decide (s.standby.st = .empty) || s.standby.holds == some c then s.inOther wb else s
  let s := releaseSlot c s
  let busy := backsOpen s.pl || backsOpen s.standby.plane
  (!busy && decide (s.clock.tbase ≥ s.epct), s)

/-- A tree is gone: its number is free, attachments bound to it are charged to the detached tree (R268), and its graph node is
resolved. -/
def dropTree (tr : Tree) (s : State) : State :=
  let s := { s with
    sched := { s.sched with trees := s.sched.trees.filter (·.n != tr.n) }
    sl := { s.sl with atts := updIf (fun k => k.tree == some tr.n) (fun k => { k with tree := none }) s.sl.atts } }
  match tr.node with
  | some (g, i) => driveGraphs (setNode g i .done s)
  | none => driveGraphs s

def treeCompleteStep (t : Nat) (s : State) : State :=
  match s.sched.trees.find? (·.n == t) with
  | none => s
  | some tr =>
    if tr.detached || tr.count != 0 || decide (s.clock.tbase < tr.tct) || s.cp.stopped || isFrozen s masterCp
      || planeHasTree s.pl t || planeHasTree s.standby.plane t || s.slots.any (fun x => planeHasTree x.standby.plane t) then s
    else match tr.sigAt with
      | some w => if s.clock.tbase < w then s else dropTree tr (setIrq (69 + tr.ctx) s)
      | none =>
        let (ok, s) := treeReleased tr.ctx s
        if !ok then s
        else if tr.sigAddr = 0 then dropTree tr s
        else match engHome s masterCp tr.ctx tr.sigAddr.toNat .write 8 with
          | .error e => cpStop tr.ctx e s
          | .ok h =>
            let (w, s) := cpStore tr.ctx h (leBytes tr.sigVal.toNat 8) (treeUpd t (fun r => { r with isOpen := false }) s)
            treeUpd t (fun r => { r with sigAt := some w }) s

/-- TREE_COMPLETE (R163). -/
def execTreeComplete (t : Nat) (s : State) : Answer :=
  .next (treeCompleteStep t s)

/-- KICK (R176). -/
def execKick (g : Nat) (v : BitVec 64) (s : State) : Answer :=
  .next (hostFlit (kickStep g v) s)

end Sys2Proof.Machine
end

