-- ==== Sys2Proof/Machine/Packets.lean ====
section
/-! DEFINITION. The command processor's queues: packets, doorbells and `kwait` (R169 to R172, R395). -/

namespace Sys2Proof.Machine

open Sys2Proof

/-! ## Packets (Table 8-8) -/

def pkType (p : Nat) : Nat := p % 256
def pkCmp (p : Nat) : Nat := p / 256 % 4
def pkSkip (p : Nat) : Nat := p / 2 ^ 32 % 65536
def pkAddr (p : Nat) : DWord := BitVec.ofNat 64 (p / 2 ^ 64)
def pkVal (p : Nat) : DWord := BitVec.ofNat 64 (p / 2 ^ 128)
def pkCount (p : Nat) : Nat := p / 2 ^ 128 % 2 ^ 32
def pkSig (p : Nat) : DWord := BitVec.ofNat 64 (p / 2 ^ 192)
def pkSigVal (p : Nat) : DWord := BitVec.ofNat 64 (p / 2 ^ 256)

/-- The bits of a packet that its type lists. -/
def pkListed (ty : Nat) : Nat :=
  let f := fun (lo n : Nat) => (2 ^ n - 1) * 2 ^ lo
  f 0 8 + (match ty with
    | 1 => f 64 64 + f 128 32 + f 192 64 + f 256 64
    | 2 => f 8 2 + f 64 64 + f 128 64
    | 3 => f 8 1 + f 64 64 + f 128 64
    | 5 => f 8 2 + f 32 16 + f 64 64 + f 128 64
    | 6 => f 64 64 + f 128 32
    | _ => 0)

def aligned (v : DWord) (n : Nat) : Bool := canonical v && v.toNat % n == 0

/-- The faults of the packet itself (R172). -/
def pkCodes (p : Nat) : List Nat :=
  let ty := pkType p
  let fld := decide (p &&& pkListed ty ≠ p) || ((ty == 2 || ty == 5) && pkCmp p == 3) || (ty == 6 && decide (pkCount p > 4096))
  let al := match ty with
    | 1 => aligned (pkAddr p) 64 && (pkSig p == 0 || aligned (pkSig p) 8)
    | 2 => aligned (pkAddr p) 8
    | 3 => aligned (pkAddr p) 8
    | 5 => aligned (pkAddr p) 8
    | 6 => aligned (pkAddr p) 16
    | _ => true
  if ty = 0 ∨ ty > 6 then [1] else (if fld then [2] else []) ++ (if al then [] else [3])

/-- The entries of a PATCH table. -/
def patchTable (s : State) (c p : Nat) : Except EStop (List (BitVec 512)) :=
  readMany s c 16 ((List.range (pkCount p)).map (fun k => (pkAddr p).toNat + 16 * k))

/-- The faults that lie behind an address of the packet: a code, and what DETAIL names. DESIGN CHOICE (log entry 91): an address in a PATCH table
that is misaligned or not canonical counts as `BAD_ALIGN` with the table's address, and a page of the table that cannot be read comes before. -/
def pkBehind (s : State) (c p : Nat) : Except EStop (List (Nat × Nat)) :=
  match pkType p with
  | 1 => do
    if !aligned (pkAddr p) 64 then pure []
    else match ← launchCheck s c (pkAddr p) with
      | .inl k => pure [(k, (pkAddr p).toNat)]
      | .inr _ => pure []
  | 6 =>
    if !aligned (pkAddr p) 16 || decide (pkCount p > 4096) then .ok []
    else match patchTable s c p with
      | .error (.violation m h) => .error (.violation m h)
      | .error .held => .error .held
      | .error _ => .ok [(7, (pkAddr p).toNat)]
      | .ok es => .ok (if es.all (fun e => aligned (e.extractLsb' 0 64) 8) then [] else [(3, (pkAddr p).toNat)])
  | _ => .ok []

/-- The module out of reach that lies behind an address of the packet. -/
def pkLost (s : State) (c p : Nat) : Option Nat :=
  match pkType p with
  | 1 => if aligned (pkAddr p) 64 then launchLost s c (pkAddr p) else none
  | 6 => if aligned (pkAddr p) 16 && decide (pkCount p ≤ 4096) then lostIn (patchTable s c p) else none
  | _ => none

/-- The fault that a packet at `va` is reported with: the lowest code. -/
def pkFail (s : State) (c va p : Nat) : Except EStop (Option (Nat × Nat)) := do
  let more ← if pkCodes p = [1] then pure [] else pkBehind s c p
  pure (((pkCodes p).map (fun k => (k, va)) ++ more).foldl (fun (b : Option (Nat × Nat)) x => match b with
    | none => some x
    | some y => if x.1 < y.1 then some x else some y) none)

/-! ## Queues (R170, R172) -/

def setCpq (q : Nat) (f : CpQueue → CpQueue) (s : State) : State := { s with cp := { s.cp with queues := updIf (·.q == q) f s.cp.queues } }

def CpQueue.pa (x : CpQueue) (va : Nat) : Option Nat := (x.pins.find? (·.1 == va / 4096)).map (fun p => p.2 * 4096 + va % 4096)

/-- The address of the packet at the read index. -/
def CpQueue.va (x : CpQueue) : Nat := x.ring + x.ridx % 2 ^ x.log2n * 64

/-- The packet retires: the read index moves on and is published. -/
def retire (x : CpQueue) (n : Nat) (s : State) : State :=
  let r := (x.ridx + n) % 2 ^ 32
  let (t, s) := match x.pa x.rptr with
    | some pa => cpStore x.ctx pa (leBytes r 4) s
    | none => (0, s)
  setCpq x.q (fun y => { y with ridx := r, cur := none, did := false, pct := max y.pct t }) s

/-- Packets that a COND skips are passed over as they come. -/
def passOver (q : Nat) (s : State) : State :=
  match s.cp.queues.find? (·.q == q) with
  | none => s
  | some x =>
    let n := min x.skip ((x.widx + 2 ^ 32 - x.ridx) % 2 ^ 32)
    if n = 0 then s else retire x n (setCpq q (fun y => { y with skip := y.skip - n }) s)

/-- A malformed packet puts its queue into ERROR, with a record and, once that is written and released, its interrupt (R172, R395). -/
def queueError (x : CpQueue) (code detail : Nat) (s : State) : State :=
  let (t, s) := match x.pa x.errRec with
    | some pa => cpStore x.ctx pa (errBytes code x.q x.ridx s.clock.tbase (BitVec.ofNat 64 detail) 0) s
    | none => (0, s)
  notify t x.q none (setCpq x.q (fun y => { y with err := true, cur := none, pct := max y.pct t }) s)

/-- The device's own words of a queue may be reached. -/
def queueBarred (s : State) (x : CpQueue) : Option Nat :=
  ([x.pa x.va, x.pa x.rptr, x.pa x.errRec].filterMap id).find? (fun a => !granted s masterCp x.ctx a 4)

/-- The packet at the read index of a queue acts, if it is of type `ty`; a malformed one is reported. -/
def packetStep (ty q : Nat) (act : CpQueue → Nat → State → State) (s : State) : State :=
  let s := if cpRuns s then passOver q s else s
  match s.cp.queues.find? (·.q == q) with
  | none => s
  | some x =>
    if !cpRuns s || x.err || x.ridx == x.widx || decide (x.skip > 0) then s
    else match x.cur with
      | some p => if pkType p = ty then act x p s else s
      | none => match x.pa x.va, queueBarred s x with
        | none, _ => s
        | _, some a => freeze masterCp x.ctx a s
        | some pa, none =>
          if isPoisoned s pa 64 then queueError x 7 x.va s
          else
            let p := getLe s.mem pa 64
            match pkFail s x.ctx x.va p with
            | .error e => cpStop x.ctx e s
            | .ok (some (k, d)) => if pkType p = ty ∨ k = 1 then queueError x k d (noteLost x.ctx (pkLost s x.ctx p) s) else s
            | .ok none => if pkType p = ty then act x p (setCpq q (fun y => { y with cur := some p }) s) else s

/-! ## What packets do (Table 8-8) -/

def launchAct (x : CpQueue) (p : Nat) (s : State) : State :=
  if s.clock.tbase < x.pct then s
  else match launchCheck s x.ctx (pkAddr p) with
    | .error e => cpStop x.ctx e s
    | .ok (.inl k) => queueError x k (pkAddr p).toNat (noteLost x.ctx (launchLost s x.ctx (pkAddr p)) s)
    | .ok (.inr h) =>
      let tr : Tree := { n := 0, ctx := x.ctx, count := 0, sigAddr := pkSig p, sigVal := pkSigVal p, queue := some x.q }
      match launchSeed x.ctx (pkAddr p) h (BitVec.ofNat 32 (pkCount p)) x.pct tr s with
      | some s => retire x 1 s
      | none => s

/-- Reads the word at ADDR as an acquire, and goes on with its relation to VAL. -/
def withWord (x : CpQueue) (p : Nat) (k : Bool → State → State) (s : State) : State :=
  match cpRead s x.ctx (pkAddr p).toNat 8 with
  | .error e => cpStop x.ctx e s
  | .ok (h, bs) =>
    let (t, s) := readTime h s
    k (relHolds (pkCmp p) (BitVec.ofNat 64 (leNat bs)) (pkVal p)) (setCpq x.q (fun y => { y with pct := max y.pct t }) s)

def waitAct (x : CpQueue) (p : Nat) (s : State) : State := withWord x p (fun ok s => if ok then retire x 1 s else s) s

def condAct (x : CpQueue) (p : Nat) (s : State) : State :=
  withWord x p (fun ok s =>
    let s := retire x 1 s
    if ok then s else passOver x.q (setCpq x.q (fun y => { y with skip := pkSkip p }) s)) s

/-- A release at scope device over G and X by the command processor for a queue: its own accesses are complete (R219). -/
def queueReleased (s : State) (x : CpQueue) : Bool := decide (s.clock.tbase ≥ x.pct)

def signalAct (x : CpQueue) (p : Nat) (s : State) : State :=
  if !queueReleased s x then s
  else if x.did then retire x 1 (setIrq (69 + x.ctx) s)
  else match engHome s masterCp x.ctx (pkAddr p).toNat (if p / 256 % 2 = 1 then .atomic else .write) 8 with
    | .error e => cpStop x.ctx e s
    | .ok h =>
      let old := BitVec.ofNat 64 (leNat (homeBytes s h 8))
      if p / 256 % 2 = 1 && !isX h && isPoisoned s h 8 then s
      else
        let v := if p / 256 % 2 = 1 then old + pkVal p else pkVal p
        let (t, s) := cpStore x.ctx h (leBytes v.toNat 8) s
        setCpq x.q (fun y => { y with did := true, pct := max y.pct t }) s

/-- Every tree that the queue's launches made has completed, and its signal is written. DEDUCED (log entry 92): a pre-emption of the context does not
end the wait, whose queue is blocked again after it; an unmapping does. -/
def joinAct (x : CpQueue) (_ : Nat) (s : State) : State := if s.sched.trees.any (·.queue == some x.q) then s else retire x 1 s

def patchAct (x : CpQueue) (p : Nat) (s : State) : State :=
  if x.did then (if queueReleased s x then retire x 1 s else s)
  else match (do
      let es ← patchTable s x.ctx p
      es.mapM (fun e => do
        let h ← engHome s masterCp x.ctx (e.toNat % 2 ^ 64) .write 8
        pure (h, leBytes (e.toNat / 2 ^ 64 % 2 ^ 64) 8)) : Except EStop (List (Nat × List Byte))) with
    | .error e => cpStop x.ctx e s
    | .ok ws =>
      let (t, s) := ws.foldl (fun (a : Nat × State) w => let (t, s) := cpStore x.ctx w.1 w.2 a.2; (max a.1 t, s)) (x.pct, s)
      setCpq x.q (fun y => { y with did := true, pct := t }) s

/-- A doorbell of a mapped queue moves its write index (R394). -/
def doorbellAct (q : Nat) (v : DWord) (s : State) : State :=
  if s.win.state ≠ .ready then s
  else
    let s := setCpq q (fun y => { y with widx := v.toNat % 2 ^ 32 }) s
    if cpRuns s then passOver q s else s

def doorbellStep (q : Nat) (v : DWord) (s : State) : State := ring (.door q v) (doorbellAct q v) s

/-- The releases of the host that its earlier writes held act, in order (R395). -/
def settleBells (s : State) : State :=
  if hostOpen s then s
  else s.cp.bells.foldl (fun s b => match b with
    | .door q v => doorbellAct q v s
    | .kick g v => kickAct g v s) { s with cp := { s.cp with bells := [] } }

/-! ## `kwait` (R169) -/

/-- Register of a hart; x0 reads as zero. -/
def hartGet (h : Hart) (n : BitVec 5) : DWord := if n = 0 then 0 else stGet 0 h.x n.toNat

def hartSet (h : Hart) (n : Nat) (v : DWord) : Hart := if n = 0 then h else { h with x := stSet 0 h.x n v }

/-- A machine-mode exception of the RISC-V privileged specification: `mepc` takes the pc, `mcause` and `mtval` cause and value, MPIE
takes MIE, MIE is clear, and the pc goes to the base in `mtvec`. -/
def hartTrap (cause tval : Nat) (h : Hart) : Hart :=
  { h with
    mepc := BitVec.ofNat 64 h.pc, mcause := BitVec.ofNat 64 cause, mtval := BitVec.ofNat 64 tval, mpie := h.mie, mie := false
    wait := none, pc := h.mtvec.toNat / 4 * 4 }

/-- The acting hart takes an exception. -/
def hartRaise (cause tval : Nat) (s : State) : State := { s with hart := hartTrap cause tval s.hart }

/-- An access of a hart to `n` bytes of device memory: misaligned, outside it, and outside what the command processor is granted
(R358). `code` is the exception of a misaligned one: 4 a load, 6 a store or atomic. -/
def hartAccess (code addr n : Nat) (k : State → State) (s : State) : State :=
  if addr % n ≠ 0 then hartRaise code addr s
  else if addr ≥ Config.memBytes then hartRaise (code + 1) addr s
  else if isFrozen s masterCp then s
  else if reaches s masterCp addr n then k s
  else freeze masterCp 0 addr s

/-- A hart's read of bytes at their home; poison is a load access fault (5), since nothing poisoned is returned (R357). -/
def hartRead (code addr n : Nat) (k : DWord → State → State) (s : State) : State :=
  hartAccess code addr n (fun s =>
    if isPoisoned s addr n then hartRaise (code + 1) addr s
    else k (BitVec.ofNat 64 (getLe s.mem addr n)) { s with hart := { s.hart with pct := max s.hart.pct (lineRec s (lineOf addr)).vl } }) s

/-- The read of a waiting hart: it goes on where the relation holds, else it blocks. -/
def hartTry (cmp : Nat) (addr : Nat) (v : DWord) (d : Nat) (s : State) : State :=
  hartRead 4 addr 8 (fun w s =>
    let h := s.hart
    if relHolds cmp w v then { s with hart := { hartSet h d w with pc := (h.pc + 4) % 2 ^ 64, wait := none, minstret := h.minstret + 1 } }
    else { s with hart := { h with wait := some (cmp, addr, v.toNat, d) } }) s

/-- `kwait`: a misaligned address raises load-address-misaligned (4), one outside device memory load-access-fault (5). -/
def kwaitOp (cmp : Nat) (b a d : BitVec 5) (s : State) : State := hartTry cmp (hartGet s.hart a).toNat (hartGet s.hart b) d.toNat s

/-- Brings a hart to act; the one that acted goes back among the others. -/
def State.asHart (s : State) (n : Nat) (f : State → State) : State :=
  if s.hart.n = n then f s
  else match s.cp.harts.find? (·.n == n) with
    | none => s
    | some h =>
      let me := s.hart
      let s := f { s with hart := h }
      { s with hart := me, cp := { s.cp with harts := updIf (·.n == n) (fun _ => s.hart) s.cp.harts } }

def rereadStep (s : State) : State :=
  match s.hart.wait with
  | some (cmp, addr, v, d) => hartTry cmp addr (BitVec.ofNat 64 v) d s
  | none => s

/-- LAUNCH (R171). -/
def execLaunch (q : Nat) (s : State) : Answer :=
  .next (packetStep 1 q launchAct s)

/-- WAIT (R171). -/
def execWait (q : Nat) (s : State) : Answer :=
  .next (packetStep 2 q waitAct s)

/-- SIGNAL (R171). -/
def execSignal (q : Nat) (s : State) : Answer :=
  .next (packetStep 3 q signalAct s)

/-- JOIN (R171). -/
def execJoin (q : Nat) (s : State) : Answer :=
  .next (packetStep 4 q joinAct s)

/-- COND (R171). -/
def execCond (q : Nat) (s : State) : Answer :=
  .next (packetStep 5 q condAct s)

/-- PATCH (R171). -/
def execPatch (q : Nat) (s : State) : Answer :=
  .next (packetStep 6 q patchAct s)

/-- DOORBELL (R395). -/
def execDoorbell (q : Nat) (v : BitVec 64) (s : State) : Answer :=
  .next (hostFlit (doorbellStep q v) s)

/-- KWAIT_EQ (R169). -/
def execKwaitEq (b a d : BitVec 5) (s : State) : Answer :=
  .next (kwaitOp 0 b a d s)

/-- KWAIT_NE (R169). -/
def execKwaitNe (b a d : BitVec 5) (s : State) : Answer :=
  .next (kwaitOp 1 b a d s)

/-- KWAIT_GEU (R169). -/
def execKwaitGeu (b a d : BitVec 5) (s : State) : Answer :=
  .next (kwaitOp 2 b a d s)

/-- KWAIT_REREAD (R169). -/
def execKwaitReread (h : Nat) (s : State) : Answer :=
  .next (s.asHart h rereadStep)

end Sys2Proof.Machine
end

