-- ==== Sys2Proof/Machine/Context.lean ====
section
/-! DEFINITION. Mapping and unmapping of contexts and queues (R155, R156, R163, R170, R174, R377). -/

namespace Sys2Proof.Machine

open Sys2Proof

/-! ## Unmapping (R174) -/

/-- A plane that holds no work; its C banks stay. -/
def Plane.cleared (p : Plane) : Plane :=
  { p with
    ctx := none, threads := [], warps := [], blocks := [], colls := [], arena := [], tiles := [], sram := [], shake := none, shakeQ := []
    conts := [], storeQ := [], puts := []
    pmap := (p.pmap.filter (fun b => decide (b.2.role = .cache))).map (fun b => (b.1, { b.2 with busy := false })) }

/-- Everything of a context's work goes from the cluster. -/
def clusterClear (c : Nat) (s : State) : State :=
  let blocks := ((s.pl.blocks ++ s.standby.plane.blocks).filter (·.ctx == c)).map (·.handle)
  let frames := (s.cl.frameOwner.filter (fun f => blocks.contains f.2)).map (·.1)
  let s := s.stowSeq
  { s with cl := { s.cl with
      seqs := s.cl.seqs.filter (fun q => !blocks.contains q.block)
      table := s.cl.table.filter (fun e => !blocks.contains e.block)
      frameOwner := s.cl.frameOwner.filter (fun f => !blocks.contains f.2)
      frames := s.cl.frames.filter (fun x => !frames.contains (x.1 / 65536))
      vectors := s.cl.vectors.filter (fun x => !frames.contains (x.1 / 128))
      copyQ := s.cl.copyQ.filter (·.ctx != c)
      fetchQ := s.cl.fetchQ.filter (·.ctx != c) } }

/-- Every queue of work without a context's entries; its trees are gone, unsignalled. -/
def Sched.without (d : Sched) (c : Nat) : Sched :=
  let keep := fun (l : List QEntry) => l.filter (fun e => e.ctx != c)
  { d with
    segs := (d.segs.map (fun x => (x.1, keep x.2))).filter (fun x => !x.2.isEmpty)
    rings := d.rings.filter (·.ctx != c)
    dieQ := keep d.dieQ, clusterQ := keep d.clusterQ, coreQ := keep d.coreQ
    moving := (d.moving.map (fun m => { m with entries := keep m.entries })).filter (fun m => !m.entries.isEmpty)
    trees := d.trees.filter (·.ctx != c) }

def Slices.without (d : Slices) (c : Nat) : Slices :=
  { d with
    atts := d.atts.filter (·.ctx != c), trigs := d.trigs.filter (·.ctx != c), trigRings := d.trigRings.filter (·.ctx != c) }

/-- The saved state that a restore still has to put into the cluster goes. -/
def Standby.noEngine (b : Standby) : Standby :=
  { b with seqs := [], entries := [], ops := [], frames := [], vectors := [], nframes := 0, engineDue := false }

/-- The standby plane when a context is unmapped; `here` says that the active plane holds the context. -/
def Standby.without (b : Standby) (c : Nat) (here : Bool) : Standby :=
  let incoming := decide (b.st = .restoring ∨ b.st = .ready)
  let b := if (if incoming then b.holds == some c else here) then b.noEngine else b
  if b.holds == some c then { b with st := .empty, plane := freshPlane } else b

/-- A context is unmapped: tasks, records, trigger records and blocks are discarded, attachments end, its trees are freed without a
signal, its queues and graphs go, and nothing keeps a translation of it. -/
def unmapContext (c : Nat) (s : State) : State :=
  let s := s.stow
  let here := s.pl.ctx == some c
  let s := if here then (s.pl.threads.foldl (fun s t => leaveWaits t.slot t.lane s) s) else s
  let s := if s.cl.copyQ.any (fun x => decide (x.kind = .hostCopy) && x.ctx == c) then commandDone 3 s else s
  let s := clusterClear c s
  let s := dropTranslations c 0 (2 ^ 57) s
  { s with
    pl := if here then s.pl.cleared else s.pl
    bundle := if here then [] else s.bundle
    bundleAll := if here then [] else s.bundleAll
    standby := s.standby.without c here
    slots := s.slots.filter (·.ctx != c)
    sched := s.sched.without c
    sl := s.sl.without c
    xl := { s.xl with missed := s.xl.missed.filter (·.ctx != c), walks := s.xl.walks.filter (·.ctx != c), faults := s.xl.faults.filter (·.ctx != c) }
    icache := s.icache.filter (fun x => x.1 / 2 ^ 57 != c)
    cp := { s.cp with
      queues := s.cp.queues.filter (·.ctx != c), graphs := s.cp.graphs.filter (·.ctx != c), resuming := s.cp.resuming.filter (· != c) }
    ctxs := s.ctxs.filter (·.n != c) }

/-! ## Mapping (R155, R156, R170) -/

/-- Field `lo + n - 1 .. lo` of a descriptor. -/
def dfield (d lo n : Nat) : Nat := d / 2 ^ lo % 2 ^ n

/-- A number is a power of two in a range. -/
def pow2In (x lo hi : Nat) : Bool := decide (lo ≤ x ∧ x ≤ hi) && (List.range 64).any (fun k => x == 2 ^ k)

/-- A context descriptor's 128 bytes as a context (Table 8-1). -/
def ctxOf (c desc d : Nat) : Ctx :=
  { n := c, desc := desc, errAddr := dfield d 832 64, ptRoot := dfield d 768 64, saveArea := dfield d 704 64, fqSize := dfield d 640 32
    fqAddr := dfield d 576 64 % Config.memBytes, trBlk := dfield d 544 32, tRing := dfield d 480 64, wqBlk := dfield d 448 32
    wqRing := dfield d 384 64, tqlim := BitVec.ofNat 32 (dfield d 352 16), mcwin := BitVec.ofNat 32 (dfield d 320 32)
    lease := BitVec.ofNat 32 (dfield d 288 32), hvec := BitVec.ofNat 64 (dfield d 192 64), sys := d.testBit 128
    stkSize := dfield d 96 32, stkBase := dfield d 0 64 }

/-- A context descriptor meets Table 8-1 and the limits of R12, R263, R369 and R377. -/
def ctxDescOk (d : Nat) : Bool :=
  let x := ctxOf 0 0 d
  let va := fun (v n : Nat) => canonNat v && v % n == 0
  let pa := fun (v : Nat) => v % 4096 == 0 && decide (v < 2 ^ 39)
  d / 2 ^ 896 == 0 && dfield d 672 32 == 0 && dfield d 368 16 == 0 && dfield d 256 32 == 0 && dfield d 129 63 == 0 && dfield d 64 32 == 0
  && va x.errAddr 64 && pa x.ptRoot && pa x.saveArea && dfield d 576 64 % 64 == 0 && pow2In x.fqSize 16 65536
  && decide (x.trBlk ≤ 2 ^ 24) && (x.trBlk == 0 || va x.tRing 4096) && decide (1 ≤ x.wqBlk ∧ x.wqBlk ≤ 65536) && va x.wqRing 4096
  && decide (8 ≤ dfield d 352 16 ∧ dfield d 352 16 ≤ 256) && decide (32 ≤ dfield d 320 32 ∧ dfield d 320 32 ≤ 2048)
  && pow2In (dfield d 288 32) 64 16384 && pcOk x.hvec && x.stkSize % 16 == 0 && decide (64 ≤ x.stkSize ∧ x.stkSize ≤ 2 ^ 24)
  && va (dfield d 0 64) 16

/-- A queue descriptor meets Table 8-7. -/
def queueDescOk (d : Nat) : Bool :=
  let va := fun (v n : Nat) => canonNat v && v % n == 0
  d / 2 ^ 256 == 0 && dfield d 72 56 == 0 && decide (4 ≤ dfield d 64 8 ∧ dfield d 64 8 ≤ 16) && va (dfield d 0 64) 4096
  && va (dfield d 128 64) 4 && va (dfield d 192 64) 64

/-- The pages of `n` bytes from `va` on, with the physical pages that hold them; none where one is not mapped with R and W in this
module's memory (R156). -/
def devicePages (s : State) (c va n : Nat) : Option (List (Nat × Nat)) :=
  let first := va / 4096
  let count := if n = 0 then 0 else (va + n - 1) / 4096 - first + 1
  (List.range count).mapM (fun k =>
    match probe s c ((first + k) * 4096) .atomic with
    | some h => if isX h then none else some (first + k, h / 4096)
    | none => none)

/-- The pages whose translations a mapping takes: a fresh context's rings, and a queue's ring, read index and error record. -/
def mapPages (x : Ctx) (fresh : Bool) (qd : Nat) : List Nat :=
  let span := fun (va n : Nat) => (List.range (if n = 0 then 0 else (va + n - 1) / 4096 - va / 4096 + 1)).map (· + va / 4096)
  (if fresh then span x.errAddr 4096 ++ span x.wqRing (288 * x.wqBlk * 512) ++ span x.tRing (288 * x.trBlk * 256) else [])
  ++ span (dfield qd 0 64) (64 * 2 ^ min 16 (dfield qd 64 8)) ++ span (dfield qd 128 64) 4 ++ span (dfield qd 192 64) 64

/-- The pages of one ring after another. -/
def ringPages (s : State) (c : Nat) : List (Nat × Nat) → Option (List (Nat × Nat))
  | [] => some []
  | (va, n) :: t => do
    let p ← devicePages s c va n
    let r ← ringPages s c t
    pure (p ++ r)

/-- The context of a first MAP_QUEUE: its descriptor is checked, its rings' pages are taken, its detached tree is allocated, and its
fault queue's WIDX is written; none where it is refused. -/
def adoptContext (c desc : Nat) (s : State) : Option State := do
  let d := getLe s.mem desc 128
  if !ctxDescOk d || isPoisoned s desc 128 then none
  let x := ctxOf c desc d
  let s' := { s with ctxs := s.ctxs ++ [x] }
  let pins ← ringPages s' c [(x.errAddr, 4096), (x.wqRing, 288 * x.wqBlk * 512), (if x.trBlk = 0 then 0 else x.tRing, 288 * x.trBlk * 256)]
  let n ← freeTree s
  let x := { x with pins := pins, detTree := n }
  let s := { s with
    ctxs := s.ctxs ++ [x]
    sched := { s.sched with trees := s.sched.trees ++ [{ n := n, ctx := c, count := 0, detached := true }] } }
  pure (commitQuiet c (atAddr x.fqAddr (leBytes 0 4)) 0 .module s).1

/-- Queue `q` of context `c`, with the pages of its ring, read index and error record; none where the descriptor is refused. -/
def adoptQueue (q c d : Nat) (s : State) : Option State := do
  if !queueDescOk d then none
  let ring := dfield d 0 64
  let n := dfield d 64 8
  let pins ← ringPages s c [(ring, 64 * 2 ^ n), (dfield d 128 64, 4), (dfield d 192 64, 64)]
  pure { s with cp := { s.cp with queues := s.cp.queues ++
    [{ q := q, ctx := c, ring := ring, log2n := n, rptr := dfield d 128 64, errRec := dfield d 192 64, pins := pins }] } }

/-- Where a refused mapping's record goes: to ERRREC where that is aligned and canonical and its page translates under the context
descriptor's tables. -/
def refusedAt (c desc d : Nat) (s : State) : Option Nat :=
  let er := dfield d 192 64
  let s' := if s.ctxs.any (·.n == c) then s else { s with ctxs := s.ctxs ++ [ctxOf c desc (getLe s.mem desc 128)] }
  if !canonNat er || er % 64 ≠ 0 then none
  else match devicePages s' c er 64 with
    | some ((_, p) :: _) => some (p * 4096 + er % 4096)
    | _ => none

/-- A refused mapping's record. DESIGN CHOICE (log entry 74): DETAIL is the context descriptor's address whichever descriptor fails. -/
def refuseMapping (q c desc d : Nat) (s : State) : State :=
  match refusedAt c desc d s with
  | some pa => (commitQuiet c (atAddr pa (errBytes 10 q 0 s.clock.tbase (BitVec.ofNat 64 desc) 0)) 0 .module s).1
  | none => s

/-- MAP_QUEUE: the result of Table 21-3 and the state. DESIGN CHOICE (log entry 74): a later queue whose ARG0 is another address is
refused with 3 and its record. -/
def mapQueue (q c desc qdesc : Nat) (s : State) : Nat × State :=
  let d := getLe s.mem qdesc 64
  let s1 := match s.ctx? c with
    | some x => if x.desc = desc then some s else none
    | none => adoptContext c desc s
  match (if isPoisoned s qdesc 64 then none else s1.bind (adoptQueue q c d)) with
  | some s => (0, s)
  | none => (3, refuseMapping q c desc d s)

end Sys2Proof.Machine
end

