-- ==== Sys2Proof/Machine/Factor.lean ====
section
/-! DEFINITION. Factorisations and solves over matrices of codes, listed by rows (R308 to R313). All arithmetic is in one format
and rounds to nearest even (R307). -/

namespace Sys2Proof.Machine

open Sys2Proof

/-- Rows of codes. -/
abbrev Mat := List (List Nat)

def matAt (A : Mat) (i j : Nat) : Nat := (A.getD i []).getD j 0

/-- Every element by its row, column and value. -/
def matMap (f : Nat → Nat → Nat → Nat) (A : Mat) : Mat := A.mapIdx (fun i r => r.mapIdx (fun j x => f i j x))

/-- Rows `i` and `p` change places. -/
def swapRows (i p : Nat) (A : Mat) : Mat :=
  A.mapIdx (fun k r => if k = i then A.getD p [] else if k = p then A.getD i [] else r)

def colOf (A : Mat) (j : Nat) : List Nat := A.map (fun r => r.getD j 0)

def setCol (j : Nat) (x : List Nat) (A : Mat) : Mat := A.mapIdx (fun i r => r.set j (x.getD i 0))

/-- The magnitude of a code; finite magnitudes, infinity and NaN rank in this order. -/
def Fmt.mag (T : Fmt) (c : Nat) : Nat := c % 2 ^ T.signPos

def isFinite (T : Fmt) (c : Nat) : Bool :=
  match T.decode c with
  | .num _ _ _ _ => true
  | _ => false

/-- A magnitude as FP32 (R308). -/
def mag32 (T : Fmt) (c : Nat) : Nat := Fmt.f32.round {} (T.decode (T.mag c))

/-- The numbers from `lo` up to `hi`, `hi` left out. -/
def span (lo hi : Nat) : List Nat := (List.range (hi - lo)).map (· + lo)

/-- A factorisation in progress: the matrix, what it writes in the vector by entry (pivots or τ), Mu, and its stop (code, column). -/
structure Fact where
  mat : Mat
  vec : List (Nat × Nat) := []
  mu : Nat := 0
  stop : Option (Nat × Nat) := none

/-- The row of the largest magnitude of column `j` from row `j` on, the lowest on a tie. -/
def pivotRow (T : Fmt) (A : Mat) (j : Nat) : Nat :=
  (span (j + 1) A.length).foldl (fun p i => if T.mag (matAt A i j) > T.mag (matAt A p j) then i else p) j

/-- Column step `j` of `tlu` (R308). -/
def luStep (T : Fmt) (x : Fact) (j : Nat) : Fact :=
  if x.stop.isSome then x
  else if (span j x.mat.length).any (fun i => !isFinite T (matAt x.mat i j)) then { x with stop := some (2, j) }
  else
    let p := pivotRow T x.mat j
    if T.mag (matAt x.mat p j) = 0 then { x with stop := some (1, j) }
    else
      let A := swapRows j p x.mat
      let A := matMap (fun i k v => if i > j ∧ k = j then fdiv T {} v (matAt A j j) else v) A
      let A := matMap (fun i k v => if i > j ∧ k > j then ffnma T {} v (matAt A i j) (matAt A j k) else v) A
      let mu := (span (j + 1) A.length).foldl (fun m i => (span (j + 1) A.length).foldl (fun m k => max m (mag32 T (matAt A i k))) m) x.mu
      { mat := A, vec := x.vec ++ [(j, p)], mu := mu }

/-- Column step `j` of `tchol` (R309). -/
def cholStep (T : Fmt) (x : Fact) (j : Nat) : Fact :=
  if x.stop.isSome then x
  else
    let a := matAt x.mat j j
    if (T.decode a).isNan || fle T a 0 then { x with stop := some (3, j) }
    else
      let A := matMap (fun i k v => if i = j ∧ k = j then fsqrt T {} v else v) x.mat
      let A := matMap (fun i k v => if i > j ∧ k = j then fdiv T {} v (matAt A j j) else v) A
      { x with mat := matMap (fun i k v => if k > j ∧ i ≥ k then ffnma T {} v (matAt A i j) (matAt A k j) else v) A }

/-- Reflector `j`, with the vector `v` below row `j` and τ, applied to a column (R313). -/
def reflect (T : Fmt) (v : List Nat) (tau j : Nat) (x : List Nat) : List Nat :=
  if T.mag tau = 0 then x
  else
    let w := (span (j + 1) x.length).foldl (fun w i => ffma T {} w (v.getD i 0) (x.getD i 0)) (x.getD j 0)
    let t := fmul T {} tau w
    x.mapIdx (fun i e => if i = j then fsub T {} e t else if i > j then ffnma T {} e t (v.getD i 0) else e)

/-- Column step `j` of `tqr` (R310). -/
def qrStep (T : Fmt) (x : Fact) (j : Nat) : Fact :=
  let A := x.mat
  let rows := span (j + 1) A.length
  if rows.all (fun i => T.mag (matAt A i j) == 0) then { x with vec := x.vec ++ [(j, 0)] }
  else
    let a := matAt A j j
    let s2 := (span j A.length).foldl (fun s i => ffma T {} s (matAt A i j) (matAt A i j)) 0
    let r := fsqrt T {} s2
    let beta := if a.testBit T.signPos then r else T.round {} (T.decode r).flip
    let u := fsub T {} a beta
    let tau := fdiv T {} (fsub T {} beta a) beta
    let A := matMap (fun i k v => if k = j then (if i > j then fdiv T {} v u else if i = j then beta else v) else v) A
    let v := colOf A j
    let A := (span (j + 1) ((A.headD []).length)).foldl (fun A k => setCol k (reflect T v tau j (colOf A k)) A) A
    { x with mat := A, vec := x.vec ++ [(j, tau)] }

/-- The solution of a lower system for one column, by row (R311); a NaN of it is canonical (R34). -/
def solveDown (T : Fmt) (unit : Bool) (L : Mat) (b : List Nat) : List Nat :=
  (List.range b.length).foldl (fun xs i =>
    let t := (List.range i).foldl (fun t k => ffnma T {} t (matAt L i k) (xs.getD k 0)) (b.getD i 0)
    xs ++ [if unit then T.canon t else fdiv T {} t (matAt L i i)]) []

/-- The solution of an upper system for one column (R311). -/
def solveUp (T : Fmt) (U : Mat) (b : List Nat) : List Nat :=
  (List.range b.length).reverse.foldl (fun xs i =>
    let t := (span (i + 1) b.length).foldl (fun t k => ffnma T {} t (matAt U i k) (xs.getD (k - i - 1) 0)) (b.getD i 0)
    fdiv T {} t (matAt U i i) :: xs) []

/-- The swaps of rows `j` and `piv[j]` in an order (R312). -/
def permute (js : List Nat) (piv : Nat → Nat) (D : Mat) : Mat := js.foldl (fun D j => swapRows j (piv j) D) D

/-- Reflectors in an order, applied to one column (R313). -/
def applyQ (T : Fmt) (A : Mat) (tau : Nat → Nat) (js : List Nat) (x : List Nat) : List Nat :=
  js.foldl (fun x j => reflect T (colOf A j) (tau j) j x) x

end Sys2Proof.Machine
end

