-- ==== Sys2Proof/Machine/Window15.lean ====
section
/-! DEFINITION. Operands of tile instructions: operand words and windows (R295, R296), layout records (R285), the elements of
tiles, frames and memory, and the checks an entry meets (R297, R298). -/

namespace Sys2Proof.Machine

open Sys2Proof

/-! ## Operand words (R295) -/

/-- A window of a tile (kind 1), a frame (2) or memory through a slot (3). -/
structure Win where
  kind : Nat
  idx : Nat
  rows : Nat
  cols : Nat
  row0 : Nat
  col0 : Nat
  deriving DecidableEq, Repr

def winOf (v : DWord) : Win :=
  let n := v.toNat
  { kind := n / 2 ^ 61, idx := n / 2 ^ 56 % 32, rows := n / 2 ^ 44 % 2 ^ 12, cols := n / 2 ^ 28 % 2 ^ 16, row0 := n / 2 ^ 14 % 2 ^ 14, col0 := n % 2 ^ 14 }

def REntry.d (e : REntry) : Win := winOf e.dv
def REntry.a (e : REntry) : Win := winOf e.av
def REntry.b (e : REntry) : Win := winOf e.bv

/-- The MOD bits of the payload (R298). -/
def REntry.mod (e : REntry) : Nat := e.payload.toNat % 4096
def REntry.resumed (e : REntry) : Bool := e.payload.getLsbD 11
def REntry.rel (e : REntry) : Bool := e.payload.getLsbD 23

/-- Fields of the captured format word (Table 2-9). -/
def REntry.aElem (e : REntry) : Nat := e.fmt.toNat % 16
def REntry.aMode (e : REntry) : Nat := e.fmt.toNat / 16 % 16
def REntry.bElem (e : REntry) : Nat := e.fmt.toNat / 2 ^ 8 % 16
def REntry.bMode (e : REntry) : Nat := e.fmt.toNat / 2 ^ 12 % 16
def REntry.acc (e : REntry) : Nat := e.fmt.toNat / 2 ^ 16 % 16
def REntry.rnd (e : REntry) : Nat := e.fmt.toNat / 2 ^ 20 % 8
def REntry.sat (e : REntry) : Bool := e.fmt.getLsbD 23

/-- The element codes and modes of MOD. -/
def REntry.modElem (e : REntry) : Nat := e.mod % 16
def REntry.modMode (e : REntry) : Nat := e.mod / 16 % 4

/-! ## Layout records (Table 14-3) -/

structure Layout where
  base : Int
  scBase : Int
  elem : Nat
  mode : Nat
  e0 : Nat
  e1 : Nat
  e2 : Nat
  e3 : Nat
  s1 : Nat
  s2 : Nat
  s3 : Nat
  rsvOk : Bool
  deriving DecidableEq, Repr

def layoutOf (r : BitVec 256) : Layout :=
  let n := r.toNat
  { base := (r.extractLsb' 0 57).toInt, scBase := (r.extractLsb' 64 57).toInt
    elem := n / 2 ^ 124 % 16, mode := n / 2 ^ 121 % 4
    e0 := n / 2 ^ 128 % 2 ^ 16, e1 := n / 2 ^ 144 % 2 ^ 16, e2 := n / 2 ^ 160 % 2 ^ 16, e3 := n / 2 ^ 176 % 2 ^ 16
    s1 := n / 2 ^ 192 % 2 ^ 21, s2 := n / 2 ^ 213 % 2 ^ 21, s3 := n / 2 ^ 234 % 2 ^ 21
    rsvOk := n / 2 ^ 255 == 0 && n / 2 ^ 123 % 2 == 0 && n / 2 ^ 57 % 2 ^ 7 == 0 }

/-- A range of addresses stays in its half of the canonical form. -/
def rangeFits (lo hi : Int) : Bool := if lo ≥ 0 then decide (hi < 2 ^ 56) else decide (hi < 0)

/-- The address of row (i1, i2, i3). -/
def Layout.rowAddr (l : Layout) (i1 i2 i3 : Nat) : Int := l.base + 16 * ((i1 * l.s1 + i2 * l.s2 + i3 * l.s3 : Nat) : Int)

/-- Whether a record is valid (R285). -/
def Layout.ok (l : Layout) : Bool :=
  let w := elemWidth l.elem
  l.rsvOk && l.elem != 15 && modeOk l.mode l.elem && ((l.mode == 0) == decide (l.scBase = 0))
  && l.e0 != 0 && l.e1 != 0 && l.e2 != 0 && l.e3 != 0 && (w != 4 || l.e0 % 2 == 0) && decide (l.base % 16 = 0)
  && rangeFits l.base (l.rowAddr (l.e1 - 1) (l.e2 - 1) (l.e3 - 1) + ((l.e0 * w + 7) / 8 : Nat) - 1)
  && (l.mode == 0 || rangeFits l.scBase (l.scBase + (l.e1 * l.e2 * l.e3 * ((l.e0 + blockSize l.mode - 1) / blockSize l.mode) : Nat) - 1))

/-- Row `q` of a memory window's object: i1, i2, i3 (Table 15-2). -/
def Layout.row (l : Layout) (q : Nat) : Nat × Nat × Nat := (q % l.e1, q / l.e1 % l.e2, q / (l.e1 * l.e2))

/-- The slot of an entry's context. -/
def slotLayout (s : State) (e : REntry) (n : Nat) : Layout :=
  layoutOf (match s.allSeqs.find? (·.n == e.ctx) with
    | some q => stGet 0 q.layouts n
    | none => 0)

/-! ## Elements -/

/-- A byte place of an object: of a tile by its number, of a frame, or of memory by virtual address. -/
inductive Place where
  | tile (key off : Nat)
  | frame (k : Nat)
  | mem (va : Nat)
  deriving DecidableEq, Repr

/-- The cluster's frame of a local index (R287). -/
def frameNo (s : State) (e : REntry) (i : Nat) : Nat := ((s.block? e.block).map (fun b => b.frames.getD i 0)).getD 0

/-- The tile bound at operand position `pos`. -/
def boundTile (e : REntry) (pos : Nat) : Nat := ((e.banks.find? (·.1 == pos)).map (·.2)).getD 0

/-- The place and bit of element (i, j) of the window at position `pos`, in elements of `w` bits. -/
def elemPlace (s : State) (e : REntry) (pos : Nat) (x : Win) (w i j : Nat) : Place × Nat :=
  let r := x.row0 + i
  let bits := (x.col0 + j) * w
  match x.kind with
  | 1 => (.tile (boundTile e pos) (128 * r + bits / 8), bits % 8)
  | 2 => (.frame (frameNo s e x.idx * 65536 + 512 * r + bits / 8), bits % 8)
  | _ =>
    let l := slotLayout s e x.idx
    let k := l.row r
    (.mem (((l.rowAddr k.1 k.2.1 k.2.2 + (bits / 8 : Nat)) % 2 ^ 64).toNat), bits % 8)

/-- The place of the scale of element (i, j) under a block size (R285). -/
def scalePlace (s : State) (e : REntry) (pos : Nat) (x : Win) (bs i j : Nat) : Place :=
  let r := x.row0 + i
  let c := x.col0 + j
  match x.kind with
  | 1 => .tile (boundTile e pos) (14336 + 16 * r + c / bs)
  | 2 => .frame 0
  | _ =>
    let l := slotLayout s e x.idx
    let k := l.row r
    .mem (((l.scBase + (((k.2.2 * l.e2 + k.2.1) * l.e1 + k.1) * ((l.e0 + bs - 1) / bs) + c / bs : Nat)) % 2 ^ 64).toNat)

/-- `n` bytes at a place. -/
def placeRead (s : State) (rd : Reader) (n : Nat) : Place → EngM Nat
  | .tile key off => pure (leNat (sramBytes s.pl.sram key off n))
  | .frame k => pure (getLe s.cl.frames k n)
  | .mem va => rdNat rd va n

/-- The bits of element (i, j). -/
def readElem (s : State) (rd : Reader) (e : REntry) (pos : Nat) (x : Win) (w i j : Nat) : EngM Nat := do
  let p := elemPlace s e pos x w i j
  let v ← placeRead s rd (max 1 (w / 8)) p.1
  pure (if w = 4 then v / 2 ^ p.2 % 16 else v)

/-- The scale code of element (i, j); 0 where there is no block mode. -/
def readScale (s : State) (rd : Reader) (e : REntry) (pos : Nat) (x : Win) (mode i j : Nat) : EngM Nat :=
  if mode = 0 then pure 0 else placeRead s rd 1 (scalePlace s e pos x (blockSize mode) i j)

/-- The exact value of element (i, j) in a format (R47). -/
def readVal (s : State) (rd : Reader) (e : REntry) (pos : Nat) (x : Win) (elem mode i j : Nat) : EngM FX := do
  let c ← readElem s rd e pos x (elemWidth elem) i j
  let sc ← readScale s rd e pos x mode i j
  pure (scaledElem mode sc elem c)

/-- The values of row `i`, `n` elements from `j` on. -/
def readRow (s : State) (rd : Reader) (e : REntry) (pos : Nat) (x : Win) (elem mode i : Nat) : Nat → Nat → EngM (List FX)
  | 0, _ => pure []
  | n + 1, j => do
    let v ← readVal s rd e pos x elem mode i j
    let t ← readRow s rd e pos x elem mode i n (j + 1)
    pure (v :: t)

/-- A byte that a pass writes, under a mask. -/
structure EWrite where
  place : Place
  mask : Byte
  val : Byte
  deriving DecidableEq, Repr

def Place.plus (p : Place) (k : Nat) : Place :=
  match p with
  | .tile key off => .tile key (off + k)
  | .frame n => .frame (n + k)
  | .mem va => .mem (va + k)

/-- `n` bytes written at a place. -/
def writeAt (p : Place) (n v : Nat) : List EWrite := (leBytes v n).mapIdx (fun k b => ⟨p.plus k, 0xFF, b⟩)

/-- The writes of element (i, j) (R32). -/
def writeElem (s : State) (e : REntry) (pos : Nat) (x : Win) (w i j c : Nat) : List EWrite :=
  let p := elemPlace s e pos x w i j
  if w = 4 then [⟨p.1, if p.2 = 0 then 0x0F else 0xF0, BitVec.ofNat 8 (c % 16 * 2 ^ p.2)⟩] else writeAt p.1 (w / 8) c

/-! ## Checks (R297) -/

/-- Status codes of Table 14-4. -/
def stFmt : Nat := 6
def stLayout : Nat := 7
def stShape : Nat := 8

/-- The kinds that each operand position of a member admits: position, operand, kinds (R299, R306, R307, R316). -/
def operandKinds (e : REntry) : List (Nat × Win × List Nat) :=
  match e.maj, e.f with
  | 0x30, 0 => [(0, e.d, [1, 2]), (1, e.a, [3])]
  | 0x30, 1 => [(0, e.d, [3]), (1, e.a, [1, 2])]
  | 0x30, 2 => [(1, e.a, [1])]
  | 0x30, 3 => [(0, e.d, [1, 2])]
  | 0x30, 4 => [(0, e.d, [1, 2]), (1, e.a, [1, 2])]
  | 0x30, 5 => [(0, e.d, [1])]
  | 0x30, 6 => [(0, e.d, [1, 2]), (1, e.a, [1, 2])]
  | 0x30, _ => []
  | 0x31, _ => [(0, e.d, [2]), (1, e.a, [1, 3]), (2, e.b, [1, 3])]
  | 0x32, f => (0, e.d, [2]) :: (if f ≥ 3 then [(1, e.a, [2])] else [])
  | _, _ => [(0, e.d, [2]), (2, e.b, [1, 3])]

/-- Step 1: kinds and indices. -/
def kindsOk (s : State) (e : REntry) : Bool :=
  let b := s.block? e.block
  (operandKinds e).all (fun x =>
    x.2.2.contains x.2.1.kind && decide (x.2.1.idx < (match x.2.1.kind with
      | 1 => (tilesOf s e.block).length
      | 2 => (b.map (·.frames.length)).getD 0
      | _ => 8)))

/-- RSV and RND of the format word. -/
def fmtBase (e : REntry) : Bool := e.fmt.toNat / 2 ^ 24 == 0 && decide (e.rnd ≤ 5)

/-- Step 2: the format word as the member checks it. -/
def fmtOk (e : REntry) : Bool :=
  match e.maj, e.f with
  | 0x30, 0 => e.d.kind != 2 || (fmtBase e && decide (e.acc ≤ 1))
  | 0x30, 1 => e.a.kind != 2 || (fmtBase e && decide (e.acc ≤ 1))
  | 0x30, 3 => e.modElem != 15 && (e.d.kind != 2 || decide (e.modElem ≤ 1))
  | 0x30, 4 => e.modElem != 15 && ((e.d.kind != 2 && e.a.kind != 2) || decide (e.modElem ≤ 1))
  | 0x30, 6 => fmtBase e && e.aElem != 15 && modeOk e.aMode e.aElem && e.modElem != 15 && modeOk e.modMode e.modElem
      && (e.a.kind != 2 || decide (e.acc ≤ 1)) && (e.d.kind != 2 || (decide (e.modElem ≤ 1) && e.modMode == 0))
  | 0x30, _ => true
  | 0x31, _ => fmtValid e.fmt.toNat
  | 0x32, _ => fmtBase e && decide (e.acc ≤ 1)
  | _, _ => fmtBase e && (e.aElem == 2 || e.aElem == 3) && [0, 2, 3, 4, 5].contains e.bElem && e.aMode == 0 && e.bMode == 0 && e.acc == 0

/-- The slots an entry uses. -/
def slotsUsed (e : REntry) : List Nat := ((operandKinds e).filter (fun x => x.2.1.kind == 3)).map (·.2.1.idx)

/-- Step 3: the lowest slot with an invalid record. -/
def badSlot (s : State) (e : REntry) : Option Nat :=
  (List.range 8).find? (fun n => (slotsUsed e).contains n && !(slotLayout s e n).ok)

/-- A memory operand's slot gives the format it must supply (R300, R306, R316). -/
def slotFmtOk (s : State) (e : REntry) : Bool :=
  let is := fun (x : Win) (elem mode : Nat) => x.kind != 3 || ((slotLayout s e x.idx).elem == elem && (slotLayout s e x.idx).mode == mode)
  match e.maj, e.f with
  | 0x30, 0 => e.d.kind != 2 || is e.a e.acc 0
  | 0x30, _ => true
  | 0x31, _ => is e.a e.aElem e.aMode && is e.b e.bElem e.bMode
  | 0x32, _ => true
  | _, _ => is e.b e.bElem 0

/-- A window meets Table 15-2 in a format. -/
def winFits (s : State) (e : REntry) (x : Win) (elem mode : Nat) : Bool :=
  let w := elemWidth elem
  x.rows != 0 && x.cols != 0 && (match x.kind with
    | 1 => decide (x.row0 + x.rows ≤ (if mode = 0 then 128 else 112)) && decide ((x.col0 + x.cols) * w ≤ 1024)
        && (w != 4 || (x.col0 % 2 == 0 && x.cols % 2 == 0)) && (mode == 0 || x.col0 % blockSize mode == 0)
    | 2 => let m := if elem = 1 then 64 else 128; decide (x.row0 + x.rows ≤ m) && decide (x.col0 + x.cols ≤ m)
    | _ =>
      let l := slotLayout s e x.idx
      decide (x.col0 + x.cols ≤ l.e0) && decide (x.row0 + x.rows ≤ l.e1 * l.e2 * l.e3) && (l.mode == 0 || x.col0 % blockSize l.mode == 0))

/-- The source and destination formats of a data member (R300 to R304): element code and block mode of d and of a. -/
def dataFmts (s : State) (e : REntry) : (Nat × Nat) × (Nat × Nat) :=
  let lay := fun (x : Win) => let l := slotLayout s e x.idx; (l.elem, l.mode)
  match e.f with
  | 0 => (if e.d.kind = 2 then (e.acc, 0) else lay e.a, lay e.a)
  | 1 => (lay e.d, if e.a.kind = 2 then (e.acc, 0) else lay e.d)
  | 6 => ((e.modElem, e.modMode), if e.a.kind = 2 then (e.acc, 0) else (e.aElem, e.aMode))
  | _ => ((e.modElem, 0), (e.modElem, 0))

/-- Two windows of one tile or frame share bytes; widths in bits. -/
def winsOverlap (x y : Win) (wx wy : Nat) : Bool :=
  x.kind == y.kind && x.idx == y.idx && decide (x.row0 < y.row0 + y.rows) && decide (y.row0 < x.row0 + x.rows)
  && decide (x.col0 * wx < (y.col0 + y.cols) * wy) && decide (y.col0 * wy < (x.col0 + x.cols) * wx)

def sameShape (x y : Win) : Bool := x.rows == y.rows && x.cols == y.cols

/-- Step 4: windows and shapes. -/
def shapeOk (s : State) (e : REntry) : Bool :=
  let d := e.d
  let a := e.a
  let b := e.b
  match e.maj, e.f with
  | 0x30, 2 => true
  | 0x30, 3 => winFits s e d e.modElem 0 && !(e.mod.testBit 4 && d.kind == 1)
  | 0x30, 5 => true
  | 0x30, 7 => true
  | 0x30, f =>
    let fs := dataFmts s e
    let wd := elemWidth fs.1.1
    let wa := elemWidth fs.2.1
    let l := slotLayout s e d.idx
    winFits s e d fs.1.1 fs.1.2 && winFits s e a fs.2.1 fs.2.2 && sameShape d a
    && (f != 1 || a.kind != 2 || l.mode == 0 || d.cols % blockSize l.mode == 0 || d.col0 + d.cols == l.e0)
    && (f != 4 || !((d.kind == 1 && a.kind == 1 && d.idx == a.idx) || winsOverlap d a wd wa))
    && (f != 6 || !winsOverlap d a wd wa)
  | 0x31, _ => winFits s e d e.acc 0 && winFits s e a e.aElem e.aMode && winFits s e b e.bElem e.bMode
    && a.rows == d.rows && b.rows == d.cols && a.cols == b.cols
  | 0x32, f =>
    winFits s e d e.acc 0 && (decide (f < 3) || (winFits s e a e.acc 0 && !winsOverlap d a 8 8))
    && (match f with
      | 0 => d.rows == d.cols
      | 1 => d.rows == d.cols
      | 2 => decide (d.rows ≥ d.cols)
      | 3 => a.rows == a.cols && d.rows == a.rows
      | 4 => a.rows == a.cols && d.rows == a.rows
      | 5 => a.rows == a.cols && d.rows == a.rows
      | 6 => d.rows == a.rows
      | _ => d.rows == a.rows && decide (a.cols ≤ a.rows))
  | _, f => winFits s e d 0 0 && winFits s e b e.bElem 0 && d.cols == b.rows && decide (b.cols ≤ 65533) && (f != 0 || b.rows == 1)

/-- Steps 3 and 4: the code and detail of the first failure. -/
def entryFail (s : State) (e : REntry) : Option (Nat × Nat) :=
  match badSlot s e with
  | some n => some (stLayout, n)
  | none => if !slotFmtOk s e then some (stFmt, 0) else if !shapeOk s e then some (stShape, 0) else none

end Sys2Proof.Machine
end

