-- ==== Sys2Proof/Machine/Compute.lean ====
section
/-! DEFINITION. What one pass of a reservation entry reads, computes and writes (R299 to R316), and how many cycles it takes
(R283, R317). -/

namespace Sys2Proof.Machine

open Sys2Proof

/-- What a pass does at its end: bytes, vector entries by place in the cluster, a layout slot, bytes that follow once the others
are acknowledged (R302), a status code with detail, whether the operation ends here with its done bit unset, and a result. -/
structure PassOut where
  writes : List EWrite := []
  vecs : List (Nat × DWord) := []
  slot : Option (Nat × BitVec 256) := none
  later : List EWrite := []
  code : Nat := 0
  detail : Nat := 0
  stop : Bool := false
  result : Option DWord := none

/-! ## Micro-tiles -/

def ceilDiv (a b : Nat) : Nat := (a + b - 1) / b

/-- How many micro-tiles an operation has. -/
def microTiles (e : REntry) : Nat :=
  match e.maj, e.f with
  | 0x30, _ => 1
  | 0x31, _ => ceilDiv e.d.rows 32 * ceilDiv e.d.cols 32
  | 0x32, 6 => 1
  | 0x32, f => if f < 3 then ceilDiv e.d.cols 4 else ceilDiv e.d.cols 32
  | _, _ => ceilDiv e.d.rows 32

/-- The lowest micro-tile whose done bit is 0. -/
def nextTile (e : REntry) : Option Nat := (List.range (microTiles e)).find? (fun u => !e.done.getLsbD u)

/-! ## Copies and conversions: major 0x30 -/

/-- The offsets in a window of a row's blocks. -/
def blockStarts (x : Win) (bs : Nat) : List Nat := (List.range (ceilDiv x.cols bs)).map (· * bs)

/-- Elements and scales copied unchanged. -/
def copyWindow (s : State) (rd : Reader) (e : REntry) (dpos spos : Nat) (d x : Win) (elem mode : Nat) : EngM (List EWrite) := do
  let w := elemWidth elem
  let rows ← (List.range x.rows).mapM (fun i => do
    let es ← (List.range x.cols).mapM (fun j => do
      let c ← readElem s rd e spos x w i j
      pure (writeElem s e dpos d w i j c))
    let ss ← (if mode = 0 then [] else blockStarts x (blockSize mode)).mapM (fun j => do
      let c ← readScale s rd e spos x mode i j
      pure (writeAt (scalePlace s e dpos d (blockSize mode) i j) 1 c))
    pure (es.flatten ++ ss.flatten))
  pure rows.flatten

/-- One row of values in a destination format without block mode. -/
def putRow (s : State) (e : REntry) (dpos : Nat) (d : Win) (elem i : Nat) (rm : Nat → RM) (vs : List FX) : List EWrite :=
  (vs.mapIdx (fun j v => writeElem s e dpos d (elemWidth elem) i j (elemEncode elem (rm j) v))).flatten

/-- One block of a row in block-scaled form (R49), from offset `j` on. -/
def putBlock (s : State) (e : REntry) (dpos : Nat) (d : Win) (elem mode i j : Nat) (rm : Nat → RM) (vs : List FX) : List EWrite :=
  let r := blockEncode elem mode (rm j) (fun k => (rm (j + k)).dith) vs
  writeAt (scalePlace s e dpos d (blockSize mode) i j) 1 r.1
  ++ (r.2.mapIdx (fun k c => writeElem s e dpos d (elemWidth elem) i (j + k) c)).flatten

/-- The window converted (R301, R304): decoded exactly, and delivered in the destination's format. -/
def convertWindow (s : State) (rd : Reader) (e : REntry) (d x : Win) (src dst : Nat × Nat) (pos : Nat → Nat → Nat × Nat) : EngM (List EWrite) := do
  let rows ← (List.range x.rows).mapM (fun i => do
    let vs ← readRow s rd e 1 x src.1 src.2 i x.cols 0
    let rm := fun (j : Nat) => ({ mode := e.rnd, sat := e.sat, dith := ditherAt (pos i j).1 (pos i j).2 e.phase } : RM)
    pure (if dst.2 = 0 then putRow s e 0 d dst.1 i rm vs
      else (blockStarts d (blockSize dst.2)).flatMap (fun j => putBlock s e 0 d dst.1 dst.2 i j rm ((vs.drop j).take (blockSize dst.2)))))
  pure rows.flatten

/-- `tld` (R300). -/
def loadPass (s : State) (rd : Reader) (e : REntry) : EngM PassOut := do
  let fs := dataFmts s e
  let ws ← copyWindow s rd e 0 1 e.d e.a fs.2.1 fs.2.2
  pure { writes := ws }

/-- `tst` (R301). -/
def storePass (s : State) (rd : Reader) (e : REntry) : EngM PassOut := do
  let fs := dataFmts s e
  if e.a.kind = 1 then
    let ws ← copyWindow s rd e 0 1 e.d e.a fs.1.1 fs.1.2
    pure { writes := ws }
  else
    let ws ← convertWindow s rd e e.d e.a fs.2 fs.1 (fun i j => (i, j))
    pure { writes := ws }

/-- The compressed bytes of block `k` of a tile: its mask and its non-zero words (R302). -/
def tileBlock (s : State) (key k : Nat) : List Byte :=
  let ws := (List.range 64).map (fun w => leNat (sramBytes s.pl.sram key (256 * k + 4 * w) 4))
  let mask := ((List.range 64).map (fun w => if ws.getD w 0 = 0 then 0 else 2 ^ w)).sum
  leBytes mask 8 ++ (ws.filter (· != 0)).flatMap (fun v => leBytes v 4)

/-- The blocks that stay within the budget, with the offset after them, and how many they are. -/
def takeBlocks (budget : Nat) : List (List Byte) → Nat → Nat → List (Nat × List Byte) × Nat
  | [], _, nb => ([], nb)
  | b :: t, off, nb =>
    if off + b.length > budget then ([], nb)
    else let r := takeBlocks budget t (off + b.length) (nb + 1); ((off, b) :: r.1, r.2)

/-- Bytes at a virtual address. -/
def memBytes (va : Nat) (bs : List Byte) : List EWrite := bs.mapIdx (fun k b => ⟨.mem ((va + k) % 2 ^ 64), 0xFF, b⟩)

/-- `tstc` (R302, Table 15-5). -/
def compressPass (s : State) (e : REntry) : PassOut :=
  let blocks := (List.range 64).map (tileBlock s (boundTile e 1))
  let need := 16 + (blocks.map List.length).sum
  let budget := e.dv.toNat
  let b := e.bv.toNat
  if budget < 16 then { code := 5, result := some (BitVec.ofNat 64 need) }
  else
    let (bs, nb) := takeBlocks budget blocks 16 0
    let hdr := need + 2 ^ 32 * (if nb < 64 then 1 else 0) + 2 ^ 40 * nb
    { writes := bs.flatMap (fun x => memBytes (b + x.1) x.2), later := memBytes b (leBytes hdr 16)
      code := if nb = 64 then 0 else 5, result := some (BitVec.ofNat 64 need) }

/-- The frame that a frame operand names. -/
def frameBase (s : State) (e : REntry) (x : Win) : Nat := frameNo s e x.idx * 128

/-- `tzero` (R303). -/
def zeroPass (s : State) (e : REntry) : PassOut :=
  let w := elemWidth e.modElem
  { writes := (List.range e.d.rows).flatMap (fun i => (List.range e.d.cols).flatMap (fun j => writeElem s e 0 e.d w i j 0))
    vecs := if e.mod.testBit 4 then (List.range 128).map (fun k => (frameBase s e e.d + k, 0)) else [] }

def movePass (s : State) (rd : Reader) (e : REntry) : EngM PassOut := do
  let ws ← copyWindow s rd e 0 1 e.d e.a e.modElem 0
  pure { writes := ws }

/-- `tcvt` (R304). -/
def cvtPass (s : State) (rd : Reader) (e : REntry) : EngM PassOut := do
  let fs := dataFmts s e
  let ws ← convertWindow s rd e e.d e.a fs.2 fs.1 (fun i j => (e.d.row0 + i, e.d.col0 + j))
  pure { writes := ws }

/-- `tlay` (R305). -/
def layPass (rd : Reader) (e : REntry) : EngM PassOut := do
  let v ← rdNat rd e.av.toNat 32
  pure { slot := some (e.dnum % 8, BitVec.ofNat 256 v) }

/-! ## Multiply: major 0x31 -/

/-- The accumulator after its products, in groups of `g` (R53); `n` bounds the groups. -/
def accGroups (T : Fmt) (g : Nat) : Nat → Nat → List FX → Nat
  | 0, acc, _ => acc
  | n + 1, acc, ps => if ps.isEmpty then acc else accGroups T g n (groupAcc T acc (ps.take g)) (ps.drop g)

/-- Products of one exact group (R306). -/
def groupSize (e : REntry) : Nat := if e.acc = 1 then 1 else if e.aElem = 0 then 4 else 32

/-- The format of the accumulator and of a frame. -/
def accFmt (e : REntry) : Fmt := if e.acc = 1 then .f64 else .f32

/-- One element of an `mma`, `mman` or `mms`: `f` is the member. -/
def mmaElem (T : Fmt) (f g : Nat) (acc : Nat) (a b : List FX) : Nat :=
  let ps := (a.zip b).map (fun p => let v := mulFX p.1 p.2; if f = 1 then v.flip else v)
  accGroups T g ps.length (if f = 2 then 2 ^ T.signPos else acc) ps

/-- Micro-tile `u` of a multiply (R306). -/
def mmaPass (s : State) (rd : Reader) (e : REntry) (u : Nat) : EngM PassOut := do
  let nb := ceilDiv e.d.cols 32
  let is := span (32 * (u / nb)) (min e.d.rows (32 * (u / nb) + 32))
  let js := span (32 * (u % nb)) (min e.d.cols (32 * (u % nb) + 32))
  let as ← is.mapM (fun i => readRow s rd e 1 e.a e.aElem e.aMode i e.a.cols 0)
  let bs ← js.mapM (fun j => readRow s rd e 2 e.b e.bElem e.bMode j e.b.cols 0)
  let w := elemWidth e.acc
  let ws ← (is.zip as).mapM (fun ia => do
    let row ← (js.zip bs).mapM (fun jb => do
      let c ← readElem s rd e 0 e.d w ia.1 jb.1
      pure (writeElem s e 0 e.d w ia.1 jb.1 (mmaElem (accFmt e) e.f (groupSize e) c ia.2 jb.2)))
    pure row.flatten)
  pure { writes := ws.flatten }

/-! ## Factorisations and solves: major 0x32 -/

/-- A frame window's codes by row. -/
def readMat (s : State) (rd : Reader) (e : REntry) (pos : Nat) (x : Win) : EngM Mat :=
  (List.range x.rows).mapM (fun i => (List.range x.cols).mapM (fun j => readElem s rd e pos x (elemWidth e.acc) i j))

def writeMat (s : State) (e : REntry) (A : Mat) : List EWrite :=
  (A.mapIdx (fun i r => (r.mapIdx (fun j c => writeElem s e 0 e.d (elemWidth e.acc) i j c)).flatten)).flatten

def vecAt (s : State) (base k : Nat) : DWord := stGet 0 s.cl.vectors (base + k)

/-- A vector entry with its low half replaced, and with its high half replaced. -/
def withLow (v : DWord) (x : Nat) : DWord := v.extractLsb' 32 32 ++ BitVec.ofNat 32 x
def withHigh (v : DWord) (x : Nat) : DWord := BitVec.ofNat 32 x ++ v.extractLsb' 0 32

/-- The end of a factorisation's pass: the matrix, and the status of a stop. -/
def factOut (s : State) (e : REntry) (x : Fact) (vecs : List (Nat × DWord)) : PassOut :=
  { writes := writeMat s e x.mat, vecs := vecs
    code := (x.stop.map (·.1)).getD 0, detail := (x.stop.map (·.2)).getD 0, stop := x.stop.isSome }

/-- `tlu` (R308): pivots, then rho, Mo and Mu in the high halves of entries 0, 1 and 2. -/
def luPass (s : State) (e : REntry) (u : Nat) (A : Mat) : PassOut :=
  let T := accFmt e
  let base := frameBase s e e.d
  let hi := fun (k : Nat) => (vecAt s base k).toNat / 2 ^ 32
  let mo := if u = 0 then A.foldl (fun m r => r.foldl (fun m c => max m (mag32 T c)) m) 0 else hi 1
  let x := (span (4 * u) (min (4 * u + 4) A.length)).foldl (luStep T) { mat := A, mu := if u = 0 then mo else hi 2 }
  let vs := x.vec.foldl (fun (m : List (Nat × DWord)) p => stSet 0 m (base + p.1) (withLow (stGet 0 m (base + p.1)) p.2)) s.cl.vectors
  let vs := [(0, fdiv .f32 {} x.mu mo), (1, mo), (2, x.mu)].foldl (fun (m : List (Nat × DWord)) (p : Nat × Nat) =>
    stSet 0 m (base + p.1) (withHigh (stGet 0 m (base + p.1)) p.2)) vs
  factOut s e x (((x.vec.map Prod.fst ++ [0, 1, 2]) : List Nat).map (fun k => (base + k, stGet 0 vs (base + k))))

/-- `tchol` and `tqr` (R309, R310). -/
def panelPass (s : State) (e : REntry) (u : Nat) (A : Mat) : PassOut :=
  let T := accFmt e
  let js := span (4 * u) (min (4 * u + 4) e.d.cols)
  let x := js.foldl (if e.f = 1 then cholStep T else qrStep T) { mat := A }
  factOut s e x (x.vec.map (fun p => (frameBase s e e.d + p.1, BitVec.ofNat 64 p.2)))

/-- The columns of micro-tile `u`, changed one by one. -/
def eachCol (u : Nat) (f : List Nat → List Nat) (D : Mat) : Mat :=
  (span (32 * u) (min (32 * u + 32) (D.headD []).length)).foldl (fun D c => setCol c (f (colOf D c)) D) D

/-- `tperm` (R312). -/
def permPass (s : State) (e : REntry) (D : Mat) : PassOut :=
  let piv := fun (j : Nat) => (vecAt s (frameBase s e e.a) j).toNat % 2 ^ 32
  let js := List.range (min e.a.rows e.a.cols)
  if js.all (fun j => decide (j ≤ piv j ∧ piv j < e.a.rows)) then { writes := writeMat s e (permute (if e.mod.testBit 0 then js.reverse else js) piv D) }
  else { code := stShape, stop := true }

/-- τ of reflector `j` of the factor (R287). -/
def tauOf (s : State) (e : REntry) (j : Nat) : Nat :=
  let v := (vecAt s (frameBase s e e.a) j).toNat
  if e.acc = 1 then v else v % 2 ^ 32

def factorPass (s : State) (rd : Reader) (e : REntry) (u : Nat) : EngM PassOut := do
  let D ← readMat s rd e 0 e.d
  let A ← if e.f < 3 then pure [] else readMat s rd e 1 e.a
  let T := accFmt e
  pure (match e.f with
    | 0 => luPass s e u D
    | 1 => panelPass s e u D
    | 2 => panelPass s e u D
    | 3 => { writes := writeMat s e (eachCol u (solveDown T false A) D) }
    | 4 => { writes := writeMat s e (eachCol u (solveUp T A) D) }
    | 5 => { writes := writeMat s e (eachCol u (solveDown T true A) D) }
    | 6 => permPass s e D
    | 7 => { writes := writeMat s e (eachCol u (applyQ T A (tauOf s e) (List.range e.a.cols).reverse) D) }
    | _ => { writes := writeMat s e (eachCol u (applyQ T A (tauOf s e) (List.range e.a.cols)) D) })

/-! ## Shared-value rows: major 0x33 -/

/-- An activation as FP32, exact. -/
def actAt (s : State) (rd : Reader) (e : REntry) (n c : Nat) : EngM Nat := do
  let v ← readVal s rd e 2 e.b e.bElem 0 n c
  pure (Fmt.f32.round {} v)

/-- The sum of a group's activations, its first column first (R316). -/
def groupSum (s : State) (rd : Reader) (e : REntry) (n : Nat) : List Nat → EngM Nat
  | [] => pure 0
  | c :: t => do
    let x ← actAt s rd e n c
    t.foldlM (fun S q => do
      let y ← actAt s rd e n q
      pure (fadd .f32 {} S y)) x

/-- One element of a row that is not malformed. -/
def svElem (s : State) (rd : Reader) (e : REntry) (n acc : Nat) (gs : List SvrGroup) : EngM Nat :=
  gs.foldlM (fun acc g => do
    let S ← groupSum s rd e n g.cols
    pure (Fmt.f32.round {} (fmaFX {} (Fmt.f32.decode acc) (elemDecode e.aElem g.value) (Fmt.f32.decode S)))) acc

/-- The row of a directory; none where it is malformed (R315). -/
def rowOrNone (rd : Reader) (e : REntry) (i : Nat) : EngM (Option (List SvrGroup)) :=
  tryCatch (do let gs ← svrRow rd e.av.toNat i e.b.cols; pure (some gs)) (fun x => if x = .malformed then pure none else throw x)

def svRows (e : REntry) (u : Nat) : List Nat := span (32 * u) (min e.d.rows (32 * u + 32))

/-- Micro-tile `u` of `svmv` and `svmm` (R316). -/
def svPass (s : State) (rd : Reader) (e : REntry) (u : Nat) : EngM PassOut :=
  (svRows e u).foldlM (fun (o : PassOut) i => do
    match ← rowOrNone rd e i with
    | none =>
      let ws := (List.range e.d.cols).flatMap (fun n => writeElem s e 0 e.d 32 i n 0x7FC00000)
      pure { o with writes := o.writes ++ ws, code := 4, detail := if o.code = 0 then i else o.detail }
    | some gs => do
      let ws ← (List.range e.d.cols).mapM (fun n => do
        let c ← readElem s rd e 0 e.d 32 i n
        let v ← svElem s rd e n c gs
        pure (writeElem s e 0 e.d 32 i n v))
      pure { o with writes := o.writes ++ ws.flatten }) {}

/-! ## A pass -/

/-- The next pass of an entry: micro-tile `u`. -/
def passBody (s : State) (rd : Reader) (e : REntry) (u : Nat) : EngM PassOut :=
  match e.maj, e.f with
  | 0x30, 0 => loadPass s rd e
  | 0x30, 1 => storePass s rd e
  | 0x30, 2 => pure (compressPass s e)
  | 0x30, 3 => pure (zeroPass s e)
  | 0x30, 4 => movePass s rd e
  | 0x30, 5 => pure {}
  | 0x30, 6 => cvtPass s rd e
  | 0x30, _ => layPass rd e
  | 0x31, _ => mmaPass s rd e u
  | 0x32, _ => factorPass s rd e u
  | _, _ => svPass s rd e u

/-! ## Pass lengths (R283, Table 15-7) -/

/-- Multiply-accumulates per cycle by element code (Table 0-3). -/
def macRate : Nat → Nat
  | 1 => 1024 | 0 => 4096 | 2 => 16384 | 3 => 16384 | 4 => 32768 | 5 => 32768 | _ => 65536

/-- Bytes of a window's elements and scales. -/
def winBytes (x : Win) (f : Nat × Nat) : Nat :=
  ceilDiv (x.rows * x.cols * elemWidth f.1) 8 + (if f.2 = 0 then 0 else x.rows * ceilDiv x.cols (blockSize f.2))

/-- Bytes that a data member moves: the larger of those read and those written. -/
def bytesMoved (s : State) (e : REntry) : Nat :=
  let fs := dataFmts s e
  match e.f with
  | 2 => (fun (o : PassOut) => max 16384 (o.writes.length + o.later.length)) (compressPass s e)
  | 3 => winBytes e.d (e.modElem, 0) + (if e.mod.testBit 4 then 1024 else 0)
  | _ => max (winBytes e.d fs.1) (winBytes e.a fs.2)

/-- Cycles of a row and a vector: batches of 16 groups. -/
def rowCycles : Nat → List SvrGroup → Nat
  | 0, _ => 0
  | n + 1, gs => if gs.isEmpty then 0 else (gs.take 16).foldl (fun m g => max m g.cols.length) 0 + 4 + rowCycles n (gs.drop 16)

/-- Cycles of pass `u`; the rows of a shared-value pass are those fetched. A row that is malformed counts for none.
DESIGN CHOICE (log entry 109): a pass whose sum is 0 takes 1 cycle. -/
def passCycles (s : State) (e : REntry) (u : Nat) : Nat :=
  let rate := if e.acc = 1 then 1024 else 4096
  match e.maj, e.f with
  | 0x30, 5 => 8
  | 0x30, 7 => 9
  | 0x30, _ => 8 + ceilDiv (bytesMoved s e) 128
  | 0x31, _ => ceilDiv (1024 * e.a.cols) (macRate e.aElem)
  | 0x32, 6 => 8 + 2 * min e.a.rows e.a.cols
  | 0x32, f =>
    if f < 3 then 32 + ceilDiv (4 * (e.d.rows - 4 * u) * (e.d.cols - 4 * u)) rate
    else 16 * e.a.cols + ceilDiv (32 * e.a.rows * e.a.cols) rate
  | _, _ => max 1 (((svRows e u).map (fun i => match (rowOrNone (snapReader e.snap) e i).go.1 with
      | .ok (some gs) => e.d.cols * rowCycles gs.length gs
      | _ => 0)).sum)

end Sys2Proof.Machine
end

