-- ==== Sys2Proof/Machine/LoadStore.lean ====
section
/-! DEFINITION. Loads and stores: majors 0x20 to 0x22 (R94 to R97, R231 to R233, R240, R241). -/

namespace Sys2Proof.Machine

open Sys2Proof

/-- A global load on a thread or on a stream. -/
def load (i : Ins) (imm : BitVec 7) (size : Nat) (signed : Bool) (s : State) : Answer :=
  run i (loadG i imm size signed) (loadGS i imm size signed) s

/-- A global store on a thread or on a stream. -/
def store (i : Ins) (imm : BitVec 7) (size : Nat) (s : State) : Answer := run i (storeG i imm size) (storeGS i imm size) s

/-- LD_B (R94). -/
def execLdB (sw : Bool) (t r i : BitVec 7) (p : Payload) (s : State) : Answer :=
  load ⟨packA sw 32 t r i 0, p, .ld 1 t r⟩ i 1 false s

/-- LD_BS (R94). -/
def execLdBs (sw : Bool) (t r i : BitVec 7) (p : Payload) (s : State) : Answer :=
  load ⟨packA sw 32 t r i 1, p, .ld 1 t r⟩ i 1 true s

/-- LD_H (R94). -/
def execLdH (sw : Bool) (t r i : BitVec 7) (p : Payload) (s : State) : Answer :=
  load ⟨packA sw 32 t r i 2, p, .ld 1 t r⟩ i 2 false s

/-- LD_HS (R94). -/
def execLdHs (sw : Bool) (t r i : BitVec 7) (p : Payload) (s : State) : Answer :=
  load ⟨packA sw 32 t r i 3, p, .ld 1 t r⟩ i 2 true s

/-- LD_W (R94). -/
def execLdW (sw : Bool) (t r i : BitVec 7) (p : Payload) (s : State) : Answer :=
  load ⟨packA sw 32 t r i 4, p, .ld 1 t r⟩ i 4 false s

/-- LD_D (R94). -/
def execLdD (sw : Bool) (t r i : BitVec 7) (p : Payload) (s : State) : Answer :=
  load ⟨packA sw 32 t r i 5, p, .ld 2 t r⟩ i 8 false s

/-- LD_Q (R94). -/
def execLdQ (sw : Bool) (t r i : BitVec 7) (p : Payload) (s : State) : Answer :=
  load ⟨packA sw 32 t r i 6, p, .ld 4 t r⟩ i 16 false s

/-- LD_O (R94). -/
def execLdO (sw : Bool) (t r i : BitVec 7) (p : Payload) (s : State) : Answer :=
  load ⟨packA sw 32 t r i 7, p, .ld 8 t r⟩ i 32 false s

/-! ## Multicast (R240, R241) -/

/-- A multicast request; the threads of one bundle with one key send one. -/
def requestMcast (va : DWord) (h : Nat) (mask : DWord) (o : Opnds) (s : State) : Nat × State :=
  let (tag, s) := addResult (destRegs o [0, 0, 0, 0]) 40 none .none false s
  let w : LoadWait := { slot := s.th.slot, lane := s.th.lane, pc := s.th.pc, tag := tag, va := va, pa := h, size := 16 }
  let n0 := neighbourhood (s.xid % 72)
  let mine := fun (m : Msg) => match m.body with
    | .mcast x => x.line == lineOf h && x.mask == mask && x.bundle == s.bundleNo
    | _ => false
  match s.pl.net.find? mine with
  | some m => (tag, netUpd m.id (fun b => match b with
      | .mcast x => .mcast { x with waits := x.waits ++ [w] }
      | b => b) s)
  | none => (tag, (netSend (.mcast { line := lineOf h, n0 := n0, mask := mask, bit := coreBit s, lease := s.curCtx.lease.toNat, bundle := s.bundleNo, ctx := s.ctxNo, waits := [w] }) s).2)

/-- `ldmc.q`: a multicast request where the address is in G and the mask holds the core's own bit; else an ordinary miss. -/
def loadMcast (i : Ins) (imm : BitVec 7) (o : Opnds) (s : State) : State :=
  let addr := globalAddr (dwordOf o.a) imm 16
  let ord := memOrd i.p
  let mask := dwordOf o.b
  match globalFail addr 16 with
  | some t => raise t s
  | none => withHome addr .read (fun h s =>
      if loadPath s h 16 true = .wait then s.updTh (fun t => { t with park := .storeWait })
      else if !isX h && isPoisoned s h 16 then raise { cause := .poison, addr := addr } s
      else
        let s := if ord.acq && decide (ord.scope ≥ 4) && !isX h then (writeBack (lineOf h) (.forced s.th.uid) s).2 else s
        let s := l1Renew h s
        let (tag, s) := if !isX h && mask.getLsbD (coreBit s) then requestMcast addr h mask o s else requestFill addr h 16 false o { ord with hint := 0 } s
        if ord.acq then hold i (.acquire tag) s else finish i s) s

/-- LDMC_Q (R241). -/
def execLdmcQ (sw : Bool) (t r i : BitVec 7) (p : Payload) (s : State) : Answer :=
  (fun (i0 : Ins) => runThread i0 (loadMcast i0 i) s) ⟨packA sw 32 t r i 8, p, .ldmc t r p⟩

/-- ST_B (R94). -/
def execStB (sw : Bool) (t r i : BitVec 7) (p : Payload) (s : State) : Answer :=
  store ⟨packA sw 33 t r i 0, p, .st 1 t r⟩ i 1 s

/-- ST_H (R94). -/
def execStH (sw : Bool) (t r i : BitVec 7) (p : Payload) (s : State) : Answer :=
  store ⟨packA sw 33 t r i 1, p, .st 1 t r⟩ i 2 s

/-- ST_W (R94). -/
def execStW (sw : Bool) (t r i : BitVec 7) (p : Payload) (s : State) : Answer :=
  store ⟨packA sw 33 t r i 2, p, .st 1 t r⟩ i 4 s

/-- ST_D (R94). -/
def execStD (sw : Bool) (t r i : BitVec 7) (p : Payload) (s : State) : Answer :=
  store ⟨packA sw 33 t r i 3, p, .st 2 t r⟩ i 8 s

/-- ST_Q (R94). -/
def execStQ (sw : Bool) (t r i : BitVec 7) (p : Payload) (s : State) : Answer :=
  store ⟨packA sw 33 t r i 4, p, .st 4 t r⟩ i 16 s

/-- ST_O (R94). -/
def execStO (sw : Bool) (t r i : BitVec 7) (p : Payload) (s : State) : Answer :=
  store ⟨packA sw 33 t r i 5, p, .st 8 t r⟩ i 32 s

/-- LDS_W (R94). -/
def execLdsW (sw : Bool) (t r i : BitVec 7) (p : Payload) (s : State) : Answer :=
  (fun (i0 : Ins) => runThread i0 (loadS i0 i 4) s) ⟨packA sw 34 t r i 0, p, .lds 1 t r⟩

/-- LDS_D (R94). -/
def execLdsD (sw : Bool) (t r i : BitVec 7) (p : Payload) (s : State) : Answer :=
  (fun (i0 : Ins) => runThread i0 (loadS i0 i 8) s) ⟨packA sw 34 t r i 1, p, .lds 2 t r⟩

/-- LDS_Q (R94). -/
def execLdsQ (sw : Bool) (t r i : BitVec 7) (p : Payload) (s : State) : Answer :=
  (fun (i0 : Ins) => runThread i0 (loadS i0 i 16) s) ⟨packA sw 34 t r i 2, p, .lds 4 t r⟩

/-- STS_W (R94). -/
def execStsW (sw : Bool) (t r i : BitVec 7) (p : Payload) (s : State) : Answer :=
  (fun (i0 : Ins) => runThread i0 (storeS i0 i 4) s) ⟨packA sw 34 t r i 3, p, .sts 1 t r⟩

/-- STS_D (R94). -/
def execStsD (sw : Bool) (t r i : BitVec 7) (p : Payload) (s : State) : Answer :=
  (fun (i0 : Ins) => runThread i0 (storeS i0 i 8) s) ⟨packA sw 34 t r i 4, p, .sts 2 t r⟩

/-- STS_Q (R94). -/
def execStsQ (sw : Bool) (t r i : BitVec 7) (p : Payload) (s : State) : Answer :=
  (fun (i0 : Ins) => runThread i0 (storeS i0 i 16) s) ⟨packA sw 34 t r i 5, p, .sts 4 t r⟩

end Sys2Proof.Machine
end

