-- ==== Sys2Proof/Machine/Watch.lean ====
section
/-! DEFINITION. Watched regions: major 0x15, f = 2 and 3 (R251 to R257). -/

namespace Sys2Proof.Machine

open Sys2Proof

/-! ## Descriptors (R251, R252) -/

/-- Bits `[lo + n − 1 : lo]` of a record. -/
def field (v : BitVec 512) (lo n : Nat) : Nat := v.toNat / 2 ^ lo % 2 ^ n

/-- A 64-byte record's bits from its bytes. -/
def recordOf (bs : List Byte) : BitVec 512 := BitVec.ofNat 512 (leNat bs)

/-- Whether a descriptor meets R252. -/
def watchDescOk (d : BitVec 512) : Bool :=
  let base : DWord := d.extractLsb' 0 64
  let len : DWord := d.extractLsb' 64 64
  let entry : DWord := d.extractLsb' 128 64
  let lb : DWord := d.extractLsb' 192 64
  let args : DWord := d.extractLsb' 256 64
  let g := 64 * 2 ^ field d 320 3
  d.toNat / 2 ^ 329 == 0 && decide (field d 320 3 ≤ 4) && field d 323 3 != 0
  && base.toNat % g == 0 && len != 0 && len.toNat % g == 0
  && canonical base && canonical (base + len - 1) && decide (base.toNat + len.toNat ≤ 2 ^ 64)
  && entry.toNat % 4 == 0 && canonical entry && lb.toNat % 128 == 0 && canonical lb
  && (args == 0 || (args.toNat % 64 == 0 && canonical args))

/-! ## Results (R257, Table 12-2) -/

def wBadDesc : Word := 0x80000001
def wNoMap : Word := 0x80000002
def wNoContig : Word := 0x80000003
def wNoSlot : Word := 0x80000004
def wBadId : Word := 0x80000005
def wBadArg : Word := 0x80000006

/-- The instruction completes with its value, and the thread waits for it as under S. -/
def watchDone (i : Ins) (o : Opnds) (v : Word) (s : State) : State :=
  (result i o [v] 4 4 s).updTh (fun t => { t with park := .switch })

/-- The thread waits for the slices, and for the value after them. -/
def watchHold (i : Ins) (pk : Park) (s : State) : State := (hold i pk s).updTh (fun t => { t with smark := true })

/-! ## Slices and ids (R254, R255) -/

/-- The slices that own a kilobyte of a physical range. -/
def rangeSlices (pa len : Nat) : List Nat :=
  ((List.range ((pa % 1024 + len + 1023) / 1024)).map (fun k => homeSlice ((pa / 1024 + k) * 1024))).eraseDups

/-- The attachments that hold an id: those in the tables, and those on their way to the slices. -/
def attsHeld (s : State) : List Att :=
  s.sl.atts ++ (s.living ++ s.standby.plane.threads).filterMap (fun t => match t.park with | .watch _ a => some a | _ => none)

/-- The lowest id free for a context in every slice of the set. -/
def freeAttId (s : State) (c : Nat) (qs : List Nat) : Option Nat :=
  firstFree ((attsHeld s).filterMap (fun a =>
    if a.ctx == c || (rangeSlices a.pa a.len).any (fun q => qs.contains q) then some a.id else none)) 512

/-- The home pages of a list of pages that are found; none where one has no place in this module's memory. -/
def homesFrom (pages : List (Nat × Option Nat)) (l : List Nat) : Option (List Nat) :=
  l.mapM (fun p => (homeOf pages p).filter (fun h => !isX h))

/-! ## `watch` and `unwatch` (R255, R256) -/

/-- `watch` once its descriptor is read and checked, and its region's pages are found. -/
def attachRegion (i : Ins) (o : Opnds) (d : BitVec 512) (pages : List (Nat × Option Nat)) (s : State) : State :=
  let base := field d 0 64
  let len := field d 64 64
  match homesFrom pages (rangePages base len) with
  | none => watchDone i o wNoMap s
  | some [] => watchDone i o wNoMap s
  | some (h0 :: hs) =>
    if (hs.mapIdx (fun k h => (k, h))).any (fun x => x.2 != h0 + (x.1 + 1) * 4096) then watchDone i o wNoContig s
    else
      let pa := h0 + base % 4096
      match freeAttId s s.ctxNo (rangeSlices pa len) with
      | none => watchDone i o wNoSlot s
      | some id =>
        let a : Att := { id := id, ctx := s.ctxNo, tree := if d.getLsbD 328 then none else some s.warp.tree, va := base, pa := pa, len := len
                         gran := 64 * 2 ^ field d 320 3, depth := field d 323 3, prio := field d 326 2
                         entry := d.extractLsb' 128 64, lb := d.extractLsb' 192 64, args := d.extractLsb' 256 64 }
        watchHold i (.watch o.pd a) s

/-- `watch` once its descriptor is read. -/
def attach (i : Ins) (o : Opnds) (d : BitVec 512) (s : State) : State :=
  if !watchDescOk d then watchDone i o wBadDesc s
  else withPages (rangePages (field d 0 64) (field d 64 64)) (fun pages s => attachRegion i o d pages (s.updTh (fun t => { t with found := [] }))) s

/-- `watch` and `unwatch` take no POISON trap (R257): with a poisoned id, address or descriptor they change nothing, and their result
is one that the specification does not state. -/
def watchPoisoned (i : Ins) (o : Opnds) (s : State) : State :=
  let (k, s) := s.draw
  watchDone i o ((Config.freeWord k).truncate 32) s

/-- `watch`: the descriptor is read as a 64-byte load. -/
def watchOp (i : Ins) (o : Opnds) (s : State) : State :=
  let addr := dwordOf o.a
  match globalFail addr 64 with
  | some t => raise t s
  | none => withHome addr .read (fun h s =>
      readRecord addr h (watchPoisoned i o) (fun bs => attach i o (recordOf bs)) s) s

def unwatchOp (i : Ins) (o : Opnds) (s : State) : State :=
  let id := (wordOf o.a).toNat
  let fl := wordOf o.b
  if id > 511 ∨ !s.sl.atts.any (fun a => a.ctx == s.ctxNo && a.id == id) then watchDone i o wBadId s
  else if fl.toNat > 1 then watchDone i o wBadArg s
  else watchHold i (.unwatch o.pd id (fl == 1)) s

/-- Removes the pending records of an attachment; their charges end. -/
def discardRecords (c id : Nat) (s : State) : State :=
  let gone := s.sl.trigs.filter (fun r => r.ctx == c && r.aid == id)
  gone.foldl (fun s r => treeSub r.tree 1 s)
    { s with sl := { s.sl with trigs := s.sl.trigs.filter (fun r => !(r.ctx == c && r.aid == id)) } }

def hasRecords (s : State) (c id : Nat) : Bool := s.sl.trigs.any (fun r => r.ctx == c && r.aid == id)

/-- The slices stop testing against an attachment. -/
def stopAtt (c id : Nat) (s : State) : State :=
  { s with sl := { s.sl with atts := updIf (fun a => a.ctx == c && a.id == id) (fun a => { a with stopped := true }) s.sl.atts } }

def freeAtt (c id : Nat) (s : State) : State :=
  { s with sl := { s.sl with atts := s.sl.atts.filter (fun a => !(a.ctx == c && a.id == id)) } }

/-- WATCH (R255). -/
def execWatch (sw : Bool) (d a : BitVec 7) (s : State) : Answer :=
  (fun (i0 : Ins) => runQuiet i0 (fun s => watchPoisoned i0 (operands i0 s) s) (watchOp i0) s) ⟨packA sw 21 d a 0#7 2, none, .plain [⟨a, 2, .src, .a⟩, ⟨d, 1, .dst, .d⟩]⟩

/-- UNWATCH (R256). -/
def execUnwatch (sw : Bool) (d a b : BitVec 7) (s : State) : Answer :=
  (fun (i0 : Ins) => runQuiet i0 (fun s => watchPoisoned i0 (operands i0 s) s) (unwatchOp i0) s) ⟨packA sw 21 d a b 3, none, .plain [⟨a, 1, .src, .a⟩, ⟨b, 1, .src, .b⟩, ⟨d, 1, .dst, .d⟩]⟩

/-- WATCH_COMPLETE (R255): every covered slice has acknowledged; writes are tested from now on, and the id is written. -/
def execWatchComplete (who : Agent) (s : State) : Answer :=
  .next (s.atThread who (fun s =>
      match s.th.park with
      | .watch d a => resumeWith d (BitVec.ofNat 32 a.id) 4 { s with sl := { s.sl with atts := s.sl.atts ++ [a] } }
      | _ => s))

/-- UNWATCH_COMPLETE (R256): the slices have acknowledged the detach and test no more; its records are discarded, or it ends once
none is pending; then the id is free. -/
def execUnwatchComplete (who : Agent) (s : State) : Answer :=
  .next (s.atThread who (fun s =>
      match s.th.park with
      | .unwatch d id discard =>
        let s := stopAtt s.ctxNo id s
        let s := if discard then discardRecords s.ctxNo id s else s
        if hasRecords s s.ctxNo id then s else resumeWith d 0 4 (freeAtt s.ctxNo id s)
      | _ => s))

end Sys2Proof.Machine
end

