-- ==== Sys2Proof/Machine/Copy.lean ====
section
/-! DEFINITION. The copy engine: `cpy` and `mcpy` (R327, R330 to R336). -/

namespace Sys2Proof.Machine

open Sys2Proof

/-! ## Copy descriptors (R330, R331) -/

def cpElem (d : BitVec 512) : Nat := field d 176 4
def cpSrc (d : BitVec 512) : Nat := field d 0 64
def cpDst (d : BitVec 512) : Nat := field d 64 64
def cpIdxa (d : BitVec 512) : Nat := field d 448 64
/-- The extent of dimension `k`. -/
def cpExt (d : BitVec 512) (k : Nat) : Nat := field d (192 + 16 * k) 16
/-- The source and destination strides of dimension `k`, 1 to 3. -/
def cpSs (d : BitVec 512) (k : Nat) : Int := (BitVec.ofNat 32 (field d (224 + 32 * k) 32)).toInt
def cpDs (d : BitVec 512) (k : Nat) : Int := (BitVec.ofNat 32 (field d (320 + 32 * k) 32)).toInt
/-- Bytes of dimension 0. -/
def cpRow (d : BitVec 512) : Nat := cpExt d 0 * elemWidth (cpElem d) / 8

/-- Where an operand of a kind starts: an address, or an offset in its scratch, tile or frame. -/
def cpStart (kind v : Nat) : Int :=
  match kind with
  | 0 => (BitVec.ofNat 64 v).toInt
  | 1 => (v % 2 ^ 32 : Nat)
  | 2 => (v % 2 ^ 14 : Nat)
  | _ => (v % 2 ^ 16 : Nat)

/-- The bits of an operand that its kind leaves unused are zero. -/
def cpBitsOk (kind v : Nat) : Bool :=
  match kind with
  | 0 => true
  | 1 => v / 2 ^ 32 == 0
  | 2 => v / 2 ^ 21 == 0 && v / 2 ^ 14 % 4 == 0
  | _ => v / 2 ^ 19 == 0

def cpTileNo (v : Nat) : Nat := v / 2 ^ 16 % 32
def cpFrameNo (v : Nat) : Nat := v / 2 ^ 16 % 8

/-- The first byte and the byte after the last that the corners of an operand span; `skip` leaves dimension 1 out (a gather). -/
def cpSpan (start : Int) (d : BitVec 512) (stride : Nat → Int) (skip : Bool) : Int × Int :=
  [1, 2, 3].foldl (fun (x : Int × Int) k =>
    let t := if skip && k == 1 then 0 else ((cpExt d k : Int) - 1) * stride k
    (x.1 + min 0 t, x.2 + max 0 t)) (start, start + cpRow d)

def canonInt (a : Int) : Bool := decide (-(2 ^ 56) ≤ a ∧ a < 2 ^ 56)

/-- The bytes that an operand of a block may name. -/
def cpLimit (s : State) (block : Option Nat) (kind v : Nat) : Nat :=
  match block.bind s.block? with
  | none => 0
  | some b => match kind with
    | 1 => b.scratch
    | 2 => if (tileAt s b.handle (cpTileNo v)).isSome then 16384 else 0
    | _ => if cpFrameNo v < b.frames.length then 65536 else 0

/-- Whether the descriptor breaks R331. -/
def cpBad (d : BitVec 512) : Bool :=
  let w := elemWidth (cpElem d)
  let u : Int := (max 1 (w / 8) : Nat)
  let so := cpStart (copySrcKind d) (cpSrc d)
  let to_ := cpStart (copyDstKind d) (cpDst d)
  let src := cpSpan so d (cpSs d) (cpIdxa d != 0)
  let dst := cpSpan to_ d (cpDs d) false
  let last := cpIdxa d + 4 * (cpExt d 1 - 1)
  field d 128 40 != 0 || field d 170 2 != 0 || field d 174 2 != 0 || field d 180 12 != 0
  || !cpBitsOk (copySrcKind d) (cpSrc d) || !cpBitsOk (copyDstKind d) (cpDst d)
  || cpElem d == 15 || [0, 1, 2, 3].any (fun k => cpExt d k == 0) || (w == 4 && cpExt d 0 % 2 == 1)
  || (so :: to_ :: [1, 2, 3].map (cpSs d) ++ [1, 2, 3].map (cpDs d)).any (fun x => x % u != 0)
  || (cpIdxa d != 0 && (copySrcKind d != 0 || cpIdxa d % 4 != 0 || !canonNat (cpIdxa d) || !(decide (last < 2 ^ 64) && canonNat last)))
  || (copySrcKind d == 0 && !(canonInt src.1 && canonInt (src.2 - 1)))
  || (copyDstKind d == 0 && !(canonInt dst.1 && canonInt (dst.2 - 1)))

/-- The code of the check at acceptance (R331, R334): OK, CP_BADDESC or CP_BOUNDS. -/
def cpCheck (s : State) (kind : CopyKind) (block : Option Nat) (d : BitVec 512) : Nat :=
  let src := cpSpan (cpStart (copySrcKind d) (cpSrc d)) d (cpSs d) (cpIdxa d != 0)
  let dst := cpSpan (cpStart (copyDstKind d) (cpDst d)) d (cpDs d) false
  let out := fun (k v : Nat) (x : Int × Int) => k != 0 && !(decide (0 ≤ x.1 ∧ x.2 ≤ cpLimit s block k v))
  if cpBad d || (decide (kind = .mcpy) && (copyDstKind d != 1 || copySrcKind d != 0 || block.isNone)) then 0x20
  else if out (copySrcKind d) (cpSrc d) src || (decide (kind ≠ .mcpy) && out (copyDstKind d) (cpDst d) dst) then 0x21
  else 0

/-! ## Issue (R327, R330, R332) -/

/-- An operation of the acting thread joins its queue; `d` is its result. -/
def newOp (i : Ins) (o : Opnds) (kind : CopyKind) (s : State) : CopyOp × State :=
  let (id, s) := s.fresh
  let (tag, s) := addResult (destRegs o [0]) 40 none .none false s
  let p := i.p.getD 0
  let (ids, s) := acquireWriteBack p (some s.th.uid) s
  ({ id := id, kind := kind, slot := s.th.slot, lane := s.th.lane, tag := tag, dst := o.pd, block := s.warp.block, ctx := s.ctxNo, desc := 0
     hdr := (s.thBlock.map (·.hdr)).getD 0, tree := s.warp.tree, addr := dwordOf o.a, payload := p, depth := s.th.depth, waitIds := ids }, s)

/-- Operations that the cluster's copy engine holds. -/
def copyHeld (s : State) : Nat := (s.cl.copyQ.filter (fun c => decide (c.kind ≠ .hostCopy) || c.slot == s.xid)).length

/-- A thread whose payload asks for an arrival runs in a block (R327). -/
def arrGate (i : Ins) (k : State → State) (s : State) : State :=
  match s.warp.block, payloadBar (i.p.getD 0) with
  | none, some n => raise { cause := .barNone, info := BitVec.ofNat 32 n } s
  | _, _ => k s

/-- An instruction that issues an operation with ACQ while a release of its thread, a put among them, waits for its point: the operation is to
follow that release (R229), so the instruction waits. -/
def acqWaits (i : Ins) (s : State) : Bool :=
  (i.p.getD 0).getLsbD 24 && (!(ownQueue s s.th.uid).isEmpty || s.pl.puts.any (·.uid == s.th.uid))

/-- An operation with its descriptor and the tiles it names. -/
def withDesc (s : State) (d : BitVec 512) (c : CopyOp) : CopyOp :=
  let tile := fun (kind v : Nat) => if kind = 2 then (c.block.bind (fun h => tileAt s h (cpTileNo v))).map (·.key) else none
  { c with desc := d, status := engStatus (cpCheck s c.kind c.block d) 0 1 0
           bank := tile (copyDstKind d) (cpDst d), srcBank := tile (copySrcKind d) (cpSrc d) }

/-- `cpy` and `mcpy`: the descriptor is read as a 64-byte load, and the operation is accepted; one whose descriptor is poisoned ends
with CP_POISON (R332, R357). An acquire waits behind the thread's own writes that wait for release points (R229). -/
def copyIssue (i : Ins) (kind : CopyKind) (o : Opnds) (s : State) : State :=
  let addr := dwordOf o.a
  match globalFail addr 64 with
  | some t => raise t s
  | none =>
    if copyHeld s ≥ 32 then s.updTh (fun t => { t with park := .queueFull 1 })
    else if acqWaits i s then s.updTh (fun t => { t with park := .storeWait })
    else withHome addr .read (fun h s =>
      let accept := fun (f : State → CopyOp → CopyOp) => arrGate i (fun s =>
        let (c, s) := newOp i o kind s
        let c := { f s c with bv := dwordOf o.b }
        finish i { s with cl := { s.cl with copyQ := s.cl.copyQ ++ [c] } })
      readRecord addr h (accept (fun _ c => { c with status := engStatus 0x23 0 1 0 }))
        (fun bs => accept (fun s c => withDesc s (BitVec.ofNat 512 (leNat bs)) c)) s) s

/-! ## What an operation moves (R331, R333) -/

/-- A byte of an operand: at a home, in a scratch or tile by its number, or in a frame. -/
inductive Loc where
  | mem (h : Nat)
  | sram (key off : Nat)
  | frame (k : Nat)
  deriving DecidableEq, Repr

def opCluster (s : State) (c : CopyOp) : Nat := if c.kind = .hostCopy then c.slot else s.xid
def copyMaster (s : State) (c : CopyOp) : Nat := 0x8000 + 4 * opCluster s c + 1

def vaNat (a : Int) : Nat := (a % 2 ^ 64).toNat

/-- Byte `off` of an operand. -/
def cpLoc (s : State) (c : CopyOp) (kind v : Nat) (tile : Option Nat) (acc : Acc) (off : Int) : Except EStop Loc :=
  match kind with
  | 0 => (engHome s (copyMaster s c) c.ctx (vaNat off) acc 1).map .mem
  | 1 => .ok (.sram (c.block.getD 0) off.toNat)
  | 2 => .ok (.sram (tile.getD 0) off.toNat)
  | _ => .ok (.frame ((((c.block.bind s.block?).map (fun b => b.frames.getD (cpFrameNo v) 0)).getD 0) * 65536 + off.toNat))

def locPoisoned (s : State) : Loc → Bool
  | .mem h => readPoisoned s h 1
  | _ => false

def locByte (s : State) : Loc → Byte
  | .mem h => homeByte s h
  | .sram key off => sramByte s.pl.sram key off
  | .frame k => getByte s.cl.frames k

/-- The moves of a list of (source, destination) byte places, up to the first poisoned one; and a code. -/
def planBytes (s : State) (c : CopyOp) : List (Int × Int) → Except EStop (List (Loc × Loc) × Nat)
  | [] => .ok ([], 0)
  | (x, y) :: t => do
    let a ← cpLoc s c (copySrcKind c.desc) (cpSrc c.desc) c.srcBank .read x
    if decide (c.kind = .mcpy) && (match a with | .mem h => isX h | _ => false) then throw .space
    let b ← if c.kind = .mcpy then pure (Loc.sram 0 y.toNat) else cpLoc s c (copyDstKind c.desc) (cpDst c.desc) c.bank .write y
    if locPoisoned s a then pure ([], 0x23)
    else do
      let r ← planBytes s c t
      pure ((a, b) :: r.1, r.2)

/-- The bytes of the operation, in its order. -/
def copyBytes (d : BitVec 512) : Nat := cpExt d 1 * cpExt d 2 * cpExt d 3 * cpRow d

/-- The row of dimension 0 that byte `n` is in: the indices of dimensions 1 to 3. -/
def rowAt (d : BitVec 512) (n : Nat) : Nat × Nat × Nat :=
  let r := n / cpRow d
  (r / (cpExt d 2 * cpExt d 3), r / cpExt d 3 % cpExt d 2, r % cpExt d 3)

/-- The source and destination places of byte `n`, in a row whose source index is `g`. -/
def placeAt (d : BitVec 512) (g n : Nat) : Int × Int :=
  let (i1, i2, i3) := rowAt d n
  let k : Int := (n % cpRow d : Nat)
  (cpStart (copySrcKind d) (cpSrc d) + g * cpSs d 1 + i2 * cpSs d 2 + i3 * cpSs d 3 + k,
   cpStart (copyDstKind d) (cpDst d) + i1 * cpDs d 1 + i2 * cpDs d 2 + i3 * cpDs d 3 + k)

/-- Bytes of the chunk from byte `n` on: of one row, at most 128, and up to the end of a line at a home (R332, R333). -/
def chunkLen (d : BitVec 512) (g n : Nat) : Nat :=
  let m := min 128 (cpRow d - n % cpRow d)
  if copyDstKind d = 0 then min m (128 - vaNat (placeAt d g n).2 % 128) else m

/-- The index of row `i1` of a gather, read once: none is poison. -/
def gatherIndex (s : State) (c : CopyOp) (i1 : Nat) : Except EStop (Option Nat) :=
  if cpIdxa c.desc = 0 then .ok (some i1)
  else match c.gat with
  | some (k, g) => if k = i1 then .ok (some g) else readIndex
  | none => readIndex
where
  readIndex : Except EStop (Option Nat) :=
    match (rdNat (homeReader s (copyMaster s c) c.ctx false) (cpIdxa c.desc + 4 * i1) 4).go.1 with
    | .ok g => .ok (some g)
    | .error .poison => .ok none
    | .error e => .error e

/-- What the next chunk does: moves, how far it comes, the code and detail the operation ends with there, and the index it read. -/
structure Chunk where
  moves : List (Loc × Loc) := []
  len : Nat := 0
  code : Nat := 0
  detail : Nat := 0
  gat : Option (Nat × Nat) := none
  deriving DecidableEq, Repr

/-- The chunk that an operation has come to (R331, R333, R336). -/
def planChunk (s : State) (c : CopyOp) : Except EStop Chunk := do
  let i1 := (rowAt c.desc c.done).1
  match ← gatherIndex s c i1 with
  | none => pure { code := 0x23 }
  | some g =>
    let sp := cpSpan (cpStart 0 (cpSrc c.desc) + g * cpSs c.desc 1) c.desc (cpSs c.desc) true
    if cpIdxa c.desc != 0 && !(canonInt sp.1 && canonInt (sp.2 - 1)) then pure { code := 0x21, detail := i1 % 65536 }
    else do
      let n := chunkLen c.desc g c.done
      let (moves, code) ← planBytes s c ((List.range n).map (fun k => placeAt c.desc g (c.done + k)))
      pure { moves := moves, len := n, code := code, gat := some (i1, g) }

/-- One move; bytes for a home join the operation's writes. -/
def moveByte (x : State × List (Nat × Byte)) (m : Loc × Loc) : State × List (Nat × Byte) :=
  let b := locByte x.1 m.1
  match m.2 with
  | .mem h => (x.1, x.2 ++ [(h, b)])
  | .sram key off => (sramWrite key off [b] x.1, x.2)
  | .frame k => ({ x.1 with cl := { x.1.cl with frames := setBytes x.1.cl.frames [(k, b)] } }, x.2)

/-! ## The engine (R332 to R336) -/

def setCopy (id : Nat) (f : CopyOp → CopyOp) (s : State) : State :=
  { s with cl := { s.cl with copyQ := updIf (·.id == id) f s.cl.copyQ } }

/-- The operation ends with a code: its moves are over. -/
def endCopy (id code detail : Nat) (s : State) : State :=
  setCopy id (fun c => { c with started := true, status := engStatus code 0 1 detail }) s

/-- Table 9-3 admits the tiles an operation names; a tile that is gone is admitted to fail. -/
def tilesReady (s : State) (c : CopyOp) : Bool :=
  let of := fun (k : Option Nat) => k.bind (fun k => s.pl.tiles.find? (·.key == k))
  (match of c.srcBank with | some t => decide (t.st = .ready) && decide (t.readers < 63) | none => true)
  && (match of c.bank with | some t => decide (t.st = .empty) | none => true)

def tileGone (s : State) (k : Option Nat) : Bool := match k with | some k => !s.pl.tiles.any (·.key == k) | none => false

/-- A read and a fill are accepted (Table 9-3). -/
def takeTiles (c : CopyOp) (s : State) : State :=
  let s := match c.srcBank with | some k => updTile k (fun t => { t with readers := t.readers + 1 }) s | none => s
  match c.bank with | some k => updTile k (fun t => { t with st := .filling }) s | none => s

/-- They complete. -/
def leaveTiles (c : CopyOp) (ok : Bool) (s : State) : State :=
  let s := match c.srcBank with | some k => updTile k (fun t => { t with readers := t.readers - 1 }) s | none => s
  match c.bank with | some k => updTile k (fun t => { t with st := if ok then .ready else .empty }) s | none => s

/-- The scratch an operation reaches is being moved (R192). -/
def opHeld (s : State) (c : CopyOp) : Bool :=
  match s.pl.shake with
  | some (.reloc _ moves _) => moves.any (fun m => opScratch s m.1 c)
  | _ => false

/-- The cores a mask names, in ascending `cid`. -/
def namedCores (c : CopyOp) : List Nat := (List.range 64).filter (fun k => c.bv.getLsbD k)

/-- The status of one receiver's part: `CP_BOUNDS` where its bounds fail, else the operation's; a bad descriptor comes before (R331, R334). -/
def partStatus (out : Bool) (code detail : Nat) : Word := if code ≠ 0x20 ∧ out = true then engStatus 0x21 0 1 0 else engStatus code 0 1 detail

/-- What the receivers on named cores answer, in ascending core, and how many cores hold none (R334). What blocks run on another core
is outside this machine: whether it holds a receiver, and whether that one's bounds fail, are free. -/
def coreAnswers (own : List (Nat × Word)) (code detail : Nat) (s : State) : List Nat → List Word × Nat × State
  | [] => ([], 0, s)
  | k :: t =>
    let (l, miss, s) : List Word × Nat × State :=
      if k = coreBit s then (own.map (·.2), if own.isEmpty then 1 else 0, s)
      else
        let (i, s) := s.draw
        let f := (Config.freeWord i).toNat
        if f % 2 = 0 then ([], 1, s) else ([partStatus (decide (f / 2 % 2 = 1)) code detail], 0, s)
    let (l', miss', s) := coreAnswers own code detail s t
    (l ++ l', miss + miss', s)

/-- The status of an `mcpy` for its issuer (R334). -/
def mcpyStatus (c : CopyOp) (own : List (Nat × Word)) (code detail : Nat) (s : State) : Word × State :=
  let (l, miss, s) := coreAnswers own code detail s (namedCores c)
  ((l.find? (fun w => statusCode w != 0)).getD (if code ≠ 0 then engStatus code 0 1 detail else if miss ≠ 0 then engStatus 0x24 0 1 miss else engStatus 0 0 1 0), s)

/-- The receivers of an `mcpy` on this core, each with the status of its part: `CP_BOUNDS` where the bounds fail, else the operation's. -/
def mcpyParts (s : State) (c : CopyOp) (code detail : Nat) : List (Nat × Word) :=
  let dst := cpSpan (cpStart 1 (cpDst c.desc)) c.desc (cpDs c.desc) false
  (receivers s c).map (fun b => (b.handle, partStatus (!decide (0 ≤ dst.1 ∧ dst.2 ≤ b.scratch)) code detail))

/-- An operation is over with a code; an `mcpy` answers for its receivers. -/
def finishCopy (c : CopyOp) (code detail : Nat) (s : State) : State :=
  if c.kind = .mcpy then
    let own := mcpyParts s c code detail
    let (st, s) := mcpyStatus c own code detail s
    setCopy c.id (fun c => { c with started := true, status := st, rcv := own }) s
  else endCopy c.id code detail s

/-- A chunk of an `mcpy` goes to each receiver whose bounds hold. -/
def multicast (c : CopyOp) (moves : List (Loc × Loc)) (s : State) : State :=
  let bs := moves.map (fun m => (locByte s m.1, m.2))
  ((mcpyParts s c 0 0).filter (fun r => statusCode r.2 == 0)).foldl (fun s r => bs.foldl (fun s m => match m.2 with
    | .sram _ off => sramWrite r.1 off [m.1] s
    | _ => s) s) s

/-- The reads and writes of one chunk, or what keeps the operation from them; after its last byte the operation is over. -/
def runCopy (c : CopyOp) (s : State) : State :=
  match planChunk s c with
  | .ok k =>
    let s := if c.kind = .mcpy then multicast c k.moves s
      else
        let (s, ws) := k.moves.foldl moveByte (s, [])
        engWrite 1 c.id c.ctx c.depth ws s
    let s := setCopy c.id (fun c => { c with done := c.done + k.len, gat := k.gat }) s
    if k.code ≠ 0 ∨ c.done + k.len ≥ copyBytes c.desc then finishCopy c k.code k.detail s else s
  | .error (.miss va acc) => engMiss (copyMaster s c) c.ctx va acc s
  | .error (.fault va acc) =>
    let (ok, s) := engFault (copyMaster s c) c.ctx va acc s
    if ok then setCopy c.id (fun c => { c with frozen := some (va, acc) }) s else s
  | .error (.violation m h) => freeze m c.ctx h s
  | .error .space => finishCopy c 0x20 0 s
  | .error .poison => finishCopy c 0x23 0 s
  | .error (.lost m) => finishCopy c 0x23 0 (linkLost c.ctx m s)
  | .error _ => s

/-- The descriptor of a host's copy is read once its page is resolved (R336, R397). -/
def describe (c : CopyOp) (s : State) : State :=
  let m := copyMaster s c
  match engHome s m c.ctx c.addr.toNat .read 64 with
  | .error (.miss va acc) => engMiss m c.ctx va acc s
  | .error (.fault va acc) =>
    let (ok, s) := engFault m c.ctx va acc s
    if ok then setCopy c.id (fun c => { c with frozen := some (va, acc) }) s else s
  | .error (.violation m h) => freeze m c.ctx h s
  | .error (.lost m) => finishCopy c 0x23 0 (linkLost c.ctx m s)
  | .error _ => s
  | .ok h =>
    if readPoisoned s h 64 then finishCopy c 0x23 0 s
    else setCopy c.id (fun x => { withDesc s (BitVec.ofNat 512 (leNat (homeBytes s h 64))) x with undescribed := false }) s

/-- An operation's turn. -/
def serveCopy (c : CopyOp) (s : State) : State :=
  if statusCode c.status ≠ 0 then finishCopy c (statusCode c.status) 0 s
  else if c.denied then finishCopy c 0x22 0 s
  else if c.undescribed then describe c s
  else if !c.accepted && (tileGone s c.bank || tileGone s c.srcBank) then finishCopy c 0x21 0 s
  else runCopy c (if c.accepted then s else setCopy c.id (fun c => { c with accepted := true }) (takeTiles c s))

/-- An operation that touches no scratch, tile or frame (R336). -/
def planeFree (c : CopyOp) : Bool := decide (c.kind ≠ .mcpy) && decide (c.kind ≠ .fgetb) && copySrcKind c.desc == 0 && copyDstKind c.desc == 0

/-- An operation may go on: it is a host's, touches nothing of a plane, or its plane is the active one and stays so (R336); one of the
incoming context waits in its queue until the engine image has been read (R364). -/
def opRuns (s : State) (c : CopyOp) : Bool :=
  decide (c.kind = .hostCopy) || (planeFree c && !(s.standby.engineDue && s.pl.ctx == some c.ctx)) || (s.pl.ctx == some c.ctx && s.swapEnd.isNone && !s.standby.engineDue)

/-- The next operation of a queue, in acceptance order: the engine serves one at a time to its end, sets aside those whose tiles are not
in the state they need, and waits for an acquire, a fault or a scratch that moves. -/
def nextCopy (s : State) (l : List CopyOp) : Option CopyOp :=
  let l := l.filter (fun c => !c.started && opRuns s c && !(c.undescribed && c.frozen.isSome))
  let may := fun (c : CopyOp) => if c.frozen.isSome || unserved s c.waitIds || opHeld s c then none else some c
  match l.find? (·.accepted) with
  | some c => may c
  | none => (l.find? (fun c => statusCode c.status != 0 || tilesReady s c)).bind may

/-- The operations that the engines go on with: the cluster's own, and those of other clusters that run a host copy. -/
def copiesToRun (s : State) : List CopyOp :=
  if s.cp.stopped then []
  else (((s.cl.copyQ.map (opCluster s)).eraseDups).filterMap (fun x => nextCopy s (s.cl.copyQ.filter (fun c => opCluster s c == x))))

def wakeQueue (u : Nat) (s : State) : State :=
  s.updThreads (fun t => decide (t.park = .queueFull u)) (fun t => { t with park := .none })

/-- An operation may end: its writes are acknowledged, and the time base has reached OPCT where REL is set (R229). -/
def copyOver (s : State) (c : CopyOp) : Bool := c.started && !engineOpen s 1 c.id && relMet s c.payload c.opct

/-- The effects of completion on the issuing plane: tiles, arrivals, the thread's result. -/
def copyPosts (c : CopyOp) (s : State) : State :=
  let s := if c.accepted then leaveTiles c (statusCode c.status == 0) s else s
  let s := match c.kind with
    | .mcpy => c.rcv.foldl (fun s (r : Nat × Word) => arriveEngine (some r.1) c.payload r.2 s) s
    | _ => arriveEngine c.block c.payload c.status s
  let s := s.asThread c.slot c.lane (fun s => s.updTh (fun t => t.arrive c.tag [c.status]))
  match c.block with
  | some h => if ((s.block? h).map (·.ended)).getD false then dropBlock h s else s
  | none => s

def completeCopy (id : Nat) (s : State) : State :=
  match s.cl.copyQ.find? (·.id == id) with
  | none => s
  | some c =>
    if !copyOver s c then s
    else
      let s := wakeQueue 1 { s with cl := { s.cl with copyQ := s.cl.copyQ.filter (·.id != id) } }
      if c.kind = .hostCopy then commandDone 0 { s with win := { s.win with cmdWord := c.status } }
      else s.inCtx c.ctx (copyPosts c)

/-- CPY (R332). -/
def execCpy (sw : Bool) (d a : BitVec 7) (p : Payload) (s : State) : Answer :=
  (fun (i0 : Ins) => runThread i0 (copyIssue i0 .cpy) s) ⟨packA sw 42 d a 0#7 0, p, .eng (.tile 0) 0 d a 0⟩

/-- MCPY (R334). -/
def execMcpy (sw : Bool) (d a b : BitVec 7) (p : Payload) (s : State) : Answer :=
  (fun (i0 : Ins) => runThread i0 (copyIssue i0 .mcpy) s) ⟨packA sw 42 d a b 1, p, .eng (.tile 0) 2 d a b⟩

/-- COPY_OP_START (R332): each engine moves up to 128 bytes in a cycle. -/
def execCopyOpStart (s : State) : Answer :=
  .next ((copiesToRun s).foldl (fun s c => if planeFree c then serveCopy c s else s.inCtx c.ctx (serveCopy c)) s)

/-- COPY_OP_COMPLETE (R332). -/
def execCopyOpComplete (id : Nat) (s : State) : Answer :=
  .next (completeCopy id s)

end Sys2Proof.Machine
end

