-- ==== Sys2Proof/Machine/Matrix.lean ====
section
/-! DEFINITION. The reservation table, its arbiter and its passes, the tile instructions of a stream and its control instructions: majors 0x30 to 0x34 (R280 to R323), and release points. -/

namespace Sys2Proof.Machine

open Sys2Proof

/-! ## Entries -/

def REntry.isFrozen (e : REntry) : Bool := e.frozenSwap || e.frozenFault.isSome

def setEntry (q : Nat) (f : REntry → REntry) (s : State) : State :=
  { s with cl := { s.cl with table := updIf (·.seq == q) f s.cl.table } }

def entryOf (s : State) (q : Nat) : Option REntry := s.cl.table.find? (·.seq == q)

/-- Runs `f` in the plane of a block. -/
def State.atBlock (s : State) (h : Nat) (f : State → State) : State :=
  if s.pl.blocks.any (·.handle == h) then f s
  else if s.standby.plane.blocks.any (·.handle == h) then s.inOther f
  else s

/-- The context that an entry's block belongs to. -/
def entryCtx (s : State) (e : REntry) : Nat := ((s.block? e.block).map (·.ctx)).getD 0

/-! ## Hazards (R281) -/

/-- What an operand names: a tile by its number, a frame of the cluster, or a layout slot. -/
def objOf (s : State) (e : REntry) (x : Nat × Win × List Nat) : Nat × Nat :=
  match x.2.1.kind with
  | 1 => (1, boundTile e x.1)
  | 2 => (2, frameNo s e x.2.1.idx)
  | _ => (3, x.2.1.idx)

def isTlay (e : REntry) : Bool := e.maj == 0x30 && e.f == 7

/-- Everything an entry names, and what it writes of that: a `tfree` writes its tile. -/
def namesOf (s : State) (e : REntry) : List (Nat × Nat) :=
  if isTlay e then [(3, e.dnum % 8)] else (operandKinds e).map (objOf s e)

def writesOf (s : State) (e : REntry) : List (Nat × Nat) :=
  if isTlay e then [(3, e.dnum % 8)]
  else ((operandKinds e).filter (fun x => x.1 == 0 && x.2.1.kind != 3)).map (objOf s e)

/-- No older entry of the context stands against the entry's first pass. -/
def hazardFree (s : State) (e : REntry) : Bool :=
  s.cl.table.all (fun o => o.ctx != e.ctx || decide (o.seq ≥ e.seq)
    || ((writesOf s o).all (fun x => !(namesOf s e).contains x) && (writesOf s e).all (fun x => !(namesOf s o).contains x)))

/-! ## Tiles (Table 9-3) -/

/-- What an operand does to its tile. -/
inductive TileUse where
  | fill | read | drain
  deriving DecidableEq, Repr

def tileUse (e : REntry) (pos : Nat) : TileUse :=
  match pos with
  | 0 => if e.f = 5 then .drain else .fill
  | _ => if e.maj = 0x30 ∧ (e.f = 1 ∨ e.f = 2) ∧ e.rel = true then .drain else .read

/-- The tile accepts the operand, where its state allows it. -/
def acceptTile (u : TileUse) (t : Tile) : Option Tile :=
  match u with
  | .fill => if t.st = .empty then some { t with st := .filling } else none
  | .read => if t.st = .ready ∧ t.readers < 63 then some { t with readers := t.readers + 1 } else none
  | .drain => if t.st = .ready ∧ t.readers = 0 then some { t with st := .draining } else none

/-- The operand's use ends: with status 0 or another, or undone because the entry failed a check (R297). -/
def leaveTile (u : TileUse) (ok undone : Bool) (t : Tile) : Tile :=
  match u with
  | .fill => { t with st := if ok then .ready else .empty }
  | .read => { t with readers := t.readers - 1 }
  | .drain => { t with st := if undone then .ready else .empty }

/-- The operand positions that are tiles. -/
def tilePoss (e : REntry) : List Nat := ((operandKinds e).filter (fun x => x.2.1.kind == 1)).map (·.1)

def tileOfKey (s : State) (k : Nat) : Option Tile := s.pl.tiles.find? (·.key == k)

/-! ## The end of an entry (R288, R290, R297) -/

/-- The mask and phase of an entry go to its context (R290). -/
def postMask (e : REntry) (s : State) : State :=
  s.updSeqs (fun q => q.n == e.ctx) (fun q => { q with mtmask := e.done, mtph := e.phase })

/-- What the context keeps of a completed entry: its mask, its status where it is not zero, its OPCT, and the result of `tstc`. -/
def postEntry (e : REntry) (s : State) : State :=
  (postMask e s).updSeqs (fun q => q.n == e.ctx) (fun q =>
    let q := { q with last := if e.status = 0 then q.last else e.status, opct := max q.opct e.opct }
    match e.tag with
    | none => q
    | some t => match e.res with
      | some v => q.arrive t v
      | none => ({ q with pend := q.pend.filter (·.tag != t) }).settle)

/-- An entry completes: its tiles, its arrival, its status; the table has room again. -/
def closeEntry (undone : Bool) (e : REntry) (s : State) : State :=
  let e := { e with status := if e.status = 0 then engStatus 0 e.n 0 0 else e.status }
  let ok := statusCode e.status == 0
  let s := e.taken.foldl (fun s p => updTile (boundTile e p) (leaveTile (tileUse e p) ok undone) s) s
  let s := { s with cl := { s.cl with table := s.cl.table.filter (·.seq != e.seq) } }
  let s := postEntry e s
  let s := s.updBlock e.block (fun b => { b with bct := max b.bct e.opct })
  let s := arriveEngine (some e.block) e.payload e.status s
  let s := s.updSeqs (fun q => decide (q.park = .tableFull)) (fun q => { q with park := .none })
  let s := settleStop e.ctx s
  if ((s.block? e.block).map (·.ended)).getD false then dropBlock e.block s else s

/-- A failed check: the entry completes with the check's status, in the order of its cycle's completions (R297, R149). -/
def failEntry (e : REntry) (code detail : Nat) (s : State) : State :=
  setEntry e.seq (fun _ => { e with status := engStatus code e.n 0 detail, undone := true, stage := .releasing }) s

/-- The last pass is over: the entry completes once its writes are acknowledged and, with REL, the time base has reached OPCT. -/
def finishEntry (q : Nat) (s : State) : State := setEntry q (fun e => { e with stage := .releasing }) s

/-! ## Acceptance and checks (R280, R297) -/

/-- The pass needs memory that is fetched first: operands in memory, a layout record, shared-value rows. -/
def needsFetch (e : REntry) : Bool :=
  isTlay e || e.maj == 0x33 || (operandKinds e).any (fun x => x.1 != 0 && x.2.1.kind == 3)

/-- Tiles that are in the state the entry needs accept it, in operand order. -/
def acceptEntry (e : REntry) (s : State) : State :=
  (tilePoss e).foldl (fun s p =>
    if e.taken.contains p then s
    else match (tileOfKey s (boundTile e p)).bind (acceptTile (tileUse e p)) with
      | some t => setEntry e.seq (fun e => { e with taken := e.taken ++ [p] }) (updTile t.key (fun _ => t) s)
      | none => s) s

/-- Where an entry may go from here without a pass: acceptance, its checks, its first stage. -/
def settleEntry (q : Nat) (s : State) : State :=
  match entryOf s q with
  | none => s
  | some e =>
    if e.isFrozen || !(decide (e.stage = .waiting) || decide (e.stage = .accepted)) then s
    else if (tilePoss e).any (fun p => !e.taken.contains p && (tileOfKey s (boundTile e p)).isNone) then failEntry e stShape 0 s
    else
      let s := acceptEntry e s
      let e := (entryOf s q).getD e
      match (if !e.checked && hazardFree s e then some (entryFail s e) else none) with
      | some (some (c, d)) => failEntry e c d s
      | r =>
        let e := { e with checked := e.checked || r.isSome }
        let all := (tilePoss e).all e.taken.contains
        if !(all && e.checked) then setEntry q (fun _ => e) s
        else if e.denied then finishEntry q (setEntry q (fun _ => { e with status := if e.status = 0 then engStatus 9 e.n 0 ((nextTile e).getD 0) else e.status }) s)
        else if (nextTile e).isNone then finishEntry q (setEntry q (fun _ => e) s)
        else setEntry q (fun _ => { e with stage := if needsFetch e then .accepted else .fetched }) s

/-- Every entry of the table, the oldest first. -/
def settleTable (s : State) : State :=
  (s.cl.table.map (fun e => (e.seq, e.block))).foldl (fun s x => s.atBlock x.2 (settleEntry x.1)) s

/-! ## Issue (R277, R280, R294) -/

/-- The alignment of an address that the sequencer checks at issue, of a pair of an address and its alignment. -/
def addrStop : List (DWord × Nat) → Option Nat
  | [] => none
  | (v, al) :: t => if !canonical v then some 4 else if v.toNat % al ≠ 0 then some 3 else addrStop t

/-- The addresses that a member carries. -/
def memberAddrs (maj f : Nat) (av bv : DWord) : List (DWord × Nat) :=
  match maj, f with
  | 0x30, 2 => [(bv, 16)]
  | 0x30, 7 => [(av, 32)]
  | 0x33, _ => [(av, 8)]
  | _, _ => []

/-- Entries of the reservation table held back for the contexts that a restored plane brings (R364). -/
def entriesHeld (s : State) : Nat := if s.standby.engineDue then s.standby.entries.length else 0

/-- The reservation table has an entry for a context, which holds fewer than 16 (R277). -/
def tableRoomOf (s : State) (n : Nat) : Bool :=
  decide (s.cl.table.length + entriesHeld s < 32) && decide ((s.cl.table.filter (·.ctx == n)).length < 16)

def tableRoom (s : State) : Bool := tableRoomOf s s.sq.n

/-- An operation converts under a dither phase (R42, R304). DESIGN CHOICE (log entry 76): every `tcvt` and every `tst` from a frame under
rounding code 5 counts, whether or not its formats need a rounding and whether or not its checks pass later. -/
def takesPhase (e : REntry) : Bool :=
  e.rnd == 5 && e.maj == 0x30 && (e.f == 6 || (e.f == 1 && e.a.kind == 2))

/-- The entry that an instruction of the acting context makes. -/
def newEntry (maj f dnum : Nat) (dv av bv : DWord) (p : BitVec 25) (s : State) : REntry :=
  let b := s.block? s.sq.block
  let e : REntry :=
    { n := (firstFree (s.cl.table.map (·.n)) 32).getD 0, maj := maj, f := f, dnum := dnum, dv := dv, av := av, bv := bv, payload := p
      ctx := s.sq.n, block := s.sq.block, fmt := s.sq.fmt, issued := s.clock.cycle, seq := s.cl.nextSeq
      prio := (b.map (·.prio)).getD 0, depth := (b.map (·.depth)).getD 0, phase := s.sq.dph }
  { e with
    phase := if e.resumed then s.sq.mtph else s.sq.dph
    done := if e.resumed then s.sq.mtmask else 0
    banks := (operandKinds e).filterMap (fun x => if x.2.1.kind = 1 then (tileAt s e.block x.2.1.idx).map (fun t => (x.1, t.key)) else none) }

/-- A tile instruction becomes an entry. -/
def issueEntry (i : Ins) (e : REntry) (s : State) : State :=
  let (ids, s) := acquireWriteBack e.payload none s
  let (tag, s) := if e.maj == 0x30 && e.f == 2 then (fun (x : Nat × State) => (some x.1, x.2)) (addResultS [(e.dnum, 0)] 40 none false s) else (none, s)
  let e := { e with waitIds := ids, tag := tag }
  let dph := if takesPhase e && !e.resumed then (s.sq.dph + 1) % 64 else s.sq.dph
  let s := { s with sq := { s.sq with dph := dph }, cl := { s.cl with table := s.cl.table ++ [e], nextSeq := s.cl.nextSeq + 1 } }
  let s := if !kindsOk s e then failEntry e stShape 0 s else if !fmtOk e then failEntry e stFmt 0 s else settleEntry e.seq s
  finishS i s

/-- A member of majors 0x30 to 0x33; `d`, `a` and `b` are the c registers it names. -/
def tileIssue (i : Ins) (maj f dnum : Nat) (d a b : BitVec 7) (s : State) : State :=
  let c := fun (r : BitVec 7) => readC s.sq r.toNat
  if !tableRoom s then { s with sq := { s.sq with park := .tableFull } }
  else match addrStop (memberAddrs maj f (c a) (c b)) with
    | some k => stopStream k s
    | none => issueEntry i (newEntry maj f dnum (c d) (c a) (c b) (i.p.getD 0) s) s

/-! ## The tile fetch unit (R284) -/

/-- The core's writes to a list of lines that no answer has come for. -/
def writesPending (s : State) (ls : List Nat) : Bool :=
  s.pl.net.any (fun m => match m.body with
    | .write _ => ls.contains (bodyLine m.body)
    | _ => false)

/-- An operation meets poison (R288, R357). -/
def poisonEntry (e : REntry) (s : State) : State :=
  finishEntry e.seq (setEntry e.seq (fun e => { e with status := if e.status = 0 then engStatus 10 e.n 0 ((nextTile e).getD 0) else e.status }) s)

/-- What stops a pass short of its end: a translation its TLB lacks is walked for (R374), a page fault freezes the entry (R293), a violation the engine (R359); a page reported
unresolvable ends it (R288). -/
def entryStop (e : REntry) (x : EStop) (s : State) : State :=
  let c := entryCtx s e
  match x with
  | .fault va acc =>
    let (ok, s) := engFault (masterEngine s 0) c va acc s
    if ok then setEntry e.seq (fun e => { e with frozenFault := some (va, acc), stage := .accepted }) s else setEntry e.seq (fun e => { e with stage := .accepted }) s
  | .violation m h => freeze m c h (setEntry e.seq (fun e => { e with stage := .accepted }) s)
  | .poison => poisonEntry e s
  | .lost m => poisonEntry e (linkLost c m s)
  | .miss va acc => engMiss (masterEngine s 0) c va acc (setEntry e.seq (fun e => { e with stage := .accepted }) s)
  | _ => setEntry e.seq (fun e => { e with stage := .accepted }) s

/-- Two lines of one set of one slice. -/
def sameSet (a b : Nat) : Bool :=
  homeSlice (a * 128) == homeSlice (b * 128) && Config.sliceSet a % 1024 == Config.sliceSet b % 1024

/-- The fetch unit pins a line of device memory that entry `q` fetches, where fewer than 4 others of its set are pinned; the line is then in
its slice (R284). -/
def pinLine (q l : Nat) (s : State) : State :=
  if isX (l * 128) then s
  else
    let s := setLineRec l (lineRec s l) s
    if decide (((pinnedLines s).eraseDups.filter (fun x => x != l && sameSet x l)).length < 4) then
      setEntry q (fun e => { e with pins := if e.pins.contains l then e.pins else e.pins ++ [l] }) s
    else s

/-- Fetches what the entry's next micro-tile reads in memory: the core's dirty bytes of those lines are written back first, and the lines are
pinned until the entry completes. -/
def fetchTile (e : REntry) (s : State) : State :=
  match nextTile e with
  | none => s
  | some u =>
    let r := (passBody s (homeReader s (masterEngine s 0) (entryCtx s e) false) e u).goBytes
    match r.1 with
    | .error x => entryStop e x s
    | .ok _ =>
      let ls := r.2.lines.eraseDups
      let (ids, s) := writeBackAll (fun l => ls.contains l.line) .evict s
      if !ids.isEmpty || writesPending s ls then s
      else setEntry e.seq (fun e => { e with snap := soSetAll [] r.2.bytes, stage := .fetched }) (ls.foldl (fun s l => pinLine e.seq l s) s)

/-- TILE_FETCH for entry `n` of the table. -/
def tileFetchStep (n : Nat) (s : State) : State :=
  match s.cl.table.find? (·.n == n) with
  | none => s
  | some e =>
    if e.isFrozen || e.denied || !e.checked || decide (e.stage ≠ .accepted) || unserved s e.waitIds || isFrozen s (masterEngine s 0) then s
    else s.atBlock e.block (fetchTile e)

/-! ## The arbiter (R282) -/

/-- The entry runs on the tile port, not on the array (R317). -/
def onPort (e : REntry) : Bool := e.maj == 0x30 || (e.maj == 0x32 && e.f == 6)

def running (e : REntry) : Bool := match e.stage with | .inPass _ => true | _ => false

/-- The pass writes memory. -/
def storesMem (e : REntry) : Bool := e.maj == 0x30 && (e.f == 1 || e.f == 2)

def eligible (s : State) (e : REntry) : Bool :=
  decide (e.stage = .fetched) && e.checked && !e.isFrozen && hazardFree s e && !(storesMem e && isFrozen s (masterEngine s 0))
  && !unserved s e.waitIds

/-- Effective priority. -/
def entryPrio (now : Nat) (e : REntry) : Nat := min 3 (e.prio + (now - e.issued - e.stood) / 16384)

/-- Whether `a` goes before `b`. -/
def entryFirst (now : Nat) (a b : REntry) : Bool :=
  let x := entryPrio now a
  let y := entryPrio now b
  decide (x > y) || (x == y && (decide (a.issued < b.issued) || (a.issued == b.issued && decide (a.n < b.n))))

def bestEntry (now : Nat) : List REntry → Option REntry
  | [] => none
  | e :: t => match bestEntry now t with
    | none => some e
    | some f => if entryFirst now f e then some f else some e

/-- Grants one pass on the port, or on the array, where it is idle. -/
def grantOn (port : Bool) (s : State) : State :=
  if s.cl.table.any (fun e => onPort e == port && running e) then s
  else match bestEntry s.clock.cycle (s.cl.table.filter (fun e => onPort e == port && eligible s e)) with
    | none => s
    | some e => match nextTile e with
      | none => s
      | some u => setEntry e.seq (fun e => { e with stage := .inPass (s.clock.cycle + passCycles s e u) }) s

def grantStep (s : State) : State := grantOn true (grantOn false (settleTable s))

/-! ## The end of a pass (R290) -/

/-- The memory bytes of a list of writes with their homes, on top of those in `m`; bytes written in part keep the rest. -/
def homeWrites (s : State) (c : Nat) (m : List (Nat × Byte)) : List EWrite → Except EStop (List (Nat × Byte))
  | [] => .ok m
  | w :: t => match w.place with
    | .mem va => do
      let h ← engHome s (masterEngine s 0) c va .write 1
      let old := (soGet m h).getD (homeByte s h)
      homeWrites s c (soSet m h ((old &&& ~~~w.mask) ||| (w.val &&& w.mask))) t
    | _ => homeWrites s c m t

/-- The bytes of tiles and frames. -/
def applyLocal (w : EWrite) (s : State) : State :=
  match w.place with
  | .tile key off => sramWrite key off [(sramByte s.pl.sram key off &&& ~~~w.mask) ||| (w.val &&& w.mask)] s
  | .frame k => { s with cl := { s.cl with frames := setBytes s.cl.frames [(k, (getByte s.cl.frames k &&& ~~~w.mask) ||| (w.val &&& w.mask))] } }
  | .mem _ => s

/-- A pass may be held back by the fetch unit or by an M bank (R286): it reads memory, or names a tile. -/
def mayConflict (e : REntry) : Bool := needsFetch e || !(tilePoss e).isEmpty

/-- The cycles that conflicts held a pass back for, where the pass may meet one: a free number (log entry 35). -/
def countConflicts (e : REntry) (s : State) : State :=
  if mayConflict e then
    let (i, s) := s.draw
    s.updSeqs (fun q => q.n == e.ctx) (fun q => { q with tbconf := q.tbconf + BitVec.ofNat 64 (Config.freeDelay i) })
  else s

/-- Everything a pass has computed takes effect. -/
def applyPass (e : REntry) (u : Nat) (o : PassOut) (ws later : List (Nat × Byte)) (s : State) : State :=
  let c := entryCtx s e
  let s := engWrite 0 e.seq c e.depth ws (o.writes.foldl (fun s w => applyLocal w s) s)
  let s := { s with cl := { s.cl with vectors := stSetAll 0 s.cl.vectors o.vecs } }
  let s := match o.slot with
    | some (n, r) => s.updSeqs (fun q => q.n == e.ctx) (fun q => { q with layouts := stSet 0 q.layouts n r })
    | none => s
  let s := countConflicts e s
  let e := { e with
    done := if o.stop then e.done else e.done ||| (1#64 <<< u)
    status := if e.status = 0 ∧ o.code ≠ 0 then engStatus o.code e.n 0 o.detail else e.status
    later := later, res := if o.result.isSome then o.result else e.res, snap := []
    stage := if needsFetch e then .accepted else .fetched }
  let s := postMask e (setEntry e.seq (fun _ => e) s)
  if o.stop || (nextTile e).isNone then finishEntry e.seq s else s

/-- The pass of an entry ends. -/
def endPass (e : REntry) (s : State) : State :=
  match nextTile e with
  | none => finishEntry e.seq s
  | some u =>
    match (passBody s (snapReader e.snap) e u).go.1 with
    | .error x => entryStop e x s
    | .ok o =>
      let c := entryCtx s e
      match homeWrites s c [] o.writes, homeWrites s c [] o.later with
      | .ok ws, .ok later => applyPass e u o ws later s
      | .error x, _ => entryStop e x s
      | _, .error x => entryStop e x s

/-- PASS_END: passes whose cycles are over, the oldest entry first. -/
def passEndStep (s : State) : State :=
  (s.cl.table.filter (fun e => match e.stage with | .inPass t => decide (t ≤ s.clock.cycle) | _ => false)).foldl (fun s e =>
    s.atBlock e.block (endPass e)) s

/-- ENGINE_RELEASE: an entry that has failed a check, or that waits for its acknowledgements, the last bytes of a `tstc`, or its OPCT. -/
def releaseEntry (e : REntry) (s : State) : State :=
  if e.undone then closeEntry true e s
  else if engineOpen s 0 e.seq then s
  else if !e.later.isEmpty then setEntry e.seq (fun e => { e with later := [] }) (engWrite 0 e.seq (entryCtx s e) e.depth e.later s)
  else if relMet s e.payload e.opct then closeEntry false e s
  else s

def releaseStepE (n : Nat) (s : State) : State :=
  match s.cl.table.find? (·.n == n) with
  | none => s
  | some e => if e.stage = .releasing then s.atBlock e.block (releaseEntry e) else s

/-! ## Sequencer control: major 0x34 (R318 to R322) -/

/-- `sbar.init`: a trap case of `nb.init` stops the stream. -/
def sbarInitOp (i : Ins) (n : BitVec 4) (a : BitVec 7) (s : State) : State :=
  match s.block? s.sq.block with
  | none => stopStream stopIllegal s
  | some b =>
    let v := (readC s.sq a.toNat).toNat
    match initFail s b n.toNat v with
    | some _ => stopStream stopIllegal s
    | none => finishS i (initBar b n.toNat v s)

def sbarWaitOp (i : Ins) (n : BitVec 4) (o : Opnds) (a : BitVec 7) (s : State) : State :=
  match s.block? s.sq.block with
  | none => stopStream stopIllegal s
  | some b =>
    let r := barOf b n.toNat
    let token := (readC s.sq a.toNat).toNat % 65536
    if r.phase ≠ token then resultS i o (r.last.zeroExtend 64) 4 4 s else holdS i (.barWait n.toNat token (o.pd.getD 0)) s

def xrdOp (i : Ins) (k : BitVec 3) (o : Opnds) (e : BitVec 7) (s : State) : State :=
  let want := (readC s.sq e.toNat).toNat % 2 ^ 32
  if xrdReady (stGet 0 s.sq.xseq k.toNat) want then resultS i o (stGet 0 s.sq.xval k.toNat) 4 4 s
  else holdS i (.xrd k.toNat want (o.pd.getD 0)) s

def sfenceOp (i : Ins) (c m : BitVec 3) (s : State) : State :=
  holdS i (.sfence c.toNat m ((s.cl.table.filter (·.ctx == s.sq.n)).map (·.seq))) s

/-- `send` (R322). -/
def sendOp (s : State) : State :=
  settleSeq s.sq.n { s with sq := { s.sq with stop := 1, park := .none } }

/-- `MSTAT` of the acting context (Table 14-5). -/
def mstat (s : State) : DWord :=
  let n := (s.cl.table.filter (·.ctx == s.sq.n)).length
  BitVec.ofNat 64 (s.sq.mtph % 64 * 2 ^ 56 + s.sq.dph % 64 * 2 ^ 50 + s.sq.stop * 2 ^ 40 + n * 2 ^ 32 + s.sq.last.toNat)

def sstatValue (s : State) (e : Nat) : DWord :=
  match e with
  | 0 => mstat s
  | 1 => s.sq.tbconf
  | _ => s.sq.mtmask

/-! ## Release points (R219, R221, R319, R321) -/

/-- The loads of a stream have been served and its writes are acknowledged. -/
def streamQuiet (s : State) (n : Nat) : Bool :=
  s.pl.net.all (fun m => match m.body with
    | .fill f => f.reply.isSome || !f.waits.any (fun w => w.stream == some n)
    | .write w => (match w.writer with | .stream k _ _ => k != n | _ => true)
    | _ => true)

/-- The arrival of the acting stream. -/
def streamArrive (n dst : Nat) (s : State) : State :=
  match s.block? s.sq.block with
  | none => stopStream stopIllegal s
  | some b =>
    let token := (barOf b n).phase
    match arriveBar b.handle n 0 none s with
    | none => stopStream stopIllegal s
    | some s => resumeWithS dst (BitVec.ofNat 64 token) 4 s

/-- A release by a stream at `scope` with `mask`, whose own accesses are served: the core's dirty lines narrower than the scope are
written back, and the time base reaches EPCT (R219, conditions 3 and 4). -/
def streamRelease (scope : Nat) (mask : BitVec 3) (s : State) : Bool × State :=
  let (ids, s) := if mask.getLsbD 1 then writeBackAll (fun l => decide (l.scope < scope)) .evict s else ([], s)
  (ids.isEmpty && (!mask.getLsbD 1 || backsMet s scope) && (mask.extractLsb' 1 2 == 0 || (!evictsOpen s && decide (s.clock.tbase ≥ s.epct))), s)

/-- The release point of a stream. -/
def streamPoint (s : State) : State :=
  let q := s.sq
  match q.park with
  | .barArrive n dst =>
    if streamQuiet s q.n && decide (s.clock.tbase ≥ q.spct) then
      let (ok, s) := streamRelease 2 0b011 s
      if ok then streamArrive n dst s else s
    else s
  | .sfence scope mask ents =>
    if streamQuiet s q.n && decide (s.clock.tbase ≥ max q.spct q.opct) && !s.cl.table.any (fun e => ents.contains e.seq) then
      let (ok, s) := streamRelease scope mask s
      if ok then { s with sq := q.resume } else s
    else s
  | _ => s

/-- The release point of the acting thread: a fence, a barrier arrival or a crossing arrival. -/
def threadPoint (s : State) : State :=
  let t := s.th
  match t.park with
  | .fence _ rel scope mask =>
    let (ok, s) := if rel then releaseStep t.uid s.nextId scope mask none s else (!readsOpen s (t.pend.map (·.tag)) mask, s)
    if ok then s.updTh Thread.resume else s
  | .arrive n dst meet =>
    let (ok, s) := releaseStep t.uid s.nextId 2 0b011 none s
    if ok then applyArrive n dst meet s else s
  | .xredRel op k v mask =>
    let (ok, s) := releaseStep t.uid s.nextId 4 0b011 none s
    if ok then applyXred op k v mask s else s
  | _ => s

/-- The stores and puts of the acting thread's slot and lane that wait for their release points. -/
def queuedPoint (slot lane : Nat) (s : State) : State :=
  let s := match s.pl.storeQ.find? (fun q => q.slot == slot && q.lane == lane) with
    | some q => stepQueued q s
    | none => s
  match s.pl.puts.find? (fun q => q.slot == slot && q.lane == lane) with
  | some q => stepPut q s
  | none => s

/-- The release points of an agent: those of its waiting writes come first, since it issued them before the instruction it is parked in. -/
def pointStep (who : Agent) (s : State) : State :=
  match who with
  | .stream n => s.asSeq n streamPoint
  | .thread slot lane =>
    let f := fun (k : Nat) (s : State) => (queuedPoint k lane s).asThread k lane threadPoint
    if slot < 64 then f slot s else s.inOther (f (slot - 64))

/-- TLD (R300). -/
def execTld (sw : Bool) (d a : BitVec 7) (p : Payload) (s : State) : Answer :=
  (fun (i0 : Ins) => runStream i0 (fun _ => tileIssue i0 0x30 0 0 d a 0#7) s) ⟨packA sw 48 d a 0#7 0, p, .tile 0x800 [d, a]⟩

/-- TST (R301). -/
def execTst (sw : Bool) (d a : BitVec 7) (p : Payload) (s : State) : Answer :=
  (fun (i0 : Ins) => runStream i0 (fun _ => tileIssue i0 0x30 1 0 d a 0#7) s) ⟨packA sw 48 d a 0#7 1, p, .tile 0x800 [d, a]⟩

/-- TSTC (R302). -/
def execTstc (sw : Bool) (d a b : BitVec 7) (p : Payload) (s : State) : Answer :=
  (fun (i0 : Ins) => runStream i0 (fun _ => tileIssue i0 0x30 2 d.toNat d a b) s) ⟨packA sw 48 d a b 2, p, .tile 0x800 [d, a, b]⟩

/-- TZERO (R303). -/
def execTzero (sw : Bool) (d : BitVec 7) (p : Payload) (s : State) : Answer :=
  (fun (i0 : Ins) => runStream i0 (fun _ => tileIssue i0 0x30 3 0 d 0#7 0#7) s) ⟨packA sw 48 d 0#7 0#7 3, p, .tile 0x81f [d]⟩

/-- TMOV (R303). -/
def execTmov (sw : Bool) (d a : BitVec 7) (p : Payload) (s : State) : Answer :=
  (fun (i0 : Ins) => runStream i0 (fun _ => tileIssue i0 0x30 4 0 d a 0#7) s) ⟨packA sw 48 d a 0#7 4, p, .tile 0x80f [d, a]⟩

/-- TFREE (R303). -/
def execTfree (sw : Bool) (d : BitVec 7) (p : Payload) (s : State) : Answer :=
  (fun (i0 : Ins) => runStream i0 (fun _ => tileIssue i0 0x30 5 0 d 0#7 0#7) s) ⟨packA sw 48 d 0#7 0#7 5, p, .tile 0x800 [d]⟩

/-- TCVT (R304). -/
def execTcvt (sw : Bool) (d a : BitVec 7) (p : Payload) (s : State) : Answer :=
  (fun (i0 : Ins) => runStream i0 (fun _ => tileIssue i0 0x30 6 0 d a 0#7) s) ⟨packA sw 48 d a 0#7 6, p, .tile 0x83f [d, a]⟩

/-- TLAY (R305). -/
def execTlay (sw : Bool) (n : BitVec 3) (a : BitVec 7) (p : Payload) (s : State) : Answer :=
  (fun (i0 : Ins) => runStream i0 (fun _ => tileIssue i0 0x30 7 n.toNat 0#7 a 0#7) s) ⟨packA sw 48 (0#4 ++ n) a 0#7 7, p, .tile 0x800 [a]⟩

/-- MMA (R306). -/
def execMma (sw : Bool) (d a b : BitVec 7) (p : Payload) (s : State) : Answer :=
  (fun (i0 : Ins) => runStream i0 (fun _ => tileIssue i0 0x31 0 0 d a b) s) ⟨packA sw 49 d a b 0, p, .tile 0x800 [d, a, b]⟩

/-- MMAN (R306). -/
def execMman (sw : Bool) (d a b : BitVec 7) (p : Payload) (s : State) : Answer :=
  (fun (i0 : Ins) => runStream i0 (fun _ => tileIssue i0 0x31 1 0 d a b) s) ⟨packA sw 49 d a b 1, p, .tile 0x800 [d, a, b]⟩

/-- MMS (R306). -/
def execMms (sw : Bool) (d a b : BitVec 7) (p : Payload) (s : State) : Answer :=
  (fun (i0 : Ins) => runStream i0 (fun _ => tileIssue i0 0x31 2 0 d a b) s) ⟨packA sw 49 d a b 2, p, .tile 0x800 [d, a, b]⟩

/-- TLU (R308). -/
def execTlu (sw : Bool) (d : BitVec 7) (p : Payload) (s : State) : Answer :=
  (fun (i0 : Ins) => runStream i0 (fun _ => tileIssue i0 0x32 0 0 d 0#7 0#7) s) ⟨packA sw 50 d 0#7 0#7 0, p, .tile 0x800 [d]⟩

/-- TCHOL (R309). -/
def execTchol (sw : Bool) (d : BitVec 7) (p : Payload) (s : State) : Answer :=
  (fun (i0 : Ins) => runStream i0 (fun _ => tileIssue i0 0x32 1 0 d 0#7 0#7) s) ⟨packA sw 50 d 0#7 0#7 1, p, .tile 0x800 [d]⟩

/-- TQR (R310). -/
def execTqr (sw : Bool) (d : BitVec 7) (p : Payload) (s : State) : Answer :=
  (fun (i0 : Ins) => runStream i0 (fun _ => tileIssue i0 0x32 2 0 d 0#7 0#7) s) ⟨packA sw 50 d 0#7 0#7 2, p, .tile 0x800 [d]⟩

/-- TTRSL (R311). -/
def execTtrsl (sw : Bool) (d a : BitVec 7) (p : Payload) (s : State) : Answer :=
  (fun (i0 : Ins) => runStream i0 (fun _ => tileIssue i0 0x32 3 0 d a 0#7) s) ⟨packA sw 50 d a 0#7 3, p, .tile 0x800 [d, a]⟩

/-- TTRSU (R311). -/
def execTtrsu (sw : Bool) (d a : BitVec 7) (p : Payload) (s : State) : Answer :=
  (fun (i0 : Ins) => runStream i0 (fun _ => tileIssue i0 0x32 4 0 d a 0#7) s) ⟨packA sw 50 d a 0#7 4, p, .tile 0x800 [d, a]⟩

/-- TTRSN (R311). -/
def execTtrsn (sw : Bool) (d a : BitVec 7) (p : Payload) (s : State) : Answer :=
  (fun (i0 : Ins) => runStream i0 (fun _ => tileIssue i0 0x32 5 0 d a 0#7) s) ⟨packA sw 50 d a 0#7 5, p, .tile 0x800 [d, a]⟩

/-- TPERM (R312). -/
def execTperm (sw : Bool) (d a : BitVec 7) (p : Payload) (s : State) : Answer :=
  (fun (i0 : Ins) => runStream i0 (fun _ => tileIssue i0 0x32 6 0 d a 0#7) s) ⟨packA sw 50 d a 0#7 6, p, .tile 0x801 [d, a]⟩

/-- TQAPP (R313). -/
def execTqapp (sw : Bool) (d a : BitVec 7) (p : Payload) (s : State) : Answer :=
  (fun (i0 : Ins) => runStream i0 (fun _ => tileIssue i0 0x32 7 0 d a 0#7) s) ⟨packA sw 50 d a 0#7 7, p, .tile 0x800 [d, a]⟩

/-- TQAPPT (R313). -/
def execTqappt (sw : Bool) (d a : BitVec 7) (p : Payload) (s : State) : Answer :=
  (fun (i0 : Ins) => runStream i0 (fun _ => tileIssue i0 0x32 8 0 d a 0#7) s) ⟨packA sw 50 d a 0#7 8, p, .tile 0x800 [d, a]⟩

/-- SVMV (R316). -/
def execSvmv (sw : Bool) (d a b : BitVec 7) (p : Payload) (s : State) : Answer :=
  (fun (i0 : Ins) => runStream i0 (fun _ => tileIssue i0 0x33 0 0 d a b) s) ⟨packA sw 51 d a b 0, p, .tile 0x800 [d, a, b]⟩

/-- SVMM (R316). -/
def execSvmm (sw : Bool) (d a b : BitVec 7) (p : Payload) (s : State) : Answer :=
  (fun (i0 : Ins) => runStream i0 (fun _ => tileIssue i0 0x33 1 0 d a b) s) ⟨packA sw 51 d a b 1, p, .tile 0x800 [d, a, b]⟩

/-- SBAR_INIT (R318). -/
def execSbarInit (sw : Bool) (a : BitVec 7) (n : BitVec 4) (s : State) : Answer :=
  (fun (i0 : Ins) => runStream i0 (fun _ => sbarInitOp i0 n a) s) ⟨packA sw 52 0#7 a (0#3 ++ n) 0, none, .seq [⟨a, 1, .src, .a⟩]⟩

/-- SBAR_ARRIVE (R319). -/
def execSbarArrive (sw : Bool) (d : BitVec 7) (n : BitVec 4) (s : State) : Answer :=
  (fun (i0 : Ins) => runStream i0 (fun o => holdS i0 (.barArrive n.toNat (o.pd.getD 0))) s) ⟨packA sw 52 d 0#7 (0#3 ++ n) 1, none, .seq [⟨d, 1, .dst, .d⟩]⟩

/-- SBAR_WAIT (R318). -/
def execSbarWait (sw : Bool) (d a : BitVec 7) (n : BitVec 4) (s : State) : Answer :=
  (fun (i0 : Ins) => runStream i0 (fun o => sbarWaitOp i0 n o a) s) ⟨packA sw 52 d a (0#3 ++ n) 2, none, .seq [⟨d, 1, .dst, .d⟩, ⟨a, 1, .src, .a⟩]⟩

/-- XRD (R320). -/
def execXrd (sw : Bool) (d : BitVec 7) (k : BitVec 3) (e : BitVec 7) (s : State) : Answer :=
  (fun (i0 : Ins) => runStream i0 (fun o => xrdOp i0 k o e) s) ⟨packA sw 52 d (4#4 ++ k) e 3, none, .seq [⟨d, 1, .dst, .d⟩, ⟨e, 1, .src, .b⟩]⟩

/-- SFENCE (R321). -/
def execSfence (sw : Bool) (c m : BitVec 3) (s : State) : Answer :=
  (fun (i0 : Ins) => runStream i0 (fun _ => sfenceOp i0 c m) s) ⟨packA sw 52 0#7 0#7 (c ++ m ++ 0#1) 4, none, .seq [] (decide (m ≠ 0))⟩

/-- SEND (R322). -/
def execSend (sw : Bool) (s : State) : Answer :=
  (fun (i0 : Ins) => runStream i0 (fun _ => sendOp) s) ⟨packA sw 52 0#7 0#7 0#7 5, none, .seq []⟩

/-- SSTAT (R318). -/
def execSstat (sw : Bool) (d e : BitVec 7) (s : State) : Answer :=
  (fun (i0 : Ins) => runStream i0 (fun o s => resultS i0 o (sstatValue s e.toNat) 4 4 s) s) ⟨packA sw 52 d 0#7 e 6, none, .seq [⟨d, 1, .dst, .d⟩] (decide (e.toNat < 3))⟩

/-- SETFMT (R318). -/
def execSetfmt (sw : Bool) (a : BitVec 7) (s : State) : Answer :=
  (fun (i0 : Ins) => runStream i0 (fun _ s => finishS i0 { s with sq := { s.sq with fmt := (readC s.sq a.toNat).truncate 32 } }) s) ⟨packA sw 52 0#7 a 0#7 7, none, .seq [⟨a, 1, .src, .a⟩]⟩

/-- PASS_GRANT (R282). -/
def execPassGrant (s : State) : Answer :=
  .next (grantStep s)

/-- PASS_END (R290). -/
def execPassEnd (s : State) : Answer :=
  .next (passEndStep s)

/-- ENGINE_RELEASE (R291). -/
def execEngineRelease (n : Nat) (s : State) : Answer :=
  .next (releaseStepE n s)

/-- TILE_FETCH (R284). -/
def execTileFetch (n : Nat) (s : State) : Answer :=
  .next (tileFetchStep n s)

/-- RELEASE_POINT (R219). -/
def execReleasePoint (who : Agent) (s : State) : Answer :=
  .next (pointStep who s)

end Sys2Proof.Machine
end

