-- ==== Sys2Proof/Machine/Swap.lean ====
section
/-! DEFINITION. The plane swap, the save and the restore of a context on the core (R292, R336, R361 to R370), and the command in
progress (R366, R376, R396). -/

namespace Sys2Proof.Machine

open Sys2Proof

/-! ## CRC-32C (R364) -/

/-- Eight steps of the reflected Castagnoli polynomial. -/
def crcStep : Nat → BitVec 32 → BitVec 32
  | 0, c => c
  | n + 1, c => crcStep n (if c.getLsbD 0 then (c >>> 1) ^^^ 0x82F63B78 else c >>> 1)

def crc32c (bs : List Byte) : BitVec 32 :=
  ~~~ (bs.foldl (fun c b => crcStep 8 (c ^^^ b.zeroExtend 32)) 0xFFFFFFFF)

/-! ## The command in progress (R396) -/

/-- Something of a context is on the core, in the active or the standby plane. -/
def coreHolds (s : State) (c : Nat) : Bool := planeCtx s == some c || s.standby.holds == some c

/-- The context a message of a plane is of: a write and an atomic name it. -/
def bodyCtx (p : Plane) : MsgBody → Option Nat
  | .write w => some w.ctx
  | .atomic a => some a.ctx
  | _ => p.ctx

/-- The bytes that an entry of the reservation table is still to write go to a line. -/
def laterAt (line : Nat) (e : REntry) : Bool := e.later.any (fun w => lineOf w.1 == line)

/-- The lines that a queued write goes to. -/
def Queued.lines (q : Queued) : List Nat := (q.ws.map (fun w => lineOf w.1) ++ (q.atom.map (fun x => lineOf x.pa)).toList).eraseDups

/-- The stored bytes of a line have not committed, or their write-back is not acknowledged, among those issued before number `n`; queues, an entry or
a saved plane may hold them (R216). -/
def lineOpen (s : State) (n line : Nat) : Bool :=
  let open_ := fun (p : Plane) => p.l1.any (fun l => l.line == line && l.dirty != 0) || p.storeQ.any (fun q => decide (q.seq < n) && q.lines.contains line)
    || p.net.any (fun m => bodyLine m.body == line && (match m.body with
    | .write w => (match w.writer with | .threads who => who.any (fun x => decide (x.seq < n)) | _ => true)
    | .atomic a => a.steps.any (fun x => decide (x.tag < n))
    | _ => false))
  open_ s.pl || open_ s.standby.plane || s.slots.any (fun x => x.standby.plane.l1.any (fun l => l.line == line && l.dirty != 0))
    || s.cl.table.any (laterAt line) || s.standby.entries.any (laterAt line)

/-- A request of a context older than a message number has not been served, or a write of it not been acknowledged. -/
def olderOpen (s : State) (c before : Nat) : Bool :=
  let open_ := fun (p : Plane) => p.net.any (fun m => decide (m.id < before) && bodyCtx p m.body == some c) || (p.ctx == some c && !p.storeQ.isEmpty)
  open_ s.pl || open_ s.standby.plane || s.sl.windows.any (fun w => w.closed.isNone && !w.reqs.isEmpty)

/-- The command in progress completes where what it waits for is over. -/
def pollCommand (s : State) : State :=
  let fin := commandDone 0 s
  match s.cp.cmd with
  | .preempt c => if coreHolds s c || s.cp.resuming.contains c || s.swapEnd.isSome then s else fin
  | .resume c => if s.cp.resuming.contains c || s.swapEnd.isSome then s else fin
  | .inval c n ls => match ls.filter (lineOpen s n) with
    | [] => if olderOpen s c n then { s with cp := { s.cp with cmd := .inval c n [] } } else fin
    | ls => { s with cp := { s.cp with cmd := .inval c n ls } }
  | _ => s

/-! ## The swap (R362, R367, R368) -/

/-- The standby plane can take part, and no handshake of the pool is under way (R193). -/
def swapOpen (s : State) : Bool :=
  s.swapEnd.isNone && decide (s.standby.st = .empty ∨ s.standby.st = .ready) && s.pl.shake.isNone
  && !(s.standby.engineDue && decide (s.standby.st = .empty))

/-- A thread at the swap (Table 19-2): what re-executes goes back before its instruction. -/
def swapThread (t : Thread) : Thread :=
  match t.park with
  | .fault _ _ => { t with park := .none }
  | .walk _ _ => { t with park := .none }
  | .pref _ => { t with park := .none }
  | .pages _ => { t with park := .none, found := [] }
  | .none => { t with found := [] }
  | .fwait _ _ _ _ _ => { t with park := .none }
  | .fget _ _ _ _ _ _ => { t with park := .none }
  | .ifetch _ => { t with park := .none }
  | .queueFull _ => { t with park := .none }
  | _ => t

/-- A stream at the swap (R323). -/
def swapStream (q : SeqCtx) : SeqCtx :=
  match q.park with
  | .switch => q
  | .stopping _ _ => q
  | _ => { q with park := .none }

/-- An entry at the swap (R292). -/
def freezeEntry (e : REntry) : REntry := { e with frozenSwap := true, stage := if e.stage = .fetched then .accepted else e.stage }

def planeHandles (p : Plane) : List Nat := p.blocks.map (·.handle)

/-- The outgoing threads leave their wait-table entries, the streams and entries of the plane freeze, and 48 cycles begin. -/
def planeSwapStep (s : State) : State :=
  let s := s.stow
  if !swapWanted s || !swapOpen s then s
  else
    let mine := planeHandles s.pl
    let s := s.pl.threads.foldl (fun s t => match t.park with
      | .fwait _ _ _ _ _ => leaveWaits t.slot t.lane s
      | _ => s) s
    let s := s.updSeqs (fun q => mine.contains q.block) swapStream
    { s with
      swapEnd := some (s.clock.cycle + 48)
      pl := { s.pl with threads := s.pl.threads.map swapThread }
      cl := { s.cl with table := updIf (fun e => mine.contains e.block) freezeEntry s.cl.table } }

/-- Continuation records leave with their plane, or come with one (R361); what they waited is kept. -/
def QEntry.stall (now : Nat) (e : QEntry) : QEntry := { e with waited := e.waited + (now - e.entered), entered := 0 }
def QEntry.wake (now : Nat) (e : QEntry) : QEntry := { e with entered := now }

/-- The core queue and the planes after the exchange: the outgoing context's records go with its plane, the incoming plane's return. -/
def swapConts (now : Nat) (out : Option Nat) (q : List QEntry) (next : Plane) : List QEntry × List QEntry :=
  let goes := fun (e : QEntry) => isCont e && out == some e.ctx
  (q.filter (fun e => !goes e) ++ next.conts.map (QEntry.wake now), (q.filter goes).map (QEntry.stall now))

/-- After 48 cycles the planes exchange roles, and the outgoing one is saved. An active plane that holds no work belongs to no context, so
nothing of it is saved: it becomes the EMPTY standby plane, its L1 as it was (R216). -/
def swapEndStep (s : State) : State :=
  let s := s.stow
  match s.swapEnd with
  | none => s
  | some k =>
    if s.clock.cycle < k then s
    else
      let next := s.standby.plane
      let (q, conts) := swapConts s.clock.cycle (planeCtx s) s.sched.coreQ next
      let s := { s with
        swapEnd := none
        pl := { next with conts := [] }
        sched := { s.sched with coreQ := q }
        standby := { s.standby with st := if planeIdle s then .empty else .saving, plane := { s.pl with conts := conts }, stime := s.clock.tbase }
        cp := { s.cp with resuming := s.cp.resuming.filter (fun c => some c != next.ctx) } }
      pollCommand s

/-! ## The save (R363, R369, R370) -/

/-- Address of the core's save slot of a context. -/
def slotAddr (s : State) (c : Nat) : Nat := (((s.ctx? c).map (·.saveArea)).getD 0 + s.coreNo * 0x118000) % Config.memBytes

/-- The requests for ranges of bytes: one for each of their lines. -/
def lineReqs (rs : List (Nat × Nat)) : List Nat := rs.flatMap (fun r => (List.range ((r.2 + 127) / 128)).map (fun k => r.1 + 128 * k))

/-- The spill engine reads ranges of a slot, request by request, where it may reach (R358, R359, R369): a frozen one makes none, and the first
request outside its grants freezes it. -/
def slotReads (c : Nat) (rs : List (Nat × Nat)) (k : State → State) (s : State) : State :=
  if isFrozen s masterSpill then s
  else match (lineReqs rs).find? (fun a => !granted s masterSpill c a 1) with
    | some a => freeze masterSpill c a s
    | none => k s

/-- It writes a slot's bytes in their order; those before the first request outside its grants are written (R359). -/
def slotWrites (c : Nat) (ws : List (Nat × Byte)) (k : State → State) (s : State) : State :=
  let ok := fun (w : Nat × Byte) => granted s masterSpill c w.1 1
  if isFrozen s masterSpill then s
  else match ws.find? (fun w => !ok w) with
    | some w => freeze masterSpill c w.1 (commitLines c (ws.takeWhile ok) 0 .module s).1
    | none => k (commitLines c ws 0 .module s).1

/-- The frames of a plane's blocks, ascending. -/
def planeFrames (s : State) (p : Plane) : List Nat :=
  (List.range 8).filter (fun f => s.cl.frameOwner.any (fun x => x.1 == f && (planeHandles p).contains x.2))

def planeSeqs (s : State) (p : Plane) : List SeqCtx := s.allSeqs.filter (fun q => (planeHandles p).contains q.block)
def planeEntries (s : State) (p : Plane) : List REntry := s.cl.table.filter (fun e => (planeHandles p).contains e.block)

/-- The operations of a plane that are suspended: they touch it and have not moved their bytes; a checkpoint suspends the others too (R404). -/
def planeOps (s : State) (c : Nat) : List CopyOp :=
  (s.cl.copyQ ++ s.cl.fetchQ).filter (fun x => x.ctx == c && decide (x.kind ≠ .hostCopy) && (!planeFree x || s.cp.stopped) && !x.started)

/-- The banks may be written (R363): results are written, but for those of suspended operations and frozen entries (R302) and those that
wait behind one of them for a register (R27); engines stand, no operation that goes on has an arrival to make in the plane (R336), and nothing
completes at a slice or cache any more. -/
def saveReady (s : State) : Bool :=
  let p := s.standby.plane
  let c := p.ctx.getD 0
  let ops := planeOps s c
  decide (s.standby.st = .saving)
  && p.threads.all (fun t => onlyBehind (fun r => ops.any (·.tag == r.tag)) [] t.pend && (match t.park with
      | .watch _ _ => false
      | .unwatch _ _ _ => false
      | .csrw _ _ => false
      | .icinv _ _ _ => false
      | _ => true))
  && (planeSeqs s p).all (fun q => onlyBehind (fun r => (planeEntries s p).any (·.tag == some r.tag)) [] q.pend)
  && (planeEntries s p).all (fun e => match e.stage with
      | .inPass _ => false
      | .releasing => false
      | _ => true)
  && !s.cl.copyQ.any (fun x => x.ctx == c && decide (x.kind ≠ .hostCopy) && (x.started || (planeFree x && !s.cp.stopped && (payloadBar x.payload).isSome)))
  && p.net.isEmpty && p.storeQ.isEmpty && p.puts.isEmpty

/-- What a byte of a bank holds: a byte of a lane's register, of a block's scratch or a tile, of an L1 line, or nothing. -/
inductive BankCell where
  | nothing
  | reg (slot lane n byte : Nat)
  | sram (key off : Nat)
  | line (line off : Nat)
  deriving DecidableEq, Repr

/-- The place of byte `o` of bank `k` (R182, R184, R186, R187). -/
def bankCell (p : Plane) (k o : Nat) : BankCell :=
  match (bankOf p.pmap k).role with
  | .free => .nothing
  | .regs =>
    let row := o / 128
    let lane := o % 128 / 4
    match p.warps.find? (fun w => w.pages.contains (k, row / 8)) with
    | none => .nothing
    | some w => if p.threads.any (·.is w.slot lane) then .reg w.slot lane (8 * w.pages.idxOf (k, row / 8) + row % 8) (o % 4) else .nothing
  | .scratch =>
    let y := p.arena.idxOf k * 16384 + o
    match p.blocks.find? (fun b => decide (b.sbase ≤ y ∧ y < b.sbase + b.scratch)) with
    | some b => .sram b.handle (y - b.sbase)
    | none => .nothing
  | .cache =>
    match p.l1.find? (fun l => l.bank == k && l.line % 128 == o / 128) with
    | some l => if l.dirty.testBit (o % 128) || (if o % 128 < 64 then l.valid0 else l.valid1) then .line l.line (o % 128) else .nothing
    | none => .nothing
  | .tile =>
    match p.tiles.find? (·.bank == k) with
    | some t => .sram t.key o
    | none => .nothing

/-- The byte at a place, `z` where there is nothing. -/
def cellByte (p : Plane) (z : Byte) : BankCell → Byte
  | .nothing => z
  | .reg slot lane n b => match p.threads.find? (·.is slot lane) with
    | some t => BitVec.ofNat 8 ((stGet 0 t.regs n).toNat / 2 ^ (8 * b))
    | none => z
  | .sram key off => sramByte p.sram key off
  | .line line off => match p.l1.find? (·.line == line) with
    | some l => stGet 0 l.bytes off
    | none => z

/-- A 32-bit word with byte `b` replaced. -/
def putByte (w : Word) (b : Nat) (v : Byte) : Word :=
  (w &&& ~~~(0xFF#32 <<< (8 * b))) ||| (v.zeroExtend 32 <<< (8 * b))

/-- A byte put at its place. -/
def setCell (p : Plane) (v : Byte) : BankCell → Plane
  | .nothing => p
  | .reg slot lane n b => { p with threads := updIf (·.is slot lane) (fun t => { t with regs := stSet 0 t.regs n (putByte (stGet 0 t.regs n) b v) }) p.threads }
  | .sram key off => { p with sram := soSetAll p.sram [(key * 2 ^ 20 + off, v)] }
  | .line line off => { p with l1 := updIf (·.line == line) (fun l => { l with bytes := stSet 0 l.bytes off v }) p.l1 }

/-- Byte `o` of bank `k` of a plane; `z` gives the bytes that hold nothing. -/
def bankByte (p : Plane) (z : Nat → Byte) (k o : Nat) : Byte := cellByte p (z o) (bankCell p k o)

/-- The banks of a plane that a save writes (R363). -/
def savedBanks (p : Plane) : List Nat := (List.range 32).filter (fun k => decide ((bankOf p.pmap k).role ≠ .free))

/-- A plane with its banks as the memory of its slot holds them (R364, Table 19-3). -/
def readBanks (m : List (Nat × Byte)) (base : Nat) (p : Plane) : Plane :=
  (savedBanks p).foldl (fun p k => (List.range 16384).foldl (fun p o =>
    let c := bankCell p k o
    let v := getByte m (base + 0x18000 + 0x4000 * k + o)
    if cellByte p v c = v then p else setCell p v c) p) p

/-- Bytes that the specification leaves to the device, by a draw's number. -/
def imageByte (i k : Nat) : Byte := Config.freeImage (i * 2 ^ 24 + k)

/-- A plane's blocks name frames by their places in a list, or the other way round. -/
def Plane.mapFrames (p : Plane) (f : Nat → Nat) : Plane := { p with blocks := p.blocks.map (fun b => { b with frames := b.frames.map f }) }

/-- Bytes of a store moved from key block `x` to key block `y`, blocks of size `n`. -/
def moveKeys {α : Type} (n : Nat) (from_ : List Nat) (to_ : List Nat) (l : List (Nat × α)) : List (Nat × α) :=
  (from_.zip to_).flatMap (fun x => (l.filter (fun e => e.1 / n == x.1)).map (fun e => (x.2 * n + e.1 % n, e.2)))

/-- What the slot keeps of the outgoing plane and of its part of the cluster. -/
def makeSlot (s : State) (c : Nat) : SaveSlot :=
  let p := s.standby.plane
  let fr := planeFrames s p
  let idx := List.range fr.length
  let age := fun (e : REntry) => { e with issued := s.clock.cycle - e.issued }
  { ctx := c
    standby :=
      { st := .ready, plane := p.mapFrames (fun f => fr.idxOf f), seqs := planeSeqs s p, entries := (planeEntries s p).map age, ops := planeOps s c
        frames := stSetAll 0 [] (moveKeys 65536 fr idx s.cl.frames), vectors := stSetAll 0 [] (moveKeys 128 fr idx s.cl.vectors)
        nframes := fr.length, stime := s.standby.stime } }

/-- The cluster without what a slot took. -/
def clusterFreed (s : State) (x : SaveSlot) : State :=
  let hs := planeHandles x.standby.plane
  let fr := planeFrames s s.standby.plane
  let s := s.stowSeq
  { s with cl := { s.cl with
      seqs := s.cl.seqs.filter (fun q => !hs.contains q.block)
      table := s.cl.table.filter (fun e => !hs.contains e.block)
      copyQ := s.cl.copyQ.filter (fun c => !x.standby.ops.any (·.id == c.id))
      fetchQ := s.cl.fetchQ.filter (fun c => !x.standby.ops.any (·.id == c.id))
      frameOwner := s.cl.frameOwner.filter (fun f => !hs.contains f.2)
      frames := s.cl.frames.filter (fun f => !fr.contains (f.1 / 65536))
      vectors := s.cl.vectors.filter (fun f => !fr.contains (f.1 / 128)) } }

/-- The header's 64 bytes (Table 19-4). -/
def slotHeader (crc : BitVec 32) (rtime stime banks frames nseq nent nops : Nat) : List Byte :=
  leBytes (1 + 2 ^ 224 * nops + 2 ^ 232 * nent + 2 ^ 240 * nseq + 2 ^ 248 * frames + 2 ^ 288 * banks + 2 ^ 320 * stime + 2 ^ 384 * rtime
    + 2 ^ 480 * crc.toNat) 64

/-- The save completes: banks, engine image and frames, control image and header are in the slot, and the cluster's share is free. -/
def saveStep (s : State) : State :=
  let s := s.stow
  let p := s.standby.plane
  match p.ctx with
  | none => s
  | some c =>
    if !saveReady s || isFrozen s masterSpill then s
    else
        let base := slotAddr s c
        let x := makeSlot s c
        let b := x.standby
        let engine := !(b.seqs.isEmpty && b.entries.isEmpty && b.ops.isEmpty)
        let (i, s) := s.draw
        let banks := savedBanks p
        let bankWs := banks.flatMap (fun k => atAddr (base + 0x18000 + 0x4000 * k) ((List.range 16384).map (bankByte p (fun o => imageByte i (0x20000 + k * 16384 + o)) k)))
        let ctl := (List.range 28672).map (imageByte i)
        let eng := if engine then (List.range 65536).map (fun k => imageByte i (28672 + k)) else []
        let frameWs := (List.range b.nframes).flatMap (fun f => atAddr (base + 0x98000 + 0x10000 * f) ((List.range 65536).map (fun k => getByte b.frames (f * 65536 + k))))
        let hdr := slotHeader (crc32c (ctl ++ eng)) (getLe s.mem (base + 48) 8) b.stime ((banks.map (2 ^ ·)).sum) b.nframes b.seqs.length b.entries.length b.ops.length
        let ws := bankWs ++ atAddr (base + 0x8000) eng ++ frameWs ++ atAddr (base + 0x1000) ctl ++ atAddr base (hdr ++ List.replicate 4032 0)
        slotWrites c ws (fun s =>
          let s := clusterFreed s x
          pollCommand { s with standby := { s.standby with st := .empty, plane := freshPlane }, slots := s.slots.filter (·.ctx != c) ++ [x] }) s

/-! ## The restore (R364) -/

def slotOf (s : State) (c : Nat) : Option SaveSlot := s.slots.find? (·.ctx == c)

/-- VALID of a slot's header. -/
def slotValid (s : State) (c : Nat) : Bool := (getByte s.mem (slotAddr s c)).getLsbD 0

/-- The resources that a slot's header records are free in the cluster; with `active`, those that the active plane's blocks hold
count as well. -/
def clusterRoom (s : State) (b : Standby) (active : Bool) : Bool :=
  let n := fun (k : Nat) => if active then k else 0
  decide (b.nframes ≤ 8 - s.cl.frameOwner.length + n (planeFrames s s.pl).length)
  && decide (b.seqs.length ≤ 16 - s.allSeqs.length + n (planeSeqs s s.pl).length)
  && decide (b.entries.length ≤ 32 - s.cl.table.length + n (planeEntries s s.pl).length)

def Standby.hasEngine (b : Standby) : Bool := !(b.seqs.isEmpty && b.entries.isEmpty && b.ops.isEmpty)

/-- An EMPTY standby plane is free for a restore once the dirty lines of its L1 are home: the restore overwrites its C banks.
DESIGN CHOICE (log entry 77): they leave by eviction. -/
def standbyFree (s : State) : Bool × State :=
  let s := s.inOther (fun s => (writeBackAll (fun _ => true) .evict s).2)
  let p := s.standby.plane
  (p.net.isEmpty && p.storeQ.isEmpty && p.puts.isEmpty, s)

/-- A restore of context `c` starts: the standby plane is EMPTY, the slot is VALID, and the resources can be counted. -/
def restoreStartStep (c : Nat) (s : State) : State :=
  match slotOf s c with
  | none => s
  | some x =>
    if !s.cp.resuming.contains c || decide (s.standby.st ≠ .empty) || s.standby.engineDue || s.swapEnd.isSome then s
    else slotReads c [(slotAddr s c, 64)] (fun s =>
      if !slotValid s c || !clusterRoom s x.standby true then s
      else
        let (ok, s) := standbyFree s
        if ok then { s with standby := { x.standby with st := .restoring, engineDue := x.standby.hasEngine || decide (x.standby.nframes > 0) } } else s) s

/-- The header's CRC is that of the control image, and of the engine image where it counts. -/
def slotCrcOk (s : State) (c : Nat) (engine : Bool) : Bool :=
  let base := slotAddr s c
  let img := getBytes s.mem (base + 0x1000) 28672 ++ (if engine then getBytes s.mem (base + 0x8000) 65536 else [])
  BitVec.ofNat 32 (getLe s.mem (base + 60) 4) == crc32c img

/-- The slot is no longer VALID; RTIME shows when. -/
def slotSpent (c : Nat) (s : State) : State :=
  let base := slotAddr s c
  let s := (commitQuiet c (atAddr (base + 48) (leBytes s.clock.tbase 8)) 0 .module s).1
  let s := (commitQuiet c (atAddr base [0]) 0 .module s).1
  { s with slots := s.slots.filter (·.ctx != c) }

/-- A slot whose CRC fails: its context is unmapped with `SAVE_CORRUPT` (40). -/
def slotCorrupt (c : Nat) (s : State) : State :=
  pollCommand (unmapContext c (ctxError c 40 (BitVec.ofNat 64 (slotAddr s c)) s))

/-- Sectors of the slot that a restore reads are poisoned: of the header and the control image, of banks, and with `engine` of the engine image
and `nf` frames. DEDUCED (log entry 94): nothing poisoned is returned as a value (R357), so the slot counts as corrupt. -/
def slotPoisoned (s : State) (c : Nat) (banks : List Nat) (engine : Bool) (nf : Nat) : Bool :=
  let base := slotAddr s c
  let bad := fun (lo n : Nat) => s.sl.poison.any (fun p => decide (base + lo ≤ p * 64 ∧ p * 64 < base + lo + n))
  bad 0 0x8000 || banks.any (fun k => bad (0x18000 + 0x4000 * k) 0x4000)
  || (engine && (bad 0x8000 0x10000 || bad 0x98000 (0x10000 * nf)))

/-- The reads of a restore are done: the control image, and the banks as memory holds them. -/
def restoreDoneStep (s : State) : State :=
  match s.standby.st, s.standby.plane.ctx with
  | .restoring, some c => slotReads c ([(slotAddr s c, 64), (slotAddr s c + 0x1000, 28672)] ++ (savedBanks s.standby.plane).map (fun k => (slotAddr s c + 0x18000 + 0x4000 * k, 16384))) (fun s =>
    if slotPoisoned s c (savedBanks s.standby.plane) false 0 then slotCorrupt c s
    else
      let s := { s with standby := { s.standby with plane := readBanks s.mem (slotAddr s c) s.standby.plane } }
      if s.standby.hasEngine then { s with standby := { s.standby with st := .ready } }
      else if slotCrcOk s c false then { slotSpent c s with standby := { s.standby with st := .ready } }
      else slotCorrupt c s) s
  | _, _ => s

/-- The frames of the incoming plane as the memory of its slot holds them. -/
def readFrames (c : Nat) (s : State) : State :=
  let base := slotAddr s c + 0x98000
  { s with standby := { s.standby with
      frames := ((List.range (65536 * s.standby.nframes)).map (fun k => (k, getByte s.mem (base + k)))).filter (fun x => x.2 != 0) } }

/-- An operation among others in the order of their acceptance. -/
def insOp (c : CopyOp) : List CopyOp → List CopyOp
  | [] => [c]
  | x :: l => if c.id < x.id then c :: x :: l else x :: insOp c l

/-- The cluster with the contexts, frames and entries of a restored plane, which have new numbers, in order. Its operations take their places in
the order of acceptance (R332, R364). -/
def adoptEngine (s : State) : State :=
  let b := s.standby
  let fr := ((List.range 8).filter (fun k => !s.cl.frameOwner.any (·.1 == k))).take b.nframes
  let sn := ((List.range 16).filter (fun k => !s.allSeqs.any (·.n == k))).take b.seqs.length
  let en := ((List.range 32).filter (fun k => !s.cl.table.any (·.n == k))).take b.entries.length
  let olds := b.seqs.map (·.n)
  let newSeq := fun (n : Nat) => sn.getD (olds.idxOf n) n
  let owners := s.pl.blocks.flatMap (fun k => k.frames.map (fun f => (fr.getD f f, k.handle)))
  let pl := s.pl.mapFrames (fun f => fr.getD f f)
  let thaw := fun (e : REntry) (n : Nat) => { e with n := n, ctx := newSeq e.ctx, issued := s.clock.cycle - e.issued, frozenSwap := false }
  { s with
    pl := { pl with blocks := pl.blocks.map (fun k => { k with stream := k.stream.map newSeq }) }
    cl := { s.cl with
      seqs := s.cl.seqs ++ b.seqs.map (fun q => { q with n := newSeq q.n })
      table := s.cl.table ++ b.entries.mapIdx (fun i e => thaw e (en.getD i 0))
      copyQ := (b.ops.filter (fun o => decide (o.kind ≠ .fgetb))).foldl (fun l o => insOp o l) s.cl.copyQ
      fetchQ := (b.ops.filter (fun o => decide (o.kind = .fgetb))).foldl (fun l o => insOp o l) s.cl.fetchQ
      frameOwner := s.cl.frameOwner ++ owners
      frames := stSetAll 0 s.cl.frames (moveKeys 65536 (List.range b.nframes) fr b.frames)
      vectors := stSetAll 0 s.cl.vectors (moveKeys 128 (List.range b.nframes) fr b.vectors) }
    standby := b.noEngine }

/-- Contexts that have come back: those whose streams and blocks have ended meanwhile are released (R275, R364). -/
def settleAdopted (s : State) : State := (s.allSeqs.map (·.n)).foldl (fun s n => settleStop n s) s

/-- The engine image and the frames of the active plane are in the cluster. -/
def engineImageStep (s : State) : State :=
  let b := s.standby
  match s.pl.ctx with
  | none => s
  | some c =>
    if !b.engineDue || decide (b.st = .restoring ∨ b.st = .ready) || s.swapEnd.isSome || !clusterRoom s b false then s
    else slotReads c ([(slotAddr s c + 0x8000, if b.hasEngine then 65536 else 0), (slotAddr s c + 0x98000, 65536 * b.nframes), (slotAddr s c, 64)]) (fun s =>
      if slotPoisoned s c [] true b.nframes || (b.hasEngine && !slotCrcOk s c true) then slotCorrupt c s
      else
        let s := settleAdopted (adoptEngine (readFrames c s))
        if b.hasEngine then slotSpent c s else s) s

/-- PLANE_SWAP (R362). -/
def execPlaneSwap (s : State) : Answer :=
  .next (planeSwapStep s)

/-- SWAP_END (R362). -/
def execSwapEnd (s : State) : Answer :=
  .next (swapEndStep s)

/-- SAVE_COMPLETE (R363). -/
def execSaveComplete (s : State) : Answer :=
  .next (saveStep s)

/-- RESTORE_START (R364). -/
def execRestoreStart (c : Nat) (s : State) : Answer :=
  .next (restoreStartStep c s)

/-- RESTORE_COMPLETE (R364). -/
def execRestoreComplete (s : State) : Answer :=
  .next (restoreDoneStep s)

/-- ENGINE_IMAGE_RESTORE (R364). -/
def execEngineImageRestore (s : State) : Answer :=
  .next (engineImageStep s)

end Sys2Proof.Machine
end

