-- ==== Sys2Proof/Machine/HostPort.lean ====
section
/-! DEFINITION. The host port: commands, window registers, interrupts and the aperture (R366, R393 to R398, R404, R406, R409, R410). -/

namespace Sys2Proof.Machine

open Sys2Proof

/-! ## The command record (Table 21-2) -/

def cmdDword (s : State) (k : Nat) : Nat := (stGet 0 s.win.cmdrec k).toNat
def cmdCode (s : State) : Nat := cmdDword s 0 % 256
def cmdCtx (s : State) : Nat := cmdDword s 0 / 2 ^ 16 % 256
def cmdIdx (s : State) : Nat := cmdDword s 0 / 2 ^ 24 % 256
def cmdArg (s : State) (k : Nat) : Nat := cmdDword s (4 + k)

/-- A physical address argument of `n` bytes is aligned and lies in device memory. -/
def paOk (v align n : Nat) : Bool := v % align == 0 && decide (v + n ≤ Config.memBytes)

/-- The modules that a set names (R406). -/
def moduleSet (s : State) (pa : Nat) : List Nat := (List.range 256).filter (fun m => (getByte s.mem (pa + m / 8)).getLsbD (m % 8))

/-- A module number is this module's or is present in the domain table. -/
def inDomain (s : State) (m : Nat) : Bool := m == s.win.modnum || s.root.domain.any (·.m == m)

/-- The command processor may not read the module set of a checkpoint or restore (R358): the command is held, and its set not looked at. -/
def setBarred (s : State) : Bool := !granted s masterCp (cmdCtx s) (cmdArg s 2) 32

/-- The module set and the target of a checkpoint or restore (R406); nothing poisoned counts as a set (R357). -/
def setArgsOk (s : State) : Bool :=
  paOk (cmdArg s 2) 8 32
  && (setBarred s || (!isPoisoned s (cmdArg s 2) 32 && (moduleSet s (cmdArg s 2)).contains s.win.modnum && (moduleSet s (cmdArg s 2)).all (inDomain s)))
  && s.root.domain.any (·.m == cmdArg s 1 % 256) && cmdArg s 1 / 256 * 256 % 4096 == 0

/-- The record gives `BADCMD` (R397). CTX of CHECKPOINT and RESTORE is tested as that of every command but MAP_QUEUE. -/
def cmdBad (s : State) : Bool :=
  let k := cmdCode s
  let mapped := (s.ctx? (cmdCtx s)).isSome
  let queue := s.cp.queues.any (·.q == cmdIdx s)
  cmdDword s 0 / 2 ^ 32 != 0 || cmdDword s 0 / 256 % 256 != 0 || cmdDword s 1 != 0 || cmdDword s 2 != 0 || cmdDword s 3 != 0
  || (match k with
    | 1 => decide (cmdIdx s ≥ 32 ∨ cmdCtx s ≥ 32) || queue || !paOk (cmdArg s 0) 128 128 || !paOk (cmdArg s 1) 64 64
    | 2 => !mapped
    | 3 => !mapped || !queue
    | 4 => !mapped
    | 5 => !mapped
    | 6 => !mapped
    | 7 => !mapped
    | 8 => !mapped || decide (cmdArg s 1 ≥ 288) || !aligned (BitVec.ofNat 64 (cmdArg s 0)) 64
    | 9 => !mapped || !setArgsOk s || decide (cmdArg s 3 ≥ 2)
    | 10 => !mapped || !setArgsOk s
    | _ => true)

/-- A command goes on: what it waits for, and BUSY; a held one keeps its record. -/
def setCmd (w : CmdWait) (s : State) : State :=
  { s with cp := { s.cp with cmd := w, cmdrec := if w = .held then s.win.cmdrec else s.cp.cmdrec }, win := { s.win with cmdRes := 1 } }

/-- A held command is tried again with the record that CMDGO took, whatever CMDREC holds by now (R396). -/
def withHeld (f : State → State) (s : State) : State :=
  if s.cp.cmd = .held then
    let t := f { s with win := { s.win with cmdrec := s.cp.cmdrec } }
    { t with win := { t.win with cmdrec := s.win.cmdrec } }
  else f s

/-- A write to CMDGO (R396): ignored before READY and while a command is BUSY, and not accepted at a frozen port (R359); a frozen command processor holds it, and so do earlier writes of
the host, over which it is a release (R395). -/
def commandGo (ok : State → Bool) (body : State → State) (s : State) : State :=
  withHeld (fun s =>
    if s.win.state ≠ .ready || (decide (s.cp.cmd ≠ .held) && (s.win.cmdRes == 1 || !hostTakes s)) || !ok s then s
    else if isFrozen s masterCp || hostOpen s then setCmd .held s
    else body { s with cp := { s.cp with cmd := .none } }) s

/-- A command of one code with a good record. -/
def command (k : Nat) (body : State → State) (s : State) : State := commandGo (fun s => cmdCode s == k && !cmdBad s) body s

/-- The command processor's own reads of a command lie in what it may reach; else it is frozen and the command held. -/
def commandReads (c : Nat) (rs : List (Nat × Nat)) (body : State → State) (s : State) : State :=
  match rs.find? (fun r => !granted s masterCp c r.1 r.2) with
  | some r => setCmd .held (freeze masterCp c r.1 s)
  | none => body s

/-! ## Commands (Table 21-3) -/

/-- What the walkers and the fault unit may not reach of what a mapping needs (R358, R369): the master and the address. -/
def mapBarred (s : State) : Option (Nat × Nat) :=
  let c := cmdCtx s
  let d := getLe s.mem (cmdArg s 0) 128
  let x := (s.ctx? c).getD (ctxOf c (cmdArg s 0) d)
  let fresh := !s.ctxs.any (·.n == c) && ctxDescOk d
  let s := if fresh then { s with ctxs := s.ctxs ++ [x] } else s
  match (if fresh || s.ctxs.any (·.n == c) then (mapPages x fresh (getLe s.mem (cmdArg s 1) 64)).findSome? (fun p => walkBarred s c (p * 4096)) else none) with
  | some a => some (masterWalker, a)
  | none => if fresh && !granted s masterFault c x.fqAddr 64 then some (masterFault, x.fqAddr) else none

/-- A refused mapping is over once its record is written and released (R395, R396). -/
def refusedDone (till : Nat) (s : State) : State :=
  notify till 64 none { s with win := { s.win with cmdRes := 3 }, cp := { s.cp with cmd := .none } }

/-- MAP_QUEUE; the record of a refusal is a write of the command processor (R358). -/
def mapCmd (s : State) : State :=
  commandReads (cmdCtx s) [(cmdArg s 0, 128), (cmdArg s 1, 64)] (fun s =>
    if isFrozen s masterWalker || isFrozen s masterFault then setCmd .held s
    else match mapBarred s with
    | some (m, a) => setCmd .held (freeze m (cmdCtx s) a s)
    | none =>
      let (r, t) := mapQueue (cmdIdx s) (cmdCtx s) (cmdArg s 0) (cmdArg s 1) s
      match (if r = 3 then refusedAt (cmdCtx s) (cmdArg s 0) (getLe s.mem (cmdArg s 1) 64) s else none) with
      | none => commandDone r t
      | some pa => if granted s masterCp (cmdCtx s) pa 64 then refusedDone (lineRec t (lineOf pa)).vl t else setCmd .held (freeze masterCp (cmdCtx s) pa s)) s

def preemptCmd (s : State) : State :=
  let c := cmdCtx s
  pollCommand (setCmd (.preempt c) (s.updCtx c (fun x => { x with paused := true })))

/-- RESUME: the context may run, and its saved image on the core, if there is one or one is being written, is to be restored. -/
def resumeCtx (c : Nat) (s : State) : State :=
  let saved := s.slots.any (·.ctx == c) || (decide (s.standby.st = .saving) && s.standby.holds == some c)
  let s := s.updCtx c (fun x => { x with paused := false })
  if saved && !s.cp.resuming.contains c then { s with cp := { s.cp with resuming := s.cp.resuming ++ [c] } } else s

/-- RESUME; after an isolation the first one lets packets, completions and signals go on (R407; log entry 56). -/
def resumeCmd (s : State) : State :=
  let c := cmdCtx s
  let s := if s.ckpt.st = .idle then { s with cp := { s.cp with stopped := false } } else s
  pollCommand (setCmd (.resume c) (resumeCtx c s))

/-- CLEAR_ERROR: processing resumes at the read index. -/
def clearCmd (s : State) : State := commandDone 0 (setCpq (cmdIdx s) (fun x => { x with err := false }) s)

/-- REG_GRAPH: the graph is checked and fixed to its context, or refused with `GRAPH_INVALID`. -/
def regGraphCmd (s : State) : State :=
  let c := cmdCtx s
  let va := cmdArg s 0
  let refuse := fun (at_ : Nat) (s : State) =>
    let t := ctxError c 8 (BitVec.ofNat 64 at_) s
    refusedDone ((t.cp.notices.getLast?.map (·.till)).getD 0) t
  let stop := fun (e : EStop) (s : State) => match e with
    | .violation m h => setCmd .held (freeze m c h s)
    | .held => setCmd .held s
    | .lost m => refuse va (linkLost c m s)
    | _ => refuse va s
  if !aligned (BitVec.ofNat 64 va) 64 then refuse va s
  else match cpRead s c va 64 with
    | .error e => stop e s
    | .ok (_, bs) =>
      let d := leNat bs
      let g : Graph := { g := cmdIdx s, ctx := c, nodes := d % 2 ^ 64, nnodes := d / 2 ^ 64 % 65536
                         sigAddr := BitVec.ofNat 64 (d / 2 ^ 128), sigVal := BitVec.ofNat 64 (d / 2 ^ 192) }
      if d / 2 ^ 256 ≠ 0 ∨ d / 2 ^ 80 % 2 ^ 48 ≠ 0 ∨ g.nnodes = 0 ∨ g.nnodes > 65534 then refuse va s
      else if !aligned (BitVec.ofNat 64 g.nodes) 64 || !(g.sigAddr == 0 || aligned g.sigAddr 8) then refuse va s
      else match graphNodes s g with
        | .error e => stop e s
        | .ok nodes => match graphBad nodes with
          | some i => refuse (nodeVa g i) s
          | none => commandDone 0 { s with cp := { s.cp with graphs := s.cp.graphs.filter (·.g != g.g) ++ [g] } }

/-- The lines that stores of a context on the core go to by a translation of the range: those in an L1, in a queue, or that an entry is still to
write (R376). -/
def storedUnder (s : State) (c lo hi : Nat) : List Nat :=
  let hit := fun (line : Nat) => droppedHome s c lo hi (line * 128)
  let of := fun (p : Plane) => if p.ctx = some c then ((p.l1.filter (fun l => l.dirty != 0)).map (·.line) ++ p.storeQ.flatMap Queued.lines).filter hit else []
  let later := (s.cl.table ++ s.standby.entries).flatMap (fun e => (e.later.map (fun w => lineOf w.1)).eraseDups.filter hit)
  of s.pl ++ of s.standby.plane ++ s.slots.flatMap (fun x => of x.standby.plane) ++ later

/-- An `fwait` of the context on a word of the range looks its address up again: its next read begins after the command (R248, R376). -/
def renewFwaits (c lo hi : Nat) (s : State) : State :=
  let mine := fun (t : Thread) => match t.park with
    | .fwait va _ _ _ _ => decide (lo ≤ va.toNat % 2 ^ 57 ∧ va.toNat % 2 ^ 57 < hi)
    | _ => false
  if s.pl.ctx = some c then
    (s.living.filter mine).foldl (fun s t => leaveWaits t.slot t.lane s) (s.updThreads mine (fun t => { t with park := .none }))
  else s

/-- INVAL: translations go at once; the command completes when the accesses that used them have (R376): requests are served and
acknowledged, and stores that queues, entries and an L1 hold are home. -/
def invalCmd (s : State) : State :=
  let c := cmdCtx s
  let lo := if cmdArg s 1 = 0 then 0 else cmdArg s 0 % 2 ^ 57
  let hi := if cmdArg s 1 = 0 then 2 ^ 57 else lo + cmdArg s 1
  pollCommand (setCmd (.inval c s.nextId (storedUnder s c lo hi)) (dropTranslations c lo hi (renewFwaits c lo hi s)))

/-- COPY: an operation of the named cluster's engine at depth 0, whose status word goes to CMDSTAT. A page fault of its descriptor is recoverable: it
waits for the answer of its record (R335, R336, R354). -/
def copyCmd (s : State) : State :=
  let c := cmdCtx s
  let x := cmdArg s 1
  let op := fun (id : Nat) => ({ id := id, kind := .hostCopy, slot := x, block := none, ctx := c, desc := 0, addr := BitVec.ofNat 64 (cmdArg s 0) } : CopyOp)
  let poisoned := fun (s : State) => commandDone 0 { s with win := { s.win with cmdWord := engStatus 0x23 0 1 0 } }
  if x = s.xid ∧ copyHeld s ≥ 32 then setCmd .held s
  else match engHome s (0x8000 + 4 * x + 1) c (cmdArg s 0) .read 64 with
    | .error (.violation m h) => setCmd .held (freeze m c h s)
    | .error (.miss va a) => setCmd .held (engMiss (0x8000 + 4 * x + 1) c va a s)
    | .error (.fault va a) =>
      let (ok, s) := engFault (0x8000 + 4 * x + 1) c va a s
      if ok then
        let (id, s) := s.fresh
        setCmd .event { s with cl := { s.cl with copyQ := s.cl.copyQ ++ [{ op id with frozen := some (va, a), undescribed := true }] } }
      else setCmd .held s
    | .error (.lost m) => poisoned (linkLost c m s)
    | .error _ => setCmd .held s
    | .ok h =>
      if readPoisoned s h 64 then poisoned s
      else
        let (id, s) := s.fresh
        let op := withDesc s (BitVec.ofNat 512 (leNat (homeBytes s h 64))) (op id)
        setCmd .event { s with cl := { s.cl with copyQ := s.cl.copyQ ++ [op] } }

/-- A command that reads a module set, which the command processor is granted (R358). -/
def setRead (body : State → State) (s : State) : State := commandReads (cmdCtx s) [(cmdArg s 2, 32)] body s

/-- CHECKPOINT: armed for its stamp; a target whose window does not cover the region is refused with 4. -/
def checkpointCmd (s : State) : State :=
  let target := cmdArg s 1 % 256
  let base := cmdArg s 1 / 256 * 256
  if !Config.targetCovers target base then commandDone 4 s
  else setCmd .event { s with
    ckpt := { st := .armed, t := cmdArg s 0, target := target, base := base, set := moduleSet s (cmdArg s 2), got := s.ckpt.got, auto := cmdArg s 3 % 2 == 1 }
    ckptSet := moduleSet s (cmdArg s 2) }

/-- The 64 bytes at a target's base, where a checkpoint's header lies (Table 21-9). -/
def targetHeader (s : State) (target base : Nat) : Nat := leNat (homeBytes s (targetHome target base) 64)

/-- A header is one that RESTORE takes (R406): MAGIC, VALID, MODNUM, T and MLEN. -/
def headerOk (s : State) (t h : Nat) : Bool :=
  h % 2 ^ 32 == 0x43504B43 && h.testBit 32 && h / 2 ^ 64 % 256 == s.win.modnum % 256 && h / 2 ^ 128 % 2 ^ 64 == t % 2 ^ 64 && h / 2 ^ 256 % 2 ^ 64 == 2 ^ 39

/-- RESTORE: the header at the target is read as data of another module (R390). -/
def restoreCmd (s : State) : State :=
  let target := cmdArg s 1 % 256
  let base := cmdArg s 1 / 256 * 256
  let s := { s with ckptSet := moduleSet s (cmdArg s 2) }
  if !Config.targetCovers target base || isUnreachable s target || readPoisoned s (targetHome target base) 64 || !headerOk s (cmdArg s 0) (targetHeader s target base) then commandDone 4 s
  else setCmd .event { s with ckpt := { st := .restoring, t := cmdArg s 0, target := target, base := base, set := moduleSet s (cmdArg s 2) } }

/-! ## Registers (Table 21-1) -/

/-- One half of a 128-bit register. -/
def half (hi : Bool) (v : BitVec 64) : BitVec 128 := if hi then v.zeroExtend 128 <<< 64 else v.zeroExtend 128

/-- IRQMASK: sources that are set and become enabled send their messages. -/
def irqmaskStep (hi : Bool) (v : BitVec 64) (s : State) : State :=
  let old := s.win.irqmask
  let new := (if hi then old.truncate 64 |>.zeroExtend 128 else old &&& half true (BitVec.allOnes 64)) ||| half hi v
  let s := { s with win := { s.win with irqmask := new } }
  ((List.range 128).filter (fun k => new.getLsbD k && !old.getLsbD k && s.win.irqstat.getLsbD k)).foldl (fun s k => sendIrq k s) s

def clampCap (n : Nat) : Nat := if n < 1200 then 1200 else if n > 3000 then 3000 else n

/-- A register with no behaviour of its own: CMDREC, IRQVEC and the mailbox's request data; every other offset ignores the write. -/
def registerWriteStep (off : Nat) (v : BitVec 64) (s : State) : State :=
  if off % 8 ≠ 0 then s
  else if 0x100 ≤ off ∧ off < 0x140 then { s with win := { s.win with cmdrec := stSet 0 s.win.cmdrec ((off - 0x100) / 8) v } }
  else if 0x3100 ≤ off ∧ off < 0x3900 then
    let k := (off - 0x3100) / 16
    if off % 16 = 0 then { s with win := { s.win with irqaddr := stSet 0 s.win.irqaddr k v } }
    else { s with win := { s.win with irqdata := stSet 0 s.win.irqdata k ((v.truncate 32).zeroExtend 64) } }
  else if 0x5100 ≤ off ∧ off < 0x5900 then { s with win := { s.win with mbox := setLe s.win.mbox (off - 0x5000) 8 v.toNat } }
  else s

def stateCode : BringUp → Nat
  | .reset => 0
  | .waitFw => 1
  | .verify => 2
  | .train => 3
  | .ready => 4
  | .failed => 5

/-- What a host read of the register window returns (R6, Table 21-1): a write-only register, an offset that names none and a reserved
field read as zero. DESIGN CHOICE (log entry 73): the RAS log index is in bits [63:32] of the fourth RAS register. -/
def windowRead (off : Nat) (s : State) : Nat :=
  let w := s.win
  if off % 8 ≠ 0 then 0
  else if 0x3100 ≤ off ∧ off < 0x3900 then
    (if off % 16 = 0 then stGet 0 w.irqaddr ((off - 0x3100) / 16) else stGet 0 w.irqdata ((off - 0x3100) / 16)).toNat
  else if 0x5000 ≤ off ∧ off < 0x6000 then getLe w.mbox (off - 0x5000) 8
  else match off with
    | 0x0 => stateCode w.state
    | 0x8 => w.modnum
    | 0x10 => s.clock.tbase % 2 ^ 64
    | 0x148 => w.cmdRes % 256 + 2 ^ 32 * w.cmdWord.toNat
    | 0x3000 => w.irqstat.toNat % 2 ^ 64
    | 0x3008 => w.irqstat.toNat / 2 ^ 64
    | 0x3010 => w.irqmask.toNat % 2 ^ 64
    | 0x3018 => w.irqmask.toNat / 2 ^ 64
    | 0x3020 => w.ctxerr.toNat
    | 0x4000 => w.rasCorrected % 2 ^ 64
    | 0x4008 => w.rasTransient % 2 ^ 64
    | 0x4010 => w.rasLasting % 2 ^ 64
    | 0x4018 => w.rasRetry % 2 ^ 32 + 2 ^ 32 * (w.rasIdx % 2 ^ 32)
    | 0x6000 => w.pwrcap
    | 0x6008 => w.pwr
    | 0x6010 => w.temp
    | _ => 0

/-! ## The aperture (R393) -/

/-- An offset of the register window is of the root mailbox (Table 21-1), which a frozen host port still serves: only the root core unfreezes it.
DESIGN CHOICE (log entry 96). -/
def inMailbox (off : Nat) : Bool := decide (0x5000 ≤ off ∧ off < 0x6000)

/-- A host read of device memory, or of the register window, whose 1 MiB the model numbers from 2^39 on (log entry 73). -/
def apertureRead (pa n : Nat) (s : State) : State :=
  let bad := s.badPorts.contains hostPort
  if Config.memBytes ≤ pa then
    if n = 8 ∧ pa < Config.memBytes + 2 ^ 20 ∧ (isFrozen s masterHost = false ∨ inMailbox (pa - Config.memBytes) = true) then
      { s with out := s.out ++ [.readData (if bad then none else some (leBytes (windowRead (pa - Config.memBytes) s) 8))] }
    else s
  else if pa + n > Config.memBytes then s
  else portGate masterHost pa n (.hostRead pa n) (fun s => { s with out := s.out ++ [.readData (if bad || (List.range n).any (fun k => isPoisoned s (pa + k) 1) then none else some (homeRead s pa n))] }) s

/-- A host write commits at the home at depth 0; its completion time is kept for the host's releases (R395). A `bad` one was carried by a flit
that failed twice, and poisons its sectors (R356). -/
def hostCommit (pa : Nat) (bs : List Byte) (bad : Bool) (s : State) : State :=
  let (s, t) := commitLines 0 (atAddr pa bs) 0 .module s
  let s := keepPoison (if bad then ((List.range bs.length).map (fun k => (pa + k) / 64)).eraseDups else []) s
  { s with win := { s.win with hostPct := max s.win.hostPct t } }

/-- A write that the host port has taken enters the memory side (R358). -/
def hostWrite (pa : Nat) (bs : List Byte) (bad : Bool) (s : State) : State :=
  portGate masterHost pa bs.length (.hostWrite pa bs bad) (hostCommit pa bs bad) s

/-- A host write; a checkpoint holds it (R404), and a frozen port does not accept it (R359). -/
def apertureWrite (pa : Nat) (bs : List Byte) (bad : Bool) (s : State) : State :=
  if pa + bs.length > Config.memBytes || isFrozen s masterHost then s
  else if s.cp.stopped && decide (s.ckpt.st ≠ .idle) then { s with ckpt := { s.ckpt with held := s.ckpt.held ++ [(pa, bs, bad)] } }
  else hostWrite pa bs bad s

/-! ## Power and management (R409, R410) -/

def lowestMhz : Nat := 25 * (Config.lowestStep % 48 + 1)

/-- A reading of the hottest die, which TEMP shows: at 105 °C every context is pre-empted and the clock is at its lowest, at 115 °C the module is
without power. -/
def thermalStep (t : Nat) (s : State) : State :=
  let s := { s with win := { s.win with temp := t % 256 } }
  if t < 105 then s
  else if t ≥ 115 then { s with powered := false }
  else { s with
    ctxs := s.ctxs.map (fun c => { c with paused := true })
    clock := { s.clock with mhz := lowestMhz } }

/-- One step of 25 MHz: down above the limit, up again below it. -/
def powerStep (w : Nat) (s : State) : State :=
  let s := { s with win := { s.win with pwr := w % 4096 } }
  let m := s.clock.mhz
  let m := if w > s.win.pwrcap then max lowestMhz (m - 25) else if w < s.win.pwrcap && decide (s.win.temp < 105) then min 1200 (m + 25) else m
  { s with clock := { s.clock with mhz := m } }

/-- The value of a monitoring request: 0 PWR, 1 TEMP, 2 STATE, 3 to 6 the RAS counts. -/
def pldmValue (sel : Nat) (s : State) : Option Nat :=
  match sel with
  | 0 => some (windowRead 0x6008 s)
  | 1 => some (windowRead 0x6010 s)
  | 2 => some (windowRead 0 s)
  | 3 => some s.win.rasCorrected
  | 4 => some s.win.rasTransient
  | 5 => some s.win.rasLasting
  | 6 => some s.win.rasRetry
  | _ => none

/-- MAP_QUEUE (R155). -/
def execMapQueue (s : State) : Answer :=
  .next (command 1 mapCmd s)

/-- UNMAP_CTX (R174). -/
def execUnmapCtx (s : State) : Answer :=
  .next (command 2 (fun s => commandDone 0 (unmapContext (cmdCtx s) s)) s)

/-- CLEAR_ERROR (R172). -/
def execClearError (s : State) : Answer :=
  .next (command 3 clearCmd s)

/-- PREEMPT (R366). -/
def execPreempt (s : State) : Answer :=
  .next (command 4 preemptCmd s)

/-- RESUME (R366). -/
def execResume (s : State) : Answer :=
  .next (command 5 resumeCmd s)

/-- REG_GRAPH (R175). -/
def execRegGraph (s : State) : Answer :=
  .next (command 6 regGraphCmd s)

/-- INVAL (R376). -/
def execInval (s : State) : Answer :=
  .next (command 7 invalCmd s)

/-- COPY (R397). -/
def execCopy (s : State) : Answer :=
  .next (command 8 copyCmd s)

/-- CHECKPOINT (R404). -/
def execCheckpoint (s : State) : Answer :=
  .next (command 9 (setRead checkpointCmd) s)

/-- RESTORE (R406). -/
def execRestore (s : State) : Answer :=
  .next (command 10 (setRead restoreCmd) s)

/-- BADCMD (R397). -/
def execBadcmd (s : State) : Answer :=
  .next (commandGo cmdBad (commandDone 2) s)

/-- IRQMASK (R398). -/
def execIrqmask (hi : Bool) (v : BitVec 64) (s : State) : Answer :=
  .next (hostFlit (irqmaskStep hi v) s)

/-- IRQSTAT_CLEAR (R398). -/
def execIrqstatClear (hi : Bool) (v : BitVec 64) (s : State) : Answer :=
  .next (hostFlit (fun s => { s with win := { s.win with irqstat := s.win.irqstat &&& ~~~(half hi v) } }) s)

/-- CTXERR_CLEAR (R173). -/
def execCtxerrClear (v : BitVec 64) (s : State) : Answer :=
  .next (hostFlit (fun s => { s with win := { s.win with ctxerr := s.win.ctxerr &&& ~~~(v.truncate 32) } }) s)

/-- PWRCAP (R409). -/
def execPwrcap (v : BitVec 64) (s : State) : Answer :=
  .next (hostFlit (fun s => { s with win := { s.win with pwrcap := clampCap (v.toNat % 4096) } }) s)

/-- REGISTER_WRITE (R394). -/
def execRegisterWrite (off : Nat) (v : BitVec 64) (s : State) : Answer :=
  .next (if inMailbox off then registerWriteStep off v s else hostFlit (registerWriteStep off v) s)

/-- HOST_APERTURE_READ (R393). -/
def execHostApertureRead (pa n : Nat) (s : State) : Answer :=
  .next (apertureRead pa n s)

/-- HOST_APERTURE_WRITE (R393). -/
def execHostApertureWrite (pa : Nat) (bs : List (BitVec 8)) (s : State) : Answer :=
  .next (apertureWrite pa bs (s.badPorts.contains hostPort) s)

/-- THERMAL_PREEMPT (R409). -/
def execThermalPreempt (temp : Nat) (s : State) : Answer :=
  .next (thermalStep temp s)

/-- THERMAL_POWER_OFF (R409). -/
def execThermalPowerOff (temp : Nat) (s : State) : Answer :=
  .next (thermalStep temp s)

/-- POWER_CAP_ADJUST (R409). -/
def execPowerCapAdjust (watts : Nat) (s : State) : Answer :=
  .next (powerStep watts s)

/-- PLDM_REQUEST (R410). -/
def execPldmRequest (sel : Nat) (s : State) : Answer :=
  .next (match pldmValue sel s with
  | some v => { s with out := s.out ++ [.pldm (BitVec.ofNat 64 v)] }
  | none => s)

end Sys2Proof.Machine
end

