-- ==== Sys2Proof/Machine/RootCore.lean ====
section
/-! DEFINITION. The root core: bring-up, the firmware image, the mailbox and its operations, and the unfreezing of masters (R360,
R386 to R389, R399 to R403, R408). -/

namespace Sys2Proof.Machine

open Sys2Proof

/-! ## The mailbox (R403) -/

/-- Results of a mailbox request. -/
def mbOk : Nat := 0
def mbBadOp : Nat := 1
def mbBadArg : Nat := 2
def mbState : Nat := 3
def mbAuth : Nat := 4
def mbNotFrozen : Nat := 5

def reqOp (r : BitVec 64) : Nat := r.toNat % 256
def reqSeq (r : BitVec 64) : Nat := r.toNat / 256 % 256
def reqLen (r : BitVec 64) : Nat := r.toNat / 65536 % 4096

/-- The bits of a request word that must be zero. -/
def reqClean (r : BitVec 64) : Bool := r.toNat / 2 ^ 28 == 0

/-- Dword `k` of the request data. -/
def rqDword (s : State) (k : Nat) : Nat := getLe s.win.mbox (0x100 + 8 * k) 8

/-- The reply: its data, then its word, then interrupt source 66. -/
def mbReply (seq result : Nat) (data : List Byte) (s : State) : State :=
  let m := setBytes s.win.mbox (atAddr 0x900 data)
  let m := setLe m 8 8 (seq * 2 ^ 8 + result * 2 ^ 16 + data.length * 2 ^ 32)
  setIrq 66 { s with win := { s.win with mbox := m }, root := { s.root with serving := none } }

/-- A request of operation `op` that `mine` admits: ignored while another is served; refused in a STATE that does not accept it,
or with a wrong LEN; else `body` answers. -/
def mbServe (op : Nat) (mine : State → Bool) (states : List BringUp) (lenOk : Nat → Bool) (body : Nat → State → State) (req : BitVec 64) (s : State) : State :=
  if reqOp req ≠ op || !mine s || s.root.serving.isSome then s
  else
    let s := { s with win := { s.win with mbox := setLe s.win.mbox 0 8 req.toNat } }
    if !states.contains s.win.state then mbReply (reqSeq req) mbState [] s
    else if !lenOk (reqLen req) || !reqClean req then mbReply (reqSeq req) mbBadArg [] s
    else body (reqSeq req) s

def any_ (_ : State) : Bool := true

/-- A digest or a signature component as bytes in the order of the standards: the first byte is the most significant. -/
def beBytes (v n : Nat) : List Byte := (leBytes v n).reverse

/-! ## ATTEST, CERT, TIME_SET (R402, R403) -/

/-- The first 192 bytes of a report. -/
def reportBody (s : State) : List Byte :=
  leBytes (Config.deviceId.toNat % 2 ^ 128) 16 ++ leBytes s.win.modnum 4 ++ leBytes s.root.fwver.toNat 4 ++ leBytes s.clock.tbase 8
  ++ beBytes s.root.rdig.toNat 32 ++ beBytes s.root.qdig.toNat 32
  ++ beBytes (Config.tablesDigest (s.root.grants.map (fun g => (g.master, g.ctx, g.base, g.len)))).toNat 32
  ++ getBytes s.win.mbox 0x100 32 ++ List.replicate 32 0

def attestBody (seq : Nat) (s : State) : State :=
  let b := reportBody s
  let (i, s) := s.draw
  mbReply seq mbOk (b ++ beBytes (Config.sm2Sign i (Config.sm3 b)).toNat 64) s

def certBody (seq : Nat) (s : State) : State :=
  let c := Config.certChain
  mbReply seq mbOk (leBytes c.length 8 ++ (c.drop (rqDword s 0)).take 1784) s

def timeSetBody (seq : Nat) (s : State) : State :=
  mbReply seq mbOk [] { s with clock := { s.clock with tbase := rqDword s 0, phase := 0, slew := 0 } }

/-! ## DOMAIN_SET (R387, R389, R403) -/

/-- A request to module `m` is on its way: a message, or an `fwait` on a word of it. -/
def xOpen (s : State) (m : Nat) : Bool :=
  (s.pl.net ++ s.standby.plane.net).any (fun x => isX (bodyLine x.body * 128) && xModule (bodyLine x.body * 128) == m)
  || (s.living ++ s.standby.plane.threads).any (fun t => match t.park with
    | .fwait _ pa _ _ _ => isX pa && xModule pa == m
    | _ => false)

/-- The domain's lowest-numbered present module is another one. -/
def followsDomain (s : State) : Bool := s.root.domain.any (fun d => !d.pool && decide (d.m < s.win.modnum))

/-- The module whose time the domain keeps has no time to lose (R386). -/
def keepSync (s : State) : State := { s with syncLost := s.syncLost && followsDomain s }

/-- Changes of the domain table whose module has no request outstanding take effect; a new entry opens the ports to its module again. The silence of a
module that enters counts from now (R407). -/
def settleDomain (s : State) : State :=
  let now := s.root.domNext.filter (fun d => !xOpen s d.1)
  let tab := now.foldl (fun l d => l.filter (fun e => e.m != d.1) ++ d.2.toList) s.root.domain
  let fresh := now.filter (fun d => d.2.isSome && !s.root.domain.any (·.m == d.1))
  keepSync { s with
    heard := fresh.foldl (fun l d => stSet 0 l d.1 s.clock.tbase) s.heard
    closed := s.closed.filter (fun m => !now.any (·.1 == m))
    root := { s.root with domain := tab, domNext := s.root.domNext.filter (fun d => xOpen s d.1) } }

def domainBody (seq : Nat) (s : State) : State :=
  let w := rqDword s 0
  let ports := rqDword s 1
  let m := w % 256
  let present := w.testBit 8
  let kind := w.testBit 9
  let self := w.testBit 10
  if w / 2 ^ 11 ≠ 0 ∨ ports / 2 ^ 48 ≠ 0 then mbReply seq mbBadArg [] s
  else if self then
    if !present || kind || ports != 0 then mbReply seq mbBadArg [] s
    else if !s.ctxs.isEmpty then mbReply seq mbState [] s
    else mbReply seq mbOk [] (keepSync { s with win := { s.win with modnum := m } })
  else if m = s.win.modnum then mbReply seq mbBadArg [] s
  else
    let e : Option DomEnt := if present then some { m := m, pool := kind, ports := ports } else none
    mbReply seq mbOk [] (settleDomain { s with root := { s.root with domNext := s.root.domNext.filter (·.1 != m) ++ [(m, e)] } })

/-! ## GRANT (R358, R388, R403) -/

def grKind (s : State) : Nat := rqDword s 0 % 4
def grCtx (s : State) : Nat := rqDword s 0 / 2 ^ 8 % 256
def grMaster (s : State) : Nat := rqDword s 0 / 2 ^ 16 % 65536
def grWindow (s : State) : Nat := rqDword s 0 / 2 ^ 32 % 64

/-- A number names a master (R378, R403). -/
def masterNamed (m : Nat) : Bool :=
  decide (m < 1152) || decide (0x8000 ≤ m ∧ m < 0x8000 + 4 * 288) || decide (0x4000 ≤ m ∧ m ≤ 0x4030) || m == 0x7FFF

/-- The first dword's other bits are zero, and the range is of multiples of `n` in device memory. -/
def grantArgsOk (s : State) (n : Nat) : Bool :=
  let w := rqDword s 0
  w / 4 % 64 == 0 && w / 2 ^ 38 % 4 == 0 && w / 2 ^ 42 == 0 && rqDword s 1 % n == 0 && rqDword s 2 % n == 0
  && decide (rqDword s 1 + rqDword s 2 ≤ Config.memBytes)

def rangeArgsOk (s : State) : Bool := grantArgsOk s 4096 && (masterNamed (grMaster s) || grMaster s == 0xFFFF) && decide (grCtx s < 32)

/-- A grant joins those it meets or overlaps of the same master and context. -/
def joinGrant (g : Grant) (l : List Grant) : List Grant :=
  let touch := fun (x : Grant) => x.master == g.master && x.ctx == g.ctx && decide (x.base ≤ g.base + g.len ∧ g.base ≤ x.base + x.len)
  let near := l.filter touch
  let lo := near.foldl (fun n x => min n x.base) g.base
  let hi := near.foldl (fun n x => max n (x.base + x.len)) (g.base + g.len)
  l.filter (fun x => !touch x) ++ [{ g with base := lo, len := hi - lo }]

/-- A range of a master and context is taken out of a grant; 0xFFFF takes it from every master. -/
def cutGrant (m c base len : Nat) (g : Grant) : List Grant :=
  if g.ctx ≠ c ∨ (m ≠ 0xFFFF ∧ g.master ≠ m) then [g]
  else
    let lo := if g.base < base then [{ g with len := min g.len (base - g.base) }] else []
    let e := max g.base (base + len)
    let hi := if e < g.base + g.len then [{ g with base := e, len := g.base + g.len - e }] else []
    lo ++ hi

def grantBody (seq : Nat) (s : State) : State :=
  if grKind s ≠ 0 ∨ rangeArgsOk s = false then mbReply seq mbBadArg [] s
  else if rqDword s 2 = 0 then mbReply seq mbOk [] s
  else mbReply seq mbOk [] { s with root := { s.root with
    grants := joinGrant { master := grMaster s, ctx := grCtx s, base := rqDword s 1, len := rqDword s 2 } s.root.grants } }

def revokeBody (seq : Nat) (s : State) : State :=
  if !rangeArgsOk s then mbReply seq mbBadArg [] s
  else mbReply seq mbOk [] { s with root := { s.root with
    grants := s.root.grants.flatMap (cutGrant (grMaster s) (grCtx s) (rqDword s 1) (rqDword s 2)) } }

def exportBody (seq : Nat) (s : State) : State :=
  if !grantArgsOk s (2 ^ 21) then mbReply seq mbBadArg [] s
  else
    let w := grWindow s
    let keep := s.root.exports.filter (·.w != w)
    let new := if rqDword s 2 = 0 then [] else
      [{ w := w, base := rqDword s 1, len := rqDword s 2, r := (rqDword s 0).testBit 40, wr := (rqDword s 0).testBit 41 : Export }]
    mbReply seq mbOk [] { s with root := { s.root with exports := keep ++ new } }

/-! ## UNFREEZE (R360) -/

/-- The fetch unit serves the thread's `fget`. -/
def inFget (t : Thread) : Bool := match t.park with | .fget _ _ _ _ _ _ => true | _ => false

/-- The contexts with state on a master of this module. -/
def masterCtxs (s : State) (m : Nat) : List Nat :=
  let planes := [s.pl, s.standby.plane]
  let of := fun (h : Nat) => (planes.flatMap (·.blocks)).filterMap (fun b => if b.handle = h then some b.ctx else none)
  (if m = masterCore s then planes.filterMap (·.ctx) ++ s.sched.coreQ.map (·.ctx)
   else if m = masterCp then s.ctxs.map (·.n)
   else if m = masterEngine s 0 then (s.cl.table.map (·.block) ++ s.cl.frameOwner.map (·.2)).flatMap of
   else if m = masterEngine s 1 then (s.cl.copyQ.filter (fun c => opCluster s c == s.xid)).map (·.ctx)
   else if m = masterEngine s 2 then s.cl.fetchQ.map (·.ctx) ++ planes.flatMap (fun p => if (p.threads ++ [s.th]).any inFget then p.ctx.toList else [])
   else if m = masterEngine s 3 then (s.allSeqs.map (·.block)).flatMap of
   else if 0x4000 ≤ m ∧ m ≤ masterHost then []
   else (s.root.frozen.filter (·.master == m)).map (·.ctx) ++ (s.cl.copyQ.filter (fun c => copyMaster s c == m)).map (·.ctx)).eraseDups

/-- The port that a request came in at. -/
def portMaster : PortReq → Nat
  | .remote rq => masterPort rq.port
  | _ => masterHost

/-- A request that a port has taken goes on, or waits there behind the one that the port is frozen for (R359, R360). -/
def portAgain (r : PortReq) (k : State → State) (s : State) : State :=
  if isFrozen s (portMaster r) then { s with root := { s.root with portHeld := s.root.portHeld ++ [r] } } else k s

/-- The master that sent a message. -/
def msgMaster (s : State) : MsgBody → Nat
  | .fill f => fillMaster s f
  | .write w => writerMaster s w.writer
  | _ => masterCore s

/-- Requests that a master holds never go (R360). -/
def dropMsgs (m : Nat) (s : State) : State :=
  let keep := fun (p : Plane) => { p with net := p.net.filter (fun x => bodyServed x.body || msgMaster s x.body != m) }
  { s with pl := keep s.pl, standby := { s.standby with plane := keep s.standby.plane } }

/-- Field `lo + n - 1 .. lo` of the image header. -/
def fwField (s : State) (lo n : Nat) : Nat := getLe s.root.staging 0 256 / 2 ^ lo % 2 ^ n

/-- The queue firmware of the image that the host loaded goes to the command processor, whose 32 threads start at its first word
(R169, R399). DESIGN CHOICE (log entry 57): a reload takes it from the staging SRAM, where the image still is. -/
def startHarts (s : State) : State :=
  let rl := fwField s 64 32
  let words := (List.range (fwField s 96 32 / 4)).map (fun k => (4 * k, BitVec.ofNat 32 (getLe s.root.staging (256 + rl + 4 * k) 4)))
  { s with
    hart := {}
    cp := { s.cp with fw := stSetAll 0 [] words, harts := (List.range 32).map (fun n => { n := n }), lastHart := 31 }
    sl := { s.sl with resv := [] } }

/-- What a master itself holds at reset. -/
def resetMaster (m : Nat) (s : State) : State :=
  let s := dropMsgs m s.stow
  if m = masterCore s then { s with
    icache := [], xl := { s.xl with coreTlb := [] }, epct := 0, bundle := [], bundleAll := [], swapEnd := none
    pl := { freshPlane with net := s.pl.net }, standby := { plane := { freshPlane with net := s.standby.plane.net } } }
  else if m = masterCp then startHarts { s with cp := { s.cp with cmd := .none, cmdrec := [], bells := [] }, win := { s.win with cmdRes := 0 } }
  else if m = masterEngine s 0 then { s with cl := { s.cl with table := [] } }
  else if m = masterEngine s 2 then { s with cl := { s.cl with fetchCache := [] } }
  else if 0x4000 ≤ m ∧ m ≤ masterHost then { s with root := { s.root with portHeld := s.root.portHeld.filter (fun r => portMaster r != m) } }
  else s

def thaw (m : Nat) (s : State) : State := { s with root := { s.root with frozen := s.root.frozen.filter (·.master != m) } }

/-- UNFREEZE of a master with an action. -/
def unfreezeBody (action : Nat → Frozen → State → State) (seq : Nat) (s : State) : State :=
  let m := rqDword s 0 % 65536
  if rqDword s 0 / 2 ^ 17 ≠ 0 then mbReply seq mbBadArg [] s
  else match s.root.frozen.find? (·.master == m) with
    | none => mbReply seq mbNotFrozen [] s
    | some f => mbReply seq mbOk [] (action m f s)

/-- Reset: the requests that the master holds are dropped, and its contexts are unmapped with `FROZEN` (34). -/
def resetAction (m : Nat) (f : Frozen) (s : State) : State :=
  let s := (masterCtxs s m).foldl (fun s c => unmapContext c (ctxError c 34 (BitVec.ofNat 64 f.pa) s)) (dropMsgs m s.stow)
  pollCommand (thaw m (resetMaster m s))

def actionIs (b : Bool) (s : State) : Bool := (rqDword s 0).testBit 16 == b

/-! ## Firmware (R399, R400, R403, R408) -/

def fwLoadBody (seq : Nat) (len : Nat) (s : State) : State :=
  let off := rqDword s 0
  let n := len - 16
  let w := s.root
  if off % 16 ≠ 0 ∨ rqDword s 1 / 2 ≠ 0 ∨ off + n > 2 ^ 22 then mbReply seq mbBadArg [] s
  else if s.win.state = .failed ∧ (w.verifyFailed = false ∨ off ≠ 0) then mbReply seq mbState [] s
  else
    let staging := if s.win.state = .failed then [] else w.staging
    let top := max (off + n) (if s.win.state = .failed then 0 else w.staged)
    let s := { s with root := { w with staging := setBytes staging (atAddr off (getBytes s.win.mbox 0x110 n)), staged := top, verifyFailed := false } }
    if rqDword s 1 % 2 = 1 then { s with win := { s.win with state := .verify }, root := { s.root with imgLen := top, serving := some seq } }
    else mbReply seq mbOk [] { s with win := { s.win with state := .waitFw } }

def digestAt (s : State) (off : Nat) : Nat := leNat (getBytes s.root.staging off 32).reverse

/-- The boot ROM's checks (R400). -/
def fwOk (s : State) : Bool :=
  let rl := fwField s 64 32
  let ql := fwField s 96 32
  let part := fun (at_ n : Nat) => Config.sm3 (getBytes s.root.staging at_ n)
  fwField s 0 32 == 0x46574B43 && fwField s 32 16 == 1 && fwField s 48 16 == 256
  && fwField s 160 32 == 0 && fwField s 704 320 == 0 && fwField s 1536 512 == 0
  && rl % 16 == 0 && decide (16 ≤ rl ∧ rl ≤ 2 ^ 20) && ql % 16 == 0 && decide (16 ≤ ql ∧ ql ≤ 2 ^ 21)
  && s.root.imgLen == 256 + rl + ql
  && Config.sm2Verify (Config.sm3 (getBytes s.root.staging 0 128)) (BitVec.ofNat 512 (leNat (getBytes s.root.staging 128 64).reverse))
  && (part 256 rl).toNat == digestAt s 24 + 0 && (part (256 + rl) ql).toNat == digestAt s 56

/-- The check of the image ends. -/
def verifyStep (s : State) : State :=
  if s.win.state ≠ .verify then s
  else
    let seq := s.root.serving.getD 0
    if fwOk s then
      mbReply seq mbOk [] (startHarts { s with
        win := { s.win with state := .train }
        root := { s.root with fwver := BitVec.ofNat 32 (fwField s 128 32), rdig := BitVec.ofNat 256 (digestAt s 24), qdig := BitVec.ofNat 256 (digestAt s 56) } })
    else mbReply seq mbAuth [] { s with win := { s.win with state := .failed }, root := { s.root with verifyFailed := true } }

/-- Module reset (R408): every register is as at reset; what lies in memory, outside the module and in the model's counters stays. -/
def resetStep (s : State) : State :=
  { State.reset with
    coreNo := s.coreNo, mem := s.mem, remote := s.remote, images := s.images, out := s.out, nextId := s.nextId, freeCtr := s.freeCtr, agenda := s.agenda }

/-- ATTEST (R402). -/
def execAttest (req : BitVec 64) (s : State) : Answer :=
  .next (mbServe 1 any_ [.ready] (· == 32) attestBody req s)

/-- CERT (R403). -/
def execCert (req : BitVec 64) (s : State) : Answer :=
  .next (mbServe 2 any_ [.train, .ready] (· == 8) certBody req s)

/-- TIME_SET (R403). -/
def execTimeSet (req : BitVec 64) (s : State) : Answer :=
  .next (mbServe 3 any_ [.waitFw, .verify, .train] (· == 8) timeSetBody req s)

/-- DOMAIN_SET (R403). -/
def execDomainSet (req : BitVec 64) (s : State) : Answer :=
  .next (mbServe 4 any_ [.train, .ready] (· == 16) domainBody req s)

/-- GRANT_RANGE (R403); a KIND of 3 is answered here. -/
def execGrantRange (req : BitVec 64) (s : State) : Answer :=
  .next (mbServe 5 (fun s => grKind s == 0 || grKind s == 3) [.train, .ready] (· == 24) grantBody req s)

/-- REVOKE_RANGE (R403). -/
def execRevokeRange (req : BitVec 64) (s : State) : Answer :=
  .next (mbServe 5 (fun s => grKind s == 1) [.train, .ready] (· == 24) revokeBody req s)

/-- SET_EXPORT_WINDOW (R403). -/
def execSetExportWindow (req : BitVec 64) (s : State) : Answer :=
  .next (mbServe 5 (fun s => grKind s == 2) [.train, .ready] (· == 24) exportBody req s)

/-- UNFREEZE_RESUME (R360): held requests go on, each checked again. -/
def execUnfreezeResume (req : BitVec 64) (s : State) : Answer :=
  .next (mbServe 6 (actionIs false) [.ready] (· == 8) (unfreezeBody (fun m _ s => thaw m s)) req s)

/-- UNFREEZE_RESET (R360). -/
def execUnfreezeReset (req : BitVec 64) (s : State) : Answer :=
  .next (mbServe 6 (actionIs true) [.ready] (· == 8) (unfreezeBody resetAction) req s)

/-- FW_LOAD (R403). -/
def execFwLoad (req : BitVec 64) (s : State) : Answer :=
  .next (mbServe 7 any_ [.waitFw, .failed] (fun n => decide (16 ≤ n ∧ n ≤ 2048)) (fun seq s => fwLoadBody seq (reqLen req) s) req s)

/-- MAILBOX_BADOP (R403). -/
def execMailboxBadop (req : BitVec 64) (s : State) : Answer :=
  .next (if s.root.serving.isSome || (decide (1 ≤ reqOp req) && decide (reqOp req ≤ 7)) then s
    else mbReply (reqSeq req) mbBadOp [] { s with win := { s.win with mbox := setLe s.win.mbox 0 8 req.toNat } })

/-- FW_VERIFY (R399). -/
def execFwVerify (s : State) : Answer :=
  .next (verifyStep s)

/-- MODULE_RESET (R408). -/
def execModuleReset (s : State) : Answer :=
  .next (resetStep s)

/-- BRING_UP_START (R408). -/
def execBringUpStart (s : State) : Answer :=
  .next (if s.win.state = .reset then { s with win := { s.win with state := .waitFw } } else s)

/-- Ports that are taken out (R390, R391), and interrupt source 68. -/
def portsOut (l : List Nat) (s : State) : State :=
  if l.isEmpty then s
  else setIrq 68 { s with ports := l.map (fun p => { ((s.ports.find? (·.n == p)).getD { n := p }) with out := true }) ++ s.ports.filter (fun x => !l.contains x.n) }

/-- TRAIN_COMPLETE (R391, R408): the ports that failed to train are taken out. -/
def execTrainComplete (t : Training) (s : State) : Answer :=
  .next (if s.win.state = .train then portsOut t.out { s with win := { s.win with state := if t.ok then .ready else .failed } } else s)

end Sys2Proof.Machine
end

