-- ==== Sys2Proof/Machine/Checkpoint.lean ====
section
/-! DEFINITION. A checkpoint of the module after its command, and the end of a restore (R404 to R406). -/

namespace Sys2Proof.Config

/-- What a checkpoint region holds that this machine did not write (R407): the first of a list, if it has one. -/
opaque otherImages : Nat → List Machine.CkptImage

end Sys2Proof.Config

namespace Sys2Proof.Machine

open Sys2Proof

/-! ## Quiesce and drain (R404 steps 1 and 2) -/

/-- The X requests that a plane has open. -/
def remoteOpen (p : Plane) : Bool := p.net.any (fun m => isX (bodyLine m.body * 128)) || !p.storeQ.isEmpty || !p.puts.isEmpty

/-- Every context is saved, and every X request has been acknowledged. -/
def drained (s : State) : Bool :=
  (planeCtx s).isNone && decide (s.standby.st = .empty) && !s.standby.engineDue && s.swapEnd.isNone && s.cp.resuming.isEmpty
  && !remoteOpen s.pl && !remoteOpen s.standby.plane

/-- The contexts are pre-empted, and packets, tree completions, signal writes and host writes are held. -/
def quiesceNow (s : State) : State :=
  { s with
    ctxs := s.ctxs.map (fun c => { c with paused := true })
    cp := { s.cp with stopped := true }
    ckpt := { s.ckpt with st := .draining } }

def setCkpt (f : Ckpt → Ckpt) (s : State) : State := { s with ckpt := f s.ckpt }

/-! ## The barrier and the stream (R404 steps 3 and 4, R406) -/

/-- QUIESCED of this stamp has come from every other module of the set. A message is kept as its stamp times 256 plus its sender's MODNUM. -/
def allQuiesced (s : State) : Bool := s.ckpt.set.all (fun m => m == s.win.modnum || s.ckpt.got.contains (s.ckpt.t * 256 + m))

/-- The 64 bytes of a checkpoint header (Table 21-9). -/
def ckptHeader (valid : Bool) (modnum t slen : Nat) (crc : BitVec 32) : List Byte :=
  leBytes (0x43504B43 + (if valid then 2 ^ 32 else 0) + 2 ^ 64 * (modnum % 256) + 2 ^ 128 * (t % 2 ^ 64)
    + 2 ^ 192 * slen + 2 ^ 256 * 2 ^ 39 + 2 ^ 320 * crc.toNat) 64

/-- The CRC-32C over the state image and the memory image, as the target's region holds them. -/
def imageCrc (x : CkptImage) : BitVec 32 :=
  crc32c (((List.range x.slen).map (fun k => 0x1000 + k) ++ (List.range (2 ^ 39)).map (fun k => 0x10000000 + k)).map (fun o =>
    if o < 0x10000000 then Config.freeImage (x.hdr * 2 ^ 29 + o) else getByte x.mem (o - 0x10000000)))

/-- An image's header and zeros after it, at the target's base. The CRC is written as the image closes; before that its field is zero. -/
def writeHeader (x : CkptImage) (valid : Bool) (s : State) : State :=
  { s with remote := soSetAll s.remote (atAddr x.start (ckptHeader valid x.modnum x.t x.slen (if valid then imageCrc x else 0) ++ List.replicate 4032 0)) }

/-- What the target's region holds from now on: the device's own layout of the state, of free bytes and length, and memory (R404, R406). -/
def takeImage (i : Nat) (s : State) : CkptImage :=
  { target := s.ckpt.target, base := s.ckpt.base, t := s.ckpt.t, modnum := s.win.modnum
    hdr := i, slen := (Config.freeWord i).toNat % (2 ^ 28 - 4095)
    sched := s.sched, sl := s.sl, cp := { s.cp with harts := updIf (·.n == s.hart.n) (fun _ => s.hart) s.cp.harts }
    ctxs := s.ctxs, slots := s.slots, mem := s.mem }

/-- Two checkpoints of one target share bytes. -/
def overlap (x y : CkptImage) : Bool := x.target == y.target && decide (x.base < y.base + ckptBytes ∧ y.base < x.base + ckptBytes)

/-- The barrier is passed: the image is what memory and state hold now (R405). Its region held one checkpoint at most, and the target's other bases keep
theirs (R406); what a read finds of one that the region cuts into is free. -/
def beginStream (s : State) : State :=
  let (i, s) := s.draw
  let x := takeImage i s
  writeHeader x false { s with
    ckpt := { s.ckpt with st := .streaming, hdr := i }
    remote := s.remote.filter (fun c => !inTarget x.target x.base c.1)
    images := x :: s.images.filter (fun y => !overlap x y) }

/-- A module at the barrier goes on once every module is there. -/
def passBarrier (s : State) : State :=
  match s.ckpt.st with
  | .barrier _ => if allQuiesced s then beginStream s else s
  | _ => s

def quiesceStep (s : State) : State :=
  match s.ckpt.st with
  | .armed => if s.clock.tbase < s.ckpt.t then s else quiesceNow s
  | .draining =>
    let s := s.stow
    if drained s then passBarrier { s with ckpt := { s.ckpt with st := .barrier s.clock.tbase }, out := s.out ++ [.quiesced s.ckpt.t] }
    else s
  | _ => s

/-- QUIESCED of a module: `m` is its stamp times 256 plus the sender's MODNUM. -/
def quiescedStep (m : Nat) (s : State) : State :=
  passBarrier { s with ckpt := { s.ckpt with got := if s.ckpt.got.contains m then s.ckpt.got else s.ckpt.got ++ [m] } }

/-! ## The end (R404 steps 3 and 5, R405) -/

/-- Held host writes enter the memory side in order (R358, R359), packets and signals go on, and with AUTORESUME every context is resumed. QUIESCED messages of other stamps
are kept. -/
def releaseHeld (s : State) : State :=
  let k := s.ckpt
  let s := { s with ckpt := { got := k.got.filter (fun g => g / 256 != k.t) }, cp := { s.cp with stopped := false } }
  let s := k.held.foldl (fun s w => portAgain (.hostWrite w.1 w.2.1 w.2.2) (hostWrite w.1 w.2.1 w.2.2) s) s
  if k.auto then s.ctxs.foldl (fun s c => resumeCtx c.n s) s else s

def abandonStep (s : State) : State :=
  match s.ckpt.st with
  | .barrier since =>
    if s.clock.tbase < since + 1000000000 ∨ allQuiesced s = true then s
    else commandDone 3 (releaseHeld s)
  | _ => s

def closeStep (s : State) : State :=
  match s.ckpt.st with
  | .streaming =>
    let s := match s.images.find? (fun x => x.target == s.ckpt.target && x.base == s.ckpt.base) with
      | some x => writeHeader x true s
      | none => s
    commandDone 0 (setIrq 67 (releaseHeld s))
  | _ => s

/-! ## The end of a restore (R406) -/

/-- The core and its cluster hold nothing. -/
def emptied (s : State) : State :=
  { s with
    th := {}, sq := {}, bundle := [], bundleAll := [], split := none, pl := freshPlane, standby := {}, swapEnd := none, cl := {}, xl := {}, icache := [] }

/-- The threads of a saved plane once each, living, in the order of slot and lane, as a save writes them. -/
def Plane.tidy (p : Plane) : Plane :=
  { p with threads := (p.threads.filter (fun t => t.live && decide (t.lane < 32))).foldl (fun l t => insThread t l) [] }

/-- The module is as its image has it; no context runs until it is resumed. -/
def adoptImage (x : CkptImage) (s : State) : State :=
  let s := emptied s
  { s with
    sched := x.sched, sl := x.sl, mem := setBytes [] (x.mem.filter (fun c => decide (c.1 < Config.memBytes))), ckpt := {}
    slots := x.slots.map (fun y => { y with standby := { y.standby with plane := y.standby.plane.tidy } })
    ctxs := x.ctxs.map (fun c => { c with paused := true })
    hart := (x.cp.harts.find? (·.n == s.hart.n)).getD {}
    cp := { x.cp with cmd := .none, stopped := false } }

/-- The image that the target's region holds, and whether its bytes meet the header's CRC: where it is the one that this machine wrote and nothing has
been written over it, its own; else one that this machine does not know, as another module's at its buddy (R407), whose state is free. -/
def readImage (h : Nat) (s : State) : Option CkptImage × Bool × Nat × State :=
  let (i, s) := s.draw
  match s.images.find? (fun x => x.target == s.ckpt.target && x.base == s.ckpt.base) with
  | some x =>
    if s.remote.any (fun c => (x.byteAt c.1).isSome) then ((Config.otherImages i).head?, Config.readBackOk i, Config.readBackLen i, s)
    else (some x, BitVec.ofNat 32 (h / 2 ^ 320) == imageCrc x && h / 2 ^ 352 == 0, Config.readBackLen i, s)
  | none => ((Config.otherImages i).head?, Config.readBackOk i, Config.readBackLen i, s)

/-- The check fails after the first `n` bytes of memory, which the image `m` has: no context is mapped. -/
def failRestore (m : List Host.Cell) (n : Nat) (s : State) : State :=
  let s := s.ctxs.foldl (fun s c => unmapContext c.n s) s
  { s with mem := setBytes (s.mem.filter (fun c => decide (n ≤ c.1))) (m.filter (fun c => decide (c.1 < n))), slots := [], ckpt := {} }

def readBackStep (s : State) : State :=
  match s.ckpt.st with
  | .restoring =>
    let h := targetHeader s s.ckpt.target s.ckpt.base
    let fail := fun (m : List Host.Cell) (n : Nat) (s : State) => commandDone 4 (setIrq 67 (failRestore m n s))
    if isUnreachable s s.ckpt.target || !headerOk s s.ckpt.t h then fail [] 0 s
    else match readImage h s with
    | (none, _, _, s) => fail [] 0 s
    | (some x, ok, n, s) => if ok then commandDone 0 (setIrq 67 (adoptImage x s)) else fail x.mem n s
  | _ => s

/-- CHECKPOINT_QUIESCE (R404). -/
def execCheckpointQuiesce (s : State) : Answer :=
  .next (quiesceStep s)

/-- QUIESCED (R404). -/
def execQuiesced (m : Nat) (s : State) : Answer :=
  .next (quiescedStep m s)

/-- CHECKPOINT_ABANDON (R404). -/
def execCheckpointAbandon (s : State) : Answer :=
  .next (abandonStep s)

/-- CHECKPOINT_CLOSE (R404). -/
def execCheckpointClose (s : State) : Answer :=
  .next (closeStep s)

/-- RESTORE_READBACK_DONE (R406). -/
def execRestoreReadbackDone (s : State) : Answer :=
  .next (readBackStep s)

end Sys2Proof.Machine
end

