-- ==== Sys2Proof/Machine/Collective.lean ====
section
/-! DEFINITION. Warp collectives: major 0x28 (R128, R129, R141 to R147). -/

namespace Sys2Proof.Machine

open Sys2Proof

/-! ## Ends that an arrival causes (R128, R129) -/

/-- Whether an instance names a thread that is parked in another. -/
def waitsOn (a b : Coll) : Bool := a.pc != b.pc && (a.mask &&& arrivedMask b) != 0

/-- The instances that `seen` leads to, in at most `fuel` rounds. -/
def collReach (next : Coll → Coll → Bool) (cs : List Coll) : Nat → List Coll → List Coll
  | 0, seen => seen
  | fuel + 1, seen => collReach next cs fuel (cs.filter (fun c => seen.contains c || seen.any (fun x => next x c)))

/-- The instances of the warp on a cycle of waiting through `c`. -/
def collCycle (s : State) (c : Coll) : List Coll :=
  let cs := s.pl.colls.filter (·.slot == c.slot)
  let ahead := collReach waitsOn cs 32 (cs.filter (waitsOn c))
  let behind := collReach (fun x y => waitsOn y x) cs 32 (cs.filter (fun x => waitsOn x c))
  cs.filter (fun x => ahead.contains x && behind.contains x)

def mismatch (c : Coll) (_ : CollArrival) : Trap := { cause := .collMismatch, info := c.mask }

/-- An arrival joins its instance, and the ends of Table 6-2 are checked in order. -/
def joinColl (c : Coll) (me : CollArrival) (mask : Word) (inh : Bool) (s : State) : State :=
  let c' := { c with got := c.got ++ [me] }
  if c.mask != mask || c.inh != inh then failColl c' (mismatch c) s
  else
    let s := putColl c' s
    match collCycle s c' with
    | [] => settleColl c.slot c.pc s
    | ring => ring.foldl (fun s x => failColl x (mismatch x) s) s

/-- The mask of a collective: `wmm` names the whole warp (R146). -/
def collMask (f : Nat) (o : Opnds) : Word := if f = 13 then 0xFFFFFFFF else wordOf o.b

/-- A thread arrives at a collective (R128, R141). -/
def collOp (i : Ins) (f : Nat) (o : Opnds) (s : State) : State :=
  let mask := collMask f o
  if !mask.getLsbD s.th.lane then raise { cause := .collSelf, info := mask } s
  else
    let me : CollArrival := { lane := s.th.lane, av := wordOf o.a, bv := wordOf o.b, dv := dwordOf o.d, fv := wordOf o.x, dst := o.pd, smark := i.s }
    let inh := s.th.inh
    let c := (findColl s s.th.slot s.th.pc).getD { slot := s.th.slot, pc := s.th.pc, f := f, mask := mask, inh := inh }
    joinColl c me mask inh (hold i .coll s)

/-- A member of major 0x28. -/
def coll (i : Ins) (f : Nat) (s : State) : Answer := runThread i (collOp i f) s

/-- WVOTE_ANY (R141). -/
def execWvoteAny (sw : Bool) (d a b : BitVec 7) (s : State) : Answer :=
  coll ⟨packA sw 40 d a b 0, none, .coll .dst d a b⟩ 0 s

/-- WVOTE_ALL (R141). -/
def execWvoteAll (sw : Bool) (d a b : BitVec 7) (s : State) : Answer :=
  coll ⟨packA sw 40 d a b 1, none, .coll .dst d a b⟩ 1 s

/-- WBALLOT (R141). -/
def execWballot (sw : Bool) (d a b : BitVec 7) (s : State) : Answer :=
  coll ⟨packA sw 40 d a b 2, none, .coll .dst d a b⟩ 2 s

/-- WRED_ADD (R142). -/
def execWredAdd (sw : Bool) (d a b : BitVec 7) (s : State) : Answer :=
  coll ⟨packA sw 40 d a b 3, none, .coll .dst d a b⟩ 3 s

/-- WRED_FADD (R143). -/
def execWredFadd (sw : Bool) (d a b : BitVec 7) (s : State) : Answer :=
  coll ⟨packA sw 40 d a b 4, none, .coll .dst d a b⟩ 4 s

/-- WRED_MIN (R142). -/
def execWredMin (sw : Bool) (d a b : BitVec 7) (s : State) : Answer :=
  coll ⟨packA sw 40 d a b 5, none, .coll .dst d a b⟩ 5 s

/-- WRED_MAX (R142). -/
def execWredMax (sw : Bool) (d a b : BitVec 7) (s : State) : Answer :=
  coll ⟨packA sw 40 d a b 6, none, .coll .dst d a b⟩ 6 s

/-- WSCAN_ADD (R142). -/
def execWscanAdd (sw : Bool) (d a b : BitVec 7) (s : State) : Answer :=
  coll ⟨packA sw 40 d a b 7, none, .coll .dst d a b⟩ 7 s

/-- WSCAN_FADD (R142). -/
def execWscanFadd (sw : Bool) (d a b : BitVec 7) (s : State) : Answer :=
  coll ⟨packA sw 40 d a b 8, none, .coll .dst d a b⟩ 8 s

/-- WSEGSCAN_ADD (R142). -/
def execWsegscanAdd (sw : Bool) (d a b : BitVec 7) (s : State) : Answer :=
  coll ⟨packA sw 40 d a b 9, none, .coll .upd d a b⟩ 9 s

/-- WSEGSCAN_FADD (R142). -/
def execWsegscanFadd (sw : Bool) (d a b : BitVec 7) (s : State) : Answer :=
  coll ⟨packA sw 40 d a b 10, none, .coll .upd d a b⟩ 10 s

/-- WISECT (R144). -/
def execWisect (sw : Bool) (d a b : BitVec 7) (s : State) : Answer :=
  coll ⟨packA sw 40 d a b 11, none, .coll .upd d a b⟩ 11 s

/-- WNZ (R145). -/
def execWnz (sw : Bool) (d a b : BitVec 7) (s : State) : Answer :=
  coll ⟨packA sw 40 d a b 12, none, .coll .upd d a b⟩ 12 s

/-- WMM (R146). -/
def execWmm (sw : Bool) (d a b : BitVec 7) (p : Payload) (s : State) : Answer :=
  coll ⟨packA sw 40 d a b 13, p, .wmm d a b p⟩ 13 s

/-- WSYNC (R147). -/
def execWsync (sw : Bool) (b : BitVec 7) (s : State) : Answer :=
  coll ⟨packA sw 40 0#7 0#7 b 14, none, .plain [⟨b, 1, .src, .b⟩]⟩ 14 s

/-- WPERM (R141). -/
def execWperm (sw : Bool) (d a b : BitVec 7) (s : State) : Answer :=
  coll ⟨packA sw 40 d a b 15, none, .coll .upd d a b⟩ 15 s

end Sys2Proof.Machine
end

