-- ==== Sys2Proof/Machine/Float.lean ====
section
/-! DEFINITION. Floating-point arithmetic: majors 0x18 to 0x1B (R102 to R109). -/

namespace Sys2Proof.Machine

open Sys2Proof

/-- How element `e` of an instruction is rounded: RND and SAT of its payload, and its place in the dither matrix (R42, R103). -/
def rmAt (i : Ins) (e : Nat) : RM := { mode := pbits i.alu 6 3, sat := i.alu.getLsbD 5, dith := ditherLane e }

/-- The exact operation of an element on d, a and b, rounded (R106). -/
abbrev ElemOp := Fmt → RM → Nat → Nat → Nat → Nat

/-- FP32: one element in a register (R102). -/
def floatS (i : Ins) (lo hi : Nat) (f : ElemOp) (s : State) : Answer :=
  runFloat i (fun o s => result i o
    [BitVec.ofNat 32 (f .f32 (rmAt i s.th.lane) (wordOf o.d).toNat (wordOf o.a).toNat (wordOf o.b).toNat)] lo hi s) s

/-- FP64: one element in a pair. -/
def floatD (i : Ins) (lo hi : Nat) (f : ElemOp) (s : State) : Answer :=
  runFloat i (fun o s => result i o
    (dwordWords (BitVec.ofNat 64 (f .f64 (rmAt i s.th.lane) (dwordOf o.d).toNat (dwordOf o.a).toNat (dwordOf o.b).toNat))) lo hi s) s

/-- Half `h` of a word (R32). -/
def halfOf (v : BitVec 256) (h : Nat) : Nat := v.toNat / 2 ^ (16 * h) % 65536

/-- A packed word of FP16 or BF16: each half on its own, element index 2 × `lid` + h (R102, R106). -/
def floatP (fmt : Fmt) (i : Ins) (lo hi : Nat) (f : ElemOp) (s : State) : Answer :=
  runFloat i (fun o s =>
    let half := fun (h : Nat) => f fmt (rmAt i (2 * s.th.lane + h)) (halfOf o.d h) (halfOf o.a h) (halfOf o.b h)
    result i o [BitVec.ofNat 32 (half 0 + 65536 * half 1)] lo hi s) s

/-- The compares (R108): 1 or 0; a packed compare writes bits 0 and 16. -/
def cmpS (i : Ins) (f : Fmt → Nat → Nat → Bool) (s : State) : Answer :=
  runFloat i (fun o => result i o [flag (f .f32 (wordOf o.a).toNat (wordOf o.b).toNat)] 6 6) s
def cmpD (i : Ins) (f : Fmt → Nat → Nat → Bool) (s : State) : Answer :=
  runFloat i (fun o => result i o [flag (f .f64 (dwordOf o.a).toNat (dwordOf o.b).toNat)] 8 8) s
def cmpP (fmt : Fmt) (i : Ins) (f : Fmt → Nat → Nat → Bool) (s : State) : Answer :=
  runFloat i (fun o =>
    let half := fun (h : Nat) => (f fmt (halfOf o.a h) (halfOf o.b h)).toNat
    result i o [BitVec.ofNat 32 (half 0 + 65536 * half 1)] 6 6) s


/-! ## .s -/

/-- FADD_S (R106). -/
def execFaddS (sw : Bool) (d a b : BitVec 7) (p : Payload) (s : State) : Answer :=
  floatS ⟨packA sw 24 d a b 0, p, .alu3 1 1 1 true false d a b⟩ 6 6 (fun t r _ a b => fadd t r a b) s

/-- FSUB_S (R106). -/
def execFsubS (sw : Bool) (d a b : BitVec 7) (p : Payload) (s : State) : Answer :=
  floatS ⟨packA sw 24 d a b 1, p, .alu3 1 1 1 true false d a b⟩ 6 6 (fun t r _ a b => fsub t r a b) s

/-- FMUL_S (R106). -/
def execFmulS (sw : Bool) (d a b : BitVec 7) (p : Payload) (s : State) : Answer :=
  floatS ⟨packA sw 24 d a b 2, p, .alu3 1 1 1 true false d a b⟩ 6 6 (fun t r _ a b => fmul t r a b) s

/-- FMIN_S (R107). -/
def execFminS (sw : Bool) (d a b : BitVec 7) (p : Payload) (s : State) : Answer :=
  floatS ⟨packA sw 24 d a b 3, p, .alu3 1 1 1 false false d a b⟩ 6 6 (fun t _ _ a b => fminmax t false a b) s

/-- FMAX_S (R107). -/
def execFmaxS (sw : Bool) (d a b : BitVec 7) (p : Payload) (s : State) : Answer :=
  floatS ⟨packA sw 24 d a b 4, p, .alu3 1 1 1 false false d a b⟩ 6 6 (fun t _ _ a b => fminmax t true a b) s

/-- FDIV_S (R106). -/
def execFdivS (sw : Bool) (d a b : BitVec 7) (p : Payload) (s : State) : Answer :=
  floatS ⟨packA sw 24 d a b 5, p, .alu3 1 1 1 true false d a b⟩ 14 40 (fun t r _ a b => fdiv t r a b) s

/-- FSQRT_S (R106). -/
def execFsqrtS (sw : Bool) (d a : BitVec 7) (p : Payload) (s : State) : Answer :=
  floatS ⟨packA sw 24 d a 0#7 6, p, .alu2 1 1 true false true false d a⟩ 14 40 (fun t r _ a _ => fsqrt t r a) s

/-- FRCP_S (R106). -/
def execFrcpS (sw : Bool) (d a : BitVec 7) (p : Payload) (s : State) : Answer :=
  floatS ⟨packA sw 24 d a 0#7 7, p, .alu2 1 1 true false true false d a⟩ 14 40 (fun t r _ a _ => frcp t r a) s

/-- FABS_S (R105). -/
def execFabsS (sw : Bool) (d a : BitVec 7) (p : Payload) (s : State) : Answer :=
  floatS ⟨packA sw 24 d a 0#7 8, p, .alu2 1 1 false false true false d a⟩ 6 6 (fun t _ _ a _ => fabs t a) s

/-- FNEG_S (R105). -/
def execFnegS (sw : Bool) (d a : BitVec 7) (p : Payload) (s : State) : Answer :=
  floatS ⟨packA sw 24 d a 0#7 9, p, .alu2 1 1 false false true false d a⟩ 6 6 (fun t _ _ a _ => fneg t a) s

/-- FEQ_S (R108). -/
def execFeqS (sw : Bool) (d a b : BitVec 7) (p : Payload) (s : State) : Answer :=
  cmpS ⟨packA sw 24 d a b 10, p, .alu3 1 1 1 false false d a b⟩ feq s

/-- FLT_S (R108). -/
def execFltS (sw : Bool) (d a b : BitVec 7) (p : Payload) (s : State) : Answer :=
  cmpS ⟨packA sw 24 d a b 11, p, .alu3 1 1 1 false false d a b⟩ flt s

/-- FLE_S (R108). -/
def execFleS (sw : Bool) (d a b : BitVec 7) (p : Payload) (s : State) : Answer :=
  cmpS ⟨packA sw 24 d a b 12, p, .alu3 1 1 1 false false d a b⟩ fle s

/-- FUN_S (R108). -/
def execFunS (sw : Bool) (d a b : BitVec 7) (p : Payload) (s : State) : Answer :=
  cmpS ⟨packA sw 24 d a b 13, p, .alu3 1 1 1 false false d a b⟩ fun2 s

/-- FMA_S (R106). -/
def execFmaS (sw : Bool) (d a b : BitVec 7) (p : Payload) (s : State) : Answer :=
  floatS ⟨packA sw 24 d a b 14, p, .alu3u 1 1 1 true false d a b⟩ 6 6 (fun t r d a b => ffma t r d a b) s

/-- FNMA_S (R106). -/
def execFnmaS (sw : Bool) (d a b : BitVec 7) (p : Payload) (s : State) : Answer :=
  floatS ⟨packA sw 24 d a b 15, p, .alu3u 1 1 1 true false d a b⟩ 6 6 (fun t r d a b => ffnma t r d a b) s

/-! ## .d -/

/-- FADD_D (R106). -/
def execFaddD (sw : Bool) (d a b : BitVec 7) (p : Payload) (s : State) : Answer :=
  floatD ⟨packA sw 25 d a b 0, p, .alu3 2 2 2 true false d a b⟩ 8 8 (fun t r _ a b => fadd t r a b) s

/-- FSUB_D (R106). -/
def execFsubD (sw : Bool) (d a b : BitVec 7) (p : Payload) (s : State) : Answer :=
  floatD ⟨packA sw 25 d a b 1, p, .alu3 2 2 2 true false d a b⟩ 8 8 (fun t r _ a b => fsub t r a b) s

/-- FMUL_D (R106). -/
def execFmulD (sw : Bool) (d a b : BitVec 7) (p : Payload) (s : State) : Answer :=
  floatD ⟨packA sw 25 d a b 2, p, .alu3 2 2 2 true false d a b⟩ 8 8 (fun t r _ a b => fmul t r a b) s

/-- FMIN_D (R107). -/
def execFminD (sw : Bool) (d a b : BitVec 7) (p : Payload) (s : State) : Answer :=
  floatD ⟨packA sw 25 d a b 3, p, .alu3 2 2 2 false false d a b⟩ 8 8 (fun t _ _ a b => fminmax t false a b) s

/-- FMAX_D (R107). -/
def execFmaxD (sw : Bool) (d a b : BitVec 7) (p : Payload) (s : State) : Answer :=
  floatD ⟨packA sw 25 d a b 4, p, .alu3 2 2 2 false false d a b⟩ 8 8 (fun t _ _ a b => fminmax t true a b) s

/-- FDIV_D (R106). -/
def execFdivD (sw : Bool) (d a b : BitVec 7) (p : Payload) (s : State) : Answer :=
  floatD ⟨packA sw 25 d a b 5, p, .alu3 2 2 2 true false d a b⟩ 14 40 (fun t r _ a b => fdiv t r a b) s

/-- FSQRT_D (R106). -/
def execFsqrtD (sw : Bool) (d a : BitVec 7) (p : Payload) (s : State) : Answer :=
  floatD ⟨packA sw 25 d a 0#7 6, p, .alu2 2 2 true false true false d a⟩ 14 40 (fun t r _ a _ => fsqrt t r a) s

/-- FRCP_D (R106). -/
def execFrcpD (sw : Bool) (d a : BitVec 7) (p : Payload) (s : State) : Answer :=
  floatD ⟨packA sw 25 d a 0#7 7, p, .alu2 2 2 true false true false d a⟩ 14 40 (fun t r _ a _ => frcp t r a) s

/-- FABS_D (R105). -/
def execFabsD (sw : Bool) (d a : BitVec 7) (p : Payload) (s : State) : Answer :=
  floatD ⟨packA sw 25 d a 0#7 8, p, .alu2 2 2 false false true false d a⟩ 8 8 (fun t _ _ a _ => fabs t a) s

/-- FNEG_D (R105). -/
def execFnegD (sw : Bool) (d a : BitVec 7) (p : Payload) (s : State) : Answer :=
  floatD ⟨packA sw 25 d a 0#7 9, p, .alu2 2 2 false false true false d a⟩ 8 8 (fun t _ _ a _ => fneg t a) s

/-- FEQ_D (R108). -/
def execFeqD (sw : Bool) (d a b : BitVec 7) (p : Payload) (s : State) : Answer :=
  cmpD ⟨packA sw 25 d a b 10, p, .alu3 1 2 2 false false d a b⟩ feq s

/-- FLT_D (R108). -/
def execFltD (sw : Bool) (d a b : BitVec 7) (p : Payload) (s : State) : Answer :=
  cmpD ⟨packA sw 25 d a b 11, p, .alu3 1 2 2 false false d a b⟩ flt s

/-- FLE_D (R108). -/
def execFleD (sw : Bool) (d a b : BitVec 7) (p : Payload) (s : State) : Answer :=
  cmpD ⟨packA sw 25 d a b 12, p, .alu3 1 2 2 false false d a b⟩ fle s

/-- FUN_D (R108). -/
def execFunD (sw : Bool) (d a b : BitVec 7) (p : Payload) (s : State) : Answer :=
  cmpD ⟨packA sw 25 d a b 13, p, .alu3 1 2 2 false false d a b⟩ fun2 s

/-- FMA_D (R106). -/
def execFmaD (sw : Bool) (d a b : BitVec 7) (p : Payload) (s : State) : Answer :=
  floatD ⟨packA sw 25 d a b 14, p, .alu3u 2 2 2 true false d a b⟩ 8 8 (fun t r d a b => ffma t r d a b) s

/-- FNMA_D (R106). -/
def execFnmaD (sw : Bool) (d a b : BitVec 7) (p : Payload) (s : State) : Answer :=
  floatD ⟨packA sw 25 d a b 15, p, .alu3u 2 2 2 true false d a b⟩ 8 8 (fun t r d a b => ffnma t r d a b) s

/-! ## .h2 -/

/-- FADD_H2 (R106). -/
def execFaddH2 (sw : Bool) (d a b : BitVec 7) (p : Payload) (s : State) : Answer :=
  floatP .f16 ⟨packA sw 26 d a b 0, p, .alu3 1 1 1 true false d a b⟩ 6 6 (fun t r _ a b => fadd t r a b) s

/-- FSUB_H2 (R106). -/
def execFsubH2 (sw : Bool) (d a b : BitVec 7) (p : Payload) (s : State) : Answer :=
  floatP .f16 ⟨packA sw 26 d a b 1, p, .alu3 1 1 1 true false d a b⟩ 6 6 (fun t r _ a b => fsub t r a b) s

/-- FMUL_H2 (R106). -/
def execFmulH2 (sw : Bool) (d a b : BitVec 7) (p : Payload) (s : State) : Answer :=
  floatP .f16 ⟨packA sw 26 d a b 2, p, .alu3 1 1 1 true false d a b⟩ 6 6 (fun t r _ a b => fmul t r a b) s

/-- FMIN_H2 (R107). -/
def execFminH2 (sw : Bool) (d a b : BitVec 7) (p : Payload) (s : State) : Answer :=
  floatP .f16 ⟨packA sw 26 d a b 3, p, .alu3 1 1 1 false false d a b⟩ 6 6 (fun t _ _ a b => fminmax t false a b) s

/-- FMAX_H2 (R107). -/
def execFmaxH2 (sw : Bool) (d a b : BitVec 7) (p : Payload) (s : State) : Answer :=
  floatP .f16 ⟨packA sw 26 d a b 4, p, .alu3 1 1 1 false false d a b⟩ 6 6 (fun t _ _ a b => fminmax t true a b) s

/-- FDIV_H2 (R106). -/
def execFdivH2 (sw : Bool) (d a b : BitVec 7) (p : Payload) (s : State) : Answer :=
  floatP .f16 ⟨packA sw 26 d a b 5, p, .alu3 1 1 1 true false d a b⟩ 14 40 (fun t r _ a b => fdiv t r a b) s

/-- FSQRT_H2 (R106). -/
def execFsqrtH2 (sw : Bool) (d a : BitVec 7) (p : Payload) (s : State) : Answer :=
  floatP .f16 ⟨packA sw 26 d a 0#7 6, p, .alu2 1 1 true false true false d a⟩ 14 40 (fun t r _ a _ => fsqrt t r a) s

/-- FRCP_H2 (R106). -/
def execFrcpH2 (sw : Bool) (d a : BitVec 7) (p : Payload) (s : State) : Answer :=
  floatP .f16 ⟨packA sw 26 d a 0#7 7, p, .alu2 1 1 true false true false d a⟩ 14 40 (fun t r _ a _ => frcp t r a) s

/-- FABS_H2 (R105). -/
def execFabsH2 (sw : Bool) (d a : BitVec 7) (p : Payload) (s : State) : Answer :=
  floatP .f16 ⟨packA sw 26 d a 0#7 8, p, .alu2 1 1 false false true false d a⟩ 6 6 (fun t _ _ a _ => fabs t a) s

/-- FNEG_H2 (R105). -/
def execFnegH2 (sw : Bool) (d a : BitVec 7) (p : Payload) (s : State) : Answer :=
  floatP .f16 ⟨packA sw 26 d a 0#7 9, p, .alu2 1 1 false false true false d a⟩ 6 6 (fun t _ _ a _ => fneg t a) s

/-- FEQ_H2 (R108). -/
def execFeqH2 (sw : Bool) (d a b : BitVec 7) (p : Payload) (s : State) : Answer :=
  cmpP .f16 ⟨packA sw 26 d a b 10, p, .alu3 1 1 1 false false d a b⟩ feq s

/-- FLT_H2 (R108). -/
def execFltH2 (sw : Bool) (d a b : BitVec 7) (p : Payload) (s : State) : Answer :=
  cmpP .f16 ⟨packA sw 26 d a b 11, p, .alu3 1 1 1 false false d a b⟩ flt s

/-- FLE_H2 (R108). -/
def execFleH2 (sw : Bool) (d a b : BitVec 7) (p : Payload) (s : State) : Answer :=
  cmpP .f16 ⟨packA sw 26 d a b 12, p, .alu3 1 1 1 false false d a b⟩ fle s

/-- FUN_H2 (R108). -/
def execFunH2 (sw : Bool) (d a b : BitVec 7) (p : Payload) (s : State) : Answer :=
  cmpP .f16 ⟨packA sw 26 d a b 13, p, .alu3 1 1 1 false false d a b⟩ fun2 s

/-- FMA_H2 (R106). -/
def execFmaH2 (sw : Bool) (d a b : BitVec 7) (p : Payload) (s : State) : Answer :=
  floatP .f16 ⟨packA sw 26 d a b 14, p, .alu3u 1 1 1 true false d a b⟩ 6 6 (fun t r d a b => ffma t r d a b) s

/-- FNMA_H2 (R106). -/
def execFnmaH2 (sw : Bool) (d a b : BitVec 7) (p : Payload) (s : State) : Answer :=
  floatP .f16 ⟨packA sw 26 d a b 15, p, .alu3u 1 1 1 true false d a b⟩ 6 6 (fun t r d a b => ffnma t r d a b) s

/-! ## .b2 -/

/-- FADD_B2 (R106). -/
def execFaddB2 (sw : Bool) (d a b : BitVec 7) (p : Payload) (s : State) : Answer :=
  floatP .bf16 ⟨packA sw 27 d a b 0, p, .alu3 1 1 1 true false d a b⟩ 6 6 (fun t r _ a b => fadd t r a b) s

/-- FSUB_B2 (R106). -/
def execFsubB2 (sw : Bool) (d a b : BitVec 7) (p : Payload) (s : State) : Answer :=
  floatP .bf16 ⟨packA sw 27 d a b 1, p, .alu3 1 1 1 true false d a b⟩ 6 6 (fun t r _ a b => fsub t r a b) s

/-- FMUL_B2 (R106). -/
def execFmulB2 (sw : Bool) (d a b : BitVec 7) (p : Payload) (s : State) : Answer :=
  floatP .bf16 ⟨packA sw 27 d a b 2, p, .alu3 1 1 1 true false d a b⟩ 6 6 (fun t r _ a b => fmul t r a b) s

/-- FMIN_B2 (R107). -/
def execFminB2 (sw : Bool) (d a b : BitVec 7) (p : Payload) (s : State) : Answer :=
  floatP .bf16 ⟨packA sw 27 d a b 3, p, .alu3 1 1 1 false false d a b⟩ 6 6 (fun t _ _ a b => fminmax t false a b) s

/-- FMAX_B2 (R107). -/
def execFmaxB2 (sw : Bool) (d a b : BitVec 7) (p : Payload) (s : State) : Answer :=
  floatP .bf16 ⟨packA sw 27 d a b 4, p, .alu3 1 1 1 false false d a b⟩ 6 6 (fun t _ _ a b => fminmax t true a b) s

/-- FDIV_B2 (R106). -/
def execFdivB2 (sw : Bool) (d a b : BitVec 7) (p : Payload) (s : State) : Answer :=
  floatP .bf16 ⟨packA sw 27 d a b 5, p, .alu3 1 1 1 true false d a b⟩ 14 40 (fun t r _ a b => fdiv t r a b) s

/-- FSQRT_B2 (R106). -/
def execFsqrtB2 (sw : Bool) (d a : BitVec 7) (p : Payload) (s : State) : Answer :=
  floatP .bf16 ⟨packA sw 27 d a 0#7 6, p, .alu2 1 1 true false true false d a⟩ 14 40 (fun t r _ a _ => fsqrt t r a) s

/-- FRCP_B2 (R106). -/
def execFrcpB2 (sw : Bool) (d a : BitVec 7) (p : Payload) (s : State) : Answer :=
  floatP .bf16 ⟨packA sw 27 d a 0#7 7, p, .alu2 1 1 true false true false d a⟩ 14 40 (fun t r _ a _ => frcp t r a) s

/-- FABS_B2 (R105). -/
def execFabsB2 (sw : Bool) (d a : BitVec 7) (p : Payload) (s : State) : Answer :=
  floatP .bf16 ⟨packA sw 27 d a 0#7 8, p, .alu2 1 1 false false true false d a⟩ 6 6 (fun t _ _ a _ => fabs t a) s

/-- FNEG_B2 (R105). -/
def execFnegB2 (sw : Bool) (d a : BitVec 7) (p : Payload) (s : State) : Answer :=
  floatP .bf16 ⟨packA sw 27 d a 0#7 9, p, .alu2 1 1 false false true false d a⟩ 6 6 (fun t _ _ a _ => fneg t a) s

/-- FEQ_B2 (R108). -/
def execFeqB2 (sw : Bool) (d a b : BitVec 7) (p : Payload) (s : State) : Answer :=
  cmpP .bf16 ⟨packA sw 27 d a b 10, p, .alu3 1 1 1 false false d a b⟩ feq s

/-- FLT_B2 (R108). -/
def execFltB2 (sw : Bool) (d a b : BitVec 7) (p : Payload) (s : State) : Answer :=
  cmpP .bf16 ⟨packA sw 27 d a b 11, p, .alu3 1 1 1 false false d a b⟩ flt s

/-- FLE_B2 (R108). -/
def execFleB2 (sw : Bool) (d a b : BitVec 7) (p : Payload) (s : State) : Answer :=
  cmpP .bf16 ⟨packA sw 27 d a b 12, p, .alu3 1 1 1 false false d a b⟩ fle s

/-- FUN_B2 (R108). -/
def execFunB2 (sw : Bool) (d a b : BitVec 7) (p : Payload) (s : State) : Answer :=
  cmpP .bf16 ⟨packA sw 27 d a b 13, p, .alu3 1 1 1 false false d a b⟩ fun2 s

/-- FMA_B2 (R106). -/
def execFmaB2 (sw : Bool) (d a b : BitVec 7) (p : Payload) (s : State) : Answer :=
  floatP .bf16 ⟨packA sw 27 d a b 14, p, .alu3u 1 1 1 true false d a b⟩ 6 6 (fun t r d a b => ffma t r d a b) s

/-- FNMA_B2 (R106). -/
def execFnmaB2 (sw : Bool) (d a b : BitVec 7) (p : Payload) (s : State) : Answer :=
  floatP .bf16 ⟨packA sw 27 d a b 15, p, .alu3u 1 1 1 true false d a b⟩ 6 6 (fun t r d a b => ffnma t r d a b) s

end Sys2Proof.Machine
end

