-- ==== Sys2Proof/Machine/Convert.lean ====
section
/-! DEFINITION. Conversion, classification and scaling: major 0x1D (R111 to R115). -/

namespace Sys2Proof.Machine

open Sys2Proof

/-! ## Codes (R68, Table 3-10) -/

/-- Bits of the integer destinations 8 to 15, and whether they are signed. -/
def cvtIntBits (c : Nat) : Nat := match c with | 8 => 8 | 9 => 8 | 10 => 16 | 11 => 16 | 12 => 32 | 13 => 32 | _ => 64
def cvtIntRange (c : Nat) : Int × Int :=
  if c % 2 = 0 then (-(2 ^ (cvtIntBits c - 1)), 2 ^ (cvtIntBits c - 1) - 1) else (0, 2 ^ cvtIntBits c - 1)

/-- The source value of `cvt`: codes 0 to 3 floating point, 4 to 7 integers (R111). -/
def cvtSource (c : Nat) (v : BitVec 256) : FX :=
  match c with
  | 0 => Fmt.f32.decode (wordOf v).toNat
  | 1 => Fmt.f64.decode (dwordOf v).toNat
  | 2 => Fmt.f16.decode (halfOf v 0)
  | 3 => Fmt.bf16.decode (halfOf v 0)
  | 4 => .ofInt (wordOf v).toInt
  | 5 => .ofInt (wordOf v).toNat
  | 6 => .ofInt (dwordOf v).toInt
  | _ => .ofInt (dwordOf v).toNat

/-- The destination's code, extended into one register, or in a pair (R68, R111). -/
def cvtDest (c : Nat) (rm : RM) (x : FX) : List Word :=
  if c < 8 then
    let v := elemEncode c rm x
    if c = 1 then dwordWords (BitVec.ofNat 64 v) else [BitVec.ofNat 32 v]
  else
    let r := cvtIntRange c
    let v := roundInt rm x r.1 r.2
    if c ≥ 14 then dwordWords (BitVec.ofInt 64 v) else [BitVec.ofInt 32 v]

/-- The latency of a conversion: 8 with a 64-bit operand or result, else 6 (R104). -/
def cvtLat (wide : Bool) : Nat := if wide then 8 else 6

/-- `cvt` (R111). -/
def convert (i : Ins) (c : Nat) (s : State) : Answer :=
  let wide := c / 16 == 1 || c / 16 == 6 || c / 16 == 7 || c % 16 == 1 || c % 16 == 14 || c % 16 == 15
  runFloat i (fun o s => result i o (cvtDest (c % 16) (rmAt i s.th.lane) (cvtSource (c / 16) o.a)) (cvtLat wide) (cvtLat wide) s) s

/-- An element as FP32, exactly (R112, R113). -/
def toF32 (code c : Nat) : Word := BitVec.ofNat 32 (Fmt.f32.round {} (elemDecode code c))

/-- Packs `n` FP32 registers into elements of a code: element j at bit w × j, dither index n × `lid` + j (R112, R113). -/
def packElems (i : Ins) (code n lane : Nat) (v : BitVec 256) : Nat :=
  (List.range n).foldl (fun w j =>
    w + elemEncode code (rmAt i (n * lane + j)) (Fmt.f32.decode (wordAt v j).toNat) * 2 ^ (elemWidth code * j)) 0

/-- `cvtp` and `cvtq` over `n` elements: c[6:4] = 0 packs, 1 unpacks. -/
def convertPacked (i : Ins) (n c : Nat) (s : State) : Answer :=
  let code := c % 16
  runFloat i (fun o s =>
    if c < 16 then result i o [BitVec.ofNat 32 (packElems i code n s.th.lane o.a)] 6 6 s
    else result i o ((List.range n).map (fun j => toF32 code (elemAt (wordOf o.a) (elemWidth code) j))) 6 6 s) s


/-- CVT (R111). -/
def execCvt (sw : Bool) (d a c : BitVec 7) (p : Payload) (s : State) : Answer :=
  convert ⟨packA sw 29 d a c 0, p, .cvt d a c⟩ c.toNat s

/-- CVTP (R112). -/
def execCvtp (sw : Bool) (d a c : BitVec 7) (p : Payload) (s : State) : Answer :=
  convertPacked ⟨packA sw 29 d a c 1, p, .cvtp d a c⟩ 2 c.toNat s

/-- CVTQ (R113). -/
def execCvtq (sw : Bool) (d a c : BitVec 7) (p : Payload) (s : State) : Answer :=
  convertPacked ⟨packA sw 29 d a c 2, p, .cvtq d a c⟩ 4 c.toNat s

/-- The class mask of format k (R114). -/
def classify (k : Nat) (v : BitVec 256) : Word :=
  BitVec.ofNat 32 (match k with
    | 0 => fclassMask .f32 (wordOf v).toNat
    | 1 => fclassMask .f64 (dwordOf v).toNat
    | 2 => fclassMask .f16 (halfOf v 0)
    | _ => fclassMask .bf16 (halfOf v 0))

/-- FCLASS (R114). -/
def execFclass (sw : Bool) (d a k : BitVec 7) (p : Payload) (s : State) : Answer :=
  (fun (i0 : Ins) => runFloat i0 (fun o => result i0 o [classify k.toNat o.a] (cvtLat (k == 1)) (cvtLat (k == 1))) s) ⟨packA sw 29 d a k 3, p, .fclass d a k⟩

/-- The power of two of `fscl`: beyond ±1000 every result is already the overflow or the underflow of the same operand. -/
def fsclExp (n : Word) : Int := max (-1000) (min 1000 n.toInt)

/-- FSCL (R115). -/
def execFscl (sw : Bool) (d a b : BitVec 7) (p : Payload) (s : State) : Answer :=
  (fun (i0 : Ins) => floatS i0 6 6 (fun t r _ x n => t.round r (scaleFX (t.decode x) (fsclExp (BitVec.ofNat 32 n)))) s) ⟨packA sw 29 d a b 4, p, .alu3 1 1 1 true false d a b⟩

end Sys2Proof.Machine
end

