-- ==== Sys2Proof/Machine/Csr.lean ====
section
/-! DEFINITION. Control and status registers: major 0x3E (R99 to R101, R212, R242, R262). -/

namespace Sys2Proof.Machine

open Sys2Proof

/-! ## CSRs (R99 to R101, Table 4-8) -/

/-- The access levels of R99. -/
inductive CsrLevel where
  | t | h | y
  deriving DecidableEq, Repr

/-- A CSR's level, and whether it is read-only; none is a number Table 4-8 does not list. -/
def csrKind (n : Nat) : Option (CsrLevel × Bool) :=
  if n = 0x010 ∨ n = 0x011 then some (.t, false)
  else if 0x020 ≤ n ∧ n ≤ 0x023 then some (.t, true)
  else if n = 0x030 ∨ n = 0x031 then some (.h, false)
  else if 0x032 ≤ n ∧ n ≤ 0x035 then some (.h, true)
  else if 0x100 ≤ n ∧ n ≤ 0x104 then some (.y, false)
  else none

/-- Whether the acting thread holds a level; the levels are not ordered. -/
def holdsLevel (s : State) : CsrLevel → Bool
  | .t => true
  | .h => s.th.inh
  | .y => s.curCtx.sys

/-- Whether the access is legal. -/
def csrOk (s : State) (n : Nat) (isWrite : Bool) : Bool :=
  match csrKind n with
  | none => false
  | some (l, ro) => holdsLevel s l && !(isWrite && ro && decide (l = .t))

def lowWord (v : DWord) : Word := v.truncate 32
def highWord (v : DWord) : Word := v.extractLsb' 32 32
def setLow (v : DWord) (w : Word) : DWord := highWord v ++ w
def setHigh (v : DWord) (w : Word) : DWord := w ++ lowWord v

/-- The value of a CSR for the acting thread. -/
def csrValue (s : State) (n : Nat) : Word :=
  let c := s.curCtx
  match n with
  | 0x010 => lowWord s.th.kp
  | 0x011 => highWord s.th.kp
  | 0x020 => Config.cap.truncate 32
  | 0x021 => Config.cap.extractLsb' 32 32
  | 0x022 => Config.cap.extractLsb' 64 32
  | 0x023 => Config.cap.extractLsb' 96 32
  | 0x030 => lowWord s.th.frame.trpc
  | 0x031 => highWord s.th.frame.trpc
  | 0x032 => s.th.frame.tcause
  | 0x033 => lowWord s.th.frame.taddr
  | 0x034 => highWord s.th.frame.taddr
  | 0x035 => s.th.frame.tinfo
  | 0x100 => lowWord c.hvec
  | 0x101 => highWord c.hvec
  | 0x102 => c.lease
  | 0x103 => c.mcwin
  | _ => c.tqlim

/-- A write at level T or H; one to a read-only register is ignored (R6, R99). -/
def csrSet (n : Nat) (v : Word) (s : State) : State :=
  s.updTh (fun t => match n with
    | 0x010 => { t with kp := setLow t.kp v }
    | 0x011 => { t with kp := setHigh t.kp v }
    | 0x030 => { t with frame := { t.frame with trpc := setLow t.frame.trpc v } }
    | 0x031 => { t with frame := { t.frame with trpc := setHigh t.frame.trpc v } }
    | _ => t)

/-- The lease a write of `x` gives (R212). -/
def leaseOf (x : Word) : Word :=
  if x.toNat > 16384 then 16384 else if x.toNat < 64 then 64 else BitVec.ofNat 32 (2 ^ x.toNat.log2)

def clampWord (x : Word) (lo hi : Nat) : Word := BitVec.ofNat 32 (max lo (min hi x.toNat))

/-- Every slice whose on-chip count is above the limit spills blocks until it is not (R262). -/
def spillAll (c : Nat) (s : State) : State :=
  let slices := (s.sl.trigs.filter (fun r => r.ctx == c && r.spilled.isNone)).map (·.slice)
  slices.foldl (fun s q => if onChip s q c > ((s.ctx? c).map (·.tqlim.toNat)).getD 256 then spillTrigs q c s else s) s

/-- A Y-level write is in force (R101, R212, R242, R262). -/
def csrForce (c n : Nat) (v : Word) (s : State) : State :=
  let s := s.updCtx c (fun x => match n with
    | 0x100 => { x with hvec := setLow x.hvec v }
    | 0x101 => { x with hvec := setHigh x.hvec v }
    | 0x102 => { x with lease := leaseOf v }
    | 0x103 => { x with mcwin := clampWord v 32 2048 }
    | _ => { x with tqlim := clampWord v 8 256 })
  if n = 0x104 then spillAll c s else s

/-- An access that is not legal is an illegal instruction before any other check (R24). -/
def csrRun (i : Ins) (n : BitVec 14) (isWrite : Bool) (body : Opnds → State → State) (s : State) : Answer :=
  if s.actor = .stream || csrOk s n.toNat isWrite then runThread i body s
  else .next (raise { cause := .illegal, info := i.word } s)

def csrwOp (i : Ins) (n : BitVec 14) (o : Opnds) (s : State) : State :=
  let v := wordOf o.a
  match csrKind n.toNat with
  | some (.y, _) => hold i (.csrw n.toNat v) s
  | _ => finish i (csrSet n.toNat v s)

/-- CSRR (R101). -/
def execCsrr (sw : Bool) (d : BitVec 7) (n : BitVec 14) (s : State) : Answer :=
  (fun (i0 : Ins) => csrRun i0 n false (fun o s => result i0 o [csrValue s n.toNat] 4 4 s) s) ⟨packA sw 62 d (n.extractLsb' 7 7) (n.extractLsb' 0 7) 0, none, .plain [⟨d, 1, .dst, .d⟩]⟩

/-- CSRW (R101). -/
def execCsrw (sw : Bool) (n : BitVec 14) (a : BitVec 7) (s : State) : Answer :=
  (fun (i0 : Ins) => csrRun i0 n true (csrwOp i0 n) s) ⟨packA sw 62 (n.extractLsb' 7 7) a (n.extractLsb' 0 7) 1, none, .plain [⟨a, 1, .src, .a⟩]⟩

/-- CSRW_IN_FORCE (R101): the value of a parked Y-level `csrw` is in force on every core, and the thread goes on. -/
def execCsrwInForce (who : Agent) (s : State) : Answer :=
  .next (s.atThread who (fun s =>
      match s.th.park with
      | .csrw n v => (csrForce s.ctxNo n v s).updTh Thread.resume
      | _ => s))

end Sys2Proof.Machine
end

