-- ==== Sys2Proof/Machine/FetchUnit.lean ====
section
/-! DEFINITION. The read-only fetch unit: `fget` and `fgetb` (R324 to R329). -/

namespace Sys2Proof.Machine

open Sys2Proof

/-! ## Handles (R324, R325) -/

def fhBase (d : BitVec 512) : Nat := field d 0 64
def fhAux1 (d : BitVec 512) : Nat := field d 64 64
def fhAux2 (d : BitVec 512) : Nat := field d 128 64
def fhRows (d : BitVec 512) : Nat := field d 192 32
def fhCols (d : BitVec 512) : Nat := field d 224 32
def fhPitch (d : BitVec 512) : Nat := field d 256 32
def fhKind (d : BitVec 512) : Nat := field d 288 4
def fhElem (d : BitVec 512) : Nat := field d 292 4
def fhLbr (d : BitVec 512) : Nat := field d 296 4
def fhLbc (d : BitVec 512) : Nat := field d 300 4

/-- An array address is canonical and aligned. -/
def arrayOk (va align : Nat) : Bool := canonNat va && va % align == 0

/-- Whether a handle meets R325 but for the space of its arrays. -/
def handleOk (d : BitVec 512) : Bool :=
  let w := elemWidth (fhElem d)
  let u := max 1 (w / 8)
  field d 304 208 == 0 && fhElem d != 15 && fhRows d != 0 && fhCols d != 0
  && (match fhKind d with
    | 0 => fhAux1 d == 0 && fhAux2 d == 0 && decide (fhPitch d ≥ (fhCols d * w + 7) / 8) && arrayOk (fhBase d) u
    | 1 => fhPitch d == 0 && arrayOk (fhAux1 d) 8 && arrayOk (fhAux2 d) 8 && arrayOk (fhBase d) u
        && decide (fhLbr d ≤ 7) && decide (fhLbc d ≤ 7) && (w != 4 || decide (fhLbc d ≥ 1))
    | 2 => fhPitch d == 0 && arrayOk (fhAux1 d) 4 && arrayOk (fhAux2 d) 4 && arrayOk (fhBase d) u
    | 3 => fhPitch d == 0 && fhBase d == 0 && fhAux2 d == 0 && arrayOk (fhAux1 d) 8 && (fhElem d == 2 || fhElem d == 3)
        && decide (fhCols d ≤ 65533)
    | _ => false)

/-- The arrays a handle names. -/
def handleArrays (d : BitVec 512) : List Nat :=
  match fhKind d with
  | 0 => [fhBase d]
  | 3 => [fhAux1 d]
  | _ => [fhBase d, fhAux1 d, fhAux2 d]

/-- Every array of a handle lies in G (R325). -/
def arraysInG (s : State) (c : Nat) (d : BitVec 512) : Except EStop Bool := do
  let hs ← (handleArrays d).mapM (fun va => engPage s (masterEngine s 2) c va .read)
  pure (hs.all (fun h => !isX h))

/-- The zero of an absent element (R326). -/
def absentElem (elem : Nat) : Nat := if elem = 7 then 0x77 else 0

/-! ## Elements (R325, R326) -/

/-- The element at bit offset `bits` from `base`. -/
def elemAtBits (rd : Reader) (base bits w : Nat) : EngM Nat := do
  let v ← rdNat rd (base + bits / 8) (max 1 (w / 8))
  pure (if w = 4 then v / 2 ^ (bits % 8) % 16 else v)

/-- The first of `n` column indices from `va` on that is `c`, numbered from `k`. -/
def csrFind (rd : Reader) (c : Nat) : Nat → Nat → Nat → EngM (Option Nat)
  | 0, _, _ => pure none
  | n + 1, va, k => do
    let x ← rdNat rd va 4
    if x = c then pure (some k) else csrFind rd c n (va + 4) (k + 1)

/-- The value bits of element (r, c). -/
def fetchElem (rd : Reader) (d : BitVec 512) (r c : Nat) : EngM Nat := do
  let w := elemWidth (fhElem d)
  match fhKind d with
  | 0 => elemAtBits rd (fhBase d + r * fhPitch d) (c * w) w
  | 1 => do
    let br := 2 ^ fhLbr d
    let bc := 2 ^ fhLbc d
    let b := r / br * ((fhCols d + bc - 1) / bc) + c / bc
    let word ← rdNat rd (fhAux1 d + 8 * (b / 64)) 8
    if !word.testBit (b % 64) then pure (absentElem (fhElem d))
    else do
      let pc ← rdNat rd (fhAux2 d + 4 * (b / 64)) 4
      let k := pc + ((List.range (b % 64)).filter (fun i => word.testBit i)).length
      elemAtBits rd (fhBase d) ((k * br * bc + r % br * bc + c % bc) * w) w
  | 2 => do
    let s ← rdNat rd (fhAux1 d + 4 * r) 4
    let e ← rdNat rd (fhAux1 d + 4 * (r + 1)) 4
    if e < s then throw .malformed
    match ← csrFind rd c (e - s) (fhAux2 d + 4 * s) s with
    | some k => elemAtBits rd (fhBase d) (k * w) w
    | none => pure (absentElem (fhElem d))
  | _ => do
    let gs ← svrRow rd (fhAux1 d) r (fhCols d)
    pure (((gs.find? (fun g => g.cols.contains c)).map (·.value)).getD (absentElem (fhElem d)))

/-! ## Units (R326) -/

/-- Reads `n` bytes by sectors. -/
def rdSpan (rd : Reader) (va n : Nat) : EngM Unit :=
  (List.range ((va % 64 + n + 63) / 64)).forM (fun k => do
    let lo := max va (va / 64 * 64 + 64 * k)
    let hi := min (va + n) (va / 64 * 64 + 64 * k + 64)
    let _ ← rd (lo % 2 ^ 64) (hi - lo)
    pure ())

/-- The same for values: a poisoned sector is left out, and matters to the elements in it only. -/
def rdValues (rd : Reader) (va n : Nat) : EngM Unit :=
  rdSpan (fun va n => tryCatch (rd va n) (fun e => if e = .poison then pure [] else throw e)) va n

/-- The bytes of decoded units; one left out is poisoned. -/
def unitReader (bs : List (Nat × Byte)) : Reader := fun va n =>
  let l := (List.range n).map (fun i => soGet bs ((va + i) % 2 ^ 57))
  if l.all Option.isSome then pure (l.filterMap id) else throw .poison

/-- The units of row `r` that hold its columns from `c` on, `n` of them: what names each. -/
def rowUnits (d : BitVec 512) (r c n : Nat) : List (List Nat) :=
  let w := elemWidth (fhElem d)
  let upTo := fun (lo hi : Nat) => (List.range (hi - lo + 1)).map (lo + ·)
  match fhKind d with
  | 0 =>
    let row := fhBase d + r * fhPitch d
    (upTo ((row + c * w / 8) / 128) ((row + ((c + n) * w + 7) / 8 - 1) / 128)).map (fun l => [r, l])
  | 1 =>
    let bc := 2 ^ fhLbc d
    (upTo (c / bc) ((c + n - 1) / bc)).map (fun k => [r / 2 ^ fhLbr d, k])
  | _ => [[r]]

/-- Reads the whole of a unit: a 128-byte-aligned run of a dense row, a bitmap block, a CSR row or a shared-value row. -/
def readUnit (rd : Reader) (d : BitVec 512) (unit : List Nat) : EngM Unit := do
  let w := elemWidth (fhElem d)
  let r := unit.getD 0 0
  let k := unit.getD 1 0
  match fhKind d with
  | 0 =>
    let row := fhBase d + r * fhPitch d
    let lo := max row (k * 128)
    rdValues rd lo (min (row + (fhCols d * w + 7) / 8) (k * 128 + 128) - lo)
  | 1 => do
    let bc := 2 ^ fhLbc d
    let size := 2 ^ fhLbr d * bc
    let b := r * ((fhCols d + bc - 1) / bc) + k
    let word ← rdNat rd (fhAux1 d + 8 * (b / 64)) 8
    if word.testBit (b % 64) then do
      let pc ← rdNat rd (fhAux2 d + 4 * (b / 64)) 4
      let rank := pc + ((List.range (b % 64)).filter (fun i => word.testBit i)).length
      rdValues rd (fhBase d + rank * size * w / 8) ((size * w + 7) / 8)
  | 2 => do
    let s ← rdNat rd (fhAux1 d + 4 * r) 4
    let e ← rdNat rd (fhAux1 d + 4 * (r + 1)) 4
    if e < s then throw .malformed
    rdSpan rd (fhAux2 d + 4 * s) (4 * (e - s))
    rdValues rd (fhBase d + s * w / 8) ((e * w + 7) / 8 - s * w / 8)
  | _ => do
    let _ ← svrRow rd (fhAux1 d) r (fhCols d)
    pure ()

/-! ## The fetch unit's cache (R326) -/

/-- The byte a core holds dirty. -/
def dirtyByte (s : State) (a : Nat) : Option Byte :=
  (l1Find s (lineOf a)).bind (fun l => if l.dirty.testBit (a % 128) then some (stGet 0 l.bytes (a % 128)) else none)

/-- A read of the fetch unit at the homes. For a thread's `fget` the core's dirty bytes come first (R224 case 1); only a handle may lie
in another module's memory. -/
def fetchReader (s : State) (c : Nat) (thread inX : Bool) : Reader := fun va n =>
  match engHome s (masterEngine s 2) c va .read n with
  | .error e => throw e
  | .ok h =>
    if isX h && !inX then throw .space
    else if readPoisoned s h n || (thread && (List.range n).any (fun k => dirtyBad s (h + k))) then throw .poison
    else do
      let bs := (if isX h then homeBytes s h n else homeRead s h n).mapIdx (fun k b => if thread then (dirtyByte s (h + k)).getD b else b)
      noteRead va (lineOf h) bs
      pure bs

/-- For whom the unit reads: a thread's `fget`, which gets nothing older than what the thread has read or written (R22, R224), or an
operation, which with ACQ uses no copy made before it (R229). -/
structure FetchFor where
  ctx : Nat
  thread : Bool
  fresh : Bool
  deriving DecidableEq, Repr

/-- A write or an atomic of the core to one of the lines is on its way, or waits for its release point. -/
def linesBusy (s : State) (ls : List Nat) : Bool :=
  s.pl.net.any (fun m => match m.body with
    | .write w => ls.contains (bodyLine m.body) && w.ack.isNone
    | .atomic a => ls.contains (bodyLine m.body) && a.ack.isNone
    | _ => false)
  || (ownQueue s s.th.uid).any (fun q => q.scratch.isNone && (q.ws.any (fun x => ls.contains (lineOf x.1)) || (match q.atom with
    | some a => ls.contains (lineOf a.pa)
    | none => false)))

/-- The core holds bytes of one of the lines that its home has not. -/
def linesDirty (s : State) (ls : List Nat) : Bool := s.pl.l1.any (fun l => ls.contains l.line && l.dirty != 0)

/-- A decoded unit may serve: its leases run, or it was read in this cycle. For a thread the core holds no later bytes of its lines; from an
earlier cycle, no write of the thread is unacknowledged, and what the thread has seen is past. -/
def unitServes (s : State) (f : FetchFor) (u : FetchedUnit) : Bool :=
  !(f.thread && linesDirty s u.lines)
  && (decide (u.born = s.clock.cycle)
    || (!f.fresh && decide (s.clock.tbase < u.exp) && (!f.thread || (!writesOpen s s.th.uid && decide (s.th.pct ≤ s.clock.tbase)))))

/-- A thread of the core has read these lines at their homes: no older copy in the L1 serves a later load (R224). -/
def forgetLines (f : FetchFor) (ls : List Nat) (s : State) : State :=
  if f.thread then ls.foldl (fun s l => l1Forget (l * 128 + 64) (l1Forget (l * 128) s)) s else s

/-- Decoded units that the cache of 64 KiB has room for, the newest first (log entry 36). -/
def trimUnits : Nat → List FetchedUnit → List FetchedUnit
  | _, [] => []
  | room, u :: t => if u.bytes.length ≤ room then u :: trimUnits (room - u.bytes.length) t else []

/-- The lines a unit was read from are leased (R210): the smallest expiry and the largest value time. -/
def leaseLines (c : Nat) (ls : List Nat) (s : State) : Nat × Nat × State :=
  ls.foldl (fun (x : Nat × Nat × State) l =>
    let (s, e, vt) := grantLease l (((x.2.2.ctx? c).map (·.lease.toNat)).getD 0) x.2.2.did x.2.2
    (min x.1 e, max x.2.1 vt, s)) (2 ^ 64, 0, s)

/-- A unit's bytes and value time, from the cache or by a decode, which the cache keeps unless the core's own bytes are in it. A thread
waits while a write of its core to the lines is on its way. -/
def fetchUnit (f : FetchFor) (key : List Nat) (build : Reader → EngM Unit) (inX : Bool) (s : State) : Except EStop (List (Nat × Byte) × Nat) × State :=
  match s.cl.fetchCache.find? (fun u => u.ctx == f.ctx && u.key == key && unitServes s f u) with
  | some u => if f.thread && linesBusy s u.lines then (.error .held, s) else (.ok (u.bytes, u.vt), forgetLines f u.lines s)
  | none =>
    let (r, log) := (build (fetchReader s f.ctx f.thread inX)).goBytes
    let ls := log.lines.eraseDups
    let bs := soSetAll [] log.bytes
    match r with
    | .error e => (.error e, s)
    | .ok _ =>
      if f.thread && linesBusy s ls then (.error .held, s)
      else if ls.any (fun l => isX (l * 128)) then
        let (i, s) := s.draw
        (.ok (bs, Config.freeDelay i), s)
      else
        let own := f.thread && linesDirty s ls
        let (e, vt, s) := leaseLines f.ctx ls (forgetLines f ls s)
        let u : FetchedUnit := { ctx := f.ctx, key := key, lines := ls, exp := e, vt := vt, born := s.clock.cycle, bytes := bs }
        let keep := s.cl.fetchCache.filter (fun x => !(x.ctx == f.ctx && x.key == key))
        (.ok (bs, vt), { s with cl := { s.cl with fetchCache := if own then keep else trimUnits 65536 (u :: keep) } })

/-- The handle at an address, through the same cache. -/
def fetchHandle (f : FetchFor) (va : Nat) (s : State) : Except EStop (BitVec 512 × Nat) × State :=
  let (r, s) := fetchUnit f [va] (fun rd => rdSpan rd va 64) true s
  (r.map (fun x => (BitVec.ofNat 512 (leNat ((List.range 64).map (fun k => (soGet x.1 ((va + k) % 2 ^ 57)).getD 0))), x.2)), s)

/-- The bytes of the units of a row that hold `n` columns from `c` on, and their largest value time. -/
def fetchUnits (f : FetchFor) (d : BitVec 512) : List (List Nat) → State → Except EStop (List (Nat × Byte) × Nat) × State
  | [], s => (.ok ([], 0), s)
  | k :: t, s =>
    match fetchUnit f (d.toNat :: k) (fun rd => readUnit rd d k) false s with
    | (.error e, s) => (.error e, s)
    | (.ok x, s) =>
      let (r, s) := fetchUnits f d t s
      (r.map (fun y => (soSetAll y.1 x.1, max x.2 y.2)), s)

/-! ## `fget` (R328) -/

def fgetIssue (i : Ins) (df : BitVec 7) (o : Opnds) (s : State) : State :=
  let addr := dwordOf o.a
  match globalFail addr 64 with
  | some t => raise t s
  | none => hold i (.fget df o.pd addr (wordAt o.b 0) (wordAt o.b 1) i.word) s

/-- What a decode that cannot end does to its thread: a fault it waits for, a `FETCH_ERR`, or nothing yet. -/
def fgetStop (handle : DWord) (e : EStop) (s : State) : State :=
  let err := fun (code : Nat) => raise { cause := .fetchErr, addr := handle, info := BitVec.ofNat 32 code } s
  match e with
  | .fault va acc =>
    let (ok, s) := engFault (masterEngine s 2) s.ctxNo va acc s
    if ok then s.updTh (fun t => { t with park := .fault va acc }) else s
  | .miss va acc => engMiss (masterEngine s 2) s.ctxNo va acc s
  | .violation m h => freeze m s.ctxNo h s
  | .held => s
  | .space => err 0x2C
  | .malformed => err 0x2A
  | .poison => err 0x2C
  | .lost m => raise { cause := .fetchErr, addr := handle, info := 0x2C#32 } (linkLost s.ctxNo m s)

/-- The register checks of an FP64 element, found once the handle is read. -/
def fgetRegs (elem : Nat) (df : BitVec 7) (dst : Option Nat) (word : Word) (regs : Nat) : Option Trap :=
  if elem ≠ 1 then none
  else if df.toNat % 2 = 1 ∨ df.toNat ≥ 96 then some { cause := .illegal, info := word }
  else match dst with
    | some p => if p + 1 ≥ regs then some { cause := .regBounds, info := BitVec.ofNat 32 (p + 1) } else none
    | none => none

/-- The acting thread's `fget` is served: threads of its bundle that reach the unit in this cycle find it decoded. -/
def fgetStep (s : State) : State :=
  match s.th.park with
  | .fget df dst handle row col word =>
    let f : FetchFor := { ctx := s.ctxNo, thread := true, fresh := false }
    let err := fun (code : Nat) (s : State) => raise { cause := .fetchErr, addr := handle, info := BitVec.ofNat 32 code } s
    match fetchHandle f handle.toNat s with
    | (.error e, s) => fgetStop handle e s
    | (.ok (d, vt0), s) =>
      match fgetRegs (fhElem d) df dst word s.warp.regsPer with
      | some t => raise t s
      | none =>
        if !handleOk d then err 0x28 s
        else match arraysInG s f.ctx d with
        | .error e => fgetStop handle e s
        | .ok false => err 0x28 s
        | .ok true =>
          if row.toNat ≥ fhRows d ∨ col.toNat ≥ fhCols d then err 0x29 s
          else match fetchUnits f d (rowUnits d row.toNat col.toNat 1) s with
          | (.error e, s) => fgetStop handle e s
          | (.ok (bs, vt), s) =>
            match (fetchElem (unitReader bs) d row.toNat col.toNat).go.1 with
            | .error e => fgetStop handle e s
            | .ok v =>
              let ws := if fhElem d = 1 then dwordWords (BitVec.ofNat 64 v) else [BitVec.ofNat 32 v]
              let regs := match dst with | some p => ws.mapIdx (fun k v => (p + k, v)) | none => []
              (addResult regs 40 none .none true (s.updTh (·.sawVt (some (max vt0 vt))))).2.updTh Thread.resume
  | _ => s

/-! ## `fgetb` (R329) -/

def fgetbIssue (i : Ins) (o : Opnds) (s : State) : State :=
  let addr := dwordOf o.a
  match globalFail addr 64 with
  | some t => raise t s
  | none =>
    if s.cl.fetchQ.length ≥ 32 then s.updTh (fun t => { t with park := .queueFull 2 })
    else if acqWaits i s then s.updTh (fun t => { t with park := .storeWait })
    else arrGate i (fun s =>
      let (c, s) := newOp i o .fgetb s
      finish i { s with cl := { s.cl with fetchQ := s.cl.fetchQ ++ [{ c with quad := o.b.truncate 128 }] } }) s

/-- The elements of a window row from column `c` on. -/
def rowElems (rd : Reader) (d : BitVec 512) (r : Nat) : Nat → Nat → EngM (List Nat)
  | 0, _ => pure []
  | n + 1, c => do
    let v ← fetchElem rd d r c
    let t ← rowElems rd d r n (c + 1)
    pure (v :: t)

/-- Elements of `w` bits packed under R32. -/
def packRow (w : Nat) : List Nat → Nat
  | [] => 0
  | v :: t => v % 2 ^ w + 2 ^ w * packRow w t

/-- The code of the checks of R329 before anything is written. -/
def windowCheck (d : BitVec 512) (row0 col0 off rows cols scratch : Nat) : Nat :=
  let w := elemWidth (fhElem d)
  if !handleOk d then 0x28
  else if rows = 0 ∨ cols = 0 ∨ row0 + rows > fhRows d ∨ col0 + cols > fhCols d then 0x29
  else if off + rows * cols * w / 8 > scratch ∨ (w = 4 ∧ cols % 2 = 1) then 0x21
  else 0

/-- The operation ends: its status is posted (R288, R329). -/
def postFetch (c : CopyOp) (code detail vt : Nat) (s : State) : State :=
  let st := engStatus code 0 2 detail
  let s := wakeQueue 2 { s with cl := { s.cl with fetchQ := s.cl.fetchQ.filter (·.id != c.id) } }
  let s := arriveEngine c.block c.payload st s
  s.asThread c.slot c.lane (fun s => s.updTh (fun t => if t.pend.any (·.tag == c.tag) then (t.arrive c.tag [st]).sawVt (some vt) else t))

/-- What keeps an operation of the fetch unit, or ends it at the row it has come to. -/
def fetchStop (c : CopyOp) (e : EStop) (s : State) : State :=
  match e with
  | .fault va acc =>
    let (ok, s) := engFault (masterEngine s 2) c.ctx va acc s
    if ok then { s with cl := { s.cl with fetchQ := updIf (·.id == c.id) (fun c => { c with frozen := some (va, acc) }) s.cl.fetchQ } } else s
  | .miss va acc => engMiss (masterEngine s 2) c.ctx va acc s
  | .violation m h => freeze m c.ctx h s
  | .held => s
  | .space => postFetch c 0x2C c.done c.vt s
  | .malformed => postFetch c 0x2A c.done c.vt s
  | .poison => postFetch c 0x2C c.done c.vt s
  | .lost m => postFetch c 0x2C c.done c.vt (linkLost c.ctx m s)

def setFetch (id : Nat) (f : CopyOp → CopyOp) (s : State) : State := { s with cl := { s.cl with fetchQ := updIf (·.id == id) f s.cl.fetchQ } }

/-- The elements of the row that has been decoded go to the block's scratch, up to a boundary of 128 bytes at a time (R329, R336). -/
def fetchPiece (c : CopyOp) (rows : Nat) (s : State) : State :=
  let n := 128 - c.restAt % 128
  let s := match c.block with
    | some h => sramWrite h c.restAt (c.rest.take n) s
    | none => s
  let rest := c.rest.drop n
  let c := { c with rest := rest, restAt := c.restAt + n, done := if rest.isEmpty then c.done + 1 else c.done }
  if c.done ≥ rows then postFetch c 0 0 c.vt s
  else setFetch c.id (fun x => { x with rest := c.rest, restAt := c.restAt, done := c.done, vt := c.vt }) s

/-- A window whose checks have passed goes on: the rest of a row, or the next row, which is decoded whole before any of it is written (R329). -/
def fetchRow (c : CopyOp) (row0 col0 off rows cols : Nat) (s : State) : State :=
  let d := c.desc
  let w := elemWidth (fhElem d)
  let f : FetchFor := { ctx := c.ctx, thread := false, fresh := c.payload.getLsbD 24 }
  if !c.rest.isEmpty then fetchPiece c rows s
  else match fetchUnits f d (rowUnits d (row0 + c.done) col0 cols) s with
    | (.error e, s) => fetchStop c e s
    | (.ok (bs, vt), s) =>
      match (rowElems (unitReader bs) d (row0 + c.done) cols col0).go.1 with
      | .error e => fetchStop c e s
      | .ok vs =>
        fetchPiece { c with rest := leBytes (packRow w vs) (cols * w / 8), restAt := off + c.done * cols * w / 8, vt := max c.vt vt } rows s

/-- An `fgetb` goes on: the handle is read and checked once, then a row at a time (R329, R336). -/
def fgetbStep (c : CopyOp) (s : State) : State :=
  let w := fun (k : Nat) => c.quad.toNat / 2 ^ (32 * k) % 2 ^ 32
  let rows := w 3 / 65536
  let cols := w 3 % 65536
  if c.frozen.isSome || unserved s c.waitIds || opHeld s c || s.cp.stopped then s
  else if c.denied then postFetch c 0x2B 0 c.vt s
  else if c.accepted then fetchRow c (w 0) (w 1) (w 2) rows cols s
  else match fetchHandle { ctx := c.ctx, thread := false, fresh := c.payload.getLsbD 24 } c.addr.toNat s with
    | (.error e, s) => fetchStop c e s
    | (.ok (d, vt), s) =>
      let code := windowCheck d (w 0) (w 1) (w 2) rows cols (((c.block.bind s.block?).map (·.scratch)).getD 0)
      if code = 0x28 then postFetch c 0x28 0 vt s
      else match arraysInG s c.ctx d with
      | .error e => fetchStop c e s
      | .ok inG =>
        let code := if inG then code else 0x28
        if code ≠ 0 then postFetch c code 0 vt s
        else
          let c := { c with accepted := true, desc := d, vt := vt }
          fetchRow c (w 0) (w 1) (w 2) rows cols (setFetch c.id (fun x => { x with accepted := true, desc := d, vt := vt }) s)

/-- FGET (R328). -/
def execFget (sw : Bool) (d a b : BitVec 7) (p : Payload) (s : State) : Answer :=
  (fun (i0 : Ins) => runThread i0 (fgetIssue i0 d) s) ⟨packA sw 42 d a b 2, p, .eng .zero 2 d a b⟩

/-- FGETB (R329). -/
def execFgetb (sw : Bool) (d a b : BitVec 7) (p : Payload) (s : State) : Answer :=
  (fun (i0 : Ins) => runThread i0 (fgetbIssue i0) s) ⟨packA sw 42 d a b 3, p, .eng (.tile 0) 4 d a b⟩

/-- FGET_DECODE (R328). -/
def execFgetDecode (who : Agent) (s : State) : Answer :=
  .next (s.atThread who fgetStep)

/-- FGETB_COMPLETE (R329). -/
def execFgetbComplete (id : Nat) (s : State) : Answer :=
  .next (match s.cl.fetchQ.find? (·.id == id) with
  | some c => if opRuns s c then s.inCtx c.ctx (fgetbStep c) else s
  | none => s)

end Sys2Proof.Machine
end

