-- ==== Sys2Proof/Machine/Func.lean ====
section
/-! DEFINITION. FP32 functions: major 0x1C (R110). -/

namespace Sys2Proof.Machine

open Sys2Proof

/-- A function of FP32, correctly rounded (R110). -/
def func1 (i : Ins) (f : FX → FX) (s : State) : Answer := floatS i 14 40 (fun t r _ a _ => fop1 t r f a) s


/-- FEXP2 (R110). -/
def execFexp2 (sw : Bool) (d a : BitVec 7) (p : Payload) (s : State) : Answer :=
  func1 ⟨packA sw 28 d a 0#7 0, p, .alu2 1 1 true false true false d a⟩ exp2FX s

/-- FLOG2 (R110). -/
def execFlog2 (sw : Bool) (d a : BitVec 7) (p : Payload) (s : State) : Answer :=
  func1 ⟨packA sw 28 d a 0#7 1, p, .alu2 1 1 true false true false d a⟩ log2FX s

/-- FSIN (R110). -/
def execFsin (sw : Bool) (d a : BitVec 7) (p : Payload) (s : State) : Answer :=
  func1 ⟨packA sw 28 d a 0#7 2, p, .alu2 1 1 true false true false d a⟩ sinFX s

/-- FCOS (R110). -/
def execFcos (sw : Bool) (d a : BitVec 7) (p : Payload) (s : State) : Answer :=
  func1 ⟨packA sw 28 d a 0#7 3, p, .alu2 1 1 true false true false d a⟩ cosFX s

/-- FRSQ (R110). -/
def execFrsq (sw : Bool) (d a : BitVec 7) (p : Payload) (s : State) : Answer :=
  func1 ⟨packA sw 28 d a 0#7 4, p, .alu2 1 1 true false true false d a⟩ rsqFX s

/-- FTANH (R110). -/
def execFtanh (sw : Bool) (d a : BitVec 7) (p : Payload) (s : State) : Answer :=
  func1 ⟨packA sw 28 d a 0#7 5, p, .alu2 1 1 true false true false d a⟩ tanhFX s

end Sys2Proof.Machine
end

