-- ==== Sys2Proof/Machine/Int.lean ====
section
/-! DEFINITION. Integer arithmetic and logic: majors 0x01 to 0x03 (R80 to R82). -/

namespace Sys2Proof.Machine

open Sys2Proof

/-! ## Operations at any width (R79 to R84) -/

/-- A result of a shift, `n` or more giving the fill (R80, R83). -/
def shlN {n : Nat} (a : BitVec n) (k : Nat) : BitVec n := if k ≥ n then 0 else a <<< k
def shrN {n : Nat} (a : BitVec n) (k : Nat) : BitVec n := if k ≥ n then 0 else a >>> k
def sarN {n : Nat} (a : BitVec n) (k : Nat) : BitVec n := if k ≥ n then (if a.msb then BitVec.allOnes n else 0) else a.sshiftRight k
def rotN {n : Nat} (a : BitVec n) (k : Nat) : BitVec n := a.rotateLeft (k % n)

def uminN {n : Nat} (a b : BitVec n) : BitVec n := if a.toNat ≤ b.toNat then a else b
def umaxN {n : Nat} (a b : BitVec n) : BitVec n := if a.toNat ≥ b.toNat then a else b

/-- The high halves of products (R80, R81). -/
def mulhN {n : Nat} (a b : BitVec n) : BitVec n := BitVec.ofInt n (a.toInt * b.toInt / 2 ^ n)
def mulhnN {n : Nat} (a b : BitVec n) : BitVec n := BitVec.ofNat n (a.toNat * b.toNat / 2 ^ n)

/-- Division and remainder with their corners (Table 4-3). -/
def divN {n : Nat} (a b : BitVec n) : BitVec n := if b = 0 then BitVec.allOnes n else BitVec.ofInt n (Int.tdiv a.toInt b.toInt)
def divnN {n : Nat} (a b : BitVec n) : BitVec n := if b = 0 then BitVec.allOnes n else BitVec.ofNat n (a.toNat / b.toNat)
def remN {n : Nat} (a b : BitVec n) : BitVec n := if b = 0 then a else BitVec.ofInt n (Int.tmod a.toInt b.toInt)
def remnN {n : Nat} (a b : BitVec n) : BitVec n := if b = 0 then a else BitVec.ofNat n (a.toNat % b.toNat)

def clzN {n : Nat} (a : BitVec n) : BitVec n := BitVec.ofNat n (if a = 0 then n else n - 1 - Nat.log2 a.toNat)
def popcN {n : Nat} (a : BitVec n) : BitVec n := BitVec.ofNat n ((List.range n).filter (fun k => a.getLsbD k)).length
def absN {n : Nat} (a : BitVec n) : BitVec n := if a.msb then -a else a

/-- A value clamped to a range (Table 4-3). -/
def clampTo (lo hi v : Int) : Int := if v < lo then lo else if v > hi then hi else v
def satS (n : Nat) (v : Int) : BitVec n := BitVec.ofInt n (clampTo (-(2 ^ (n - 1))) (2 ^ (n - 1) - 1) v)
def satU (n : Nat) (v : Int) : BitVec n := BitVec.ofInt n (clampTo 0 (2 ^ n - 1) v)

/-! ## Forms -/

/-- Two single operands, one result; on a stream the same at 64 bits (Table 4-1). -/
def int2 (i : Ins) (lo hi : Nat) (f : (n : Nat) → BitVec n → BitVec n → BitVec n) (s : State) : Answer :=
  run i (fun o => result i o [f 32 (wordOf o.a) (wordOf o.b)] lo hi)
    (fun o => resultS i o (f 64 (dwordOf o.a) (dwordOf o.b)) lo hi) s

/-- One operand. -/
def int1 (i : Ins) (lo hi : Nat) (f : (n : Nat) → BitVec n → BitVec n) (s : State) : Answer :=
  run i (fun o => result i o [f 32 (wordOf o.a)] lo hi) (fun o => resultS i o (f 64 (dwordOf o.a)) lo hi) s

/-- Two operands and d (`sel`, `mla`): `f n d a b`. -/
def int3 (i : Ins) (lo hi : Nat) (f : (n : Nat) → BitVec n → BitVec n → BitVec n → BitVec n) (s : State) : Answer :=
  run i (fun o => result i o [f 32 (wordOf o.d) (wordOf o.a) (wordOf o.b)] lo hi)
    (fun o => resultS i o (f 64 (dwordOf o.d) (dwordOf o.a) (dwordOf o.b)) lo hi) s


/-! ## Major 0x01 (R80) -/

/-- ADD (R80). -/
def execAdd (sw : Bool) (d a b : BitVec 7) (p : Payload) (s : State) : Answer :=
  int2 ⟨packA sw 1 d a b 0, p, .alu3 1 1 1 false true d a b⟩ 4 4 (fun _ a b => a + b) s

/-- SUB (R80). -/
def execSub (sw : Bool) (d a b : BitVec 7) (p : Payload) (s : State) : Answer :=
  int2 ⟨packA sw 1 d a b 1, p, .alu3 1 1 1 false true d a b⟩ 4 4 (fun _ a b => a - b) s

/-- AND (R80). -/
def execAnd (sw : Bool) (d a b : BitVec 7) (p : Payload) (s : State) : Answer :=
  int2 ⟨packA sw 1 d a b 2, p, .alu3 1 1 1 false true d a b⟩ 4 4 (fun _ a b => a &&& b) s

/-- OR (R80). -/
def execOr (sw : Bool) (d a b : BitVec 7) (p : Payload) (s : State) : Answer :=
  int2 ⟨packA sw 1 d a b 3, p, .alu3 1 1 1 false true d a b⟩ 4 4 (fun _ a b => a ||| b) s

/-- XOR (R80). -/
def execXor (sw : Bool) (d a b : BitVec 7) (p : Payload) (s : State) : Answer :=
  int2 ⟨packA sw 1 d a b 4, p, .alu3 1 1 1 false true d a b⟩ 4 4 (fun _ a b => a ^^^ b) s

/-- ANDN (R80). -/
def execAndn (sw : Bool) (d a b : BitVec 7) (p : Payload) (s : State) : Answer :=
  int2 ⟨packA sw 1 d a b 5, p, .alu3 1 1 1 false true d a b⟩ 4 4 (fun _ a b => a &&& ~~~b) s

/-- SHL (R80). -/
def execShl (sw : Bool) (d a b : BitVec 7) (p : Payload) (s : State) : Answer :=
  int2 ⟨packA sw 1 d a b 6, p, .alu3 1 1 1 false true d a b⟩ 4 4 (fun _ a b => shlN a b.toNat) s

/-- SHR (R80). -/
def execShr (sw : Bool) (d a b : BitVec 7) (p : Payload) (s : State) : Answer :=
  int2 ⟨packA sw 1 d a b 7, p, .alu3 1 1 1 false true d a b⟩ 4 4 (fun _ a b => shrN a b.toNat) s

/-- SAR (R80). -/
def execSar (sw : Bool) (d a b : BitVec 7) (p : Payload) (s : State) : Answer :=
  int2 ⟨packA sw 1 d a b 8, p, .alu3 1 1 1 false true d a b⟩ 4 4 (fun _ a b => sarN a b.toNat) s

/-- ROT (R80). -/
def execRot (sw : Bool) (d a b : BitVec 7) (p : Payload) (s : State) : Answer :=
  int2 ⟨packA sw 1 d a b 9, p, .alu3 1 1 1 false true d a b⟩ 4 4 (fun _ a b => rotN a b.toNat) s

/-- MIN (R80). -/
def execMin (sw : Bool) (d a b : BitVec 7) (p : Payload) (s : State) : Answer :=
  int2 ⟨packA sw 1 d a b 10, p, .alu3 1 1 1 false true d a b⟩ 4 4 (fun _ a b => sminW a b) s

/-- MAX (R80). -/
def execMax (sw : Bool) (d a b : BitVec 7) (p : Payload) (s : State) : Answer :=
  int2 ⟨packA sw 1 d a b 11, p, .alu3 1 1 1 false true d a b⟩ 4 4 (fun _ a b => smaxW a b) s

/-- MINN (R80). -/
def execMinn (sw : Bool) (d a b : BitVec 7) (p : Payload) (s : State) : Answer :=
  int2 ⟨packA sw 1 d a b 12, p, .alu3 1 1 1 false true d a b⟩ 4 4 (fun _ a b => uminN a b) s

/-- MAXN (R80). -/
def execMaxn (sw : Bool) (d a b : BitVec 7) (p : Payload) (s : State) : Answer :=
  int2 ⟨packA sw 1 d a b 13, p, .alu3 1 1 1 false true d a b⟩ 4 4 (fun _ a b => umaxN a b) s

/-- MUL (R80). -/
def execMul (sw : Bool) (d a b : BitVec 7) (p : Payload) (s : State) : Answer :=
  int2 ⟨packA sw 1 d a b 14, p, .alu3 1 1 1 false true d a b⟩ 6 6 (fun _ a b => a * b) s

/-- MULH (R80). -/
def execMulh (sw : Bool) (d a b : BitVec 7) (p : Payload) (s : State) : Answer :=
  int2 ⟨packA sw 1 d a b 15, p, .alu3 1 1 1 false true d a b⟩ 6 6 (fun _ a b => mulhN a b) s

/-! ## Major 0x02 (R81) -/

/-- MULHN (R81). -/
def execMulhn (sw : Bool) (d a b : BitVec 7) (p : Payload) (s : State) : Answer :=
  int2 ⟨packA sw 2 d a b 0, p, .alu3 1 1 1 false true d a b⟩ 6 6 (fun _ a b => mulhnN a b) s

/-- DIV (R81). -/
def execDiv (sw : Bool) (d a b : BitVec 7) (p : Payload) (s : State) : Answer :=
  int2 ⟨packA sw 2 d a b 1, p, .alu3 1 1 1 false true d a b⟩ 20 36 (fun _ a b => divN a b) s

/-- DIVN (R81). -/
def execDivn (sw : Bool) (d a b : BitVec 7) (p : Payload) (s : State) : Answer :=
  int2 ⟨packA sw 2 d a b 2, p, .alu3 1 1 1 false true d a b⟩ 20 36 (fun _ a b => divnN a b) s

/-- REM (R81). -/
def execRem (sw : Bool) (d a b : BitVec 7) (p : Payload) (s : State) : Answer :=
  int2 ⟨packA sw 2 d a b 3, p, .alu3 1 1 1 false true d a b⟩ 20 36 (fun _ a b => remN a b) s

/-- REMN (R81). -/
def execRemn (sw : Bool) (d a b : BitVec 7) (p : Payload) (s : State) : Answer :=
  int2 ⟨packA sw 2 d a b 4, p, .alu3 1 1 1 false true d a b⟩ 20 36 (fun _ a b => remnN a b) s

/-- CLZ (R81). -/
def execClz (sw : Bool) (d a : BitVec 7) (p : Payload) (s : State) : Answer :=
  int1 ⟨packA sw 2 d a 0#7 5, p, .alu2 1 1 false true true true d a⟩ 4 4 (fun _ a => clzN a) s

/-- POPC (R81). -/
def execPopc (sw : Bool) (d a : BitVec 7) (p : Payload) (s : State) : Answer :=
  int1 ⟨packA sw 2 d a 0#7 6, p, .alu2 1 1 false true true true d a⟩ 4 4 (fun _ a => popcN a) s

/-- BREV (R81). -/
def execBrev (sw : Bool) (d a : BitVec 7) (p : Payload) (s : State) : Answer :=
  int1 ⟨packA sw 2 d a 0#7 7, p, .alu2 1 1 false true true true d a⟩ 4 4 (fun _ a => a.reverse) s

/-- ABS (R81). -/
def execAbs (sw : Bool) (d a : BitVec 7) (p : Payload) (s : State) : Answer :=
  int1 ⟨packA sw 2 d a 0#7 8, p, .alu2 1 1 false true true true d a⟩ 4 4 (fun _ a => absN a) s

/-- NEG (R81). -/
def execNeg (sw : Bool) (d a : BitVec 7) (p : Payload) (s : State) : Answer :=
  int1 ⟨packA sw 2 d a 0#7 9, p, .alu2 1 1 false true true true d a⟩ 4 4 (fun _ a => -a) s

/-- SEL (R81). -/
def execSel (sw : Bool) (d a b : BitVec 7) (p : Payload) (s : State) : Answer :=
  int3 ⟨packA sw 2 d a b 10, p, .alu3u 1 1 1 false true d a b⟩ 4 4 (fun _ d a b => if d ≠ 0 then a else b) s

/-- MLA (R81). -/
def execMla (sw : Bool) (d a b : BitVec 7) (p : Payload) (s : State) : Answer :=
  int3 ⟨packA sw 2 d a b 11, p, .alu3u 1 1 1 false true d a b⟩ 6 6 (fun _ d a b => d + a * b) s

/-- ADDS (R81). -/
def execAdds (sw : Bool) (d a b : BitVec 7) (p : Payload) (s : State) : Answer :=
  int2 ⟨packA sw 2 d a b 12, p, .alu3 1 1 1 false true d a b⟩ 4 4 (fun n a b => satS n (a.toInt + b.toInt)) s

/-- SUBS (R81). -/
def execSubs (sw : Bool) (d a b : BitVec 7) (p : Payload) (s : State) : Answer :=
  int2 ⟨packA sw 2 d a b 13, p, .alu3 1 1 1 false true d a b⟩ 4 4 (fun n a b => satS n (a.toInt - b.toInt)) s

/-- ADDSN (R81). -/
def execAddsn (sw : Bool) (d a b : BitVec 7) (p : Payload) (s : State) : Answer :=
  int2 ⟨packA sw 2 d a b 14, p, .alu3 1 1 1 false true d a b⟩ 4 4 (fun n a b => satU n (a.toNat + b.toNat)) s

/-- SUBSN (R81). -/
def execSubsn (sw : Bool) (d a b : BitVec 7) (p : Payload) (s : State) : Answer :=
  int2 ⟨packA sw 2 d a b 15, p, .alu3 1 1 1 false true d a b⟩ 4 4 (fun n a b => satU n (a.toNat - b.toNat)) s

/-! ## Major 0x03 (R82) -/

/-- EQ (R82). -/
def execEq (sw : Bool) (d a b : BitVec 7) (p : Payload) (s : State) : Answer :=
  int2 ⟨packA sw 3 d a b 0, p, .alu3 1 1 1 false true d a b⟩ 4 4 (fun _ a b => flag (a == b)) s

/-- NE (R82). -/
def execNe (sw : Bool) (d a b : BitVec 7) (p : Payload) (s : State) : Answer :=
  int2 ⟨packA sw 3 d a b 1, p, .alu3 1 1 1 false true d a b⟩ 4 4 (fun _ a b => flag (a != b)) s

/-- LT (R82). -/
def execLt (sw : Bool) (d a b : BitVec 7) (p : Payload) (s : State) : Answer :=
  int2 ⟨packA sw 3 d a b 2, p, .alu3 1 1 1 false true d a b⟩ 4 4 (fun _ a b => flag (a.slt b)) s

/-- LE (R82). -/
def execLe (sw : Bool) (d a b : BitVec 7) (p : Payload) (s : State) : Answer :=
  int2 ⟨packA sw 3 d a b 3, p, .alu3 1 1 1 false true d a b⟩ 4 4 (fun _ a b => flag (a.sle b)) s

/-- LTN (R82). -/
def execLtn (sw : Bool) (d a b : BitVec 7) (p : Payload) (s : State) : Answer :=
  int2 ⟨packA sw 3 d a b 4, p, .alu3 1 1 1 false true d a b⟩ 4 4 (fun _ a b => flag (a.ult b)) s

/-- LEN (R82). -/
def execLen (sw : Bool) (d a b : BitVec 7) (p : Payload) (s : State) : Answer :=
  int2 ⟨packA sw 3 d a b 5, p, .alu3 1 1 1 false true d a b⟩ 4 4 (fun _ a b => flag (a.ule b)) s

end Sys2Proof.Machine
end

