-- ==== Sys2Proof/Machine/Imm.lean ====
section
/-! DEFINITION. Immediate forms: majors 0x05 to 0x0E (R84). -/

namespace Sys2Proof.Machine

open Sys2Proof

/-- An immediate form: one operand and a constant that extends to the width (R84, Table 4-1). -/
def imm1 (i : Ins) (f : (n : Nat) → BitVec n → BitVec n) (s : State) : Answer := int1 i 4 4 f s


/-- ADDI (R84). -/
def execAddi (sw : Bool) (d a : BitVec 7) (i : BitVec 11) (p : Payload) (s : State) : Answer :=
  imm1 ⟨packI sw 5 d a i, p, .alu2 1 1 false false true true d a⟩ (fun n a => a + i.signExtend n) s

/-- ANDI (R84). -/
def execAndi (sw : Bool) (d a : BitVec 7) (i : BitVec 11) (p : Payload) (s : State) : Answer :=
  imm1 ⟨packI sw 6 d a i, p, .alu2 1 1 false false true true d a⟩ (fun n a => a &&& i.signExtend n) s

/-- ORI (R84). -/
def execOri (sw : Bool) (d a : BitVec 7) (i : BitVec 11) (p : Payload) (s : State) : Answer :=
  imm1 ⟨packI sw 7 d a i, p, .alu2 1 1 false false true true d a⟩ (fun n a => a ||| i.signExtend n) s

/-- XORI (R84). -/
def execXori (sw : Bool) (d a : BitVec 7) (i : BitVec 11) (p : Payload) (s : State) : Answer :=
  imm1 ⟨packI sw 8 d a i, p, .alu2 1 1 false false true true d a⟩ (fun n a => a ^^^ i.signExtend n) s

/-- SHLI (R84). -/
def execShli (sw : Bool) (d a : BitVec 7) (n : BitVec 5) (p : Payload) (s : State) : Answer :=
  imm1 ⟨packI sw 9 d a (0#6 ++ n), p, .alu2 1 1 false false true true d a⟩ (fun _ a => shlN a n.toNat) s

/-- SHRI (R84). -/
def execShri (sw : Bool) (d a : BitVec 7) (n : BitVec 5) (p : Payload) (s : State) : Answer :=
  imm1 ⟨packI sw 9 d a (16#6 ++ n), p, .alu2 1 1 false false true true d a⟩ (fun _ a => shrN a n.toNat) s

/-- SARI (R84). -/
def execSari (sw : Bool) (d a : BitVec 7) (n : BitVec 5) (p : Payload) (s : State) : Answer :=
  imm1 ⟨packI sw 9 d a (32#6 ++ n), p, .alu2 1 1 false false true true d a⟩ (fun _ a => sarN a n.toNat) s

/-- ROTI (R84). -/
def execRoti (sw : Bool) (d a : BitVec 7) (n : BitVec 5) (p : Payload) (s : State) : Answer :=
  imm1 ⟨packI sw 9 d a (48#6 ++ n), p, .alu2 1 1 false false true true d a⟩ (fun _ a => rotN a n.toNat) s

/-- SLTI (R84). -/
def execSlti (sw : Bool) (d a : BitVec 7) (i : BitVec 11) (p : Payload) (s : State) : Answer :=
  imm1 ⟨packI sw 10 d a i, p, .alu2 1 1 false false true true d a⟩ (fun n a => flag (a.slt (i.signExtend n))) s

/-- SLTNI (R84). -/
def execSltni (sw : Bool) (d a : BitVec 7) (i : BitVec 11) (p : Payload) (s : State) : Answer :=
  imm1 ⟨packI sw 11 d a i, p, .alu2 1 1 false false true true d a⟩ (fun n a => flag (a.ult (i.signExtend n))) s

/-- ADDXI (R84). -/
def execAddxi (sw : Bool) (d a : BitVec 7) (i : BitVec 11) (p : Payload) (s : State) : Answer :=
  (fun (i0 : Ins) => run i0 (fun o => result i0 o (dwordWords (dwordOf o.a + i.signExtend 64)) 4 4)
    (fun o => resultS i0 o (dwordOf o.a + i.signExtend 64) 4 4) s) ⟨packI sw 12 d a i, p, .alu2 2 2 false false true true d a⟩

/-- MOVH (R84). -/
def execMovh (sw : Bool) (d : BitVec 7) (n : BitVec 18) (p : Payload) (s : State) : Answer :=
  (fun (i0 : Ins) => run i0 (fun o => result i0 o [n.zeroExtend 32 <<< 14] 4 4)
    (fun o => resultS i0 o ((n.zeroExtend 32 <<< 14).signExtend 64) 4 4) s) ⟨packH sw 13 d n, p, .mov .dst d⟩

/-- MOVL (R84). -/
def execMovl (sw : Bool) (d : BitVec 7) (n : BitVec 14) (p : Payload) (s : State) : Answer :=
  (fun (i0 : Ins) => run i0 (fun o => result i0 o [(wordOf o.d).extractLsb' 14 18 ++ n] 4 4)
    (fun o => resultS i0 o ((dwordOf o.d).extractLsb' 14 50 ++ n) 4 4) s) ⟨packH sw 14 d (0#4 ++ n), p, .mov .upd d⟩

end Sys2Proof.Machine
end

