-- ==== Sys2Proof/Machine/Int64.lean ====
section
/-! DEFINITION. 64-bit and address arithmetic: major 0x04 (R83). -/

namespace Sys2Proof.Machine

open Sys2Proof

/-- A pair result from pair a and pair b (R83). -/
def pair2 (i : Ins) (f : DWord → DWord → DWord) (s : State) : Answer :=
  run i (fun o => result i o (dwordWords (f (dwordOf o.a) (dwordOf o.b))) 6 6) (fun o => resultS i o (f (dwordOf o.a) (dwordOf o.b)) 6 6) s

/-- A pair result from pair a and the single b. -/
def pairW (i : Ins) (thread : DWord → Word → DWord) (stream : DWord → DWord → DWord) (s : State) : Answer :=
  run i (fun o => result i o (dwordWords (thread (dwordOf o.a) (wordOf o.b))) 6 6)
    (fun o => resultS i o (stream (dwordOf o.a) (dwordOf o.b)) 6 6) s

/-- A single result, 0 or 1, from pairs. -/
def pairRel (i : Ins) (f : DWord → DWord → Bool) (s : State) : Answer :=
  run i (fun o => result i o [flag (f (dwordOf o.a) (dwordOf o.b))] 6 6) (fun o => resultS i o (flag (f (dwordOf o.a) (dwordOf o.b))) 6 6) s


/-- ADD64 (R83). -/
def execAdd64 (sw : Bool) (d a b : BitVec 7) (p : Payload) (s : State) : Answer :=
  pair2 ⟨packA sw 4 d a b 0, p, .alu3 2 2 2 false true d a b⟩ (fun a b => a + b) s

/-- SUB64 (R83). -/
def execSub64 (sw : Bool) (d a b : BitVec 7) (p : Payload) (s : State) : Answer :=
  pair2 ⟨packA sw 4 d a b 1, p, .alu3 2 2 2 false true d a b⟩ (fun a b => a - b) s

/-- MUL64 (R83). -/
def execMul64 (sw : Bool) (d a b : BitVec 7) (p : Payload) (s : State) : Answer :=
  pair2 ⟨packA sw 4 d a b 2, p, .alu3 2 2 2 false true d a b⟩ (fun a b => a * b) s

/-- SHL64 (R83). -/
def execShl64 (sw : Bool) (d a b : BitVec 7) (p : Payload) (s : State) : Answer :=
  pairW ⟨packA sw 4 d a b 3, p, .alu3 2 2 1 false true d a b⟩ (fun a b => shlN a b.toNat) (fun a b => shlN a b.toNat) s

/-- SHR64 (R83). -/
def execShr64 (sw : Bool) (d a b : BitVec 7) (p : Payload) (s : State) : Answer :=
  pairW ⟨packA sw 4 d a b 4, p, .alu3 2 2 1 false true d a b⟩ (fun a b => shrN a b.toNat) (fun a b => shrN a b.toNat) s

/-- SAR64 (R83). -/
def execSar64 (sw : Bool) (d a b : BitVec 7) (p : Payload) (s : State) : Answer :=
  pairW ⟨packA sw 4 d a b 5, p, .alu3 2 2 1 false true d a b⟩ (fun a b => sarN a b.toNat) (fun a b => sarN a b.toNat) s

/-- EQ64 (R83). -/
def execEq64 (sw : Bool) (d a b : BitVec 7) (p : Payload) (s : State) : Answer :=
  pairRel ⟨packA sw 4 d a b 6, p, .alu3 1 2 2 false true d a b⟩ (fun a b => a == b) s

/-- LT64 (R83). -/
def execLt64 (sw : Bool) (d a b : BitVec 7) (p : Payload) (s : State) : Answer :=
  pairRel ⟨packA sw 4 d a b 7, p, .alu3 1 2 2 false true d a b⟩ (fun a b => a.slt b) s

/-- LTN64 (R83). -/
def execLtn64 (sw : Bool) (d a b : BitVec 7) (p : Payload) (s : State) : Answer :=
  pairRel ⟨packA sw 4 d a b 8, p, .alu3 1 2 2 false true d a b⟩ (fun a b => a.ult b) s

/-- MOV64 (R83). -/
def execMov64 (sw : Bool) (d a : BitVec 7) (p : Payload) (s : State) : Answer :=
  pair2 ⟨packA sw 4 d a 0#7 9, p, .alu2 2 2 false true true true d a⟩ (fun a _ => a) s

/-- ADDX (R83). -/
def execAddx (sw : Bool) (d a b : BitVec 7) (p : Payload) (s : State) : Answer :=
  pairW ⟨packA sw 4 d a b 10, p, .alu3 2 2 1 false true d a b⟩ (fun a b => a + b.signExtend 64) (fun a b => a + (b.truncate 32).signExtend 64) s

/-- ADDXN (R83). -/
def execAddxn (sw : Bool) (d a b : BitVec 7) (p : Payload) (s : State) : Answer :=
  pairW ⟨packA sw 4 d a b 11, p, .alu3 2 2 1 false true d a b⟩ (fun a b => a + b.zeroExtend 64) (fun a b => a + (b.truncate 32).zeroExtend 64) s

end Sys2Proof.Machine
end

