-- ==== Sys2Proof/Machine/Links.lean ====
section
/-! DEFINITION. Links and the domain: time, heartbeats, flit errors, completions for modules out of reach, and requests of other
modules (R386 to R392, R407). -/

namespace Sys2Proof.Machine

open Sys2Proof

/-! ## Domain time (R386) -/

/-- A domain time message: the time base slews towards it; a skew beyond 40 ns loses sync, and one that holds again ends the loss. The
lowest-numbered module sends them. -/
def timeMessageStep (t : Nat) (s : State) : State :=
  if !followsDomain s then (if s.root.domain.any (fun d => !d.pool) then { s with out := s.out ++ [.timeMessage s.clock.tbase] } else s)
  else
    let d : Int := (t : Int) - s.clock.tbase
    let s := { s with clock := { s.clock with slew := d } }
    if d.natAbs ≤ 40 then { s with syncLost := false } else if s.syncLost then s else setIrq 68 { s with syncLost := true }

/-! ## Heartbeats (R407) -/

def lastHeard (s : State) (m : Nat) : Nat := stGet 0 s.heard m

/-- A peer's heartbeat arrives. -/
def heartbeatStep (m : Nat) (s : State) : State :=
  { s with heard := stSet 0 s.heard m s.clock.tbase, unreachable := s.unreachable.filter (· != m) }

/-- Every 1 ms a heartbeat goes to each peer. -/
def sendBeats (s : State) : State :=
  let peers := (s.root.domain.filter (fun d => !d.pool && d.m != s.win.modnum)).map (·.m)
  if peers.isEmpty || decide (s.clock.tbase < s.beat + 1000000) then s
  else { s with beat := s.clock.tbase, out := s.out ++ peers.map .heartbeat }

/-- A module of the checkpoint's set is lost (R407): every context stops as in step 1 of R404, and the ports to it are closed. DEDUCED (log entry
56): the set is that of the last CHECKPOINT or RESTORE, and host writes, which are no context's, are not held. -/
def isolate (m : Nat) (s : State) : State :=
  if s.ckptSet.contains m then
    { s with ctxs := s.ctxs.map (fun c => { c with paused := true }), cp := { s.cp with stopped := true }, closed := if s.closed.contains m then s.closed else s.closed ++ [m] }
  else s

def heartbeatTimeoutStep (m : Nat) (s : State) : State :=
  if s.clock.tbase < lastHeard s m + 100000000 ∨ s.unreachable.contains m = true then s
  else setIrq 68 (isolate m { s with unreachable := s.unreachable ++ [m] })

/-! ## Flits (R356, R390) -/

/-- A port with one more failed retransmission; a third within 1 ms takes it out. -/
def portFail (p : Nat) (s : State) : State :=
  let x := (s.ports.find? (·.n == p)).getD { n := p }
  let fails := (s.clock.tbase :: x.fails).filter (fun t => decide (s.clock.tbase < t + 1000000))
  let s := { s with ports := { x with fails := fails } :: s.ports.filter (·.n != p) }
  if !x.out && decide (fails.length ≥ 3) then portsOut [p] s else s

/-- The bytes that an atomic request would write. -/
def atomicWrites (s : State) (a : AtomicMsg) : List (Nat × Byte) := a.steps.foldl (fun w x => (amoApply s w x).2) []

/-- A request that went out at port `p`, or its reply, is delivered with its data poisoned (R390): a load or an atomic traps, and a
write poisons its sectors. -/
def poisonMsg (p id : Nat) (s : State) : State :=
  match s.pl.net.find? (·.id == id) with
  | some m =>
    let h := bodyLine m.body * 128
    if !isX h || bodyServed m.body then s
    else match m.body with
      | .fill f => netUpd id (fun _ => .fill { f with reply := some ([], 0, 0, true) }) s
      | .write w => if portOf s h ≠ p then s else netUpd id (fun _ => .write { w with poison := ((w.ws.map (fun (x : Nat × Byte) => x.1 / 64)) ++ w.poison).eraseDups }) s
      | .atomic a =>
          let s := maybeRemote (atomicWrites s a) s
          let s := a.steps.foldl (fun s x => amoArrive x 0 0 true s) s
          netUpd id (fun _ => .atomic { a with ack := some (s.clock.tbase + 40, []) }) s
      | _ => s
  | none => s

/-- The request or reply that a flit carried is delivered with its data poisoned: that of a message, or of a read that makes none. -/
def flitPoison (p id : Nat) (s : State) : State :=
  if (s.pl.net ++ s.standby.plane.net).any (·.id == id) then s.atMsg id (poisonMsg p id) else { s with badPorts := p :: s.badPorts }

/-- A flit fails its CRC at a port: it is sent once more, and a second failure is lasting. Either is logged with its port. -/
def flitStep (p : Nat) (second : Bool) (id : Nat) (s : State) : State :=
  if isFrozen s (masterPort p) then s
  else
    let s := rasLog (.link p) second { s with win := { s.win with rasRetry := s.win.rasRetry + 1 } }
    if second then portFail p (flitPoison p id s) else s

/-- The sender's port completes a request to a module that no port reaches. -/
def unreachableStep (id : Nat) (s : State) : State :=
  match s.pl.net.find? (·.id == id) with
  | some m =>
    let h := bodyLine m.body * 128
    if !isX h || !isUnreachable s (xModule h) || bodyServed m.body then s
    else match m.body with
      | .fill f => linkLost f.ctx (xModule h) (netUpd id (fun _ => .fill { f with reply := some ([], 0, 0, true) }) s)
      | .write w =>
        let s := maybeRemote w.ws s
        linkLost w.ctx (xModule h) (netUpd id (fun _ => .write { w with ack := some (s.clock.tbase + 40, []) }) s)
      | .atomic a =>
        let s := maybeRemote (atomicWrites s a) s
        let s := a.steps.foldl (fun s x => amoArrive x 0 0 true s) s
        linkLost a.ctx (xModule h) (netUpd id (fun _ => .atomic { a with ack := some (s.clock.tbase + 40, []) }) s)
      | _ => s
  | none => s

/-! ## Requests of other modules (R388, R392) -/

/-- An export window admits the access. -/
def exported (s : State) (pa n : Nat) (r w : Bool) : Bool :=
  s.root.exports.any (fun e => decide (e.base ≤ pa ∧ pa + n ≤ e.base + e.len) && (!r || e.r) && (!w || e.wr))

def remoteReply (rq : RemoteReq) (ans : RemoteAns) (wct : Nat) (rf : List Refused) (s : State) : State :=
  { s with out := s.out ++ [.remoteReply rq.sender ans wct rf] }

def refuseRemote (rq : RemoteReq) (s : State) : State :=
  remoteReply rq .refused 0 [] { s with
    root := { s.root with violations := s.root.violations ++ [{ master := rq.sender, ctx := 0, pa := rq.pa, time := s.clock.tbase }] } }

/-- The bytes a request names, and the permissions it needs. -/
def remoteNeeds (rq : RemoteReq) : Nat × Bool × Bool :=
  match rq.kind with
  | .read n => (n, true, false)
  | .write bs => (bs.length, false, true)
  | .amo f _ _ => (amoSize f, true, true)
  | .fwait _ => (4, true, false)

/-- An `fwait` of another module joins the word's entry in the wait table. -/
def remoteJoin (pa m : Nat) (s : State) : State :=
  let ws := if s.sl.waits.any (·.pa == pa) then updIf (·.pa == pa) (fun w => { w with remote := w.remote ++ [m] }) s.sl.waits
    else s.sl.waits ++ [{ pa := pa, who := [], remote := [m] }]
  { s with sl := { s.sl with waits := ws } }

/-- A request is performed at the owning slice (R237, R249, R269, R388). -/
def serveRemote (rq : RemoteReq) (s : State) : State :=
  let vl := (lineRec s (lineOf rq.pa)).vl
  match rq.kind with
  | .read n => if (List.range n).any (fun k => isPoisoned s (rq.pa + k) 1) then remoteReply rq .poison 0 [] s else remoteReply rq (.bytes (homeRead s rq.pa n)) vl [] s
  | .write bs =>
    let (s, t, rf) := (byLine (atAddr rq.pa bs)).foldl (fun (x : State × Nat × List Refused) w =>
      let (s, t, rf) := commit w rq.depth .other x.1
      (s, max x.2.1 t, x.2.2 ++ rf)) (s, 0, [])
    let bad := if rq.poisoned then ((List.range bs.length).map (fun k => (rq.pa + k) / 64)).eraseDups else []
    remoteReply rq (.bytes []) t rf (keepPoison bad s)
  | .amo f b e =>
    if rq.poisoned || isPoisoned s rq.pa (amoSize f) then remoteReply rq .poison 0 [] s
    else
      let old := homeRead s rq.pa (amoSize f)
      match amoNew f (BitVec.ofNat 64 (leNat old)) b e with
      | none => remoteReply rq (.bytes old) vl [] s
      | some v =>
        let (s, t, rf) := commit (atAddr rq.pa (leBytes v.toNat (amoSize f))) rq.depth .other s
        remoteReply rq (.bytes old) t rf s
  | .fwait empty =>
    if isPoisoned s rq.pa 4 then remoteReply rq .poison 0 [] s
    else if getLe s.mem rq.pa 4 ≠ empty.toNat ∨ waitRoom s rq.pa = false then remoteReply rq (.bytes (homeRead s rq.pa 4)) vl [] s
    else remoteJoin rq.pa rq.sender s

/-- A request arrives at this module, the owner: it passes the export check (R388) and the port's own (R358), or is refused. -/
def remoteStep (rq : RemoteReq) (s : State) : State :=
  let (n, r, w) := remoteNeeds rq
  if isFrozen s (masterPort rq.port) then s
  else if !exported s rq.pa n r w then refuseRemote rq s
  else portGate (masterPort rq.port) rq.pa n (.remote rq) (serveRemote rq) s

/-- What a port held goes on once the port is not frozen any more (R360). -/
def settlePorts (s : State) : State :=
  let go := s.root.portHeld.filter (fun r => !isFrozen s (portMaster r))
  go.foldl (fun s r => portAgain r (fun s => match r with
    | .hostRead pa n => apertureRead pa n s
    | .hostWrite pa bs bad => apertureWrite pa bs bad s
    | .remote rq => remoteStep rq s) s) { s with root := { s.root with portHeld := s.root.portHeld.filter (fun r => isFrozen s (portMaster r)) } }

/-- TIME_MESSAGE (R386). -/
def execTimeMessage (t : Nat) (s : State) : Answer :=
  .next (timeMessageStep t s)

/-- TIME_SYNC_LOSS (R386). -/
def execTimeSyncLoss (s : State) : Answer :=
  .next (if followsDomain s && !s.syncLost then setIrq 68 { s with syncLost := true } else s)

/-- HEARTBEAT (R407). -/
def execHeartbeat (m : Nat) (s : State) : Answer :=
  .next (heartbeatStep m s)

/-- HEARTBEAT_TIMEOUT (R407). -/
def execHeartbeatTimeout (m : Nat) (s : State) : Answer :=
  .next (heartbeatTimeoutStep m s)

/-- FLIT_CRC_FAIL (R390). -/
def execFlitCrcFail (port : Nat) (second : Bool) (id : Nat) (s : State) : Answer :=
  .next (flitStep port second id s)

/-- UNREACHABLE_COMPLETION (R390). -/
def execUnreachableCompletion (id : Nat) (s : State) : Answer :=
  .next (s.atMsg id (unreachableStep id))

/-- REMOTE_REQUEST (R388). -/
def execRemoteRequest (rq : RemoteReq) (s : State) : Answer :=
  .next (remoteStep rq s)

end Sys2Proof.Machine
end

