-- ==== Sys2Proof/Machine/Moves.lean ====
section
/-! DEFINITION. Moves between the queues of work, and the dispatch of trigger records (R164 to R166, R263 to R265). -/

namespace Sys2Proof.Machine

open Sys2Proof

/-! ## Pulls (R165, R166) -/

/-- A move to a level is on its way. -/
def movingTo (s : State) (l : QLevel) : Bool := s.sched.moving.any (fun m => decide (m.toLvl = l))

def addMove (l : QLevel) (es : List QEntry) (s : State) : State :=
  if es.isEmpty then s else { s with sched := { s.sched with moving := s.sched.moving ++ [{ toLvl := l, entries := es }] } }

/-- The entries of a segment that a die queue pulls: at most eight, in order, no marked record. -/
def segTake (s : State) (q : Nat) : List QEntry := (inOrder s.clock.cycle ((segOf s q).filter (fun e => !isCont e))).take 8

/-- The slices a die queue looks at, in order: its own from after the last, then the other dies'. -/
def pullOrder (s : State) : List Nat :=
  let own := (List.range 72).map (fun k => s.did * 72 + (s.sched.lastSlice % 72 + 1 + k) % 72)
  own ++ (List.range 288).filter (fun q => q / 72 != s.did)

def pullDie (s : State) : State :=
  if s.sched.dieQ.length ≥ 8 ∨ movingTo s .die = true then s
  else match (pullOrder s).find? (fun q => !(segTake s q).isEmpty) with
    | none => s
    | some q =>
      let es := segTake s q
      let s := setSeg q (without (segOf s q) es) s
      let s := if q / 72 = s.did then { s with sched := { s.sched with lastSlice := q } } else s
      addMove .die es s

/-- Up to `n` blocks of a die queue in its order: what they are, and what is left of the entries they come from. -/
def splitBlocks : Nat → List QEntry → List QEntry × List QEntry
  | _, [] => ([], [])
  | 0, l => ([], l)
  | n + 1, e :: t =>
    match e.work with
    | .task h l a cnt next =>
      let k := min (n + 1) (cnt - next)
      let bs := (List.range k).map (fun i => { e with work := .block h l a cnt (next + i) })
      let rest := if next + k < cnt then [{ e with work := .task h l a cnt (next + k) }] else []
      let r := splitBlocks (n + 1 - k) t
      (bs ++ r.1, rest ++ r.2)
    | _ => let r := splitBlocks n t; (e :: r.1, r.2)
termination_by structural _ l => l

def pullCluster (s : State) : State :=
  if s.sched.clusterQ.length ≥ 8 ∨ movingTo s .cluster = true then s
  else
    let r := splitBlocks 8 (inOrder s.clock.cycle s.sched.dieQ)
    addMove .cluster r.1 { s with sched := { s.sched with dieQ := r.2 } }

/-- Entries by the time of first queuing, the oldest first. -/
def insOldest (e : QEntry) : List QEntry → List QEntry
  | [] => [e]
  | x :: t => if e.since < x.since ∨ (e.since = x.since ∧ e.entered < x.entered) then e :: x :: t else x :: insOldest e t

/-- The core's own marked records in its home segment, oldest first (R166). -/
def ownRecords (s : State) : List QEntry :=
  (((segOf s s.xid).filter (fun e => match e.work with | .cont cid _ => cid == s.coreNo | _ => false)).foldl (fun acc e => insOldest e acc) []).take 8

def pullCore (s : State) : State :=
  if s.sched.coreQ.length ≥ 8 ∨ movingTo s .core = true then s
  else
    let own := ownRecords s
    if !own.isEmpty then addMove .core own (setSeg s.xid (without (segOf s s.xid) own) s)
    else
      let es := (inOrder s.clock.cycle s.sched.clusterQ).take 8
      addMove .core es { s with sched := { s.sched with clusterQ := without s.sched.clusterQ es } }

def pullStep (l : QLevel) (s : State) : State :=
  match l with
  | .die => pullDie s
  | .cluster => pullCluster s
  | .core => pullCore s

/-- Entries arrive at the core queue, up to the first that finds no place; answers those that are left. -/
def coreTake : List QEntry → State → List QEntry × State
  | [], s => ([], s)
  | e :: t, s =>
    match corePush { e with entered := s.clock.cycle } s with
    | some s => coreTake t s
    | none => (e :: t, s)

/-- The move that started first takes effect; what finds no place yet is still on its way. -/
def moveDone (s : State) : State :=
  match s.sched.moving with
  | [] => s
  | m :: t =>
    let later := fun (es : List QEntry) (s : State) =>
      if es.isEmpty then s else { s with sched := { s.sched with moving := s.sched.moving ++ [{ m with entries := es }] } }
    let s := { s with sched := { s.sched with moving := t } }
    match m.toLvl with
    | .die => (dieTake m.entries s).getD (later m.entries s)
    | .cluster => (clusterTake m.entries s).getD (later m.entries s)
    | .core => let (es, s) := coreTake m.entries s; later es s

/-! ## Rings (R164) -/

/-- The entry by which a context's ring competes to refill (R164). DESIGN CHOICE (log entry 101): of the ring's oldest block, the one that comes first in
R167 order. -/
def ringHead (s : State) (r : WqRing) : Option QEntry := (inOrder s.clock.cycle (r.blocks.headD [])).head?

/-- The ring of a segment that refills first. -/
def firstRing (s : State) (q : Nat) : Option WqRing :=
  (s.sched.rings.filter (fun r => r.q == q && !r.blocks.isEmpty)).foldl (fun best r =>
    match best with
    | none => some r
    | some b => match ringHead s r, ringHead s b with
      | some x, some y => if entryBefore s.clock.cycle x y then some r else some b
      | _, _ => some b) none

/-- A context's ring gives its oldest block back to the segment, which has room for eight. -/
def ringRefill (q c : Nat) (s : State) : State :=
  if (segOf s q).length + 8 > 256 then s
  else match firstRing s q with
    | none => s
    | some r =>
      if r.ctx ≠ c then s
      else setRing { r with blocks := r.blocks.tail } (setSeg q (segOf s q ++ r.blocks.headD []) s)

/-! ## Trigger records (R263 to R265) -/

/-- A slice reads back the oldest block of a context's ring. -/
def trigRefill (q c : Nat) (s : State) : State :=
  let ring := trigRing s q c
  let lim := ((s.ctx? c).map (·.tqlim.toNat)).getD 256
  let all := (s.sl.trigs.filter (fun r => r.slice == q && r.spilled.isNone)).length
  if onChip s q c + 8 > lim ∨ all + 8 > 256 ∨ ring.tail ≥ ring.head then s
  else
    let back := fun (r : TrigRec) => r.slice == q && r.ctx == c && (match r.spilled with | some k => k / 8 == ring.tail | none => false)
    setTrigRing { ring with tail := ring.tail + 1 }
      { s with sl := { s.sl with trigs := updIf back (fun r => { r with spilled := none, tagged := true }) s.sl.trigs } }

/-- The record that counts a context's lost records of a slice. -/
def reportLost (q c : Nat) (s : State) : State :=
  let ring := trigRing s q c
  if ring.lost = 0 ∨ (match ring.reported with | some t => decide (s.clock.tbase < t + 4096) | none => false) = true then s
  else ctxError c 16 (BitVec.ofNat 64 (q * 2 ^ 32 + ring.lost % 2 ^ 32)) (setTrigRing { ring with lost := 0, reported := some s.clock.tbase } s)

/-- The on-chip record that a slice dispatches next: by priority, then by creation. -/
def nextTrig (s : State) (q : Nat) : Option TrigRec :=
  (s.sl.trigs.filter (fun r => r.slice == q && r.spilled.isNone)).foldl (fun best r =>
    match best with
    | none => some r
    | some b => if r.prio > b.prio ∨ (r.prio = b.prio ∧ r.seq < b.seq) then some r else some b) none

/-- A record becomes a task of the slice's segment. -/
def dispatchTrig (q : Nat) (s : State) : State :=
  if (match s.sl.lastDispatch.find? (·.1 == q) with | some x => decide (s.clock.cycle < x.2 + 4) | none => false) then s
  else match nextTrig s q with
    | none => s
    | some r => match s.sl.atts.find? (fun k => k.ctx == r.ctx && k.id == r.aid) with
      | none => s
      | some k =>
        let e : QEntry := { ctx := r.ctx, tree := r.tree, prio := r.prio, since := s.clock.cycle, depth := r.depth, trig := some (r, k.entry)
                            entered := s.clock.cycle, work := .task 0 k.lb k.args 1 0 }
        match segPush q e s with
        | none => s
        | some s => { s with sl := { s.sl with
            trigs := s.sl.trigs.filter (fun x => !(x.seq == r.seq && x.slice == r.slice))
            lastDispatch := (q, s.clock.cycle) :: s.sl.lastDispatch.filter (·.1 != q) } }

/-- QUEUE_PULL (R165). -/
def execQueuePull (lvl : QLevel) (s : State) : Answer :=
  .next (pullStep lvl s)

/-- QUEUE_MOVE_COMPLETE (R165). -/
def execQueueMoveComplete (s : State) : Answer :=
  .next (moveDone s)

/-- WQ_RING_REFILL (R164). -/
def execWqRingRefill (q c : Nat) (s : State) : Answer :=
  .next (ringRefill q c s)

/-- TRIGGER_REFILL (R263). -/
def execTriggerRefill (q c : Nat) (s : State) : Answer :=
  .next (trigRefill q c s)

/-- TRIG_OVERFLOW (R264). -/
def execTrigOverflow (q c : Nat) (s : State) : Answer :=
  .next (reportLost q c s)

/-- TRIGGER_DISPATCH (R265). -/
def execTriggerDispatch (q : Nat) (s : State) : Answer :=
  .next (dispatchTrig q s)

end Sys2Proof.Machine
end

