-- ==== Sys2Proof/Machine/Window.lean ====
section
/-! DEFINITION. The register window and indexed registers: major 0x16, f = 2 to 5 (R91 to R93). -/

namespace Sys2Proof.Machine

open Sys2Proof

/-- A register the window or `wi` reaches is rejected with its value (R91 to R93). -/
def badReg (v : Word) : Trap := { cause := .regBounds, info := v }

/-- `wbase`: the base is even and at most A − 2 (R91). -/
def wbaseOp (i : Ins) (o : Opnds) (s : State) : State :=
  let n := wordOf o.a
  if n.getLsbD 0 ∨ n.toNat > s.warp.regsPer - 2 then raise (badReg n) s
  else finish i (s.updTh (fun t => { t with wb := n.toNat }))

/-- `wiset`: one register of the warp; in a bundle the highest lane's value stays, for lanes execute in ascending order and
`wi` is not read before the next instruction (R17, R92). -/
def wisetOp (i : Ins) (o : Opnds) (s : State) : State :=
  let n := wordOf o.a
  if n.toNat > 511 then raise (badReg n) s
  else finish i (s.updWarp s.th.slot (fun w => { w with wi := n.toNat }))

/-- The register an index reaches, relative to WB alone (R93); none is out of bounds. -/
def indexed (s : State) (i : Word) : Option Nat :=
  if i.toNat > 511 ∨ s.th.wb + i.toNat ≥ s.warp.regsPer then none else some (s.th.wb + i.toNat)

/-- The value a bounds trap of an indexed access shows: the physical index, or an index above 511 itself (Table 18-1). -/
def indexedInfo (s : State) (i : Word) : Word := if i.toNat > 511 then i else BitVec.ofNat 32 (s.th.wb + i.toNat)

def vrgatOp (i : Ins) (o : Opnds) (s : State) : State :=
  match indexed s (wordOf o.a) with
  | none => raise (badReg (indexedInfo s (wordOf o.a))) s
  | some p =>
    if s.th.poisoned.contains p then raise { cause := .poison, info := BitVec.ofNat 32 p } s
    else result i o [stGet 0 s.th.regs p] 4 4 s

def vrscaOp (i : Ins) (o : Opnds) (s : State) : State :=
  match indexed s (wordOf o.a) with
  | none => raise (badReg (indexedInfo s (wordOf o.a))) s
  | some p => result i { o with pd := some p } [wordOf o.b] 4 4 s

/-- WBASE (R91). -/
def execWbase (sw : Bool) (a : BitVec 7) (s : State) : Answer :=
  (fun (i0 : Ins) => runThread i0 (wbaseOp i0) s) ⟨packA sw 22 0#7 a 0#7 2, none, .plain [⟨a, 1, .src, .a⟩]⟩

/-- WISET (R92). -/
def execWiset (sw : Bool) (a : BitVec 7) (s : State) : Answer :=
  (fun (i0 : Ins) => runThread i0 (wisetOp i0) s) ⟨packA sw 22 0#7 a 0#7 3, none, .plain [⟨a, 1, .src, .a⟩]⟩

/-- VRGAT (R93). -/
def execVrgat (sw : Bool) (d a : BitVec 7) (s : State) : Answer :=
  (fun (i0 : Ins) => runThread i0 (vrgatOp i0) s) ⟨packA sw 22 d a 0#7 4, none, .plain [⟨a, 1, .src, .a⟩, ⟨d, 1, .dst, .d⟩]⟩

/-- VRSCA (R93). -/
def execVrsca (sw : Bool) (a b : BitVec 7) (s : State) : Answer :=
  (fun (i0 : Ins) => runThread i0 (vrscaOp i0) s) ⟨packA sw 22 0#7 a b 5, none, .plain [⟨a, 1, .src, .a⟩, ⟨b, 1, .src, .b⟩]⟩

end Sys2Proof.Machine
end

