-- ==== Sys2Proof/Machine/Dispatch.lean ====
section
/-! DEFINITION. One arm per instruction: each calls its meaning. -/

namespace Sys2Proof.Machine

open Sys2Proof

/-- What each instruction does to the machine. -/
def exec (i : Instr) (s : State) : Host.Outcome State Fault Refusal :=
  match i with
  | .add sw d a b p => Sys2Proof.Machine.execAdd sw d a b p s
  | .sub sw d a b p => Sys2Proof.Machine.execSub sw d a b p s
  | .and sw d a b p => Sys2Proof.Machine.execAnd sw d a b p s
  | .or sw d a b p => Sys2Proof.Machine.execOr sw d a b p s
  | .xor sw d a b p => Sys2Proof.Machine.execXor sw d a b p s
  | .andn sw d a b p => Sys2Proof.Machine.execAndn sw d a b p s
  | .shl sw d a b p => Sys2Proof.Machine.execShl sw d a b p s
  | .shr sw d a b p => Sys2Proof.Machine.execShr sw d a b p s
  | .sar sw d a b p => Sys2Proof.Machine.execSar sw d a b p s
  | .rot sw d a b p => Sys2Proof.Machine.execRot sw d a b p s
  | .min sw d a b p => Sys2Proof.Machine.execMin sw d a b p s
  | .max sw d a b p => Sys2Proof.Machine.execMax sw d a b p s
  | .minn sw d a b p => Sys2Proof.Machine.execMinn sw d a b p s
  | .maxn sw d a b p => Sys2Proof.Machine.execMaxn sw d a b p s
  | .mul sw d a b p => Sys2Proof.Machine.execMul sw d a b p s
  | .mulh sw d a b p => Sys2Proof.Machine.execMulh sw d a b p s
  | .mulhn sw d a b p => Sys2Proof.Machine.execMulhn sw d a b p s
  | .div sw d a b p => Sys2Proof.Machine.execDiv sw d a b p s
  | .divn sw d a b p => Sys2Proof.Machine.execDivn sw d a b p s
  | .rem sw d a b p => Sys2Proof.Machine.execRem sw d a b p s
  | .remn sw d a b p => Sys2Proof.Machine.execRemn sw d a b p s
  | .clz sw d a p => Sys2Proof.Machine.execClz sw d a p s
  | .popc sw d a p => Sys2Proof.Machine.execPopc sw d a p s
  | .brev sw d a p => Sys2Proof.Machine.execBrev sw d a p s
  | .abs sw d a p => Sys2Proof.Machine.execAbs sw d a p s
  | .neg sw d a p => Sys2Proof.Machine.execNeg sw d a p s
  | .sel sw d a b p => Sys2Proof.Machine.execSel sw d a b p s
  | .mla sw d a b p => Sys2Proof.Machine.execMla sw d a b p s
  | .adds sw d a b p => Sys2Proof.Machine.execAdds sw d a b p s
  | .subs sw d a b p => Sys2Proof.Machine.execSubs sw d a b p s
  | .addsn sw d a b p => Sys2Proof.Machine.execAddsn sw d a b p s
  | .subsn sw d a b p => Sys2Proof.Machine.execSubsn sw d a b p s
  | .eq sw d a b p => Sys2Proof.Machine.execEq sw d a b p s
  | .ne sw d a b p => Sys2Proof.Machine.execNe sw d a b p s
  | .lt sw d a b p => Sys2Proof.Machine.execLt sw d a b p s
  | .le sw d a b p => Sys2Proof.Machine.execLe sw d a b p s
  | .ltn sw d a b p => Sys2Proof.Machine.execLtn sw d a b p s
  | .len sw d a b p => Sys2Proof.Machine.execLen sw d a b p s
  | .add64 sw d a b p => Sys2Proof.Machine.execAdd64 sw d a b p s
  | .sub64 sw d a b p => Sys2Proof.Machine.execSub64 sw d a b p s
  | .mul64 sw d a b p => Sys2Proof.Machine.execMul64 sw d a b p s
  | .shl64 sw d a b p => Sys2Proof.Machine.execShl64 sw d a b p s
  | .shr64 sw d a b p => Sys2Proof.Machine.execShr64 sw d a b p s
  | .sar64 sw d a b p => Sys2Proof.Machine.execSar64 sw d a b p s
  | .eq64 sw d a b p => Sys2Proof.Machine.execEq64 sw d a b p s
  | .lt64 sw d a b p => Sys2Proof.Machine.execLt64 sw d a b p s
  | .ltn64 sw d a b p => Sys2Proof.Machine.execLtn64 sw d a b p s
  | .mov64 sw d a p => Sys2Proof.Machine.execMov64 sw d a p s
  | .addx sw d a b p => Sys2Proof.Machine.execAddx sw d a b p s
  | .addxn sw d a b p => Sys2Proof.Machine.execAddxn sw d a b p s
  | .addi sw d a imm p => Sys2Proof.Machine.execAddi sw d a imm p s
  | .andi sw d a imm p => Sys2Proof.Machine.execAndi sw d a imm p s
  | .ori sw d a imm p => Sys2Proof.Machine.execOri sw d a imm p s
  | .xori sw d a imm p => Sys2Proof.Machine.execXori sw d a imm p s
  | .shli sw d a n p => Sys2Proof.Machine.execShli sw d a n p s
  | .shri sw d a n p => Sys2Proof.Machine.execShri sw d a n p s
  | .sari sw d a n p => Sys2Proof.Machine.execSari sw d a n p s
  | .roti sw d a n p => Sys2Proof.Machine.execRoti sw d a n p s
  | .slti sw d a imm p => Sys2Proof.Machine.execSlti sw d a imm p s
  | .sltni sw d a imm p => Sys2Proof.Machine.execSltni sw d a imm p s
  | .addxi sw d a imm p => Sys2Proof.Machine.execAddxi sw d a imm p s
  | .movh sw d n p => Sys2Proof.Machine.execMovh sw d n p s
  | .movl sw d n p => Sys2Proof.Machine.execMovl sw d n p s
  | .bz sw a o => Sys2Proof.Machine.execBz sw a o s
  | .bnz sw a o => Sys2Proof.Machine.execBnz sw a o s
  | .bltz sw a o => Sys2Proof.Machine.execBltz sw a o s
  | .bgez sw a o => Sys2Proof.Machine.execBgez sw a o s
  | .jmp sw o => Sys2Proof.Machine.execJmp sw o s
  | .call sw o => Sys2Proof.Machine.execCall sw o s
  | .jr sw a => Sys2Proof.Machine.execJr sw a s
  | .callr sw a => Sys2Proof.Machine.execCallr sw a s
  | .ret sw => Sys2Proof.Machine.execRet sw s
  | .exit sw => Sys2Proof.Machine.execExit sw s
  | .nop sw => Sys2Proof.Machine.execNop sw s
  | .yield sw => Sys2Proof.Machine.execYield sw s
  | .trap sw n => Sys2Proof.Machine.execTrap sw n s
  | .brk sw n => Sys2Proof.Machine.execBrk sw n s
  | .rett sw => Sys2Proof.Machine.execRett sw s
  | .brxZ sw a o => Sys2Proof.Machine.execBrxZ sw a o s
  | .brxNz sw a o => Sys2Proof.Machine.execBrxNz sw a o s
  | .brxLtz sw a o => Sys2Proof.Machine.execBrxLtz sw a o s
  | .brxGez sw a o => Sys2Proof.Machine.execBrxGez sw a o s
  | .cont sw d a => Sys2Proof.Machine.execCont sw d a s
  | .qput sw d a b => Sys2Proof.Machine.execQput sw d a b s
  | .watch sw d a => Sys2Proof.Machine.execWatch sw d a s
  | .unwatch sw d a b => Sys2Proof.Machine.execUnwatch sw d a b s
  | .wgrow sw d a => Sys2Proof.Machine.execWgrow sw d a s
  | .wshrink sw d a => Sys2Proof.Machine.execWshrink sw d a s
  | .wbase sw a => Sys2Proof.Machine.execWbase sw a s
  | .wiset sw a => Sys2Proof.Machine.execWiset sw a s
  | .vrgat sw d a => Sys2Proof.Machine.execVrgat sw d a s
  | .vrsca sw a b => Sys2Proof.Machine.execVrsca sw a b s
  | .poolReq sw d a => Sys2Proof.Machine.execPoolReq sw d a s
  | .poolRel sw d a => Sys2Proof.Machine.execPoolRel sw d a s
  | .poolMap sw d a => Sys2Proof.Machine.execPoolMap sw d a s
  | .poolOcc sw d a => Sys2Proof.Machine.execPoolOcc sw d a s
  | .tstate sw d a => Sys2Proof.Machine.execTstate sw d a s
  | .tmark sw d a => Sys2Proof.Machine.execTmark sw d a s
  | .faddS sw d a b p => Sys2Proof.Machine.execFaddS sw d a b p s
  | .fsubS sw d a b p => Sys2Proof.Machine.execFsubS sw d a b p s
  | .fmulS sw d a b p => Sys2Proof.Machine.execFmulS sw d a b p s
  | .fminS sw d a b p => Sys2Proof.Machine.execFminS sw d a b p s
  | .fmaxS sw d a b p => Sys2Proof.Machine.execFmaxS sw d a b p s
  | .fdivS sw d a b p => Sys2Proof.Machine.execFdivS sw d a b p s
  | .fsqrtS sw d a p => Sys2Proof.Machine.execFsqrtS sw d a p s
  | .frcpS sw d a p => Sys2Proof.Machine.execFrcpS sw d a p s
  | .fabsS sw d a p => Sys2Proof.Machine.execFabsS sw d a p s
  | .fnegS sw d a p => Sys2Proof.Machine.execFnegS sw d a p s
  | .feqS sw d a b p => Sys2Proof.Machine.execFeqS sw d a b p s
  | .fltS sw d a b p => Sys2Proof.Machine.execFltS sw d a b p s
  | .fleS sw d a b p => Sys2Proof.Machine.execFleS sw d a b p s
  | .funS sw d a b p => Sys2Proof.Machine.execFunS sw d a b p s
  | .fmaS sw d a b p => Sys2Proof.Machine.execFmaS sw d a b p s
  | .fnmaS sw d a b p => Sys2Proof.Machine.execFnmaS sw d a b p s
  | .faddD sw d a b p => Sys2Proof.Machine.execFaddD sw d a b p s
  | .fsubD sw d a b p => Sys2Proof.Machine.execFsubD sw d a b p s
  | .fmulD sw d a b p => Sys2Proof.Machine.execFmulD sw d a b p s
  | .fminD sw d a b p => Sys2Proof.Machine.execFminD sw d a b p s
  | .fmaxD sw d a b p => Sys2Proof.Machine.execFmaxD sw d a b p s
  | .fdivD sw d a b p => Sys2Proof.Machine.execFdivD sw d a b p s
  | .fsqrtD sw d a p => Sys2Proof.Machine.execFsqrtD sw d a p s
  | .frcpD sw d a p => Sys2Proof.Machine.execFrcpD sw d a p s
  | .fabsD sw d a p => Sys2Proof.Machine.execFabsD sw d a p s
  | .fnegD sw d a p => Sys2Proof.Machine.execFnegD sw d a p s
  | .feqD sw d a b p => Sys2Proof.Machine.execFeqD sw d a b p s
  | .fltD sw d a b p => Sys2Proof.Machine.execFltD sw d a b p s
  | .fleD sw d a b p => Sys2Proof.Machine.execFleD sw d a b p s
  | .funD sw d a b p => Sys2Proof.Machine.execFunD sw d a b p s
  | .fmaD sw d a b p => Sys2Proof.Machine.execFmaD sw d a b p s
  | .fnmaD sw d a b p => Sys2Proof.Machine.execFnmaD sw d a b p s
  | .faddH2 sw d a b p => Sys2Proof.Machine.execFaddH2 sw d a b p s
  | .fsubH2 sw d a b p => Sys2Proof.Machine.execFsubH2 sw d a b p s
  | .fmulH2 sw d a b p => Sys2Proof.Machine.execFmulH2 sw d a b p s
  | .fminH2 sw d a b p => Sys2Proof.Machine.execFminH2 sw d a b p s
  | .fmaxH2 sw d a b p => Sys2Proof.Machine.execFmaxH2 sw d a b p s
  | .fdivH2 sw d a b p => Sys2Proof.Machine.execFdivH2 sw d a b p s
  | .fsqrtH2 sw d a p => Sys2Proof.Machine.execFsqrtH2 sw d a p s
  | .frcpH2 sw d a p => Sys2Proof.Machine.execFrcpH2 sw d a p s
  | .fabsH2 sw d a p => Sys2Proof.Machine.execFabsH2 sw d a p s
  | .fnegH2 sw d a p => Sys2Proof.Machine.execFnegH2 sw d a p s
  | .feqH2 sw d a b p => Sys2Proof.Machine.execFeqH2 sw d a b p s
  | .fltH2 sw d a b p => Sys2Proof.Machine.execFltH2 sw d a b p s
  | .fleH2 sw d a b p => Sys2Proof.Machine.execFleH2 sw d a b p s
  | .funH2 sw d a b p => Sys2Proof.Machine.execFunH2 sw d a b p s
  | .fmaH2 sw d a b p => Sys2Proof.Machine.execFmaH2 sw d a b p s
  | .fnmaH2 sw d a b p => Sys2Proof.Machine.execFnmaH2 sw d a b p s
  | .faddB2 sw d a b p => Sys2Proof.Machine.execFaddB2 sw d a b p s
  | .fsubB2 sw d a b p => Sys2Proof.Machine.execFsubB2 sw d a b p s
  | .fmulB2 sw d a b p => Sys2Proof.Machine.execFmulB2 sw d a b p s
  | .fminB2 sw d a b p => Sys2Proof.Machine.execFminB2 sw d a b p s
  | .fmaxB2 sw d a b p => Sys2Proof.Machine.execFmaxB2 sw d a b p s
  | .fdivB2 sw d a b p => Sys2Proof.Machine.execFdivB2 sw d a b p s
  | .fsqrtB2 sw d a p => Sys2Proof.Machine.execFsqrtB2 sw d a p s
  | .frcpB2 sw d a p => Sys2Proof.Machine.execFrcpB2 sw d a p s
  | .fabsB2 sw d a p => Sys2Proof.Machine.execFabsB2 sw d a p s
  | .fnegB2 sw d a p => Sys2Proof.Machine.execFnegB2 sw d a p s
  | .feqB2 sw d a b p => Sys2Proof.Machine.execFeqB2 sw d a b p s
  | .fltB2 sw d a b p => Sys2Proof.Machine.execFltB2 sw d a b p s
  | .fleB2 sw d a b p => Sys2Proof.Machine.execFleB2 sw d a b p s
  | .funB2 sw d a b p => Sys2Proof.Machine.execFunB2 sw d a b p s
  | .fmaB2 sw d a b p => Sys2Proof.Machine.execFmaB2 sw d a b p s
  | .fnmaB2 sw d a b p => Sys2Proof.Machine.execFnmaB2 sw d a b p s
  | .fexp2 sw d a p => Sys2Proof.Machine.execFexp2 sw d a p s
  | .flog2 sw d a p => Sys2Proof.Machine.execFlog2 sw d a p s
  | .fsin sw d a p => Sys2Proof.Machine.execFsin sw d a p s
  | .fcos sw d a p => Sys2Proof.Machine.execFcos sw d a p s
  | .frsq sw d a p => Sys2Proof.Machine.execFrsq sw d a p s
  | .ftanh sw d a p => Sys2Proof.Machine.execFtanh sw d a p s
  | .cvt sw d a c p => Sys2Proof.Machine.execCvt sw d a c p s
  | .cvtp sw d a c p => Sys2Proof.Machine.execCvtp sw d a c p s
  | .cvtq sw d a c p => Sys2Proof.Machine.execCvtq sw d a c p s
  | .fclass sw d a k p => Sys2Proof.Machine.execFclass sw d a k p s
  | .fscl sw d a b p => Sys2Proof.Machine.execFscl sw d a b p s
  | .ldB sw t r imm p => Sys2Proof.Machine.execLdB sw t r imm p s
  | .ldBs sw t r imm p => Sys2Proof.Machine.execLdBs sw t r imm p s
  | .ldH sw t r imm p => Sys2Proof.Machine.execLdH sw t r imm p s
  | .ldHs sw t r imm p => Sys2Proof.Machine.execLdHs sw t r imm p s
  | .ldW sw t r imm p => Sys2Proof.Machine.execLdW sw t r imm p s
  | .ldD sw t r imm p => Sys2Proof.Machine.execLdD sw t r imm p s
  | .ldQ sw t r imm p => Sys2Proof.Machine.execLdQ sw t r imm p s
  | .ldO sw t r imm p => Sys2Proof.Machine.execLdO sw t r imm p s
  | .ldmcQ sw t r imm p => Sys2Proof.Machine.execLdmcQ sw t r imm p s
  | .stB sw t r imm p => Sys2Proof.Machine.execStB sw t r imm p s
  | .stH sw t r imm p => Sys2Proof.Machine.execStH sw t r imm p s
  | .stW sw t r imm p => Sys2Proof.Machine.execStW sw t r imm p s
  | .stD sw t r imm p => Sys2Proof.Machine.execStD sw t r imm p s
  | .stQ sw t r imm p => Sys2Proof.Machine.execStQ sw t r imm p s
  | .stO sw t r imm p => Sys2Proof.Machine.execStO sw t r imm p s
  | .ldsW sw t r imm p => Sys2Proof.Machine.execLdsW sw t r imm p s
  | .ldsD sw t r imm p => Sys2Proof.Machine.execLdsD sw t r imm p s
  | .ldsQ sw t r imm p => Sys2Proof.Machine.execLdsQ sw t r imm p s
  | .stsW sw t r imm p => Sys2Proof.Machine.execStsW sw t r imm p s
  | .stsD sw t r imm p => Sys2Proof.Machine.execStsD sw t r imm p s
  | .stsQ sw t r imm p => Sys2Proof.Machine.execStsQ sw t r imm p s
  | .amoAdd sw d a b p => Sys2Proof.Machine.execAmoAdd sw d a b p s
  | .amoAnd sw d a b p => Sys2Proof.Machine.execAmoAnd sw d a b p s
  | .amoOr sw d a b p => Sys2Proof.Machine.execAmoOr sw d a b p s
  | .amoXor sw d a b p => Sys2Proof.Machine.execAmoXor sw d a b p s
  | .amoMin sw d a b p => Sys2Proof.Machine.execAmoMin sw d a b p s
  | .amoMax sw d a b p => Sys2Proof.Machine.execAmoMax sw d a b p s
  | .amoMinn sw d a b p => Sys2Proof.Machine.execAmoMinn sw d a b p s
  | .amoMaxn sw d a b p => Sys2Proof.Machine.execAmoMaxn sw d a b p s
  | .amoSwap sw d a b p => Sys2Proof.Machine.execAmoSwap sw d a b p s
  | .amoCas sw d a b p => Sys2Proof.Machine.execAmoCas sw d a b p s
  | .amoFadd sw d a b p => Sys2Proof.Machine.execAmoFadd sw d a b p s
  | .amoAddb2 sw d a b p => Sys2Proof.Machine.execAmoAddb2 sw d a b p s
  | .amoAddh2 sw d a b p => Sys2Proof.Machine.execAmoAddh2 sw d a b p s
  | .amoAdd64 sw d a b p => Sys2Proof.Machine.execAmoAdd64 sw d a b p s
  | .amoCas64 sw d a b p => Sys2Proof.Machine.execAmoCas64 sw d a b p s
  | .amoInc sw d a b p => Sys2Proof.Machine.execAmoInc sw d a b p s
  | .samoAdd sw d a b p => Sys2Proof.Machine.execSamoAdd sw d a b p s
  | .samoAnd sw d a b p => Sys2Proof.Machine.execSamoAnd sw d a b p s
  | .samoOr sw d a b p => Sys2Proof.Machine.execSamoOr sw d a b p s
  | .samoXor sw d a b p => Sys2Proof.Machine.execSamoXor sw d a b p s
  | .samoMin sw d a b p => Sys2Proof.Machine.execSamoMin sw d a b p s
  | .samoMax sw d a b p => Sys2Proof.Machine.execSamoMax sw d a b p s
  | .samoMinn sw d a b p => Sys2Proof.Machine.execSamoMinn sw d a b p s
  | .samoMaxn sw d a b p => Sys2Proof.Machine.execSamoMaxn sw d a b p s
  | .samoSwap sw d a b p => Sys2Proof.Machine.execSamoSwap sw d a b p s
  | .samoCas sw d a b p => Sys2Proof.Machine.execSamoCas sw d a b p s
  | .samoFadd sw d a b p => Sys2Proof.Machine.execSamoFadd sw d a b p s
  | .samoAddb2 sw d a b p => Sys2Proof.Machine.execSamoAddb2 sw d a b p s
  | .samoAddh2 sw d a b p => Sys2Proof.Machine.execSamoAddh2 sw d a b p s
  | .samoAdd64 sw d a b p => Sys2Proof.Machine.execSamoAdd64 sw d a b p s
  | .samoCas64 sw d a b p => Sys2Proof.Machine.execSamoCas64 sw d a b p s
  | .samoInc sw d a b p => Sys2Proof.Machine.execSamoInc sw d a b p s
  | .fence sw c m => Sys2Proof.Machine.execFence sw c m s
  | .fenceAcq sw c m => Sys2Proof.Machine.execFenceAcq sw c m s
  | .fenceRel sw c m => Sys2Proof.Machine.execFenceRel sw c m s
  | .wct sw d => Sys2Proof.Machine.execWct sw d s
  | .flush sw a b => Sys2Proof.Machine.execFlush sw a b s
  | .icinv sw a b => Sys2Proof.Machine.execIcinv sw a b s
  | .fwait sw d a b => Sys2Proof.Machine.execFwait sw d a b s
  | .pref sw a => Sys2Proof.Machine.execPref sw a s
  | .wvoteAny sw d a b => Sys2Proof.Machine.execWvoteAny sw d a b s
  | .wvoteAll sw d a b => Sys2Proof.Machine.execWvoteAll sw d a b s
  | .wballot sw d a b => Sys2Proof.Machine.execWballot sw d a b s
  | .wredAdd sw d a b => Sys2Proof.Machine.execWredAdd sw d a b s
  | .wredFadd sw d a b => Sys2Proof.Machine.execWredFadd sw d a b s
  | .wredMin sw d a b => Sys2Proof.Machine.execWredMin sw d a b s
  | .wredMax sw d a b => Sys2Proof.Machine.execWredMax sw d a b s
  | .wscanAdd sw d a b => Sys2Proof.Machine.execWscanAdd sw d a b s
  | .wscanFadd sw d a b => Sys2Proof.Machine.execWscanFadd sw d a b s
  | .wsegscanAdd sw d a b => Sys2Proof.Machine.execWsegscanAdd sw d a b s
  | .wsegscanFadd sw d a b => Sys2Proof.Machine.execWsegscanFadd sw d a b s
  | .wisect sw d a b => Sys2Proof.Machine.execWisect sw d a b s
  | .wnz sw d a b => Sys2Proof.Machine.execWnz sw d a b s
  | .wmm sw d a b p => Sys2Proof.Machine.execWmm sw d a b p s
  | .wsync sw b => Sys2Proof.Machine.execWsync sw b s
  | .wperm sw d a b => Sys2Proof.Machine.execWperm sw d a b s
  | .nbInit sw a n => Sys2Proof.Machine.execNbInit sw a n s
  | .nbArrive sw d n => Sys2Proof.Machine.execNbArrive sw d n s
  | .nbWait sw d a n => Sys2Proof.Machine.execNbWait sw d a n s
  | .nbMeet sw d n => Sys2Proof.Machine.execNbMeet sw d n s
  | .nbTest sw d a n => Sys2Proof.Machine.execNbTest sw d a n s
  | .nbStat sw d e n => Sys2Proof.Machine.execNbStat sw d e n s
  | .xredAdd sw k a b => Sys2Proof.Machine.execXredAdd sw k a b s
  | .xredFadd sw k a b => Sys2Proof.Machine.execXredFadd sw k a b s
  | .xredMax sw k a b => Sys2Proof.Machine.execXredMax sw k a b s
  | .xredOr sw k a b => Sys2Proof.Machine.execXredOr sw k a b s
  | .cpy sw d a p => Sys2Proof.Machine.execCpy sw d a p s
  | .mcpy sw d a b p => Sys2Proof.Machine.execMcpy sw d a b p s
  | .fget sw d a b p => Sys2Proof.Machine.execFget sw d a b p s
  | .fgetb sw d a b p => Sys2Proof.Machine.execFgetb sw d a b p s
  | .tld sw d a p => Sys2Proof.Machine.execTld sw d a p s
  | .tst sw d a p => Sys2Proof.Machine.execTst sw d a p s
  | .tstc sw d a b p => Sys2Proof.Machine.execTstc sw d a b p s
  | .tzero sw d p => Sys2Proof.Machine.execTzero sw d p s
  | .tmov sw d a p => Sys2Proof.Machine.execTmov sw d a p s
  | .tfree sw d p => Sys2Proof.Machine.execTfree sw d p s
  | .tcvt sw d a p => Sys2Proof.Machine.execTcvt sw d a p s
  | .tlay sw n a p => Sys2Proof.Machine.execTlay sw n a p s
  | .mma sw d a b p => Sys2Proof.Machine.execMma sw d a b p s
  | .mman sw d a b p => Sys2Proof.Machine.execMman sw d a b p s
  | .mms sw d a b p => Sys2Proof.Machine.execMms sw d a b p s
  | .tlu sw d p => Sys2Proof.Machine.execTlu sw d p s
  | .tchol sw d p => Sys2Proof.Machine.execTchol sw d p s
  | .tqr sw d p => Sys2Proof.Machine.execTqr sw d p s
  | .ttrsl sw d a p => Sys2Proof.Machine.execTtrsl sw d a p s
  | .ttrsu sw d a p => Sys2Proof.Machine.execTtrsu sw d a p s
  | .ttrsn sw d a p => Sys2Proof.Machine.execTtrsn sw d a p s
  | .tperm sw d a p => Sys2Proof.Machine.execTperm sw d a p s
  | .tqapp sw d a p => Sys2Proof.Machine.execTqapp sw d a p s
  | .tqappt sw d a p => Sys2Proof.Machine.execTqappt sw d a p s
  | .svmv sw d a b p => Sys2Proof.Machine.execSvmv sw d a b p s
  | .svmm sw d a b p => Sys2Proof.Machine.execSvmm sw d a b p s
  | .sbarInit sw a n => Sys2Proof.Machine.execSbarInit sw a n s
  | .sbarArrive sw d n => Sys2Proof.Machine.execSbarArrive sw d n s
  | .sbarWait sw d a n => Sys2Proof.Machine.execSbarWait sw d a n s
  | .xrd sw d k e => Sys2Proof.Machine.execXrd sw d k e s
  | .sfence sw c m => Sys2Proof.Machine.execSfence sw c m s
  | .send sw => Sys2Proof.Machine.execSend sw s
  | .sstat sw d e => Sys2Proof.Machine.execSstat sw d e s
  | .setfmt sw a => Sys2Proof.Machine.execSetfmt sw a s
  | .csrr sw d n => Sys2Proof.Machine.execCsrr sw d n s
  | .csrw sw n a => Sys2Proof.Machine.execCsrw sw n a s
  | .pfxWord p w => Sys2Proof.Machine.execPfxWord p w s
  | .kwaitEq b a d => Sys2Proof.Machine.execKwaitEq b a d s
  | .kwaitNe b a d => Sys2Proof.Machine.execKwaitNe b a d s
  | .kwaitGeu b a d => Sys2Proof.Machine.execKwaitGeu b a d s
  | .kwaitReread h => Sys2Proof.Machine.execKwaitReread h s
  | .registerResultWrite who tag => Sys2Proof.Machine.execRegisterResultWrite who tag s
  | .yieldExpiry who => Sys2Proof.Machine.execYieldExpiry who s
  | .readyAgeMark who => Sys2Proof.Machine.execReadyAgeMark who s
  | .trapEntry who => Sys2Proof.Machine.execTrapEntry who s
  | .formerWarpRelease => Sys2Proof.Machine.execFormerWarpRelease s
  | .formerPartialTimeout => Sys2Proof.Machine.execFormerPartialTimeout s
  | .blockStart => Sys2Proof.Machine.execBlockStart s
  | .queuePull lvl => Sys2Proof.Machine.execQueuePull lvl s
  | .queueMoveComplete => Sys2Proof.Machine.execQueueMoveComplete s
  | .wqRingRefill q c => Sys2Proof.Machine.execWqRingRefill q c s
  | .treeComplete t => Sys2Proof.Machine.execTreeComplete t s
  | .launch q => Sys2Proof.Machine.execLaunch q s
  | .wait q => Sys2Proof.Machine.execWait q s
  | .signal q => Sys2Proof.Machine.execSignal q s
  | .join q => Sys2Proof.Machine.execJoin q s
  | .cond q => Sys2Proof.Machine.execCond q s
  | .patch q => Sys2Proof.Machine.execPatch q s
  | .doorbell q v => Sys2Proof.Machine.execDoorbell q v s
  | .kick g v => Sys2Proof.Machine.execKick g v s
  | .mapQueue => Sys2Proof.Machine.execMapQueue s
  | .unmapCtx => Sys2Proof.Machine.execUnmapCtx s
  | .clearError => Sys2Proof.Machine.execClearError s
  | .preempt => Sys2Proof.Machine.execPreempt s
  | .resume => Sys2Proof.Machine.execResume s
  | .regGraph => Sys2Proof.Machine.execRegGraph s
  | .inval => Sys2Proof.Machine.execInval s
  | .copy => Sys2Proof.Machine.execCopy s
  | .checkpoint => Sys2Proof.Machine.execCheckpoint s
  | .restore => Sys2Proof.Machine.execRestore s
  | .badcmd => Sys2Proof.Machine.execBadcmd s
  | .irqmask hi v => Sys2Proof.Machine.execIrqmask hi v s
  | .pwrcap v => Sys2Proof.Machine.execPwrcap v s
  | .registerWrite off v => Sys2Proof.Machine.execRegisterWrite off v s
  | .hostApertureRead pa n => Sys2Proof.Machine.execHostApertureRead pa n s
  | .hostApertureWrite pa bs => Sys2Proof.Machine.execHostApertureWrite pa bs s
  | .attest req => Sys2Proof.Machine.execAttest req s
  | .cert req => Sys2Proof.Machine.execCert req s
  | .timeSet req => Sys2Proof.Machine.execTimeSet req s
  | .domainSet req => Sys2Proof.Machine.execDomainSet req s
  | .grantRange req => Sys2Proof.Machine.execGrantRange req s
  | .revokeRange req => Sys2Proof.Machine.execRevokeRange req s
  | .setExportWindow req => Sys2Proof.Machine.execSetExportWindow req s
  | .unfreezeResume req => Sys2Proof.Machine.execUnfreezeResume req s
  | .unfreezeReset req => Sys2Proof.Machine.execUnfreezeReset req s
  | .fwLoad req => Sys2Proof.Machine.execFwLoad req s
  | .mailboxBadop req => Sys2Proof.Machine.execMailboxBadop req s
  | .fwVerify => Sys2Proof.Machine.execFwVerify s
  | .moduleReset => Sys2Proof.Machine.execModuleReset s
  | .trainComplete t => Sys2Proof.Machine.execTrainComplete t s
  | .thermalPreempt temp => Sys2Proof.Machine.execThermalPreempt temp s
  | .thermalPowerOff temp => Sys2Proof.Machine.execThermalPowerOff temp s
  | .powerCapAdjust watts => Sys2Proof.Machine.execPowerCapAdjust watts s
  | .timeMessage t => Sys2Proof.Machine.execTimeMessage t s
  | .timeSyncLoss => Sys2Proof.Machine.execTimeSyncLoss s
  | .heartbeat m => Sys2Proof.Machine.execHeartbeat m s
  | .heartbeatTimeout m => Sys2Proof.Machine.execHeartbeatTimeout m s
  | .flitCrcFail port second id => Sys2Proof.Machine.execFlitCrcFail port second id s
  | .unreachableCompletion id => Sys2Proof.Machine.execUnreachableCompletion id s
  | .remoteRequest rq => Sys2Proof.Machine.execRemoteRequest rq s
  | .writeCommit id => Sys2Proof.Machine.execWriteCommit id s
  | .fwaitRetry who => Sys2Proof.Machine.execFwaitRetry who s
  | .writeAck id => Sys2Proof.Machine.execWriteAck id s
  | .fillRequest id => Sys2Proof.Machine.execFillRequest id s
  | .fillReply id => Sys2Proof.Machine.execFillReply id s
  | .atomicAtHome id => Sys2Proof.Machine.execAtomicAtHome id s
  | .mcastRequest id => Sys2Proof.Machine.execMcastRequest id s
  | .mcastWindowClose w => Sys2Proof.Machine.execMcastWindowClose w s
  | .mcastSlotFree w => Sys2Proof.Machine.execMcastSlotFree w s
  | .releasePoint who => Sys2Proof.Machine.execReleasePoint who s
  | .icinvComplete who => Sys2Proof.Machine.execIcinvComplete who s
  | .flushComplete who => Sys2Proof.Machine.execFlushComplete who s
  | .csrwInForce who => Sys2Proof.Machine.execCsrwInForce who s
  | .watchComplete who => Sys2Proof.Machine.execWatchComplete who s
  | .unwatchComplete who => Sys2Proof.Machine.execUnwatchComplete who s
  | .triggerRefill q c => Sys2Proof.Machine.execTriggerRefill q c s
  | .trigOverflow q c => Sys2Proof.Machine.execTrigOverflow q c s
  | .triggerDispatch q => Sys2Proof.Machine.execTriggerDispatch q s
  | .cWritebackDone => Sys2Proof.Machine.execCWritebackDone s
  | .relocationComplete => Sys2Proof.Machine.execRelocationComplete s
  | .wgrowGrant => Sys2Proof.Machine.execWgrowGrant s
  | .wshrinkComplete who => Sys2Proof.Machine.execWshrinkComplete who s
  | .poolRelComplete who => Sys2Proof.Machine.execPoolRelComplete who s
  | .passGrant => Sys2Proof.Machine.execPassGrant s
  | .passEnd => Sys2Proof.Machine.execPassEnd s
  | .engineRelease n => Sys2Proof.Machine.execEngineRelease n s
  | .tileFetch n => Sys2Proof.Machine.execTileFetch n s
  | .copyOpStart => Sys2Proof.Machine.execCopyOpStart s
  | .copyOpComplete id => Sys2Proof.Machine.execCopyOpComplete id s
  | .fgetDecode who => Sys2Proof.Machine.execFgetDecode who s
  | .fgetbComplete id => Sys2Proof.Machine.execFgetbComplete id s
  | .faultRecordWrite imm => Sys2Proof.Machine.execFaultRecordWrite imm s
  | .faultResponse imm => Sys2Proof.Machine.execFaultResponse imm s
  | .faultQueueReread c => Sys2Proof.Machine.execFaultQueueReread c s
  | .eccRetry site how => Sys2Proof.Machine.execEccRetry site how s
  | .walkerGrant => Sys2Proof.Machine.execWalkerGrant s
  | .walkComplete imm => Sys2Proof.Machine.execWalkComplete imm s
  | .planeSwap => Sys2Proof.Machine.execPlaneSwap s
  | .swapEnd => Sys2Proof.Machine.execSwapEnd s
  | .saveComplete => Sys2Proof.Machine.execSaveComplete s
  | .restoreStart c => Sys2Proof.Machine.execRestoreStart c s
  | .restoreComplete => Sys2Proof.Machine.execRestoreComplete s
  | .engineImageRestore => Sys2Proof.Machine.execEngineImageRestore s
  | .checkpointQuiesce => Sys2Proof.Machine.execCheckpointQuiesce s
  | .quiesced m => Sys2Proof.Machine.execQuiesced m s
  | .checkpointAbandon => Sys2Proof.Machine.execCheckpointAbandon s
  | .checkpointClose => Sys2Proof.Machine.execCheckpointClose s
  | .restoreReadbackDone => Sys2Proof.Machine.execRestoreReadbackDone s
  | .instructionFetchFill who => Sys2Proof.Machine.execInstructionFetchFill who s
  | .reservedMajor w => Sys2Proof.Machine.execReservedMajor w s
  | .irqstatClear hi v => Sys2Proof.Machine.execIrqstatClear hi v s
  | .ctxerrClear v => Sys2Proof.Machine.execCtxerrClear v s
  | .bringUpStart => Sys2Proof.Machine.execBringUpStart s
  | .pldmRequest sel => Sys2Proof.Machine.execPldmRequest sel s

end Sys2Proof.Machine
end

