-- ==== Sys2Proof/Machine/Riscv.lean ====
section
/-! DEFINITION. The harts of the command processor (R169): RV64IMAC of the RISC-V unprivileged specification with the control and
status registers, exceptions and `mret` of machine mode. PRESUMED (log entry 57): R169 names these specifications and this text takes
the instructions from them. A compressed word stands for a word of 32 bits. -/

namespace Sys2Proof.Machine

open Sys2Proof

/-! ## Fields and immediates -/

def rvRd (w : Word) : BitVec 5 := w.extractLsb' 7 5
def rvRs1 (w : Word) : BitVec 5 := w.extractLsb' 15 5
def rvRs2 (w : Word) : BitVec 5 := w.extractLsb' 20 5
def rvF3 (w : Word) : Nat := (w.extractLsb' 12 3).toNat
def rvF7 (w : Word) : Nat := (w.extractLsb' 25 7).toNat

def rvImmI (w : Word) : DWord := (w.extractLsb' 20 12).signExtend 64
def rvImmS (w : Word) : DWord := (w.extractLsb' 25 7 ++ w.extractLsb' 7 5 : BitVec 12).signExtend 64
def rvImmB (w : Word) : DWord :=
  (w.extractLsb' 31 1 ++ w.extractLsb' 7 1 ++ w.extractLsb' 25 6 ++ w.extractLsb' 8 4 ++ (0 : BitVec 1) : BitVec 13).signExtend 64
def rvImmU (w : Word) : DWord := (w.extractLsb' 12 20 ++ (0 : BitVec 12) : BitVec 32).signExtend 64
def rvImmJ (w : Word) : DWord :=
  (w.extractLsb' 31 1 ++ w.extractLsb' 12 8 ++ w.extractLsb' 20 1 ++ w.extractLsb' 21 10 ++ (0 : BitVec 1) : BitVec 21).signExtend 64

/-- Words of the five immediate forms and of the register form, as a compressed word's expansion needs them. -/
def rvR (f7 : BitVec 7) (b a : BitVec 5) (f3 : BitVec 3) (d : BitVec 5) (op : BitVec 7) : Word := f7 ++ b ++ a ++ f3 ++ d ++ op
def rvI (imm : BitVec 12) (a : BitVec 5) (f3 : BitVec 3) (d : BitVec 5) (op : BitVec 7) : Word := imm ++ a ++ f3 ++ d ++ op
def rvS (imm : BitVec 12) (b a : BitVec 5) (f3 : BitVec 3) (op : BitVec 7) : Word := imm.extractLsb' 5 7 ++ b ++ a ++ f3 ++ imm.extractLsb' 0 5 ++ op
def rvB (imm : BitVec 13) (a : BitVec 5) (f3 : BitVec 3) : Word :=
  imm.extractLsb' 12 1 ++ imm.extractLsb' 5 6 ++ (0 : BitVec 5) ++ a ++ f3 ++ imm.extractLsb' 1 4 ++ imm.extractLsb' 11 1 ++ (0x63 : BitVec 7)
def rvJ (imm : BitVec 21) (d : BitVec 5) : Word :=
  imm.extractLsb' 20 1 ++ imm.extractLsb' 1 10 ++ imm.extractLsb' 11 1 ++ imm.extractLsb' 12 8 ++ d ++ (0x6F : BitVec 7)

/-! ## Compressed words -/

/-- The register that a three-bit field names. -/
def rvShort (x : BitVec 3) : BitVec 5 := (1 : BitVec 2) ++ x

/-- Quadrant 0: stack addresses, loads and stores. -/
def expandC0 (c : BitVec 16) : Option Word :=
  let d := rvShort (c.extractLsb' 2 3)
  let a := rvShort (c.extractLsb' 7 3)
  let w4 : BitVec 12 := ((c.extractLsb' 5 1 ++ c.extractLsb' 10 3 ++ c.extractLsb' 6 1 ++ (0 : BitVec 2) : BitVec 7)).zeroExtend 12
  let w8 : BitVec 12 := ((c.extractLsb' 5 2 ++ c.extractLsb' 10 3 ++ (0 : BitVec 3) : BitVec 8)).zeroExtend 12
  let wide : BitVec 12 := ((c.extractLsb' 7 4 ++ c.extractLsb' 11 2 ++ c.extractLsb' 5 1 ++ c.extractLsb' 6 1 ++ (0 : BitVec 2) : BitVec 10)).zeroExtend 12
  match (c.extractLsb' 13 3).toNat with
  | 0 => if wide = 0 then none else some (rvI wide 2 0 d 0x13)
  | 2 => some (rvI w4 a 2 d 0x03)
  | 3 => some (rvI w8 a 3 d 0x03)
  | 6 => some (rvS w4 d a 2 0x23)
  | 7 => some (rvS w8 d a 3 0x23)
  | _ => none

/-- The register and shift group of quadrant 1. -/
def expandAlu (c : BitVec 16) : Option Word :=
  let d := rvShort (c.extractLsb' 7 3)
  let b := rvShort (c.extractLsb' 2 3)
  let sh : BitVec 6 := c.extractLsb' 12 1 ++ c.extractLsb' 2 5
  match (c.extractLsb' 10 2).toNat with
  | 0 => some (rvI ((0 : BitVec 6) ++ sh) d 5 d 0x13)
  | 1 => some (rvI ((0x10 : BitVec 6) ++ sh) d 5 d 0x13)
  | 2 => some (rvI (sh.signExtend 12) d 7 d 0x13)
  | _ => match (c.extractLsb' 12 1 ++ c.extractLsb' 5 2 : BitVec 3).toNat with
    | 0 => some (rvR 0x20 b d 0 d 0x33)
    | 1 => some (rvR 0 b d 4 d 0x33)
    | 2 => some (rvR 0 b d 6 d 0x33)
    | 3 => some (rvR 0 b d 7 d 0x33)
    | 4 => some (rvR 0x20 b d 0 d 0x3B)
    | 5 => some (rvR 0 b d 0 d 0x3B)
    | _ => none

/-- Quadrant 1: immediates, jumps, branches. -/
def expandC1 (c : BitVec 16) : Option Word :=
  let d : BitVec 5 := c.extractLsb' 7 5
  let imm : BitVec 6 := c.extractLsb' 12 1 ++ c.extractLsb' 2 5
  let sp : BitVec 10 := c.extractLsb' 12 1 ++ c.extractLsb' 3 2 ++ c.extractLsb' 5 1 ++ c.extractLsb' 2 1 ++ c.extractLsb' 6 1 ++ (0 : BitVec 4)
  let j : BitVec 12 := c.extractLsb' 12 1 ++ c.extractLsb' 8 1 ++ c.extractLsb' 9 2 ++ c.extractLsb' 6 1 ++ c.extractLsb' 7 1
    ++ c.extractLsb' 2 1 ++ c.extractLsb' 11 1 ++ c.extractLsb' 3 3 ++ (0 : BitVec 1)
  let b : BitVec 9 := c.extractLsb' 12 1 ++ c.extractLsb' 5 2 ++ c.extractLsb' 2 1 ++ c.extractLsb' 10 2 ++ c.extractLsb' 3 2 ++ (0 : BitVec 1)
  let a := rvShort (c.extractLsb' 7 3)
  match (c.extractLsb' 13 3).toNat with
  | 0 => some (rvI (imm.signExtend 12) d 0 d 0x13)
  | 1 => if d = 0 then none else some (rvI (imm.signExtend 12) d 0 d 0x1B)
  | 2 => some (rvI (imm.signExtend 12) 0 0 d 0x13)
  | 3 =>
    if d = 2 then (if sp = 0 then none else some (rvI (sp.signExtend 12) 2 0 2 0x13))
    else if imm = 0 then none else some ((imm.signExtend 20) ++ d ++ (0x37 : BitVec 7))
  | 4 => expandAlu c
  | 5 => some (rvJ (j.signExtend 21) 0)
  | 6 => some (rvB (b.signExtend 13) a 0)
  | _ => some (rvB (b.signExtend 13) a 1)

/-- Quadrant 2: shifts, stack loads and stores, moves and indirect jumps. -/
def expandC2 (c : BitVec 16) : Option Word :=
  let d : BitVec 5 := c.extractLsb' 7 5
  let b : BitVec 5 := c.extractLsb' 2 5
  let sh : BitVec 6 := c.extractLsb' 12 1 ++ c.extractLsb' 2 5
  let lw : BitVec 12 := ((c.extractLsb' 2 2 ++ c.extractLsb' 12 1 ++ c.extractLsb' 4 3 ++ (0 : BitVec 2) : BitVec 8)).zeroExtend 12
  let ld : BitVec 12 := ((c.extractLsb' 2 3 ++ c.extractLsb' 12 1 ++ c.extractLsb' 5 2 ++ (0 : BitVec 3) : BitVec 9)).zeroExtend 12
  let sw : BitVec 12 := ((c.extractLsb' 7 2 ++ c.extractLsb' 9 4 ++ (0 : BitVec 2) : BitVec 8)).zeroExtend 12
  let sd : BitVec 12 := ((c.extractLsb' 7 3 ++ c.extractLsb' 10 3 ++ (0 : BitVec 3) : BitVec 9)).zeroExtend 12
  match (c.extractLsb' 13 3).toNat with
  | 0 => some (rvI ((0 : BitVec 6) ++ sh) d 1 d 0x13)
  | 2 => if d = 0 then none else some (rvI lw 2 2 d 0x03)
  | 3 => if d = 0 then none else some (rvI ld 2 3 d 0x03)
  | 4 =>
    if c.getLsbD 12 then
      if b = 0 then (if d = 0 then some 0x00100073 else some (rvI 0 d 0 1 0x67)) else some (rvR 0 b d 0 d 0x33)
    else if b = 0 then (if d = 0 then none else some (rvI 0 d 0 0 0x67)) else some (rvR 0 b 0 0 d 0x33)
  | 6 => some (rvS sw b 2 2 0x23)
  | 7 => some (rvS sd b 2 3 0x23)
  | _ => none

/-- The word that a compressed word stands for. -/
def expandC (c : BitVec 16) : Option Word :=
  match (c.extractLsb' 0 2).toNat with
  | 0 => expandC0 c
  | 1 => expandC1 c
  | 2 => expandC2 c
  | _ => none

/-! ## Integer results -/

def sextW (v : Word) : DWord := v.signExtend 64

/-- The base operations by funct3; `alt` is bit 30. -/
def rvAlu {n : Nat} (f3 : Nat) (alt : Bool) (a b : BitVec n) (sh : Nat) : BitVec n :=
  match f3 with
  | 0 => if alt then a - b else a + b
  | 1 => a <<< sh
  | 2 => if a.slt b then 1 else 0
  | 3 => if a.ult b then 1 else 0
  | 4 => a ^^^ b
  | 5 => if alt then a.sshiftRight sh else a >>> sh
  | 6 => a ||| b
  | _ => a &&& b

/-- The M operations by funct3: a division by zero and the quotient that does not fit give what the unprivileged specification says. -/
def rvMul {n : Nat} (f3 : Nat) (a b : BitVec n) : BitVec n :=
  match f3 with
  | 0 => a * b
  | 1 => BitVec.ofInt n (a.toInt * b.toInt / 2 ^ n)
  | 2 => BitVec.ofInt n (a.toInt * (b.toNat : Int) / 2 ^ n)
  | 3 => BitVec.ofNat n (a.toNat * b.toNat / 2 ^ n)
  | 4 => if b = 0 then BitVec.allOnes n else BitVec.ofInt n (a.toInt.tdiv b.toInt)
  | 5 => if b = 0 then BitVec.allOnes n else BitVec.ofNat n (a.toNat / b.toNat)
  | 6 => if b = 0 then a else BitVec.ofInt n (a.toInt.tmod b.toInt)
  | _ => if b = 0 then a else BitVec.ofNat n (a.toNat % b.toNat)

/-- The relation of a branch; none where funct3 names none. -/
def rvTakes (f3 : Nat) (a b : DWord) : Option Bool :=
  match f3 with
  | 0 => some (a == b)
  | 1 => some (a != b)
  | 4 => some (a.slt b)
  | 5 => some (!a.slt b)
  | 6 => some (a.ult b)
  | 7 => some (!a.ult b)
  | _ => none

/-- What an A operation writes, from the value in memory and the register; none where funct5 names none. -/
def rvAmo {n : Nat} (f5 : Nat) (old b : BitVec n) : Option (BitVec n) :=
  match f5 with
  | 0 => some (old + b)
  | 1 => some b
  | 4 => some (old ^^^ b)
  | 8 => some (old ||| b)
  | 12 => some (old &&& b)
  | 16 => some (if old.slt b then old else b)
  | 20 => some (if old.slt b then b else old)
  | 24 => some (if old.ult b then old else b)
  | 28 => some (if old.ult b then b else old)
  | _ => none

/-! ## Machine-mode registers -/

/-- A control and status register of a hart; none where the hart has no such register. Machine mode alone: MPP reads 3; no interrupt
is pending; the identity, event and counter registers that an implementation may hold at 0 are 0. -/
def csrRead (s : State) (n : Nat) : Option DWord :=
  let h := s.hart
  match n with
  | 0x300 => some (0x1800 ||| (if h.mie then 8 else 0) ||| (if h.mpie then 0x80 else 0))
  | 0x301 => some 0x8000000000001105
  | 0x304 => some h.mieReg
  | 0x305 => some h.mtvec
  | 0x340 => some h.mscratch
  | 0x341 => some h.mepc
  | 0x342 => some h.mcause
  | 0x343 => some h.mtval
  | 0x344 => some 0
  | 0xB00 => some (BitVec.ofNat 64 s.clock.cycle + h.mcycleOff)
  | 0xB02 => some h.minstret
  | 0xF14 => some (BitVec.ofNat 64 h.n)
  | _ => if n = 0x320 ∨ (0x323 ≤ n ∧ n ≤ 0x33F) ∨ (0xB03 ≤ n ∧ n ≤ 0xB1F) ∨ (0xF11 ≤ n ∧ n ≤ 0xF15) then some 0 else none

/-- A write of one; a register at a fixed value keeps it. -/
def csrWriteM (n : Nat) (v : DWord) (s : State) : State :=
  let h := s.hart
  let h' : Hart := match n with
    | 0x300 => { h with mie := v.getLsbD 3, mpie := v.getLsbD 7 }
    | 0x304 => { h with mieReg := v &&& 0x888 }
    | 0x305 => { h with mtvec := v &&& ~~~2 }
    | 0x340 => { h with mscratch := v }
    | 0x341 => { h with mepc := v &&& ~~~1 }
    | 0x342 => { h with mcause := v }
    | 0x343 => { h with mtval := v }
    | 0xB00 => { h with mcycleOff := v - BitVec.ofNat 64 s.clock.cycle }
    | 0xB02 => { h with minstret := v - 1 }
    | _ => h
  { s with hart := h' }

/-! ## Execution -/

/-- The instruction is retired: the pc goes on at an address. -/
def rvGoto (pc : Nat) (s : State) : State := { s with hart := { s.hart with pc := pc % 2 ^ 64 / 2 * 2, minstret := s.hart.minstret + 1 } }

/-- It writes rd and goes on after its `len` bytes. -/
def rvPut (len : Nat) (d : BitVec 5) (v : DWord) (s : State) : State := rvGoto (s.hart.pc + len) { s with hart := hartSet s.hart d.toNat v }

/-- A store of a hart commits at its home at depth 0. -/
def rvStore (addr : Nat) (bs : List Byte) (s : State) : State :=
  let (s, t) := commitQuiet 0 (atAddr addr bs) 0 .module s
  { s with hart := { s.hart with pct := max s.hart.pct t } }

/-- The release of `fence`, `.rl` and `fence.i`: the instruction waits until the time base has reached the hart's PCT. -/
def rvAfter (k : State → State) (s : State) : State := if s.clock.tbase < s.hart.pct then s else k s

/-- Loads by funct3. -/
def rvLoad (len : Nat) (w : Word) (s : State) : State :=
  let f3 := rvF3 w
  let n := 2 ^ (f3 % 4)
  hartRead 4 (hartGet s.hart (rvRs1 w) + rvImmI w).toNat n (fun v s =>
    rvPut len (rvRd w) (match f3 with
      | 0 => (v.truncate 8).signExtend 64
      | 1 => (v.truncate 16).signExtend 64
      | 2 => (v.truncate 32).signExtend 64
      | _ => v) s) s

/-- `lr`, `sc` and the A operations on `n` bytes; `get` takes the value of memory to a register. -/
def rvAtomic (len : Nat) (w : Word) (s : State) : State :=
  let n := if rvF3 w = 2 then 4 else 8
  let addr := (hartGet s.hart (rvRs1 w)).toNat
  let b := hartGet s.hart (rvRs2 w)
  let ext := fun (v : DWord) => if n = 4 then sextW (v.truncate 32) else v
  let me := s.hart.n
  let go : State → State := fun s => match rvF7 w / 4 with
    | 2 => hartRead 4 addr n (fun v s => rvPut len (rvRd w) (ext v) { s with sl := { s.sl with resv := (me, addr) :: s.sl.resv.filter (·.1 != me) } }) s
    | 3 => hartAccess 6 addr n (fun s =>
        let ok := s.sl.resv.contains (me, addr)
        let s := { s with sl := { s.sl with resv := s.sl.resv.filter (·.1 != me) } }
        rvPut len (rvRd w) (if ok then 0 else 1) (if ok then rvStore addr (leBytes b.toNat n) s else s)) s
    | f => hartRead 6 addr n (fun v s =>
        let new : Option Nat := if n = 4 then (rvAmo f (v.truncate 32) (b.truncate 32)).map (·.toNat) else (rvAmo f v b).map (·.toNat)
        rvPut len (rvRd w) (ext v) (match new with | some x => rvStore addr (leBytes x n) s | none => s)) s
  if w.getLsbD 25 then rvAfter go s else go s

/-- A word of major 0x2F is an instruction. -/
def rvAtomicOk (w : Word) : Bool :=
  let f := rvF7 w / 4
  (rvF3 w == 2 || rvF3 w == 3) && (if f = 2 then rvRs2 w == 0 else f == 3 || (rvAmo f (0 : DWord) 0).isSome)

/-- The control and status register instructions; `bad` is the illegal-instruction exception. -/
def rvCsr (len : Nat) (w : Word) (bad : State → State) (s : State) : State :=
  let n := (w.extractLsb' 20 12).toNat
  let src : DWord := if rvF3 w ≥ 4 then (rvRs1 w).zeroExtend 64 else hartGet s.hart (rvRs1 w)
  let writes := rvF3 w % 4 == 1 || rvRs1 w != 0
  match csrRead s n with
  | none => bad s
  | some old =>
    if writes && n / 1024 == 3 then bad s
    else
      let v := match rvF3 w % 4 with
        | 1 => src
        | 2 => old ||| src
        | _ => old &&& ~~~src
      rvPut len (rvRd w) old (if writes then csrWriteM n v s else s)

/-- Environment instructions: `ecall` (11), `ebreak` (3), `mret`, and `wfi`, which may go on at once. -/
def rvSystem (len : Nat) (w : Word) (bad : State → State) (s : State) : State :=
  if w = 0x00000073 then hartRaise 11 0 s
  else if w = 0x00100073 then hartRaise 3 s.hart.pc s
  else if w = 0x30200073 then
    let s := rvGoto s.hart.mepc.toNat s
    { s with hart := { s.hart with mie := s.hart.mpie, mpie := true } }
  else if w = 0x10500073 then rvGoto (s.hart.pc + len) s
  else bad s

/-- The shift amounts that an immediate form admits: bits above the amount are zero, or bit 30 alone for an arithmetic shift right. -/
def rvShiftOk (w : Word) (f3 wide : Nat) : Bool :=
  let top := w.toNat / 2 ^ (20 + wide)
  top == 0 || (f3 == 5 && top == 2 ^ (10 - wide))

/-- A word of `len` bytes runs on the acting hart; `raw` is what an illegal-instruction exception (2) reports. -/
def rvExec (w : Word) (len raw : Nat) (s : State) : State :=
  let h := s.hart
  let pc : DWord := BitVec.ofNat 64 h.pc
  let a := hartGet h (rvRs1 w)
  let b := hartGet h (rvRs2 w)
  let f3 := rvF3 w
  let f7 := rvF7 w
  let put := rvPut len (rvRd w)
  let bad := hartRaise 2 raw
  match (w.extractLsb' 0 7).toNat with
  | 0x37 => put (rvImmU w) s
  | 0x17 => put (pc + rvImmU w) s
  | 0x6F => rvGoto (pc + rvImmJ w).toNat { s with hart := hartSet h (rvRd w).toNat (pc + BitVec.ofNat 64 len) }
  | 0x67 => if f3 ≠ 0 then bad s else rvGoto (a + rvImmI w).toNat { s with hart := hartSet h (rvRd w).toNat (pc + BitVec.ofNat 64 len) }
  | 0x63 => match rvTakes f3 a b with
    | none => bad s
    | some t => rvGoto (if t then (pc + rvImmB w).toNat else h.pc + len) s
  | 0x03 => if f3 = 7 then bad s else rvLoad len w s
  | 0x23 =>
    if f3 > 3 then bad s
    else hartAccess 6 (a + rvImmS w).toNat (2 ^ f3) (fun s => rvGoto (h.pc + len) (rvStore (a + rvImmS w).toNat (leBytes b.toNat (2 ^ f3)) s)) s
  | 0x13 =>
    if f3 % 4 = 1 && !rvShiftOk w f3 6 then bad s
    else put (rvAlu f3 (f3 == 5 && w.getLsbD 30) a (rvImmI w) (w.extractLsb' 20 6).toNat) s
  | 0x1B =>
    if !(f3 == 0 || f3 % 4 == 1) || (f3 % 4 == 1 && !rvShiftOk w f3 5) then bad s
    else put (sextW (rvAlu f3 (f3 == 5 && w.getLsbD 30) (a.truncate 32) ((rvImmI w).truncate 32) (w.extractLsb' 20 5).toNat)) s
  | 0x33 =>
    if f7 = 1 then put (rvMul f3 a b) s
    else if f7 = 0 ∨ (f7 = 0x20 ∧ f3 % 5 = 0) then put (rvAlu f3 (f7 == 0x20) a b (b.toNat % 64)) s
    else bad s
  | 0x3B =>
    if f7 = 1 ∧ (f3 = 0 ∨ f3 ≥ 4) then put (sextW (rvMul f3 (a.truncate 32 : Word) (b.truncate 32))) s
    else if (f7 = 0 ∧ (f3 = 0 ∨ f3 % 4 = 1)) ∨ (f7 = 0x20 ∧ f3 % 5 = 0) then
      put (sextW (rvAlu f3 (f7 == 0x20) (a.truncate 32) (b.truncate 32) (b.toNat % 32))) s
    else bad s
  | 0x0F => if f3 > 1 then bad s else rvAfter (rvGoto (h.pc + len)) s
  | 0x73 => if f3 = 0 then rvSystem len w bad s else if f3 = 4 then bad s else rvCsr len w bad s
  | 0x2F => if rvAtomicOk w then rvAtomic len w s else bad s
  | _ => bad s

/-! ## The words of the queue firmware -/

/-- The half word of the queue firmware at an address. -/
def fwHalf (s : State) (pc : Nat) : BitVec 16 := (stGet 0 s.cp.fw (pc / 4 * 4)).extractLsb' (8 * (pc % 4)) 16

/-- The word at an address, which a half word boundary may start. -/
def fwWord (s : State) (pc : Nat) : Word := fwHalf s (pc + 2) ++ fwHalf s pc

/-- The acting hart runs the instruction at its pc. -/
def hartStep (s : State) : State :=
  let w := fwWord s s.hart.pc
  if (w.extractLsb' 0 2) = 3 then rvExec w 4 w.toNat s
  else match expandC (w.truncate 16) with
    | some x => rvExec x 2 (w.toNat % 65536) s
    | none => hartRaise 2 (w.toNat % 65536) s

/-- A word placed at an address. -/
def fwPut (pc : Nat) (w : Word) (fw : List (Nat × Word)) : List (Nat × Word) :=
  if pc % 4 = 0 then stSet 0 fw pc w
  else
    let lo := stGet 0 fw (pc / 4 * 4)
    let hi := stGet 0 fw (pc / 4 * 4 + 4)
    stSet 0 (stSet 0 fw (pc / 4 * 4) (w.extractLsb' 0 16 ++ lo.extractLsb' 0 16)) (pc / 4 * 4 + 4) (hi.extractLsb' 16 16 ++ w.extractLsb' 16 16)

end Sys2Proof.Machine
end

