-- ==== Sys2Proof/Machine/Issue.lean ====
section
/-! DEFINITION. Which instruction comes next: the picker of the core (R122 to R125), the sequencer (R277), the harts of the
command processor (R169), and the words each of them fetches. -/

namespace Sys2Proof.Machine

open Sys2Proof

/-! ## The picker (R124) -/

/-- What the picker compares of a group of ready threads at one PC. -/
structure Group where
  pc : PC
  size : Nat
  age : Nat
  marked : Bool
  deriving DecidableEq, Repr

def groupAt (ts : List Thread) (pc : PC) : Group :=
  let g := ts.filter (·.pc == pc)
  { pc := pc, size := ((g.map (·.lane)).eraseDups).length, age := g.foldl (fun m t => max m t.age) 0, marked := g.any (·.marked) }

def groups (ts : List Thread) : List Group := ((ts.map (·.pc)).eraseDups).map (groupAt ts)

/-- Whether group `a` goes before `b`; `old` when some group holds a marked thread. -/
def groupBefore (old : Bool) (a b : Group) : Bool :=
  if !old && a.size != b.size then decide (a.size > b.size)
  else if a.age ≠ b.age then decide (a.age > b.age)
  else decide (a.pc.toNat < b.pc.toNat)

def bestGroup (old : Bool) : List Group → Option Group
  | [] => none
  | g :: t => match bestGroup old t with
    | none => some g
    | some b => some (if groupBefore old b g then b else g)

def winner (ts : List Thread) : Option Group := let gs := groups ts; bestGroup (gs.any (·.marked)) gs

/-- Of the threads of a lane, the one of greatest ready age, then of lowest slot. -/
def laneBest : List Thread → Option Thread
  | [] => none
  | t :: l => match laneBest l with
    | none => some t
    | some b => some (if b.age > t.age ∨ (b.age = t.age ∧ b.slot < t.slot) then b else t)

/-- The bundle of the winner's threads, in ascending lane order. -/
def bundleOf (ts : List Thread) : List (Nat × Nat) :=
  match winner ts with
  | none => []
  | some g => (List.range 32).filterMap (fun l => (laneBest (ts.filter (fun t => t.pc == g.pc && t.lane == l))).map (fun t => (t.slot, t.lane)))

/-- Lanes below a thread's that hold a thread at the same PC. -/
def lanesBelow (ts : List Thread) (t : Thread) : Nat :=
  ((List.range t.lane).filter (fun l => ts.any (fun u => u.pc == t.pc && u.lane == l))).length

/-- Those whose operation the queue of its engine can still take when each thread of a bundle issues its own in ascending lane order: for
the others the queue is full, and they are not ready (R122, R327). DESIGN CHOICE (log entry 8): their group competes without them. -/
def admitted (room : PC → Nat) (ts : List Thread) : List Thread :=
  ts.filter (fun t => decide (32 ≤ room t.pc) || decide (lanesBelow ts t < room t.pc))

/-- The address of the word that a thread or stream at `pc` lacks. -/
def missingWord (s : State) (pc : PC) : Option Nat :=
  match codeWord? s s.ctxNo pc with
  | none => some pc.toNat
  | some w => if isPayloadWord w && (codeWord? s s.ctxNo (pc + 4)).isNone then some (pc + 4).toNat else none

/-- An open thread whose word is not there waits for its line (R122). -/
def waitWord (s : State) (t : Thread) : Thread :=
  match missingWord s t.pc with
  | some va => { t with park := .ifetch va }
  | none => t

/-- The picker forms the bundle of the cycle; the threads in it have ready age 0, every other ready one a cycle more (R123). -/
def pick (s : State) : State :=
  let s := s.stow
  let ready := admitted (fun pc => unitRoom s (coreWord s pc)) (s.pl.threads.filter (threadReady s))
  let b := bundleOf ready
  let step := fun (t : Thread) =>
    if b.contains (t.slot, t.lane) then { t with age := 0, marked := false }
    else if ready.any (fun u => u.is t.slot t.lane) then { t with age := t.age + 1 }
    else if threadOpen s t && !wordReady s t then waitWord s t else t
  { s with
    turn := .core, bundle := b, bundleAll := b, bundleNo := s.bundleNo + 1, split := none
    pl := { s.pl with threads := s.pl.threads.map step } }

/-! ## What comes next -/

/-- What a step does: it changes the machine itself, or runs an instruction. -/
inductive Action where
  | silent (s : State)
  | run (i : Instr) (s : State)

/-- The instruction at a word and the word after it; one that decodes to nothing is the reserved word (R66). -/
noncomputable def instrAt (w0 w1 : Word) : Instr :=
  match decodePair w0 w1 with
  | some i => i
  | none => .reservedMajor w0

/-- The words at a PC, as the instruction cache holds them. -/
def wordsAt (s : State) (pc : PC) : Option (Word × Word) :=
  (codeWord? s s.ctxNo pc).map (fun w => (w, (codeWord? s s.ctxNo (pc + 4)).getD 0))

/-- The next thread of the bundle acts. -/
def bringThread (who : Nat × Nat) (rest : List (Nat × Nat)) (s : State) : State :=
  { s.fetchThread who.1 who.2 with bundle := rest, actor := .simt }

noncomputable def nextThread (who : Nat × Nat) (rest : List (Nat × Nat)) (s : State) : Action :=
  let s := bringThread who rest s
  if !s.th.live then .silent s
  else match wordsAt s s.th.pc with
    | some w => .run (instrAt w.1 w.2) s
    | none => .silent (s.updTh (fun t => { t with park := .ifetch t.pc.toNat }))

/-- A stream of the active plane that may issue, but for the presence of its word (R277, R292, R364). -/
def streamOpen (s : State) (q : SeqCtx) : Bool :=
  q.held && decide (q.stop = 0) && decide (q.park = .none) && s.pl.blocks.any (·.handle == q.block) && s.swapEnd.isNone
  && !s.standby.engineDue && !isFrozen s (masterEngine s 3) && !((s.block? q.block).map (·.argsWait)).getD false

/-- A tile instruction has an entry of the reservation table, and its context fewer than 16 (R277). -/
def streamRoom (s : State) (q : SeqCtx) : Bool :=
  let m := (majorOf (coreWord s q.pc)).toNat
  !decide (0x30 ≤ m ∧ m ≤ 0x33) || tableRoomOf s q.n

def streamReady (s : State) (q : SeqCtx) : Bool := streamOpen s q && (missingWord s q.pc).isNone && streamRoom s q

/-- The ready context after the one that issued last. -/
def nextSeqNo (s : State) : Option Nat :=
  (List.range 16).findSome? (fun k =>
    let n := (s.cl.lastSeq + 1 + k) % 16
    if s.allSeqs.any (fun q => q.n == n && streamReady s q) then some n else none)

/-- Streams that lack their word wait for its line. -/
def waitWordS (s : State) : State :=
  s.updSeqs (streamOpen s) (fun q => match missingWord s q.pc with
    | some va => { q with park := .ifetch va }
    | none => q)

/-- The stream that issues in this cycle acts. -/
def bringSeq (n : Nat) (s : State) : State :=
  let s := s.fetchSeq n
  { s with turn := .pick, actor := .stream, cl := { s.cl with lastSeq := n } }

/-- The sequencer's cycle (R277). DESIGN CHOICE (log entry 108): the fetch of a word starts in the first cycle in which its context could issue but for
it. -/
noncomputable def nextStream (s : State) : Action :=
  match nextSeqNo s with
  | none => .silent { waitWordS s with turn := .pick }
  | some n =>
    let s := bringSeq n (waitWordS s)
    match wordsAt s s.sq.pc with
    | some w => .run (instrAt w.1 w.2) s
    | none => .silent s

/-- Every hart, the acting one as it stands. -/
def allHarts (s : State) : List Hart := s.cp.harts.map (fun h => if h.n = s.hart.n then s.hart else h)

/-- The hart after the one that acted last that blocks in no `kwait`. -/
def nextHartNo (s : State) : Option Nat :=
  if isFrozen s masterCp then none
  else (List.range 32).findSome? (fun k =>
    let n := (s.cp.lastHart + 1 + k) % 32
    if (allHarts s).any (fun h => h.n == n && h.wait.isNone) then some n else none)

/-- The hart that acts in this cycle. -/
def bringHart (n : Nat) (s : State) : State :=
  let hs := allHarts s
  { s with turn := .tick, actor := .hart, hart := (hs.find? (·.n == n)).getD { n := n }, cp := { s.cp with harts := hs, lastHart := n } }

/-- A hart at a `kwait` runs it; at another word it runs that (R169). -/
noncomputable def nextHart (s : State) : Action :=
  match nextHartNo s with
  | none => .silent { s with turn := .tick }
  | some n =>
    let s := bringHart n s
    match decodeHart (fwWord s s.hart.pc) with
    | some i => .run i s
    | none => .silent (hartStep s)

end Sys2Proof.Machine
end

