-- ==== Sys2Proof/Machine/Tick.lean ====
section
/-! DEFINITION. The end of a cycle: time, what follows from it, and the events of the units that are due (R2, R26, R122, R165,
R202, R219, R242, R263, R282, R362, R386). -/

namespace Sys2Proof.Machine

open Sys2Proof

/-! ## Time (R2, R386) -/

/-- The time base one cycle later: a cycle is 1,000 / MHz ns, and after every 10,000 ns one more or one less goes to the slew. DESIGN CHOICE (log
entry 98): it counts on beyond 64 bits, of which a reader sees the low ones. -/
def Clock.step (k : Clock) : Clock :=
  let p := k.phase + 1000
  let n := p / k.mhz
  let since := min 10000 (k.since + n)
  let d : Int := if since < 10000 ∨ n = 0 then 0 else if k.slew > 0 then 1 else if k.slew < 0 then -1 else 0
  { k with cycle := k.cycle + 1, phase := p % k.mhz, tbase := ((k.tbase + n : Int) + d).toNat, slew := k.slew - d, since := if d = 0 then since else 0 }

/-- Each role's counter adds the banks that hold it (R202). -/
def countBanks (s : State) : State :=
  let n := fun (r : Role) => ((List.range 32).filter (fun k => decide ((bankOf s.pl.pmap k).role = r))).length
  let add := fun (l : List (Nat × Nat)) (r : Role) => stSet 0 l (roleCode r) ((stGet 0 l (roleCode r) + n r) % 2 ^ 64)
  { s with bankCycles := [Role.free, .regs, .scratch, .cache, .tile].foldl add s.bankCycles }

/-- Threads of a formed warp begin once the time base has passed their records' times (R136). -/
def wakeTimed (s : State) : State :=
  let due := fun (t : Thread) => match t.park with
    | .time till uid seq => decide (s.clock.tbase ≥ till) && decide (s.clock.tbase ≥ carriedPct s uid (some seq)) && !writesAnywhere s uid seq
    | _ => false
  s.updThreads due (fun t => { t with park := .none })

/-- Frozen entries do not age (R292). -/
def holdAges (s : State) : State :=
  { s with cl := { s.cl with table := updIf REntry.isFrozen (fun e => { e with stood := e.stood + 1 }) s.cl.table } }

/-! ## Due events -/

def evIf (b : Bool) (i : Instr) : List Instr := if b then [i] else []

/-- The results of one agent that may complete now. -/
noncomputable def dueResults {w : Nat} (now : Nat) (who : Agent) (l : List (Result w)) : List Instr :=
  (l.filter (fun r => r.ready && decide (now ≥ r.issued + r.maxLat.getD r.minLat))).map (fun r => .registerResultWrite who r.tag)

/-- What a thread waits for, where a unit answers it in either plane. -/
noncomputable def dueRemote (who : Agent) (t : Thread) : List Instr :=
  match t.park with
  | .icinv _ _ _ => [.icinvComplete who]
  | .flush _ => [.flushComplete who]
  | .csrw _ _ => [.csrwInForce who]
  | .watch _ _ => [.watchComplete who]
  | .unwatch _ _ _ => [.unwatchComplete who]
  | _ => []

/-- What a thread of the active plane waits for besides. -/
noncomputable def dueLocal (now : Nat) (who : Agent) (t : Thread) : List Instr :=
  (match t.park with
  | .yield till => evIf (decide (now > till)) (.yieldExpiry who)
  | .trap _ _ _ => evIf t.allReady (.trapEntry who)
  | .ifetch _ => [.instructionFetchFill who]
  | .fwait _ pa _ _ asleep => evIf (!asleep || isX pa) (.fwaitRetry who)
  | .wshrink _ _ => [.wshrinkComplete who]
  | .poolRel _ => [.poolRelComplete who]
  | .fget _ _ _ _ _ _ => [.fgetDecode who]
  | _ => [])
  ++ evIf (decide (t.age ≥ 1024) && !t.marked) (.readyAgeMark who)

/-- The thread waits in its instruction for a release point. -/
def waitsPoint (t : Thread) : Bool :=
  match t.park with
  | .fence _ _ _ _ => true
  | .arrive _ _ _ => true
  | .xredRel _ _ _ _ => true
  | _ => false

/-- The agents that wait for release points, in their instructions or with stores or puts, in ascending lane, the order of their arrivals
(R149). -/
def pointAgents (off : Nat) (p : Plane) : List Agent :=
  let at_ := (p.threads.filter waitsPoint).map (fun t => (t.slot, t.lane)) ++ p.storeQ.map (fun q => (q.slot, q.lane)) ++ p.puts.map (fun q => (q.slot, q.lane))
  (List.range 32).flatMap (fun k => (((at_.filter (·.2 == k)).map (·.1)).eraseDups).map (fun slot => Agent.thread (slot + off) k))

noncomputable def duePlane (now off : Nat) (p : Plane) : List Instr :=
  p.threads.flatMap (fun t => dueResults now (.thread (t.slot + off) t.lane) t.pend)
  ++ (pointAgents off p).map (.releasePoint ·)
  ++ p.threads.flatMap (fun t => dueRemote (.thread (t.slot + off) t.lane) t)

noncomputable def dueThreads (s : State) : List Instr :=
  duePlane s.clock.cycle 0 s.pl
  ++ s.pl.threads.flatMap (fun t => dueLocal s.clock.cycle (.thread t.slot t.lane) t)
  ++ (if s.standby.st = .saving ∨ s.standby.st = .empty then duePlane s.clock.cycle 64 s.standby.plane else [])

noncomputable def dueStreams (s : State) : List Instr :=
  s.allSeqs.flatMap (fun q => dueResults s.clock.cycle (.stream q.n) q.pend ++ (match q.park with
    | .barArrive _ _ => [Instr.releasePoint (.stream q.n)]
    | .sfence _ _ _ => [Instr.releasePoint (.stream q.n)]
    | .ifetch _ => [Instr.instructionFetchFill (.stream q.n)]
    | _ => []))

/-- What happens next to a message. -/
noncomputable def msgEvent (s : State) (m : Msg) : Instr :=
  if isX (bodyLine m.body * 128) && isUnreachable s (xModule (bodyLine m.body * 128)) && !bodyServed m.body then .unreachableCompletion m.id
  else match m.body with
    | .fill f => if f.reply.isSome then .fillReply m.id else .fillRequest m.id
    | .write w => if w.ack.isSome then .writeAck m.id else .writeCommit m.id
    | .atomic a => if a.ack.isSome then .writeAck m.id else .atomicAtHome m.id
    | .mcast _ => .mcastRequest m.id

/-- Numbers below `n` that satisfy `p`, the greatest first: a later event's number stands though an earlier entry goes. -/
def downFrom (n : Nat) (p : Nat → Bool) : List Nat := ((List.range n).filter p).reverse

noncomputable def dueMemory (s : State) : List Instr :=
  (s.pl.net ++ s.standby.plane.net).map (msgEvent s)
  ++ (downFrom s.sl.windows.length (fun i => match s.sl.windows[i]? with
      | some w => w.closed.isNone && decide (s.clock.cycle ≥ w.opened + w.len)
      | none => false)).map (.mcastWindowClose ·)
  ++ (downFrom s.sl.windows.length (fun i => match s.sl.windows[i]? with
      | some w => slotDone s w
      | none => false)).map (.mcastSlotFree ·)

noncomputable def dueWalks (s : State) : List Instr :=
  (s.xl.walks.filter (fun w => !w.granted)).map (fun _ => Instr.walkerGrant)
  ++ (downFrom s.xl.walks.length (fun i => (s.xl.walks[i]?.map (·.granted)).getD false)).map (.walkComplete ·)
  ++ ((List.range s.xl.faults.length).filter (fun i => ((s.xl.faults[i]?.map (·.idx.isNone)).getD false))).map (.faultRecordWrite ·)
  ++ ((s.xl.faults.map (·.ctx)).eraseDups).map (.faultQueueReread ·)
  ++ (downFrom s.xl.faults.length (fun i => (s.xl.faults[i]?.map (·.idx.isSome)).getD false)).map (.faultResponse ·)

/-- The entry may complete in this cycle: its pass ends, its fetch may meet poison, or it waits to complete. -/
def mayEnd (now : Nat) (e : REntry) : Bool :=
  match e.stage with
  | .inPass till => decide (till ≤ now)
  | .accepted => true
  | .releasing => true
  | _ => false

/-- What the engines do: passes end, the matrix engine's entries complete in ascending number, then operations of the copy engine and of
the fetch unit (R149). -/
noncomputable def dueEngines (s : State) : List Instr :=
  evIf (s.cl.table.any (fun e => match e.stage with | .inPass till => decide (till ≤ s.clock.cycle) | _ => false)) .passEnd
  ++ (s.cl.table.filter (fun e => decide (e.stage = .accepted))).map (fun e => .tileFetch e.n)
  ++ (List.range 32).flatMap (fun k => (s.cl.table.filter (fun e => e.n == k && mayEnd s.clock.cycle e)).map (fun e => .engineRelease e.n))
  ++ evIf (!s.cl.table.isEmpty) .passGrant
  ++ (s.cl.copyQ.filter (·.started)).map (fun c => .copyOpComplete c.id)
  ++ evIf (s.cl.copyQ.any (fun c => !c.started)) .copyOpStart
  ++ s.cl.fetchQ.map (fun c => .fgetbComplete c.id)

/-- What the pool manager has to do in a cycle after the threads' requests: handshakes, then the former, then the dispatcher (R188). -/
noncomputable def dueCore (s : State) : List Instr :=
  (match s.pl.shake with
    | some (.writeback _ _ _ _) => [Instr.cWritebackDone]
    | some (.reloc _ _ _) => [.relocationComplete]
    | none => [])
  ++ evIf (s.pl.threads.any (fun t => match t.park with | .wgrow _ _ _ => true | _ => false)) .wgrowGrant
  ++ (if s.sched.coreQ.any isCont then [.formerWarpRelease, .formerPartialTimeout] else [])
  ++ evIf (s.sched.coreQ.any (fun e => !isCont e) || s.pl.blocks.any (·.argsWait)) .blockStart

noncomputable def dueQueues (s : State) : List Instr :=
  evIf (!s.sched.moving.isEmpty) .queueMoveComplete
  ++ evIf (!s.sched.clusterQ.isEmpty || !(ownRecords s).isEmpty) (.queuePull .core)
  ++ evIf (!s.sched.dieQ.isEmpty) (.queuePull .cluster)
  ++ evIf (!s.sched.segs.isEmpty) (.queuePull .die)
  ++ (s.sched.rings.filter (fun r => !r.blocks.isEmpty)).map (fun r => .wqRingRefill r.q r.ctx)
  ++ (s.sl.trigRings.filter (fun r => decide (r.tail < r.head))).map (fun r => .triggerRefill r.slice r.ctx)
  ++ (s.sl.trigRings.filter (fun r => decide (r.lost > 0))).map (fun r => .trigOverflow r.slice r.ctx)
  ++ (((s.sl.trigs.filter (fun r => r.spilled.isNone)).map (·.slice)).eraseDups).map (.triggerDispatch ·)

/-- The packet at a queue's read index as an event. -/
noncomputable def packetEvent (s : State) (x : CpQueue) : Instr :=
  let p := match x.cur, x.pa x.va with
    | some p, _ => p
    | none, some pa => getLe s.mem pa 1
    | none, none => 0
  match pkType p with
  | 2 => .wait x.q
  | 3 => .signal x.q
  | 4 => .join x.q
  | 5 => .cond x.q
  | 6 => .patch x.q
  | _ => .launch x.q

/-- The event of a held command. -/
noncomputable def commandEvent (s : State) : Instr :=
  let s := { s with win := { s.win with cmdrec := s.cp.cmdrec } }
  if cmdBad s then .badcmd
  else match cmdCode s with
    | 1 => .mapQueue
    | 2 => .unmapCtx
    | 3 => .clearError
    | 4 => .preempt
    | 5 => .resume
    | 6 => .regGraph
    | 7 => .inval
    | 8 => .copy
    | 9 => .checkpoint
    | 10 => .restore
    | _ => .badcmd

noncomputable def dueFront (s : State) : List Instr :=
  (s.cp.queues.filter (fun x => !x.err && x.ridx != x.widx)).map (packetEvent s)
  ++ (s.sched.trees.filter (fun t => !t.detached && t.count == 0 && decide (t.tct ≤ s.clock.tbase))).map (fun t => .treeComplete t.n)
  ++ ((allHarts s).filter (·.wait.isSome)).map (fun h => .kwaitReread h.n)
  ++ evIf (decide (s.cp.cmd = .held) && !isFrozen s masterCp && !hostOpen s) (commandEvent s)

noncomputable def dueSwap (s : State) : List Instr :=
  evIf (match s.swapEnd with | some k => decide (s.clock.cycle ≥ k) | none => false) .swapEnd
  ++ evIf (decide (s.standby.st = .saving)) .saveComplete
  ++ evIf (decide (s.standby.st = .restoring)) .restoreComplete
  ++ evIf s.standby.engineDue .engineImageRestore
  ++ s.cp.resuming.map (.restoreStart ·)

noncomputable def dueModule (s : State) : List Instr :=
  (match s.ckpt.st with
    | .armed => evIf (decide (s.clock.tbase ≥ s.ckpt.t)) .checkpointQuiesce
    | .draining => [.checkpointQuiesce]
    | .barrier since => evIf (decide (s.clock.tbase ≥ since + 1000000000)) .checkpointAbandon
    | .streaming => [.checkpointClose]
    | .restoring => [.restoreReadbackDone]
    | .idle => [])
  ++ (match s.win.state with
    | .reset => [Instr.bringUpStart]
    | .verify => [.fwVerify]
    | _ => [])
  ++ (s.root.domain.filter (fun d => !d.pool && d.m != s.win.modnum && !s.unreachable.contains d.m
        && decide (s.clock.tbase ≥ lastHeard s d.m + 100000000))).map (fun d => .heartbeatTimeout d.m)

/-- Everything the units have to do at the end of a cycle, in the order in which it is done: arrivals of the engines before the sequencer's,
and those before the threads' (R149, R319); a swap before the fault responses of its cycle (R380), and before the block starts and releases of the next (R367). -/
noncomputable def due (s : State) : List Instr :=
  dueEngines s ++ dueStreams s ++ dueThreads s ++ dueMemory s ++ evIf (swapWanted s && s.swapEnd.isNone) .planeSwap ++ dueWalks s
  ++ dueQueues s ++ dueFront s ++ dueSwap s ++ dueModule s

/-- What agents of the other modules of the domain have written in the cycle (R388): bytes known here, and all others, may be others now. -/
def driftAll (s : State) : State :=
  if s.root.domain.isEmpty then s
  else
    let (i, s) := s.draw
    { s with
      remoteEra := s.remoteEra + 1
      remote := s.remote.filter (fun c => !Config.othersWrote i c.1)
      images := s.images.filter (fun x => !Config.othersWrote i x.start) }

/-- What time itself changes. -/
def passTime (s : State) : State :=
  let s := { countBanks s.stow with clock := s.clock.step, badPorts := [] }
  let s := wakeTimed (holdAges (sendBeats (driftAll s)))
  settleBells (settleShakes (settlePorts (settleNotices (settleExiles (wakeWct (wakeStores (unqueued s) s))))))

/-- The end of a cycle. -/
noncomputable def tick (s : State) : State :=
  let s := passTime s
  let s := pollCommand (driveGraphs (settleDomain s))
  { s with turn := .stream, agenda := s.agenda ++ due s }

/-- What the next step does. -/
noncomputable def nextAction (s : State) : Action :=
  match s.bundle with
  | who :: rest => nextThread who rest s
  | [] => match s.agenda with
    | i :: t => .run i { s with agenda := t }
    | [] => match s.turn with
      | .pick => .silent (pick s)
      | .stream => nextStream s
      | .core => .silent { s with turn := .hart, agenda := dueCore s }
      | .hart => nextHart s
      | .tick => .silent (tick s)

/-! ## An instruction where the next step fetches (the form the host uses) -/

/-- Words of major 0x30 to 0x34 run on a stream. -/
def streamWord (w : Word) : Bool := decide (0x30 ≤ (majorOf w).toNat ∧ (majorOf w).toNat ≤ 0x34)

/-- A hart's word: bits [31:25] zero and the custom-0 opcode. -/
def hartWord (w : Word) : Bool := decide (w.extractLsb' 25 7 = 0 ∧ w.extractLsb' 0 7 = 0x0B)

/-- The words of a PC in the instruction cache. -/
def placeWords (c : Nat) (pc : PC) (w0 w1 : Word) (s : State) : State :=
  let a := codeKey c pc
  let b := codeKey c (pc + 4)
  { s with icache := (a, w0) :: (b, w1) :: s.icache.filter (fun x => x.1 != a && x.1 != b) }

/-- The acting thread, living and first of its bundle. -/
def placeThread (w0 w1 : Word) (s : State) : State :=
  let s := placeWords s.ctxNo s.th.pc w0 w1 s
  { s with th := { s.th with live := true, park := .none }, bundle := [(s.th.slot, s.th.lane)] }

/-- The acting stream, held, running, and next to issue. -/
def placeStream (w0 w1 : Word) (s : State) : State :=
  let s := placeWords s.ctxNo s.sq.pc w0 w1 s
  { s with
    sq := { s.sq with held := true, stop := 0, park := .none }
    cl := { s.cl with lastSeq := (s.sq.n + 15) % 16, seqs := s.cl.seqs.filter (·.n != s.sq.n) }
    pl := if s.pl.blocks.any (·.handle == s.sq.block) then s.pl
      else { s.pl with blocks := s.pl.blocks ++ [{ handle := s.sq.block, stream := some s.sq.n }] }
    swapEnd := none, standby := { s.standby with engineDue := false }
    bundle := [], agenda := [], turn := .stream }

/-- The acting hart, next to issue. -/
def placeHart (w : Word) (s : State) : State :=
  let h := { s.hart with wait := none }
  { s with
    hart := h
    cp := { s.cp with harts := h :: s.cp.harts.filter (·.n != h.n), lastHart := (h.n + 31) % 32, fw := fwPut h.pc w s.cp.fw }
    bundle := [], agenda := [], turn := .hart }

def placeInstr (w0 w1 : Word) (s : State) : State :=
  if hartWord w0 then placeHart w0 s
  else if streamWord w0 || (isPayloadWord w0 && streamWord w1) then placeStream w0 w1 s
  else placeThread w0 w1 s

end Sys2Proof.Machine
end

