-- ==== Sys2Proof/Machine/Step.lean ====
section
/-! DEFINITION. One step of the machine. -/

namespace Sys2Proof.Machine

open Sys2Proof

/-- One step: the machine changes by itself, or runs the next instruction. A module whose power is off stops (R409). -/
noncomputable def step (s : State) : Host.Outcome State Fault Refusal :=
  if !s.powered then .fault .poweredOff
  else match nextAction s with
    | .silent t => .next t
    | .run i t => exec i t

/-- The state with an instruction's words where the next step fetches. -/
def State.withFetchWord (s : State) (nbits w : Nat) : State :=
  let w := w % 2 ^ nbits
  placeInstr (BitVec.ofNat 32 w) (BitVec.ofNat 32 (w / 2 ^ 32)) s

end Sys2Proof.Machine
end

