-- ==== Sys2Proof/Safety.lean ====
section
/-! DEFINITION. What counts as a safe run, and the words that claims use: steps and runs, an instruction as it executes, a thread or
stream brought to act, and the facts about a state that every step is to keep. -/

namespace Sys2Proof

open Sys2Proof.Machine

/-- One step takes `s` to `t`. -/
def Steps (s t : State) : Prop := step s = .next t

/-- `t` is reached from `s` by some number of steps. -/
inductive Run : State → State → Prop where
  | here (s : State) : Run s s
  | more {s t u : State} (h : Steps s t) (r : Run t u) : Run s u

/-- The machine does not stop: the next step has a next state. -/
def Safe (s : State) : Prop := ∃ t, Steps s t

/-- Device memory, and each memory image that a checkpoint took, is in its canonical form (R205, R404). -/
def MemoryOk (s : State) : Prop := Memory.wf s.mem = true ∧ ∀ x ∈ s.images, Memory.wf x.mem = true

/-- The threads of a plane: living, in lanes 0 to 31, once each, in the order of slot and lane (R117, R118). -/
def PlaneOk (p : Plane) : Prop := p.threads.Pairwise (fun t u => t.key < u.key) ∧ ∀ t ∈ p.threads, t.live = true ∧ t.lane < 32

/-- Every plane's threads are in that form: the two of the core, those in save slots, and those in the images of checkpoints. -/
def ThreadsOk (s : State) : Prop :=
  PlaneOk s.pl ∧ PlaneOk s.standby.plane ∧ (s.th.live = true → s.th.lane < 32)
  ∧ (∀ x ∈ s.slots, PlaneOk x.standby.plane) ∧ ∀ x ∈ s.images, ∀ y ∈ x.slots, PlaneOk y.standby.plane

/-- A property that no step loses. -/
def Kept (P : State → Prop) : Prop := ∀ s t, P s → Steps s t → P t

/-- An instruction word as it executes (R8, R60). -/
def Instr.ins (i : Instr) : Ins := ⟨encodeWord i, i.payload, i.shape⟩

/-- The instruction words of threads and streams; not the words of the command processor's harts, nor the steps of other units. -/
def Instr.onCore (i : Instr) : Bool := i.shape.simt || i.shape.stream

/-- The state with a thread acting (the one that acts already, or one of the others). -/
def Machine.State.bring (s : State) (slot lane : Nat) : State :=
  if s.th.live && s.th.is slot lane then s else s.fetchThread slot lane

/-- The state `u`, reached with a thread acting, with the thread back in its place and the thread that acted in `s` acting again. -/
def Machine.State.putBack (s : State) (slot lane : Nat) (u : State) : State :=
  if s.th.live && s.th.is slot lane then u
  else if s.th.live then u.stow.fetchThread s.th.slot s.th.lane else { u.stow with th := s.th }

/-- A thread of the active plane lives at a slot and lane. -/
def Machine.State.lives (s : State) (slot lane : Nat) : Bool :=
  (s.th.live && s.th.is slot lane) || s.pl.threads.any (·.is slot lane)

/-- The state with a sequencer context acting. -/
def Machine.State.bringStream (s : State) (n : Nat) : State := if s.sq.held && s.sq.n == n then s else s.fetchSeq n

/-- The state `u`, reached with a context acting, with the context that acted in `s` acting again. -/
def Machine.State.putBackStream (s : State) (n : Nat) (u : State) : State :=
  if s.sq.held && s.sq.n == n then u
  else if s.sq.held then u.stowSeq.fetchSeq s.sq.n else { u.stowSeq with sq := s.sq }

/-- A sequencer context is held. -/
def Machine.State.holds (s : State) (n : Nat) : Bool := (s.sq.held && s.sq.n == n) || s.cl.seqs.any (·.n == n)

end Sys2Proof
end

