-- ==== Sys2Proof/Certificates/Slice0/Rules.lean ====
section
/-! DEFINITION. The tables of the specification as the statements use them: the result of each instruction whose one effect is a
register result, written in integer arithmetic, and the shapes of the next states. -/

namespace Sys2Proof.Rules

open Sys2Proof Sys2Proof.Machine

/-! ## Results -/

/-- The result of an instruction: its least and greatest latency (Table 1-4), the words that a thread's destination receives, and
the value that a stream's receives. -/
structure ResultRule where
  lo : Nat
  hi : Nat
  thread : Ins → State → Opnds → List Word
  stream : Opnds → DWord

/-- One operation on d, a and b at 32 bits for threads and at 64 bits for streams (Table 4-1). -/
def single (f : (n : Nat) → (d a b : BitVec n) → BitVec n) (lo : Nat := 4) (hi : Nat := lo) : ResultRule :=
  ⟨lo, hi, fun _ _ o => [f 32 (wordOf o.d) (wordOf o.a) (wordOf o.b)], fun o => f 64 (dwordOf o.d) (dwordOf o.a) (dwordOf o.b)⟩

/-- 1 where a relation holds, else 0 (R82). -/
def truth {n : Nat} (p : Prop) [Decidable p] : BitVec n := if p then 1 else 0

/-- A number clamped to a range. -/
def clamp (lo hi v : Int) : Int := max lo (min hi v)

/-- The shifts of Table 4-2 with an amount `k`; an amount of the width or more fills. -/
def shiftLeft {n : Nat} (a : BitVec n) (k : Nat) : BitVec n := if k ≥ n then 0 else BitVec.ofNat n (a.toNat * 2 ^ k)
def shiftRight {n : Nat} (a : BitVec n) (k : Nat) : BitVec n := if k ≥ n then 0 else BitVec.ofNat n (a.toNat / 2 ^ k)
def shiftSigned {n : Nat} (a : BitVec n) (k : Nat) : BitVec n :=
  if k ≥ n then (if a.msb then BitVec.allOnes n else 0) else BitVec.ofInt n (a.toInt / 2 ^ k)
def rotated {n : Nat} (a : BitVec n) (k : Nat) : BitVec n := (a <<< (k % n)) ||| (a >>> (n - k % n))

/-- Majors 0x01 to 0x03 and the immediate forms 0x05 to 0x0B (R80, R81, R82, R84). -/
def integerRule : Instr → Option ResultRule
  | .add .. => some (single fun n _ a b => BitVec.ofNat n (a.toNat + b.toNat))
  | .sub .. => some (single fun n _ a b => BitVec.ofInt n (a.toInt - b.toInt))
  | .and .. => some (single fun _ _ a b => a &&& b)
  | .or .. => some (single fun _ _ a b => a ||| b)
  | .xor .. => some (single fun _ _ a b => a ^^^ b)
  | .andn .. => some (single fun _ _ a b => a &&& ~~~b)
  | .shl .. => some (single fun _ _ a b => shiftLeft a b.toNat)
  | .shr .. => some (single fun _ _ a b => shiftRight a b.toNat)
  | .sar .. => some (single fun _ _ a b => shiftSigned a b.toNat)
  | .rot .. => some (single fun _ _ a b => rotated a b.toNat)
  | .min .. => some (single fun _ _ a b => if a.toInt ≤ b.toInt then a else b)
  | .max .. => some (single fun _ _ a b => if a.toInt ≥ b.toInt then a else b)
  | .minn .. => some (single fun _ _ a b => if a.toNat ≤ b.toNat then a else b)
  | .maxn .. => some (single fun _ _ a b => if a.toNat ≥ b.toNat then a else b)
  | .mul .. => some (single (fun n _ a b => BitVec.ofNat n (a.toNat * b.toNat)) 6)
  | .mulh .. => some (single (fun n _ a b => BitVec.ofInt n (a.toInt * b.toInt / 2 ^ n)) 6)
  | .mulhn .. => some (single (fun n _ a b => BitVec.ofNat n (a.toNat * b.toNat / 2 ^ n)) 6)
  | .div .. => some (single (fun n _ a b => if b = 0 then BitVec.allOnes n else BitVec.ofInt n (a.toInt.tdiv b.toInt)) 20 36)
  | .divn .. => some (single (fun n _ a b => if b = 0 then BitVec.allOnes n else BitVec.ofNat n (a.toNat / b.toNat)) 20 36)
  | .rem .. => some (single (fun n _ a b => if b = 0 then a else BitVec.ofInt n (a.toInt - b.toInt * a.toInt.tdiv b.toInt)) 20 36)
  | .remn .. => some (single (fun n _ a b => if b = 0 then a else BitVec.ofNat n (a.toNat % b.toNat)) 20 36)
  | .clz .. => some (single fun n _ a _ => BitVec.ofNat n (n - (if a = 0 then 0 else a.toNat.log2 + 1)))
  | .popc .. => some (single fun n _ a _ => BitVec.ofNat n ((List.range n).countP (fun k => a.getLsbD k)))
  | .brev .. => some (single fun _ _ a _ => a.reverse)
  | .abs .. => some (single fun n _ a _ => BitVec.ofNat n a.toInt.natAbs)
  | .neg .. => some (single fun n _ a _ => BitVec.ofInt n (-a.toInt))
  | .sel .. => some (single fun _ d a b => if d ≠ 0 then a else b)
  | .mla .. => some (single (fun n d a b => BitVec.ofNat n (d.toNat + a.toNat * b.toNat)) 6)
  | .adds .. => some (single fun n _ a b => BitVec.ofInt n (clamp (-(2 ^ (n - 1))) (2 ^ (n - 1) - 1) (a.toInt + b.toInt)))
  | .subs .. => some (single fun n _ a b => BitVec.ofInt n (clamp (-(2 ^ (n - 1))) (2 ^ (n - 1) - 1) (a.toInt - b.toInt)))
  | .addsn .. => some (single fun n _ a b => BitVec.ofNat n (min (2 ^ n - 1) (a.toNat + b.toNat)))
  | .subsn .. => some (single fun n _ a b => BitVec.ofNat n (a.toNat - b.toNat))
  | .eq .. => some (single fun _ _ a b => truth (a = b))
  | .ne .. => some (single fun _ _ a b => truth (a ≠ b))
  | .lt .. => some (single fun _ _ a b => truth (a.toInt < b.toInt))
  | .le .. => some (single fun _ _ a b => truth (a.toInt ≤ b.toInt))
  | .ltn .. => some (single fun _ _ a b => truth (a.toNat < b.toNat))
  | .len .. => some (single fun _ _ a b => truth (a.toNat ≤ b.toNat))
  | .addi _ _ _ i _ => some (single fun n _ a _ => BitVec.ofInt n (a.toInt + i.toInt))
  | .andi _ _ _ i _ => some (single fun n _ a _ => a &&& BitVec.ofInt n i.toInt)
  | .ori _ _ _ i _ => some (single fun n _ a _ => a ||| BitVec.ofInt n i.toInt)
  | .xori _ _ _ i _ => some (single fun n _ a _ => a ^^^ BitVec.ofInt n i.toInt)
  | .shli _ _ _ k _ => some (single fun _ _ a _ => shiftLeft a k.toNat)
  | .shri _ _ _ k _ => some (single fun _ _ a _ => shiftRight a k.toNat)
  | .sari _ _ _ k _ => some (single fun _ _ a _ => shiftSigned a k.toNat)
  | .roti _ _ _ k _ => some (single fun _ _ a _ => rotated a k.toNat)
  | .slti _ _ _ i _ => some (single fun _ _ a _ => truth (a.toInt < i.toInt))
  | .sltni _ _ _ i _ => some (single fun n _ a _ => truth (a.toNat < (BitVec.ofInt n i.toInt).toNat))
  | _ => none

/-- Pair operands of a thread are one 64-bit number, and so is a c register of a stream (R16, R83, Table 4-1). -/
def pairs (f : DWord → DWord → DWord) (g : DWord → DWord → DWord := f) (b64 : Bool := true) : ResultRule :=
  ⟨6, 6, fun _ _ o => dwordWords (f (dwordOf o.a) (if b64 then dwordOf o.b else (wordOf o.b).zeroExtend 64)),
    fun o => g (dwordOf o.a) (dwordOf o.b)⟩

/-- A relation of two pairs (R83). -/
def pairTruth (p : DWord → DWord → Bool) : ResultRule :=
  ⟨6, 6, fun _ _ o => [truth (p (dwordOf o.a) (dwordOf o.b) = true)], fun o => truth (p (dwordOf o.a) (dwordOf o.b) = true)⟩

/-- Bits [31:0] read with or without their sign (R83). -/
def low32 (b : DWord) : Nat := b.toNat % 2 ^ 32
def low32s (b : DWord) : Int := (b.truncate 32).toInt

/-- Major 0x04 and the forms of R84 that are not one operation at two widths. -/
def pairRule : Instr → Option ResultRule
  | .add64 .. => some (pairs fun a b => BitVec.ofNat 64 (a.toNat + b.toNat))
  | .sub64 .. => some (pairs fun a b => BitVec.ofInt 64 (a.toNat - b.toNat))
  | .mul64 .. => some (pairs fun a b => BitVec.ofNat 64 (a.toNat * b.toNat))
  | .shl64 .. => some (pairs (fun a b => shiftLeft a b.toNat) (b64 := false))
  | .shr64 .. => some (pairs (fun a b => shiftRight a b.toNat) (b64 := false))
  | .sar64 .. => some (pairs (fun a b => shiftSigned a b.toNat) (b64 := false))
  | .eq64 .. => some (pairTruth fun a b => decide (a = b))
  | .lt64 .. => some (pairTruth fun a b => decide (a.toInt < b.toInt))
  | .ltn64 .. => some (pairTruth fun a b => decide (a.toNat < b.toNat))
  | .mov64 .. => some (pairs fun a _ => a)
  | .addx .. => some (pairs (fun a b => BitVec.ofInt 64 (a.toInt + low32s b)) (b64 := false))
  | .addxn .. => some (pairs (fun a b => BitVec.ofNat 64 (a.toNat + low32 b)) (b64 := false))
  | .addxi _ _ _ i _ => some ⟨4, 4, fun _ _ o => dwordWords (BitVec.ofInt 64 ((dwordOf o.a).toInt + i.toInt)),
      fun o => BitVec.ofInt 64 ((dwordOf o.a).toInt + i.toInt)⟩
  | .movh _ _ n _ => some ⟨4, 4, fun _ _ _ => [BitVec.ofNat 32 (n.toNat * 2 ^ 14)],
      fun _ => BitVec.ofInt 64 (BitVec.ofNat 32 (n.toNat * 2 ^ 14)).toInt⟩
  | .movl _ _ n _ => some ⟨4, 4, fun _ _ o => [BitVec.ofNat 32 ((wordOf o.d).toNat / 2 ^ 14 * 2 ^ 14 + n.toNat)],
      fun o => BitVec.ofNat 64 ((dwordOf o.d).toNat / 2 ^ 14 * 2 ^ 14 + n.toNat)⟩
  | _ => none

/-! ## Floating point (R102 to R110) -/

/-- The rounding of element `e`: RND and SAT of the payload, and the element's place in the dither matrix (R42, R103). -/
def rounding (i : Ins) (e : Nat) : RM := { mode := pbits i.alu 6 3, sat := i.alu.getLsbD 5, dith := ditherLane e }

/-- What an element operation delivers from the codes d, a and b. -/
abbrev Element := Fmt → RM → (d a b : Nat) → Nat

def floatWord (f : Element) (lo hi : Nat) : ResultRule :=
  ⟨lo, hi, fun i s o => [BitVec.ofNat 32 (f .f32 (rounding i s.th.lane) (wordOf o.d).toNat (wordOf o.a).toNat (wordOf o.b).toNat)], fun _ => 0⟩

def floatPair (f : Element) (lo hi : Nat) : ResultRule :=
  ⟨lo, hi, fun i s o => dwordWords (BitVec.ofNat 64
    (f .f64 (rounding i s.th.lane) (dwordOf o.d).toNat (dwordOf o.a).toNat (dwordOf o.b).toNat)), fun _ => 0⟩

/-- Bits [16h+15:16h] of an operand. -/
def half (v : BitVec 256) (h : Nat) : Nat := (wordOf v).toNat / 2 ^ (16 * h) % 2 ^ 16

def floatHalves (t : Fmt) (f : Element) (lo hi : Nat) : ResultRule :=
  ⟨lo, hi, fun i s o => [BitVec.ofNat 32 ((List.range 2).foldl (fun w h =>
    w + f t (rounding i (2 * s.th.lane + h)) (half o.d h) (half o.a h) (half o.b h) * 2 ^ (16 * h)) 0)], fun _ => 0⟩

/-- The operations of Table 5-2: the exact result of R106 rounded once, the extrema of R107, the sign changes of R105. -/
def exact1 (op : FX → FX) : Element := fun t r _ a _ => t.round r (op (t.decode a))
def exact2 (op : RM → FX → FX → FX) : Element := fun t r _ a b => t.round r (op r (t.decode a) (t.decode b))
def exact3 (op : RM → FX → FX → FX → FX) : Element := fun t r d a b => t.round r (op r (t.decode d) (t.decode a) (t.decode b))

def sumOp (r : RM) (a b : FX) : FX := sumFX (r.mode == 3) [a, b]
def differenceOp (r : RM) (a b : FX) : FX := sumFX (r.mode == 3) [a, b.flip]
def productSum (r : RM) (d a b : FX) : FX := sumFX (r.mode == 3) [d, mulFX a b]
def productDifference (r : RM) (d a b : FX) : FX := sumFX (r.mode == 3) [d, (mulFX a b).flip]

/-- 1 as a value. -/
def one : FX := .num false 1 0 false

/-- The compares of R108: two elements of packed words stand at bits 0 and 16. -/
def compares (t : Fmt) (p : Fmt → Nat → Nat → Bool) : ResultRule :=
  match t with
  | .f64 => ⟨8, 8, fun _ _ o => [truth (p t (dwordOf o.a).toNat (dwordOf o.b).toNat = true)], fun _ => 0⟩
  | .f32 => ⟨6, 6, fun _ _ o => [truth (p t (wordOf o.a).toNat (wordOf o.b).toNat = true)], fun _ => 0⟩
  | _ => ⟨6, 6, fun _ _ o => [BitVec.ofNat 32 ((p t (half o.a 0) (half o.b 0)).toNat + 2 ^ 16 * (p t (half o.a 1) (half o.b 1)).toNat)],
      fun _ => 0⟩

/-- Majors 0x18 to 0x1B (Table 5-2, R105 to R109), 0x1C (R110) and `fscl` (R115). -/
def floatRule : Instr → Option ResultRule
  | .faddS .. => some (floatWord (exact2 sumOp) 6 6)
  | .fsubS .. => some (floatWord (exact2 differenceOp) 6 6)
  | .fmulS .. => some (floatWord (exact2 fun _ => mulFX) 6 6)
  | .fminS .. => some (floatWord (fun t _ _ a b => fminmax t false a b) 6 6)
  | .fmaxS .. => some (floatWord (fun t _ _ a b => fminmax t true a b) 6 6)
  | .fdivS .. => some (floatWord (exact2 fun _ => divFX) 14 40)
  | .fsqrtS .. => some (floatWord (exact1 sqrtFX) 14 40)
  | .frcpS .. => some (floatWord (exact1 (divFX one)) 14 40)
  | .fabsS .. => some (floatWord (fun t _ _ a _ => a % 2 ^ t.signPos) 6 6)
  | .fnegS .. => some (floatWord (fun t _ _ a _ => (a % 2 ^ (t.signPos + 1)) ^^^ 2 ^ t.signPos) 6 6)
  | .fmaS .. => some (floatWord (exact3 productSum) 6 6)
  | .fnmaS .. => some (floatWord (exact3 productDifference) 6 6)
  | .feqS .. => some (compares .f32 feq)
  | .fltS .. => some (compares .f32 flt)
  | .fleS .. => some (compares .f32 fle)
  | .funS .. => some (compares .f32 fun2)
  | .faddD .. => some (floatPair (exact2 sumOp) 8 8)
  | .fsubD .. => some (floatPair (exact2 differenceOp) 8 8)
  | .fmulD .. => some (floatPair (exact2 fun _ => mulFX) 8 8)
  | .fminD .. => some (floatPair (fun t _ _ a b => fminmax t false a b) 8 8)
  | .fmaxD .. => some (floatPair (fun t _ _ a b => fminmax t true a b) 8 8)
  | .fdivD .. => some (floatPair (exact2 fun _ => divFX) 14 40)
  | .fsqrtD .. => some (floatPair (exact1 sqrtFX) 14 40)
  | .frcpD .. => some (floatPair (exact1 (divFX one)) 14 40)
  | .fabsD .. => some (floatPair (fun t _ _ a _ => a % 2 ^ t.signPos) 8 8)
  | .fnegD .. => some (floatPair (fun t _ _ a _ => (a % 2 ^ (t.signPos + 1)) ^^^ 2 ^ t.signPos) 8 8)
  | .fmaD .. => some (floatPair (exact3 productSum) 8 8)
  | .fnmaD .. => some (floatPair (exact3 productDifference) 8 8)
  | .feqD .. => some (compares .f64 feq)
  | .fltD .. => some (compares .f64 flt)
  | .fleD .. => some (compares .f64 fle)
  | .funD .. => some (compares .f64 fun2)
  | .faddH2 .. => some (floatHalves .f16 (exact2 sumOp) 6 6)
  | .fsubH2 .. => some (floatHalves .f16 (exact2 differenceOp) 6 6)
  | .fmulH2 .. => some (floatHalves .f16 (exact2 fun _ => mulFX) 6 6)
  | .fminH2 .. => some (floatHalves .f16 (fun t _ _ a b => fminmax t false a b) 6 6)
  | .fmaxH2 .. => some (floatHalves .f16 (fun t _ _ a b => fminmax t true a b) 6 6)
  | .fdivH2 .. => some (floatHalves .f16 (exact2 fun _ => divFX) 14 40)
  | .fsqrtH2 .. => some (floatHalves .f16 (exact1 sqrtFX) 14 40)
  | .frcpH2 .. => some (floatHalves .f16 (exact1 (divFX one)) 14 40)
  | .fabsH2 .. => some (floatHalves .f16 (fun t _ _ a _ => a % 2 ^ t.signPos) 6 6)
  | .fnegH2 .. => some (floatHalves .f16 (fun t _ _ a _ => (a % 2 ^ (t.signPos + 1)) ^^^ 2 ^ t.signPos) 6 6)
  | .fmaH2 .. => some (floatHalves .f16 (exact3 productSum) 6 6)
  | .fnmaH2 .. => some (floatHalves .f16 (exact3 productDifference) 6 6)
  | .feqH2 .. => some (compares .f16 feq)
  | .fltH2 .. => some (compares .f16 flt)
  | .fleH2 .. => some (compares .f16 fle)
  | .funH2 .. => some (compares .f16 fun2)
  | .faddB2 .. => some (floatHalves .bf16 (exact2 sumOp) 6 6)
  | .fsubB2 .. => some (floatHalves .bf16 (exact2 differenceOp) 6 6)
  | .fmulB2 .. => some (floatHalves .bf16 (exact2 fun _ => mulFX) 6 6)
  | .fminB2 .. => some (floatHalves .bf16 (fun t _ _ a b => fminmax t false a b) 6 6)
  | .fmaxB2 .. => some (floatHalves .bf16 (fun t _ _ a b => fminmax t true a b) 6 6)
  | .fdivB2 .. => some (floatHalves .bf16 (exact2 fun _ => divFX) 14 40)
  | .fsqrtB2 .. => some (floatHalves .bf16 (exact1 sqrtFX) 14 40)
  | .frcpB2 .. => some (floatHalves .bf16 (exact1 (divFX one)) 14 40)
  | .fabsB2 .. => some (floatHalves .bf16 (fun t _ _ a _ => a % 2 ^ t.signPos) 6 6)
  | .fnegB2 .. => some (floatHalves .bf16 (fun t _ _ a _ => (a % 2 ^ (t.signPos + 1)) ^^^ 2 ^ t.signPos) 6 6)
  | .fmaB2 .. => some (floatHalves .bf16 (exact3 productSum) 6 6)
  | .fnmaB2 .. => some (floatHalves .bf16 (exact3 productDifference) 6 6)
  | .feqB2 .. => some (compares .bf16 feq)
  | .fltB2 .. => some (compares .bf16 flt)
  | .fleB2 .. => some (compares .bf16 fle)
  | .funB2 .. => some (compares .bf16 fun2)
  | .fexp2 .. => some (floatWord (exact1 exp2FX) 14 40)
  | .flog2 .. => some (floatWord (exact1 log2FX) 14 40)
  | .fsin .. => some (floatWord (exact1 sinFX) 14 40)
  | .fcos .. => some (floatWord (exact1 cosFX) 14 40)
  | .frsq .. => some (floatWord (exact1 rsqFX) 14 40)
  | .ftanh .. => some (floatWord (exact1 tanhFX) 14 40)
  | .fscl .. => some (floatWord (fun t r _ x n => t.round r (scaleFX (t.decode x) (fsclExp (BitVec.ofNat 32 n)))) 6 6)
  | _ => none

/-- Whether a code of `cvt` has a 64-bit operand or result (R104). -/
def wideCode (c : Nat) : Bool := [1, 6, 7].contains (c / 16) || [1, 14, 15].contains (c % 16)

/-- Major 0x1D but `fscl`: conversions and classes (R111 to R114). -/
def convertRule : Instr → Option ResultRule
  | .cvt _ _ _ c _ =>
    let l := if wideCode c.toNat then 8 else 6
    some ⟨l, l, fun i s o => cvtDest (c.toNat % 16) (rounding i s.th.lane) (cvtSource (c.toNat / 16) o.a), fun _ => 0⟩
  | .cvtp _ _ _ c _ => some ⟨6, 6, fun i s o =>
      if c.toNat < 16 then [BitVec.ofNat 32 (packElems i (c.toNat % 16) 2 s.th.lane o.a)]
      else (List.range 2).map (fun j => toF32 (c.toNat % 16) (elemAt (wordOf o.a) (elemWidth (c.toNat % 16)) j)), fun _ => 0⟩
  | .cvtq _ _ _ c _ => some ⟨6, 6, fun i s o =>
      if c.toNat < 16 then [BitVec.ofNat 32 (packElems i (c.toNat % 16) 4 s.th.lane o.a)]
      else (List.range 4).map (fun j => toF32 (c.toNat % 16) (elemAt (wordOf o.a) (elemWidth (c.toNat % 16)) j)), fun _ => 0⟩
  | .fclass _ _ _ k _ =>
    let l := if k = 1 then 8 else 6
    some ⟨l, l, fun _ _ o => [classify k.toNat o.a], fun _ => 0⟩
  | _ => none

/-! ## Fields, payloads and operands (R15, R16, R18, R57 to R64, R140) -/

/-- A register field of the SIMT side is legal (Table 3-2, R16, R19, R57). -/
def FieldLegal (u : Use) : Prop :=
  if u.n ≠ 1 then u.f.toNat ≤ 95 ∧ u.f.toNat % u.n = 0 else if u.role = .src then u.f.toNat ≤ 125 else u.f.toNat ≤ 95 ∨ u.f.toNat = 112

/-- `n` bits of a payload from bit `lo` on. -/
def bitsFrom (p : BitVec 25) (lo n : Nat) : Nat := p.toNat / 2 ^ lo % 2 ^ n

/-- A pattern with its amount (Table 3-5). -/
def PatternLegal (pat amt : Nat) : Prop :=
  (pat = 0 ∧ amt = 0) ∨ pat = 2 ∨ ((pat = 1 ∨ pat = 3 ∨ pat = 5 ∨ pat = 6) ∧ amt ≠ 0) ∨ (pat = 4 ∧ 1 ≤ amt ∧ amt ≤ 5)

/-- Whether the payload adds `wi` to a position: [4] for d, [3] for a, [2] for b (Table 3-4). -/
def AddsWi (p : BitVec 25) : Slot → Prop
  | .d => bitsFrom p 4 1 = 1
  | .a => bitsFrom p 3 1 = 1
  | .b => bitsFrom p 2 1 = 1
  | .x => False

/-- ACQ, REL, SCOPE and SMASK (R62, R64). -/
def OrderLegal (p : BitVec 25) : Prop :=
  if bitsFrom p 24 1 = 0 ∧ bitsFrom p 23 1 = 0 then bitsFrom p 20 3 = 0 ∧ bitsFrom p 17 3 = 0 else bitsFrom p 17 3 ≠ 0

/-- A payload that a word accepts, or none where it needs none (Table 3-3, R61 to R64, R78, R96, R103, R231, R234, R240, R327). -/
def PayloadLegal (sh : Shape) : Payload → Prop
  | none => sh.pk ≠ .coll ∧ sh.pk ≠ .mem .ldmc
  | some p => match sh.pk with
    | .none => False
    | .zero => p = 0
    | .coll => bitsFrom p 0 18 = 0 ∧ bitsFrom p 18 7 ≤ 125
    | .tile mods => OrderLegal p ∧ (bitsFrom p 12 1 = 0 → bitsFrom p 13 4 = 0) ∧ ∀ k < 12, mods.getLsbD k = false → p.getLsbD k = false
    | .alu rounds useA useB =>
      PatternLegal (bitsFrom p 22 3) (bitsFrom p 17 5) ∧ PatternLegal (bitsFrom p 14 3) (bitsFrom p 9 5)
      ∧ (useA = false → bitsFrom p 22 3 = 0 ∧ bitsFrom p 17 5 = 0 ∧ bitsFrom p 3 1 = 0)
      ∧ (useB = false → bitsFrom p 14 3 = 0 ∧ bitsFrom p 9 5 = 0 ∧ bitsFrom p 2 1 = 0)
      ∧ (∀ u ∈ sh.uses, u.slot ≠ .x → AddsWi p u.slot → u.f.toNat ≤ 95)
      ∧ (rounds = false → bitsFrom p 6 3 = 0 ∧ bitsFrom p 5 1 = 0) ∧ bitsFrom p 6 3 ≤ 5 ∧ bitsFrom p 0 2 = 0
      ∧ ∀ u ∈ sh.uses, u.slot = .a → u.n = 4 → bitsFrom p 22 3 = 0
    | .mem k => OrderLegal p ∧ bitsFrom p 0 8 = 0 ∧ match k with
      | .load => bitsFrom p 23 1 = 0 ∧ bitsFrom p 8 7 = 0 ∧ (bitsFrom p 24 1 = 1 → bitsFrom p 18 2 ≠ 0)
      | .store => bitsFrom p 24 1 = 0 ∧ bitsFrom p 8 7 = 0 ∧ (bitsFrom p 23 1 = 1 → bitsFrom p 18 2 ≠ 0)
      | .sload => bitsFrom p 23 1 = 0 ∧ bitsFrom p 8 7 = 0 ∧ (bitsFrom p 24 1 = 1 → bitsFrom p 15 2 = 0 ∧ bitsFrom p 17 1 = 1)
      | .sstore => bitsFrom p 24 1 = 0 ∧ bitsFrom p 8 7 = 0 ∧ (bitsFrom p 23 1 = 1 → bitsFrom p 15 2 = 0 ∧ bitsFrom p 17 1 = 1)
      | .atomic => bitsFrom p 15 2 = 0 ∧ bitsFrom p 8 7 = 0
      | .ldmc => bitsFrom p 23 1 = 0 ∧ bitsFrom p 15 2 = 0 ∧ (bitsFrom p 24 1 = 1 → bitsFrom p 18 2 ≠ 0)
        ∧ bitsFrom p 8 7 ≤ 94 ∧ bitsFrom p 8 7 % 2 = 0

/-- The physical index of a register field of the acting thread: its window base, the field, and `wi` where the payload adds it (R15). -/
def indexOf (s : State) (i : Ins) (u : Use) : Nat :=
  s.th.wb + u.f.toNat + (if wiAt i.alu u.slot then s.warp.wi else 0)

/-- A register field fails its bounds at index `p`: its first register is beyond the warp's, or not aligned once `wi` is added, or its last one is
beyond (R15, R16, R57, R78, R103). -/
def FailsBounds (s : State) (i : Ins) (u : Use) (p : Nat) : Prop :=
  let k := indexOf s i u
  let first := s.warp.regsPer ≤ k ∨ (wiAt i.alu u.slot = true ∧ k % u.n ≠ 0)
  u.f.toNat ≤ 95 ∧ ((first ∧ p = k) ∨ (¬ first ∧ s.warp.regsPer < k + u.n ∧ p = k + u.n - 1))

/-- The lane that a pattern reads from lane `l`; none where it fills with zero (Table 7-1). -/
def laneFrom (pat amt l : Nat) : Option Nat :=
  match pat with
  | 1 => some ((l + amt) % 32)
  | 2 => some amt
  | 3 => some (l ^^^ amt)
  | 4 => some (l ^^^ (2 ^ amt - 1))
  | 5 => if l < amt then none else some (l - amt)
  | _ => if 31 < l + amt then none else some (l + amt)

/-- The thread whose registers an operand reads: the acting one, or under a pattern the living one at the source lane of its warp (R61, R130,
R140). -/
def readFrom (s : State) (i : Ins) (u : Use) : Option Thread :=
  let read := fun (pat amt : Nat) => if pat = 0 then some s.th else (laneFrom pat amt s.th.lane).bind (fun l =>
    if l = s.th.lane then some s.th else s.pl.threads.find? (fun t => t.live && t.is s.th.slot l))
  match u.slot with
  | .a => read (bitsFrom i.alu 22 3) (bitsFrom i.alu 17 5)
  | .b => read (bitsFrom i.alu 14 3) (bitsFrom i.alu 9 5)
  | _ => some s.th

/-- The value of a special register for a thread (Table 1-3). -/
def specialOf (s : State) (t : Thread) (f : Nat) : Word :=
  let w := s.warpAt t.slot
  let num : Nat := match f with
    | 113 => t.lane
    | 114 => t.tid
    | 115 => w.wid
    | 116 => w.bid
    | 117 => w.gsz
    | 118 => w.nthr
    | 119 => w.role
    | 120 => s.clock.cycle
    | 121 => s.clock.tbase
    | 122 => match t.tcap with | some v => v.toNat | none => s.clock.tbase / 2 ^ 32
    | 123 => s.coreNo
    | 124 => s.coreNo / 4
    | 125 => s.coreNo / 288
    | _ => 0
  if f ≤ 111 then stGet 0 w.consts (f - 96) else BitVec.ofNat 32 num

/-- The value of the operands at a position. -/
def valueAt (o : Opnds) : Slot → BitVec 256
  | .a => o.a
  | .b => o.b
  | .d => o.d
  | .x => o.x

/-- An operand reads a poisoned register `p` (R140, R357). -/
def ReadsPoison (s : State) (i : Ins) (u : Use) (p : Nat) : Prop :=
  u.role ≠ .dst ∧ u.f.toNat ≤ 95 ∧ indexOf s i u ≤ p ∧ p < indexOf s i u + u.n ∧ ∃ t, readFrom s i u = some t ∧ p ∈ t.poisoned

/-- A thread with free values in its poisoned registers, and a state of such threads (log entry 81). -/
def withFreed (k : Nat) (t : Thread) : Thread :=
  { t with regs := t.poisoned.foldl (fun r p => stSet 0 r p (Config.freeReg k t.uid p)) t.regs }

def withFreedAll (s : State) : State :=
  { s with th := withFreed s.freeCtr s.th, pl := { s.pl with threads := s.pl.threads.map (withFreed s.freeCtr) } }

/-! ## Next states -/

/-- The capture that a read of `tnow` leaves outstanding: bits [63:32] of the time base, 12 cycles from issue (R18). -/
def captures (i : Ins) (s : State) (tag : Nat) : List (Result 32) :=
  if i.sh.uses.any (fun u => u.role != .dst && u.f == 121) then
    [{ tag := tag, regs := [], cap := .tnow (BitVec.ofNat 32 (s.clock.tbase / 2 ^ 32)), issued := s.clock.cycle, minLat := 12, maxLat := some 12 }]
  else []

/-- The acting thread's results `rs` become outstanding and it goes on at `pc`; with S set and a result outstanding, it waits first
(R26, R28). No capture waits with it for its instruction. Nothing else changes but the count of the model's own numbers. -/
def goesOn (i : Ins) (rs : List (Result 32)) (pc : PC) (s : State) : State :=
  { s with
    nextId := s.nextId + rs.length
    th := { s.th with
      pc := pc
      pend := s.th.pend ++ rs
      held := none
      park := if i.word.msb && !(s.th.pend ++ rs).isEmpty then .switch else .none } }

/-- The registers that the words of a result go to: consecutive ones from the destination on, none for the discard register (R16, R19). -/
def targets (o : Opnds) (ws : List Word) : List (Nat × Word) :=
  match o.pd with
  | none => []
  | some p => ws.zipIdx.map (fun x => (p + x.2, x.1))

/-- The result of known words with a latency from `lo` to `hi` (R26, R30). -/
def resultOf (o : Opnds) (ws : List Word) (lo hi : Nat) (s : State) : Result 32 :=
  { tag := s.nextId, regs := targets o ws, issued := s.clock.cycle, minLat := lo, maxLat := some hi }

/-- The next state of an instruction whose one effect is its result. -/
def afterResult (r : ResultRule) (i : Ins) (s : State) : State :=
  goesOn i (resultOf (operands i s) (r.thread i s (operands i s)) r.lo r.hi s :: captures i s (s.nextId + 1))
    (s.th.pc + if i.p.isSome then 8 else 4) s

/-- The same for the acting stream (R79, R277): one c register, none for c0. -/
def afterResultS (r : ResultRule) (i : Ins) (s : State) : State :=
  let o := operandsC i s
  { s with
    nextId := s.nextId + 1
    sq := { s.sq with
      pc := s.sq.pc + if i.p.isSome then 8 else 4
      pend := s.sq.pend ++ [{ tag := s.nextId, regs := o.pd.toList.map (fun p => (p, r.stream o)), issued := s.clock.cycle, minLat := r.lo, maxLat := some r.hi }]
      park := if i.word.msb then .switch else .none } }

end Sys2Proof.Rules
end

