-- ==== Sys2Proof/Certificates/Slice0/ControlRules.lean ====
section
/-! DEFINITION. The tables of the specification as the statements about control use them: transfers of control, traps, ends of
threads, fences, barriers and the other instructions that a thread may wait in. -/

namespace Sys2Proof.Rules

open Sys2Proof Sys2Proof.Machine

/-- An instruction of a thread that has passed every check that comes before its effect (R23, R24). -/
def Executes (i : Instr) (s : State) : Prop := s.actor ≠ .stream ∧ checkFail i.ins s = none

/-- A trap, a breakpoint or an illegal word takes its trap: the first two are checked as every instruction is; the words of no
instruction have no other check (R60, R66, R89). -/
def TrapsNow (i : Instr) (s : State) : Prop := s.actor ≠ .stream ∧ (i.shape.simt = true → checkFail i.ins s = none)

/-- An instruction that the acting stream may run (R59, R67). -/
def Streams (i : Instr) (s : State) : Prop := s.actor = .stream ∧ streamOk i.ins = true

/-! ## Branches, jumps and calls (R14, R56, R85, R86) -/

/-- The target of a word offset: sign-extended, times 4, added to the address of the instruction (R56). -/
def branchTo (pc : PC) (off : Int) : DWord := BitVec.ofInt 64 ((pc64 pc).toInt + 4 * off)

/-- Where control goes: the next word, or a value for the PC. `a` is the register of a condition and `v` that of a jump. -/
def transfer (pc : PC) (a : Int) (v : DWord) : Instr → Option (Option DWord)
  | .bz _ _ o => some (if a = 0 then some (branchTo pc o.toInt) else none)
  | .bnz _ _ o => some (if a ≠ 0 then some (branchTo pc o.toInt) else none)
  | .bltz _ _ o => some (if a < 0 then some (branchTo pc o.toInt) else none)
  | .bgez _ _ o => some (if a ≥ 0 then some (branchTo pc o.toInt) else none)
  | .jmp _ o => some (some (branchTo pc o.toInt))
  | .jr .. => some (some v)
  | .nop _ => some none
  | _ => none

/-- The target of a call. -/
def callTarget (pc : PC) (v : DWord) : Instr → Option DWord
  | .call _ o => some (branchTo pc o.toInt)
  | .callr .. => some v
  | _ => none

/-- An instruction that only goes on, at `pc`. -/
def onlyGoes (i : Ins) (pc : PC) (s : State) : State := goesOn i (captures i s s.nextId) pc s

/-- The same with the next word. -/
def steps (i : Ins) (s : State) : State := onlyGoes i (s.th.pc + if i.p.isSome then 8 else 4) s

/-- A stream goes on at `pc` (R277). -/
def onlyGoesS (i : Ins) (pc : PC) (s : State) : State :=
  { s with sq := { s.sq with pc := pc, park := if i.word.msb && !s.sq.pend.isEmpty then .switch else .none } }

/-- What R12 and R24 refuse of a value for the PC, and what becomes of a thread. -/
def arrives (i : Ins) (v : DWord) (s : State) : State :=
  if canonical v = false then raise { cause := .addrCanon, addr := v } s
  else if v.toNat % 4 ≠ 0 then raise { cause := .instAlign, addr := v } s
  else onlyGoes i (v.truncate 57) s

/-- The same of a stream, with the stop causes of Table 14-2. -/
def arrivesS (i : Ins) (v : DWord) (s : State) : State :=
  if canonical v = false then stopStream 4 s
  else if v.toNat % 4 ≠ 0 then stopStream 3 s
  else onlyGoesS i (v.truncate 57) s

/-! ## Addresses and value times (R25, R214, R374) -/

/-- No TLB that the core asks holds an address with an access. -/
def Unmapped (s : State) (va : DWord) (acc : Acc) : Prop :=
  tlbHit s.xl.coreTlb s.ctxNo va.toNat acc = none ∧ tlbHit s.xl.clusterTlb s.ctxNo va.toNat acc = none ∧ tlbHit s.xl.dieTlb s.ctxNo va.toNat acc = none

/-- The acting thread waits for the walk of an address, and issues its instruction again after it. -/
def walksFor (va : DWord) (acc : Acc) (s : State) : State :=
  { wantWalk s.ctxNo va.toNat acc s with th := { s.th with park := .walk va.toNat acc } }

/-- The value time of a read that was served joins the acting thread's PCT and the largest WCT it has recorded (R214, R245). -/
def sees (vt : Option Nat) (s : State) : State :=
  { s with th := { s.th with pct := max s.th.pct (vt.getD 0), wctMax := max s.th.wctMax (vt.getD 0) } }

/-! ## Traps (R89, R343 to R351) -/

/-- The instructions whose rules admit no POISON trap (R195, R247, R257), each with the latency of its result, if it has one, and whether
the next instruction of its thread waits for that. -/
def quietRule : Instr → Option (Option Nat × Bool)
  | .pref .. => some (none, false)
  | .watch .. => some (some 4, true)
  | .unwatch .. => some (some 4, true)
  | .wgrow .. => some (some 12, true)
  | .wshrink .. => some (some 12, true)
  | .poolReq .. => some (some 12, false)
  | .poolRel .. => some (some 12, true)
  | .poolMap .. => some (some 4, false)
  | .poolOcc .. => some (some 4, false)
  | .tstate .. => some (some 4, false)
  | .tmark .. => some (some 12, false)
  | _ => none

/-- The cause number of Table 18-1, `TINFO`, and the distance from the instruction to the address that is saved. -/
def trapRule : Instr → Option (Nat × Word × PC)
  | .trap _ n => some (11, n.zeroExtend 32, 4)
  | .brk _ n => some (12, n.zeroExtend 32, 0)
  | .reservedMajor w => some (1, w, 0)
  | .pfxWord p w => some (1, pairFault p w, 0)
  | _ => none

/-- The thread in its handler: the frame of Table 18-2, the saved window base, the window at the last eight registers, the PC of
the context's handler (R346). The results that were outstanding have completed. -/
def inHandler (cause : Nat) (trpc addr : DWord) (info : Word) (s : State) : State :=
  let t := s.th.completeAll
  { s with th := { t with
      frame := { trpc := trpc, tcause := BitVec.ofNat 32 cause, taddr := addr, tinfo := info }
      swb := t.wb, wb := s.warp.regsPer - 8, inh := true, pc := s.curCtx.hvec.truncate 57, park := .none, smark := false, held := none, got := none } }

/-- A handler can be entered at once: a vector is set and meets R12, the thread is in no handler, and its results can complete. -/
def CanTrap (s : State) : Prop :=
  s.th.allReady = true ∧ s.th.inh = false ∧ s.curCtx.hvec ≠ 0 ∧ canonical s.curCtx.hvec = true ∧ s.curCtx.hvec.toNat % 4 = 0

/-- The cause numbers of Table 18-1. -/
def causeTable : List (Cause × Nat) :=
  [(.illegal, 1), (.instAlign, 2), (.addrCanon, 3), (.align, 4), (.scratchBounds, 5), (.regBounds, 6), (.ifetch, 7), (.page, 8), (.prot, 9),
   (.poison, 10), (.swTrap, 11), (.brk, 12), (.collSelf, 16), (.collExited, 17), (.collMismatch, 18), (.fmtDiverge, 19), (.fmtInvalid, 20),
   (.barArg, 24), (.barBusy, 25), (.barNone, 26), (.xredNone, 27), (.fetchErr, 28), (.cascade, 32)]

/-- What precedes an instruction while a deferred trap of the thread is pending: the trap is taken in front of it, with DEFER set, once every
result can complete; until then it stays pending, and the thread waits (R29, R87, R267, R348, R353). -/
def TakesDeferred (i : Instr) (d : Deferred) (s : State) : Prop :=
  let u : State := { s with th := { s.th with deferred := none } }
  s.th.deferred = some d → s.th.inh = false →
  (CanTrap s → exec i s = .next (inHandler (32 + 256) (pc64 s.th.pc) d.gran
    (BitVec.ofNat 32 (d.aid % 512 + 512 * (d.depth % 16) + 65536 * min d.more 65535)) u))
  ∧ (s.th.allReady = true → s.curCtx.hvec = 0 → exec i s = .next (killThread 33 (pc64 s.th.pc) { u with th := u.th.completeAll }))
  ∧ (s.th.allReady = false → exec i s = .next { s with th := { s.th with park := .switch, smark := false } })

/-! ## Waiting inside an instruction -/

/-- The acting thread stays in its instruction, parked; it goes on at `pc`, after its results if S is set (R28, R122). The instruction's
own capture becomes outstanding when it ends (R18, R29). -/
def waitsAt (i : Ins) (pc : PC) (pk : Park) (s : State) : State :=
  { s with
    nextId := s.nextId + (captures i s s.nextId).length
    th := { s.th with held := (captures i s s.nextId).head?, npc := pc, smark := i.word.msb, park := pk } }

/-- The same, to go on at the next word. -/
def waitsIn (i : Ins) (pk : Park) (s : State) : State := waitsAt i (s.th.pc + if i.p.isSome then 8 else 4) pk s

/-- The instruction of the acting thread is over, with a result in register `p`, and its capture (R18, R26, R28). -/
def overWith (regs : List (Nat × Word)) (lat : Nat) (s : State) : State :=
  let rs := s.th.pend ++ [{ tag := s.nextId, regs := regs, issued := s.clock.cycle, minLat := lat, maxLat := some lat : Result 32 }] ++ s.th.held.toList
  { s with
    nextId := s.nextId + 1
    th := { s.th with pend := rs, held := none, pc := s.th.npc, park := if s.th.smark then .switch else .none } }

/-- A result that has just been made outstanding (R26, R30); none for no greatest latency. -/
def outstanding (regs : List (Nat × Word)) (lo : Nat) (hi : Option Nat) (ready : Bool) (s : State) : Result 32 :=
  { tag := s.nextId, regs := regs, ready := ready, issued := s.clock.cycle, minLat := lo, maxLat := hi }

/-- The acting thread goes on at the next word with one more result outstanding. -/
def finishWith (i : Ins) (regs : List (Nat × Word)) (lo : Nat) (hi : Option Nat) (ready : Bool) (s : State) : State :=
  goesOn i (outstanding regs lo hi ready s :: captures i s (s.nextId + 1)) (s.th.pc + if i.p.isSome then 8 else 4) s

/-- The acting thread's next instruction waits for every outstanding result, as under S (R195, R257). -/
def awaits (s : State) : State := { s with th := { s.th with park := .switch } }

/-- The acting stream goes on with one more result outstanding (R277); c0 takes none. -/
def finishWithS (i : Ins) (regs : List (Nat × DWord)) (lo : Nat) (hi : Option Nat) (ready : Bool) (s : State) : State :=
  { s with
    nextId := s.nextId + 1
    sq := { s.sq with
      pc := s.sq.pc + if i.p.isSome then 8 else 4
      pend := s.sq.pend ++ [{ tag := s.nextId, regs := regs, ready := ready, issued := s.clock.cycle, minLat := lo, maxLat := hi }]
      park := if i.word.msb then .switch else .none } }

/-- The acting stream stays in its instruction. -/
def waitsInS (i : Ins) (pk : SPark) (s : State) : State :=
  { s with sq := { s.sq with npc := s.sq.pc + (if i.p.isSome then 8 else 4), smark := i.word.msb, park := pk } }

/-! ## Exile (R132, R153) -/

/-- The offset of a `brx` and its condition. -/
def exileRule : Instr → Option (Int × (Int → Bool))
  | .brxZ _ _ o => some (o.toInt, fun a => decide (a = 0))
  | .brxNz _ _ o => some (o.toInt, fun a => decide (a ≠ 0))
  | .brxLtz _ _ o => some (o.toInt, fun a => decide (a < 0))
  | .brxGez _ _ o => some (o.toInt, fun a => decide (a ≥ 0))
  | _ => none

/-- The acting thread is in the bundle that issues. -/
def inBundle (s : State) : Bool := s.bundleAll.any (fun b => s.th.is b.1 b.2)

/-- The threads of the bundle at the acting thread's instruction that go one way: `b` for those that take the branch. -/
def voters (i : Instr) (p : Int → Bool) (b : Bool) (s : State) : List Thread :=
  s.living.filter (fun t => s.bundleAll.any (fun x => t.is x.1 x.2) && t.pc == s.th.pc && decide (t.park = .none)
    && (checkFail i.ins { s with th := t }).isNone && p (wordOf (operands i.ins { s with th := t }).a).toInt == b)

/-- The side that a split exiles: 1 the takers, 2 the others, 0 none; the smaller one, if the records that it can make find a place. -/
def exiledSide (i : Instr) (p : Int → Bool) (off : Int) (s : State) : Nat :=
  let takers := decide ((voters i p true s).length ≤ (voters i p false s).length)
  let entry : PC := if takers then (branchTo s.th.pc off).truncate 57 else s.th.pc + 4
  let out := (voters i p takers s).filter (fun t => (recFail entry { s with th := t }).isNone)
  if canExile s out (fun _ => entry) then (if takers then 1 else 2) else 0

/-- A place in the core queue, and in the tree's counter, that is kept for the record of a thread that still has results outstanding; none where
none is left (R153). -/
def keptPlace (s : State) : Option State := if treeCanAdd s s.warp.tree 1 then corePlace s else none

/-- The ordinary branch of a `brx`. -/
def branches (i : Instr) (off : Int) (taken : Bool) (s : State) : State :=
  if taken then arrives i.ins (branchTo s.th.pc off) s else steps i.ins s

/-! ## Reads of state (R101, R151, R152, R201 to R203, R318) -/

/-- The value of a 4-cycle status read of a thread, from the value of its operand; none for another instruction. -/
def statusRule (a : Nat) (s : State) : Instr → Option Word
  | .poolMap .. => some (if a < 32 then
      let b := bankOf s.pl.pmap a
      BitVec.ofNat 32 (b.tag % 64 + 2 ^ 8 * roleCode b.role + (if b.busy then 2 ^ 11 else 0)) else 0xFFFFFFFF)
  | .tstate .. => some (match s.warp.block.bind (fun h => tileAt s h a) with
      | none => 0x80000000
      | some t => BitVec.ofNat 32 ((match t.st with | .empty => 0 | .filling => 1 | .ready => 2 | .draining => 3) + 2 ^ 5 * t.bank + 2 ^ 10 * (t.readers % 64)))
  | .csrr _ _ n => if csrOk s n.toNat false then some (csrValue s n.toNat) else none
  | .nbTest _ _ _ n => s.thBlock.map (fun b => truth ((barOf b n.toNat).phase ≠ a % 65536))
  | .nbStat _ _ e n => s.thBlock.map (fun b => let r := barOf b n.toNat
      match e.toNat with
      | 0 => r.status
      | 1 => r.last
      | 2 => BitVec.ofNat 32 r.count
      | 3 => BitVec.ofNat 32 r.pending
      | _ => BitVec.ofNat 32 r.phase)
  | .nbWait _ _ _ n => if s.th.deferred.isSome && !s.th.inh then none else s.thBlock.bind (fun b => if (barOf b n.toNat).phase ≠ a % 65536 then some (barOf b n.toNat).last else none)
  | .vrgat .. => if a ≤ 511 ∧ s.th.wb + a < s.warp.regsPer ∧ !s.th.poisoned.contains (s.th.wb + a) then some (stGet 0 s.th.regs (s.th.wb + a)) else none
  | _ => none

/-- The same of a stream. -/
def statusRuleS (a : DWord) (s : State) : Instr → Option DWord
  | .sbarWait _ _ _ n => (s.block? s.sq.block).bind (fun b =>
      if (barOf b n.toNat).phase ≠ a.toNat % 65536 then some ((barOf b n.toNat).last.zeroExtend 64) else none)
  | .xrd _ _ k _ =>
    let want := a.toNat % 2 ^ 32
    if want = 0 ∨ (stGet 0 s.sq.xseq k.toNat + 2 ^ 32 - want) % 2 ^ 32 < 2 ^ 31 then some (stGet 0 s.sq.xval k.toNat) else none
  | .sstat _ _ e => match e.toNat with
      | 0 => some (mstat s)
      | 1 => some s.sq.tbconf
      | _ => some s.sq.mtmask
  | _ => none

/-- The operand of a stream's status read: the token of `sbar.wait`, the count of `xrd`. -/
def statusArg (s : State) : Instr → DWord
  | .sbarWait _ _ a _ => readC s.sq a.toNat
  | .xrd _ _ _ e => readC s.sq e.toNat
  | _ => 0

end Sys2Proof.Rules
end

