-- ==== Sys2Proof/Certificates/Slice0/MemoryRules.lean ====
section
/-! DEFINITION. The tables of the specification as the statements about memory use them: loads and stores, scratch, atomics, and the
requests that leave the core. -/

namespace Sys2Proof.Rules

open Sys2Proof Sys2Proof.Machine

/-! ## Global loads and stores (R94, R95) -/

/-- Size in bytes, whether the value is sign-extended, and the immediate, of a plain load (Table 4-6). -/
def loadForm : Instr → Option (Nat × Bool × BitVec 7)
  | .ldB _ _ _ n _ => some (1, false, n)
  | .ldBs _ _ _ n _ => some (1, true, n)
  | .ldH _ _ _ n _ => some (2, false, n)
  | .ldHs _ _ _ n _ => some (2, true, n)
  | .ldW _ _ _ n _ => some (4, false, n)
  | .ldD _ _ _ n _ => some (8, false, n)
  | .ldQ _ _ _ n _ => some (16, false, n)
  | .ldO _ _ _ n _ => some (32, false, n)
  | _ => none

/-- The same of a store. -/
def storeForm : Instr → Option (Nat × BitVec 7)
  | .stB _ _ _ n _ => some (1, n)
  | .stH _ _ _ n _ => some (2, n)
  | .stW _ _ _ n _ => some (4, n)
  | .stD _ _ _ n _ => some (8, n)
  | .stQ _ _ _ n _ => some (16, n)
  | .stO _ _ _ n _ => some (32, n)
  | _ => none

/-- The address of a global access: base plus the immediate times the size (R95). -/
def addressOf (base : DWord) (n : BitVec 7) (size : Nat) : DWord := BitVec.ofInt 64 (base.toInt + n.toInt * size)

/-- An address that R95 and R21 accept for an access of a size. -/
def AddressOk (a : DWord) (size : Nat) : Prop := canonical a = true ∧ a.toNat % size = 0

/-- The words that a load of little-endian bytes writes (R4, R94). -/
def loaded (size : Nat) (signed : Bool) (bs : List Byte) : List Word :=
  if size < 4 then
    [if signed then BitVec.ofInt 32 (BitVec.ofNat (8 * size) (leNat bs)).toInt else BitVec.ofNat 32 (leNat bs)]
  else (List.range (size / 4)).map (fun j => BitVec.ofNat 32 (leNat bs / 2 ^ (32 * j)))

/-- How many registers a load writes. -/
def loadRegs (size : Nat) : Nat := if size < 4 then 1 else size / 4

/-- Registers that a result writes later: their values are not known yet. -/
def blanks (o : Opnds) (n : Nat) : List (Nat × Word) := targets o (List.replicate n 0)

/-- The acting thread's instruction has the 64 bytes of the record at `h`, from its core or by the read of the home that it waited for; it
goes on in `u` (R154, R257, R330). -/
def HasRecord (h : Nat) (bs : List Byte) (s u : State) : Prop :=
  (s.th.got = none ∧ ∃ vt, loadPath s h 64 false = .value bs vt
    ∧ u = sees vt (l1Touch (lineOf h) s))
  ∨ (s.th.got = some (s.th.pc, h, some bs) ∧ u = { s with th := { s.th with got := none } })

/-- The latest byte that writes give an address. -/
def lastAt (ws : List (Nat × Byte)) (a : Nat) : Option Byte := ((ws.filter (fun x => x.1 == a)).map (·.2)).getLast?

/-- The bytes of the acting thread's stores that wait for a release point. -/
def waitingBytes (s : State) : List (Nat × Byte) := (ownQueue s s.th.uid).flatMap (fun q => if q.scratch.isSome then [] else q.ws)

/-- The dirty byte of the core at an address. -/
def dirtyAt (s : State) (a : Nat) : Option Byte :=
  (l1Find s (lineOf a)).bind (fun l => if l.dirty.testBit (a % 128) then some (stGet 0 l.bytes (a % 128)) else none)

/-- The byte that the acting thread's own stores give it while the home has not acknowledged them: of one that waits, else the core's dirty
byte, else of a write-through on its way (R22, R215). -/
def ownByteAt (s : State) (a : Nat) : Option Byte :=
  match lastAt (waitingBytes s) a, dirtyAt s a with
  | some v, _ => some v
  | none, some v => some v
  | none, none => lastAt (ownSent s s.th.uid) a

/-- The acting thread's bundle has no other load of the line: it is the last of the bundle, and no fill of the bundle is asked for (R97). -/
def AloneAt (line : Nat) (s : State) : Prop :=
  s.bundle = [] ∧ ∀ m ∈ s.pl.net, ∀ f, m.body = .fill f → f.bundle = s.bundleNo → f.line = line → f.reply.isSome = true

/-- A load that the home must serve at once (R232). -/
def servedAtHome (ord : MemOrd) : Bool := ord.acq && decide (ord.scope ≥ 4)

/-- An acquiring load at scope cluster or wider sends the line's dirty bytes home first (R216, R220), and no copy that may be older than
what the home gives stays in the core (R224). -/
def beforeAsking (ord : MemOrd) (h : Nat) (s : State) : State :=
  l1Renew h (if servedAtHome ord && !isX h then (writeBack (lineOf h) (.forced s.th.uid) s).2 else s)

/-- No fill of the acting bundle for the sector is on its way. -/
def NoFillToJoin (h : Nat) (s : State) : Prop :=
  ∀ m ∈ s.pl.net, ∀ f, m.body = .fill f → f.bundle = s.bundleNo → f.line = lineOf h → f.sec = h % 128 / 64 → f.reply.isSome = true

/-- A request of the acting thread has left, with a result that waits for it. -/
def asked (regs : List (Nat × Word)) (lat : Nat) (body : MsgBody) (s : State) : State :=
  { s with
    nextId := s.nextId + 2
    th := { s.th with pend := s.th.pend ++ [outstanding regs lat none false s] }
    pl := { s.pl with net := s.pl.net ++ [{ id := s.nextId + 1, body := body }] } }

/-- What waits for a load's bytes, and its fill request: the lease, and whether and how the line is kept (R210, R233). -/
def waitOf (va : DWord) (h size : Nat) (signed : Bool) (s : State) : LoadWait :=
  { slot := s.th.slot, lane := s.th.lane, pc := s.th.pc, tag := s.nextId, va := va, pa := h, size := size, signed := signed }

def fillOf (ord : MemOrd) (va : DWord) (h size : Nat) (signed : Bool) (s : State) : Fill :=
  { line := lineOf h, sec := h % 128 / 64
    lease := if ord.hint = 3 then 64 else s.curCtx.lease.toNat
    ctx := s.ctxNo, bundle := s.bundleNo, alloc := !isX h && ord.hint != 1, keep := ord.hint == 2, waits := [waitOf va h size signed s] }

/-- The instruction goes on, or, where it acquires, waits in itself for the result (R220). -/
def goesOrAcquires (ord : MemOrd) (i : Ins) (tag : Nat) (s : State) : State :=
  if ord.acq then waitsIn i (.acquire tag) s else steps i s

/-- An atomic that has issued goes on, or, where it acquires, waits in itself for its result (R220); its capture goes with that result (R18, R29). -/
def goesOrWaits (ord : MemOrd) (i : Ins) (tag : Nat) (s : State) : State :=
  let next := s.th.pc + if i.p.isSome then 8 else 4
  let t : Thread := { s.th with pend := s.th.pend ++ captures i s tag, held := none }
  { s with th := if ord.acq then { t with npc := next, smark := i.word.msb, park := .acquire tag }
      else { t with pc := next, park := if i.word.msb && !t.pend.isEmpty then .switch else .none } }

/-- A store or atomic joins the thread's queue and waits there for its release point (R219). -/
def queues (q : Queued) (s : State) : State := { s with nextId := s.nextId + 1, pl := { s.pl with storeQ := s.pl.storeQ ++ [q] } }

/-! ## Scratch (R94, R95) -/

/-- Registers and size of a scratch load, and of a scratch store. -/
def scratchLoadForm : Instr → Option (Nat × BitVec 7)
  | .ldsW _ _ _ n _ => some (4, n)
  | .ldsD _ _ _ n _ => some (8, n)
  | .ldsQ _ _ _ n _ => some (16, n)
  | _ => none

def scratchStoreForm : Instr → Option (Nat × BitVec 7)
  | .stsW _ _ _ n _ => some (4, n)
  | .stsD _ _ _ n _ => some (8, n)
  | .stsQ _ _ _ n _ => some (16, n)
  | _ => none

/-- The offset: the unsigned register plus the immediate times the size, not wrapped (R95). -/
def offsetOf (base : Word) (n : BitVec 7) (size : Nat) : Int := base.toNat + n.toInt * size

/-- An access of `size` bytes at an offset of the acting thread's block passes its checks and goes ahead (R95, R192). -/
def ScratchOk (off : Int) (size h : Nat) (s : State) : Prop :=
  s.warp.block = some h ∧ 0 ≤ off ∧ off % size = 0 ∧ off + size ≤ ((s.block? h).map (·.scratch)).getD 0 ∧ scratchHeld s = false

/-! ## Atomics (R235, R236, Table 11-2) -/

/-- The operation of an atomic: its number in Table 11-2. -/
def atomicForm : Instr → Option Nat
  | .amoAdd .. => some 0
  | .amoAnd .. => some 1
  | .amoOr .. => some 2
  | .amoXor .. => some 3
  | .amoMin .. => some 4
  | .amoMax .. => some 5
  | .amoMinn .. => some 6
  | .amoMaxn .. => some 7
  | .amoSwap .. => some 8
  | .amoCas .. => some 9
  | .amoFadd .. => some 10
  | .amoAddb2 .. => some 11
  | .amoAddh2 .. => some 12
  | .amoAdd64 .. => some 13
  | .amoCas64 .. => some 14
  | .amoInc .. => some 15
  | _ => none

def scratchAtomicForm : Instr → Option Nat
  | .samoAdd .. => some 0
  | .samoAnd .. => some 1
  | .samoOr .. => some 2
  | .samoXor .. => some 3
  | .samoMin .. => some 4
  | .samoMax .. => some 5
  | .samoMinn .. => some 6
  | .samoMaxn .. => some 7
  | .samoSwap .. => some 8
  | .samoCas .. => some 9
  | .samoFadd .. => some 10
  | .samoAddb2 .. => some 11
  | .samoAddh2 .. => some 12
  | .samoAdd64 .. => some 13
  | .samoCas64 .. => some 14
  | .samoInc .. => some 15
  | _ => none

/-- Bytes of an atomic's location. -/
def atomicBytes (f : Nat) : Nat := if f = 13 ∨ f = 14 then 8 else 4

/-- The sum of two codes of a format, rounded to nearest even as `fadd` is (R236). -/
def codeSum (t : Fmt) (x y : Nat) : Nat := t.round {} (sumFX false [t.decode x, t.decode y])

/-- The sum of each half of two words. -/
def halfSums (t : Fmt) (x y : Nat) : Nat :=
  codeSum t (x % 2 ^ 16) (y % 2 ^ 16) + 2 ^ 16 * codeSum t (x / 2 ^ 16 % 2 ^ 16) (y / 2 ^ 16 % 2 ^ 16)

/-- What an atomic writes, from the old value, b and (for a compare) d; none where a compare fails. -/
def atomicNew (f : Nat) (old b d : DWord) : Option Nat :=
  let x := old.toNat % 2 ^ 32
  let y := b.toNat % 2 ^ 32
  match f with
  | 0 => some ((x + y) % 2 ^ 32)
  | 1 => some (x &&& y)
  | 2 => some (x ||| y)
  | 3 => some (x ^^^ y)
  | 4 => some (if low32s old ≤ low32s b then x else y)
  | 5 => some (if low32s old ≥ low32s b then x else y)
  | 6 => some (min x y)
  | 7 => some (max x y)
  | 8 => some y
  | 9 => if x = d.toNat % 2 ^ 32 then some y else none
  | 10 => some (codeSum .f32 x y)
  | 11 => some (halfSums .bf16 x y)
  | 12 => some (halfSums .f16 x y)
  | 13 => some ((old.toNat + b.toNat) % 2 ^ 64)
  | 14 => if old = d then some b.toNat else none
  | 15 => some (if x ≥ y then 0 else x + 1)
  | _ => none

/-- The old value as the registers of the destination get it. -/
def oldWords (f : Nat) (old : DWord) : List Word := if atomicBytes f = 8 then dwordWords old else [old.truncate 32]

/-- The step of an atomic that leaves for its home or waits for its point. -/
def atomicStep (f : Nat) (va : DWord) (h : Nat) (o : Opnds) (s : State) : AtomicStep :=
  { uid := s.th.uid, tree := s.warp.tree, slot := s.th.slot, lane := s.th.lane, tag := s.nextId, f := f, va := va, pa := h
    b := dwordOf o.b, expect := dwordOf o.d, pc := s.th.pc }

/-- The state with the result that an atomic waits for. -/
def withBlank (regs : List (Nat × Word)) (lat : Nat) (s : State) : State :=
  { s with nextId := s.nextId + 1, th := { s.th with pend := s.th.pend ++ [outstanding regs lat none false s] } }

/-! ## Fences and ranges (R98, R219 to R221, R245, R246) -/

/-- Whether a fence acquires and releases, its agent scope and its mask. -/
def fenceRule : Instr → Option (Bool × Bool × Nat × BitVec 3)
  | .fence _ c m => some (true, true, c.toNat, m)
  | .fenceAcq _ c m => some (true, false, c.toNat, m)
  | .fenceRel _ c m => some (false, true, c.toNat, m)
  | _ => none

/-- No deferred trap stands before the instruction (R348). -/
def NoDeferred (s : State) : Prop := s.th.deferred = none ∨ s.th.inh = true

/-- The last byte of a range. -/
def lastByte (base : DWord) (len : Nat) : DWord := BitVec.ofInt 64 (base.toInt + len - 1)

/-! ## Translations (R374) -/

/-- A TLB with one more entry, which replaces one of its page; it holds the latest ones. -/
def tlbWith (size : Nat) (l : List TlbEnt) (e : TlbEnt) : List TlbEnt :=
  (e :: l.filter (fun x => decide (¬ (x.ctx = e.ctx ∧ x.vpage = e.vpage ∧ x.pages = e.pages)))).take size

/-- The core lacks the translation of a read, and the cluster, or else the die, holds it as `e`; the levels that lack it take it. -/
def AboveCore (va : DWord) (e : TlbEnt) (s u : State) : Prop :=
  tlbHit s.xl.coreTlb s.ctxNo va.toNat .read = none
  ∧ (tlbHit s.xl.clusterTlb s.ctxNo va.toNat .read = some e ∧ u = { s with xl := { s.xl with coreTlb := tlbWith 64 s.xl.coreTlb e } }
    ∨ tlbHit s.xl.clusterTlb s.ctxNo va.toNat .read = none ∧ tlbHit s.xl.dieTlb s.ctxNo va.toNat .read = some e
      ∧ u = { s with xl := { s.xl with coreTlb := tlbWith 64 s.xl.coreTlb e, clusterTlb := tlbWith 1024 s.xl.clusterTlb e } })

/-! ## Watched regions (R251, R252) -/

/-- A descriptor is valid (R252). -/
def WatchRecord (r : BitVec 512) : Prop :=
  let base := field r 0 64
  let len := field r 64 64
  let entry := field r 128 64
  let block := field r 192 64
  let args := field r 256 64
  let gran := 64 * 2 ^ field r 320 3
  let ok := fun (v : Nat) => canonical (BitVec.ofNat 64 v) = true
  r.toNat / 2 ^ 329 = 0 ∧ field r 320 3 ≤ 4 ∧ 1 ≤ field r 323 3 ∧ base % gran = 0 ∧ len ≠ 0 ∧ len % gran = 0
  ∧ ok base ∧ ok (base + len - 1) ∧ base + len - 1 ≤ 2 ^ 64 - 1 ∧ entry % 4 = 0 ∧ ok entry ∧ block % 128 = 0 ∧ ok block
  ∧ (args = 0 ∨ (args % 64 = 0 ∧ ok args))

/-! ## The pool (R196, R198, R202) -/

/-- A register count that R196 and R198 admit. -/
def RegCount (n : Nat) : Prop := n ≠ 0 ∧ n % 8 = 0 ∧ n ≤ 512

/-- The banks that a grow by `n` takes (R190): F, lowest first, then C beyond the floor of two, highest first; none where they do not
cover it. -/
def takenFor (n : Nat) (s : State) : Option (List Nat) :=
  let f := freeBanks s.pl.pmap
  let c := cacheBanks s.pl.pmap
  if n ≤ f.length then some (f.take n)
  else if n + 2 ≤ f.length + c.length then some (f ++ c.reverse.take (n - f.length))
  else none

/-- Banks change use at once where no line in them is dirty; else, unless the spill engine is at work, by a handshake (R189, R191). -/
def afterWriteBack (ks : List Nat) (u : BankUse) (slot : Nat) (s : State) : Nat × State :=
  if dirtyIn s ks = false then (0, giveBanks ks u s)
  else if standbyBusy s then (7, s)
  else (1, askShake (.writeback ks [] u (some slot)) (setBusy true ks s))

/-- Banks with a new role. -/
def withRole (r : Role) (ks : List Nat) (s : State) : State := { s with pl := { s.pl with pmap := ks.foldl (setRole r) s.pl.pmap } }

/-- Tiles of the block leave it, their banks free and their bytes gone. -/
def tilesGone (ts : List Tile) (s : State) : State := ts.foldl (fun s t => freeTile t (sramDrop t.key s)) s

/-- The one bank of an EXACT request (Table 9-8), `m` for M and else for C. -/
def exactRule (h k : Nat) (m : Bool) (slot : Nat) (s : State) : Nat × State :=
  let b := bankOf s.pl.pmap k
  if ∃ x ∈ bankOwners s k, x ≠ h then (4, s)
  else if b.busy then (2, s)
  else if b.role = .free then (0, if m then giveBanks [k] (.toTile h) s else withRole .cache [k] s)
  else if b.role = .cache then
    if m = false then (0, s) else if (cacheBanks s.pl.pmap).length ≤ 2 then (3, s) else afterWriteBack [k] (.toTile h) slot s
  else (2, s)

/-- The code and the effect of a well-formed `pool.req` of block `h` (Tables 9-4 and 9-8), for word `v`: OP in [31:30], ROLE in [29:27],
RELOC in [26], EXACT in [25], BANK in [20:16], COUNT in [4:0]. -/
def poolRule (h v slot : Nat) (s : State) : Nat × State :=
  let n := v % 32
  let f := freeBanks s.pl.pmap
  let c := cacheBanks s.pl.pmap
  let mine := tilesOf s h
  match v / 2 ^ 30, v / 2 ^ 27 % 8, v / 2 ^ 25 % 2 with
  | 0, 3, 0 => if f.length < n then (2, s) else (0, withRole .cache (f.take n) s)
  | 0, 4, 0 => match takenFor n s with
    | none => (3, s)
    | some ks => afterWriteBack ks (.toTile h) slot s
  | 0, r, 1 => exactRule h (v / 2 ^ 16 % 32) (r == 4) slot s
  | 1, 3, _ => if c.length < n + 2 then (3, s) else afterWriteBack (c.reverse.take n) .toFree slot s
  | 1, 4, _ =>
    if ∃ t ∈ mine.drop (mine.length - n), t.st ≠ .empty then (2, s) else (0, tilesGone (mine.drop (mine.length - n)) s)
  | _, _, _ =>
    if v / 2 ^ 26 % 2 = 0 then
      if n ≤ s.pl.arena.length ∧ arenaEnd s.pl.blocks ≤ 16384 * (s.pl.arena.length - n) then (0, trimArena s) else (2, s)
    else match relocPlan s n with
      | none => (2, s)
      | some moves =>
        if moves = [] then (0, trimArena s) else if standbyBusy s then (7, s) else (1, askShake (.reloc n [] (some slot)) s)

/-- The counts of Table 9-9. -/
def poolCount (s : State) (k : Nat) : Nat :=
  match k with
  | 0 => (banksOf s.pl.pmap .free).length
  | 1 => (banksOf s.pl.pmap .regs).length
  | 2 => (banksOf s.pl.pmap .scratch).length
  | 3 => (banksOf s.pl.pmap .cache).length
  | 4 => (banksOf s.pl.pmap .tile).length
  | 0x08 => freePages s
  | 0x10 => s.warp.regsPer
  | 0x11 => match s.warp.block with
    | none => s.warp.pages.length
    | some h => ((s.pl.warps.filter (·.block == some h)).map (·.pages.length)).sum
  | 0x12 => (s.thBlock.map (·.scratch)).getD 0
  | 0x13 => (s.thBlock.map (fun b => (tilesOf s b.handle).length)).getD 0
  | 0x18 => if s.warp.reqBusy then 1 else s.warp.lastReq
  | 0x28 => s.th.occCap.toNat
  | _ => 2 ^ 32 - 1

/-! ## Barriers, crossings and collectives (R128, R141 to R152) -/

/-- Barrier number, destination and whether the thread also waits, of an arrival. -/
def arrivalRule (o : Opnds) : Instr → Option (Nat × Option Nat × Bool)
  | .nbArrive _ _ n => some (n.toNat, o.pd, false)
  | .nbMeet _ _ n => some (n.toNat, o.pd, true)
  | _ => none

/-- Operation and number of a crossing register (Table 7-5's rows of `xred`). -/
def crossingRule : Instr → Option (Nat × Nat)
  | .xredAdd _ k _ _ => some (6, k.toNat)
  | .xredFadd _ k _ _ => some (7, k.toNat)
  | .xredMax _ k _ _ => some (8, k.toNat)
  | .xredOr _ k _ _ => some (9, k.toNat)
  | _ => none

/-- The number of a barrier that a block member names, for the trap of a free warp. -/
def barNumber : Instr → Option Word
  | .nbInit _ _ n => some (n.zeroExtend 32)
  | .nbArrive _ _ n => some (n.zeroExtend 32)
  | .nbWait _ _ _ n => some (n.zeroExtend 32)
  | .nbMeet _ _ n => some (n.zeroExtend 32)
  | .nbTest _ _ _ n => some (n.zeroExtend 32)
  | .nbStat _ _ _ n => some (n.zeroExtend 32)
  | _ => none

/-- The member of major 0x28. -/
def collectiveForm : Instr → Option Nat
  | .wvoteAny .. => some 0
  | .wvoteAll .. => some 1
  | .wballot .. => some 2
  | .wredAdd .. => some 3
  | .wredFadd .. => some 4
  | .wredMin .. => some 5
  | .wredMax .. => some 6
  | .wscanAdd .. => some 7
  | .wscanFadd .. => some 8
  | .wsegscanAdd .. => some 9
  | .wsegscanFadd .. => some 10
  | .wisect .. => some 11
  | .wnz .. => some 12
  | .wmm .. => some 13
  | .wsync .. => some 14
  | .wperm .. => some 15
  | _ => none

/-- The mask of a collective: its b register, every lane for `wmm` (R141, R146). -/
def memberMask (f : Nat) (o : Opnds) : Word := if f = 13 then BitVec.allOnes 32 else wordOf o.b

/-- What the acting thread brings to a collective, and the instance with it. -/
def arrivalOf (i : Ins) (o : Opnds) (s : State) : CollArrival :=
  { lane := s.th.lane, av := wordOf o.a, bv := wordOf o.b, dv := dwordOf o.d, fv := wordOf o.x, dst := o.pd, smark := i.word.msb }

def instanceWith (i : Ins) (f : Nat) (o : Opnds) (s : State) : Coll :=
  let c := (findColl s s.th.slot s.th.pc).getD { slot := s.th.slot, pc := s.th.pc, f := f, mask := memberMask f o, inh := s.th.inh }
  { c with got := c.got ++ [arrivalOf i o s] }

/-- The state in which the acting thread has arrived and waits. -/
def arrivedIn (i : Ins) (f : Nat) (o : Opnds) (s : State) : State := putColl (instanceWith i f o s) (waitsIn i .coll s)

/-- An instance is over: no member waits in it any more. -/
def instanceOver (c : Coll) (s : State) : State :=
  { s with pl := { s.pl with colls := s.pl.colls.filter (fun x => !(x.slot == c.slot && x.pc == c.pc)) } }

/-- Every arrived member does `f`, and the instance is over. -/
def membersEnd (c : Coll) (f : CollArrival → State → State) (s : State) : State :=
  c.got.foldl (fun s g => s.asThread c.slot g.lane (f g)) (instanceOver c s)

/-- Every arrived member takes a trap at the collective, and the instance is over (R122, R129). -/
def membersTrap (c : Coll) (t : CollArrival → Trap) (s : State) : State :=
  c.got.foldl (fun s g => s.updThreads (·.is c.slot g.lane) (fun x => { x with park := .trap (t g) (pc64 x.pc) false, held := none })) (instanceOver c s)

def collFails (c : Coll) (cause : Cause) (info : Word) (s : State) : State := membersTrap c (fun _ => { cause := cause, info := info }) s

/-- The reduction of R142 over the `2^k` lanes from `l` on, and the inclusive scan at lane `l` after `k` levels; an absent lane adds
nothing. -/
def laneTree {α : Type} (op : α → α → α) (x : Nat → Option α) : Nat → Nat → Option α
  | 0, l => x l
  | k + 1, l => comb op (laneTree op x k l) (laneTree op x k (l + 2 ^ k))

def laneScan {α : Type} (op : α → α → α) (x : Nat → Option α) : Nat → Nat → Option α
  | 0, l => x l
  | k + 1, l => if 2 ^ k ≤ l then comb op (laneScan op x k (l - 2 ^ k)) (laneScan op x k l) else laneScan op x k l

/-- An FP32 result, whose NaN is canonical (R34). -/
def noPayload (v : Word) : Word := if (Fmt.f32.decode v.toNat).isNan = true then 0x7FC00000 else v

/-- What the member at a lane brought. -/
def broughtAt {α : Type} (got : List CollArrival) (f : CollArrival → α) (l : Nat) : Option α := (got.find? (·.lane == l)).map f

/-- The FP32 sum of R143. -/
def wordSum (p q : Word) : Word := BitVec.ofNat 32 (codeSum .f32 p.toNat q.toNat)

/-- Pairs of a segment start and a value combine (R142). -/
def segment (op : Word → Word → Word) (p q : Bool × Word) : Bool × Word := (p.1 || q.1, if q.1 then q.2 else op p.2 q.2)

/-- A segment starts at the member. -/
def startsSegment (g : CollArrival) : Bool := decide (g.dv.toNat % 2 ^ 32 ≠ 0)

/-- The members whose values the segmented sum at `me` has: those at its lane and below, back to the last that starts a segment. -/
def inSegment (got : List CollArrival) (me g : CollArrival) : Bool :=
  decide (g.lane ≤ me.lane) && got.all (fun h => !(startsSegment h && decide (h.lane ≤ me.lane)) || decide (h.lane ≤ g.lane))

/-- Whether `wnz` counts a member as non-zero (R145). -/
def countsNonZero (g : CollArrival) : Bool :=
  let a := g.av.toNat
  match g.dv.toNat % 4 with
  | 0 => decide (a % 2 ^ 31 ≠ 0)
  | 1 => decide (a % 2 ^ 15 ≠ 0 ∨ a / 2 ^ 16 % 2 ^ 15 ≠ 0)
  | _ => decide (a ≠ 0)

/-- The word of `wisect` (R144): from bit 16 on the Y keys, from bit 8 on the X keys up to the smaller of the two maxima, and in bit 0
whether the member's X key is a Y key. -/
def intersects (got : List CollArrival) (me : CollArrival) : Nat :=
  let x := fun (g : CollArrival) => g.av.toNat
  let y := fun (g : CollArrival) => g.dv.toNat % 2 ^ 32
  let c := min ((got.map x).foldr max 0) ((got.map y).foldr max 0)
  2 ^ 16 * got.countP (fun g => decide (y g ≤ c)) + 2 ^ 8 * got.countP (fun g => decide (x g ≤ c)) + (if ∃ g ∈ got, y g = x me then 1 else 0)

/-- A format word that `wmm` takes (R51, R146). -/
def WmmFormat (f : Nat) : Prop :=
  fmtValid f = true ∧ f / 2 ^ 16 % 16 ≠ 1 ∧ f % 16 ≠ 1 ∧ f / 2 ^ 8 % 16 ≠ 1 ∧ f / 2 ^ 4 % 16 = 0 ∧ f / 2 ^ 12 % 16 = 0
  ∧ elemWidth (f % 16) = elemWidth (f / 2 ^ 8 % 16)

/-- Element (r, c) of C for `wmm` with format word `f`: the old one plus the exact sum of the products, rounded once (R146). -/
def wmmSum (f : Nat) (got : List CollArrival) (r c old : Nat) : Word :=
  let w := elemWidth (f % 16)
  let e := 32 / w
  let bits := fun (v : Word) (j : Nat) => v.toNat / 2 ^ (w * j) % 2 ^ w
  BitVec.ofNat 32 (Fmt.f32.round {} (sumFX false (Fmt.f32.decode old :: (List.range (4 * e)).map (fun k =>
    mulFX (elemDecode (f % 16) (bits ((broughtAt got (·.av) (4 * r + k / e)).getD 0) (k % e)))
      (elemDecode (f / 2 ^ 8 % 16) (bits ((broughtAt got (·.bv) (4 * c + k / e)).getD 0) (k % e)))))))

/-! ## Engines and streams (R294 to R334) -/

/-- The kind of a copy instruction. -/
def copyForm : Instr → Option CopyKind
  | .cpy .. => some .cpy
  | .mcpy .. => some .mcpy
  | _ => none

/-- An operation of the acting thread with its number and the result that waits for its status, once the write-backs that an
acquiring payload makes have left (R229, R327). -/
def queuedOp (i : Ins) (k : CopyKind) (quad : BitVec 128) (o : Opnds) (s : State) : CopyOp × State :=
  let p := i.p.getD 0
  let w := acquireWriteBack p (some s.th.uid) (withBlank (targets o [0]) 40 { s with nextId := s.nextId + 1 })
  let t := w.2
  ({ id := s.nextId, kind := k, slot := t.th.slot, lane := t.th.lane, tag := s.nextId + 1, dst := o.pd, block := t.warp.block, ctx := t.ctxNo, desc := 0
     hdr := (t.thBlock.map (·.hdr)).getD 0, tree := t.warp.tree, addr := dwordOf o.a, quad := quad, payload := p, depth := t.th.depth, waitIds := w.1 }, t)

/-- With ACQ, no write or put of the thread waits for a release point (R229). -/
def FollowsReleases (p : BitVec 25) (s : State) : Prop :=
  p.getLsbD 24 = true → ownQueue s s.th.uid = [] ∧ ∀ q ∈ s.pl.puts, q.uid ≠ s.th.uid

/-- Major, member, the number in the d field, and the c registers d, a and b, of a tile instruction. -/
def tileForm : Instr → Option (Nat × Nat × Nat × BitVec 7 × BitVec 7 × BitVec 7)
  | .tld _ d a _ => some (0x30, 0, 0, d, a, 0)
  | .tst _ d a _ => some (0x30, 1, 0, d, a, 0)
  | .tstc _ d a b _ => some (0x30, 2, d.toNat, d, a, b)
  | .tzero _ d _ => some (0x30, 3, 0, d, 0, 0)
  | .tmov _ d a _ => some (0x30, 4, 0, d, a, 0)
  | .tfree _ d _ => some (0x30, 5, 0, d, 0, 0)
  | .tcvt _ d a _ => some (0x30, 6, 0, d, a, 0)
  | .tlay _ n a _ => some (0x30, 7, n.toNat, 0, a, 0)
  | .mma _ d a b _ => some (0x31, 0, 0, d, a, b)
  | .mman _ d a b _ => some (0x31, 1, 0, d, a, b)
  | .mms _ d a b _ => some (0x31, 2, 0, d, a, b)
  | .tlu _ d _ => some (0x32, 0, 0, d, 0, 0)
  | .tchol _ d _ => some (0x32, 1, 0, d, 0, 0)
  | .tqr _ d _ => some (0x32, 2, 0, d, 0, 0)
  | .ttrsl _ d a _ => some (0x32, 3, 0, d, a, 0)
  | .ttrsu _ d a _ => some (0x32, 4, 0, d, a, 0)
  | .ttrsn _ d a _ => some (0x32, 5, 0, d, a, 0)
  | .tperm _ d a _ => some (0x32, 6, 0, d, a, 0)
  | .tqapp _ d a _ => some (0x32, 7, 0, d, a, 0)
  | .tqappt _ d a _ => some (0x32, 8, 0, d, a, 0)
  | .svmv _ d a b _ => some (0x33, 0, 0, d, a, b)
  | .svmm _ d a b _ => some (0x33, 1, 0, d, a, b)
  | _ => none

/-- The entry a tile instruction makes (R280). -/
def entryFor (x : Nat × Nat × Nat × BitVec 7 × BitVec 7 × BitVec 7) (p : Payload) (s : State) : REntry :=
  let c := fun (r : BitVec 7) => readC s.sq r.toNat
  newEntry x.1 x.2.1 x.2.2.1 (c x.2.2.2.1) (c x.2.2.2.2.1) (c x.2.2.2.2.2) (p.getD 0) s

/-- The addresses the sequencer checks at issue, with their alignments (R279, R302, R305, R316). -/
def entryAddrs (e : REntry) : List (DWord × Nat) :=
  if e.maj = 0x30 ∧ e.f = 2 then [(e.bv, 16)]
  else if e.maj = 0x30 ∧ e.f = 7 then [(e.av, 32)]
  else if e.maj = 0x33 then [(e.av, 8)]
  else []

/-! ## Harts (R169) -/

/-- The relation a `kwait` waits for, and its registers b, a and d. -/
def kwaitRule : Instr → Option ((DWord → DWord → Bool) × BitVec 5 × BitVec 5 × BitVec 5)
  | .kwaitEq b a d => some (fun m v => decide (m = v), b, a, d)
  | .kwaitNe b a d => some (fun m v => decide (m ≠ v), b, a, d)
  | .kwaitGeu b a d => some (fun m v => decide (m.toNat ≥ v.toNat), b, a, d)
  | _ => none

/-- The number under which a waiting hart keeps its relation. -/
def kwaitCmp : Instr → Nat
  | .kwaitEq .. => 0
  | .kwaitNe .. => 1
  | _ => 2

end Sys2Proof.Rules
end

