-- ==== Sys2Proof/Certificates/Slice0/EventRules.lean ====
section
/-! DEFINITION. The words that the statements about events use: what a thread or stream becomes when a result is written or its wait
ends, and when a request may enter the memory side. -/

namespace Sys2Proof.Rules

open Sys2Proof Sys2Proof.Machine

/-- A thread whose instruction is over goes on at the next word, with the instruction's capture outstanding, after its results if it
carried S (R18, R28). -/
def resumed (t : Thread) : Thread :=
  let rs := t.pend ++ t.held.toList
  { t with pc := t.npc, pend := rs, held := none, park := if t.smark && !rs.isEmpty then .switch else .none }

/-- The state in which the acting thread has gone on. -/
def goesAgain (s : State) : State := { s with th := resumed s.th }

/-- A thread with the registers of a result written (R26): each loses its poison, and a capture is taken; under S the thread goes on
once nothing is outstanding (R28). -/
def wrote (t : Thread) (r : Result 32) (rest : List (Result 32)) : Thread :=
  { t with
    regs := stSetAll 0 t.regs r.regs
    poisoned := t.poisoned.filter (fun p => !r.regs.any (fun x => x.1 == p))
    tcap := match r.cap with | .tnow v => some v | _ => t.tcap
    occCap := match r.cap with | .occ v => v | _ => t.occCap
    pend := rest
    park := if t.park = .switch ∧ rest.isEmpty = true then .none else t.park }

/-- The same of a stream; c0 is never written (Table 14-1). -/
def wroteS (q : SeqCtx) (r : Result 64) (rest : List (Result 64)) : SeqCtx :=
  { q with
    regs := stSetAll 0 q.regs (r.regs.filter (fun x => x.1 != 0))
    pend := rest
    park := if q.park = .switch ∧ rest.isEmpty = true then .none else q.park }

/-- The acting stream's wait ends with a result (R277). -/
def overWithS (d : Nat) (v : DWord) (lat : Nat) (s : State) : State :=
  let rs := s.sq.pend ++ [{ tag := s.nextId, regs := [(d, v)], issued := s.clock.cycle, minLat := lat, maxLat := some lat : Result 64 }]
  { s with nextId := s.nextId + 1, sq := { s.sq with pend := rs, pc := s.sq.npc, park := if s.sq.smark then .switch else .none } }

/-- The threads and streams of block `h` that wait on barrier `n` for another phase than its present one go on with LAST (R149, R151). -/
def waitersGo (h n : Nat) (r : Barrier) (s : State) : State :=
  let u := (s.living.filter (fun v => match v.park with
    | .barWait m token _ => decide (m = n ∧ token ≠ r.phase ∧ (s.warpAt v.slot).block = some h)
    | _ => false)).foldl (fun s v => s.asThread v.slot v.lane (fun s => match s.th.park with
      | .barWait _ _ d => overWith (d.toList.map (fun p => (p, r.last))) 4 s
      | _ => s)) s
  (u.allSeqs.filter (fun q => match q.park with
    | .barWait m token _ => decide (m = n ∧ token ≠ r.phase ∧ q.block = h)
    | _ => false)).foldl (fun s q => s.asSeq q.n (fun s => match s.sq.park with
      | .barWait _ _ d => overWithS d (r.last.zeroExtend 64) 4 s
      | _ => s)) u

/-- A result that may be written now: ready, past its least latency, and behind no result to one of its registers (R26, R27, R30). -/
def MayWrite {w : Nat} (r : Result w) (before : List (Result w)) (s : State) : Prop :=
  r.ready = true ∧ r.issued + r.minLat ≤ s.clock.cycle
  ∧ ∀ q ∈ before, q.tag ≠ r.tag ∧ ∀ x ∈ q.regs, ∀ y ∈ r.regs, x.1 ≠ y.1

/-- The acting thread with one more outstanding result of known words and no greatest latency. -/
def withKnown (regs : List (Nat × Word)) (lat : Nat) (s : State) : State :=
  { s with nextId := s.nextId + 1, th := { s.th with pend := s.th.pend ++ [outstanding regs lat none true s] } }

/-- The lease that a write of `v` gives: the greatest power of two from 64 to 16,384 that is at most `v`, else 64 (R212). -/
def leaseFor (v : Nat) : Nat := (((List.range 9).map (fun k => 2 ^ (6 + k))).filter (fun n => decide (n ≤ v))).getLastD 64

/-- A context with one of its control registers written (Table 4-8, R212, R262). -/
def ctxWritten (n : Nat) (v : Word) (x : Ctx) : Ctx :=
  match n with
  | 0x100 => { x with hvec := x.hvec.extractLsb' 32 32 ++ v }
  | 0x101 => { x with hvec := v ++ x.hvec.extractLsb' 0 32 }
  | 0x102 => { x with lease := BitVec.ofNat 32 (leaseFor v.toNat) }
  | 0x103 => { x with mcwin := BitVec.ofNat 32 (max 32 (min 2048 v.toNat)) }
  | _ => { x with tqlim := BitVec.ofNat 32 (max 8 (min 256 v.toNat)) }

/-! ## Release points (R214, R219, R232) -/

/-- The reads with these results, in the spaces of a mask, have been served; an atomic that waits for its own release point does not wait for itself. -/
def ReadsServed (s : State) (tags : List Nat) (mask : BitVec 3) (own : Option Nat) : Prop :=
  (∀ m ∈ s.pl.net, match m.body with
    | .fill f => f.reply.isSome = true ∨ ∀ w ∈ f.waits, w.tag ∈ tags → inMask mask w.pa = false
    | .atomic a => a.ack.isSome = true ∨ ∀ x ∈ a.steps, x.tag ∈ tags → inMask mask x.pa = false
    | .mcast x => mask.getLsbD 1 = true → ∀ w ∈ x.waits, w.tag ∉ tags
    | .write _ => True)
  ∧ (mask.getLsbD 1 = true → ∀ w ∈ s.sl.windows, ∀ x ∈ w.reqs, ∀ y ∈ x.waits, y.tag ∉ tags)
  ∧ ∀ q ∈ s.pl.storeQ, ∀ a, q.atom = some a → a.tag ∈ tags → mask.getLsbD q.space = true → own = some a.tag

/-- The release of what thread `uid` issued under number `seq` may take effect at agent scope `scope` with a mask: its reads are served, its scratch
writes performed, its writes acknowledged and their times past, with EPCT, and so are the write-backs of the core's narrower lines (R214, R219). -/
def Released (uid seq scope : Nat) (mask : BitVec 3) (own : Option Nat) (s : State) : Prop :=
  ReadsServed s ((((s.living.find? (·.uid == uid)).map (fun t => t.pend.map (·.tag))).getD []).filter (fun t => decide (t < seq))) mask own
  ∧ (mask.getLsbD 0 = true → ∀ q ∈ s.pl.storeQ, q.uid = uid → q.seq < seq → q.space ≠ 0)
  ∧ (mask.getLsbD 1 = true ∨ mask.getLsbD 2 = true → writesOpen s uid = false ∧ (∀ q ∈ s.pl.storeQ, q.uid = uid → q.seq < seq → q.space = 0)
    ∧ (∀ m ∈ s.pl.net, ∀ w, m.body = .write w → w.writer ≠ .evict) ∧ pctOf s uid ≤ s.clock.tbase ∧ s.epct ≤ s.clock.tbase)
  ∧ (mask.getLsbD 1 = true → (∀ m ∈ s.pl.net, ∀ w u, m.body = .write w → w.writer = .forced u → scope ≤ w.tag)
    ∧ ∀ x ∈ s.backs, scope ≤ x.1 ∨ x.2 ≤ s.clock.tbase)

/-- The completion times of the write-backs of narrower lines that other threads' releases have sent join the thread's PCT too (R219). -/
def joinsBacks (uid scope : Nat) (s : State) : State :=
  { s with pl := { s.pl with net := s.pl.net.map (fun m => match m.body with
    | .write w => (match w.writer with
      | .forced u => if u ≠ uid ∧ w.tag < scope ∧ uid ∉ w.who then { m with body := .write { w with who := w.who ++ [uid] } } else m
      | _ => m)
    | _ => m) } }

/-! ## Messages between the core and the homes (R209 to R215, R235 to R243, R267) -/

/-- A completion time or a value time joins a thread's PCT and the largest WCT it has recorded (R214, R245). -/
def timed (t : Nat) (v : Thread) : Thread := { v with pct := max v.pct t, wctMax := max v.wctMax t }

/-- A write that thread `uid` issued under number `n` completes at `t`: that joins the thread's times, and what is kept of it once it has ended or has
emitted after the write (R87, R133, R154, R214). -/
def joins (uid n t : Nat) (s : State) : State :=
  let u := s.updThreads (·.uid == uid) (timed t)
  { u with sched := { u.sched with carried := u.sched.carried.map (fun x =>
      if x.uid = uid ∧ x.seq.all (fun k => decide (n < k)) = true then { x with pct := max x.pct t } else x) } }

/-- The same of a spawn tree (R163). -/
def joinsTree (n t : Nat) (s : State) : State :=
  { s with sched := { s.sched with trees := s.sched.trees.map (fun x => if x.n = n then { x with tct := max x.tct t } else x) } }

/-- The copy that the core holds of a write's line, changed. -/
def inCopy (ws : List (Nat × Byte)) (f : L1Line → L1Line) (s : State) : State :=
  match ws with
  | [] => s
  | x :: _ => match l1Find s (lineOf x.1) with
    | none => s
    | some l => l1Put (f l) s

/-- It takes acknowledged write-through bytes where none is dirty (R215), and carries the completion time (R214, R224). -/
def takes (ws : List (Nat × Byte)) (l : L1Line) : L1Line :=
  { l with bytes := stSetAll 0 l.bytes ((ws.filter (fun x => !l.dirty.testBit (x.1 % 128))).map (fun x => (x.1 % 128, x.2))) }

def stamped (ws : List (Nat × Byte)) (t : Nat) (l : L1Line) : L1Line :=
  { l with
    vt0 := if ∃ x ∈ ws, x.1 % 128 < 64 then max l.vt0 t else l.vt0
    vt1 := if ∃ x ∈ ws, 64 ≤ x.1 % 128 then max l.vt1 t else l.vt1 }

/-- A refused event reaches the living threads that `p` admits, each of which holds or counts it; with none, an error record (R267). -/
def refusal (c : Nat) (p : Thread → Bool) (r : Refused) (s : State) : State :=
  if s.living.any p = true then s.updThreads p (fun v => { v with deferred := some (match v.deferred with
    | none => { gran := r.gran, aid := r.aid, depth := r.depth }
    | some d => { d with more := min (d.more + 1) 65535 }) })
  else ctxError c 17 r.gran s

/-- The thread brought a byte into the refused granule. -/
def brought (who : List Share) (r : Refused) (v : Thread) : Bool :=
  who.any (fun x => x.uid == v.uid && decide (x.lo < r.lo + r.len ∧ r.lo < x.lo + x.len))

/-- The threads that wait in `wct` go on where no write of theirs is open (R245). -/
def wctsEnd (s : State) : State :=
  (s.living.filter (fun v => match v.park with | .wct _ => true | _ => false)).foldl (fun s v => s.asThread v.slot v.lane (fun s =>
    match s.th.park with
    | .wct p => if writesOpen s s.th.uid = true ∨ ownQueue s s.th.uid ≠ [] then s
      else overWith [(p, BitVec.ofNat 32 s.th.wctMax), (p + 1, BitVec.ofNat 32 (s.th.wctMax / 2 ^ 32))] 4 s
    | _ => s)) s

/-- What the acknowledgement of write message `id` leaves, with completion time `t` and the events refused (R163, R213 to R215, R219, R245, R267). -/
def ackOf (id : Nat) (w : WriteMsg) (t : Nat) (rf : List Refused) (s : State) : State :=
  let holds := fun (p : Refused → Thread → Bool) (s : State) => wctsEnd (rf.foldl (fun s r => refusal w.ctx (p r) r s) s)
  let records := fun (s : State) => rf.foldl (fun s r => ctxError w.ctx 17 r.gran s) s
  let copy := inCopy w.ws (stamped w.ws t)
  match w.writer with
  | .threads who =>
    let u := who.foldl (fun s x => joinsTree x.tree t (joins x.uid x.seq t s)) s
    holds (brought who) (copy (if w.intoL1 then inCopy w.ws (takes w.ws) u else u))
  | .forced uid =>
    let u : State := { s with
      backs := stSet 0 s.backs w.tag (max (stGet 0 s.backs w.tag) t)
      sched := { s.sched with trees := s.sched.trees.map (fun x =>
        if x.count = 0 ∧ x.detached = false ∧ x.sigAt = none then { x with tct := max x.tct t } else x) } }
    holds (fun _ v => v.uid == uid) ((if w.who.contains uid then w.who else w.who ++ [uid]).foldl (fun s v => joins v id t s) (copy u))
  | .evict => wctsEnd (records (w.who.foldl (fun s v => joins v id t s) (copy { s with epct := max s.epct t })))
  | .stream n h tr =>
    records ((joinsTree tr t (s.updBlock h (fun b => { b with bct := max b.bct t }))).updSeqs (fun q => q.n == n && q.block == h)
      (fun q => { q with spct := max q.spct t }))
  | .engine unit op =>
    let entries := fun (l : List REntry) => l.map (fun e => if e.seq = op then { e with opct := max e.opct t } else e)
    let ops := fun (l : List CopyOp) => l.map (fun c => if c.id = op then { c with opct := max c.opct t } else c)
    records (if unit = 0 then { s with cl := { s.cl with table := entries s.cl.table }, standby := { s.standby with entries := entries s.standby.entries } }
      else { s with cl := { s.cl with copyQ := ops s.cl.copyQ }, standby := { s.standby with ops := ops s.standby.ops } })
  | _ => records s

/-- A byte that a load gets from its core: what it keeps of it, else the core's dirty byte (R22, R224). -/
def fromCore (s : State) (w : LoadWait) (a : Nat) : Option Byte :=
  match w.known.find? (·.1 == a) with
  | some x => x.2
  | none => (l1Find s (lineOf a)).bind (fun l => if isX a = false ∧ l.dirty.testBit (a % 128) = true then some (stGet 0 l.bytes (a % 128)) else none)

/-- The read gives the load some byte. -/
def takesAny (s : State) (w : LoadWait) : Bool := (List.range w.size).any (fun k => (fromCore s w (w.pa + k)).isNone)

/-- Reads are served at a value time: it joins the PCT of the threads and the SPCT of the streams that they give a byte to (R214, R278). -/
def timesReads (l : List LoadWait) (vt : Nat) (s : State) : State :=
  l.foldl (fun s w => match w.stream with
    | some n => s.updSeqs (fun q => q.n == n && q.pend.any (·.tag == w.tag)) (fun q => { q with spct := max q.spct vt })
    | none => if takesAny s w = true then
        s.updThreads (fun v => v.is w.slot w.lane && (v.pend.any (·.tag == w.tag) || decide (v.park = .record w.tag ∨ v.park = .ret w.tag))) (timed vt)
      else s) s

/-- The words of an outstanding result have arrived; an instruction that acquires by it is over (R220). -/
def gets (tag : Nat) (ws : List Word) (v : Thread) : Thread :=
  let u : Thread := { v with pend := v.pend.map (fun r =>
    if r.tag = tag then { r with ready := true, regs := r.regs.mapIdx (fun i x => (x.1, ws.getD i 0)) } else r) }
  if u.park = .acquire tag then resumed u else u

/-- The acting thread's load gets the bytes of a reply, and those of its core (R22, R94, R210, R224). -/
def loadGets (w : LoadWait) (bs : List Byte) (vt : Nat) (s : State) : State :=
  let all := (List.range w.size).map (fun k => (fromCore s w (w.pa + k)).getD (bs.getD k 0))
  { s with th := gets w.tag (loaded w.size w.signed all) (if takesAny s w = true then timed vt s.th else s.th) }

/-- The steps of an atomic request in their order: the old values, and the bytes written (R235, R238). -/
def amoRun (s : State) (w : List (Nat × Byte)) : List AtomicStep → List (AtomicStep × DWord) × List (Nat × Byte)
  | [] => ([], w)
  | x :: t =>
    let n := atomicBytes x.f
    let old : DWord := BitVec.ofNat 64 (leNat ((List.range n).map (fun k => (soGet w (x.pa + k)).getD (getByte s.mem (x.pa + k)))))
    let r := amoRun s (match atomicNew x.f old x.b x.expect with
      | none => w
      | some v => soSetAll w (atAddr x.pa (leBytes v n))) t
    ((x, old) :: r.1, r.2)

/-- A thread of an atomic receives its old value with the value time of the line (R214, R235). -/
def oldArrives (vt : Nat) (s : State) (x : AtomicStep × DWord) : State :=
  s.asThread x.1.slot x.1.lane (fun s =>
    if s.th.pend.any (·.tag == x.1.tag) then { s with th := gets x.1.tag (oldWords x.1.f x.2) (timed vt s.th) } else s)

/-- The message with a number. -/
def IsMsg (id : Nat) (m : Msg) (s : State) : Prop := s.pl.net.find? (·.id == id) = some m

/-- The message may be served: its turn has come, and no multicast load of the core waits in an open window for the line. -/
def Serves (m : Msg) (s : State) : Prop := mayServe s m = true ∧ windowHolds s (bodyLine m.body) = false

/-- The request of a multicast load opens or joins a window, or finds one closed (R242). -/
def sameWindow (x : McastMsg) (w : Window) : Bool := decide (w.line = x.line ∧ w.n0 = x.n0 ∧ w.mask = x.mask)

/-- Acknowledged write-throughs to a line that a served read follows give the core's copy nothing more (R215, R224). -/
def servedPast (line : Nat) (s : State) : State :=
  { s with pl := { s.pl with net := s.pl.net.map (fun m => match m.body with
    | .write w => if bodyLine m.body = line ∧ w.ack.isSome = true then { m with body := .write { w with intoL1 := false } } else m
    | _ => m) } }

/-- A thread of the active plane that an event concerns. -/
def Concerns (s : State) (slot lane : Nat) : Prop := slot < 64 ∧ s.lives slot lane = true

/-- A master may reach `n` bytes of this module's memory for a context: it is not frozen, and a grant covers them (R358, R359). -/
def Reaches (s : State) (m c pa n : Nat) : Prop := isX pa = false ∧ isFrozen s m = false ∧ granted s m c pa n = true

end Sys2Proof.Rules
end

