-- ==== Sys2Proof/Certificates/Slice0/UnitRules.lean ====
section
/-! DEFINITION. The words that the statements about the other units use: when a packet, a command or a mailbox request is accepted,
and what the units of the core, the cluster and the module leave. -/

namespace Sys2Proof.Rules

open Sys2Proof Sys2Proof.Machine

/-! ## Queues of work and trigger records (R164 to R166, R263 to R265) -/

/-- Entries leave a queue for a level: they are on their way (R165). -/
def onTheWay (l : QLevel) (es : List QEntry) (s : State) : State :=
  { s with sched := { s.sched with moving := s.sched.moving ++ [{ toLvl := l, entries := es }] } }

/-- A level may pull: fewer than eight entries, and no move to it on its way (R165). -/
def MayPull (l : QLevel) (n : Nat) (s : State) : Prop := n < 8 ∧ ∀ m ∈ s.sched.moving, m.toLvl ≠ l

/-- The records of a slice that are on the chip. -/
def chipRecords (s : State) (q : Nat) : List TrigRec := s.sl.trigs.filter (fun r => r.slice == q && r.spilled.isNone)

/-! ## Packets and commands (R170, R171, R396, R397) -/

/-- A packet `p` at the read index of queue `q` that nothing is wrong with, and the state `u` in which it acts. -/
def AtPacket (ty q : Nat) (x : CpQueue) (p : Nat) (s u : State) : Prop :=
  cpRuns s = true ∧ s.cp.queues.find? (·.q == q) = some x ∧ x.skip = 0 ∧ x.err = false ∧ x.ridx ≠ x.widx ∧ pkType p = ty
  ∧ ((x.cur = some p ∧ u = s)
    ∨ (x.cur = none ∧ u = setCpq q (fun y => { y with cur := some p }) s
      ∧ ∃ pa, x.pa x.va = some pa ∧ queueBarred s x = none ∧ isPoisoned s pa 64 = false ∧ getLe s.mem pa 64 = p
        ∧ pkFail s x.ctx x.va p = .ok none))

/-- The queue has read something of a value time: it carries the time on (R171). -/
def carries (x : CpQueue) (t : Nat) (s : State) : State := setCpq x.q (fun y => { y with pct := max y.pct t }) s

/-- A node of a graph is neither done nor skipped (R177). -/
def NodeOpen (g : Graph) (i : Nat) : Prop := stGet .wait g.st i ≠ .done ∧ stGet .wait g.st i ≠ .skipped

/-- Node `p` names node `i` as a successor. -/
def Precedes (nodes : List (BitVec 512)) (p i : Nat) : Prop := ∃ n, nodes[p]? = some n ∧ ∃ k < 4, ndSlot n k = i ∧ i ≠ 0xFFFF

/-- A node has not run, and it has no predecessor or all of them are resolved (R177). -/
def NodeReady (g : Graph) (nodes : List (BitVec 512)) (i : Nat) : Prop :=
  i < nodes.length ∧ stGet .wait g.st i = .wait
  ∧ ((∃ n, nodes[i]? = some n ∧ ndPred n = 0) ∨ ∀ p < nodes.length, Precedes nodes p i → ¬ NodeOpen g p)

/-- Every predecessor of a node was skipped, or is a COND that did not select it (R177). -/
def NodeSkipped (g : Graph) (nodes : List (BitVec 512)) (i : Nat) (n : BitVec 512) : Prop :=
  ndPred n ≠ 0 ∧ (∃ p < nodes.length, Precedes nodes p i)
  ∧ ∀ p < nodes.length, Precedes nodes p i → stGet .wait g.st p = .done → ∃ m, nodes[p]? = some m ∧ ndType m ≠ 1 ∧ (p, i) ∉ g.sel

/-! ## Starts and mappings (R14, R20, R155 to R158, R160, R170, R266) -/

/-- Bits `[lo + n − 1 : lo]` of a number. -/
def bitsAt (d lo n : Nat) : Nat := d / 2 ^ lo % 2 ^ n

/-- The warps of a launch block by `wid`, with their role, registers and entry: those of role 0 first (Table 8-2, R121). -/
def blockWarps (l : Nat) : List (Nat × Nat × Nat) :=
  (List.range 4).flatMap (fun k => List.replicate (bitsAt l (256 + 128 * k + 74) 6) (k, bitsAt l (256 + 128 * k + 64) 10, bitsAt l (256 + 128 * k) 64))

/-- What a block that starts as number `h` leaves of its warps and threads (R14, R20, R157, R160): warp `k` takes the `k`-th of the free slots in
ascending order; a thread starts at its role's entry, or at the one that a trigger record gives role 0, with the registers that its start names,
and every other one reads 0. -/
def BlockStarts (e : QEntry) (l : BitVec 1024) (a : StartArgs) (s u : State) : Prop :=
  let plan := blockWarps l.toNat
  let slot := fun (k : Nat) => (((List.range 64).filter (fun n => s.pl.warps.all (fun w => w.slot != n)))[k]?).getD 0
  let h := s.nextId
  (∃ b ∈ u.pl.blocks, b.handle = h ∧ b.ctx = e.ctx ∧ b.tree = e.tree ∧ b.hdr = a.hdr ∧ b.args = a.args ∧ b.bid = a.bid ∧ b.gsz = a.bcount
    ∧ b.nthr = 32 * plan.length ∧ b.prio = e.prio ∧ b.depth = e.depth ∧ b.scratch = bitsAt l.toNat 128 32 ∧ b.bars = [] ∧ b.crossings = []
    ∧ b.frames.length = (if bitsAt l.toNat 192 64 = 0 then 0 else bitsAt l.toNat 166 4) ∧ (b.argsWait = true ↔ a.args ≠ 0) ∧ b.ended = false
    ∧ (b.stream = none ↔ bitsAt l.toNat 192 64 = 0)
    ∧ ∀ n, b.stream = some n → ∃ q ∈ u.cl.seqs, q.n = n ∧ q.held = true ∧ q.block = h ∧ q.pc = BitVec.ofNat 57 (bitsAt l.toNat 192 64)
      ∧ q.regs = stSetAll 0 [] [(1, a.args), (2, BitVec.ofNat 64 a.bid), (3, BitVec.ofNat 64 a.bcount)])
  ∧ ∀ k x, plan[k]? = some x →
    (∃ w ∈ u.pl.warps, w.slot = slot k ∧ w.wid = k ∧ w.role = x.1 ∧ w.regsPer = x.2.1 ∧ w.bid = a.bid ∧ w.gsz = a.bcount ∧ w.nthr = 32 * plan.length
      ∧ w.block = some h ∧ w.tree = e.tree ∧ w.prio = e.prio ∧ w.wi = 0 ∧ w.consts = [])
    ∧ ∀ lane < 32, ∃ t ∈ u.pl.threads, t.slot = slot k ∧ t.lane = lane ∧ t.live = true ∧ t.tid = 32 * k + lane ∧ t.regs = stSetAll 0 [] a.regs
      ∧ t.pc = (if x.1 = 0 then (a.entry.map (·.truncate 57)).getD (BitVec.ofNat 57 x.2.2) else BitVec.ofNat 57 x.2.2)
      ∧ t.wb = 0 ∧ t.pend = [] ∧ t.park = .none ∧ t.inh = false ∧ t.depth = e.depth
      ∧ t.kp = BitVec.ofNat 64 (u.curCtx.stkBase + (s.coreNo * 2048 + slot k * 32 + lane + 1) * u.curCtx.stkSize)

/-- A context descriptor is within the limits of Table 8-1, R12, R263, R369 and R377. -/
def ContextRecord (d : Nat) : Prop :=
  let at_ := fun (lo n : Nat) => canonical (BitVec.ofNat 64 (bitsAt d lo 64)) = true ∧ bitsAt d lo 64 % n = 0
  let power := fun (v lo hi : Nat) => lo ≤ v ∧ v ≤ hi ∧ ∃ k < 64, v = 2 ^ k
  let phys := fun (lo : Nat) => bitsAt d lo 64 % 4096 = 0 ∧ bitsAt d lo 64 < 2 ^ 39
  (d / 2 ^ 896 = 0 ∧ bitsAt d 672 32 = 0 ∧ bitsAt d 368 16 = 0 ∧ bitsAt d 256 32 = 0 ∧ bitsAt d 129 63 = 0 ∧ bitsAt d 64 32 = 0)
  ∧ at_ 832 64 ∧ phys 768 ∧ phys 704 ∧ power (bitsAt d 640 32) 16 65536 ∧ bitsAt d 576 64 % 64 = 0
  ∧ bitsAt d 544 32 ≤ 2 ^ 24 ∧ (bitsAt d 544 32 ≠ 0 → at_ 480 4096) ∧ 1 ≤ bitsAt d 448 32 ∧ bitsAt d 448 32 ≤ 65536 ∧ at_ 384 4096
  ∧ 8 ≤ bitsAt d 352 16 ∧ bitsAt d 352 16 ≤ 256 ∧ 32 ≤ bitsAt d 320 32 ∧ bitsAt d 320 32 ≤ 2048 ∧ power (bitsAt d 288 32) 64 16384
  ∧ at_ 192 4 ∧ 64 ≤ bitsAt d 96 32 ∧ bitsAt d 96 32 ≤ 2 ^ 24 ∧ bitsAt d 96 32 % 16 = 0 ∧ at_ 0 16

/-- A queue descriptor is within the limits of Table 8-7. -/
def QueueRecord (d : Nat) : Prop :=
  let at_ := fun (lo n : Nat) => canonical (BitVec.ofNat 64 (bitsAt d lo 64)) = true ∧ bitsAt d lo 64 % n = 0
  d / 2 ^ 256 = 0 ∧ bitsAt d 72 56 = 0 ∧ 4 ≤ bitsAt d 64 8 ∧ bitsAt d 64 8 ≤ 16 ∧ at_ 0 4096 ∧ at_ 128 4 ∧ at_ 192 64

/-- The context that a descriptor at `desc` describes (Table 8-1). -/
def contextFrom (c desc d : Nat) : Ctx :=
  { n := c, desc := desc, errAddr := bitsAt d 832 64, ptRoot := bitsAt d 768 64, saveArea := bitsAt d 704 64, fqSize := bitsAt d 640 32
    fqAddr := bitsAt d 576 64 % Config.memBytes, trBlk := bitsAt d 544 32, tRing := bitsAt d 480 64, wqBlk := bitsAt d 448 32, wqRing := bitsAt d 384 64
    tqlim := BitVec.ofNat 32 (bitsAt d 352 16), mcwin := BitVec.ofNat 32 (bitsAt d 320 32), lease := BitVec.ofNat 32 (bitsAt d 288 32)
    hvec := BitVec.ofNat 64 (bitsAt d 192 64), sys := decide (bitsAt d 128 1 = 1), stkSize := bitsAt d 96 32, stkBase := bitsAt d 0 64 }

/-- The pages that a queue's descriptor names, and a context's. -/
def queuePages (s : State) (c d : Nat) : Option (List (Nat × Nat)) :=
  ringPages s c [(bitsAt d 0 64, 64 * 2 ^ bitsAt d 64 8), (bitsAt d 128 64, 4), (bitsAt d 192 64, 64)]

def contextPages (s : State) (x : Ctx) : Option (List (Nat × Nat)) :=
  ringPages { s with ctxs := s.ctxs ++ [x] } x.n
    [(x.errAddr, 4096), (x.wqRing, 288 * x.wqBlk * 512), (if x.trBlk = 0 then 0 else x.tRing, 288 * x.trBlk * 256)]

/-- A queue is mapped, with both indices 0 (R170). -/
def queueMapped (q c d : Nat) (pins : List (Nat × Nat)) (s : State) : State :=
  { s with cp := { s.cp with queues := s.cp.queues ++
    [{ q := q, ctx := c, ring := bitsAt d 0 64, log2n := bitsAt d 64 8, rptr := bitsAt d 128 64, errRec := bitsAt d 192 64, pins := pins }] } }

/-- A doorbell or kick waits for the host's earlier writes (R395). -/
def bellWaits (b : Bell) (s : State) : State := { s with cp := { s.cp with bells := s.cp.bells ++ [b] } }

/-- A command held before is taken up, with the record that CMDGO took. -/
def takenUp (s : State) : State :=
  { s with
    cp := { s.cp with cmd := .none }
    win := { s.win with cmdrec := if s.cp.cmd = .held then s.cp.cmdrec else s.win.cmdrec } }

/-- The host port takes a write of the register window: it is not frozen (R359), and no flit of it has failed twice in this cycle (R356); the model's
reading of both is log entries 93 and 96. -/
def Accepts (s : State) : Prop := isFrozen s masterHost = false ∧ hostPort ∉ s.badPorts

/-- A write to CMDGO is no command while one is BUSY, none before READY, and none that the host port does not take (R359, R396). -/
def HearsCommands (s : State) : Prop := s.win.state = .ready ∧ (s.win.cmdRes = 1 ∨ ¬ Accepts s → s.cp.cmd = .held)

/-- The command processor acts now: it is not frozen, and the host's earlier writes are complete (R359, R395). -/
def ActsNow (s : State) : Prop := isFrozen s masterCp = false ∧ hostOpen s = false

/-- A command with a good record that the command processor takes up now. -/
def Commanded (k : Nat) (s : State) : Prop :=
  HearsCommands s ∧ ActsNow s ∧ cmdCode (takenUp s) = k ∧ cmdBad (takenUp s) = false

/-- CMDREC as the host left it stands again once a held command has been tried. -/
def recordKept (s t : State) : State := if s.cp.cmd = .held then { t with win := { t.win with cmdrec := s.win.cmdrec } } else t

/-- The command is held with its record; RESULT is BUSY. -/
def commandHeld (s : State) : State :=
  { s with cp := { s.cp with cmd := .held, cmdrec := (takenUp s).win.cmdrec }, win := { s.win with cmdRes := 1 } }

/-- The command goes on as an event of its own; RESULT is BUSY. -/
def busyWith (w : CmdWait) (s : State) : State := { s with cp := { s.cp with cmd := w }, win := { s.win with cmdRes := 1 } }

/-- The `fwait`s of a context on words of a range look their addresses up again (R248, R376; log entry 83). -/
def fwaitsAgain (c lo hi : Nat) (s : State) : State :=
  let mine := fun (v : Thread) => match v.park with
    | .fwait va _ _ _ _ => decide (lo ≤ va.toNat % 2 ^ 57 ∧ va.toNat % 2 ^ 57 < hi)
    | _ => false
  if s.pl.ctx = some c then (s.living.filter mine).foldl (fun s v => leaveWaits v.slot v.lane s) (s.updThreads mine (fun v => { v with park := .none })) else s

/-- The commands of Table 21-3 with their codes. -/
def commandCodes : List (Instr × Nat) :=
  [(.mapQueue, 1), (.unmapCtx, 2), (.clearError, 3), (.preempt, 4), (.resume, 5), (.regGraph, 6), (.inval, 7), (.copy, 8), (.checkpoint, 9), (.restore, 10)]

/-- The header `h` at a target is one that a RESTORE of stamp `t` takes on module `m` (Table 21-9): MAGIC, VALID, MODNUM, T and the length of
the memory image. -/
def HeaderTaken (m t h : Nat) : Prop :=
  h % 2 ^ 32 = 0x43504B43 ∧ h.testBit 32 = true ∧ h / 2 ^ 64 % 256 = m % 256 ∧ h / 2 ^ 128 % 2 ^ 64 = t % 2 ^ 64 ∧ h / 2 ^ 256 % 2 ^ 64 = 2 ^ 39

/-- The graph of a REG_GRAPH command, from the 64 bytes of its header (Table 8-10). -/
def graphOf (s : State) (d : Nat) : Graph :=
  { g := cmdIdx s, ctx := cmdCtx s, nodes := d % 2 ^ 64, nnodes := d / 2 ^ 64 % 65536
    sigAddr := BitVec.ofNat 64 (d / 2 ^ 128), sigVal := BitVec.ofNat 64 (d / 2 ^ 192) }

/-- What REG_GRAPH checks of the header. -/
def GraphHeaderOk (s : State) (d : Nat) : Prop :=
  d / 2 ^ 256 = 0 ∧ d / 2 ^ 80 % 2 ^ 48 = 0 ∧ 1 ≤ (graphOf s d).nnodes ∧ (graphOf s d).nnodes ≤ 65534
  ∧ aligned (BitVec.ofNat 64 (graphOf s d).nodes) 64 = true
  ∧ ((graphOf s d).sigAddr = 0 ∨ aligned (graphOf s d).sigAddr 8 = true)

/-- REG_GRAPH is refused: a record with CODE 8, and RESULT 3 and source 64 once that is written and released (R175, R395). -/
def graphRefused (c at_ : Nat) (s : State) : State :=
  let t := ctxError c 8 (BitVec.ofNat 64 at_) s
  notify ((t.cp.notices.getLast?.map (·.till)).getD 0) 64 none { t with win := { t.win with cmdRes := 3 }, cp := { t.cp with cmd := .none } }

/-! ## The window and the mailbox (R394, R398, R403) -/

/-- A mask register with one half replaced. -/
def withHalf (hi : Bool) (v : BitVec 64) (old : BitVec 128) : BitVec 128 :=
  if hi then v ++ old.truncate 64 else old.extractLsb' 64 64 ++ v

/-- The read-only registers of Table 21-1. -/
def readOnlyOffsets : List Nat := [0x0, 0x8, 0x10, 0x148, 0x4000, 0x4008, 0x4010, 0x4018, 0x6008, 0x6010]

/-- The write-only registers of Table 21-1: CMDREC, CMDGO, DOORBELL and KICK. -/
def WriteOnlyOffset (off : Nat) : Prop :=
  (0x100 ≤ off ∧ off ≤ 0x140) ∨ (0x1000 ≤ off ∧ off < 0x1100) ∨ (0x2000 ≤ off ∧ off < 0x2800)

/-- The offsets that Table 21-1 lists. -/
def InWindow (off : Nat) : Prop :=
  off ∈ readOnlyOffsets ∨ WriteOnlyOffset off ∨ off ∈ [0x3000, 0x3008, 0x3010, 0x3018, 0x3020, 0x6000]
  ∨ (0x3100 ≤ off ∧ off < 0x3900) ∨ (0x5000 ≤ off ∧ off < 0x6000)

/-- The message of an interrupt source (R398). -/
def irqMessage (s : State) (k : Nat) : Out := .irq (stGet 0 s.win.irqaddr k) ((stGet 0 s.win.irqdata k).truncate 32)

/-- A request of an operation that the root core takes up: none is served, the state accepts it, its length is right, and its reserved
bits are zero. -/
def Requested (req : BitVec 64) (op : Nat) (states : List BringUp) (len : Nat) (s : State) : Prop :=
  reqOp req = op ∧ s.root.serving = none ∧ s.win.state ∈ states ∧ reqLen req = len ∧ reqClean req = true

/-- The request word is in the mailbox. -/
def heard (req : BitVec 64) (s : State) : State := { s with win := { s.win with mbox := setLe s.win.mbox 0 8 req.toNat } }

/-- The operations of Table 21-7: the request, OP, the STATEs that accept it and the lengths of its data. Operation 5 is one instruction for each KIND
and operation 6 one for each ACTION. -/
def mailboxRule (s : State) : Instr → Option (BitVec 64 × Nat × List BringUp × (Nat → Prop))
  | .attest r => some (r, 1, [.ready], (· = 32))
  | .cert r => some (r, 2, [.train, .ready], (· = 8))
  | .timeSet r => some (r, 3, [.waitFw, .verify, .train], (· = 8))
  | .domainSet r => some (r, 4, [.train, .ready], (· = 16))
  | .grantRange r => if grKind s = 0 ∨ grKind s = 3 then some (r, 5, [.train, .ready], (· = 24)) else none
  | .revokeRange r => if grKind s = 1 then some (r, 5, [.train, .ready], (· = 24)) else none
  | .setExportWindow r => if grKind s = 2 then some (r, 5, [.train, .ready], (· = 24)) else none
  | .unfreezeResume r => if actionIs false s then some (r, 6, [.ready], (· = 8)) else none
  | .unfreezeReset r => if actionIs true s then some (r, 6, [.ready], (· = 8)) else none
  | .fwLoad r => some (r, 7, [.waitFw, .failed], fun n => 16 ≤ n ∧ n ≤ 2048)
  | _ => none

/-- A master is frozen no more (R360). -/
def thawed (m : Nat) (s : State) : State := { s with root := { s.root with frozen := s.root.frozen.filter (·.master != m) } }

/-- A reply without an error. -/
def answered (req : BitVec 64) (data : List Byte) (s : State) : State := mbReply (reqSeq req) 0 data s

/-! ## The fetch unit (R329) -/

/-- The bytes of the decoded row up to the next boundary of 128 go to the scratch of block `h`; after the last one of the last row the operation
ends. -/
def nextPiece (c : CopyOp) (h rows : Nat) (s : State) : State :=
  let n := 128 - c.restAt % 128
  let whole := c.rest.length ≤ n
  let u := sramWrite h c.restAt (c.rest.take n) s
  let d := { c with rest := c.rest.drop n, restAt := c.restAt + n, done := if whole then c.done + 1 else c.done }
  if rows ≤ d.done then postFetch d 0 0 c.vt u
  else setFetch c.id (fun x => { x with rest := d.rest, restAt := d.restAt, done := d.done, vt := d.vt }) u

/-! ## Faults (R374 to R379) -/

/-- A fault is outstanding no more. -/
def dropFault (i : Nat) (s : State) : State := { s with xl := { s.xl with faults := s.xl.faults.eraseIdx i } }

/-- One entry of the RAS log, the count of its kind, and interrupt source 65 (R356, R398). -/
def logged (site : RasSite) (lasting : Bool) (s : State) : State :=
  setIrq 65 { s with
    root := { s.root with ras := s.root.ras ++ [{ site := site, lasting := lasting, time := s.clock.tbase }] }
    win := { s.win with
      rasTransient := s.win.rasTransient + (if lasting then 0 else 1)
      rasLasting := s.win.rasLasting + (if lasting then 1 else 0)
      rasIdx := s.win.rasIdx + 1 } }

/-! ## Swap, save and restore (R362 to R364) -/

/-- The spill engine may read each line of a range of a slot: a grant covers it (R358, R369). -/
def LinesGranted (s : State) (c lo n : Nat) : Prop := ∀ k < (n + 127) / 128, granted s masterSpill c (lo + 128 * k) 1 = true

/-- The writes of a save for the plane of context `c`: banks, engine image, frames, control image and header (Table 19-3); `i` is the
draw of the bytes that the specification leaves to the device. -/
def saveWrites (s : State) (c i : Nat) : List (Nat × Byte) :=
  let p := s.standby.plane
  let b := (makeSlot s c).standby
  let base := slotAddr s c
  let banks := savedBanks p
  let ctl := (List.range 28672).map (imageByte i)
  let eng := if b.hasEngine then (List.range 65536).map (fun k => imageByte i (28672 + k)) else []
  banks.flatMap (fun k => atAddr (base + 0x18000 + 0x4000 * k) ((List.range 16384).map (bankByte p (fun o => imageByte i (0x20000 + k * 16384 + o)) k)))
    ++ atAddr (base + 0x8000) eng
    ++ (List.range b.nframes).flatMap (fun f => atAddr (base + 0x98000 + 0x10000 * f) ((List.range 65536).map (fun k => getByte b.frames (f * 65536 + k))))
    ++ atAddr (base + 0x1000) ctl
    ++ atAddr base (slotHeader (crc32c (ctl ++ eng)) (getLe s.mem (base + 48) 8) b.stime ((banks.map (2 ^ ·)).sum) b.nframes b.seqs.length b.entries.length b.ops.length
      ++ List.replicate 4032 0)

end Sys2Proof.Rules
end

