-- ==== Sys2Proof/Certificates/Slice0/MatrixRules.lean ====
section
/-! DEFINITION. The words that the statement about the matrix engine's passes uses: what a pass has read, and the sums of R302 and R306. -/

namespace Sys2Proof.Rules

open Sys2Proof Sys2Proof.Machine

/-- What a computation over reads finds. -/
def found {α : Type} (z : α) (x : EngM α) : α :=
  match x.go.1 with
  | .ok v => v
  | .error _ => z

/-- The bits of element (i, j) of the window at operand position `pos`, in elements of `w` bits, as the entry's fetch left them. -/
def elemOf (s : State) (e : REntry) (pos : Nat) (x : Win) (w i j : Nat) : Nat := found 0 (readElem s (snapReader e.snap) e pos x w i j)

/-- The exact value of that element in a format. -/
def valueOf (s : State) (e : REntry) (pos : Nat) (x : Win) (elem mode i j : Nat) : FX := found .nan (readVal s (snapReader e.snap) e pos x elem mode i j)

/-- A frame window by rows. -/
def matOf (s : State) (e : REntry) (pos : Nat) (x : Win) : Mat :=
  (List.range x.rows).map (fun i => (List.range x.cols).map (elemOf s e pos x (elemWidth e.acc) i))

/-- A matrix of `n` rows of `m` elements. -/
def IsMat (A : Mat) (n m : Nat) : Prop := A.length = n ∧ ∀ r ∈ A, r.length = m

/-- The elements of a row copied unchanged, and the scales of its blocks (R300, R301). -/
def rowCopy (s : State) (e : REntry) (d x : Win) (elem mode i : Nat) : List EWrite :=
  (List.range x.cols).flatMap (fun j => writeElem s e 0 d (elemWidth elem) i j (elemOf s e 1 x (elemWidth elem) i j))
  ++ if mode = 0 then [] else ((List.range ((x.cols + blockSize mode - 1) / blockSize mode)).map (· * blockSize mode)).flatMap (fun j =>
    writeAt (scalePlace s e 0 d (blockSize mode) i j) 1 (found 0 (readScale s (snapReader e.snap) e 1 x mode i j)))

/-- A row converted to a format (R301, R304): each element, or each block of a block-scaled one (R49). `pos` gives an element's place in the
dither matrix. -/
def rowConvert (s : State) (e : REntry) (d x : Win) (src dst : Nat × Nat) (pos : Nat → Nat × Nat) (i : Nat) : List EWrite :=
  let v := valueOf s e 1 x src.1 src.2 i
  let rm := fun (j : Nat) => ({ mode := e.rnd, sat := e.sat, dith := ditherAt (pos j).1 (pos j).2 e.phase } : RM)
  if dst.2 = 0 then (List.range x.cols).flatMap (fun j => writeElem s e 0 d (elemWidth dst.1) i j (elemEncode dst.1 (rm j) (v j)))
  else ((List.range ((d.cols + blockSize dst.2 - 1) / blockSize dst.2)).map (· * blockSize dst.2)).flatMap (fun j =>
    putBlock s e 0 d dst.1 dst.2 i j rm ((span j (min x.cols (j + blockSize dst.2))).map v))

/-- R306: the products `p 0` to `p (K - 1)` join an accumulator in groups of `g`, each exact and rounded once. -/
def groupSums (T : Fmt) (g : Nat) (p : Nat → FX) (K acc : Nat) : Nat :=
  (List.range ((K + g - 1) / g)).foldl (fun acc q => T.round {} (sumFX false (T.decode acc :: (span (q * g) (min K (q * g + g))).map p))) acc

/-- Word `w` of block `k` of a tile (R302). -/
def blockWord (s : State) (e : REntry) (k w : Nat) : Nat := leNat (sramBytes s.pl.sram (boundTile e 1) (256 * k + 4 * w) 4)

/-- Its words that are not zero, in ascending order. -/
def liveWords (s : State) (e : REntry) (k : Nat) : List Nat := (List.range 64).filter (fun w => blockWord s e k w != 0)

/-- Where block `k` of the compressed image begins: after the header and the blocks before it. -/
def blockStart (s : State) (e : REntry) (k : Nat) : Nat := 16 + ((List.range k).map (fun i => 8 + 4 * (liveWords s e i).length)).sum

/-- The bytes of block `k`: its mask and its words that are not zero. -/
def blockBytes (s : State) (e : REntry) (k : Nat) : List Byte :=
  leBytes ((liveWords s e k).map (2 ^ ·)).sum 8 ++ (liveWords s e k).flatMap (fun w => leBytes (blockWord s e k w) 4)

/-- The row `p` of column `j` is the pivot: the lowest of the largest magnitude from row `j` on (R308). -/
def IsPivot (T : Fmt) (A : Mat) (n j p : Nat) : Prop :=
  j ≤ p ∧ p < n ∧ ∀ i, j ≤ i → i < n → T.mag (matAt A i j) ≤ T.mag (matAt A p j) ∧ (i < p → T.mag (matAt A i j) < T.mag (matAt A p j))

/-- The sum of a group's activations in vector `n`, its first column first (R316). -/
def activationSum (s : State) (e : REntry) (n : Nat) (g : SvrGroup) : Nat :=
  let x := fun (c : Nat) => Fmt.f32.round {} (valueOf s e 2 e.b e.bElem 0 n c)
  match g.cols with
  | [] => 0
  | c :: t => t.foldl (fun S q => fadd .f32 {} S (x q)) (x c)

/-- The row `i` of shared values as the fetch unit parses it: none where it is malformed (R315). -/
def sharedRow (s : State) (e : REntry) (i : Nat) : Option (List SvrGroup) := found none (rowOrNone (snapReader e.snap) e i)

/-- The pass of an entry gives `o`. -/
def Passes (s : State) (e : REntry) (u : Nat) (o : PassOut) : Prop := (passBody s (snapReader e.snap) e u).go.1 = .ok o

end Sys2Proof.Rules
end

