-- ==== Sys2Proof/Certificates/Slice0/Obligations.lean ====
section
/-! DEFINITION. The statements about the model, from the specification's rules. -/

open Sys2Proof Sys2Proof.Machine Sys2Proof.Rules

/-- R16, R26, R80 to R84: integer results of threads, words and pairs. -/
def Obligations.IntegerResultsOfThreads : Prop :=
  (∀ (i : Instr) (r : ResultRule) (s : State), integerRule i = some r → Executes i s → exec i s = .next (afterResult r i.ins s))
  ∧ (∀ (i : Instr) (r : ResultRule) (s : State), pairRule i = some r → Executes i s → exec i s = .next (afterResult r i.ins s))

/-- R79, R82, R83, R277: the same instructions in a matrix stream work on 64-bit c registers. -/
def Obligations.IntegerResultsOfStreams : Prop :=
  ∀ (i : Instr) (r : ResultRule) (s : State), (integerRule i = some r ∨ pairRule i = some r) → Streams i s →
    exec i s = .next (afterResultS r i.ins s)

/-- R104 to R115: floating-point results and conversions. The exact values of the functions of R110 are the model's (log entry 12), and so are
the sign of a quotient with an infinity or a zero in it (log entry 79) and of a non-zero result that rounds to zero (log entry 90). -/
def Obligations.FloatResults : Prop :=
  (∀ (i : Instr) (r : ResultRule) (s : State), floatRule i = some r → Executes i s → exec i s = .next (afterResult r i.ins s))
  ∧ (∀ (i : Instr) (r : ResultRule) (s : State), convertRule i = some r → Executes i s → exec i s = .next (afterResult r i.ins s))

/-- R15, R16, R19, R23, R24, R57 to R64, R66, R67, R104, R357: what is checked before the effect of an instruction, and that it traps in its place. That
POISON comes after the bounds is log entry 10, the TINFO of an illegal prefix log entry 11, and which of several registers TINFO names log entry 99;
that `pref`, `watch`, `unwatch` (R247, R257), the pool's instructions (R195) and the floating-point ones (R104) take no POISON, and what they leave
then, is log entry 81. Words of no instruction have a statement of their own (`TrapsEnterTheHandler`). -/
def Obligations.ChecksComeFirst : Prop :=
  (∀ (i : Ins) (s : State),
    let fields := (∀ u ∈ i.sh.uses, FieldLegal u) ∧ i.sh.extra = true ∧ i.sh.simt = true
    let inBounds := ∀ u ∈ i.sh.uses, ∀ p, ¬ FailsBounds s i u p
    (¬ PayloadLegal i.sh i.p → checkFail i s = some { cause := .illegal, info := match i.p with
      | some p => 0x7E000000 + p.zeroExtend 32
      | none => i.word })
    ∧ (PayloadLegal i.sh i.p → ¬ fields → checkFail i s = some { cause := .illegal, info := i.word })
    ∧ (PayloadLegal i.sh i.p → fields → ¬ inBounds →
      ∃ u ∈ i.sh.uses, ∃ p, FailsBounds s i u p ∧ checkFail i s = some { cause := .regBounds, info := BitVec.ofNat 32 p })
    ∧ (PayloadLegal i.sh i.p → fields → inBounds → (∃ u ∈ i.sh.uses, ∃ p, ReadsPoison s i u p) →
      ∃ u ∈ i.sh.uses, ∃ p, ReadsPoison s i u p ∧ checkFail i s = some { cause := .poison, info := BitVec.ofNat 32 p })
    ∧ (PayloadLegal i.sh i.p → fields → inBounds → (∀ u ∈ i.sh.uses, ∀ p, ¬ ReadsPoison s i u p) → checkFail i s = none))
  ∧ (∀ (i : Instr) (s : State) (t : Trap), i.onCore = true → (∀ sw d n, i ≠ .csrr sw d n) → (∀ sw n a, i ≠ .csrw sw n a) →
    ((quietRule i).isSome = true ∨ (floatRule i).isSome = true ∨ (convertRule i).isSome = true → t.cause ≠ .poison) → s.actor ≠ .stream → checkFail i.ins s = some t → exec i s = .next (raise t s))
  ∧ (∀ (i : Instr) (lat : Option Nat) (parks : Bool) (s : State) (t : Trap), quietRule i = some (lat, parks) → s.actor ≠ .stream →
    checkFail i.ins s = some t → t.cause = .poison →
    exec i s = .next (match lat with
      | none => steps i.ins s
      | some n =>
        let u := finishWith i.ins (targets (operands i.ins s) [(Config.freeWord s.freeCtr).truncate 32]) n (some n) true { s with freeCtr := s.freeCtr + 1 }
        if parks then awaits u else u))
  ∧ (∀ (i : Instr) (r : ResultRule) (s : State) (t : Trap), (floatRule i = some r ∨ convertRule i = some r) → s.actor ≠ .stream →
    checkFail i.ins s = some t → t.cause = .poison →
    let o := operands i.ins (withFreedAll s)
    let u : State := { s with freeCtr := s.freeCtr + 1 }
    exec i s = .next (goesOn i.ins (resultOf o (r.thread i.ins u o) r.lo r.hi u :: captures i.ins u (u.nextId + 1))
      (s.th.pc + if i.ins.p.isSome then 8 else 4) u))
  ∧ (∀ (sw : Bool) (d : BitVec 7) (n : BitVec 14) (s : State) (t : Trap), s.actor ≠ .stream → csrOk s n.toNat false = true →
    checkFail (Instr.csrr sw d n).ins s = some t → exec (.csrr sw d n) s = .next (raise t s))
  ∧ (∀ (sw : Bool) (a : BitVec 7) (n : BitVec 14) (s : State) (t : Trap), s.actor ≠ .stream → csrOk s n.toNat true = true →
    checkFail (Instr.csrw sw n a).ins s = some t → exec (.csrw sw n a) s = .next (raise t s))
  ∧ (∀ (sw : Bool) (d : BitVec 7) (n : BitVec 14) (s : State), s.actor ≠ .stream → csrOk s n.toNat false = false →
    exec (.csrr sw d n) s = .next (raise { cause := .illegal, info := (Instr.csrr sw d n).ins.word } s))
  ∧ (∀ (sw : Bool) (a : BitVec 7) (n : BitVec 14) (s : State), s.actor ≠ .stream → csrOk s n.toNat true = false →
    exec (.csrw sw n a) s = .next (raise { cause := .illegal, info := (Instr.csrw sw n a).ins.word } s))

/-- R59, R67, R279: a stream stops on a word it may not run. -/
def Obligations.StreamsStopOnOtherWords : Prop :=
  ∀ (i : Instr) (s : State), i.onCore = true → s.actor = .stream → streamOk i.ins = false → exec i s = .next (stopStream 2 s)

/-- R12, R24, R56, R79, R85, R86, R277, R279: branches, jumps and `nop`. -/
def Obligations.Transfers : Prop :=
  (∀ (i : Instr) (g : Option DWord) (s : State), Executes i s →
    transfer s.th.pc (wordOf (operands i.ins s).a).toInt (dwordOf (operands i.ins s).a) i = some g →
    exec i s = .next (match g with
      | none => steps i.ins s
      | some v => arrives i.ins v s))
  ∧ (∀ (i : Instr) (g : Option DWord) (s : State), Streams i s →
    transfer s.sq.pc (dwordOf (operandsC i.ins s).a).toInt (dwordOf (operandsC i.ins s).a) i = some g →
    exec i s = .next (match g with
      | none => onlyGoesS i.ins (s.sq.pc + 4) s
      | some v => arrivesS i.ins v s))

/-- R14, R24, R279: calls and returns of threads and of streams. That TADDR of a `call` or `ret` whose kp is no multiple of 8 is kp itself is the
model's reading (log entry 11, DEDUCED). -/
def Obligations.CallsAndReturns : Prop :=
  ((∀ (i : Instr) (v : DWord) (s : State) (e : TlbEnt), Executes i s →
    callTarget s.th.pc (dwordOf (operands i.ins s).a) i = some v →
    canonical v = true → v.toNat % 4 = 0 → canonical (s.th.kp - 8) = true → s.th.kp.toNat % 8 = 0 →
    tlbHit s.xl.coreTlb s.ctxNo (s.th.kp - 8).toNat .write = some e → writeHeld s s.th.uid (spaceOf (e.home (s.th.kp - 8).toNat)) (e.home (s.th.kp - 8).toNat) = false →
    let t := putStore (queuedOf s {} (atAddr (e.home (s.th.kp - 8).toNat) (leBytes (pc64 (s.th.pc + 4)).toNat 8))) s
    exec i s = .next (onlyGoes i.ins (v.truncate 57) { t with th := { t.th with kp := s.th.kp - 8 } }))
  ∧ (∀ (i : Instr) (v : DWord) (s : State), Executes i s → callTarget s.th.pc (dwordOf (operands i.ins s).a) i = some v →
    let sp := s.th.kp - 8
    (canonical v = false → exec i s = .next (raise { cause := .addrCanon, addr := v } s))
    ∧ (canonical v = true → canonical sp = false → exec i s = .next (raise { cause := .addrCanon, addr := sp } s))
    ∧ (canonical v = true → canonical sp = true → v.toNat % 4 ≠ 0 → exec i s = .next (raise { cause := .instAlign, addr := v } s))
    ∧ (canonical v = true → canonical sp = true → v.toNat % 4 = 0 → s.th.kp.toNat % 8 ≠ 0 →
      exec i s = .next (raise { cause := .align, addr := s.th.kp, info := 8 } s))
    ∧ (canonical v = true → canonical sp = true → v.toNat % 4 = 0 → s.th.kp.toNat % 8 = 0 → Unmapped s sp .write →
      exec i s = .next (walksFor sp .write s)))
  ∧ ∀ (i : Instr) (v : DWord) (s : State), Streams i s → callTarget s.sq.pc (dwordOf (operandsC i.ins s).a) i = some v →
    canonical v = true → v.toNat % 4 = 0 →
    exec i s = .next (if s.sq.rstack.length ≥ 16 then stopStream 6 s
      else onlyGoesS i.ins (v.truncate 57) { s with sq := { s.sq with rstack := (s.sq.pc + 4) :: s.sq.rstack } }))
  ∧ ((∀ (sw : Bool) (s : State) (e : TlbEnt) (bs : List Byte) (vt : Option Nat), s.actor ≠ .stream →
    canonical s.th.kp = true → s.th.kp.toNat % 8 = 0 → tlbHit s.xl.coreTlb s.ctxNo s.th.kp.toNat .read = some e →
    loadPath s (e.home s.th.kp.toNat) 8 false = .value bs vt →
    canonical (BitVec.ofNat 64 (leNat bs)) = true → leNat bs % 4 = 0 →
    let u := l1Touch (lineOf (e.home s.th.kp.toNat)) s
    let pc : PC := BitVec.ofNat 57 (leNat bs)
    exec (.ret sw) s = .next { u with th := { u.th with
      pc := pc, npc := pc, kp := s.th.kp + 8, pct := max s.th.pct (vt.getD 0), wctMax := max s.th.wctMax (vt.getD 0)
      held := none, smark := sw, park := if sw && !s.th.pend.isEmpty then .switch else .none } })
  ∧ (∀ (sw : Bool) (s : State), s.actor ≠ .stream →
    let kp := s.th.kp
    (canonical kp = false → exec (.ret sw) s = .next (raise { cause := .addrCanon, addr := kp } s))
    ∧ (canonical kp = true → kp.toNat % 8 ≠ 0 → exec (.ret sw) s = .next (raise { cause := .align, addr := kp, info := 8 } s))
    ∧ (canonical kp = true → kp.toNat % 8 = 0 → Unmapped s kp .read → exec (.ret sw) s = .next (walksFor kp .read s))
    ∧ ∀ e, canonical kp = true → kp.toNat % 8 = 0 → tlbHit s.xl.coreTlb s.ctxNo kp.toNat .read = some e →
      let h := e.home kp.toNat
      (loadPath s h 8 false = .poison → exec (.ret sw) s = .next (raise { cause := .poison, addr := kp } s))
      ∧ (∀ bs vt, loadPath s h 8 false = .value bs vt →
        let v : DWord := BitVec.ofNat 64 (leNat bs)
        let u := waitsIn (Instr.ret sw).ins .none (sees vt (l1Touch (lineOf h) s))
        (canonical v = false → exec (.ret sw) s = .next (raise { cause := .addrCanon, addr := v } u))
        ∧ (canonical v = true → v.toNat % 4 ≠ 0 → exec (.ret sw) s = .next (raise { cause := .instAlign, addr := v } u)))
      ∧ (loadPath s h 8 false = .ask → NoFillToJoin h s →
        let u := l1Renew h s
        exec (.ret sw) s = .next (waitsIn (Instr.ret sw).ins (.ret s.nextId) { u with
          nextId := s.nextId + 2
          pl := { u.pl with net := u.pl.net ++ [{ id := s.nextId + 1, body := .fill (fillOf {} kp h 8 false s) }] } })))
  ∧ ∀ (sw : Bool) (s : State), s.actor = .stream → exec (.ret sw) s = .next (match s.sq.rstack with
      | [] => stopStream 6 s
      | r :: rest => onlyGoesS (Instr.ret sw).ins r { s with sq := { s.sq with rstack := rest } }))

/-- R66, R89, R343 to R346, R349, R350: taking a trap. The TINFO of an ILLEGAL for a prefix before a word that takes none is log entry 11. -/
def Obligations.TrapsEnterTheHandler : Prop :=
  (∀ (i : Instr) (c : Nat) (info : Word) (d : PC) (s : State), TrapsNow i s → trapRule i = some (c, info, d) → CanTrap s →
    exec i s = .next (inHandler c (pc64 (s.th.pc + d)) 0 info s))
  ∧ (∀ (i : Instr) (c : Nat) (info : Word) (d : PC) (s : State), TrapsNow i s → trapRule i = some (c, info, d) → s.th.allReady = true →
    let u : State := { s with th := s.th.completeAll }
    (s.th.inh = true → exec i s = .next (killThread 32 (pc64 s.th.pc) u))
    ∧ (s.th.inh = false → s.curCtx.hvec = 0 → exec i s = .next (killThread 33 (pc64 (s.th.pc + d)) u)))
  ∧ (∀ (t : Trap) (s : State), t.cause ≠ .swTrap →
    let u : State := { s with th := s.th.completeAll }
    (∀ n, (t.cause, n) ∈ causeTable → CanTrap s → raise t s = inHandler n (pc64 s.th.pc) t.addr t.info s)
    ∧ (s.th.allReady = true → s.th.inh = true → raise t s = killThread 32 (pc64 s.th.pc) u)
    ∧ (s.th.allReady = true → s.th.inh = false → s.curCtx.hvec = 0 → raise t s = killThread 33 (pc64 s.th.pc) u)
    ∧ (s.th.allReady = false → raise t s = { s with th := { s.th with park := .trap t (pc64 s.th.pc) false, smark := false } }))
  ∧ (∀ t : Thread, t.allReady = true → let u := t.completeAll
    u = { t with
      pend := [], regs := t.pend.foldl (fun r x => stSetAll 0 r x.regs) t.regs
      poisoned := t.poisoned.filter (fun p => !t.pend.any (fun r => r.regs.any (·.1 == p))), tcap := u.tcap, occCap := u.occCap, park := u.park })
  ∧ ∀ (code c : Nat) (detail : DWord) (s : State), s.pl.ctx = some c → s.th.deferred = none → killThread code detail s = endThread (ctxError c code detail s)

/-- R87, R88, R90, R129, R133, R150, R163, R348, R349, R351: return from a handler, `yield`, `exit`, and what becomes of the barriers, collectives, warp,
block and tree of a thread that ends. -/
def Obligations.ReturnYieldAndExit : Prop :=
  ((∀ (sw : Bool) (s : State), s.actor ≠ .stream → s.th.inh = true → canonical s.th.frame.trpc = true → s.th.frame.trpc.toNat % 4 = 0 →
    exec (.rett sw) s = .next { s with th := { s.th with
      pc := s.th.frame.trpc.truncate 57, wb := s.th.swb, inh := false, held := none, park := if sw && !s.th.pend.isEmpty then .switch else .none } })
  ∧ ∀ (sw : Bool) (s : State), s.actor ≠ .stream → s.th.inh = false →
    exec (.rett sw) s = .next (raise { cause := .illegal, info := encodeWord (.rett sw) } s))
  ∧ (∀ (sw : Bool) (s : State), s.actor ≠ .stream → s.th.inh = true →
    let v := s.th.frame.trpc
    (canonical v = false → exec (.rett sw) s = .next (raise { cause := .addrCanon, addr := v } s))
    ∧ (canonical v = true → v.toNat % 4 ≠ 0 → exec (.rett sw) s = .next (raise { cause := .instAlign, addr := v } s))
    ∧ (s.th.allReady = true → canonical v = false ∨ v.toNat % 4 ≠ 0 →
      exec (.rett sw) s = .next (killThread 32 (pc64 s.th.pc) { s with th := s.th.completeAll })))
  ∧ ((∀ (sw : Bool) (s : State), s.actor ≠ .stream →
    exec (.yield sw) s = .next { s with th := { s.th with npc := s.th.pc + 4, smark := sw, held := none, park := .yield (s.clock.cycle + 16), age := 0 } })
  ∧ ∀ (sw : Bool) (s : State), s.actor ≠ .stream → (s.th.deferred = none ∨ s.th.inh = true) →
    (∀ u ∈ s.pl.threads, u.is s.th.slot s.th.lane = false) →
    ∃ t, exec (.exit sw) s = .next t ∧ t.th = {} ∧ ∀ u ∈ t.pl.threads, u.is s.th.slot s.th.lane = false)
  ∧ (∀ (sw : Bool) (s : State), s.actor ≠ .stream →
    (s.th.deferred = none → exec (.exit sw) s = .next (endThread s))
    ∧ ∀ d, (TakesDeferred (.exit sw) d s)
      ∧ ∀ c, s.th.deferred = some d → s.th.inh = true → s.pl.ctx = some c → exec (.exit sw) s = .next (endThread (ctxError c 17 d.gran s)))
  ∧ (∀ (s : State) (h n : Nat) (b : Block), PlaneOk s.pl → s.warp.block = some h → s.block? h = some b → n < 16 → (∃ u ∈ s.pl.threads, u.slot = s.th.slot) →
    let r := barOf b n
    let taking := r.part.testBit s.th.tid = true ∧ r.count ≠ 0
    ∃ b', (endThread s).block? h = some b' ∧ b'.bct = max b.bct s.th.pct ∧
      let r' := barOf b' n
      (¬ taking → r' = r)
      ∧ (taking → r'.count = r.count - 1 ∧ r'.part.testBit s.th.tid = false
        ∧ (r.arrived.testBit s.th.tid = true → r'.pending = r.pending ∧ r'.phase = r.phase ∧ r'.status = r.status)
        ∧ (r.arrived.testBit s.th.tid = false → 2 ≤ r.pending → r'.pending = r.pending - 1 ∧ r'.phase = r.phase ∧ r'.status = r.status)
        ∧ (r.arrived.testBit s.th.tid = false → r.pending = 1 →
          r'.pending = r.count - 1 ∧ r'.phase = (r.phase + 1) % 2 ^ 16 ∧ r'.status = 0 ∧ r'.last = r.status ∧ r'.arrived = 0)))
  ∧ (∀ (s : State) (c : Coll), PlaneOk s.pl → s.pl.colls = [c] → c.slot = s.th.slot → c.mask.getLsbD s.th.lane = true → c.got ≠ [] →
    (∀ g ∈ c.got, g.lane ≠ s.th.lane ∧ ∃ u ∈ s.pl.threads, u.live = true ∧ u.is c.slot g.lane = true) →
    let alive := livingMask { s with th := {} } c.slot
    (c.mask &&& alive &&& ~~~(arrivedMask c) ≠ 0 → (endThread s).pl.colls = [c])
    ∧ (c.mask &&& alive &&& ~~~(arrivedMask c) = 0 → (endThread s).pl.colls = [] ∧ ∀ g ∈ c.got, ∀ u ∈ (endThread s).pl.threads,
      u.is c.slot g.lane = true → u.park = .trap { cause := .collExited, info := c.mask &&& ~~~alive } (pc64 u.pc) false))
  ∧ (∀ (s : State) (w : Warp) (tr : Tree), (∀ u ∈ s.pl.threads, u.slot ≠ s.th.slot) → s.warpAt? s.th.slot = some w →
    let t := endThread s
    t.warpAt? s.th.slot = none
    ∧ (w.block = none → s.sched.trees.find? (·.n == w.tree) = some tr → ∃ x, t.sched.trees.find? (·.n == w.tree) = some x
      ∧ x.count = tr.count - 1 ∧ x.tct = max tr.tct (max w.bct s.th.pct))
    ∧ ∀ h b, w.block = some h → s.block? h = some b → b.stream = none → (∀ y ∈ s.pl.warps, y.slot ≠ s.th.slot → y.block ≠ some h) →
      s.sched.trees.find? (·.n == b.tree) = some tr → (∃ x, t.sched.trees.find? (·.n == b.tree) = some x
        ∧ x.count = tr.count - 1 ∧ x.tct = max tr.tct (max b.bct s.th.pct))
      ∧ (∀ y, t.block? h = some y → y.ended = true ∧ y.scratch = 0) ∧ (tilesOf s h = [] → t.block? h = none))
  ∧ ∀ (s : State), s.pl.net ≠ [] → ∃ x ∈ (endThread s).sched.carried, x.uid = s.th.uid ∧ x.seq = none ∧ x.pct = s.th.pct

/-- R131, R132, R153: `brx`. That an exiled thread with results outstanding waits for them, with the place of its record kept, is the model's reading
(log entry 82). -/
def Obligations.ExileBranches : Prop :=
  (∀ (i : Instr) (off : Int) (p : Int → Bool) (s : State), exileRule i = some (off, p) → Executes i s →
    let taken := p (wordOf (operands i.ins s).a).toInt
    (inBundle s = false ∨ (s.split.map (·.1) ≠ some s.bundleNo ∧ voters i p (!taken) s = [])) →
    exec i s = .next (branches i off taken { s with split := some (s.bundleNo, 0) }))
  ∧ (∀ (i : Instr) (off : Int) (p : Int → Bool) (s : State), exileRule i = some (off, p) → Executes i s → inBundle s = true →
    s.split.map (·.1) ≠ some s.bundleNo → voters i p true s ≠ [] → voters i p false s ≠ [] →
    exec i s = exec i { s with split := some (s.bundleNo, exiledSide i p off s) })
  ∧ (∀ (i : Instr) (off : Int) (p : Int → Bool) (s : State) (c : Nat), exileRule i = some (off, p) → Executes i s →
    let taken := p (wordOf (operands i.ins s).a).toInt
    inBundle s = true → s.split = some (s.bundleNo, c) → c ≠ (if taken then 1 else 2) → exec i s = .next (branches i off taken s))
  ∧ ∀ (i : Instr) (off : Int) (p : Int → Bool) (s : State), exileRule i = some (off, p) → Executes i s → inBundle s = true →
    let taken := p (wordOf (operands i.ins s).a).toInt
    let v := if taken then branchTo s.th.pc off else pc64 (s.th.pc + 4)
    let u : State := { s with th := s.th.completeAll }
    s.split = some (s.bundleNo, if taken then 1 else 2) →
    (∀ t, recTrap v s = some t → exec i s = .next (raise t s))
    ∧ (recTrap v s = none → s.th.allReady = false → exec i s = .next (match keptPlace s with
        | some t => waitsAt i.ins (v.truncate 57) (.exile (v.truncate 57)) t
        | none => branches i off taken s))
    ∧ (recTrap v s = none → s.th.allReady = true → exec i s = .next (match placeRecord (v.truncate 57) u with
        | some t => endThread t
        | none => branches i off taken s))

/-- R154, R161: `cont` and `qput`. -/
def Obligations.RecordsAndTasks : Prop :=
  (∀ (sw : Bool) (d a : BitVec 7) (s : State), let i := Instr.cont sw d a
    Executes i s → s.th.allReady = false → exec i s = .next (awaits s))
  ∧ (∀ (sw : Bool) (d a : BitVec 7) (s : State), let i := Instr.cont sw d a
    Executes i s → s.th.allReady = true → recTrap (dwordOf (operands i.ins s).a) s = none →
    let u : State := { s with th := s.th.completeAll }
    exec i s = .next (match placeRecord ((dwordOf (operands i.ins s).a).truncate 57) u with
      | some t => finishWith i.ins (targets (operands i.ins s) [0]) 40 none true t
      | none => finishWith i.ins (targets (operands i.ins s) [1]) 40 none true u))
  ∧ ∀ (sw : Bool) (d a b : BitVec 7) (s u : State) (e : TlbEnt) (bs : List Byte), let i := Instr.qput sw d a b
    let o := operands i.ins s
    let addr := dwordOf o.a
    Executes i s → AddressOk addr 64 → tlbHit s.xl.coreTlb s.ctxNo addr.toNat .read = some e → HasRecord (e.home addr.toNat) bs s u →
    let q : QPut :=
      { seq := u.nextId, uid := s.th.uid, slot := s.th.slot, lane := s.th.lane, tag := u.nextId, hdr := addr, key := wordOf o.b
        words := (List.range 8).map (fun k => BitVec.ofNat 64 (leNat ((bs.drop (8 * k)).take 8)))
        tree := s.warp.tree, depth := s.th.depth, prio := 0 }
    exec i s = .next (finishWith i.ins (targets o [0]) 40 none false { u with pl := { u.pl with puts := u.pl.puts ++ [q] } })

/-- R6, R17, R91 to R93, R99, R101, R318: writes of the window and of special registers. -/
def Obligations.WindowsAndRegisterWrites : Prop :=
  ((∀ (sw : Bool) (a : BitVec 7) (s : State), let i := Instr.wbase sw a
    let n := wordOf (operands i.ins s).a
    Executes i s → exec i s = .next (if n.toNat % 2 = 0 ∧ n.toNat ≤ s.warp.regsPer - 2
      then steps i.ins { s with th := { s.th with wb := n.toNat } } else raise { cause := .regBounds, info := n } s))
  ∧ (∀ (sw : Bool) (a : BitVec 7) (s : State), let i := Instr.wiset sw a
    let n := wordOf (operands i.ins s).a
    Executes i s → exec i s = .next (if n.toNat ≤ 511
      then steps i.ins (s.updWarp s.th.slot (fun w => { w with wi := n.toNat })) else raise { cause := .regBounds, info := n } s))
  ∧ ∀ (sw : Bool) (a b : BitVec 7) (s : State), let i := Instr.vrsca sw a b
    let k := (wordOf (operands i.ins s).a).toNat
    Executes i s → exec i s = .next (if k > 511 then raise { cause := .regBounds, info := wordOf (operands i.ins s).a } s
      else if s.th.wb + k ≥ s.warp.regsPer then raise { cause := .regBounds, info := BitVec.ofNat 32 (s.th.wb + k) } s
      else finishWith i.ins [(s.th.wb + k, wordOf (operands i.ins s).b)] 4 (some 4) true s))
  ∧ ((∀ (sw : Bool) (a : BitVec 7) (n : BitVec 14) (s : State), let i := Instr.csrw sw n a
    let v := wordOf (operands i.ins s).a
    Executes i s → csrOk s n.toNat true = true → n.toNat < 0x100 →
    exec i s = .next (steps i.ins { s with th := match n.toNat with
      | 0x010 => { s.th with kp := s.th.kp.extractLsb' 32 32 ++ v }
      | 0x011 => { s.th with kp := v ++ s.th.kp.extractLsb' 0 32 }
      | 0x030 => { s.th with frame := { s.th.frame with trpc := s.th.frame.trpc.extractLsb' 32 32 ++ v } }
      | 0x031 => { s.th with frame := { s.th.frame with trpc := v ++ s.th.frame.trpc.extractLsb' 0 32 } }
      | _ => s.th }))
  ∧ (∀ (sw : Bool) (a : BitVec 7) (n : BitVec 14) (s : State), let i := Instr.csrw sw n a
    Executes i s → csrOk s n.toNat true = true → 0x100 ≤ n.toNat →
    exec i s = .next (waitsIn i.ins (.csrw n.toNat (wordOf (operands i.ins s).a)) s))
  ∧ ∀ (sw : Bool) (a : BitVec 7) (s : State), let i := Instr.setfmt sw a
    Streams i s → exec i s = .next (onlyGoesS i.ins (s.sq.pc + 4) { s with sq := { s.sq with fmt := (readC s.sq a.toNat).truncate 32 } }))

/-- R15, R18, R58, R93, R101, R140, R151, R201 to R203, R318, R320: reads of registers, of special registers, from other lanes, and of the machine's state. The model's choices: `sbar.wait` zero-extends its word (log entry
42), selector 0x08 of `pool.occ` leaves out pages reserved for a grow (log entry 75), selector 0x14 gives a free word for a block without
an extent (log entry 27). -/
def Obligations.StatusReads : Prop :=
  (∀ (i : Ins) (s : State) (u : Use), (i.sh.uses.map (·.slot)).Nodup → u ∈ i.sh.uses → u.role ≠ .dst → u.n ≤ 8 →
    bitsFrom i.alu 22 3 ≠ 7 → bitsFrom i.alu 14 3 ≠ 7 →
    let v := valueAt (operands i s) u.slot
    (readFrom s i u = none → v = 0)
    ∧ ∀ t, readFrom s i u = some t →
      (u.f.toNat ≤ 95 → ∀ k < u.n, wordAt v k = stGet 0 t.regs (indexOf s i u + k))
      ∧ (96 ≤ u.f.toNat → wordOf v = specialOf s t u.f.toNat))
  ∧
  ((∀ (i : Instr) (v : Word) (s : State), Executes i s → statusRule (wordOf (operands i.ins s).a).toNat s i = some v →
    exec i s = .next (finishWith i.ins (targets (operands i.ins s) [v]) 4 (some 4) true s))
  ∧ ∀ (i : Instr) (v : DWord) (s : State), Streams i s → statusRuleS (statusArg s i) s i = some v →
    exec i s = .next (finishWithS i.ins ((operandsC i.ins s).pd.toList.map (fun p => (p, v))) 4 (some 4) true s))
  ∧ ((∀ (sw : Bool) (d a : BitVec 7) (s : State), let i := Instr.poolOcc sw d a
    let k := (wordOf (operands i.ins s).a).toNat
    Executes i s → ¬ (0x20 ≤ k ∧ k ≤ 0x24) → k ≠ 0x14 →
    exec i s = .next (finishWith i.ins (targets (operands i.ins s) [BitVec.ofNat 32 (poolCount s k)]) 4 (some 4) true s))
  ∧ (∀ (sw : Bool) (d a : BitVec 7) (s : State), let i := Instr.poolOcc sw d a
    let o := operands i.ins s
    Executes i s → wordOf o.a = 0x14 →
    exec i s = .next (match s.thBlock with
      | none => finishWith i.ins (targets o [0]) 4 (some 4) true s
      | some b => if b.scratch = 0
        then finishWith i.ins (targets o [(Config.freeWord s.freeCtr).truncate 32]) 4 (some 4) true { s with freeCtr := s.freeCtr + 1 }
        else finishWith i.ins (targets o [BitVec.ofNat 32 b.sbase]) 4 (some 4) true s))
  ∧ ∀ (sw : Bool) (d a : BitVec 7) (s : State), let i := Instr.poolOcc sw d a
    let k := (wordOf (operands i.ins s).a).toNat
    Executes i s → 0x20 ≤ k → k ≤ 0x24 →
    let n := stGet 0 s.bankCycles (k - 0x20)
    let r : Result 32 := { outstanding (targets (operands i.ins s) [BitVec.ofNat 32 n]) 4 (some 4) true s with cap := .occ (BitVec.ofNat 32 (n / 2 ^ 32)) }
    exec i s = .next (goesOn i.ins (r :: captures i.ins s (s.nextId + 1)) (s.th.pc + 4) s))

/-- R188 to R190, R195, R196, R198: `wgrow` and `wshrink`: those that end at once with a code, those that park, and a `wgrow` that needs C banks. That a
`wshrink` waits for another request of its warp is the model's choice (log entry 75). -/
def Obligations.RegisterGrowth : Prop :=
  (∀ (sw : Bool) (d a : BitVec 7) (s : State), let i := Instr.wgrow sw d a
    let n := (wordOf (operands i.ins s).a).toNat
    Executes i s → RegCount n → s.warp.regsPer < n → s.warp.reqBusy = false → growAsks s = [] → pagesCover s s.th.slot n = true →
    exec i s = .next (awaits (finishWith i.ins (targets (operands i.ins s) [0]) 12 (some 12) true
      (reqDone s.th.slot 0 (grantRegs s.th.slot n s)))))
  ∧ (∀ (sw : Bool) (d a : BitVec 7) (s : State), let i := Instr.wshrink sw d a
    let n := (wordOf (operands i.ins s).a).toNat
    Executes i s → RegCount n → n < s.warp.regsPer → windowBeyond s s.th.slot n = false → s.warp.reqBusy = false →
    shrinkWaits s s.th.slot n = false →
    exec i s = .next (awaits (finishWith i.ins (targets (operands i.ins s) [0]) 12 (some 12) true (shrinkTo s.th.slot n s))))
  ∧ (∀ (sw : Bool) (d a : BitVec 7) (s : State), let i := Instr.wshrink sw d a
    let n := (wordOf (operands i.ins s).a).toNat
    Executes i s → RegCount n → n < s.warp.regsPer → windowBeyond s s.th.slot n = false →
    s.warp.reqBusy = true ∨ shrinkWaits s s.th.slot n = true →
    let t := waitsIn i.ins (.wshrink s.nextId n) (withBlank (targets (operands i.ins s) [0]) 12 (reqOpen s.th.slot s))
    exec i s = .next { t with th := { t.th with smark := true } })
  ∧ (∀ (sw : Bool) (d a : BitVec 7) (s : State), let i := Instr.wgrow sw d a
    let v := (wordOf (operands i.ins s).a).toNat
    let n := v % 1024
    let slot := s.th.slot
    let joins := ∃ x ∈ growAsks s, x.1 = slot
    let answers := fun (code : Word) (t : State) => exec i s = .next (awaits (finishWith i.ins (targets (operands i.ins s) [code]) 12 (some 12) true t))
    Executes i s →
    (v / 1024 % 2 ^ 21 ≠ 0 ∨ ¬ RegCount n → answers 6 (reqAnswered slot 6 s))
    ∧ (v / 1024 % 2 ^ 21 = 0 → RegCount n → n ≤ s.warp.regsPer → answers 0 (reqAnswered slot 0 s))
    ∧ (v / 1024 % 2 ^ 21 = 0 → RegCount n → s.warp.regsPer < n →
      (v / 2 ^ 31 = 1 → joins ∨ s.warp.reqBusy = false →
        let t := waitsIn i.ins (.wgrow (s.nextId + 1) n s.nextId)
          (withBlank (targets (operands i.ins s) [0]) 12 (reqOpen slot { s with nextId := s.nextId + 1 }))
        exec i s = .next { t with th := { t.th with smark := true } })
      ∧ (s.warp.reqBusy = true → v / 2 ^ 31 = 0 ∨ ¬ joins → answers 1 s)
      ∧ (s.warp.reqBusy = false → v / 2 ^ 31 = 0 → growAsks s ≠ [] → answers 2 (reqDone slot 2 s))
      ∧ (s.warp.reqBusy = false → v / 2 ^ 31 = 0 → growAsks s = [] → pagesCover s slot n = false →
        let free := freeBanks s.pl.pmap
        let short := n / 8 - s.warp.pages.length - (freePages s + 16 * free.length)
        match takenFor (free.length + (short + 15) / 16) s with
        | none => answers 3 (reqDone slot 3 s)
        | some ks =>
          let r := afterWriteBack ks (.toRegs slot n ((banksOf s.pl.pmap .regs).flatMap (fun k => (pagesFree (usedPages s) k).map (fun j => (k, j))))) slot s
          answers (BitVec.ofNat 32 r.1) (noteReq slot r))))
  ∧ ∀ (sw : Bool) (d a : BitVec 7) (s : State), let i := Instr.wshrink sw d a
    let v := (wordOf (operands i.ins s).a).toNat
    let n := v % 1024
    let answers := fun (code : Nat) => exec i s = .next (awaits (finishWith i.ins (targets (operands i.ins s) [BitVec.ofNat 32 code]) 12 (some 12) true
      (reqAnswered s.th.slot code s)))
    Executes i s →
    (v / 1024 ≠ 0 ∨ ¬ RegCount n → answers 6)
    ∧ (v / 1024 = 0 → RegCount n → s.warp.regsPer ≤ n → answers 0)
    ∧ (v / 1024 = 0 → RegCount n → n < s.warp.regsPer → windowBeyond s s.th.slot n = true → answers 2)

/-- R188 to R192, R199, R200, R204: requests to the pool, with the codes and effects of Table 9-8. What a bank in EXACT with no owner gives,
and the BUSY mark of reserved F banks, are the model's choice (log entry 75). -/
def Obligations.PoolRequests : Prop :=
  (∀ (sw : Bool) (d a : BitVec 7) (s : State) (h : Nat), let i := Instr.poolReq sw d a
    let v := (wordOf (operands i.ins s).a).toNat
    Executes i s → s.warp.block = some h → reqWordOk v = true → tileCountBad s h v = false → s.warp.reqBusy = false →
    let r := poolRule h v s.th.slot s
    exec i s = .next (finishWith i.ins (targets (operands i.ins s) [BitVec.ofNat 32 r.1]) 12 (some 12) true (noteReq s.th.slot r)))
  ∧ (∀ (sw : Bool) (d a : BitVec 7) (s : State) (h : Nat), let i := Instr.poolReq sw d a
    let v := (wordOf (operands i.ins s).a).toNat
    Executes i s → s.warp.block = some h →
    (reqWordOk v = false ∨ tileCountBad s h v = true →
      exec i s = .next (finishWith i.ins (targets (operands i.ins s) [6]) 12 (some 12) true (reqAnswered s.th.slot 6 s)))
    ∧ (reqWordOk v = true → tileCountBad s h v = false → s.warp.reqBusy = true →
      exec i s = .next (finishWith i.ins (targets (operands i.ins s) [1]) 12 (some 12) true s)))
  ∧ (∀ (sw : Bool) (d a : BitVec 7) (s : State) (h : Nat), let i := Instr.poolRel sw d a
    Executes i s → s.warp.block = some h → wordOf (operands i.ins s).a = 2 → s.warp.reqBusy = false → scratchOpen s h = false →
    exec i s = .next (awaits (finishWith i.ins (targets (operands i.ins s) [0]) 12 (some 12) true (releaseScratch h s.th.slot s))))
  ∧ (∀ (sw : Bool) (d a : BitVec 7) (s : State) (h : Nat), let i := Instr.poolRel sw d a
    Executes i s → s.warp.block = some h → wordOf (operands i.ins s).a = 4 → s.warp.reqBusy = false →
    exec i s = .next (if ∃ t ∈ tilesOf s h, t.st ≠ .empty
      then awaits (finishWith i.ins (targets (operands i.ins s) [2]) 12 (some 12) true (reqDone s.th.slot 2 s))
      else awaits (finishWith i.ins (targets (operands i.ins s) [0]) 12 (some 12) true (reqDone s.th.slot 0 (tilesGone (tilesOf s h) s)))))
  ∧ (∀ (sw : Bool) (d a : BitVec 7) (s : State), let i := Instr.poolReq sw d a
    Executes i s → s.warp.block = none →
    exec i s = .next (finishWith i.ins (targets (operands i.ins s) [6]) 12 (some 12) true (reqAnswered s.th.slot 6 s)))
  ∧ (∀ (sw : Bool) (d a : BitVec 7) (s : State), let i := Instr.poolRel sw d a
    Executes i s → s.warp.block = none →
    exec i s = .next (awaits (finishWith i.ins (targets (operands i.ins s) [6]) 12 (some 12) true (reqAnswered s.th.slot 6 s))))
  ∧ (∀ (sw : Bool) (d a : BitVec 7) (s : State) (t : Tile), let i := Instr.tmark sw d a
    Executes i s → localTile s (wordOf (operands i.ins s).a).toNat = some t → t.st = .ready → t.readers = 0 →
    exec i s = .next (finishWith i.ins (targets (operands i.ins s) [0]) 12 (some 12) true (updTile t.key (fun t => { t with st := .empty }) s)))
  ∧ (∀ (sw : Bool) (d a : BitVec 7) (s : State), let i := Instr.tmark sw d a
    Executes i s → localTile s (wordOf (operands i.ins s).a).toNat = none →
    exec i s = .next (finishWith i.ins (targets (operands i.ins s) [6]) 12 (some 12) true s))
  ∧ (∀ (sw : Bool) (d a : BitVec 7) (s : State) (t : Tile), let i := Instr.tmark sw d a
    Executes i s → localTile s (wordOf (operands i.ins s).a).toNat = some t →
    (t.st = .empty → exec i s = .next (finishWith i.ins (targets (operands i.ins s) [0]) 12 (some 12) true s))
    ∧ (t.st ≠ .empty → t.st ≠ .ready ∨ t.readers ≠ 0 → exec i s = .next (finishWith i.ins (targets (operands i.ins s) [2]) 12 (some 12) true s)))
  ∧ ∀ (sw : Bool) (d a : BitVec 7) (s : State) (h : Nat), let i := Instr.poolRel sw d a
    let v := wordOf (operands i.ins s).a
    Executes i s → s.warp.block = some h →
    (v ≠ 2 → v ≠ 4 → exec i s = .next (awaits (finishWith i.ins (targets (operands i.ins s) [6]) 12 (some 12) true (reqAnswered s.th.slot 6 s))))
    ∧ (v = 2 ∨ v = 4 → s.warp.reqBusy = true → exec i s = .next (awaits (finishWith i.ins (targets (operands i.ins s) [1]) 12 (some 12) true s)))
    ∧ (v = 2 → s.warp.reqBusy = false → scratchOpen s h = true →
      let t := waitsIn i.ins (.poolRel s.nextId) (withBlank (targets (operands i.ins s) [0]) 12 (reqOpen s.th.slot s))
      exec i s = .next { t with th := { t.th with smark := true } })

/-- R252, R255, R256, R257, R374: `watch` and `unwatch`. That the address of the last byte may wrap is the model's choice (log entry 70),
and so is that the pages are asked for no permission (log entry 86). -/
def Obligations.WatchedRegionsWait : Prop :=
  (∀ (sw : Bool) (d a : BitVec 7) (s u v : State) (e : TlbEnt) (bs : List Byte) (h : Nat) (hs : List Nat) (id : Nat),
    let i := Instr.watch sw d a
    let addr := dwordOf (operands i.ins s).a
    let r := recordOf bs
    let ps := rangePages (field r 0 64) (field r 64 64)
    let w : State := { v with th := { v.th with found := [] } }
    Executes i s → AddressOk addr 64 → tlbHit s.xl.coreTlb s.ctxNo addr.toNat .read = some e → HasRecord (e.home addr.toNat) bs s u →
    WatchRecord r → findPages s.ctxNo ps u = (none, v) → homesFrom v.th.found ps = some (h :: hs) →
    (∀ k < hs.length, hs[k]? = some (h + (k + 1) * 4096)) →
    freeAttId w s.ctxNo (rangeSlices (h + field r 0 64 % 4096) (field r 64 64)) = some id →
    let k : Att :=
      { id := id, ctx := s.ctxNo, tree := if r.getLsbD 328 then none else some s.warp.tree
        va := field r 0 64, pa := h + field r 0 64 % 4096, len := field r 64 64, gran := 64 * 2 ^ field r 320 3, depth := field r 323 3
        prio := field r 326 2, entry := r.extractLsb' 128 64, lb := r.extractLsb' 192 64, args := r.extractLsb' 256 64 }
    let t := waitsIn i.ins (.watch (operands i.ins s).pd k) w
    exec i s = .next { t with th := { t.th with smark := true } })
  ∧ (∀ (sw : Bool) (d a : BitVec 7) (s u v : State) (e : TlbEnt) (bs : List Byte) (p : Nat),
    let i := Instr.watch sw d a
    let addr := dwordOf (operands i.ins s).a
    let r := recordOf bs
    Executes i s → AddressOk addr 64 → tlbHit s.xl.coreTlb s.ctxNo addr.toNat .read = some e → HasRecord (e.home addr.toNat) bs s u →
    WatchRecord r → findPages s.ctxNo (rangePages (field r 0 64) (field r 64 64)) u = (some p, v) →
    exec i s = .next { wantWalk s.ctxNo (p * 4096) .read v with th := { v.th with park := .pages p } })
  ∧ (∀ (sw : Bool) (d a b : BitVec 7) (s : State), let i := Instr.unwatch sw d a b
    let o := operands i.ins s
    Executes i s → (wordOf o.a).toNat ≤ 511 → s.sl.atts.any (fun k => k.ctx == s.ctxNo && k.id == (wordOf o.a).toNat) = true → (wordOf o.b).toNat ≤ 1 →
    let t := waitsIn i.ins (.unwatch o.pd (wordOf o.a).toNat (wordOf o.b == 1)) s
    exec i s = .next { t with th := { t.th with smark := true } })
  ∧ (∀ (sw : Bool) (d a : BitVec 7) (s u : State) (e : TlbEnt) (bs : List Byte), let i := Instr.watch sw d a
    let o := operands i.ins s
    let r := recordOf bs
    let ps := rangePages (field r 0 64) (field r 64 64)
    let answers := fun (v : Word) (t : State) => exec i s = .next (awaits (finishWith i.ins (targets o [v]) 4 (some 4) true t))
    Executes i s → AddressOk (dwordOf o.a) 64 → tlbHit s.xl.coreTlb s.ctxNo (dwordOf o.a).toNat .read = some e → HasRecord (e.home (dwordOf o.a).toNat) bs s u →
    (¬ WatchRecord r → answers 0x80000001 u)
    ∧ ∀ v, WatchRecord r → findPages s.ctxNo ps u = (none, v) →
      let w : State := { v with th := { v.th with found := [] } }
      (homesFrom v.th.found ps = none → answers 0x80000002 w)
      ∧ ∀ h hs, homesFrom v.th.found ps = some (h :: hs) →
        ((∃ k < hs.length, hs[k]? ≠ some (h + (k + 1) * 4096)) → answers 0x80000003 w)
        ∧ ((∀ k < hs.length, hs[k]? = some (h + (k + 1) * 4096)) →
          freeAttId w s.ctxNo (rangeSlices (h + field r 0 64 % 4096) (field r 64 64)) = none → answers 0x80000004 w))
  ∧ ∀ (sw : Bool) (d a b : BitVec 7) (s : State), let i := Instr.unwatch sw d a b
    let o := operands i.ins s
    let id := (wordOf o.a).toNat
    Executes i s →
    (511 < id ∨ s.sl.atts.any (fun k => k.ctx == s.ctxNo && k.id == id) = false →
      exec i s = .next (awaits (finishWith i.ins (targets o [0x80000005]) 4 (some 4) true s)))
    ∧ (id ≤ 511 → s.sl.atts.any (fun k => k.ctx == s.ctxNo && k.id == id) = true → 1 < (wordOf o.b).toNat →
      exec i s = .next (awaits (finishWith i.ins (targets o [0x80000006]) 4 (some 4) true s)))

/-- R22, R94, R95, R97, R210, R214, R215, R224: loads that the core serves, and what they get: a thread's own stored bytes, and those of a valid
copy. -/
def Obligations.LoadsFromTheCore : Prop :=
  (∀ (i : Instr) (size : Nat) (signed : Bool) (n : BitVec 7) (s : State) (e : TlbEnt) (bs : List Byte) (vt : Option Nat),
    let o := operands i.ins s
    let a := addressOf (dwordOf o.a) n size
    loadForm i = some (size, signed, n) → Executes i s → AddressOk a size → tlbHit s.xl.coreTlb s.ctxNo a.toNat .read = some e →
    bundlePath i.ins n size (servedAtHome (memOrd i.payload)) (e.home a.toNat) s = .value bs vt →
    exec i s = .next (finishWith i.ins (targets o (loaded size signed bs)) 40 none true (sees vt (l1Touch (lineOf (e.home a.toNat)) s))))
  ∧ (∀ (i : Ins) (n : BitVec 7) (size h : Nat) (s : State), AloneAt (lineOf h) s → ∀ home, bundlePath i n size home h s = loadPath s h size home)
  ∧ (∀ (s : State) (h size : Nat) (bs : List Byte), isX h = false → h % 128 + size ≤ 128 → bs.length = size → (∀ q ∈ ownQueue s s.th.uid, q.atom = none) →
    ((∀ k < size, (lastAt (waitingBytes s) (h + k)).isSome = true) ∨ ∀ k < size, lastAt (waitingBytes s) (h + k) = none) →
    (∀ k < size, ownByteAt s (h + k) = some (bs.getD k 0) ∧ dirtyBad s (h + k) = false) → loadPath s h size false = .value bs none)
  ∧ (∀ (s : State) (h size : Nat) (l : L1Line), isX h = false → 0 < size → h % 64 + size ≤ 64 → ownQueue s s.th.uid = [] →
    (∀ k < size, lastAt (ownSent s s.th.uid) (h + k) = none) → l1Find s (lineOf h) = some l →
    let first := decide (h % 128 < 64)
    let bs := (List.range size).map (fun k => stGet 0 l.bytes (h % 128 + k))
    (∃ k < size, l.dirty.testBit (h % 128 + k) = false) → (if first then l.valid0 else l.valid1) = true → s.clock.tbase < (if first then l.exp0 else l.exp1) →
    inWriteBack s h size = false → (if first then l.poison0 else l.poison1) = false →
    loadPath s h size false = .value bs (some (if first then l.vt0 else l.vt1)))
  ∧ ∀ (i j : Instr) (size : Nat) (n m : BitVec 7) (signed : Bool) (s t : State) (e e' : TlbEnt),
    let o := operands i.ins s
    let a := addressOf (dwordOf o.a) n size
    let h := e.home a.toNat
    let v := operands j.ins t
    let b := addressOf (dwordOf v.a) m size
    storeForm i = some (size, n) → Executes i s → AddressOk a size → tlbHit s.xl.coreTlb s.ctxNo a.toNat .write = some e →
    ownQueue s s.th.uid = [] → lineHeld s 1 h = false → bundleEvict s s.bundleNo (lineOf h) = none → (memOrd i.payload).rel = false →
    (memOrd i.payload).scope < 3 → (memOrd i.payload).hint ≠ 1 → isX h = false → h % 128 + size ≤ 128 → AloneAt (lineOf h) s →
    (∀ l, l1Find s (lineOf h) = some l → stWf 0 l.bytes = true) → exec i s = .next t →
    loadForm j = some (size, signed, m) → Executes j t → AddressOk b size → tlbHit t.xl.coreTlb t.ctxNo b.toNat .read = some e' → e'.home b.toNat = h →
    servedAtHome (memOrd j.payload) = false → (∀ k < size, dirtyBad t (h + k) = false) →
    exec j t = .next (finishWith j.ins (targets v (loaded size signed (leBytes o.d.toNat size))) 40 none true (l1Touch (lineOf h) t))

/-- R97, R210, R216, R220, R232, R233, R240, R241: loads that the home serves, multicast ones too. -/
def Obligations.LoadsAskTheHome : Prop :=
  (∀ (i : Instr) (size : Nat) (signed : Bool) (n : BitVec 7) (s : State) (e : TlbEnt),
    let o := operands i.ins s
    let a := addressOf (dwordOf o.a) n size
    let ord := memOrd i.payload
    let h := e.home a.toNat
    let u := beforeAsking ord h s
    loadForm i = some (size, signed, n) → Executes i s → AddressOk a size → tlbHit s.xl.coreTlb s.ctxNo a.toNat .read = some e →
    bundlePath i.ins n size (servedAtHome ord) h s = .ask → NoFillToJoin h u →
    exec i s = .next (goesOrAcquires ord i.ins u.nextId (asked (blanks o (loadRegs size)) 40 (.fill (fillOf ord a h size signed u)) u)))
  ∧ (∀ (sw : Bool) (t r n : BitVec 7) (p : Payload) (s : State) (e : TlbEnt),
    let i := Instr.ldmcQ sw t r n p
    let o := operands i.ins s
    let a := addressOf (dwordOf o.a) n 16
    let ord := memOrd p
    let h := e.home a.toNat
    let u := beforeAsking ord h s
    Executes i s → AddressOk a 16 → tlbHit s.xl.coreTlb s.ctxNo a.toNat .read = some e → ownQueue s s.th.uid = [] →
    (isX h = false → isPoisoned s h 16 = false) → NoFillToJoin h u →
    (∀ m ∈ u.pl.net, ∀ x, m.body = .mcast x → x.line = lineOf h → x.mask = dwordOf o.b → x.bundle ≠ s.bundleNo) →
    exec i s = .next (goesOrAcquires ord i.ins u.nextId (asked (blanks o 4) 40
      (if isX h = false ∧ (dwordOf o.b).getLsbD (coreBit s) = true
        then .mcast { line := lineOf h, n0 := min (16 * (s.xid % 72 / 16)) 56, mask := dwordOf o.b, bit := coreBit s, lease := u.curCtx.lease.toNat, bundle := s.bundleNo
                      waits := [waitOf a h 16 false u] }
        else .fill (fillOf { ord with hint := 0 } a h 16 false u)) u)))

/-- R94, R95, R97, R215, R219, R232: stores. -/
def Obligations.StoresLeaveTheThread : Prop :=
  ∀ (i : Instr) (size : Nat) (n : BitVec 7) (s : State) (e : TlbEnt),
    let o := operands i.ins s
    let a := addressOf (dwordOf o.a) n size
    let ord := memOrd i.payload
    let q := queuedOf s ord (atAddr (e.home a.toNat) (leBytes o.d.toNat size))
    storeForm i = some (size, n) → Executes i s → AddressOk a size → tlbHit s.xl.coreTlb s.ctxNo a.toNat .write = some e →
    exec i s = .next (steps i.ins (if ord.rel || lineHeld s (spaceOf (e.home a.toNat)) (e.home a.toNat) then queues q s else putStore q s))

/-- R22, R215: a plain store is in the L1, and device memory is as it was. -/
def Obligations.StoredBytesAreInTheCore : Prop :=
  ∀ (i : Instr) (size : Nat) (n : BitVec 7) (s : State) (e : TlbEnt),
    let o := operands i.ins s
    let a := addressOf (dwordOf o.a) n size
    let h := e.home a.toNat
    storeForm i = some (size, n) → Executes i s → AddressOk a size → tlbHit s.xl.coreTlb s.ctxNo a.toNat .write = some e →
    lineHeld s 1 h = false → bundleEvict s s.bundleNo (lineOf h) = none → (memOrd i.payload).rel = false → (memOrd i.payload).scope < 3 → (memOrd i.payload).hint ≠ 1 → isX h = false →
    h % 128 + size ≤ 128 →
    ∃ t l, exec i s = .next t ∧ l1Find t (lineOf h) = some l
      ∧ (∀ k < size, l.dirty.testBit (h % 128 + k) = true)
      ∧ l.bytes = stSetAll 0 (((l1Find s (lineOf h)).map (·.bytes)).getD []) (atAddr (h % 128) (leBytes o.d.toNat size))
      ∧ ∀ x, getByte t.mem x = getByte s.mem x

/-- R24, R94, R95, R278, R279, R344: loads and stores of a stream, and addresses that may not be used. -/
def Obligations.StreamAccessesAndBadAddresses : Prop :=
  ((∀ (i : Instr) (size : Nat) (signed : Bool) (n : BitVec 7) (s : State) (e : TlbEnt),
    let o := operandsC i.ins s
    let a := addressOf (dwordOf o.a) n size
    let h := e.home a.toNat
    loadForm i = some (size, signed, n) → Streams i s → AddressOk a size → tlbHit s.xl.clusterTlb s.ctxNo a.toNat .read = some e →
    (isX h = true ∨ isPoisoned s h size = false) →
    let w : LoadWait :=
      { stream := some s.sq.n, slot := 0, lane := 0, pc := s.sq.pc, tag := s.nextId, va := a, pa := h, size := size, signed := signed }
    let t := finishWithS i.ins (o.pd.toList.map (fun p => (p, 0))) 40 none false s
    exec i s = .next { t with
      nextId := s.nextId + 2
      pl := { s.pl with net := s.pl.net ++ [{ id := s.nextId + 1, body := .fill { line := lineOf h, sec := h % 128 / 64, lease := 0, ctx := s.ctxNo, alloc := false, waits := [w] } }] } })
  ∧ (∀ (i : Instr) (size : Nat) (n : BitVec 7) (s : State) (e : TlbEnt),
    let o := operandsC i.ins s
    let a := addressOf (dwordOf o.a) n size
    storeForm i = some (size, n) → Streams i s → AddressOk a size → tlbHit s.xl.clusterTlb s.ctxNo a.toNat .write = some e →
    exec i s = .next (onlyGoesS i.ins (s.sq.pc + if i.payload.isSome then 8 else 4) { s with
      nextId := s.nextId + 1
      pl := { s.pl with net := s.pl.net ++ [{ id := s.nextId, body := (.write (
        { ws := atAddr (e.home a.toNat) (leBytes o.d.toNat size), writer := .stream s.sq.n s.sq.block (((s.block? s.sq.block).map (·.tree)).getD 0)
          depth := ((s.block? s.sq.block).map (·.depth)).getD 0, ctx := s.ctxNo } : WriteMsg)) }] } }))
  ∧ ∀ (i : Instr) (size : Nat) (n : BitVec 7) (s : State), ((∃ g, loadForm i = some (size, g, n)) ∨ storeForm i = some (size, n)) → Streams i s →
    let a := addressOf (dwordOf (operandsC i.ins s).a) n size
    (canonical a = false → exec i s = .next (stopStream 4 s))
    ∧ (canonical a = true → a.toNat % size ≠ 0 → exec i s = .next (stopStream 3 s)))
  ∧ (∀ (i : Instr) (size : Nat) (n : BitVec 7) (s : State), ((∃ g, loadForm i = some (size, g, n)) ∨ storeForm i = some (size, n)) → Executes i s →
    let a := addressOf (dwordOf (operands i.ins s).a) n size
    (canonical a = false → exec i s = .next (raise { cause := .addrCanon, addr := a } s))
    ∧ (canonical a = true → a.toNat % size ≠ 0 → exec i s = .next (raise { cause := .align, addr := a, info := BitVec.ofNat 32 size } s)))

/-- R94, R95, R184, R234, R235, R237: scratch. -/
def Obligations.ScratchAccesses : Prop :=
  ((∀ (i : Instr) (size : Nat) (n : BitVec 7) (s : State) (h : Nat) (bs : List Byte),
    let o := operands i.ins s
    let off := offsetOf (wordOf o.a) n size
    scratchLoadForm i = some (size, n) → Executes i s → ScratchOk off size h s →
    (((∀ q ∈ s.pl.storeQ, q.uid = s.th.uid → q.scratch = none) ∧ bs = sramBytes s.pl.sram h off.toNat size) ∨ scratchBytes s h off.toNat size = some bs) →
    exec i s = .next (finishWith i.ins (targets o (loaded size false bs)) 18 none true s))
  ∧ (∀ (i : Instr) (size : Nat) (n : BitVec 7) (s : State) (h : Nat),
    let o := operands i.ins s
    let off := offsetOf (wordOf o.a) n size
    let ord := memOrd i.payload
    scratchStoreForm i = some (size, n) → Executes i s → ScratchOk off size h s → ord.rel = true ∨ lineHeld s 0 off.toNat = true →
    exec i s = .next (steps i.ins (queues { queuedOf s ord (atAddr off.toNat (leBytes o.d.toNat size)) with scratch := some h } s)))
  ∧ ∀ (i : Instr) (size : Nat) (n : BitVec 7) (s : State) (h : Nat),
    let o := operands i.ins s
    let off := offsetOf (wordOf o.a) n size
    scratchStoreForm i = some (size, n) → Executes i s → ScratchOk off size h s → lineHeld s 0 off.toNat = false → (memOrd i.payload).rel = false →
    exec i s = .next (steps i.ins { s with pl := { s.pl with
      sram := soSetAll s.pl.sram (atAddr (h * 2 ^ 20 + off.toNat) (leBytes o.d.toNat size)) } }))
  ∧ ((∀ (i : Instr) (f : Nat) (s : State) (h : Nat),
    let o := operands i.ins s
    let off := (wordOf o.a).toNat
    let ord := memOrd i.payload
    let u := withBlank (blanks o (if atomicBytes f = 8 then 2 else 1)) 18 s
    scratchAtomicForm i = some f → Executes i s → ScratchOk off (atomicBytes f) h s → ord.rel = true ∨ lineHeld s 0 off = true →
    exec i s = .next (goesOrWaits ord i.ins s.nextId
      (queues { queuedOf s ord [] with atom := some (atomicStep f 0 off o s), scratch := some h } u)))
  ∧ ∀ (i : Instr) (f : Nat) (s : State) (h : Nat),
    let o := operands i.ins s
    let off := (wordOf o.a).toNat
    let old : DWord := BitVec.ofNat 64 (leNat (sramBytes s.pl.sram h off (atomicBytes f)))
    scratchAtomicForm i = some f → Executes i s → ScratchOk off (atomicBytes f) h s → lineHeld s 0 off = false → (memOrd i.payload).rel = false →
    let u := match atomicNew f old (dwordOf o.b) (dwordOf o.d) with
      | none => s
      | some v => { s with pl := { s.pl with sram := soSetAll s.pl.sram (atAddr (h * 2 ^ 20 + off) (leBytes v (atomicBytes f))) } }
    exec i s = .next (finishWith i.ins (targets o (oldWords f old)) 18 none true u))

/-- R95, R219, R234, R237, R238: global atomics. -/
def Obligations.AtomicsLeaveForTheHome : Prop :=
  ∀ (i : Instr) (f : Nat) (s : State) (e : TlbEnt),
    let o := operands i.ins s
    let a := dwordOf o.a
    let h := e.home a.toNat
    let ord := memOrd i.payload
    let k := atomicStep f a h o s
    let u := withBlank (blanks o (if atomicBytes f = 8 then 2 else 1)) 40 s
    atomicForm i = some f → Executes i s → AddressOk a (atomicBytes f) → tlbHit s.xl.coreTlb s.ctxNo a.toNat .atomic = some e →
    (isX h = false → isPoisoned s h (atomicBytes f) = false) →
    exec i s = .next (goesOrWaits ord i.ins s.nextId
      (if ord.rel || lineHeld s (spaceOf h) h then queues { queuedOf s ord [] with atom := some k } u else sendAtomic k s.th.depth s.bundleNo s.ctxNo u))

/-- R235, R236: the operations of atomics. -/
def Obligations.AtomicValues : Prop :=
  ∀ (f : Nat) (old b d : DWord), f ≤ 15 → amoNew f old b d = (atomicNew f old b d).map (BitVec.ofNat 64)

/-- R219 to R221, R244, R245, R348: fences and `wct`. Which times the largest WCT is over is log entry 30. -/
def Obligations.FencesAndWriteTimes : Prop :=
  (∀ (i : Instr) (acq rel : Bool) (scope : Nat) (mask : BitVec 3) (s : State), fenceRule i = some (acq, rel, scope, mask) → Executes i s →
    (NoDeferred s → exec i s = .next (waitsIn i.ins (.fence acq rel scope mask) s)) ∧ ∀ d, TakesDeferred i d s)
  ∧ (∀ (sw : Bool) (d : BitVec 7) (s : State), let i := Instr.wct sw d
    let p := (operands i.ins s).pd.getD 0
    Executes i s →
    exec i s = .next (if writesOpen s s.th.uid = true ∨ ownQueue s s.th.uid ≠ [] then waitsIn i.ins (.wct p) s
      else overWith [(p, BitVec.ofNat 32 s.th.wctMax), (p + 1, BitVec.ofNat 32 (s.th.wctMax / 2 ^ 32))] 4 (waitsIn i.ins (.wct p) s)))

/-- R98, R216, R246, R374: ranges. That the thread waits first for its own stores with release points is the model's choice (log entry 16), and
so are the sum modulo 2^64 of the last address (log entry 70) and that its pages are asked for no permission (log entry 86). -/
def Obligations.RangesFlushAndInvalidate : Prop :=
  ∀ (i : Instr) (sw : Bool) (a b : BitVec 7) (s : State), (i = .flush sw a b ∨ i = .icinv sw a b) → Executes i s →
    let o := operands i.ins s
    let base := dwordOf o.a
    let len := (wordOf o.b).toNat
    let last := lastByte base len
    let own := ownQueue s s.th.uid
    (len = 0 → exec i s = .next (steps i.ins s))
    ∧ (len ≠ 0 → canonical base = true → canonical last = true → own ≠ [] → exec i s = .next { s with th := { s.th with park := .storeWait } })
    ∧ (len ≠ 0 → canonical base = false → exec i s = .next (raise { cause := .addrCanon, addr := base } s))
    ∧ (len ≠ 0 → canonical base = true → canonical last = false → exec i s = .next (raise { cause := .addrCanon, addr := last } s))
    ∧ (len ≠ 0 → canonical base = true → canonical last = true → own = [] → i = .flush sw a b →
      let ps := findPages s.ctxNo (rangePages base.toNat len) s
      let u := ps.2
      ps.1 = none →
      let w := writeBackAll (fun l => inPages u.th.found base.toNat len l.line) .evict { u with th := { u.th with found := [] } }
      exec i s = .next (waitsIn i.ins (.flush w.1) w.2))
    ∧ (len ≠ 0 → canonical base = true → canonical last = true → own = [] → i = .icinv sw a b →
      let ps := findPages s.ctxNo (rangePages base.toNat len) s
      let u := ps.2
      ps.1 = none →
      let w := writeBackAll (fun l => inPages u.th.found base.toNat len l.line) (.forced u.th.uid) u
      exec i s = .next (waitsIn i.ins (.icinv (base.toNat / 128 * 128) ((base.toNat + len + 127) / 128 * 128) w.1) w.2))
    ∧ (len ≠ 0 → canonical base = true → canonical last = true → own = [] → ∀ p u, findPages s.ctxNo (rangePages base.toNat len) s = (some p, u) →
      exec i s = .next { wantWalk s.ctxNo (p * 4096) .read u with th := { u.th with park := .pages p } })

/-- R247, R248, R374: `fwait` and `pref`. -/
def Obligations.FutureWaitsAndPrefetches : Prop :=
  (∀ (sw : Bool) (d a b : BitVec 7) (s : State) (e : TlbEnt), let i := Instr.fwait sw d a b
    let o := operands i.ins s
    let v := dwordOf o.a
    let h := e.home v.toNat
    Executes i s → AddressOk v 4 → tlbHit s.xl.coreTlb s.ctxNo v.toNat .read = some e → ownQueue s s.th.uid = [] →
    (isX h = false → isPoisoned s h 4 = false) →
    let u := if isX h then s else (writeBack (lineOf h) (.forced s.th.uid) s).2
    exec i s = .next (waitsIn i.ins (.fwait v h (wordOf o.b) o.pd false) u))
  ∧ (∀ (sw : Bool) (a : BitVec 7) (s : State) (e : TlbEnt), let i := Instr.pref sw a
    let v := dwordOf (operands i.ins s).a
    let h := e.home v.toNat
    Executes i s → canonical v = true → s.th.got ≠ some (s.th.pc, v.toNat % 2 ^ 57 / 4096, none) → tlbHit s.xl.coreTlb s.ctxNo v.toNat .read = some e → isX h = false →
    sectorValid s (lineOf h) (h % 128 / 64) = false →
    exec i s = .next (steps i.ins { s with
      nextId := s.nextId + 1
      pl := { s.pl with net := s.pl.net ++ [{ id := s.nextId, body := .fill { line := lineOf h, sec := h % 128 / 64, lease := s.curCtx.lease.toNat, ctx := s.ctxNo, bundle := s.bundleNo } }] } }))
  ∧ (∀ (sw : Bool) (a : BitVec 7) (s : State) (e : TlbEnt), let i := Instr.pref sw a
    let v := dwordOf (operands i.ins s).a
    let h := e.home v.toNat
    Executes i s → s.th.got ≠ some (s.th.pc, v.toNat % 2 ^ 57 / 4096, none) → (canonical v = false ∨ (tlbHit s.xl.coreTlb s.ctxNo v.toNat .read = some e
      ∧ (isX h = true ∨ sectorValid s (lineOf h) (h % 128 / 64) = true))) → exec i s = .next (steps i.ins s))
  ∧ (∀ (sw : Bool) (a : BitVec 7) (s : State), let i := Instr.pref sw a
    let v := dwordOf (operands i.ins s).a
    Executes i s → canonical v = true → s.th.got ≠ some (s.th.pc, v.toNat % 2 ^ 57 / 4096, none) → tlbHit s.xl.coreTlb s.ctxNo v.toNat .read = none →
    tlbHit s.xl.clusterTlb s.ctxNo v.toNat .read = none → tlbHit s.xl.dieTlb s.ctxNo v.toNat .read = none →
    let t := wantWalk s.ctxNo v.toNat .read s
    exec i s = .next { t with th := { t.th with park := .pref v.toNat } })
  ∧ (∀ (sw : Bool) (a : BitVec 7) (s u : State) (e : TlbEnt), let i := Instr.pref sw a
    let v := dwordOf (operands i.ins s).a
    let h := e.home v.toNat
    Executes i s → canonical v = true → s.th.got ≠ some (s.th.pc, v.toNat % 2 ^ 57 / 4096, none) → AboveCore v e s u →
    (isX h = true ∨ sectorValid s (lineOf h) (h % 128 / 64) = true → exec i s = .next (steps i.ins u))
    ∧ (isX h = false → sectorValid s (lineOf h) (h % 128 / 64) = false → exec i s = .next (steps i.ins { u with
        nextId := u.nextId + 1
        pl := { u.pl with net := u.pl.net ++ [{ id := u.nextId, body := .fill { line := lineOf h, sec := h % 128 / 64, lease := u.curCtx.lease.toNat, ctx := u.ctxNo, bundle := u.bundleNo } }] } })))
  ∧ ∀ (sw : Bool) (a : BitVec 7) (s : State), let i := Instr.pref sw a
    let v := dwordOf (operands i.ins s).a
    Executes i s → canonical v = true → s.th.got = some (s.th.pc, v.toNat % 2 ^ 57 / 4096, none) →
    exec i s = .next (steps i.ins { s with th := { s.th with got := none } })

/-- R149 to R152, R344: barriers and crossings. -/
def Obligations.BarriersOfThreads : Prop :=
  ((∀ (sw : Bool) (a : BitVec 7) (n : BitVec 4) (s : State) (b : Block), let i := Instr.nbInit sw a n
    let v := (highestValue i.ins s).toNat
    let r := barOf b n.toNat
    Executes i s → s.thBlock = some b → 1 ≤ v → v ≤ 65535 → r.pending = r.count → barWaited s b.handle n.toNat = false → engineOwes s b.handle n.toNat = false →
    exec i s = .next (steps i.ins (setBar b.handle n.toNat { count := v, pending := v, phase := r.phase } s)))
  ∧ (∀ (sw : Bool) (a : BitVec 7) (n : BitVec 4) (s : State) (b : Block), let i := Instr.nbInit sw a n
    let v := (highestValue i.ins s).toNat
    let r := barOf b n.toNat
    Executes i s → s.thBlock = some b →
    (v = 0 ∨ 65535 < v → exec i s = .next (raise { cause := .barArg, info := n.zeroExtend 32 } s))
    ∧ (1 ≤ v → v ≤ 65535 → r.pending ≠ r.count ∨ barWaited s b.handle n.toNat = true ∨ engineOwes s b.handle n.toNat = true →
      exec i s = .next (raise { cause := .barBusy, info := n.zeroExtend 32 } s)))
  ∧ (∀ (i : Instr) (n : Nat) (d : Option Nat) (meet : Bool) (s : State) (b : Block), arrivalRule (operands i.ins s) i = some (n, d, meet) →
    Executes i s → NoDeferred s → s.thBlock = some b → exec i s = .next (waitsIn i.ins (.arrive n d meet) s))
  ∧ (∀ (i : Instr) (s : State) (d : Deferred), ((∃ x, arrivalRule (operands i.ins s) i = some x) ∨ ∃ sw r a n, i = .nbWait sw r a n) →
    Executes i s → TakesDeferred i d s)
  ∧ (∀ (sw : Bool) (d a : BitVec 7) (n : BitVec 4) (s : State) (b : Block), let i := Instr.nbWait sw d a n
    let token := (wordOf (operands i.ins s).a).toNat % 65536
    Executes i s → NoDeferred s → s.thBlock = some b → (barOf b n.toNat).phase = token →
    exec i s = .next (waitsIn i.ins (.barWait n.toNat token (operands i.ins s).pd) s))
  ∧ ∀ (i : Instr) (w : Word) (s : State), barNumber i = some w → Executes i s → NoDeferred s → s.thBlock = none →
    exec i s = .next (raise { cause := .barNone, info := w } s))
  ∧ (∀ (h n : Nat) (st : Word) (tid : Option Nat) (s : State) (b : Block), s.block? h = some b →
    let r := barOf b n
    let first := if r.status = 0 then st else r.status
    (r.count = 0 → arriveBar h n st tid s = none)
    ∧ (r.count ≠ 0 → ∃ t b', arriveBar h n st tid s = some t ∧ t.block? h = some b' ∧ (barOf b' n).count = r.count
      ∧ (r.pending ≠ 1 → r.pending ≠ 0 → (barOf b' n).pending = r.pending - 1 ∧ (barOf b' n).phase = r.phase ∧ (barOf b' n).status = first ∧ (barOf b' n).last = r.last)
      ∧ (r.pending = 1 → (barOf b' n).pending = r.count ∧ (barOf b' n).phase = (r.phase + 1) % 2 ^ 16 ∧ (barOf b' n).status = 0 ∧ (barOf b' n).last = first
        ∧ (barOf b' n).arrived = 0)
      ∧ (r.pending = 1 → t = waitersGo h n { r with last := first, phase := (r.phase + 1) % 2 ^ 16 } (setBar h n { r with
          last := first, status := 0, pending := r.count, phase := (r.phase + 1) % 2 ^ 16, arrived := 0
          part := match tid with | some k => r.part ||| 2 ^ k | none => r.part } s))))
  ∧ (∀ (i : Instr) (op k : Nat) (s : State), crossingRule i = some (op, k) → Executes i s →
    let o := operands i.ins s
    let mask := wordOf o.b
    (s.thBlock.bind (·.stream) = none → exec i s = .next (raise { cause := .xredNone, info := BitVec.ofNat 32 k } s))
    ∧ ∀ n, s.thBlock.bind (·.stream) = some n →
      exec i s = .next (if mask.getLsbD s.warp.wid = true then waitsIn i.ins (.xredRel op k (dwordOf o.a) mask) s
        else raise { cause := .collSelf, info := mask } s))

/-- R128, R129, R141, R146, R147: collectives, and what each member gets at their end. -/
def Obligations.CollectivesMeet : Prop :=
  (∀ (i : Instr) (f : Nat) (s : State), collectiveForm i = some f → Executes i s →
    let o := operands i.ins s
    let c := instanceWith i.ins f o s
    let u := arrivedIn i.ins f o s
    ((memberMask f o).getLsbD s.th.lane = false → exec i s = .next (raise { cause := .collSelf, info := memberMask f o } s))
    ∧ ((memberMask f o).getLsbD s.th.lane = true → c.mask = memberMask f o → c.inh = s.th.inh → collCycle u c = [] →
      let gone := c.mask &&& ~~~(livingMask u c.slot)
      (c.mask &&& livingMask u c.slot &&& ~~~(arrivedMask c) ≠ 0 → exec i s = .next u)
      ∧ (c.mask &&& livingMask u c.slot &&& ~~~(arrivedMask c) = 0 → gone = 0 → exec i s = .next (completeColl c u))
      ∧ (c.mask &&& livingMask u c.slot &&& ~~~(arrivedMask c) = 0 → gone ≠ 0 → exec i s = .next (collFails c .collExited gone u)))
    ∧ ((memberMask f o).getLsbD s.th.lane = true → c.mask ≠ memberMask f o ∨ c.inh ≠ s.th.inh →
      exec i s = .next (collFails c .collMismatch c.mask (waitsIn i.ins .coll s)))
    ∧ ∀ x t, (memberMask f o).getLsbD s.th.lane = true → c.mask = memberMask f o → c.inh = s.th.inh → collCycle u c = x :: t →
      exec i s = .next ((x :: t).foldl (fun v y => collFails y .collMismatch y.mask v) u))
  ∧ ∀ (c : Coll) (s : State), (c.got.map (·.lane)).Nodup →
    (c.f = 14 → completeColl c s = membersEnd c (fun _ => goesAgain) s)
    ∧ (c.f ≠ 13 → c.f ≠ 14 → completeColl c s = membersEnd c (fun g => overWith (targets { pd := g.dst } [collWord c.f c.got g]) 8) s)
    ∧ (c.f = 13 → ∀ me ∈ c.got, let F := me.fv.toNat
      ((∃ g ∈ c.got, g.fv ≠ me.fv) → completeColl c s = membersTrap c (fun g => { cause := .fmtDiverge, info := g.fv }) s)
      ∧ ((∀ g ∈ c.got, g.fv = me.fv) → ¬ WmmFormat F → completeColl c s = membersTrap c (fun g => { cause := .fmtInvalid, info := g.fv }) s)
      ∧ ((∀ g ∈ c.got, g.fv = me.fv) → WmmFormat F → (∀ g ∈ c.got, g.lane < 32) →
        completeColl c s = membersEnd c (fun g => overWith (targets { pd := g.dst } [wmmSum F c.got (g.lane / 4) (2 * (g.lane % 4)) (g.dv.toNat % 2 ^ 32),
          wmmSum F c.got (g.lane / 4) (2 * (g.lane % 4) + 1) (g.dv.toNat / 2 ^ 32)]) 16) s))

/-- R34, R141 to R146: the values of collectives; a floating-point one that is a NaN is the canonical NaN. -/
def Obligations.CollectiveSums : Prop :=
  ∀ (got : List CollArrival) (me : CollArrival), (got.map (·.lane)).Nodup → (∀ g ∈ got, g.lane < 32) → me ∈ got →
    collWord 0 got me = truth (∃ g ∈ got, g.av ≠ 0) ∧ collWord 1 got me = truth (∀ g ∈ got, g.av ≠ 0)
    ∧ (∀ l < 32, (collWord 2 got me).getLsbD l = got.any (fun g => g.lane == l && g.av != 0))
    ∧ collWord 3 got me = BitVec.ofNat 32 (got.map (fun g => g.av.toNat)).sum
    ∧ collWord 7 got me = BitVec.ofNat 32 ((got.filter (fun g => decide (g.lane ≤ me.lane))).map (fun g => g.av.toNat)).sum
    ∧ ((∃ g ∈ got, collWord 5 got me = g.av) ∧ ∀ g ∈ got, (collWord 5 got me).toInt ≤ g.av.toInt)
    ∧ ((∃ g ∈ got, collWord 6 got me = g.av) ∧ ∀ g ∈ got, g.av.toInt ≤ (collWord 6 got me).toInt)
    ∧ collWord 9 got me = BitVec.ofNat 32 ((got.filter (inSegment got me)).map (fun g => g.av.toNat)).sum
    ∧ collWord 4 got me = noPayload ((laneTree wordSum (broughtAt got (·.av)) 5 0).getD 0)
    ∧ collWord 8 got me = noPayload ((laneScan wordSum (broughtAt got (·.av)) 5 me.lane).getD 0)
    ∧ collWord 10 got me = noPayload (((laneScan (segment wordSum) (broughtAt got (fun g => (startsSegment g, g.av))) 5 me.lane).map (·.2)).getD 0)
    ∧ collWord 11 got me = BitVec.ofNat 32 (intersects got me)
    ∧ (∀ l < 32, (collWord 12 got me).getLsbD l = got.any (fun g => g.lane == l && countsNonZero g))
    ∧ collWord 15 got me = (broughtAt got (·.av) (me.dv.toNat % 32)).getD 0
    ∧ ((∃ g ∈ got, g.fv ≠ me.fv) → collEnd 13 got = .diverge)
    ∧ ((∀ g ∈ got, g.fv = me.fv) → ¬ WmmFormat me.fv.toNat → collEnd 13 got = .badFormat)
    ∧ ((∀ g ∈ got, g.fv = me.fv) → WmmFormat me.fv.toNat → collEnd 13 got = .results (got.map (fun g =>
      (g.lane, [wmmSum me.fv.toNat got (g.lane / 4) (2 * (g.lane % 4)) (g.dv.toNat % 2 ^ 32),
        wmmSum me.fv.toNat got (g.lane / 4) (2 * (g.lane % 4) + 1) (g.dv.toNat / 2 ^ 32)]))))

/-- R326 to R329, R332, R334: operations of the copy engine and the fetch unit. That an operation with a poisoned descriptor is queued with
CP_POISON is the model's reading (log entry 33). -/
def Obligations.CopiesAndFetchesQueue : Prop :=
  (∀ (i : Instr) (k : CopyKind) (s v : State) (e : TlbEnt) (bs : List Byte), copyForm i = some k → Executes i s →
    let o := operands i.ins s
    let p := i.payload.getD 0
    let h := e.home (dwordOf o.a).toNat
    AddressOk (dwordOf o.a) 64 → copyHeld s < 32 → FollowsReleases p s → tlbHit s.xl.coreTlb s.ctxNo (dwordOf o.a).toNat .read = some e →
    (s.warp.block ≠ none ∨ payloadBar p = none) →
    (s.th.got = none → loadPath s h 64 false = .poison →
      let u := queuedOp i.ins k 0 o s
      exec i s = .next (steps i.ins { u.2 with cl := { u.2.cl with copyQ := u.2.cl.copyQ ++ [{ u.1 with status := engStatus 0x23 0 1 0, bv := dwordOf o.b }] } }))
    ∧ (HasRecord h bs s v →
    let u := queuedOp i.ins k 0 o v
    exec i s = .next (steps i.ins { u.2 with cl := { u.2.cl with copyQ := u.2.cl.copyQ ++ [{ withDesc u.2 (BitVec.ofNat 512 (leNat bs)) u.1 with bv := dwordOf o.b }] } })))
  ∧ (∀ (sw : Bool) (d a b : BitVec 7) (p : Payload) (s : State), let i := Instr.fgetb sw d a b p
    let o := operands i.ins s
    Executes i s → AddressOk (dwordOf o.a) 64 → s.cl.fetchQ.length < 32 → FollowsReleases (p.getD 0) s → (s.warp.block ≠ none ∨ payloadBar (p.getD 0) = none) →
    let u := queuedOp i.ins .fgetb (o.b.truncate 128) o s
    exec i s = .next (steps i.ins { u.2 with cl := { u.2.cl with fetchQ := u.2.cl.fetchQ ++ [u.1] } }))
  ∧ (∀ (sw : Bool) (d a b : BitVec 7) (p : Payload) (s : State), let i := Instr.fget sw d a b p
    let o := operands i.ins s
    Executes i s → AddressOk (dwordOf o.a) 64 →
    exec i s = .next (waitsIn i.ins (.fget d o.pd (dwordOf o.a) (wordAt o.b 0) (wordAt o.b 1) i.ins.word) s))
  ∧ ∀ (i : Instr) (unit : Nat) (s : State), ((∃ k, copyForm i = some k) ∧ unit = 1 ∧ 32 ≤ copyHeld s
      ∨ (∃ sw d a b p, i = .fgetb sw d a b p) ∧ unit = 2 ∧ 32 ≤ s.cl.fetchQ.length) → Executes i s →
    AddressOk (dwordOf (operands i.ins s).a) 64 → exec i s = .next { s with th := { s.th with park := .queueFull unit } }

/-- R277, R279, R280, R294, R297: tile instructions. Which operations count in the dither phase is the model's choice (log entry 76), and so is
the order of the errors at entry creation (log entry 33). -/
def Obligations.TileInstructionsEnterTheTable : Prop :=
  ∀ (i : Instr) (x : Nat × Nat × Nat × BitVec 7 × BitVec 7 × BitVec 7) (s : State), tileForm i = some x → Streams i s →
    let e0 := entryFor x i.payload s
    (tableRoom s = false → exec i s = .next { s with sq := { s.sq with park := .tableFull } })
    ∧ (∀ v al, tableRoom s = true → (v, al) ∈ entryAddrs e0 → canonical v = false → exec i s = .next (stopStream 4 s))
    ∧ (∀ v al, tableRoom s = true → (v, al) ∈ entryAddrs e0 → canonical v = true → v.toNat % al ≠ 0 → exec i s = .next (stopStream 3 s))
    ∧ (tableRoom s = true → (∀ v al, (v, al) ∈ entryAddrs e0 → canonical v = true ∧ v.toNat % al = 0) →
      let w := acquireWriteBack e0.payload none s
      let c := x.1 = 0x30 ∧ x.2.1 = 2
      let e := { e0 with waitIds := w.1, tag := if c then some w.2.nextId else none }
      let u : State := { w.2 with
        nextId := if c then w.2.nextId + 1 else w.2.nextId
        sq := { w.2.sq with
          pend := if c then w.2.sq.pend ++ [{ tag := w.2.nextId, regs := [(e.dnum, 0)], ready := false, issued := w.2.clock.cycle, minLat := 40, maxLat := none }] else w.2.sq.pend
          dph := if takesPhase e && !e.resumed then (w.2.sq.dph + 1) % 64 else w.2.sq.dph }
        cl := { w.2.cl with table := w.2.cl.table ++ [e], nextSeq := w.2.cl.nextSeq + 1 } }
      let t := if kindsOk u e = false then failEntry e stShape 0 u else if fmtOk e = false then failEntry e stFmt 0 u else settleEntry e.seq u
      exec i s = .next (onlyGoesS i.ins (t.sq.pc + if i.payload.isSome then 8 else 4) t))

/-- R318 to R322: the control instructions of streams. -/
def Obligations.StreamControl : Prop :=
  (∀ (sw : Bool) (a : BitVec 7) (n : BitVec 4) (s : State) (b : Block), let i := Instr.sbarInit sw a n
    let v := (readC s.sq a.toNat).toNat
    let r := barOf b n.toNat
    Streams i s → s.block? s.sq.block = some b → 1 ≤ v → v ≤ 65535 → r.pending = r.count → barWaited s b.handle n.toNat = false →
    engineOwes s b.handle n.toNat = false →
    exec i s = .next (onlyGoesS i.ins (s.sq.pc + 4) (setBar b.handle n.toNat { count := v, pending := v, phase := r.phase } s)))
  ∧ (∀ (sw : Bool) (d : BitVec 7) (n : BitVec 4) (s : State), let i := Instr.sbarArrive sw d n
    Streams i s → exec i s = .next (waitsInS i.ins (.barArrive n.toNat d.toNat) s))
  ∧ (∀ (sw : Bool) (d a : BitVec 7) (n : BitVec 4) (s : State) (b : Block), let i := Instr.sbarWait sw d a n
    let token := (readC s.sq a.toNat).toNat % 65536
    Streams i s → s.block? s.sq.block = some b → (barOf b n.toNat).phase = token →
    exec i s = .next (waitsInS i.ins (.barWait n.toNat token d.toNat) s))
  ∧ (∀ (sw : Bool) (d : BitVec 7) (k : BitVec 3) (e : BitVec 7) (s : State), let i := Instr.xrd sw d k e
    let want := (readC s.sq e.toNat).toNat % 2 ^ 32
    Streams i s → want ≠ 0 → 2 ^ 31 ≤ (stGet 0 s.sq.xseq k.toNat + 2 ^ 32 - want) % 2 ^ 32 →
    exec i s = .next (waitsInS i.ins (.xrd k.toNat want d.toNat) s))
  ∧ (∀ (sw : Bool) (c m : BitVec 3) (s : State), let i := Instr.sfence sw c m
    Streams i s → exec i s = .next (waitsInS i.ins (.sfence c.toNat m ((s.cl.table.filter (·.ctx == s.sq.n)).map (·.seq))) s))
  ∧ ∀ (sw : Bool) (s : State), s.actor = .stream →
    exec (.send sw) s = .next (settleSeq s.sq.n { s with sq := { s.sq with stop := 1, park := .none } })

/-- R169: `kwait`. The machine-mode exception is of the RISC-V privileged specification (log entry 57). -/
def Obligations.HartsWait : Prop :=
  ∀ (i : Instr) (rel : DWord → DWord → Bool) (b a d : BitVec 5) (s : State), kwaitRule i = some (rel, b, a, d) →
    let addr := (hartGet s.hart a).toNat
    let v := hartGet s.hart b
    let m : DWord := BitVec.ofNat 64 (getLe s.mem addr 8)
    let h : Hart := { s.hart with pct := max s.hart.pct (lineRec s (lineOf addr)).vl }
    (addr % 8 ≠ 0 → exec i s = .next { s with hart := hartTrap 4 addr s.hart })
    ∧ (addr % 8 = 0 → addr ≥ Config.memBytes → exec i s = .next { s with hart := hartTrap 5 addr s.hart })
    ∧ (addr % 8 = 0 → addr < Config.memBytes → isFrozen s masterCp = true → exec i s = .next s)
    ∧ (addr % 8 = 0 → addr < Config.memBytes → isFrozen s masterCp = false → reaches s masterCp addr 8 = false →
      exec i s = .next (freeze masterCp 0 addr s))
    ∧ (addr % 8 = 0 → addr < Config.memBytes → isFrozen s masterCp = false → reaches s masterCp addr 8 = true →
      exec i s = .next { s with hart := (
        if isPoisoned s addr 8 = true then hartTrap 5 addr s.hart
        else if rel m v = true then
          { h with x := if d = 0 then h.x else stSet 0 h.x d.toNat m, pc := (h.pc + 4) % 2 ^ 64, wait := none, minstret := h.minstret + 1 }
        else { h with wait := some (kwaitCmp i, addr, v.toNat, d.toNat) }) })

/-- R26 to R28, R30, R123, R346: results, ages and held traps. The state is put back as it was around the thread. -/
def Obligations.ResultsAgesAndTraps : Prop :=
  (∀ (slot lane : Nat) (s : State) (before rest : List (Result 32)) (r : Result 32), Concerns s slot lane →
    let b := s.bring slot lane
    b.th.pend = before ++ r :: rest → MayWrite r before b →
    exec (.registerResultWrite (.thread slot lane) r.tag) s = .next (s.putBack slot lane { b with th := wrote b.th r (before ++ rest) }))
  ∧ (∀ (n : Nat) (s : State) (before rest : List (Result 64)) (r : Result 64), s.holds n = true →
    let b := s.bringStream n
    b.sq.pend = before ++ r :: rest → MayWrite r before b →
    exec (.registerResultWrite (.stream n) r.tag) s = .next (s.putBackStream n { b with sq := wroteS b.sq r (before ++ rest) }))
  ∧ (∀ (slot lane : Nat) (s : State), Concerns s slot lane →
    let b := s.bring slot lane
    exec (.readyAgeMark (.thread slot lane)) s = .next (s.putBack slot lane { b with th := { b.th with marked := b.th.marked || decide (b.th.age ≥ 1024) } }))
  ∧ ∀ (slot lane : Nat) (s : State) (t : Trap) (pc : DWord) (d : Bool), Concerns s slot lane →
    let b := s.bring slot lane
    b.th.park = .trap t pc d → CanTrap b →
    exec (.trapEntry (.thread slot lane)) s
      = .next (s.putBack slot lane (inHandler (causeCode t.cause + if d then 256 else 0) pc t.addr t.info b))

/-- R88, R98, R101, R149, R152, R198, R200, R214, R219, R220, R246, R255, R256: the ends of waits, and what a release point waits for. That `icinv` takes
every address of the lines is log entry 24, and which requests a `wshrink` waits behind log entry 75. -/
def Obligations.ParkedInstructionsEnd : Prop :=
  (∀ (slot lane : Nat) (s : State), Concerns s slot lane →
    let b := s.bring slot lane
    let a : Agent := .thread slot lane
    (∀ till, b.th.park = .yield till → till < b.clock.cycle → exec (.yieldExpiry a) s = .next (s.putBack slot lane (goesAgain b)))
    ∧ (∀ n v, b.th.park = .csrw n v → exec (.csrwInForce a) s = .next (s.putBack slot lane (goesAgain (csrForce b.ctxNo n v b))))
    ∧ (∀ ids, b.th.park = .flush ids → (∀ m ∈ b.pl.net, ids.contains m.id = false) →
      exec (.flushComplete a) s = .next (s.putBack slot lane (goesAgain b)))
    ∧ (∀ lo hi ids, b.th.park = .icinv lo hi ids → (∀ m ∈ b.pl.net, ids.contains m.id = false) → writesOpen b b.th.uid = false →
      b.th.pct ≤ b.clock.tbase →
      exec (.icinvComplete a) s = .next (s.putBack slot lane (goesAgain { dropCode b.ctxNo lo hi b.th.found b with th := { b.th with found := [] } })))
    ∧ (∀ tag n, b.th.park = .wshrink tag n → otherReq b b.th.slot = false → olderShrink b b.th.slot tag = false → shrinkWaits b b.th.slot n = false →
      exec (.wshrinkComplete a) s = .next (s.putBack slot lane (shrinkTo b.th.slot n { b with th := resumed (b.th.arrive tag [0]) })))
    ∧ (∀ tag h, b.th.park = .poolRel tag → b.warp.block = some h → scratchOpen b h = false →
      exec (.poolRelComplete a) s = .next (s.putBack slot lane (releaseScratch h b.th.slot { b with th := resumed (b.th.arrive tag [0]) })))
    ∧ (∀ d k, b.th.park = .watch d k →
      exec (.watchComplete a) s = .next (s.putBack slot lane
        (overWith (d.toList.map (fun p => (p, BitVec.ofNat 32 k.id))) 4 { b with sl := { b.sl with atts := b.sl.atts ++ [k] } })))
    ∧ (∀ d id discard, b.th.park = .unwatch d id discard →
      let u := if discard then discardRecords b.ctxNo id (stopAtt b.ctxNo id b) else stopAtt b.ctxNo id b
      hasRecords u u.ctxNo id = false →
      exec (.unwatchComplete a) s = .next (s.putBack slot lane (overWith (d.toList.map (fun p => (p, 0))) 4 (freeAtt u.ctxNo id u))))
    )
  ∧ (∀ (slot lane : Nat) (s : State), let v := queuedPoint slot lane s
    Concerns v slot lane →
    let b := v.bring slot lane
    let goes := fun (r : Bool × State) (k : State → State) => exec (.releasePoint (.thread slot lane)) s = .next (v.putBack slot lane (if r.1 then k r.2 else r.2))
    (∀ acq scope mask, b.th.park = .fence acq true scope mask → goes (releaseStep b.th.uid b.nextId scope mask none b) goesAgain)
    ∧ (∀ acq scope mask, b.th.park = .fence acq false scope mask →
      (ReadsServed b (b.th.pend.map (·.tag)) mask none → goes (true, b) goesAgain) ∧ (¬ ReadsServed b (b.th.pend.map (·.tag)) mask none → goes (false, b) goesAgain))
    ∧ (∀ n d meet, b.th.park = .arrive n d meet → goes (releaseStep b.th.uid b.nextId 2 0b011 none b) (applyArrive n d meet))
    ∧ (∀ op k x mask, b.th.park = .xredRel op k x mask → goes (releaseStep b.th.uid b.nextId 4 0b011 none b) (applyXred op k x mask)))
  ∧ (∀ (uid seq scope : Nat) (mask : BitVec 3) (own : Option Nat) (s : State),
    let r := releaseStep uid seq scope mask own s
    (mask.getLsbD 1 = true → (s.pl.l1.map (·.line)).Nodup → (∃ l ∈ s.pl.l1, l.dirty ≠ 0 ∧ l.scope < scope) → r.1 = false)
    ∧ (mask.getLsbD 1 = true → (s.pl.l1.map (·.line)).Nodup → ∀ l ∈ s.pl.l1, l.dirty ≠ 0 → l.scope < scope →
      (∃ c, l1Find r.2 l.line = some c ∧ c.dirty = 0 ∧ c.bytes = l.bytes)
      ∧ ∃ m ∈ r.2.pl.net, ∃ w, m.body = .write w ∧ w.writer = .forced uid ∧ w.ack = none
        ∧ ∀ k < 128, l.dirty.testBit k = true → (l.line * 128 + k, stGet 0 l.bytes k) ∈ w.ws)
    ∧ (mask.getLsbD 1 = true → (∀ l ∈ s.pl.l1, l.dirty = 0 ∨ scope ≤ l.scope) →
      r.2 = joinsBacks uid scope s ∧ (r.1 = true ↔ Released uid seq scope mask own (joinsBacks uid scope s)))
    ∧ (mask.getLsbD 1 = false → r.2 = s ∧ (r.1 = true ↔ Released uid seq scope mask own s)))
  ∧ (∀ (slot lane : Nat) (s : State), s.pl.puts = [] →
    ((∀ q ∈ s.pl.storeQ, ¬ (q.slot = slot ∧ q.lane = lane)) → queuedPoint slot lane s = s)
    ∧ ∀ q, s.pl.storeQ = [q] → q.slot = slot → q.lane = lane →
      let r := match q.rel with
        | none => (true, s)
        | some (scope, mask) => releaseStep q.uid q.seq scope mask (q.atom.map (fun (x : AtomicStep) => x.tag)) s
      let u : State := { r.2 with pl := { r.2.pl with storeQ := [] } }
      let w := if q.scratch.isNone then holdLoads [(slot, lane)] (queuedLine q) u else u
      let ends := fun (t : State) => t.updThreads (fun v => decide (v.park = .storeWait) && v.uid == q.uid) (fun v => { v with park := .none })
      (r.1 = false → queuedPoint slot lane s = r.2)
      ∧ (r.1 = true → q.scratch = none → q.atom = none → queuedPoint slot lane s = ends (putStore q w))
      ∧ (r.1 = true → q.scratch = none → ∀ x, q.atom = some x → queuedPoint slot lane s = ends (sendAtomic x q.depth q.bundle q.ctx w))
      ∧ (∀ h o b bs, r.1 = true → q.scratch = some h → q.atom = none → q.ws = (o, b) :: bs → queuedPoint slot lane s
        = ends { u with pl := { u.pl with sram := soSetAll u.pl.sram (atAddr (h * 2 ^ 20 + o) (q.ws.map (·.2))) } })
      ∧ ∀ h x, r.1 = true → q.scratch = some h → q.atom = some x → x.f ≤ 15 →
        let old : DWord := BitVec.ofNat 64 (leNat (sramBytes u.pl.sram h x.pa (atomicBytes x.f)))
        let v : State := match atomicNew x.f old x.b x.expect with
          | none => u
          | some n => { u with pl := { u.pl with sram := soSetAll u.pl.sram (atAddr (h * 2 ^ 20 + x.pa) (leBytes n (atomicBytes x.f))) } }
        queuedPoint slot lane s = ends (v.updThreads (·.uid == q.uid) (gets x.tag (oldWords x.f old))))
  ∧ (∀ (n : Nat) (d : Option Nat) (s : State) (b : Block), s.thBlock = some b →
    let token := (barOf b n).phase
    (∀ meet, (barOf b n).count = 0 → applyArrive n d meet s = trapAt s.th.slot s.th.lane { cause := .barArg, info := BitVec.ofNat 32 n } s)
    ∧ (∀ u, arriveBar b.handle n 0 (some s.th.tid) s = some u →
      applyArrive n d false s = overWith (d.toList.map (fun p => (p, BitVec.ofNat 32 token))) 4 u)
    ∧ ∀ u, arriveBar b.handle n 0 (some s.th.tid) { s with th := { s.th with park := .barWait n token d } } = some u → applyArrive n d true s = u)
  ∧ (∀ (op k : Nat) (v : DWord) (mask : Word) (s : State) (b : Block), s.thBlock = some b →
    let others := b.crossings.filter (·.k != k)
    let x := (b.crossings.find? (·.k == k)).getD { k := k, op := op, mask := mask }
    (x.mask ≠ mask → applyXred op k v mask s = (x.got.map (fun g => (g.1, g.2.1)) ++ [(s.th.slot, s.th.lane)]).foldl
      (fun s g => trapAt g.1 g.2 { cause := .collMismatch, info := x.mask } s) (s.updBlock b.handle (fun b => { b with crossings := b.crossings.filter (·.k != k) })))
    ∧ (x.mask = mask →
      let y : Crossing := { x with got := x.got ++ [(s.th.slot, s.th.lane, v)], mixed := x.mixed || x.op != op }
      let u := ({ s with th := { s.th with park := .xred k } } : State).updBlock b.handle (fun b => { b with crossings := b.crossings.filter (·.k != k) ++ [y] })
      let waits := ∃ t ∈ u.living, (u.warpAt t.slot).block = some b.handle ∧ mask.getLsbD (u.warpAt t.slot).wid = true ∧ ∀ g ∈ y.got, ¬ (g.1 = t.slot ∧ g.2.1 = t.lane)
      (waits → applyXred op k v mask s = u)
      ∧ (¬ waits → y.mixed = false → ∀ q, b.stream = some q.n → q ∈ u.allSeqs → q.held = true → q.block = b.handle → (u.allSeqs.map (·.n)).Nodup → q.park = .none →
        stWf 0 q.xseq = true → stWf 0 q.xval = true →
        let all := y.got.map (fun g => ((u.warpAt g.1).wid, g.2.1, g.2.2))
        let val := (laneTree (xredOp x.op) (fun w => laneTree (xredOp x.op) (fun l => (all.find? (fun g => g.1 == w && g.2.1 == l)).map (·.2.2)) 5 0) 5 0).getD 0
        let t := applyXred op k v mask s
        (∀ z, t.block? b.handle = some z → z.crossings = others)
        ∧ (∃ z ∈ t.allSeqs, z.n = q.n ∧ stGet 0 z.xseq k = (stGet 0 q.xseq k + 1) % 2 ^ 32
          ∧ (x.op ≠ 7 → stGet 0 z.xval k = val) ∧ (x.op = 7 → (Fmt.f64.decode val.toNat).isNan = false → stGet 0 z.xval k = val)
          ∧ (x.op = 7 → (Fmt.f64.decode val.toNat).isNan = true → stGet 0 z.xval k = 0x7FF8000000000000))
        ∧ ∀ z ∈ u.living, (∃ g ∈ y.got, z.is g.1 g.2.1 = true) → resumed z ∈ t.living)))
  ∧ ∀ (c n : Nat) (v : Word) (s : State) (x : Ctx), s.ctx? c = some x → n ∈ [0x100, 0x101, 0x102, 0x103, 0x104] →
    let u := s.updCtx c (ctxWritten n v)
    (n ≠ 0x104 → csrForce c n v s = u)
    ∧ (n = 0x104 → (∀ q, onChip u q c ≤ max 8 (min 256 v.toNat)) → csrForce c n v s = u)

/-- R25, R122, R247 to R249, R328: reads that a parked thread waits for. -/
def Obligations.ReadsOfParkedInstructions : Prop :=
  ∀ (slot lane : Nat) (s : State), Concerns s slot lane →
    let b := s.bring slot lane
    let a : Agent := .thread slot lane
    (∀ va pa e d, b.th.park = .fwait va pa e d false → (∀ l, l1Find b (lineOf pa) = some l → l.dirty = 0) → lineClear b pa = true →
      windowHolds b (lineOf pa) = false → Reaches b (masterCore b) b.ctxNo pa 4 → isPoisoned b pa 4 = false →
      let w : Word := BitVec.ofNat 32 (leNat (homeBytes b pa 4))
      let c := sees (some (lineRec b (lineOf pa)).vl) b
      (w ≠ e ∨ waitRoom b pa = false →
        exec (.fwaitRetry a) s = .next (s.putBack slot lane (overWith (d.toList.map (fun p => (p, w))) 40 (l1Forget pa c))))
      ∧ (w = e → waitRoom b pa = true →
        let u := waitJoin pa b.th.slot b.th.lane c
        exec (.fwaitRetry a) s = .next (s.putBack slot lane { u with th := { u.th with park := .fwait va pa e d true } })))
    ∧ (∀ df dst handle row col word h vt0 u0 bs vt u1 v, b.th.park = .fget df dst handle row col word →
      let f : FetchFor := { ctx := b.ctxNo, thread := true, fresh := false }
      fetchHandle f handle.toNat b = (.ok (h, vt0), u0) → fgetRegs (fhElem h) df dst word u0.warp.regsPer = none → handleOk h = true →
      arraysInG u0 f.ctx h = .ok true → row.toNat < fhRows h → col.toNat < fhCols h →
      fetchUnits f h (rowUnits h row.toNat col.toNat 1) u0 = (.ok (bs, vt), u1) → (fetchElem (unitReader bs) h row.toNat col.toNat).go.1 = .ok v →
      let ws := if fhElem h = 1 then dwordWords (BitVec.ofNat 64 v) else [BitVec.ofNat 32 v]
      let t := sees (some (max vt0 vt)) u1
      exec (.fgetDecode a) s = .next (s.putBack slot lane (goesAgain (withKnown (targets { pd := dst } ws) 40 t))))
    ∧ ∀ va e, b.th.park = .ifetch va → tlbHit b.xl.coreTlb b.ctxNo va .fetch = some e →
      let base := e.home va / 128 * 128
      Reaches b (masterCore b) b.ctxNo base 128 → isPoisoned b (e.home va) 4 = false →
      exec (.instructionFetchFill a) s = .next (s.putBack slot lane (wakeFetch va (learnCode b.ctxNo (BitVec.ofNat 57 va) base (homeBytes b base 128) b)))

/-- R97, R209, R210, R213 to R215, R224, R235, R237, R238, R242, R243, R267: messages between the core and the homes. That a thread whose `cas` failed in
a merged request counts as having carried bytes is log entry 105, and that a refusal of another context's attachment is recorded in the writer's
log entry 104. -/
def Obligations.MessagesAtTheHome : Prop :=
  (∀ (id : Nat) (s : State) (m : Msg) (w : WriteMsg) (x : Nat × Byte) (ws : List (Nat × Byte)), IsMsg id m s → m.body = .write w → w.ws = x :: ws →
    Serves m s → isX x.1 = false → Reaches s (writerMaster s w.writer) w.ctx (spanLo w.ws) (spanLen w.ws) →
    let c := commit w.ws w.depth (.die (writerDie s w.writer)) s
    let u : State := { c.1 with sl := { c.1.sl with poison := c.1.sl.poison ++ w.poison.filter (fun p => !c.1.sl.poison.contains p) } }
    exec (.writeCommit id) s = .next (netUpd id (fun _ => .write { w with ack := some (c.2.1, c.2.2) }) u))
  ∧ (∀ (id : Nat) (s : State) (m : Msg) (w : WriteMsg) (t : Nat) (rf : List Refused), IsMsg id m s → m.body = .write w →
    w.ack = some (t, rf) → mayReturn s m = true → exec (.writeAck id) s = .next (ackOf id w t rf (netDrop id s)))
  ∧ (∀ (id : Nat) (s : State) (m : Msg) (a : AtomicMsg) (t : Nat) (rf : List Refused), IsMsg id m s → m.body = .atomic a →
    a.ack = some (t, rf) → mayReturn s m = true →
    let who := a.steps.map (fun x => ({ uid := x.uid, tree := x.tree, lo := x.pa, len := atomicBytes x.f, seq := x.tag } : Share))
    exec (.writeAck id) s = .next (wctsEnd (rf.foldl (fun s r => refusal a.ctx (brought who r) r s)
      (who.foldl (fun s x => joinsTree x.tree t (joins x.uid x.seq t s)) (netDrop id s)))))
  ∧ (∀ (id : Nat) (s : State) (m : Msg) (f : Fill), IsMsg id m s → m.body = .fill f → Serves m s → (s.pl.net.map (·.id)).Nodup →
    let base := f.line * 128 + f.sec * 64
    Reaches s (fillMaster s f) f.ctx base 64 →
    (∀ y ∈ s.pl.net, ∀ g, y.body = .fill g → y.id ≠ id → g.bundle = f.bundle → g.line = f.line → g.reply.isSome = true) →
    let g := grantLease f.line f.lease s.did s
    let replied := fun (r : List Byte × Nat × Nat × Bool) (u : State) => netUpd id (fun _ => .fill { f with reply := some r }) u
    (isPoisoned s base 64 = true → exec (.fillRequest id) s = .next (replied ([], 0, 0, true) s))
    ∧ (isPoisoned s base 64 = false → f.alloc = true →
      exec (.fillRequest id) s = .next (replied (getBytes s.mem base 64, g.2.1, g.2.2, false) (timesReads f.waits g.2.2 g.1)))
    ∧ (isPoisoned s base 64 = false → f.alloc = false →
      exec (.fillRequest id) s = .next (replied (getBytes s.mem base 64, 0, (lineRec s f.line).vl, false) (timesReads f.waits (lineRec s f.line).vl s))))
  ∧ (∀ (id : Nat) (s : State) (m : Msg) (f : Fill), IsMsg id m s → m.body = .fill f → Serves m s →
    Reaches s (fillMaster s f) f.ctx (f.line * 128 + f.sec * 64) 64 → (∀ w ∈ f.waits, w.stream = none) →
    ∃ t, exec (.fillRequest id) s = .next t ∧ ∀ y ∈ s.pl.net, ∀ g, y.body = .fill g → g.bundle = f.bundle → g.line = f.line → (∀ w ∈ g.waits, w.stream = none) →
      mayServe s y = true → ∀ z ∈ t.pl.net, z.id = y.id → bodyServed z.body = true)
  ∧ (∀ (id : Nat) (s : State) (m : Msg) (f : Fill) (bs : List Byte) (e vt : Nat) (bad : Bool), IsMsg id m s → m.body = .fill f →
    f.reply = some (bs, e, vt, bad) → mayReturn s m = true →
    let u := if f.alloc = true ∧ bad = false then l1Install f.line f.sec bs e vt f.keep (netDrop id s)
      else if f.waits.any (·.stream.isNone) then l1Invalidate f.line f.sec (netDrop id s) else netDrop id s
    exec (.fillReply id) s = .next (f.waits.foldl (fun s w => deliver w (partOf (f.line * 128 + f.sec * 64) bs w) vt bad s) u))
  ∧ (∀ (line sec : Nat) (bs : List Byte) (e vt : Nat) (keep : Bool) (s : State), bs.length = 64 → sec < 2 →
    (∀ l, l1Find s line = some l → stWf 0 l.bytes = true) →
    ∃ l, l1Find (l1Install line sec bs e vt keep s) line = some l
      ∧ (if sec = 0 then l.valid0 = true ∧ l.exp0 = e ∧ l.vt0 = vt else l.valid1 = true ∧ l.exp1 = e ∧ l.vt1 = vt)
      ∧ ∀ k < 64, l.dirty.testBit (64 * sec + k) = false → stGet 0 l.bytes (64 * sec + k) = bs.getD k 0)
  ∧ (∀ (w : LoadWait) (bs : List Byte) (vt : Nat) (s : State), w.stream = none → w.size ∈ [1, 2, 4, 8, 16, 32] → Concerns s w.slot w.lane →
    let b := s.bring w.slot w.lane
    b.th.pend.any (·.tag == w.tag) = true → b.th.park ≠ .record w.tag → b.th.park ≠ .ret w.tag → w.bad = false →
    (∀ k < w.size, w.known.any (·.1 == w.pa + k) = true ∨ dirtyBad b (w.pa + k) = false) →
    deliver w bs vt false s = s.putBack w.slot w.lane (loadGets w bs vt b)
    ∧ (takesAny b w = true → ∃ u, deliver w bs vt true s = s.putBack w.slot w.lane u
      ∧ u.th = { b.th with pend := b.th.pend.filter (·.tag != w.tag), park := .trap { cause := .poison, addr := w.va } (pc64 w.pc) false, smark := false }))
  ∧ (∀ (id : Nat) (s : State) (m : Msg) (a : AtomicMsg), IsMsg id m s → m.body = .atomic a → Serves m s →
    Reaches s (masterCore s) a.ctx (bodyLine m.body * 128) 128 → a.steps ≠ [] →
    (∀ x ∈ a.steps, x.f ≤ 15 ∧ x.pa % atomicBytes x.f = 0 ∧ isX x.pa = false ∧ isPoisoned s x.pa 1 = false) →
    let r := amoRun s [] a.steps
    let c := match r.2 with
      | [] => (s, 0, [])
      | ws => commit ws a.depth (.die s.did) s
    exec (.atomicAtHome id) s = .next (netUpd id (fun _ => .atomic { a with ack := some (c.2.1, c.2.2) })
      (r.1.foldl (oldArrives (lineRec s (bodyLine m.body)).vl) c.1)))
  ∧ (∀ (id : Nat) (s : State) (m : Msg) (x : McastMsg), IsMsg id m s → m.body = .mcast x → mayServe s m = true → otherWindow s x = false →
    Reaches s (masterCore s) x.ctx (x.line * 128) 128 →
    let bit : DWord := 1#64 <<< x.bit
    let v := netDrop id s
    let windows := fun (l : List Window) => ({ v with sl := { v.sl with windows := l } } : State)
    let late := fun (w : Window) => sameWindow x w && w.closed.any (fun k => decide (s.clock.cycle < k + w.len)) && w.asked &&& bit == 0
    let open_ := s.sl.windows.findIdx? (fun w => sameWindow x w && w.closed.isNone)
    (∀ i w, open_ = some i → s.sl.windows[i]? = some w →
      let y : Window := { w with joined := w.joined ||| bit, asked := w.asked ||| bit, reqs := w.reqs ++ [x] }
      (w.mask &&& ~~~(w.asked ||| bit) ≠ 0 → exec (.mcastRequest id) s = .next (windows (s.sl.windows.set i y)))
      ∧ (w.mask &&& ~~~(w.asked ||| bit) = 0 → exec (.mcastRequest id) s = .next ((w.reqs ++ [x]).foldl (fun s x => mcastReply x s)
        (windows (s.sl.windows.set i { y with closed := some s.clock.cycle, reqs := [] })))))
    ∧ (∀ i w, open_ = none → s.sl.windows.findIdx? late = some i → s.sl.windows[i]? = some w →
      exec (.mcastRequest id) s = .next (mcastReply x (windows (s.sl.windows.set i { w with asked := w.asked ||| bit }))))
    ∧ (open_ = none → s.sl.windows.findIdx? late = none → 16 ≤ (s.sl.windows.filter (fun w => w.slice == homeSlice (x.line * 128))).length →
      exec (.mcastRequest id) s = .next (mcastReply x v))
    ∧ (open_ = none → s.sl.windows.findIdx? late = none → (s.sl.windows.filter (fun w => w.slice == homeSlice (x.line * 128))).length < 16 →
      let y : Window := { slice := homeSlice (x.line * 128), line := x.line, n0 := x.n0, mask := x.mask, joined := bit, asked := bit, reqs := [x], opened := s.clock.cycle, len := s.curCtx.mcwin.toNat }
      (x.mask &&& ~~~bit ≠ 0 → exec (.mcastRequest id) s = .next (windows (s.sl.windows ++ [y])))
      ∧ (x.mask &&& ~~~bit = 0 → exec (.mcastRequest id) s = .next (mcastReply x (windows (s.sl.windows ++ [{ y with closed := some s.clock.cycle, reqs := [] }]))))))
  ∧ (∀ (x : McastMsg) (s : State), mcastHere s x = true → isPoisoned s (x.line * 128) 1 = false → isPoisoned s (x.line * 128 + 64) 1 = false →
    (∀ w ∈ x.waits, lineOf w.pa = x.line) →
    let g := grantLease x.line x.lease s.did s
    let bs := getBytes s.mem (x.line * 128) 128
    let half := fun (k : Nat) (u : State) => if mayInstall u x.line k = true then l1Install x.line k ((bs.drop (64 * k)).take 64) g.2.1 g.2.2 false u else u
    mcastReply x s = x.waits.foldl (fun s w => deliver w ((bs.drop (w.pa - x.line * 128)).take w.size) g.2.2 false s) (servedPast x.line (half 1 (half 0 g.1))))
  ∧ (∀ (k : Nat) (s : State) (w : Window), s.sl.windows[k]? = some w → w.closed = none → w.opened + w.len ≤ s.clock.cycle →
    exec (.mcastWindowClose k) s = .next (w.reqs.foldl (fun s x => mcastReply x s)
      { s with sl := { s.sl with windows := s.sl.windows.set k { w with closed := some s.clock.cycle, reqs := [] } } }))
  ∧ (∀ (k c : Nat) (s : State) (w : Window), s.sl.windows[k]? = some w → w.closed = some c →
    (c + w.len ≤ s.clock.cycle ∨ w.mask &&& ~~~w.asked = 0) → exec (.mcastSlotFree k) s = .next { s with sl := { s.sl with windows := s.sl.windows.eraseIdx k } })
  ∧ ∀ (id : Nat) (s : State) (m a : Msg), IsMsg id m s → a ∈ s.pl.net.takeWhile (·.id != id) → bodyLine a.body = bodyLine m.body →
    (exec (.writeAck id) s = .next s ∧ exec (.fillReply id) s = .next s)
    ∧ (bodyServed a.body = false → exec (.writeCommit id) s = .next s ∧ exec (.fillRequest id) s = .next s ∧ exec (.atomicAtHome id) s = .next s
      ∧ exec (.mcastRequest id) s = .next s)

/-- R210, R211, R213: commits and leases. -/
def Obligations.CommitsAndLeases : Prop :=
  (∀ (x : Nat × Byte) (ws : List (Nat × Byte)) (depth : Nat) (f : From) (s : State), s.sl.atts = [] →
    let r := lineRec s (lineOf x.1)
    let q := homeSlice x.1
    let t := s.clock.tbase
    let bound := match f with
      | .die d => if d = q / 72 ∧ r.expOff ≤ t then 2 else 4
      | .module => 4
      | .other => 40
    let c := commit (x :: ws) depth f s
    c.1.mem = setBytes s.mem (x :: ws) ∧ c.2.1 = max t r.exp + bound ∧ c.2.2 = [] ∧ (lineRec c.1 (lineOf x.1)).vl = max t r.exp + bound
      ∧ (lineRec c.1 (lineOf x.1)).exp = r.exp)
  ∧ ∀ (l len die : Nat) (s : State),
    let g := grantLease l len die s
    g.2.1 = s.clock.tbase + len ∧ g.2.2 = (lineRec s l).vl ∧ s.clock.tbase + len ≤ (lineRec g.1 l).exp ∧ (lineRec s l).exp ≤ (lineRec g.1 l).exp
      ∧ g.1.mem = s.mem

/-- R164 to R167, R263 to R265: pulls, moves, rings and the dispatch of trigger records. From which one segment a die pulls is the model's choice
(log entry 41), and so is the order of equal entries (log entry 79). -/
def Obligations.QueuesOfWork : Prop :=
  (∀ (s : State) (q : Nat), MayPull .die s.sched.dieQ.length s → (pullOrder s).find? (fun k => !(segTake s k).isEmpty) = some q →
    let u := setSeg q (without (segOf s q) (segTake s q)) s
    (segTake s q).length ≤ 8
    ∧ exec (.queuePull .die) s = .next (onTheWay .die (segTake s q)
        { u with sched := { u.sched with lastSlice := if q / 72 = s.did then q else s.sched.lastSlice } }))
  ∧ (∀ (s : State), MayPull .cluster s.sched.clusterQ.length s → ∀ bs rest, splitBlocks 8 (inOrder s.clock.cycle s.sched.dieQ) = (bs, rest) → bs ≠ [] →
    exec (.queuePull .cluster) s = .next (onTheWay .cluster bs { s with sched := { s.sched with dieQ := rest } }))
  ∧ (∀ (s : State), MayPull .core s.sched.coreQ.length s → ownRecords s ≠ [] →
    exec (.queuePull .core) s = .next (onTheWay .core (ownRecords s) (setSeg s.xid (without (segOf s s.xid) (ownRecords s)) s)))
  ∧ (∀ (s : State), MayPull .core s.sched.coreQ.length s → ownRecords s = [] → s.sched.clusterQ ≠ [] →
    let es := (inOrder s.clock.cycle s.sched.clusterQ).take 8
    exec (.queuePull .core) s = .next (onTheWay .core es { s with sched := { s.sched with clusterQ := without s.sched.clusterQ es } }))
  ∧ (∀ (s : State) (es : List QEntry) (rest : List QMove),
    (s.sched.moving = { toLvl := .die, entries := es } :: rest → s.sched.dieQ.length + es.length ≤ 512 →
      exec .queueMoveComplete s = .next { s with sched := { s.sched with moving := rest, dieQ := s.sched.dieQ ++ es } })
    ∧ (s.sched.moving = { toLvl := .cluster, entries := es } :: rest → s.sched.clusterQ.length + es.length ≤ 64 →
      exec .queueMoveComplete s = .next { s with sched := { s.sched with moving := rest, clusterQ := s.sched.clusterQ ++ es } })
    ∧ (s.sched.moving = { toLvl := .core, entries := es } :: rest → s.sched.coreQ.length + es.length ≤ 32 →
      exec .queueMoveComplete s = .next { s with sched := { s.sched with
        moving := rest, coreQ := s.sched.coreQ ++ es.map (fun e => { e with entered := s.clock.cycle }) } }))
  ∧ (∀ (q c : Nat) (s : State) (r : WqRing), (segOf s q).length + 8 ≤ 256 → firstRing s q = some r → r.ctx = c →
    exec (.wqRingRefill q c) s = .next (setRing { r with blocks := r.blocks.tail } (setSeg q (segOf s q ++ r.blocks.headD []) s)))
  ∧ (∀ (q c : Nat) (s : State) (x : Ctx), s.ctx? c = some x → onChip s q c + 8 ≤ x.tqlim.toNat → (chipRecords s q).length + 8 ≤ 256 →
    let ring := trigRing s q c
    ring.tail < ring.head →
    exec (.triggerRefill q c) s = .next (setTrigRing { ring with tail := ring.tail + 1 } { s with sl := { s.sl with
      trigs := s.sl.trigs.map (fun r => if r.slice = q ∧ r.ctx = c ∧ r.spilled.map (· / 8) = some ring.tail then
        { r with spilled := none, tagged := true } else r) } }))
  ∧ (∀ (q c : Nat) (s : State),
    let ring := trigRing s q c
    0 < ring.lost → (∀ t, ring.reported = some t → t + 4096 ≤ s.clock.tbase) →
    exec (.trigOverflow q c) s = .next (ctxError c 16 (BitVec.ofNat 64 (q * 2 ^ 32 + ring.lost % 2 ^ 32))
      (setTrigRing { ring with lost := 0, reported := some s.clock.tbase } s)))
  ∧ ∀ (q : Nat) (s u : State) (r : TrigRec) (k : Att), (∀ x ∈ s.sl.lastDispatch, x.1 = q → x.2 + 4 ≤ s.clock.cycle) →
    nextTrig s q = some r → s.sl.atts.find? (fun k => k.ctx == r.ctx && k.id == r.aid) = some k →
    segPush q { ctx := r.ctx, tree := r.tree, prio := r.prio, since := s.clock.cycle, depth := r.depth, trig := some (r, k.entry)
                entered := s.clock.cycle, work := .task 0 k.lb k.args 1 0 } s = some u →
    (∀ y ∈ chipRecords s q, y.prio < r.prio ∨ (y.prio = r.prio ∧ r.seq ≤ y.seq))
    ∧ exec (.triggerDispatch q) s = .next { u with sl := { u.sl with
        trigs := u.sl.trigs.filter (fun y => !(y.seq == r.seq && y.slice == r.slice))
        lastDispatch := (q, s.clock.cycle) :: u.sl.lastDispatch.filter (·.1 != q) } }

/-- R14, R20, R134, R136, R157, R160, R163, R168, R190 to R192, R196, R197, R266: starts, ends and the pool manager. That of a queue's other entries
only blocks count for a quiet core is the model's choice (log entry 87). -/
def Obligations.BlocksWarpsAndTheirEnds : Prop :=
  (∀ (s u : State) (e : QEntry) (rest : List QEntry) (hdr lb args : DWord) (n bid : Nat) (l : BitVec 1024),
    (∀ b ∈ s.pl.blocks, b.argsWait = false) → (∀ c, s.sched.lastStart = some c → c + 4 ≤ s.clock.cycle) →
    inOrder s.clock.cycle s.sched.coreQ = e :: rest → e.work = .block hdr lb args n bid → ctxRuns s e.ctx = true → timePassed s e = true →
    lbAt s e.ctx lb = .ok (some l) → lbFail l = none →
    allocBlock e l (startArgs e hdr args n bid) { s with pl := { s.pl with ctx := some e.ctx } } = some u →
    exec .blockStart s = .next (serveArgs (dropEntry e { u with sched := { u.sched with lastStart := some s.clock.cycle } })))
  ∧ (∀ (e : QEntry) (l : BitVec 1024) (a : StartArgs) (s u : State), allocBlock e l a s = some u →
    (∀ t ∈ s.pl.threads, ∃ w ∈ s.pl.warps, w.slot = t.slot ∧ t.lane < 32) → BlockStarts e l a s u)
  ∧ (∀ (e : QEntry) (hdr args : DWord) (n bid : Nat),
    (e.trig = none → startArgs e hdr args n bid = ⟨hdr, args, n, bid, [(0, args.truncate 32), (1, args.extractLsb' 32 32)], none⟩)
    ∧ ∀ r entry, e.trig = some (r, entry) → startArgs e hdr args n bid
      = ⟨hdr, args, 1, 0, [(0, r.gaddr.truncate 32), (1, r.gaddr.extractLsb' 32 32), (2, BitVec.ofNat 32 r.depth), (3, BitVec.ofNat 32 r.aid)], some entry⟩)
  ∧ (∀ (b : Block) (s u : State) (e : TlbEnt) (bs : List Byte), tlbHit s.xl.coreTlb s.ctxNo b.args.toNat .read = some e → HasRecord (e.home b.args.toNat) bs s u →
    loadArgs b s = { u with pl := { u.pl with
      warps := u.pl.warps.map (fun w => if w.block = some b.handle then
        { w with consts := stSetAll 0 [] ((List.range 16).map (fun k => (k, BitVec.ofNat 32 (leNat ((bs.drop (4 * k)).take 4))))) } else w)
      blocks := u.pl.blocks.map (fun x => if x.handle = b.handle then { x with argsWait := false } else x) } })
  ∧ (∀ (s u : State) (e : QEntry) (rest : List QEntry),
    let l := s.sched.coreQ.filter (fun e => isCont e && ctxRuns s e.ctx)
    let g := gather e l
    l = e :: rest → releaseWarp g s = some u →
    ((g.length = 32 ∨ groupDue s.clock.cycle g = true ∨ coreQuiet s = true) →
      exec .formerWarpRelease s = .next (formWarps (fun g => g.length == 32 || groupDue s.clock.cycle g || coreQuiet s) (s.sched.coreQ.length - 1) u))
    ∧ (g.length < 32 → groupDue s.clock.cycle g = true →
      exec .formerPartialTimeout s = .next (formWarps (fun g => decide (g.length < 32) && groupDue s.clock.cycle g) (s.sched.coreQ.length - 1) u)))
  ∧ (∀ (t : Nat) (s : State) (tr : Tree), s.sched.trees.find? (·.n == t) = some tr → tr.detached = false → tr.count = 0 →
    tr.tct ≤ s.clock.tbase → s.cp.stopped = false → isFrozen s masterCp = false → planeHasTree s.pl t = false →
    planeHasTree s.standby.plane t = false → (∀ x ∈ s.slots, planeHasTree x.standby.plane t = false) →
    (∀ w, tr.sigAt = some w → w ≤ s.clock.tbase → exec (.treeComplete t) s = .next (dropTree tr (setIrq (69 + tr.ctx) s)))
    ∧ ∀ u, tr.sigAt = none → treeReleased tr.ctx s = (true, u) →
      (tr.sigAddr = 0 → exec (.treeComplete t) s = .next (dropTree tr u))
      ∧ ∀ h, tr.sigAddr ≠ 0 → engHome u masterCp tr.ctx tr.sigAddr.toNat .write 8 = .ok h →
        let v := cpStore tr.ctx h (leBytes tr.sigVal.toNat 8) (treeUpd t (fun r => { r with isOpen := false }) u)
        exec (.treeComplete t) s = .next (treeUpd t (fun r => { r with sigAt := some v.1 }) v.2))
  ∧ (∀ (s : State) (ks ids : List Nat) (use : BankUse) (w : Option Nat), s.pl.shake = some (.writeback ks ids use w) →
    (∀ m ∈ s.pl.net, ids.contains m.id = false) → (∀ x ∈ s.pl.l1, ks.contains x.bank = true → x.dirty = 0) →
    let u := answerReq w pOk (giveBanks ks use { s with pl := { s.pl with shake := none } })
    exec .cWritebackDone s = .next (nextShakes u.pl.shakeQ.length u))
  ∧ (∀ (s : State) (k : Nat) (moves : List (Nat × Nat × Nat)) (w : Option Nat), s.pl.shake = some (.reloc k moves w) → (∀ m ∈ moves, scratchIssued s m.1 = false) →
    let moved := moves.foldl (fun s m => s.updBlock m.1 (fun b => if b.scratch = 0 then b else { b with sbase := m.2.2 })) s
    let v := answerReq w pOk (trimArena (setBusy false moved.pl.arena { moved with pl := { moved.pl with shake := none } }))
    let u := wakeStores (unqueued v) v
    exec .relocationComplete s = .next (nextShakes u.pl.shakeQ.length u))
  ∧ ∀ (s : State) (x : Nat × Nat × Nat) (rest : List (Nat × Nat × Nat)), growAsks s = x :: rest → pagesCover s x.1 x.2.1 = true →
    exec .wgrowGrant s = .next (wakeGrow x.1 pOk (grantRegs x.1 x.2.1 s))

/-- R164, R169 to R171, R176, R177, R394, R395: the packets of Table 8-8, doorbells, kicks, the replay of graphs and `kwait`. That the value time of a read by WAIT or COND joins the
time of its queue is the model's reading (log entry 44), and so are the DETAIL of a refused kick (log entry 45) and what ends a JOIN (log
entry 92). -/
def Obligations.PacketsAct : Prop :=
  (∀ (q p : Nat) (s u v : State) (x : CpQueue) (h : BitVec 512), AtPacket 1 q x p s u → x.pct ≤ u.clock.tbase →
    launchCheck u x.ctx (pkAddr p) = .ok (.inr h) →
    launchSeed x.ctx (pkAddr p) h (BitVec.ofNat 32 (pkCount p)) x.pct
      { n := 0, ctx := x.ctx, count := 0, sigAddr := pkSig p, sigVal := pkSigVal p, queue := some x.q } u = some v →
    exec (.launch q) s = .next (retire x 1 v))
  ∧ (∀ (q p : Nat) (s u : State) (x : CpQueue) (h : Nat) (bs : List Byte), cpRead u x.ctx (pkAddr p).toNat 8 = .ok (h, bs) →
    let holds := relHolds (pkCmp p) (BitVec.ofNat 64 (leNat bs)) (pkVal p)
    let v := carries x (readTime h u).1 (readTime h u).2
    (AtPacket 2 q x p s u → exec (.wait q) s = .next (if holds then retire x 1 v else v))
    ∧ (AtPacket 5 q x p s u → exec (.cond q) s = .next
        (if holds then retire x 1 v else passOver x.q (setCpq x.q (fun y => { y with skip := pkSkip p }) (retire x 1 v)))))
  ∧ (∀ (q p h : Nat) (s u : State) (x : CpQueue), AtPacket 3 q x p s u → x.pct ≤ u.clock.tbase →
    (x.did = true → exec (.signal q) s = .next (retire x 1 (setIrq (69 + x.ctx) u)))
    ∧ (x.did = false → engHome u masterCp x.ctx (pkAddr p).toNat (if p / 256 % 2 = 1 then .atomic else .write) 8 = .ok h →
      (p / 256 % 2 = 1 → isX h = true ∨ isPoisoned u h 8 = false) →
      let new := if p / 256 % 2 = 1 then BitVec.ofNat 64 (leNat (homeBytes u h 8)) + pkVal p else pkVal p
      let v := cpStore x.ctx h (leBytes new.toNat 8) u
      exec (.signal q) s = .next (setCpq x.q (fun y => { y with did := true, pct := max y.pct v.1 }) v.2)))
  ∧ (∀ (q p : Nat) (s u : State) (x : CpQueue), AtPacket 4 q x p s u →
    exec (.join q) s = .next (if ∃ t ∈ u.sched.trees, t.queue = some x.q then u else retire x 1 u))
  ∧ (∀ (q p : Nat) (s u : State) (x : CpQueue), AtPacket 6 q x p s u →
    (x.did = true → x.pct ≤ u.clock.tbase → exec (.patch q) s = .next (retire x 1 u))
    ∧ (x.did = false → ∀ es ws, patchTable u x.ctx p = .ok es →
      es.mapM (fun e => (engHome u masterCp x.ctx (e.toNat % 2 ^ 64) .write 8).map (fun h => (h, leBytes (e.toNat / 2 ^ 64 % 2 ^ 64) 8))) = .ok ws →
      let v := ws.foldl (fun (a : Nat × State) w => (max a.1 (cpStore x.ctx w.1 w.2 a.2).1, (cpStore x.ctx w.1 w.2 a.2).2)) (x.pct, u)
      exec (.patch q) s = .next (setCpq x.q (fun y => { y with did := true, pct := v.1 }) v.2)))
  ∧ (∀ (q : Nat) (v : BitVec 64) (s : State), Accepts s → s.win.state = .ready → hostOpen s = false → s.cp.bells = [] →
    let u := setCpq q (fun y => { y with widx := v.toNat % 2 ^ 32 }) s
    exec (.doorbell q v) s = .next (if cpRuns s then passOver q u else u))
  ∧ (∀ (g : Nat) (v : BitVec 64) (s : State) (x : Graph), Accepts s → s.win.state = .ready → hostOpen s = false → s.cp.bells = [] → v.toNat % 256 = g → s.cp.graphs.find? (·.g == g) = some x →
    exec (.kick g v) s = .next (if x.heldKick.isSome then ctxError x.ctx 9 (BitVec.ofNat 64 (v.toNat / 256 * 256)) s
      else driveGraph g (setGraph g (fun y => { y with heldKick := some v }) s)))
  ∧ (∀ (c : Nat) (hdr : DWord) (h : BitVec 512) (key : Word) (pct : Nat) (tr : Tree) (s : State),
    ((∀ n < 4096, ∃ t ∈ s.sched.trees, t.n = n) → launchSeed c hdr h key pct tr s = none)
    ∧ ∀ n < 4096, (∀ t ∈ s.sched.trees, t.n ≠ n) → (∀ m < n, ∃ t ∈ s.sched.trees, t.n = m) →
      launchSeed c hdr h key pct tr s = segPush (if key = 0 then 0 else (key.toNat * 0x9E3779B1 % 2 ^ 32) / 2 ^ 16 % 288)
        { ctx := c, tree := n, prio := hdrPrio h, since := s.clock.cycle, pct := pct, entered := s.clock.cycle, work := .task hdr (hdrLb h) (hdrArgs h) 1 0 }
        { s with sched := { s.sched with trees := s.sched.trees ++ [{ tr with n := n, ctx := c, count := 1 }] } })
  ∧ (∀ (s : State) (x : Graph), s.cp.graphs.find? (·.g == x.g) = some x → cpRuns s = true →
    driveGraph x.g s = endIfDone x.g (runNodes x.g (x.nnodes + 1) (startHeld x.g (endIfDone x.g s)))
    ∧ (∀ v, x.heldKick = some v → x.running = false → v.toNat / 256 = 0 → startHeld x.g s
      = setGraph x.g (fun y => { y with running := true, st := [], sel := [], heldKick := none, pct := x.pct, sigAt := none, patched := y.patched.eraseDups }) s)
    ∧ (x.heldKick = none ∨ x.running = true → startHeld x.g s = s)
    ∧ ((∃ i < x.nnodes, NodeOpen x i) → endIfDone x.g s = s)
    ∧ (x.running = true → (∀ i < x.nnodes, ¬ NodeOpen x i) →
      let ended := setGraph x.g (fun y => { y with running := false }) s
      (∀ t, x.sigAt = some t → endIfDone x.g s = if t ≤ s.clock.tbase then setIrq (69 + x.ctx) ended else s)
      ∧ (x.sigAt = none → s.clock.tbase < x.pct → endIfDone x.g s = s)
      ∧ (x.sigAt = none → x.pct ≤ s.clock.tbase → x.sigAddr = 0 → endIfDone x.g s = ended)
      ∧ (x.sigAt = none → x.pct ≤ s.clock.tbase → x.sigAddr ≠ 0 → ∀ h, engHome s masterCp x.ctx x.sigAddr.toNat .write 8 = .ok h →
        let w := cpStore x.ctx h (leBytes x.sigVal.toNat 8) s
        endIfDone x.g s = setGraph x.g (fun y => { y with sigAt := some w.1, pct := max y.pct w.1 }) w.2)))
  ∧ (∀ (s : State) (x : Graph) (nodes : List (BitVec 512)) (k i : Nat) (n : BitVec 512), s.cp.graphs.find? (·.g == x.g) = some x → cpRuns s = true →
    x.running = true → graphNodes s x = .ok nodes → nodes.length = x.nnodes → x.nnodes ≤ 65534 → nodes[i]? = some n → NodeReady x nodes i → (∀ j < i, ¬ NodeReady x nodes j) →
    let goes := fun (u : State) => runNodes x.g (k + 1) s = runNodes x.g k u
    let node := fun (v : NodeSt) (u : State) => setGraph x.g (fun y => { y with st := stSet .wait y.st i v }) u
    (NodeSkipped x nodes i n → goes (node .skipped s))
    ∧ (¬ NodeSkipped x nodes i n → nodeOk x.nnodes n = true → x.patched.contains i = false →
      (ndType n = 1 → x.pct ≤ s.clock.tbase → ∀ h, launchCheck s x.ctx (ndAddr n) = .ok (.inr h) →
        (∀ u, launchSeed x.ctx (ndAddr n) h (ndAff n) x.pct { n := 0, ctx := x.ctx, count := 0, node := some (x.g, i) } s = some u → goes (node .run u))
        ∧ (launchSeed x.ctx (ndAddr n) h (ndAff n) x.pct { n := 0, ctx := x.ctx, count := 0, node := some (x.g, i) } s = none → runNodes x.g (k + 1) s = s))
      ∧ (ndType n = 1 → s.clock.tbase < x.pct → runNodes x.g (k + 1) s = s)
      ∧ (ndType n ≠ 1 → ∀ h bs, cpRead s x.ctx (ndAddr n).toNat 8 = .ok (h, bs) →
        let r := readTime h s
        let to_ := if relHolds (ndCmp n) (BitVec.ofNat 64 (leNat bs)) (BitVec.ofNat 64 (ndVal n)) then ndSlot n 0 else ndSlot n 1
        goes (node .done (setGraph x.g (fun y => { y with sel := (i, to_) :: y.sel.filter (·.1 != i), pct := max y.pct r.1 }) r.2)))))
  ∧ (∀ (k : Nat) (v : BitVec 64) (s : State), ¬ Accepts s → exec (.doorbell k v) s = .next s ∧ exec (.kick k v) s = .next s)
  ∧ (∀ (k : Nat) (v : BitVec 64) (s : State), Accepts s → hostOpen s = true ∨ s.cp.bells ≠ [] →
    exec (.doorbell k v) s = .next (bellWaits (.door k v) s) ∧ exec (.kick k v) s = .next (bellWaits (.kick k v) s))
  ∧ ∀ (s : State) (cmp addr v d : Nat), s.hart.wait = some (cmp, addr, v, d) → addr % 8 = 0 → addr < Config.memBytes →
    isFrozen s masterCp = false → reaches s masterCp addr 8 = true → isPoisoned s addr 8 = false →
    let w : DWord := BitVec.ofNat 64 (getLe s.mem addr 8)
    let pct := max s.hart.pct (lineRec s (lineOf addr)).vl
    exec (.kwaitReread s.hart.n) s = .next { s with hart := if relHolds cmp w (BitVec.ofNat 64 v)
      then { s.hart with x := if d = 0 then s.hart.x else stSet 0 s.hart.x d w, pc := (s.hart.pc + 4) % 2 ^ 64, wait := none, pct := pct, minstret := s.hart.minstret + 1 }
      else { s.hart with wait := some (cmp, addr, v % 2 ^ 64, d), pct := pct } }

/-- R155, R156, R170, R172, R174, R175, R366, R376, R396, R397, R404, R406: the commands of Table 21-3. What INVAL waits for (log entry 83), the early QUIESCED
messages and the set that stays known (log entry 56), and corners of a mapping (log entries 49, 74) are the model's readings. -/
def Obligations.CommandsRun : Prop :=
  (∀ (s : State), let u := takenUp s
    Commanded 1 s → granted u masterCp (cmdCtx u) (cmdArg u 0) 128 = true → granted u masterCp (cmdCtx u) (cmdArg u 1) 64 = true →
    isFrozen u masterWalker = false → isFrozen u masterFault = false → mapBarred u = none →
    let r := mapQueue (cmdIdx u) (cmdCtx u) (cmdArg u 0) (cmdArg u 1) u
    let record := refusedAt (cmdCtx u) (cmdArg u 0) (getLe u.mem (cmdArg u 1) 64) u
    ((r.1 ≠ 3 ∨ record = none) → exec .mapQueue s = .next (recordKept s (commandDone r.1 r.2)))
    ∧ ∀ pa, r.1 = 3 → record = some pa → granted u masterCp (cmdCtx u) pa 64 = true →
      exec .mapQueue s = .next (recordKept s (refusedDone (lineRec r.2 (lineOf pa)).vl r.2)))
  ∧ (∀ (q c desc qdesc : Nat) (s : State),
    let D := getLe s.mem desc 128
    let d := getLe s.mem qdesc 64
    let x := contextFrom c desc D
    let refused := mapQueue q c desc qdesc s = (3, match refusedAt c desc d s with
      | some pa => (commitQuiet c (atAddr pa (errBytes 10 q 0 s.clock.tbase (BitVec.ofNat 64 desc) 0)) 0 .module s).1
      | none => s)
    (isPoisoned s qdesc 64 = true ∨ ¬ QueueRecord d → refused)
    ∧ (isPoisoned s qdesc 64 = false → QueueRecord d →
      (∀ y, s.ctx? c = some y →
        (y.desc ≠ desc → refused) ∧ (queuePages s c d = none → refused)
        ∧ ∀ pins, y.desc = desc → queuePages s c d = some pins → mapQueue q c desc qdesc s = (0, queueMapped q c d pins s))
      ∧ (s.ctx? c = none →
        (¬ ContextRecord D ∨ isPoisoned s desc 128 = true ∨ contextPages s x = none → refused)
        ∧ ∀ pins n, ContextRecord D → isPoisoned s desc 128 = false → contextPages s x = some pins → n < 4096 → (∀ t ∈ s.sched.trees, t.n ≠ n) →
          (∀ m < n, ∃ t ∈ s.sched.trees, t.n = m) →
          let v := (commitQuiet c (atAddr x.fqAddr (leBytes 0 4)) 0 .module { s with
            ctxs := s.ctxs ++ [{ x with pins := pins, detTree := n }]
            sched := { s.sched with trees := s.sched.trees ++ [{ n := n, ctx := c, count := 0, detached := true }] } }).1
          (queuePages v c d = none → refused)
          ∧ ∀ qpins, queuePages v c d = some qpins → mapQueue q c desc qdesc s = (0, queueMapped q c d qpins v))))
  ∧ (∀ (c : Nat) (s : State),
    let u := unmapContext c s
    u.ctxs = s.ctxs.filter (·.n != c) ∧ u.cp.queues = s.cp.queues.filter (·.ctx != c) ∧ u.cp.graphs = s.cp.graphs.filter (·.ctx != c)
    ∧ u.sched.trees = s.sched.trees.filter (·.ctx != c) ∧ u.sched.coreQ = s.sched.coreQ.filter (·.ctx != c) ∧ u.sched.clusterQ = s.sched.clusterQ.filter (·.ctx != c)
    ∧ u.sched.dieQ = s.sched.dieQ.filter (·.ctx != c) ∧ (∀ q, ∀ y ∈ segOf u q, y.ctx ≠ c) ∧ u.sched.rings = s.sched.rings.filter (·.ctx != c)
    ∧ u.sl.atts = s.sl.atts.filter (·.ctx != c) ∧ u.sl.trigs = s.sl.trigs.filter (·.ctx != c) ∧ u.slots = s.slots.filter (·.ctx != c)
    ∧ u.xl.faults = s.xl.faults.filter (·.ctx != c) ∧ (∀ t ∈ u.xl.coreTlb, t.ctx = c → ¬ (t.vpage * 4096 < 2 ^ 57 ∧ 0 < (t.vpage + t.pages) * 4096))
    ∧ (s.pl.ctx = some c → u.pl.ctx = none ∧ u.living = [] ∧ u.pl.warps = [] ∧ u.pl.blocks = [])
    ∧ (s.pl.ctx ≠ some c → u.pl.ctx = s.pl.ctx ∧ u.living = s.stow.living ∧ u.pl.warps = s.pl.warps ∧ u.pl.blocks = s.pl.blocks)
    ∧ (s.standby.holds = some c → u.standby.st = .empty) ∧ u.mem = s.mem)
  ∧ (∀ (c : Nat) (s : State),
    let v := s.updCtx c (fun x => { x with paused := false })
    let image := (∃ x ∈ s.slots, x.ctx = c) ∨ (s.standby.st = .saving ∧ s.standby.holds = some c)
    resumeCtx c s = if image ∧ c ∉ s.cp.resuming then { v with cp := { v.cp with resuming := v.cp.resuming ++ [c] } } else v)
  ∧ (∀ (s : State), let u := takenUp s
    Commanded 2 s → exec .unmapCtx s = .next (recordKept s (commandDone 0 (unmapContext (cmdCtx u) u))))
  ∧ (∀ (s : State), let u := takenUp s
    Commanded 3 s → exec .clearError s = .next (recordKept s (commandDone 0 (setCpq (cmdIdx u) (fun x => { x with err := false }) u))))
  ∧ (∀ (s : State), let u := takenUp s
    Commanded 4 s →
    let v := busyWith (.preempt (cmdCtx u)) (u.updCtx (cmdCtx u) (fun x => { x with paused := true }))
    let idle := coreHolds v (cmdCtx u) = false ∧ v.cp.resuming.contains (cmdCtx u) = false ∧ v.swapEnd = none
    (idle → exec .preempt s = .next (recordKept s (commandDone 0 v))) ∧ (¬ idle → exec .preempt s = .next (recordKept s v)))
  ∧ (∀ (s : State), let u := takenUp s
    Commanded 5 s →
    let w : State := if u.ckpt.st = .idle then { u with cp := { u.cp with stopped := false } } else u
    let v := busyWith (.resume (cmdCtx u)) (resumeCtx (cmdCtx u) w)
    let idle := v.cp.resuming.contains (cmdCtx u) = false ∧ v.swapEnd = none
    (idle → exec .resume s = .next (recordKept s (commandDone 0 v))) ∧ (¬ idle → exec .resume s = .next (recordKept s v)))
  ∧ (∀ (s : State) (h : Nat) (bs : List Byte) (nodes : List (BitVec 512)), let u := takenUp s
    Commanded 6 s → aligned (BitVec.ofNat 64 (cmdArg u 0)) 64 = true →
    cpRead u (cmdCtx u) (cmdArg u 0) 64 = .ok (h, bs) → GraphHeaderOk u (leNat bs) →
    let g := graphOf u (leNat bs)
    graphNodes u g = .ok nodes →
    (graphBad nodes = none →
      exec .regGraph s = .next (recordKept s (commandDone 0 { u with cp := { u.cp with graphs := u.cp.graphs.filter (fun x => x.g != g.g) ++ [g] } })))
    ∧ ∀ k, graphBad nodes = some k → exec .regGraph s = .next (recordKept s (graphRefused (cmdCtx u) (nodeVa g k) u)))
  ∧ (∀ (s : State), let u := takenUp s
    Commanded 6 s →
    (aligned (BitVec.ofNat 64 (cmdArg u 0)) 64 = false → exec .regGraph s = .next (recordKept s (graphRefused (cmdCtx u) (cmdArg u 0) u)))
    ∧ ∀ h bs, aligned (BitVec.ofNat 64 (cmdArg u 0)) 64 = true → cpRead u (cmdCtx u) (cmdArg u 0) 64 = .ok (h, bs) → ¬ GraphHeaderOk u (leNat bs) →
      exec .regGraph s = .next (recordKept s (graphRefused (cmdCtx u) (cmdArg u 0) u)))
  ∧ (∀ (s : State), let u := takenUp s
    Commanded 7 s →
    let c := cmdCtx u
    let lo := if cmdArg u 1 = 0 then 0 else cmdArg u 0 % 2 ^ 57
    let hi := if cmdArg u 1 = 0 then 2 ^ 57 else cmdArg u 0 % 2 ^ 57 + cmdArg u 1
    let stored := storedUnder u c lo hi
    let v := fun (l : List Nat) => busyWith (.inval c u.nextId l) (dropTranslations c lo hi (fwaitsAgain c lo hi u))
    let left := stored.filter (lineOpen (v stored) u.nextId)
    exec .inval s = .next (recordKept s (if left = [] ∧ olderOpen (v stored) c u.nextId = false then commandDone 0 (v stored) else v left)))
  ∧ (∀ (s : State) (h : Nat), let u := takenUp s
    Commanded 8 s → cmdArg u 1 = u.xid → copyHeld u < 32 →
    let op := fun (id : Nat) => ({ id := id, kind := .hostCopy, slot := cmdArg u 1, block := none, ctx := cmdCtx u, desc := 0, addr := BitVec.ofNat 64 (cmdArg u 0) } : CopyOp)
    let queued := fun (v : State) (c : CopyOp) => busyWith .event { v with nextId := v.nextId + 1, cl := { v.cl with copyQ := v.cl.copyQ ++ [c] } }
    (engHome u (masterEngine u 1) (cmdCtx u) (cmdArg u 0) .read 64 = .ok h →
      (readPoisoned u h 64 = false → exec .copy s = .next (recordKept s (queued u
        (withDesc { u with nextId := u.nextId + 1 } (BitVec.ofNat 512 (leNat (homeBytes u h 64))) (op u.nextId)))))
      ∧ (readPoisoned u h 64 = true → exec .copy s = .next (recordKept s (commandDone 0 { u with win := { u.win with cmdWord := engStatus 0x23 0 1 0 } }))))
    ∧ ∀ va acc v, engHome u (masterEngine u 1) (cmdCtx u) (cmdArg u 0) .read 64 = .error (.fault va acc) →
      engFault (masterEngine u 1) (cmdCtx u) va acc u = (true, v) →
      exec .copy s = .next (recordKept s (queued v { op v.nextId with frozen := some (va, acc), undescribed := true })))
  ∧ (∀ (s : State), let u := takenUp s
    Commanded 9 s → granted u masterCp (cmdCtx u) (cmdArg u 2) 32 = true →
    let target := cmdArg u 1 % 256
    let base := cmdArg u 1 / 256 * 256
    exec .checkpoint s = .next (recordKept s (if Config.targetCovers target base then busyWith .event { u with
        ckpt := { st := .armed, t := cmdArg u 0, target := target, base := base, set := moduleSet u (cmdArg u 2), got := u.ckpt.got, auto := cmdArg u 3 % 2 == 1 }
        ckptSet := moduleSet u (cmdArg u 2) }
      else commandDone 4 u)))
  ∧ (∀ (s : State), let u := takenUp s
    Commanded 10 s → granted u masterCp (cmdCtx u) (cmdArg u 2) 32 = true →
    let target := cmdArg u 1 % 256
    let base := cmdArg u 1 / 256 * 256
    let v : State := { u with ckptSet := moduleSet u (cmdArg u 2) }
    let good := Config.targetCovers target base = true ∧ isUnreachable u target = false ∧ readPoisoned v (targetHome target base) 64 = false
      ∧ HeaderTaken u.win.modnum (cmdArg u 0) (targetHeader v target base)
    (good → exec .restore s = .next (recordKept s (busyWith .event { v with ckpt :=
        { st := .restoring, t := cmdArg u 0, target := target, base := base, set := moduleSet u (cmdArg u 2) } })))
    ∧ (¬ good → exec .restore s = .next (recordKept s (commandDone 4 v))))
  ∧ (∀ (s : State), HearsCommands s → ActsNow s → cmdBad (takenUp s) = true → exec .badcmd s = .next (recordKept s (commandDone 2 (takenUp s))))
  ∧ (∀ (s : State), HearsCommands s → ¬ ActsNow s →
    (cmdBad (takenUp s) = true → exec .badcmd s = .next (commandHeld s))
    ∧ ∀ p ∈ commandCodes, cmdCode (takenUp s) = p.2 → cmdBad (takenUp s) = false → exec p.1 s = .next (commandHeld s))
  ∧ ∀ (s : State), ¬ HearsCommands s → exec .badcmd s = .next s ∧ ∀ p ∈ commandCodes, exec p.1 s = .next s

/-- R173, R393, R394, R398, R409, R410: the window, the aperture, power and management. The lowest clock and its steps are log entry 53, offsets that
name a part of a register log entry 54, the numbers of the monitoring requests log entry 55, and where the window stands log entry 73. -/
def Obligations.WindowAndManagement : Prop :=
  (∀ (hi : Bool) (v : BitVec 64) (off : Nat) (s : State), ¬ Accepts s →
    exec (.irqmask hi v) s = .next s ∧ exec (.irqstatClear hi v) s = .next s ∧ exec (.ctxerrClear v) s = .next s ∧ exec (.pwrcap v) s = .next s
    ∧ (¬ (0x5000 ≤ off ∧ off < 0x6000) → exec (.registerWrite off v) s = .next s))
  ∧ (∀ (hi : Bool) (v : BitVec 64) (s : State), Accepts s →
    let new := withHalf hi v s.win.irqmask
    exec (.irqmask hi v) s = .next { s with
      win := { s.win with irqmask := new }
      out := s.out ++ ((List.range 128).filter (fun k => new.getLsbD k && !s.win.irqmask.getLsbD k && s.win.irqstat.getLsbD k)).map (irqMessage s) })
  ∧ (∀ (hi : Bool) (v : BitVec 64) (s : State), Accepts s → ∃ t, exec (.irqstatClear hi v) s = .next t ∧ t = { s with win := { s.win with irqstat := t.win.irqstat } }
    ∧ ∀ k < 128, t.win.irqstat.getLsbD k = (s.win.irqstat.getLsbD k && !(if hi then decide (64 ≤ k) && v.getLsbD (k - 64) else v.getLsbD k)))
  ∧ (∀ (v : BitVec 64) (s : State), Accepts s → ∃ t, exec (.ctxerrClear v) s = .next t ∧ t = { s with win := { s.win with ctxerr := t.win.ctxerr } }
    ∧ ∀ k < 32, t.win.ctxerr.getLsbD k = (s.win.ctxerr.getLsbD k && !v.getLsbD k))
  ∧ (∀ (v : BitVec 64) (s : State), Accepts s → exec (.pwrcap v) s = .next { s with win := { s.win with pwrcap := max 1200 (min 3000 (v.toNat % 4096)) } })
  ∧ (∀ (k : Nat) (v : BitVec 64) (s : State),
    (k < 8 → Accepts s → exec (.registerWrite (0x100 + 8 * k) v) s = .next { s with win := { s.win with cmdrec := stSet 0 s.win.cmdrec k v } })
    ∧ (k < 128 → Accepts s → exec (.registerWrite (0x3100 + 16 * k) v) s = .next { s with win := { s.win with irqaddr := stSet 0 s.win.irqaddr k v } })
    ∧ (k < 128 → Accepts s → exec (.registerWrite (0x3108 + 16 * k) v) s = .next { s with win := { s.win with irqdata := stSet 0 s.win.irqdata k ((v.truncate 32).zeroExtend 64) } })
    ∧ (k < 256 → exec (.registerWrite (0x5100 + 8 * k) v) s = .next { s with win := { s.win with mbox := setLe s.win.mbox (0x100 + 8 * k) 8 v.toNat } })
    ∧ (¬ InWindow k → exec (.registerWrite k v) s = .next s)
    ∧ (k ∈ readOnlyOffsets → exec (.registerWrite k v) s = .next s))
  ∧ (∀ (pa n : Nat) (s : State), pa < Config.memBytes →
    (Config.memBytes < pa + n → exec (.hostApertureRead pa n) s = .next s)
    ∧ (pa + n ≤ Config.memBytes → isFrozen s masterHost = true → exec (.hostApertureRead pa n) s = .next s)
    ∧ (pa + n ≤ Config.memBytes → isFrozen s masterHost = false →
      exec (.hostApertureRead pa n) s = .next (if reaches s masterHost pa n then
          { s with out := s.out ++ [.readData (if hostPort ∈ s.badPorts ∨ ∃ k < n, isPoisoned s (pa + k) 1 = true then none else some (getBytes s.mem pa n))] }
        else freeze masterHost 0 pa { s with root := { s.root with portHeld := s.root.portHeld ++ [.hostRead pa n] } })))
  ∧ (∀ (off : Nat) (s : State), off < 2 ^ 20 →
    (isFrozen s masterHost = true ∧ ¬ (0x5000 ≤ off ∧ off < 0x6000) → exec (.hostApertureRead (Config.memBytes + off) 8) s = .next s)
    ∧ (isFrozen s masterHost = false ∨ (0x5000 ≤ off ∧ off < 0x6000) → exec (.hostApertureRead (Config.memBytes + off) 8) s
      = .next { s with out := s.out ++ [.readData (if hostPort ∈ s.badPorts then none else some (leBytes (windowRead off s) 8))] }))
  ∧ (∀ (s : State), windowRead 0x8 s = s.win.modnum ∧ windowRead 0x10 s = s.clock.tbase % 2 ^ 64 ∧ windowRead 0x3000 s = s.win.irqstat.toNat % 2 ^ 64
    ∧ windowRead 0x3020 s = s.win.ctxerr.toNat ∧ windowRead 0x6000 s = s.win.pwrcap ∧ windowRead 0x6010 s = s.win.temp
    ∧ ∀ off, (InWindow off → WriteOnlyOffset off) → windowRead off s = 0)
  ∧ (∀ (pa : Nat) (bs : List (BitVec 8)) (s : State),
    let bad := s.badPorts.contains hostPort
    (Config.memBytes < pa + bs.length ∨ isFrozen s masterHost = true → exec (.hostApertureWrite pa bs) s = .next s)
    ∧ (pa + bs.length ≤ Config.memBytes → isFrozen s masterHost = false → s.cp.stopped = true ∧ s.ckpt.st ≠ .idle →
      exec (.hostApertureWrite pa bs) s = .next { s with ckpt := { s.ckpt with held := s.ckpt.held ++ [(pa, bs, bad)] } })
    ∧ (pa + bs.length ≤ Config.memBytes → ¬ (s.cp.stopped = true ∧ s.ckpt.st ≠ .idle) → isFrozen s masterHost = false →
      (reaches s masterHost pa bs.length = true →
        let c := commitLines 0 (atAddr pa bs) 0 .module s
        let ps := if bad then ((List.range bs.length).map (fun k => (pa + k) / 64)).eraseDups else []
        exec (.hostApertureWrite pa bs) s = .next { c.1 with
          win := { c.1.win with hostPct := max c.1.win.hostPct c.2 }
          sl := { c.1.sl with poison := c.1.sl.poison ++ ps.filter (fun p => !c.1.sl.poison.contains p) } })
      ∧ (reaches s masterHost pa bs.length = false → exec (.hostApertureWrite pa bs) s
        = .next (freeze masterHost 0 pa { s with root := { s.root with portHeld := s.root.portHeld ++ [.hostWrite pa bs bad] } }))))
  ∧ (∀ (temp watts : Nat) (s : State),
    let reads : State := { s with win := { s.win with temp := temp % 256 } }
    let after := if temp < 105 then reads
      else if temp < 115 then { reads with ctxs := s.ctxs.map (fun c => { c with paused := true }), clock := { s.clock with mhz := lowestMhz } }
      else { reads with powered := false }
    exec (.thermalPreempt temp) s = .next after ∧ exec (.thermalPowerOff temp) s = .next after
    ∧ (s.win.pwrcap < watts → exec (.powerCapAdjust watts) s = .next { s with
      win := { s.win with pwr := watts % 4096 }, clock := { s.clock with mhz := max lowestMhz (s.clock.mhz - 25) } })
    ∧ (watts < s.win.pwrcap → s.win.temp < 105 → exec (.powerCapAdjust watts) s = .next { s with
      win := { s.win with pwr := watts % 4096 }, clock := { s.clock with mhz := min 1200 (s.clock.mhz + 25) } }))
  ∧ ∀ (sel : Nat) (s : State) (v : Nat),
    [s.win.pwr, s.win.temp, stateCode s.win.state, s.win.rasCorrected, s.win.rasTransient, s.win.rasLasting, s.win.rasRetry][sel]? = some v →
    exec (.pldmRequest sel) s = .next { s with out := s.out ++ [.pldm (BitVec.ofNat 64 v)] }

/-- R360, R386 to R389, R399, R400, R402, R403, R407, R408: the mailbox and bring-up. That a module reset keeps device memory, the order of the checks of a
request and the answer to its reserved bits are log entry 52. -/
def Obligations.MailboxAndBringUp : Prop :=
  (∀ (req : BitVec 64) (s : State), Requested req 1 [.ready] 32 s →
    let b := reportBody (heard req s)
    exec (.attest req) s = .next (answered req (b ++ beBytes (Config.sm2Sign s.freeCtr (Config.sm3 b)).toNat 64) { heard req s with freeCtr := s.freeCtr + 1 }))
  ∧ (∀ (req : BitVec 64) (s : State), Requested req 2 [.train, .ready] 8 s → exec (.cert req) s = .next (answered req
      (leBytes Config.certChain.length 8 ++ (Config.certChain.drop (rqDword (heard req s) 0)).take 1784) (heard req s)))
  ∧ (∀ (req : BitVec 64) (s : State), Requested req 3 [.waitFw, .verify, .train] 8 s → exec (.timeSet req) s = .next (answered req []
      { heard req s with clock := { s.clock with tbase := rqDword (heard req s) 0, phase := 0, slew := 0 } }))
  ∧ (∀ (req : BitVec 64) (s : State), Requested req 4 [.train, .ready] 16 s →
    let u := heard req s
    let w := rqDword u 0
    w / 2 ^ 11 = 0 → rqDword u 1 / 2 ^ 48 = 0 →
    (w.testBit 10 = false → w % 256 ≠ s.win.modnum →
      let e : Option DomEnt := if w.testBit 8 then some { m := w % 256, pool := w.testBit 9, ports := rqDword u 1 } else none
      exec (.domainSet req) s = .next (answered req [] (settleDomain { u with root := { u.root with
        domNext := u.root.domNext.filter (·.1 != w % 256) ++ [(w % 256, e)] } })))
    ∧ (w.testBit 10 = true → w.testBit 8 = true → w.testBit 9 = false → rqDword u 1 = 0 → s.ctxs = [] →
      let v : State := { u with win := { u.win with modnum := w % 256 } }
      exec (.domainSet req) s = .next (answered req [] { v with syncLost := v.syncLost && followsDomain v })))
  ∧ (∀ (s : State), (s.root.domNext.map (·.1)).Nodup → (∀ x ∈ s.root.domNext, ∀ e, x.2 = some e → e.m = x.1) →
    let u := settleDomain s
    u.syncLost = (s.syncLost && followsDomain u) ∧ u.root.domNext = s.root.domNext.filter (fun x => xOpen s x.1)
    ∧ (∀ m e, (m, e) ∈ s.root.domNext → xOpen s m = false →
      u.root.domain.filter (·.m == m) = e.toList ∧ m ∉ u.closed
      ∧ (e.isSome = true → (∀ d ∈ s.root.domain, d.m ≠ m) → stGet 0 u.heard m = s.clock.tbase))
    ∧ ∀ m, (∀ e, (m, e) ∈ s.root.domNext → xOpen s m = true) →
      u.root.domain.filter (·.m == m) = s.root.domain.filter (·.m == m) ∧ (m ∈ u.closed ↔ m ∈ s.closed) ∧ stGet 0 u.heard m = stGet 0 s.heard m)
  ∧ (∀ (req : BitVec 64) (s : State), Requested req 5 [.train, .ready] 24 s →
    let u := heard req s
    let g : Grant := { master := grMaster u, ctx := grCtx u, base := rqDword u 1, len := rqDword u 2 }
    (grKind s = 0 → grKind u = 0 → rangeArgsOk u = true → g.len ≠ 0 →
      exec (.grantRange req) s = .next (answered req [] { u with root := { u.root with grants := joinGrant g u.root.grants } }))
    ∧ (grKind s = 1 → rangeArgsOk u = true →
      exec (.revokeRange req) s = .next (answered req [] { u with root := { u.root with
        grants := u.root.grants.flatMap (cutGrant g.master g.ctx g.base g.len) } }))
    ∧ (grKind s = 2 → grantArgsOk u (2 ^ 21) = true →
      exec (.setExportWindow req) s = .next (answered req [] { u with root := { u.root with
        exports := u.root.exports.filter (·.w != grWindow u) ++ (if g.len = 0 then [] else
          [{ w := grWindow u, base := g.base, len := g.len, r := (rqDword u 0).testBit 40, wr := (rqDword u 0).testBit 41 }]) } })))
  ∧ (∀ (req : BitVec 64) (s : State) (f : Frozen), Requested req 6 [.ready] 8 s →
    let u := heard req s
    let m := rqDword u 0 % 65536
    rqDword u 0 / 2 ^ 17 = 0 → u.root.frozen.find? (·.master == m) = some f →
    (actionIs false s = true → exec (.unfreezeResume req) s = .next (answered req [] (thawed m u)))
    ∧ (actionIs true s = true → exec (.unfreezeReset req) s = .next (answered req [] (pollCommand (thawed m (resetMaster m
        ((masterCtxs u m).foldl (fun v c => unmapContext c (ctxError c 34 (BitVec.ofNat 64 f.pa) v)) (dropMsgs m u.stow))))))))
  ∧ (∀ (m : Nat) (s : State),
    let v := dropMsgs m s.stow
    (∀ x ∈ v.pl.net ++ v.standby.plane.net, bodyServed x.body = true ∨ msgMaster s.stow x.body ≠ m)
    ∧ (m = masterCore s → resetMaster m s = { v with
        icache := [], xl := { v.xl with coreTlb := [] }, epct := 0, bundle := [], bundleAll := [], swapEnd := none
        pl := { freshPlane with net := v.pl.net }, standby := { plane := { freshPlane with net := v.standby.plane.net } } })
    ∧ (s.coreNo < 1152 → m = masterEngine s 0 → resetMaster m s = { v with cl := { v.cl with table := [] } })
    ∧ (s.coreNo < 1152 → m = masterEngine s 2 → resetMaster m s = { v with cl := { v.cl with fetchCache := [] } })
    ∧ ∀ c, s.coreNo < 1152 → (m = masterCore s → (c ∈ masterCtxs s m ↔ s.pl.ctx = some c ∨ s.standby.plane.ctx = some c ∨ ∃ e ∈ s.sched.coreQ, e.ctx = c))
      ∧ (m = masterCp → (c ∈ masterCtxs s m ↔ ∃ x ∈ s.ctxs, x.n = c))
      ∧ (m = masterEngine s 0 → (c ∈ masterCtxs s m ↔ ∃ b ∈ s.pl.blocks ++ s.standby.plane.blocks, b.ctx = c
        ∧ ((∃ e ∈ s.cl.table, e.block = b.handle) ∨ ∃ x ∈ s.cl.frameOwner, x.2 = b.handle)))
      ∧ (m = masterEngine s 3 → (c ∈ masterCtxs s m ↔ ∃ b ∈ s.pl.blocks ++ s.standby.plane.blocks, b.ctx = c ∧ ∃ q ∈ s.allSeqs, q.block = b.handle)))
  ∧ (∀ (req : BitVec 64) (s : State) (n : Nat), n ≤ 2032 → Requested req 7 [.waitFw] (16 + n) s →
    let u := heard req s
    let off := rqDword u 0
    let v : State := { u with root := { u.root with
      staging := setBytes u.root.staging (atAddr off (getBytes u.win.mbox 0x110 n)), staged := max (off + n) u.root.staged, verifyFailed := false } }
    off % 16 = 0 → off + n ≤ 2 ^ 22 →
    (rqDword u 1 = 0 → exec (.fwLoad req) s = .next (answered req [] v))
    ∧ (rqDword u 1 = 1 → exec (.fwLoad req) s = .next { v with
        win := { v.win with state := .verify }, root := { v.root with imgLen := v.root.staged, serving := some (reqSeq req) } }))
  ∧ (∀ (req : BitVec 64) (s : State), s.root.serving = none → (reqOp req = 0 ∨ 7 < reqOp req) →
    exec (.mailboxBadop req) s = .next (mbReply (reqSeq req) 1 [] (heard req s)))
  ∧ (∀ (i : Instr) (req : BitVec 64) (op : Nat) (states : List BringUp) (lens : Nat → Prop) (s : State),
    mailboxRule s i = some (req, op, states, lens) → reqOp req = op →
    (s.root.serving ≠ none → exec i s = .next s)
    ∧ (s.root.serving = none → s.win.state ∉ states → exec i s = .next (mbReply (reqSeq req) 3 [] (heard req s)))
    ∧ (s.root.serving = none → s.win.state ∈ states → ¬ lens (reqLen req) ∨ reqClean req = false → exec i s = .next (mbReply (reqSeq req) 2 [] (heard req s))))
  ∧ (∀ (s : State) (seq : Nat), s.win.state = .verify → s.root.serving = some seq →
    let r := s.root
    exec .fwVerify s = .next (if fwOk s = false
      then mbReply seq 4 [] { s with win := { s.win with state := .failed }, root := { r with verifyFailed := true } }
      else mbReply seq 0 [] { s with
        win := { s.win with state := .train }
        root := { r with fwver := BitVec.ofNat 32 (fwField s 128 32), rdig := BitVec.ofNat 256 (digestAt s 24), qdig := BitVec.ofNat 256 (digestAt s 56) }
        hart := {}
        cp := { s.cp with
          fw := stSetAll 0 [] ((List.range (fwField s 96 32 / 4)).map (fun k => (4 * k, BitVec.ofNat 32 (getLe r.staging (256 + fwField s 64 32 + 4 * k) 4))))
          harts := (List.range 32).map (fun n => { n := n }), lastHart := 31 }
        sl := { s.sl with resv := [] } }))
  ∧ (∀ (s : State), exec .moduleReset s = .next { State.reset with
      coreNo := s.coreNo, mem := s.mem, remote := s.remote, images := s.images, out := s.out, nextId := s.nextId, freeCtr := s.freeCtr, agenda := s.agenda })
  ∧ (∀ (s : State), s.win.state = .reset → exec .bringUpStart s = .next { s with win := { s.win with state := .waitFw } })
  ∧ ∀ (t : Training) (s : State), s.win.state = .train →
    exec (.trainComplete t) s = .next (portsOut t.out { s with win := { s.win with state := if t.ok then .ready else .failed } })

/-- R356, R386, R388, R390, R392, R407: links and the domain. A heartbeat that makes a module reachable again and what a failed retransmission
logs and poisons are log entry 53, a read that makes no message log entry 93, what isolation stops log entry 56, and that any context's grant
admits a port's request log entry 29. -/
def Obligations.DomainAndLinks : Prop :=
  (∀ (t : Nat) (s : State), followsDomain s = true →
    let d : Int := (t : Int) - s.clock.tbase
    let u : State := { s with clock := { s.clock with slew := d } }
    let close := -40 ≤ d ∧ d ≤ 40
    (close → exec (.timeMessage t) s = .next { u with syncLost := false })
    ∧ (¬ close → s.syncLost = false → exec (.timeMessage t) s = .next (setIrq 68 { u with syncLost := true }))
    ∧ (¬ close → s.syncLost = true → exec (.timeMessage t) s = .next u))
  ∧ (∀ (t : Nat) (s : State), followsDomain s = false → (∃ d ∈ s.root.domain, d.pool = false) →
    exec (.timeMessage t) s = .next { s with out := s.out ++ [.timeMessage s.clock.tbase] })
  ∧ (∀ (s : State), (followsDomain s = true → s.syncLost = false → exec .timeSyncLoss s = .next (setIrq 68 { s with syncLost := true }))
    ∧ (followsDomain s = false ∨ s.syncLost = true → exec .timeSyncLoss s = .next s))
  ∧ (∀ (m : Nat) (s : State), exec (.heartbeat m) s = .next { s with
      heard := stSet 0 s.heard m s.clock.tbase, unreachable := s.unreachable.filter (· != m) })
  ∧ (∀ (m : Nat) (s : State), stGet 0 s.heard m + 100000000 ≤ s.clock.tbase → s.unreachable.contains m = false →
    let u : State := { s with unreachable := s.unreachable ++ [m] }
    (m ∉ s.ckptSet → exec (.heartbeatTimeout m) s = .next (setIrq 68 u))
    ∧ (m ∈ s.ckptSet → exec (.heartbeatTimeout m) s = .next (setIrq 68 { u with
        ctxs := s.ctxs.map (fun c => { c with paused := true })
        cp := { s.cp with stopped := true }
        closed := if m ∈ s.closed then s.closed else s.closed ++ [m] })))
  ∧ (∀ (p id : Nat) (s : State) (x : Port), s.ports.find? (·.n == p) = some x → x.out = false → isFrozen s (masterPort p) = false →
    let fails := (s.clock.tbase :: x.fails).filter (fun t => decide (s.clock.tbase < t + 1000000))
    let again := fun (second : Bool) => logged (.link p) second { s with win := { s.win with rasRetry := s.win.rasRetry + 1 } }
    let counted := fun (u : State) =>
      let v : State := { u with ports := { x with fails := fails } :: u.ports.filter (·.n != p) }
      if fails.length < 3 then v else portsOut [p] v
    exec (.flitCrcFail p false id) s = .next (again false)
    ∧ ((∀ m ∈ s.pl.net ++ s.standby.plane.net, m.id ≠ id) →
      exec (.flitCrcFail p true id) s = .next (counted { again true with badPorts := p :: s.badPorts }))
    ∧ ∀ m, s.pl.net.find? (·.id == id) = some m → isX (bodyLine m.body * 128) = true → bodyServed m.body = false →
      (∀ f, m.body = .fill f →
        exec (.flitCrcFail p true id) s = .next (counted (netUpd id (fun _ => .fill { f with reply := some ([], 0, 0, true) }) (again true))))
      ∧ ∀ w, m.body = .write w →
        (portOf s (bodyLine m.body * 128) = p → exec (.flitCrcFail p true id) s
          = .next (counted (netUpd id (fun _ => .write { w with poison := (w.ws.map (fun (x : Nat × Byte) => x.1 / 64) ++ w.poison).eraseDups }) (again true))))
        ∧ (portOf s (bodyLine m.body * 128) ≠ p → exec (.flitCrcFail p true id) s = .next (counted (again true))))
  ∧ (∀ (id : Nat) (s : State) (m : Msg), s.pl.net.find? (·.id == id) = some m → isX (bodyLine m.body * 128) = true →
    isUnreachable s (xModule (bodyLine m.body * 128)) = true → bodyServed m.body = false →
    (∀ f, m.body = .fill f → exec (.unreachableCompletion id) s
      = .next (linkLost f.ctx (xModule (bodyLine m.body * 128)) (netUpd id (fun _ => .fill { f with reply := some ([], 0, 0, true) }) s)))
    ∧ (∀ w, m.body = .write w →
      let u := maybeRemote w.ws s
      exec (.unreachableCompletion id) s
        = .next (linkLost w.ctx (xModule (bodyLine m.body * 128)) (netUpd id (fun _ => .write { w with ack := some (u.clock.tbase + 40, []) }) u))))
  ∧ ∀ (rq : RemoteReq) (s : State), isFrozen s (masterPort rq.port) = false →
    let reply := fun (a : RemoteAns) (t : Nat) (rf : List Refused) (u : State) => { u with out := u.out ++ [.remoteReply rq.sender a t rf] }
    let refused := reply .refused 0 [] { s with
      root := { s.root with violations := s.root.violations ++ [{ master := rq.sender, ctx := 0, pa := rq.pa, time := s.clock.tbase }] } }
    let vl := (lineRec s (lineOf rq.pa)).vl
    (exported s rq.pa (remoteNeeds rq).1 (remoteNeeds rq).2.1 (remoteNeeds rq).2.2 = false → exec (.remoteRequest rq) s = .next refused)
    ∧ (exported s rq.pa (remoteNeeds rq).1 (remoteNeeds rq).2.1 (remoteNeeds rq).2.2 = true → reaches s (masterPort rq.port) rq.pa (remoteNeeds rq).1 = false →
      exec (.remoteRequest rq) s = .next (freeze (masterPort rq.port) 0 rq.pa { s with root := { s.root with portHeld := s.root.portHeld ++ [.remote rq] } }))
    ∧ (exported s rq.pa (remoteNeeds rq).1 (remoteNeeds rq).2.1 (remoteNeeds rq).2.2 = true → reaches s (masterPort rq.port) rq.pa (remoteNeeds rq).1 = true →
      (∀ n, rq.kind = .read n → exec (.remoteRequest rq) s = .next (if ∃ k < n, isPoisoned s (rq.pa + k) 1 = true then reply .poison 0 [] s
        else reply (.bytes (getBytes s.mem rq.pa n)) vl [] s))
      ∧ (∀ x xs, rq.kind = .write (x :: xs) → rq.pa % 128 + xs.length < 128 → rq.poisoned = false →
        let c := commit (atAddr rq.pa (x :: xs)) rq.depth .other s
        exec (.remoteRequest rq) s = .next (reply (.bytes []) c.2.1 c.2.2 c.1))
      ∧ (∀ f b e, rq.kind = .amo f b e → (rq.poisoned = true ∨ isPoisoned s rq.pa (amoSize f) = true) → exec (.remoteRequest rq) s = .next (reply .poison 0 [] s))
      ∧ (∀ f b e, rq.kind = .amo f b e → rq.poisoned = false → isPoisoned s rq.pa (amoSize f) = false →
        let old := getBytes s.mem rq.pa (amoSize f)
        (amoNew f (BitVec.ofNat 64 (leNat old)) b e = none → exec (.remoteRequest rq) s = .next (reply (.bytes old) vl [] s))
        ∧ ∀ v, amoNew f (BitVec.ofNat 64 (leNat old)) b e = some v →
          let c := commit (atAddr rq.pa (leBytes v.toNat (amoSize f))) rq.depth .other s
          exec (.remoteRequest rq) s = .next (reply (.bytes old) c.2.1 c.2.2 c.1))
      ∧ ∀ v, rq.kind = .fwait v → isPoisoned s rq.pa 4 = false →
        exec (.remoteRequest rq) s = .next (if getLe s.mem rq.pa 4 ≠ v.toNat ∨ waitRoom s rq.pa = false then reply (.bytes (getBytes s.mem rq.pa 4)) vl [] s
          else remoteJoin rq.pa rq.sender s))

/-- R354, R356, R357, R374, R377 to R379, R398: walks, faults and stored errors. The fault unit's writes at depth 0 are log entry 59, its notice
after they are complete log entry 44, which translation of a contiguous group is taken log entry 51, that a range instruction asks for no
permission log entry 86, and what a lasting error of scratch, a tile or a frame leaves log entry 97. -/
def Obligations.FaultsAndErrors : Prop :=
  (∀ (s : State) (before after : List Walk) (w : Walk), s.xl.walks = before ++ w :: after → (∀ x ∈ before, x.granted = true) →
    w.granted = false → (s.xl.walks.filter (·.granted)).length < 64 →
    exec .walkerGrant s = .next { s with xl := { s.xl with walks := before ++ { w with granted := true } :: after } })
  ∧ (∀ (i : Nat) (s : State) (w : Walk) (acc : Acc), s.xl.walks[i]? = some w → w.granted = true → isFrozen s masterWalker = false →
    walkBarred s w.ctx (w.page * 4096) = none →
    (walkWanted s w.ctx w.page acc = true ∨ coreWants s w.ctx w.page acc = true ∨ w.engs ≠ []) → (∀ x ∈ w.engs, x.2 = acc) →
    (∀ b, b ≠ acc → walkWanted s w.ctx w.page b = false ∧ coreWants s w.ctx w.page b = false) →
    let home := fun (lvl : Nat) (e : DWord) => some ((leafEnt w.ctx (w.page * 4096) lvl e).home (w.page * 4096))
    (∀ lvl e seen, walkPage s w.ctx (w.page * 4096) acc = .leaf lvl e seen →
      let t := leafTaken w.ctx (w.page * 4096) lvl e s
      let core := coreWants s w.ctx w.page acc || (w.engs.map (·.1)).contains s.coreNo
      let u := notePages w.ctx w.page acc (home lvl e) (wakeWalk w.ctx w.page acc (learnLeaf core t.1 seen t.2))
      exec (.walkComplete i) s = .next { u with xl := { u.xl with walks := s.xl.walks.eraseIdx i } })
    ∧ ∀ kind lvl e, walkPage s w.ctx (w.page * 4096) acc = .fault kind lvl e →
      let f : FaultRec := { ctx := w.ctx, page := w.page, acc := acc, kind := kind, level := lvl, entry := e, srcid := faultSource s w.ctx w.page acc }
      let u := failPrefs w.ctx w.page acc (notePages w.ctx w.page acc (if kind = 1 then home lvl e else none) s)
      let v := fun (fs : List FaultRec) => { u with xl := { s.xl with
        walks := s.xl.walks.eraseIdx i, faults := fs
        missed := s.xl.missed ++ w.engs.map (fun x => { master := x.1, ctx := w.ctx, page := w.page, acc := acc }) } }
      (walkWanted s w.ctx w.page acc = false → exec (.walkComplete i) s = .next (v s.xl.faults))
      ∧ (walkWanted s w.ctx w.page acc = true → s.xl.faults.length < 1024 → (∀ g ∈ s.xl.faults, ¬ (g.ctx = w.ctx ∧ g.page = w.page ∧ g.acc = acc)) →
        exec (.walkComplete i) s = .next (faultWalk w.ctx w.page acc (v (s.xl.faults ++ [f])))))
  ∧ (∀ (i : Nat) (s : State) (f : FaultRec) (c : Ctx), s.xl.faults[i]? = some f → f.idx = none → s.ctx? f.ctx = some c →
    (c.widx + 2 ^ 32 - c.ridx) % 2 ^ 32 < c.fqSize → isFrozen s masterFault = false →
    granted s masterFault f.ctx (faultAddr c c.widx) 64 = true → granted s masterFault f.ctx c.fqAddr 64 = true →
    let next := (c.widx + 1) % 2 ^ 32
    let u := commitQuiet f.ctx (atAddr (faultAddr c c.widx) (faultBytes f s.clock.tbase)) 0 .module s
    let v := commitQuiet f.ctx (atAddr c.fqAddr (leBytes next 4)) 0 .module u.1
    let x := v.1.updCtx f.ctx (fun x => { x with widx := next })
    exec (.faultRecordWrite i) s = .next (notify (max u.2 v.2) (32 + f.ctx) none { x with xl := { x.xl with
      faults := x.xl.faults.mapIdx (fun k y => if k = i then { y with idx := some c.widx } else y) } }))
  ∧ (∀ (i : Nat) (s : State) (f : FaultRec), s.xl.faults[i]? = some f → isFrozen s masterFault = false →
    granted s masterFault f.ctx (respAddr s f) 8 = true →
    let u := answerEngines f (faultResp s f) (dropFault i s)
    (faultResp s f = 1 → exec (.faultResponse i) s = .next (replayWaiters f u))
    ∧ (2 ≤ faultResp s f → exec (.faultResponse i) s = .next (trapWaiters f (faultResp s f == 3) u)))
  ∧ (∀ (c : Nat) (s : State) (x : Ctx), s.ctx? c = some x → isFrozen s masterFault = false → granted s masterFault c x.fqAddr 64 = true →
    exec (.faultQueueReread c) s = .next (s.updCtx c (fun x => { x with ridx := getLe s.mem (x.fqAddr + 8) 4 })))
  ∧ (∀ (site : EccSite) (s : State), exec (.eccRetry site .corrected) s = .next { s with win := { s.win with rasCorrected := s.win.rasCorrected + 1 } })
  ∧ (∀ (pa : Nat) (s : State),
    exec (.eccRetry (.memSector pa) .transient) s = .next (logged (.cell (.memSector pa)) false s)
    ∧ exec (.eccRetry (.memSector pa) .lasting) s = .next (logged (.cell (.memSector pa)) true
        { s with sl := { s.sl with poison := (pa / 64) :: s.sl.poison.filter (· != pa / 64) } }))
  ∧ (∀ (slot lane p : Nat) (s : State),
    exec (.eccRetry (.register slot lane p) .transient) s = .next (logged (.cell (.register slot lane p)) false s)
    ∧ exec (.eccRetry (.register slot lane p) .lasting) s = .next (logged (.cell (.register slot lane p)) true
        (s.updThreads (fun t => t.is slot lane) (fun t => { t with poisoned := p :: t.poisoned.filter (· != p) }))))
  ∧ (∀ (key f off : Nat) (s : State),
    let at_ := off / 64 * 64
    let lost := (List.range 64).map (fun k => Config.freeImage (s.freeCtr * 2 ^ 24 + k))
    let u : State := { s with freeCtr := s.freeCtr + 1 }
    exec (.eccRetry (.sram key off) .transient) s = .next (logged (.cell (.sram key off)) false s)
    ∧ exec (.eccRetry (.frame f off) .transient) s = .next (logged (.cell (.frame f off)) false s)
    ∧ exec (.eccRetry (.sram key off) .lasting) s = .next (logged (.cell (.sram key off)) true (sramWrite key at_ lost u))
    ∧ exec (.eccRetry (.frame f off) .lasting) s = .next (logged (.cell (.frame f off)) true
        { u with cl := { u.cl with frames := setBytes u.cl.frames (atAddr ((f * 65536 + off) / 64 * 64) lost) } }))
  ∧ ∀ (line sec : Nat) (s : State) (l : L1Line), l1Find s line = some l → ∀ ok : Bool,
    exec (.eccRetry (.l1Sector line sec) (if ok then .transient else .lasting)) s = .next (logged (.cell (.l1Sector line sec)) (!ok)
      (if spanAny l.dirty (sec * 64) 64 = false then l1Invalidate line sec s
       else if ok then s else l1Put (if sec = 0 then { l with poison0 := true } else { l with poison1 := true }) s))

/-- R362 to R364, R367, R368, R404 to R406: swaps, saves, restores and checkpoints. Source 67 of a failed restore, an abandoned checkpoint that
raises nothing, early QUIESCED messages and what a region holds that this machine did not write are log entry 56; the order of swap, save and
restore and the frames are log entries 47, 48 and 77; a poisoned slot is log entry 94. -/
def Obligations.SwapsAndCheckpoints : Prop :=
  (∀ (s : State), let u := s.stow
    swapWanted u = true → swapOpen u = true →
    let mine := planeHandles u.pl
    let w := (u.pl.threads.foldl (fun a t => match t.park with
      | .fwait _ _ _ _ _ => leaveWaits t.slot t.lane a
      | _ => a) u).updSeqs (fun q => mine.contains q.block) swapStream
    exec .planeSwap s = .next { w with
      swapEnd := some (w.clock.cycle + 48)
      pl := { w.pl with threads := w.pl.threads.map swapThread }
      cl := { w.cl with table := updIf (fun e => mine.contains e.block) freezeEntry w.cl.table } })
  ∧ (∀ (s : State) (k : Nat), let u := s.stow
    u.swapEnd = some k → k ≤ u.clock.cycle →
    let q := swapConts u.clock.cycle (planeCtx u) u.sched.coreQ u.standby.plane
    exec .swapEnd s = .next (pollCommand { u with
      swapEnd := none
      pl := { u.standby.plane with conts := [] }
      sched := { u.sched with coreQ := q.1 }
      standby := { u.standby with st := if planeIdle u then .empty else .saving, plane := { u.pl with conts := q.2 }, stime := u.clock.tbase }
      cp := { u.cp with resuming := u.cp.resuming.filter (fun c => some c != u.standby.plane.ctx) } }))
  ∧ (∀ (s : State) (c : Nat), let u := s.stow
    u.standby.plane.ctx = some c → saveReady u = true → isFrozen u masterSpill = false →
    let x := makeSlot u c
    let ws := saveWrites u c u.freeCtr
    let drawn : State := { u with freeCtr := u.freeCtr + 1 }
    let v := clusterFreed (commitLines c ws 0 .module drawn).1 x
    ((∀ w ∈ ws, granted u masterSpill c w.1 1 = true) → exec .saveComplete s = .next (pollCommand { v with
      standby := { v.standby with st := .empty, plane := freshPlane }, slots := v.slots.filter (·.ctx != c) ++ [x] }))
    ∧ ∀ before w after, ws = before ++ w :: after → (∀ y ∈ before, granted u masterSpill c y.1 1 = true) → granted u masterSpill c w.1 1 = false →
      exec .saveComplete s = .next (freeze masterSpill c w.1 (commitLines c before 0 .module drawn).1))
  ∧ (∀ (c : Nat) (s : State) (x : SaveSlot), slotOf s c = some x → s.cp.resuming.contains c = true → s.standby.st = .empty →
    s.standby.engineDue = false → s.swapEnd = none → isFrozen s masterSpill = false →
    (granted s masterSpill c (slotAddr s c) 1 = false → exec (.restoreStart c) s = .next (freeze masterSpill c (slotAddr s c) s))
    ∧ ∀ u, granted s masterSpill c (slotAddr s c) 1 = true → slotValid s c = true → clusterRoom s x.standby true = true → standbyFree s = (true, u) →
      exec (.restoreStart c) s = .next { u with standby := { x.standby with
        st := .restoring, engineDue := x.standby.hasEngine || decide (x.standby.nframes > 0) } })
  ∧ (∀ (s : State) (c : Nat), s.standby.st = .restoring → s.standby.plane.ctx = some c → isFrozen s masterSpill = false →
    LinesGranted s c (slotAddr s c) 64 → LinesGranted s c (slotAddr s c + 0x1000) 28672 →
    (∀ k ∈ savedBanks s.standby.plane, LinesGranted s c (slotAddr s c + 0x18000 + 0x4000 * k) 16384) →
    let u : State := { s with standby := { s.standby with plane := readBanks s.mem (slotAddr s c) s.standby.plane } }
    let bad := slotPoisoned s c (savedBanks s.standby.plane) false 0
    (bad = true → exec .restoreComplete s = .next (slotCorrupt c s))
    ∧ (bad = false → s.standby.hasEngine = true → exec .restoreComplete s = .next { u with standby := { u.standby with st := .ready } })
    ∧ (bad = false → s.standby.hasEngine = false → exec .restoreComplete s
      = .next (if slotCrcOk s c false then { slotSpent c u with standby := { u.standby with st := .ready } } else slotCorrupt c u)))
  ∧ (∀ (s : State) (c : Nat), s.pl.ctx = some c → s.standby.engineDue = true → s.standby.st ≠ .restoring → s.standby.st ≠ .ready →
    s.swapEnd = none → clusterRoom s s.standby false = true → isFrozen s masterSpill = false → LinesGranted s c (slotAddr s c) 64 →
    (s.standby.hasEngine = true → LinesGranted s c (slotAddr s c + 0x8000) 65536) → LinesGranted s c (slotAddr s c + 0x98000) (65536 * s.standby.nframes) →
    let bad := slotPoisoned s c [] true s.standby.nframes
    let back := settleAdopted (adoptEngine (readFrames c s))
    (bad = true → exec .engineImageRestore s = .next (slotCorrupt c s))
    ∧ (bad = false → s.standby.hasEngine = false → exec .engineImageRestore s = .next back)
    ∧ (bad = false → s.standby.hasEngine = true → exec .engineImageRestore s = .next (if slotCrcOk s c true then slotSpent c back else slotCorrupt c s)))
  ∧ (∀ (s : State),
    (s.ckpt.st = .armed → s.ckpt.t ≤ s.clock.tbase → exec .checkpointQuiesce s = .next { s with
      ctxs := s.ctxs.map (fun c => { c with paused := true }), cp := { s.cp with stopped := true }, ckpt := { s.ckpt with st := .draining } })
    ∧ (s.ckpt.st = .draining → drained s.stow = true →
      let u : State := { s.stow with ckpt := { s.ckpt with st := .barrier s.clock.tbase }, out := s.out ++ [.quiesced s.ckpt.t] }
      exec .checkpointQuiesce s = .next (if allQuiesced s then beginStream u else u)))
  ∧ (∀ (m : Nat) (s : State), s.ckpt.got.contains m = false →
    let u : State := { s with ckpt := { s.ckpt with got := s.ckpt.got ++ [m] } }
    ((∀ t, s.ckpt.st ≠ .barrier t) → exec (.quiesced m) s = .next u)
    ∧ ∀ t, s.ckpt.st = .barrier t → exec (.quiesced m) s = .next (if allQuiesced u then beginStream u else u))
  ∧ (∀ (s : State) (t : Nat), s.ckpt.st = .barrier t → t + 1000000000 ≤ s.clock.tbase → allQuiesced s = false →
    exec .checkpointAbandon s = .next (commandDone 3 (releaseHeld s)))
  ∧ (∀ (s : State) (x : CkptImage), s.ckpt.st = .streaming → s.images.find? (fun x => x.target == s.ckpt.target && x.base == s.ckpt.base) = some x →
    exec .checkpointClose s = .next (commandDone 0 (setIrq 67 (releaseHeld (writeHeader x true s)))))
  ∧ ∀ (s : State), s.ckpt.st = .restoring →
    let h := targetHeader s s.ckpt.target s.ckpt.base
    let good := isUnreachable s s.ckpt.target = false ∧ HeaderTaken s.win.modnum s.ckpt.t h
    let own := s.images.find? (fun x => x.target == s.ckpt.target && x.base == s.ckpt.base)
    let u : State := { s with freeCtr := s.freeCtr + 1 }
    let ends := fun (ok : Prop) (x : CkptImage) =>
      (ok → exec .restoreReadbackDone s = .next (commandDone 0 (setIrq 67 (adoptImage x u))))
      ∧ (¬ ok → exec .restoreReadbackDone s = .next (commandDone 4 (setIrq 67 (failRestore x.mem (Config.readBackLen s.freeCtr) u))))
    (¬ good → exec .restoreReadbackDone s = .next (commandDone 4 (setIrq 67 (failRestore [] 0 s))))
    ∧ (∀ x, good → own = some x → (∀ c ∈ s.remote, x.byteAt c.1 = none) →
      ends (BitVec.ofNat 32 (h / 2 ^ 320) = imageCrc x ∧ h / 2 ^ 352 = 0) x)
    ∧ (good → (∀ x, own = some x → ∃ c ∈ s.remote, x.byteAt c.1 ≠ none) →
      (∀ x, (Config.otherImages s.freeCtr).head? = some x → ends (Config.readBackOk s.freeCtr = true) x)
      ∧ ((Config.otherImages s.freeCtr).head? = none → exec .restoreReadbackDone s = .next (commandDone 4 (setIrq 67 (failRestore [] 0 u)))))

/-- R281, R282, R284, R288, R290, R291, R329, R332 to R334: the engines of the cluster. That a copy moves by chunks, a pass by micro-tiles and a
window fetch by pieces of a row in one step is log entry 31; the corners of a gather are log entry 32, the fetch unit's cache
log entry 36, the end of an entry log entry 37, the slice's sets and pins log entry 69, and the receivers of an `mcpy` log entry 84. -/
def Obligations.EnginesAdvance : Prop :=
  (∀ (s : State) (e : REntry) (u : Nat) (port : Bool), settleTable s = s → (∀ x ∈ s.cl.table, onPort x = port → running x = false) →
    (∀ x ∈ s.cl.table, onPort x ≠ port → x.stage ≠ .fetched) → e ∈ s.cl.table → onPort e = port → eligible s e = true →
    (s.cl.table.Pairwise (fun x y => x.n ≠ y.n)) →
    (∀ x ∈ s.cl.table, onPort x = port → eligible s x = true → x.n ≠ e.n → entryPrio s.clock.cycle x < entryPrio s.clock.cycle e
      ∨ (entryPrio s.clock.cycle x = entryPrio s.clock.cycle e ∧ (e.issued < x.issued ∨ (e.issued = x.issued ∧ e.n < x.n)))) →
    nextTile e = some u →
    exec .passGrant s = .next (setEntry e.seq (fun x => { x with stage := .inPass (s.clock.cycle + passCycles s e u) }) s))
  ∧ (∀ (n u : Nat) (s : State) (e : REntry) (o : PassOut) (log : ReadLog), s.cl.table.find? (·.n == n) = some e → e.isFrozen = false →
    e.denied = false → e.checked = true → e.stage = .accepted → unserved s e.waitIds = false → isFrozen s (masterEngine s 0) = false →
    s.pl.blocks.any (·.handle == e.block) = true → nextTile e = some u →
    (passBody s (homeReader s (masterEngine s 0) (entryCtx s e) false) e u).goBytes = (.ok o, log) →
    (∀ l ∈ s.pl.l1, log.lines.contains l.line = true → l.dirty = 0) → writesPending s log.lines.eraseDups = false →
    exec (.tileFetch n) s = .next (setEntry e.seq (fun x => { x with snap := soSetAll [] log.bytes, stage := .fetched })
      (log.lines.eraseDups.foldl (fun s l => pinLine e.seq l s) s)))
  ∧ (∀ (s : State) (e : REntry) (t u : Nat) (o : PassOut) (ws later : List (Nat × Byte)),
    s.cl.table.filter (fun x => match x.stage with | .inPass t => decide (t ≤ s.clock.cycle) | _ => false) = [e] → e.stage = .inPass t →
    s.pl.blocks.any (·.handle == e.block) = true → nextTile e = some u → (passBody s (snapReader e.snap) e u).go.1 = .ok o →
    homeWrites s (entryCtx s e) [] o.writes = .ok ws → homeWrites s (entryCtx s e) [] o.later = .ok later →
    exec .passEnd s = .next (applyPass e u o ws later s))
  ∧ (∀ (n : Nat) (s : State) (e : REntry), s.cl.table.find? (·.n == n) = some e → e.stage = .releasing →
    s.pl.blocks.any (·.handle == e.block) = true →
    (e.undone = true → exec (.engineRelease n) s = .next (closeEntry true e s))
    ∧ (e.undone = false → engineOpen s 0 e.seq = false → e.later ≠ [] → exec (.engineRelease n) s = .next (setEntry e.seq (fun x => { x with later := [] })
      (engWrite 0 e.seq (entryCtx s e) e.depth e.later s)))
    ∧ (e.undone = false → engineOpen s 0 e.seq = false → e.later = [] → relMet s e.payload e.opct = true → exec (.engineRelease n) s = .next (closeEntry false e s)))
  ∧ (∀ (s : State) (c : CopyOp) (k : Chunk), copiesToRun s = [c] → (planeFree c = true ∨ s.pl.ctx = some c.ctx) →
    statusCode c.status = 0 → c.denied = false → (c.accepted = true ∨ (tileGone s c.bank = false ∧ tileGone s c.srcBank = false)) →
    let u := if c.accepted then s else setCopy c.id (fun x => { x with accepted := true }) (takeTiles c s)
    planChunk u c = .ok k →
    let r := k.moves.foldl moveByte (u, [])
    let v := setCopy c.id (fun x => { x with done := x.done + k.len, gat := k.gat })
      (if c.kind = .mcpy then multicast c k.moves u else engWrite 1 c.id c.ctx c.depth r.2 r.1)
    exec .copyOpStart s = .next (if k.code ≠ 0 ∨ copyBytes c.desc ≤ c.done + k.len then finishCopy c k.code k.detail v else v))
  ∧ (∀ (id : Nat) (s : State) (c : CopyOp), s.cl.copyQ.find? (·.id == id) = some c → copyOver s c = true →
    let u := wakeQueue 1 { s with cl := { s.cl with copyQ := s.cl.copyQ.filter (·.id != id) } }
    (c.kind = .hostCopy → exec (.copyOpComplete id) s = .next (commandDone 0 { u with win := { u.win with cmdWord := c.status } }))
    ∧ (c.kind ≠ .hostCopy → s.pl.ctx = some c.ctx → exec (.copyOpComplete id) s = .next (copyPosts c u)))
  ∧ ∀ (id : Nat) (s : State) (c : CopyOp), s.cl.fetchQ.find? (·.id == id) = some c → opRuns s c = true →
    s.pl.ctx = some c.ctx → c.frozen = none → unserved s c.waitIds = false → opHeld s c = false → s.cp.stopped = false → c.denied = false →
    let w := fun (k : Nat) => c.quad.toNat / 2 ^ (32 * k) % 2 ^ 32
    let rows := w 3 / 65536
    let cols := w 3 % 65536
    let f : FetchFor := { ctx := c.ctx, thread := false, fresh := c.payload.getLsbD 24 }
    (∀ d vt u, c.accepted = false → fetchHandle f c.addr.toNat s = (.ok (d, vt), u) →
      let check := windowCheck d (w 0) (w 1) (w 2) rows cols (((c.block.bind u.block?).map (·.scratch)).getD 0)
      (check = 0x28 → exec (.fgetbComplete id) s = .next (postFetch c 0x28 0 vt u))
      ∧ (check ≠ 0x28 → arraysInG u c.ctx d = .ok false → exec (.fgetbComplete id) s = .next (postFetch c 0x28 0 vt u))
      ∧ (check ≠ 0x28 → arraysInG u c.ctx d = .ok true → exec (.fgetbComplete id) s = .next (if check ≠ 0 then postFetch c check 0 vt u
          else fetchRow { c with accepted := true, desc := d, vt := vt } (w 0) (w 1) (w 2) rows cols
            (setFetch id (fun x => { x with accepted := true, desc := d, vt := vt }) u))))
    ∧ (∀ h bs vt u vs, c.accepted = true → c.block = some h → c.done < rows →
      fetchUnits f c.desc (rowUnits c.desc (w 0 + c.done) (w 1) cols) s = (.ok (bs, vt), u) →
      (rowElems (unitReader bs) c.desc (w 0 + c.done) cols (w 1)).go.1 = .ok vs →
      let n := elemWidth (fhElem c.desc)
      c.rest = [] → exec (.fgetbComplete id) s = .next (nextPiece { c with
        rest := leBytes (packRow n vs) (cols * n / 8), restAt := w 2 + c.done * cols * n / 8, vt := max c.vt vt } h rows u))
    ∧ (∀ h, c.accepted = true → c.block = some h → c.rest ≠ [] → exec (.fgetbComplete id) s = .next (nextPiece c h rows s))

/-- R300 to R306, R308 to R313, R316: what a pass computes, and when an entry counts it done. -/
def Obligations.MatrixPasses : Prop :=
  (∀ (s : State) (e : REntry) (u : Nat), e.maj = 0x30 →
    let w := elemWidth e.modElem
    (e.f = 0 → Passes s e u { writes := (List.range e.a.rows).flatMap (rowCopy s e e.d e.a (dataFmts s e).2.1 (dataFmts s e).2.2) })
    ∧ (e.f = 1 → e.a.kind = 1 → Passes s e u { writes := (List.range e.a.rows).flatMap (rowCopy s e e.d e.a (dataFmts s e).1.1 (dataFmts s e).1.2) })
    ∧ (e.f = 1 → e.a.kind ≠ 1 → Passes s e u { writes := (List.range e.a.rows).flatMap (fun i =>
        rowConvert s e e.d e.a (dataFmts s e).2 (dataFmts s e).1 (fun j => (i, j)) i) })
    ∧ (e.f = 3 → Passes s e u {
        writes := (List.range e.d.rows).flatMap (fun i => (List.range e.d.cols).flatMap (fun j => writeElem s e 0 e.d w i j 0))
        vecs := if e.mod.testBit 4 then (List.range 128).map (fun k => (frameNo s e e.d.idx * 128 + k, 0)) else [] })
    ∧ (e.f = 4 → Passes s e u { writes := (List.range e.a.rows).flatMap (rowCopy s e e.d e.a e.modElem 0) })
    ∧ (e.f = 5 → Passes s e u {})
    ∧ (e.f = 6 → Passes s e u { writes := (List.range e.a.rows).flatMap (fun i =>
        rowConvert s e e.d e.a (dataFmts s e).2 (dataFmts s e).1 (fun j => (e.d.row0 + i, e.d.col0 + j)) i) })
    ∧ (e.f = 7 → Passes s e u { slot := some (e.dnum % 8, BitVec.ofNat 256 (leNat (found [] (snapReader e.snap (e.av.toNat % 2 ^ 64) 32)))) }))
  ∧ (∀ (s : State) (e : REntry) (u nb : Nat), e.maj = 0x30 → e.f = 2 →
    let need := blockStart s e 64
    (e.dv.toNat < 16 → Passes s e u { code := 5, result := some (BitVec.ofNat 64 need) })
    ∧ (16 ≤ e.dv.toNat → nb ≤ 64 → blockStart s e nb ≤ e.dv.toNat → (nb < 64 → e.dv.toNat < blockStart s e (nb + 1)) → Passes s e u {
        writes := (List.range nb).flatMap (fun k => memBytes (e.bv.toNat + blockStart s e k) (blockBytes s e k))
        later := memBytes e.bv.toNat (leBytes (need + 2 ^ 32 * (if nb < 64 then 1 else 0) + 2 ^ 40 * nb) 16)
        code := if nb = 64 then 0 else 5, result := some (BitVec.ofNat 64 need) }))
  ∧ (∀ (s : State) (e : REntry) (u : Nat), e.maj = 0x31 → e.b.cols = e.a.cols →
    let T := accFmt e
    let w := elemWidth e.acc
    let nb := (e.d.cols + 31) / 32
    let is := span (32 * (u / nb)) (min e.d.rows (32 * (u / nb) + 32))
    let js := span (32 * (u % nb)) (min e.d.cols (32 * (u % nb) + 32))
    let p := fun (i j k : Nat) => let v := mulFX (valueOf s e 1 e.a e.aElem e.aMode i k) (valueOf s e 2 e.b e.bElem e.bMode j k); if e.f = 1 then v.flip else v
    let g := if e.acc = 1 then 1 else if e.aElem = 0 then 4 else 32
    Passes s e u { writes := is.flatMap (fun i => js.flatMap (fun j => writeElem s e 0 e.d w i j
      (groupSums T g (p i j) e.a.cols (if e.f = 2 then 2 ^ T.signPos else elemOf s e 0 e.d w i j)))) })
  ∧ (∀ (T : Fmt) (x : Fact) (n j p : Nat), x.stop = none → IsMat x.mat n n → j < n →
    let a := matAt x.mat
    let y := luStep T x j
    ((∃ i, j ≤ i ∧ i < n ∧ isFinite T (a i j) = false) → y = { x with stop := some (2, j) })
    ∧ ((∀ i, j ≤ i → i < n → isFinite T (a i j) = true) → IsPivot T x.mat n j p →
      (T.mag (a p j) = 0 → y = { x with stop := some (1, j) })
      ∧ (T.mag (a p j) ≠ 0 →
        let b := fun (i k : Nat) => a (if i = j then p else if i = p then j else i) k
        let l := fun (i : Nat) => fdiv T {} (b i j) (b j j)
        y.stop = none ∧ y.vec = x.vec ++ [(j, p)] ∧ IsMat y.mat n n
        ∧ (∀ i k, i < n → k < n → matAt y.mat i k
          = if j < i ∧ k = j then l i else if j < i ∧ j < k then ffnma T {} (b i k) (l i) (b j k) else b i k)
        ∧ x.mu ≤ y.mu ∧ (∀ i k, j < i → i < n → j < k → k < n → mag32 T (matAt y.mat i k) ≤ y.mu)
        ∧ (y.mu = x.mu ∨ ∃ i k, j < i ∧ i < n ∧ j < k ∧ k < n ∧ y.mu = mag32 T (matAt y.mat i k)))))
  ∧ (∀ (T : Fmt) (x : Fact) (n j : Nat), x.stop = none → IsMat x.mat n n → j < n →
    let a := matAt x.mat
    let y := cholStep T x j
    let bad := (T.decode (a j j)).isNan = true ∨ fle T (a j j) 0 = true
    (bad → y = { x with stop := some (3, j) })
    ∧ (¬ bad →
      let l := fun (i : Nat) => fdiv T {} (a i j) (fsqrt T {} (a j j))
      y.stop = none ∧ y.vec = x.vec ∧ IsMat y.mat n n
      ∧ ∀ i k, i < n → k < n → matAt y.mat i k = if i = j ∧ k = j then fsqrt T {} (a j j) else if j < i ∧ k = j then l i
        else if j < k ∧ k ≤ i then ffnma T {} (a i k) (l i) (l k) else a i k))
  ∧ (∀ (T : Fmt) (v x : List Nat) (tau j : Nat),
    let y := reflect T v tau j x
    (T.mag tau = 0 → y = x)
    ∧ (T.mag tau ≠ 0 →
      let t := fmul T {} tau ((span (j + 1) x.length).foldl (fun w i => ffma T {} w (v.getD i 0) (x.getD i 0)) (x.getD j 0))
      y.length = x.length ∧ ∀ i < x.length, y.getD i 0
        = if i = j then fsub T {} (x.getD i 0) t else if j < i then ffnma T {} (x.getD i 0) t (v.getD i 0) else x.getD i 0))
  ∧ (∀ (T : Fmt) (x : Fact) (m n j : Nat), IsMat x.mat m n → j < n → n ≤ m →
    let a := matAt x.mat
    let y := qrStep T x j
    ((∀ i, j < i → i < m → T.mag (a i j) = 0) → y = { x with vec := x.vec ++ [(j, 0)] })
    ∧ ((∃ i, j < i ∧ i < m ∧ T.mag (a i j) ≠ 0) →
      let r := fsqrt T {} ((span j m).foldl (fun s i => ffma T {} s (a i j) (a i j)) 0)
      let beta := if (a j j).testBit T.signPos then r else T.round {} (T.decode r).flip
      let tau := fdiv T {} (fsub T {} beta (a j j)) beta
      y.stop = x.stop ∧ y.vec = x.vec ++ [(j, tau)] ∧ IsMat y.mat m n
      ∧ (∀ i < m, matAt y.mat i j = if i = j then beta else if j < i then fdiv T {} (a i j) (fsub T {} (a j j) beta) else a i j)
      ∧ ∀ k < n, k ≠ j → colOf y.mat k = if j < k then reflect T (colOf y.mat j) tau j (colOf x.mat k) else colOf x.mat k))
  ∧ (∀ (T : Fmt) (unit : Bool) (A : Mat) (b : List Nat),
    let x := solveDown T unit A b
    let y := solveUp T A b
    x.length = b.length ∧ y.length = b.length
    ∧ (∀ i < b.length,
      let t := (List.range i).foldl (fun t k => ffnma T {} t (matAt A i k) (x.getD k 0)) (b.getD i 0)
      x.getD i 0 = if unit then (if (T.decode t).isNan = true then T.nan else t) else fdiv T {} t (matAt A i i))
    ∧ ∀ i < b.length, y.getD i 0
      = fdiv T {} ((span (i + 1) b.length).foldl (fun t k => ffnma T {} t (matAt A i k) (y.getD k 0)) (b.getD i 0)) (matAt A i i))
  ∧ (∀ (u p r : Nat) (f : List Nat → List Nat) (D : Mat), IsMat D p r → (∀ x, (f x).length = x.length) →
    IsMat (eachCol u f D) p r
    ∧ ∀ c < r, colOf (eachCol u f D) c = if 32 * u ≤ c ∧ c < 32 * u + 32 then f (colOf D c) else colOf D c)
  ∧ (∀ (js : List Nat) (piv : Nat → Nat) (D : Mat) (p r : Nat), IsMat D p r → (∀ j ∈ js, j < p ∧ piv j < p) →
    ∀ k c, k < p → matAt (permute js piv D) k c = matAt D (js.foldr (fun j k => if k = j then piv j else if k = piv j then j else k) k) c)
  ∧ (∀ (s : State) (e : REntry) (u : Nat), e.maj = 0x32 →
    let T := accFmt e
    let D := matOf s e 0 e.d
    let A := matOf s e 1 e.a
    let base := frameNo s e e.d.idx * 128
    let from_ := frameNo s e e.a.idx * 128
    let js := span (4 * u) (min (4 * u + 4) e.d.cols)
    let stopped := fun (x : Fact) (vecs : List (Nat × DWord)) => ({ writes := writeMat s e x.mat, vecs := vecs, code := (x.stop.map (·.1)).getD 0, detail := (x.stop.map (·.2)).getD 0, stop := x.stop.isSome } : PassOut)
    let columns := fun (f : List Nat → List Nat) => Passes s e u { writes := writeMat s e (eachCol u f D) }
    let reflectors := fun (js : List Nat) => columns (fun x => js.foldl (fun x j =>
      reflect T (colOf A j) (if e.acc = 1 then (vecAt s from_ j).toNat else (vecAt s from_ j).toNat % 2 ^ 32) j x) x)
    (e.f = 0 → e.d.rows = e.d.cols →
      let high := fun (k : Nat) => (vecAt s base k).toNat / 2 ^ 32
      let mo := if u = 0 then D.foldl (fun m r => r.foldl (fun m c => max m (mag32 T c)) m) 0 else high 1
      let x := js.foldl (luStep T) { mat := D, mu := if u = 0 then mo else high 2 }
      ∃ vs : List (Nat × DWord), Passes s e u (stopped x vs) ∧ vs.map Prod.fst = ((x.vec.map Prod.fst ++ [0, 1, 2]) : List Nat).map (fun k => base + k)
        ∧ ∀ k v, (base + k, v) ∈ vs → v.toNat / 2 ^ 32
          = if k = 0 then fdiv .f32 {} x.mu mo % 2 ^ 32 else if k = 1 then mo % 2 ^ 32 else if k = 2 then x.mu % 2 ^ 32 else high k)
    ∧ (e.f = 1 → let x := js.foldl (cholStep T) { mat := D }; Passes s e u (stopped x (x.vec.map (fun p => (base + p.1, BitVec.ofNat 64 p.2)))))
    ∧ (e.f = 2 → let x := js.foldl (qrStep T) { mat := D }; Passes s e u (stopped x (x.vec.map (fun p => (base + p.1, BitVec.ofNat 64 p.2)))))
    ∧ (e.f = 3 → columns (solveDown T false A)) ∧ (e.f = 4 → columns (solveUp T A)) ∧ (e.f = 5 → columns (solveDown T true A))
    ∧ (e.f = 6 →
      let piv := fun (j : Nat) => (vecAt s from_ j).toNat % 2 ^ 32
      let q := List.range (min e.a.rows e.a.cols)
      let good := ∀ j ∈ q, j ≤ piv j ∧ piv j < e.a.rows
      (good → Passes s e u { writes := writeMat s e (permute (if e.mod.testBit 0 then q.reverse else q) piv D) })
      ∧ (¬ good → Passes s e u { code := 8, stop := true }))
    ∧ (e.f = 7 → reflectors (List.range e.a.cols).reverse) ∧ (e.f = 8 → reflectors (List.range e.a.cols)))
  ∧ (∀ (s : State) (e : REntry) (u : Nat), e.maj = 0x33 →
    let rows := span (32 * u) (min e.d.rows (32 * u + 32))
    let bad := rows.find? (fun i => (sharedRow s e i).isNone)
    let value := fun (i n : Nat) => match sharedRow s e i with
      | none => 0x7FC00000
      | some gs => gs.foldl (fun acc g => Fmt.f32.round {} (fmaFX {} (Fmt.f32.decode acc) (elemDecode e.aElem g.value) (Fmt.f32.decode (activationSum s e n g))))
          (elemOf s e 0 e.d 32 i n)
    Passes s e u {
      writes := rows.flatMap (fun i => (List.range e.d.cols).flatMap (fun n => writeElem s e 0 e.d 32 i n (value i n)))
      code := if bad.isSome then 4 else 0, detail := bad.getD 0 })
  ∧ ∀ (s : State) (e : REntry) (u : Nat) (o : PassOut) (ws later : List (Nat × Byte)), entryOf s e.seq = some e →
    (entryOf (applyPass e u o ws later s) e.seq).map (fun x => (x.done, x.status, x.later))
      = some (if o.stop then e.done else e.done ||| (1#64 <<< u), if e.status = 0 ∧ o.code ≠ 0 then engStatus o.code e.n 0 o.detail else e.status, later)

/-- R82: the comparisons of major 0x03, their words and their results. -/
def Obligations.ComparisonsWriteOneOrZero : Prop :=
  ∀ (i : Instr) (sw : Bool) (d a b : BitVec 7) (p : Payload) (f : BitVec 4) (rel : Word → Word → Bool),
    (i, f, rel) ∈ [(.eq sw d a b p, 0, fun x y => decide (x = y)), (.ne sw d a b p, 1, fun x y => decide (x ≠ y)),
      (.lt sw d a b p, 2, fun x y => decide (x.toInt < y.toInt)), (.le sw d a b p, 3, fun x y => decide (x.toInt ≤ y.toInt)),
      (.ltn sw d a b p, 4, fun x y => decide (x.toNat < y.toNat)), (.len sw d a b p, 5, fun x y => decide (x.toNat ≤ y.toNat))] →
    encodeWord i = packA sw 0x03 d a b f
    ∧ ∀ s : State, Executes i s →
      let o := operands i.ins s
      exec i s = .next (finishWith i.ins (targets o [if rel (wordOf o.a) (wordOf o.b) then 1 else 0]) 4 (some 4) true s)

/-- R91: `wbase`. -/
def Obligations.WindowBase : Prop :=
  ∀ (sw : Bool) (a : BitVec 7), let i := Instr.wbase sw a
    encodeWord (.wbase false a) = 0x2C000002 + (a.zeroExtend 32 <<< 11)
    ∧ ∀ s : State, Executes i s →
      let n := wordOf (operands i.ins s).a
      (n.getLsbD 0 = true ∨ s.warp.regsPer - 2 < n.toNat → exec i s = .next (raise { cause := .regBounds, info := n } s))
      ∧ (n.getLsbD 0 = false → n.toNat ≤ s.warp.regsPer - 2 →
        let t := steps i.ins { s with th := { s.th with wb := n.toNat } }
        exec i s = .next t ∧ t.th.wb = n.toNat ∧ (∃ more, t.th.pend = s.th.pend ++ more ∧ ∀ r ∈ more, r.regs = [])
        ∧ ∀ (w : State) (j : Instr) (u : Use) (o : Opnds), w.th.wb = n.toNat → u ∈ j.ins.sh.uses → u.f.toNat ≤ 95 →
          let k := n.toNat + u.f.toNat + (if wiAt j.ins.alu u.slot then w.warp.wi else 0)
          (∀ x, sourceThread w j.ins.alu u.slot = some x → readUse w j.ins.alu u = readRegs x k u.n)
          ∧ (u.slot = .d → (addUse w j.ins.alu o u).pd = if u.role = .src then none else some k))

/-- R8, R55, R57, R60, R65, R169: no bit of an encoding is dropped. -/
def Obligations.DecodeEncodeAgree : Prop :=
  ∀ i : Instr, i.wf = true → decode (encode i) = some i

/-- R56, R65, R80, R84, R102, R141, R149, R231, R240, R306, R316, R332: words of the examples and what they stand for. -/
def Obligations.EncodedWords : Prop :=
  decode [0x04143071] = some (.div false 5 6 7 none)
  ∧ decode [0x120C2205] = some (.shri false 3 4 5 none)
  ∧ decode [0x2015FFFD] = some (.bnz false 5 0xFFFD) ∧ decode [0x2815FFFD] = some (.brxNz false 5 0xFFFD)
  ∧ decode [0x24000080] = some (.call false 0x80)
  ∧ decode [0x42042002] = some (.stW false 1 4 0 none)
  ∧ decode [0x7F640000, 0x40182034] = some (.ldW false 6 4 3 (some 0x1640000))
  ∧ decode [0x7E000C00, 0x40202008] = some (.ldmcQ false 8 4 0 (some 0xC00))
  ∧ decode [0x4A000640] = some (.fence false 6 2)
  ∧ decode [0x3210308E] = some (.fmaD false 4 6 8 none) ∧ decode [0x3A202042] = some (.cvtq false 8 4 4 none)
  ∧ decode [0x50102864] = some (.wredFadd false 4 5 6) ∧ decode [0x52080033] = some (.nbMeet false 2 3)
  ∧ decode [0x2A082002] = some (.watch false 2 4) ∧ decode [0x4620202B] = some (.amoAddb2 false 8 4 2 none)
  ∧ decode [0xAC081806] = some (.poolReq true 2 3) ∧ decode [0x7C140110] = some (.csrr false 5 0x011)
  ∧ decode [0x7E005000, 0x62143070] = some (.mma false 5 6 7 (some 0x5000))
  ∧ decode [0x7E003000, 0x64240000] = some (.tlu false 9 (some 0x3000))
  ∧ decode [0x7E009000, 0x662858C0] = some (.svmv false 10 11 12 (some 0x9000))
  ∧ decode [0x7F445000, 0x54082000] = some (.cpy false 2 4 (some 0x1445000))
  ∧ decode [0] = none

/-- R23, R66, R122, R124, R169, R277, R279: what a step runs. The order of bundle, events, stream and hart within a cycle is log entry 6; that a
module without power runs nothing is log entry 61; the base instructions of a hart are log entry 57. -/
def Obligations.StepRunsDecodedInstruction : Prop :=
  (∀ (s : State) (slot lane : Nat) (rest : List (Nat × Nat)) (w : Word), s.powered = true → s.bundle = (slot, lane) :: rest →
    let b : State := { s.fetchThread slot lane with bundle := rest, actor := .simt }
    b.th.live = true → codeWord? b b.ctxNo b.th.pc = some w →
    let w1 := (codeWord? b b.ctxNo (b.th.pc + 4)).getD 0
    (∀ i, decodePair w w1 = some i → step s = exec i b) ∧ (decodePair w w1 = none → step s = exec (.reservedMajor w) b))
  ∧ (∀ (s : State) (i : Instr) (rest : List Instr), s.powered = true → s.bundle = [] → s.agenda = i :: rest → step s = exec i { s with agenda := rest })
  ∧ (∀ (s : State) (n : Nat) (w : Word) (i : Instr), s.powered = true → s.bundle = [] → s.agenda = [] → s.turn = .stream → nextSeqNo s = some n →
    let b := bringSeq n (waitWordS s)
    codeWord? b b.ctxNo b.sq.pc = some w → decodePair w ((codeWord? b b.ctxNo (b.sq.pc + 4)).getD 0) = some i → step s = exec i b)
  ∧ (∀ (s : State) (n : Nat) (w : Word), s.powered = true → s.bundle = [] → s.agenda = [] → s.turn = .stream → nextSeqNo s = some n →
    let b := bringSeq n (waitWordS s)
    codeWord? b b.ctxNo b.sq.pc = some w → decodePair w ((codeWord? b b.ctxNo (b.sq.pc + 4)).getD 0) = none →
    step s = exec (.reservedMajor w) b ∧ exec (.reservedMajor w) b = .next (stopStream 2 b))
  ∧ (∀ (s : State) (n : Nat) (i : Instr), s.powered = true → s.bundle = [] → s.agenda = [] → s.turn = .hart → nextHartNo s = some n →
    let b := bringHart n s
    decodeHart (fwWord b b.hart.pc) = some i → step s = exec i b)
  ∧ (∀ (s : State) (n : Nat), s.powered = true → s.bundle = [] → s.agenda = [] → s.turn = .hart → nextHartNo s = some n →
    decodeHart (fwWord (bringHart n s) (bringHart n s).hart.pc) = none → step s = .next (hartStep (bringHart n s)))
  ∧ ∀ s : State, s.powered = false → step s = .fault .poweredOff

/-- R99, R181, R211, R386, R393, R394, R408, R409: the state after reset. The number of the core is log entry 1, what empty memory reads as log
entry 2, and values that no rule gives log entry 3. -/
def Obligations.ResetHolds : Prop :=
  let s := State.reset
  s.win.state = .reset ∧ s.powered = true ∧ s.ctxs = [] ∧ s.th.live = false ∧ s.pl.threads = [] ∧ s.pl.blocks = [] ∧ s.sched = {}
  ∧ (∀ k < 32, (bankOf s.pl.pmap k).role = if k = 30 ∨ k = 31 then .cache else .free)
  ∧ s.mem = [] ∧ (∀ q, stGet 0 s.sl.evmax q = 0) ∧ s.sl.lines = [] ∧ s.sl.poison = []
  ∧ s.win.irqstat = 0 ∧ s.win.irqmask = 0 ∧ s.win.ctxerr = 0 ∧ s.win.cmdRes = 0 ∧ s.win.pwrcap = 3000
  ∧ s.root.grants = [] ∧ s.root.frozen = [] ∧ s.clock.mhz = 1200 ∧ s.clock.tbase = 0 ∧ ∀ a, getByte s.mem a = 0

/-- R205, R213, R404 to R406: the canonical form of memory is kept by every step. -/
def Obligations.MemoryCanonicalKept : Prop :=
  Kept MemoryOk

/-- R117 to R119, R361, R363, R364: the threads of the planes. -/
def Obligations.ThreadsKept : Prop :=
  Kept ThreadsOk

/-- R205, R408: reset meets the invariants. -/
def Obligations.MemoryOkAtReset : Prop :=
  MemoryOk State.reset ∧ ThreadsOk State.reset

/-- R9, R23, R343, R408: every instruction has an outcome, and the machine goes on. -/
def Obligations.EveryInstructionGoesOn : Prop :=
  ∀ (i : Instr) (s : State), ∃ t, exec i s = .next t
end

