-- ==== Sys2Proof/Laws/Encoding.lean ====
section
/-! SUPPORT. What the formats of Table 3-1 give back: a field of a packed word is what was packed, and so the decoder reads from
an encoded instruction the instruction itself wherever `decodeWord` reads it from its own word. -/

namespace Sys2Proof

/-! ## Parts of appended vectors -/

theorem extract_append_low {v w : Nat} (x : BitVec v) (y : BitVec w) (lo len : Nat) (h : lo + len ≤ w) :
    (x ++ y).extractLsb' lo len = y.extractLsb' lo len := by
  apply BitVec.eq_of_getLsbD_eq
  intro k hk
  simp only [BitVec.getLsbD_extractLsb', BitVec.getLsbD_append, hk, decide_true, Bool.true_and]
  rw [if_pos (by omega)]

theorem extract_append_high {v w : Nat} (x : BitVec v) (y : BitVec w) (lo len : Nat) (h : w ≤ lo) :
    (x ++ y).extractLsb' lo len = x.extractLsb' (lo - w) len := by
  apply BitVec.eq_of_getLsbD_eq
  intro k hk
  simp only [BitVec.getLsbD_extractLsb', BitVec.getLsbD_append, hk, decide_true, Bool.true_and]
  rw [if_neg (by omega)]
  congr 1
  omega

theorem extract_self {w : Nat} (x : BitVec w) (k : Nat) (h : k = 0) : x.extractLsb' k w = x := by
  subst h
  apply BitVec.eq_of_getLsbD_eq
  intro k hk
  simp [hk]

/-- A vector cut in two and put together again. -/
theorem append_parts {v w : Nat} (x : BitVec (v + w)) : (x.extractLsb' w v) ++ (x.extractLsb' 0 w) = x := by
  apply BitVec.eq_of_getLsbD_eq
  intro k hk
  simp only [BitVec.getLsbD_append, BitVec.getLsbD_extractLsb']
  by_cases h : k < w
  · simp [h]
  · have h1 : k - w < v := by omega
    have h2 : w + (k - w) = k := by omega
    simp [h, h1, h2]

/-! ## Fields of packed words -/

section

variable (s : Bool) (M : BitVec 6) (d a b : BitVec 7) (f : BitVec 4) (i : BitVec 11) (n : BitVec 18) (cc : BitVec 2)
  (o16 : BitVec 16) (o25 : BitVec 25)

@[simp] theorem sOf_packA : sOf (packA s M d a b f) = s := by
  cases s <;> simp only [sOf, packA, BitVec.getLsbD_append] <;> rfl

@[simp] theorem majorOf_packA : majorOf (packA s M d a b f) = M := by
  simp (disch := omega) only [majorOf, packA, extract_append_low, extract_append_high, extract_self]

@[simp] theorem dOf_packA : dOf (packA s M d a b f) = d := by
  simp (disch := omega) only [dOf, packA, extract_append_low, extract_append_high, extract_self]

@[simp] theorem aOf_packA : aOf (packA s M d a b f) = a := by
  simp (disch := omega) only [aOf, packA, extract_append_low, extract_append_high, extract_self]

@[simp] theorem bOf_packA : bOf (packA s M d a b f) = b := by
  simp (disch := omega) only [bOf, packA, extract_append_low, extract_append_high, extract_self]

@[simp] theorem fOf_packA : fOf (packA s M d a b f) = f := by
  simp (disch := omega) only [fOf, packA, extract_append_low, extract_self]

@[simp] theorem sOf_packI : sOf (packI s M d a i) = s := by
  cases s <;> simp only [sOf, packI, BitVec.getLsbD_append] <;> rfl

@[simp] theorem majorOf_packI : majorOf (packI s M d a i) = M := by
  simp (disch := omega) only [majorOf, packI, extract_append_low, extract_append_high, extract_self]

@[simp] theorem dOf_packI : dOf (packI s M d a i) = d := by
  simp (disch := omega) only [dOf, packI, extract_append_low, extract_append_high, extract_self]

@[simp] theorem aOf_packI : aOf (packI s M d a i) = a := by
  simp (disch := omega) only [aOf, packI, extract_append_low, extract_append_high, extract_self]

@[simp] theorem imm11Of_packI : imm11Of (packI s M d a i) = i := by
  simp (disch := omega) only [imm11Of, packI, extract_append_low, extract_self]

@[simp] theorem sOf_packH : sOf (packH s M d n) = s := by
  cases s <;> simp only [sOf, packH, BitVec.getLsbD_append] <;> rfl

@[simp] theorem majorOf_packH : majorOf (packH s M d n) = M := by
  simp (disch := omega) only [majorOf, packH, extract_append_low, extract_append_high, extract_self]

@[simp] theorem dOf_packH : dOf (packH s M d n) = d := by
  simp (disch := omega) only [dOf, packH, extract_append_low, extract_append_high, extract_self]

@[simp] theorem imm18Of_packH : imm18Of (packH s M d n) = n := by
  simp (disch := omega) only [imm18Of, packH, extract_append_low, extract_self]

@[simp] theorem sOf_packB : sOf (packB s M a cc o16) = s := by
  cases s <;> simp only [sOf, packB, BitVec.getLsbD_append] <;> rfl

@[simp] theorem majorOf_packB : majorOf (packB s M a cc o16) = M := by
  simp (disch := omega) only [majorOf, packB, extract_append_low, extract_append_high, extract_self]

@[simp] theorem dOf_packB : dOf (packB s M a cc o16) = a := by
  simp (disch := omega) only [dOf, packB, extract_append_low, extract_append_high, extract_self]

@[simp] theorem ccOf_packB : ccOf (packB s M a cc o16) = cc := by
  simp (disch := omega) only [ccOf, packB, extract_append_low, extract_append_high, extract_self]

@[simp] theorem off16Of_packB : off16Of (packB s M a cc o16) = o16 := by
  simp (disch := omega) only [off16Of, packB, extract_append_low, extract_self]

@[simp] theorem sOf_packJ : sOf (packJ s M o25) = s := by
  cases s <;> simp only [sOf, packJ, BitVec.getLsbD_append] <;> rfl

@[simp] theorem majorOf_packJ : majorOf (packJ s M o25) = M := by
  simp (disch := omega) only [majorOf, packJ, extract_append_low, extract_append_high, extract_self]

@[simp] theorem off25Of_packJ : off25Of (packJ s M o25) = o25 := by
  simp (disch := omega) only [off25Of, packJ, extract_append_low, extract_self]

end

@[simp] theorem isPayloadWord_packPayload (p : BitVec 25) : isPayloadWord (packPayload p) = true := by
  simp [isPayloadWord, packPayload]

@[simp] theorem sOf_packPayload (p : BitVec 25) : sOf (packPayload p) = false := by simp [packPayload]

@[simp] theorem off25Of_packPayload (p : BitVec 25) : off25Of (packPayload p) = p := by simp [packPayload]

/-! ## From a word to the whole instruction -/

/-- The major is the low part of bits [31:25]. -/
theorem majorOf_eq_part (w : Word) : majorOf w = (w.extractLsb' 25 7).extractLsb' 0 6 := by
  apply BitVec.eq_of_getLsbD_eq
  intro k hk
  have h : k < 7 := by omega
  simp [majorOf, hk, h]

/-- A word whose major is not 0 is no word of a hart. -/
theorem decodeHart_none {w : Word} (h : majorOf w ≠ 0) : decodeHart w = none := by
  unfold decodeHart
  split
  · next e =>
    rw [majorOf_eq_part, e.1] at h
    exact absurd (by decide) h
  · rfl

/-- An instruction without a payload is given back where its word gives it back. -/
theorem roundTrip_plain {i : Instr} {w : Word} (e : encode i = [w]) (h0 : majorOf w ≠ 0) (hp : majorOf w ≠ 0x3F)
    (h : decodeWord w none = some i) : decode (encode i) = some i := by
  have hq : isPayloadWord w = false := beq_false_of_ne hp
  simp [e, decode, decodeHart_none h0, decodePair, hq, h]

/-- An instruction with or without a payload is given back where its word and payload give it back. -/
theorem roundTrip_payload {i : Instr} {w : Word} {p : Payload}
    (e : encode i = match p with | none => [w] | some q => [packPayload q, w]) (h0 : majorOf w ≠ 0) (hp : majorOf w ≠ 0x3F)
    (h : decodeWord w p = some i) : decode (encode i) = some i := by
  cases p with
  | none => exact roundTrip_plain e h0 hp h
  | some q => simp [e, decode, decodePair, h]

/-! ## Each major's decoder -/

section

variable (s : Bool) (d a b : BitVec 7) (f : BitVec 4) (i : BitVec 11) (n : BitVec 18) (cc : BitVec 2)
  (o16 : BitVec 16) (o25 : BitVec 25) (p : Payload)

theorem decodeWord_01 : decodeWord (packA s 0x01 d a b f) p = dec01 s f d a b p := by
  simp [decodeWord, acceptsPayload]

theorem decodeWord_02 : decodeWord (packA s 0x02 d a b f) p = dec02 s f d a b p := by
  simp [decodeWord, acceptsPayload]

theorem decodeWord_03 : decodeWord (packA s 0x03 d a b f) p = dec03 s f d a b p := by
  simp [decodeWord, acceptsPayload]

theorem decodeWord_04 : decodeWord (packA s 0x04 d a b f) p = dec04 s f d a b p := by
  simp [decodeWord, acceptsPayload]

theorem decodeWord_05 : decodeWord (packI s 0x05 d a i) p = dec05 s d a i p := by
  simp [decodeWord, acceptsPayload]

theorem decodeWord_06 : decodeWord (packI s 0x06 d a i) p = dec06 s d a i p := by
  simp [decodeWord, acceptsPayload]

theorem decodeWord_07 : decodeWord (packI s 0x07 d a i) p = dec07 s d a i p := by
  simp [decodeWord, acceptsPayload]

theorem decodeWord_08 : decodeWord (packI s 0x08 d a i) p = dec08 s d a i p := by
  simp [decodeWord, acceptsPayload]

theorem decodeWord_09 : decodeWord (packI s 0x09 d a i) p = dec09 s d a i p := by
  simp [decodeWord, acceptsPayload]

theorem decodeWord_0A : decodeWord (packI s 0x0A d a i) p = dec0A s d a i p := by
  simp [decodeWord, acceptsPayload]

theorem decodeWord_0B : decodeWord (packI s 0x0B d a i) p = dec0B s d a i p := by
  simp [decodeWord, acceptsPayload]

theorem decodeWord_0C : decodeWord (packI s 0x0C d a i) p = dec0C s d a i p := by
  simp [decodeWord, acceptsPayload]

theorem decodeWord_0D : decodeWord (packH s 0x0D d n) p = dec0D s d n p := by
  simp [decodeWord, acceptsPayload]

theorem decodeWord_0E : decodeWord (packH s 0x0E d n) p = dec0E s d n p := by
  simp [decodeWord, acceptsPayload]

theorem decodeWord_10 : decodeWord (packB s 0x10 a cc o16) none = dec10 s a cc o16 := by
  simp [decodeWord]

theorem decodeWord_11 : decodeWord (packJ s 0x11 o25) none = dec11 s o25 := by
  simp [decodeWord]

theorem decodeWord_12 : decodeWord (packJ s 0x12 o25) none = dec12 s o25 := by
  simp [decodeWord]

theorem decodeWord_13 : decodeWord (packA s 0x13 d a b f) none = dec13 s f d a b := by
  simp [decodeWord]

theorem decodeWord_14 : decodeWord (packB s 0x14 a cc o16) none = dec14 s a cc o16 := by
  simp [decodeWord]

theorem decodeWord_15 : decodeWord (packA s 0x15 d a b f) none = dec15 s f d a b := by
  simp [decodeWord]

theorem decodeWord_16 : decodeWord (packA s 0x16 d a b f) none = dec16 s f d a b := by
  simp [decodeWord]

theorem decodeWord_18 : decodeWord (packA s 0x18 d a b f) p = dec18 s f d a b p := by
  simp [decodeWord, acceptsPayload]

theorem decodeWord_19 : decodeWord (packA s 0x19 d a b f) p = dec19 s f d a b p := by
  simp [decodeWord, acceptsPayload]

theorem decodeWord_1A : decodeWord (packA s 0x1A d a b f) p = dec1A s f d a b p := by
  simp [decodeWord, acceptsPayload]

theorem decodeWord_1B : decodeWord (packA s 0x1B d a b f) p = dec1B s f d a b p := by
  simp [decodeWord, acceptsPayload]

theorem decodeWord_1C : decodeWord (packA s 0x1C d a b f) p = dec1C s f d a b p := by
  simp [decodeWord, acceptsPayload]

theorem decodeWord_1D : decodeWord (packA s 0x1D d a b f) p = dec1D s f d a b p := by
  simp [decodeWord, acceptsPayload]

theorem decodeWord_20 : decodeWord (packA s 0x20 d a b f) p = dec20 s f d a b p := by
  simp [decodeWord, acceptsPayload]

theorem decodeWord_21 : decodeWord (packA s 0x21 d a b f) p = dec21 s f d a b p := by
  simp [decodeWord, acceptsPayload]

theorem decodeWord_22 : decodeWord (packA s 0x22 d a b f) p = dec22 s f d a b p := by
  simp [decodeWord, acceptsPayload]

theorem decodeWord_23 : decodeWord (packA s 0x23 d a b f) p = dec23 s f d a b p := by
  simp [decodeWord, acceptsPayload]

theorem decodeWord_24 : decodeWord (packA s 0x24 d a b f) p = dec24 s f d a b p := by
  simp [decodeWord, acceptsPayload]

theorem decodeWord_25 : decodeWord (packA s 0x25 d a b f) none = dec25 s f d a b := by
  simp [decodeWord]

theorem decodeWord_28 (h : p = none ∨ f = 13) : decodeWord (packA s 0x28 d a b f) p = dec28 s f d a b p := by
  rcases h with rfl | rfl
  · simp [decodeWord]
  · simp [decodeWord, acceptsPayload]

theorem decodeWord_29 : decodeWord (packA s 0x29 d a b f) none = dec29 s f d a b := by
  simp [decodeWord]

theorem decodeWord_2A : decodeWord (packA s 0x2A d a b f) p = dec2A s f d a b p := by
  simp [decodeWord, acceptsPayload]

theorem decodeWord_30 : decodeWord (packA s 0x30 d a b f) p = dec30 s f d a b p := by
  simp [decodeWord, acceptsPayload]

theorem decodeWord_31 : decodeWord (packA s 0x31 d a b f) p = dec31 s f d a b p := by
  simp [decodeWord, acceptsPayload]

theorem decodeWord_32 : decodeWord (packA s 0x32 d a b f) p = dec32 s f d a b p := by
  simp [decodeWord, acceptsPayload]

theorem decodeWord_33 : decodeWord (packA s 0x33 d a b f) p = dec33 s f d a b p := by
  simp [decodeWord, acceptsPayload]

theorem decodeWord_34 : decodeWord (packA s 0x34 d a b f) none = dec34 s f d a b := by
  simp [decodeWord]

theorem decodeWord_3E : decodeWord (packA s 0x3E d a b f) none = dec3E s f d a b := by
  simp [decodeWord]

end

/-! ## Shifts by an immediate -/

theorem dec09_shli (s : Bool) (d a : BitVec 7) (n : BitVec 5) (p : Payload) :
    dec09 s d a (0#6 ++ n) p = some (.shli s d a n p) := by
  have h5 : (0#6 ++ n).extractLsb' 5 4 = 0#4 := by rw [extract_append_high _ _ _ _ (by omega)]; rfl
  have h9 : (0#6 ++ n).extractLsb' 9 2 = 0#2 := by rw [extract_append_high _ _ _ _ (by omega)]; rfl
  have h0 : (0#6 ++ n).extractLsb' 0 5 = n := by rw [extract_append_low _ _ _ _ (by omega), extract_self _ _ rfl]
  unfold dec09
  refine (if_pos h5).trans ?_
  rw [h9, h0]
  rfl

theorem dec09_shri (s : Bool) (d a : BitVec 7) (n : BitVec 5) (p : Payload) :
    dec09 s d a (16#6 ++ n) p = some (.shri s d a n p) := by
  have h5 : (16#6 ++ n).extractLsb' 5 4 = 0#4 := by rw [extract_append_high _ _ _ _ (by omega)]; rfl
  have h9 : (16#6 ++ n).extractLsb' 9 2 = 1#2 := by rw [extract_append_high _ _ _ _ (by omega)]; rfl
  have h0 : (16#6 ++ n).extractLsb' 0 5 = n := by rw [extract_append_low _ _ _ _ (by omega), extract_self _ _ rfl]
  unfold dec09
  refine (if_pos h5).trans ?_
  rw [h9, h0]
  rfl

theorem dec09_sari (s : Bool) (d a : BitVec 7) (n : BitVec 5) (p : Payload) :
    dec09 s d a (32#6 ++ n) p = some (.sari s d a n p) := by
  have h5 : (32#6 ++ n).extractLsb' 5 4 = 0#4 := by rw [extract_append_high _ _ _ _ (by omega)]; rfl
  have h9 : (32#6 ++ n).extractLsb' 9 2 = 2#2 := by rw [extract_append_high _ _ _ _ (by omega)]; rfl
  have h0 : (32#6 ++ n).extractLsb' 0 5 = n := by rw [extract_append_low _ _ _ _ (by omega), extract_self _ _ rfl]
  unfold dec09
  refine (if_pos h5).trans ?_
  rw [h9, h0]
  rfl

theorem dec09_roti (s : Bool) (d a : BitVec 7) (n : BitVec 5) (p : Payload) :
    dec09 s d a (48#6 ++ n) p = some (.roti s d a n p) := by
  have h5 : (48#6 ++ n).extractLsb' 5 4 = 0#4 := by rw [extract_append_high _ _ _ _ (by omega)]; rfl
  have h9 : (48#6 ++ n).extractLsb' 9 2 = 3#2 := by rw [extract_append_high _ _ _ _ (by omega)]; rfl
  have h0 : (48#6 ++ n).extractLsb' 0 5 = n := by rw [extract_append_low _ _ _ _ (by omega), extract_self _ _ rfl]
  unfold dec09
  refine (if_pos h5).trans ?_
  rw [h9, h0]
  rfl

/-! ## Fields within the fields of fences, barriers, crossing registers and layouts -/

@[simp] theorem fence_low (c m : BitVec 3) : @BitVec.extractLsb' 7 0 1 (c ++ m ++ 0#1) = 0#1 := by
  revert c m; decide

@[simp] theorem fence_scope (c m : BitVec 3) : @BitVec.extractLsb' 7 4 3 (c ++ m ++ 0#1) = c := by
  revert c m; decide

@[simp] theorem fence_mask (c m : BitVec 3) : @BitVec.extractLsb' 7 1 3 (c ++ m ++ 0#1) = m := by
  revert c m; decide

@[simp] theorem bar_high (n : BitVec 4) : @BitVec.extractLsb' 7 4 3 (0#3 ++ n) = 0#3 := by
  revert n; decide

@[simp] theorem bar_low (n : BitVec 4) : @BitVec.extractLsb' 7 0 4 (0#3 ++ n) = n := by
  revert n; decide

@[simp] theorem stat_high (e : BitVec 3) (n : BitVec 4) : @BitVec.extractLsb' 7 4 3 (e ++ n) = e := by
  revert e n; decide

@[simp] theorem stat_low (e : BitVec 3) (n : BitVec 4) : @BitVec.extractLsb' 7 0 4 (e ++ n) = n := by
  revert e n; decide

@[simp] theorem cross_high (k : BitVec 3) : @BitVec.extractLsb' 7 3 4 (0#4 ++ k) = 0#4 := by
  revert k; decide

@[simp] theorem cross_low (k : BitVec 3) : @BitVec.extractLsb' 7 0 3 (0#4 ++ k) = k := by
  revert k; decide

@[simp] theorem xrd_high (k : BitVec 3) : @BitVec.extractLsb' 7 3 4 (4#4 ++ k) = 4#4 := by
  revert k; decide

@[simp] theorem xrd_low (k : BitVec 3) : @BitVec.extractLsb' 7 0 3 (4#4 ++ k) = k := by
  revert k; decide

@[simp] theorem movl_high (n : BitVec 14) : @BitVec.extractLsb' 18 14 4 (0#4 ++ n) = 0#4 :=
  (extract_append_high _ _ _ _ (by omega)).trans rfl

@[simp] theorem movl_low (n : BitVec 14) : @BitVec.extractLsb' 18 0 14 (0#4 ++ n) = n :=
  (extract_append_low _ _ _ _ (by omega)).trans (extract_self _ _ rfl)

/-! ## Words of a hart -/

section

variable (b a d : BitVec 5) (rel : BitVec 3)

theorem packHart_zero : (packHart b a rel d).extractLsb' 25 7 = 0 := by
  simp (disch := omega) only [packHart, extract_append_low, extract_append_high, extract_self]

theorem packHart_opcode : (packHart b a rel d).extractLsb' 0 7 = 0x0B := by
  simp (disch := omega) only [packHart, extract_append_low, extract_self]

theorem packHart_rel : (packHart b a rel d).extractLsb' 12 3 = rel := by
  simp (disch := omega) only [packHart, extract_append_low, extract_append_high, extract_self]

theorem packHart_b : (packHart b a rel d).extractLsb' 20 5 = b := by
  simp (disch := omega) only [packHart, extract_append_low, extract_append_high, extract_self]

theorem packHart_a : (packHart b a rel d).extractLsb' 15 5 = a := by
  simp (disch := omega) only [packHart, extract_append_low, extract_append_high, extract_self]

theorem packHart_d : (packHart b a rel d).extractLsb' 7 5 = d := by
  simp (disch := omega) only [packHart, extract_append_low, extract_append_high, extract_self]

theorem decodeHart_Eq : decodeHart (packHart b a 0 d) = some (.kwaitEq b a d) := by
  unfold decodeHart
  rw [if_pos ⟨packHart_zero .., packHart_opcode ..⟩, packHart_rel, packHart_b, packHart_a, packHart_d]
  rfl

theorem decodeHart_Ne : decodeHart (packHart b a 1 d) = some (.kwaitNe b a d) := by
  unfold decodeHart
  rw [if_pos ⟨packHart_zero .., packHart_opcode ..⟩, packHart_rel, packHart_b, packHart_a, packHart_d]
  rfl

theorem decodeHart_Geu : decodeHart (packHart b a 2 d) = some (.kwaitGeu b a d) := by
  unfold decodeHart
  rw [if_pos ⟨packHart_zero .., packHart_opcode ..⟩, packHart_rel, packHart_b, packHart_a, packHart_d]
  rfl

end

/-- An instruction of a hart is given back where its word gives it back. -/
theorem roundTrip_hart {i : Instr} {w : Word} (e : encode i = [w]) (h : decodeHart w = some i) : decode (encode i) = some i := by
  simp [e, decode, h]

end Sys2Proof
end

