-- ==== Sys2Proof/Laws/Store.lean ====
section
/-! SUPPORT. The laws of keyed stores: what a read gives after a write, that a write elsewhere changes nothing, and that every write
keeps the canonical form. -/

namespace Sys2Proof.Machine

open Sys2Proof

/-! ## One write -/

theorem stGet_lt {α : Type} (z : α) (l : List (Nat × α)) (n : Nat) (h : stAbove n l = true) : stGet z l n = z := by
  cases l with
  | nil => rfl
  | cons x t =>
    obtain ⟨k, v⟩ := x
    have : n < k := by simpa [stAbove] using h
    simp [stGet, this]

theorem stAbove_trans {α : Type} (l : List (Nat × α)) (m n : Nat) (h : m ≤ n) (ha : stAbove n l = true) :
    stAbove m l = true := by
  cases l with
  | nil => rfl
  | cons x t =>
    obtain ⟨k, v⟩ := x
    simp only [stAbove, decide_eq_true_eq] at ha ⊢
    omega

/-- A read of the key just written gives the value written. -/
theorem stGet_stSet_same {α : Type} [DecidableEq α] (z : α) (l : List (Nat × α)) (n : Nat) (v : α) (h : stWf z l = true) :
    stGet z (stSet z l n v) n = v := by
  induction l with
  | nil =>
    unfold stSet
    split
    · next e => simp [stGet, e]
    · simp [stGet]
  | cons x t ih =>
    obtain ⟨k, w⟩ := x
    simp only [stWf, Bool.and_eq_true, decide_eq_true_eq] at h
    unfold stSet
    split
    · next hk =>
      split
      · next e => simp [stGet, hk, e]
      · simp [stGet]
    · next hk =>
      split
      · next hk' =>
        split
        · next e =>
          subst e
          exact stGet_lt _ _ _ (stAbove_trans t n k (by omega) h.1.2)
        · simp [stGet]
      · next hk' =>
        simp only [stGet, if_neg hk, if_neg hk']
        exact ih h.2

/-- A read of another key gives what it gave before. -/
theorem stGet_stSet_other {α : Type} [DecidableEq α] (z : α) (l : List (Nat × α)) (n m : Nat) (v : α) (h : stWf z l = true)
    (hm : m ≠ n) : stGet z (stSet z l n v) m = stGet z l m := by
  induction l with
  | nil =>
    unfold stSet
    split
    · rfl
    · simp [stGet, hm]
  | cons x t ih =>
    obtain ⟨k, w⟩ := x
    simp only [stWf, Bool.and_eq_true, decide_eq_true_eq] at h
    unfold stSet
    split
    · next hk =>
      split
      · rfl
      · simp only [stGet, if_neg hm]
        split
        · next h1 => rw [if_pos (by omega)]
        · rfl
    · next hk =>
      split
      · next hk' =>
        subst hk'
        split
        · next e =>
          simp only [stGet, if_neg hm]
          split
          · next h1 => exact stGet_lt _ _ _ (stAbove_trans t m n (by omega) h.1.2)
          · rfl
        · simp only [stGet, if_neg hm]
      · simp only [stGet]
        split
        · rfl
        · split
          · rfl
          · exact ih h.2

theorem stAbove_stSet {α : Type} [DecidableEq α] (z : α) (l : List (Nat × α)) (n m : Nat) (v : α) (h : stWf z l = true)
    (ha : stAbove m l = true) (hm : m < n) : stAbove m (stSet z l n v) = true := by
  cases l with
  | nil =>
    unfold stSet
    split
    · rfl
    · simp [stAbove, hm]
  | cons x t =>
    obtain ⟨k, w⟩ := x
    simp only [stWf, Bool.and_eq_true, decide_eq_true_eq] at h
    simp only [stAbove, decide_eq_true_eq] at ha
    unfold stSet
    split
    · split
      · simp [stAbove, ha]
      · simp [stAbove, hm]
    · split
      · split
        · exact stAbove_trans t m k (by omega) h.1.2
        · simp [stAbove, hm]
      · simp [stAbove, ha]

/-- A write keeps the canonical form. -/
theorem stWf_stSet {α : Type} [DecidableEq α] (z : α) (l : List (Nat × α)) (n : Nat) (v : α) (h : stWf z l = true) :
    stWf z (stSet z l n v) = true := by
  induction l with
  | nil =>
    unfold stSet
    split
    · rfl
    · next e => simp [stWf, stAbove, e]
  | cons x t ih =>
    obtain ⟨k, w⟩ := x
    have h' := h
    simp only [stWf, Bool.and_eq_true, decide_eq_true_eq] at h
    unfold stSet
    split
    · next hk =>
      split
      · exact h'
      · next e =>
        simp only [stWf, stAbove, Bool.and_eq_true, decide_eq_true_eq]
        exact ⟨⟨e, hk⟩, h⟩
    · next hk =>
      split
      · next hk' =>
        split
        · exact h.2
        · next e =>
          subst hk'
          simp only [stWf, Bool.and_eq_true, decide_eq_true_eq]
          exact ⟨⟨e, h.1.2⟩, h.2⟩
      · next hk' =>
        simp only [stWf, Bool.and_eq_true, decide_eq_true_eq]
        exact ⟨⟨h.1.1, stAbove_stSet z t n k v h.2 h.1.2 (by omega)⟩, ih h.2⟩

/-! ## Several writes -/

theorem stWf_stSetAll {α : Type} [DecidableEq α] (z : α) (ws : List (Nat × α)) (l : List (Nat × α)) (h : stWf z l = true) :
    stWf z (stSetAll z l ws) = true := by
  induction ws generalizing l with
  | nil => exact h
  | cons w t ih => exact ih _ (stWf_stSet z l w.1 w.2 h)

/-- A key that no write names keeps its value. -/
theorem stGet_stSetAll_other {α : Type} [DecidableEq α] (z : α) (ws : List (Nat × α)) (l : List (Nat × α)) (m : Nat)
    (h : stWf z l = true) (hm : ∀ w ∈ ws, m ≠ w.1) : stGet z (stSetAll z l ws) m = stGet z l m := by
  induction ws generalizing l with
  | nil => rfl
  | cons w t ih =>
    have h1 := ih (stSet z l w.1 w.2) (stWf_stSet z l w.1 w.2 h) (fun x hx => hm x (List.mem_cons_of_mem _ hx))
    rw [show stSetAll z l (w :: t) = stSetAll z (stSet z l w.1 w.2) t from rfl, h1]
    exact stGet_stSet_other z l w.1 m w.2 h (hm w List.mem_cons_self)

/-! ## Bytes -/

/-- Every write of bytes keeps memory's canonical form. -/
theorem wf_setBytes (m : List (Nat × Byte)) (ws : List (Nat × Byte)) (h : Memory.wf m = true) : Memory.wf (setBytes m ws) = true :=
  stWf_stSetAll memBlank ws m h

theorem wf_setLe (m : List (Nat × Byte)) (a n v : Nat) (h : Memory.wf m = true) : Memory.wf (setLe m a n v) = true :=
  wf_setBytes m _ h

theorem getByte_setBytes_other (m : List (Nat × Byte)) (ws : List (Nat × Byte)) (a : Nat) (h : Memory.wf m = true)
    (ha : ∀ w ∈ ws, a ≠ w.1) : getByte (setBytes m ws) a = getByte m a :=
  stGet_stSetAll_other memBlank ws m a h ha

theorem atAddr_bounds (a : Nat) (bs : List Byte) : ∀ w ∈ atAddr a bs, a ≤ w.1 ∧ w.1 < a + bs.length := by
  induction bs generalizing a with
  | nil => intro w hw; simp [atAddr] at hw
  | cons b t ih =>
    intro w hw
    simp only [atAddr, List.mem_cons] at hw
    rcases hw with rfl | hw
    · simp
    · have := ih (a + 1) w hw
      simp only [List.length_cons]
      omega

/-- A byte outside the bytes written reads as before. -/
theorem getByte_setBytes_outside (m : List (Nat × Byte)) (a b : Nat) (bs : List Byte) (h : Memory.wf m = true)
    (hb : b < a ∨ a + bs.length ≤ b) : getByte (setBytes m (atAddr a bs)) b = getByte m b := by
  apply getByte_setBytes_other m _ b h
  intro w hw e
  have := atAddr_bounds a bs w hw
  omega

@[simp] theorem leBytes_length (v n : Nat) : (leBytes v n).length = n := by
  induction n generalizing v with
  | zero => rfl
  | succ n ih => simp [leBytes, ih]

/-- The bytes written are the bytes read. -/
theorem getBytes_setBytes_same (m : List (Nat × Byte)) (a : Nat) (bs : List Byte) (h : Memory.wf m = true) :
    getBytes (setBytes m (atAddr a bs)) a bs.length = bs := by
  induction bs generalizing m a with
  | nil => rfl
  | cons b t ih =>
    have h1 : Memory.wf (stSet memBlank m a b) = true := stWf_stSet memBlank m a b h
    have e : setBytes m (atAddr a (b :: t)) = setBytes (stSet memBlank m a b) (atAddr (a + 1) t) := rfl
    simp only [List.length_cons, getBytes]
    rw [e, ih _ _ h1, getByte_setBytes_outside _ (a + 1) a t h1 (by omega)]
    congr 1
    exact stGet_stSet_same memBlank m a b h

/-- Little-endian bytes read back as the number (R4). -/
theorem leNat_leBytes (v n : Nat) : leNat (leBytes v n) = v % 256 ^ n := by
  induction n generalizing v with
  | zero => simp [leBytes, leNat, Nat.mod_one]
  | succ n ih =>
    simp only [leBytes, leNat, ih, BitVec.toNat_ofNat]
    rw [show 256 ^ (n + 1) = 256 * 256 ^ n from by rw [Nat.pow_succ, Nat.mul_comm], Nat.mod_mul]

/-- A number written at an address reads back, if it fits. -/
theorem getLe_setLe (m : List (Nat × Byte)) (a n v : Nat) (h : Memory.wf m = true) : getLe (setLe m a n v) a n = v % 256 ^ n := by
  unfold getLe setLe
  have := getBytes_setBytes_same m a (leBytes v n) h
  rw [leBytes_length] at this
  rw [this, leNat_leBytes]

end Sys2Proof.Machine
end

