-- ==== Sys2Proof/Laws/Memory.lean ====
section
/-! SUPPORT. The operations that write device memory keep its canonical form: commits, the device's writes to its own rings, error
records, and what a restore adopts. -/

namespace Sys2Proof.Laws

open Sys2Proof Sys2Proof.Machine

/-! ## The operations that write memory (R205, R213, R404 to R406) -/

/-- Nothing that the memory invariant speaks of changes. -/
def SameMemory (s t : State) : Prop := t.mem = s.mem ∧ t.images = s.images

theorem memoryOk_of_same {s t : State} (h : SameMemory s t) (hs : MemoryOk s) : MemoryOk t := by
  obtain ⟨h1, h2⟩ := h
  unfold MemoryOk at *
  rw [h1, h2]
  exact hs

theorem memoryOk_foldl {α : Type} (f : State → α → State) (hf : ∀ s a, MemoryOk s → MemoryOk (f s a)) (l : List α) (s : State)
    (h : MemoryOk s) : MemoryOk (l.foldl f s) := by
  induction l generalizing s with
  | nil => exact h
  | cons a t ih => exact ih _ (hf s a h)

theorem sameMemory_sendIrq (v : Nat) (s : State) : SameMemory s (sendIrq v s) := ⟨rfl, rfl⟩

theorem sameMemory_setIrq (v : Nat) (s : State) : SameMemory s (setIrq v s) := by
  unfold setIrq
  dsimp only
  split <;> exact ⟨rfl, rfl⟩

theorem sameMemory_notify (till src : Nat) (err : Option Nat) (s : State) : SameMemory s (notify till src err s) := ⟨rfl, rfl⟩

theorem sameMemory_updCtx (c : Nat) (f : Ctx → Ctx) (s : State) : SameMemory s (s.updCtx c f) := ⟨rfl, rfl⟩

theorem sameMemory_wakeWaiters (l : List Nat) (s : State) : SameMemory s (wakeWaiters l s) := ⟨rfl, rfl⟩

theorem sameMemory_setLineRec (l : Nat) (r : LineRec) (s : State) : SameMemory s (setLineRec l r s) := by
  unfold setLineRec
  dsimp only
  repeat' split
  all_goals exact ⟨rfl, rfl⟩

theorem memoryOk_ringWrite (c : Ctx) (va : Nat) (bs : List Byte) (s : State) (h : MemoryOk s) : MemoryOk (ringWrite c va bs s) := by
  unfold ringWrite
  split
  · exact h
  · exact ⟨wf_setBytes _ _ h.1, h.2⟩

theorem memoryOk_adoptImage (x : CkptImage) (s : State) (h : MemoryOk s) : MemoryOk (adoptImage x s) := ⟨wf_setBytes _ _ rfl, h.2⟩


theorem stAbove_filter {α : Type} [DecidableEq α] (z : α) (l : List (Nat × α)) (p : Nat × α → Bool) (n : Nat) (h : stWf z l = true)
    (ha : stAbove n l = true) : stAbove n (l.filter p) = true := by
  induction l with
  | nil => rfl
  | cons x t ih =>
    obtain ⟨k, v⟩ := x
    simp only [stWf, Bool.and_eq_true] at h
    simp only [List.filter_cons]
    split
    · exact ha
    · exact ih h.2 (stAbove_trans t n k (by simp [stAbove] at ha; omega) h.1.2)

theorem stWf_filter {α : Type} [DecidableEq α] (z : α) (l : List (Nat × α)) (p : Nat × α → Bool) (h : stWf z l = true) :
    stWf z (l.filter p) = true := by
  induction l with
  | nil => rfl
  | cons x t ih =>
    obtain ⟨k, v⟩ := x
    simp only [stWf, Bool.and_eq_true] at h
    simp only [List.filter_cons]
    split
    · simp only [stWf, Bool.and_eq_true]
      exact ⟨⟨h.1.1, stAbove_filter z t p k h.2 h.1.2⟩, ih h.2⟩
    · exact ih h.2

theorem stAbove_of_all {α : Type} (n : Nat) (l : List (Nat × α)) (h : ∀ x ∈ l, n < x.1) : stAbove n l = true := by
  cases l with
  | nil => rfl
  | cons x t => simpa [stAbove] using h x (by simp)

/-- The first bytes of one memory and the rest of another. -/
theorem wf_spliced (a b : List (Nat × Byte)) (n : Nat) (ha : Memory.wf a = true) (hb : Memory.wf b = true) :
    Memory.wf (a.filter (fun c => decide (c.1 < n)) ++ b.filter (fun c => decide (n ≤ c.1))) = true := by
  unfold Memory.wf at *
  induction a with
  | nil => exact stWf_filter _ b _ hb
  | cons x t ih =>
    obtain ⟨k, v⟩ := x
    simp only [stWf, Bool.and_eq_true] at ha
    simp only [List.filter_cons]
    split
    · next hk =>
      have hk : k < n := by simpa using hk
      simp only [List.cons_append, stWf, Bool.and_eq_true]
      refine ⟨⟨ha.1.1, ?_⟩, ih ha.2⟩
      cases hf : t.filter (fun c => decide (c.1 < n)) with
      | nil =>
        apply stAbove_of_all
        intro y hy
        have : n ≤ y.1 := by simpa using (List.mem_filter.1 hy).2
        omega
      | cons y ys =>
        have := stAbove_filter _ t (fun c => decide (c.1 < n)) k ha.2 ha.1.2
        rw [hf] at this
        exact this
    · exact ih ha.2

theorem sameMemory_treeSubs (l : List TrigRec) (s : State) :
    SameMemory s (l.foldl (fun s r => treeSub r.tree 1 s) s) := by
  induction l generalizing s with
  | nil => exact ⟨rfl, rfl⟩
  | cons r t ih => exact ih (treeSub r.tree 1 s)

theorem memoryOk_spillTrigs (q c : Nat) (s : State) (h : MemoryOk s) : MemoryOk (spillTrigs q c s) := by
  unfold spillTrigs
  split
  · exact h
  · dsimp only
    split
    · exact memoryOk_of_same (sameMemory_treeSubs _ s) h
    · exact memoryOk_foldl _ (fun s r hs => memoryOk_ringWrite _ _ _ s hs) _ _ h

theorem memoryOk_makeRoom (q c : Nat) (s : State) (h : MemoryOk s) : MemoryOk (makeRoom q c s) := by
  unfold makeRoom
  have h1 : MemoryOk (if onChip s q c ≥ ((s.ctx? c).map (·.tqlim.toNat)).getD 256 then spillTrigs q c s else s) := by
    split
    · exact memoryOk_spillTrigs q c s h
    · exact h
  dsimp only
  generalize (if onChip s q c ≥ ((s.ctx? c).map (·.tqlim.toNat)).getD 256 then spillTrigs q c s else s) = u at h1 ⊢
  split
  · exact h1
  · split
    · exact h1
    · exact memoryOk_spillTrigs _ _ _ h1

theorem memoryOk_trigEvent (k : Att) (g depth wct : Nat) (s : State) (h : MemoryOk s) : MemoryOk (trigEvent k g depth wct s).1 := by
  unfold trigEvent
  dsimp only
  split
  · exact h
  · split
    · split
      · exact memoryOk_ringWrite _ _ _ _ h
      · exact h
    · split
      · exact h
      · exact memoryOk_makeRoom _ _ _ h

/-- A commit keeps the canonical form. -/
theorem memoryOk_commit (ws : List (Nat × Byte)) (depth : Nat) (f : From) (s : State) (h : MemoryOk s) : MemoryOk (commit ws depth f s).1 := by
  unfold commit
  split
  · exact h
  · dsimp only
    have hw : ∀ (l : List (Att × Nat)) (w : Nat) (x : State × List Refused), MemoryOk x.1 →
        MemoryOk (l.foldl (fun (x : State × List Refused) e =>
          ((trigEvent e.1 e.2 depth w x.1).1, x.2 ++ (trigEvent e.1 e.2 depth w x.1).2)) x).1 := by
      intro l w
      induction l with
      | nil => exact fun x hx => hx
      | cons e t ih => exact fun x hx => ih _ (memoryOk_trigEvent _ _ _ _ _ hx)
    refine hw _ _ _ (memoryOk_of_same (sameMemory_wakeWaiters _ _) (memoryOk_of_same (sameMemory_setLineRec _ _ _) ?_))
    exact ⟨wf_setBytes _ _ h.1, h.2⟩

theorem memoryOk_ctxError (c code : Nat) (detail : DWord) (s : State) (h : MemoryOk s) : MemoryOk (ctxError c code detail s) := by
  unfold ctxError
  split
  · exact h
  · refine memoryOk_of_same (sameMemory_notify _ _ _ _) (memoryOk_of_same (sameMemory_updCtx _ _ _) ?_)
    split
    · exact h
    · exact memoryOk_commit _ _ _ _ h

theorem memoryOk_reportRefused (c : Nat) (rf : List Refused) (s : State) (h : MemoryOk s) : MemoryOk (reportRefused c rf s) :=
  memoryOk_foldl _ (fun s _ hs => memoryOk_ctxError _ _ _ s hs) rf s h

theorem memoryOk_commitQuiet (c : Nat) (ws : List (Nat × Byte)) (depth : Nat) (f : From) (s : State) (h : MemoryOk s) :
    MemoryOk (commitQuiet c ws depth f s).1 :=
  memoryOk_reportRefused _ _ _ (memoryOk_commit _ _ _ _ h)

theorem memoryOk_commitLines (c : Nat) (ws : List (Nat × Byte)) (depth : Nat) (f : From) (s : State) (h : MemoryOk s) :
    MemoryOk (commitLines c ws depth f s).1 := by
  have hw : ∀ (l : List (List (Nat × Byte))) (x : State × Nat), MemoryOk x.1 →
      MemoryOk (l.foldl (fun (x : State × Nat) w => ((commitQuiet c w depth f x.1).1, max x.2 (commitQuiet c w depth f x.1).2)) x).1 := by
    intro l
    induction l with
    | nil => exact fun x hx => hx
    | cons e t ih => exact fun x hx => ih _ (memoryOk_commitQuiet _ _ _ _ _ hx)
  exact hw _ _ h

end Sys2Proof.Laws
end

