-- ==== Sys2Proof/Laws/Ops.lean ====
section
/-! SUPPORT. What each shared operation does, said once in the words of the statements: how a meaning runs, how a thread or a stream
goes on, jumps, waits and leaves a result, and how a command or a mailbox request is taken up. -/

namespace Sys2Proof.Laws

open Sys2Proof Sys2Proof.Machine Sys2Proof.Rules

/-! ## Running a meaning -/

theorem run_thread {i : Ins} {f g : Opnds → State → State} {s : State} (ha : s.actor ≠ .stream) (h : checkFail i s = none) :
    run i f g s = .next (f (operands i s) s) := by
  unfold run
  split
  · next e => exact absurd e ha
  · simp [simtStep, h]

theorem run_thread_trap {i : Ins} {f g : Opnds → State → State} {s : State} {t : Trap} (ha : s.actor ≠ .stream) (h : checkFail i s = some t) :
    run i f g s = .next (raise t s) := by
  unfold run
  split
  · next e => exact absurd e ha
  · simp [simtStep, h]

theorem run_stream {i : Ins} {f g : Opnds → State → State} {s : State} (ha : s.actor = .stream) (h : streamOk i = true) :
    run i f g s = .next (g (operandsC i s) s) := by
  unfold run
  rw [ha]
  simp [streamStep, h]

theorem run_stream_stop {i : Ins} {f g : Opnds → State → State} {s : State} (ha : s.actor = .stream) (h : streamOk i = false) :
    run i f g s = .next (stopStream 2 s) := by
  unfold run
  rw [ha]
  simp [streamStep, h, stopIllegal]

/-! ## Going on -/

theorem destRegs_eq (o : Opnds) (ws : List Word) : destRegs o ws = targets o ws := by
  unfold destRegs targets
  cases o.pd with
  | none => rfl
  | some p => simp [List.mapIdx_eq_zipIdx_map]

theorem capture_eq (i : Ins) (s : State) : capture i s = { s with
    nextId := s.nextId + (captures i s s.nextId).length, th := { s.th with pend := s.th.pend ++ captures i s s.nextId } } := by
  unfold capture captures capturesNow
  split
  · rfl
  · simp

theorem goto_eq (i : Ins) (pc : PC) (s : State) : goto i pc s = onlyGoes i pc s := by
  unfold goto
  rw [capture_eq]
  rfl

theorem finish_eq (i : Ins) (s : State) : finish i s = steps i s := by
  unfold finish
  rw [goto_eq]
  rfl

theorem hold_eq (i : Ins) (pk : Park) (s : State) : hold i pk s = waitsIn i pk s := by
  unfold hold captureHeld waitsIn waitsAt captures capturesNow
  split <;> rfl

theorem goOrAcquire_eq (i : Ins) (ord : MemOrd) (tag : Nat) (s : State) : goOrAcquire i ord.acq tag s = goesOrWaits ord i tag s := by
  unfold goOrAcquire captureAs goesOrWaits captures capturesNow
  by_cases h : ord.acq = true <;> split <;> simp [h, stay, leaveTo, State.updTh, nextPc, Ins.s]

theorem result_eq (i : Ins) (o : Opnds) (ws : List Word) (lo hi : Nat) (s : State) :
    result i o ws lo hi s
      = goesOn i (resultOf o ws lo hi s :: captures i s (s.nextId + 1)) (s.th.pc + if i.p.isSome then 8 else 4) s := by
  unfold result finish goto
  rw [capture_eq, destRegs_eq]
  simp [goesOn, leaveTo, addResult, State.fresh, State.updTh, captures, resultOf, nextPc, Ins.s, Nat.add_assoc, Nat.add_comm]

/-! ## Values for the PC (R12, R24, R56) -/

theorem low2_ne_zero (v : DWord) : v.extractLsb' 0 2 ≠ 0 ↔ v.toNat % 4 ≠ 0 := by
  rw [ne_eq, ← BitVec.toNat_inj]
  simp

theorem low3_ne_zero (v : DWord) : v.extractLsb' 0 3 ≠ 0 ↔ v.toNat % 8 ≠ 0 := by
  rw [ne_eq, ← BitVec.toNat_inj]
  simp

/-- A word offset, sign-extended and times 4, is added to the address of the instruction. -/
theorem branchTarget_eq {n : Nat} (pc : PC) (off : BitVec n) : branchTarget pc (off.signExtend 64) = branchTo pc off.toInt := by
  have h : BitVec.signExtend 64 off = BitVec.ofInt 64 off.toInt := by rw [BitVec.signExtend]
  unfold branchTarget branchTo
  apply BitVec.eq_of_toInt_eq
  rw [h, BitVec.toInt_add, BitVec.toInt_mul, BitVec.toInt_ofInt, BitVec.toInt_ofInt]
  simp only [show (4 : DWord).toInt = 4 from rfl, Int.add_bmod_bmod, Int.bmod_mul_bmod]
  congr 1
  omega

theorem jumpTo_eq (i : Ins) (v : DWord) (s : State) : jumpTo i v s = arrives i v s := by
  unfold jumpTo pcFail arrives
  rw [← goto_eq]
  by_cases h : canonical v <;>
    simp only [h, Bool.not_true, Bool.not_false, Bool.false_eq_true, ↓reduceIte, low2_ne_zero]
  by_cases h2 : v.toNat % 4 ≠ 0 <;> simp [h2]

theorem jumpToS_eq (i : Ins) (v : DWord) (s : State) : jumpToS i v s = arrivesS i v s := by
  unfold jumpToS pcStop arrivesS
  by_cases h : canonical v <;>
    simp only [h, Bool.not_true, Bool.not_false, Bool.false_eq_true, ↓reduceIte, low2_ne_zero]
  by_cases h2 : v.toNat % 4 ≠ 0 <;> simp [h2]
  all_goals rfl

/-! ## Commands and mailbox requests (R396, R403) -/

theorem hostTakes_iff {s : State} : hostTakes s = true ↔ Accepts s := by simp [hostTakes, Accepts]

theorem command_eq {k : Nat} {s : State} (h : Commanded k s) (body : State → State) :
    command k body s = recordKept s (body (takenUp s)) := by
  obtain ⟨⟨h1, h2⟩, ⟨h3, h4⟩, h5, h6⟩ := h
  by_cases hh : s.cp.cmd = .held
  · let u : State := { s with win := { s.win with cmdrec := s.cp.cmdrec } }
    have e : takenUp s = { u with cp := { u.cp with cmd := .none } } := by simp [takenUp, hh, u]
    have hk : cmdCode u = k := by rw [← h5, e]; rfl
    have hb : cmdBad u = false := by rw [← h6, e]; rfl
    have hg : (u.win.state ≠ .ready || (decide (u.cp.cmd ≠ .held) && (u.win.cmdRes == 1 || !hostTakes u)) || !(cmdCode u == k && !cmdBad u)) = false := by
      rw [hk, hb]; simp [u, h1, hh]
    have ho : (isFrozen u masterCp || hostOpen u) = false := by
      rw [show isFrozen u masterCp = false from h3, show hostOpen u = false from h4]; rfl
    have hl : command k body s = (if s.cp.cmd = .held then _ else _) := rfl
    rw [hl, recordKept, if_pos hh, if_pos hh, e]
    show (let t := (if _ then u else if _ then _ else body { u with cp := { u.cp with cmd := .none } }); ({ t with win := { t.win with cmdrec := s.win.cmdrec } } : State)) = _
    rw [hg, ho]
    rfl
  · have e : takenUp s = { s with cp := { s.cp with cmd := .none } } := by simp [takenUp, hh]
    have hk : cmdCode s = k := by rw [← h5, e]; rfl
    have hb : cmdBad s = false := by rw [← h6, e]; rfl
    have hr : s.win.cmdRes ≠ 1 := fun x => hh (h2 (.inl x))
    have ht : hostTakes s = true := by
      by_contra e
      exact hh (h2 (.inr (fun a => e (hostTakes_iff.2 a))))
    have hg : (s.win.state ≠ .ready || (decide (s.cp.cmd ≠ .held) && (s.win.cmdRes == 1 || !hostTakes s)) || !(cmdCode s == k && !cmdBad s)) = false := by
      rw [hk, hb]; simp [h1, hr, ht]
    have hl : command k body s = (if s.cp.cmd = .held then _ else _) := rfl
    rw [hl, recordKept, if_neg hh, if_neg hh, e]
    show (if _ then s else if _ then _ else body { s with cp := { s.cp with cmd := .none } }) = _
    rw [hg, h3, h4]
    rfl

theorem mbServe_eq {req : BitVec 64} {op len : Nat} {states : List BringUp} {s : State} (h : Requested req op states len s)
    {mine : State → Bool} (hm : mine s = true) {lenOk : Nat → Bool} (hl : lenOk len = true) {st2 : List BringUp}
    (hs : ∀ x ∈ states, x ∈ st2) (body : Nat → State → State) :
    mbServe op mine st2 lenOk body req s = body (reqSeq req) (heard req s) := by
  obtain ⟨h1, h2, h3, h4, h5⟩ := h
  have h6 : s.win.state ∈ st2 := hs _ h3
  simp [mbServe, h1, h2, hm, h4, hl, h5, h6, heard]

/-- Interrupt messages leave in the order of their sources (R398). -/
theorem sendIrqs_eq (l : List Nat) (s : State) : l.foldl (fun s k => sendIrq k s) s = { s with out := s.out ++ l.map (irqMessage s) } := by
  induction l generalizing s with
  | nil => simp
  | cons k t ih =>
    rw [List.foldl_cons, ih]
    simp [sendIrq, irqMessage]

theorem find_any {α : Type} {p : α → Bool} {l : List α} {x : α} (h : l.find? p = some x) : l.any p = true :=
  List.any_eq_true.2 ⟨x, List.mem_of_find?_eq_some h, List.find?_some h⟩

/-! ## Ends of waits, collectives and barriers -/

/-- A wait that ends with words: they are outstanding, and the thread goes on (R26, R28). -/
theorem resumeWith_eq (r : List (Nat × Word)) (lat : Nat) (s : State) : (giveResult r lat s).updTh Thread.resume = overWith r lat s := by
  simp [giveResult, addResult, State.fresh, State.updTh, Thread.resume, overWith]

/-- A stream's wait that ends with a value (R278). -/
theorem resumeWithS_eq (d : Nat) (v : DWord) (lat : Nat) (s : State) : resumeWithS d v lat s = overWithS d v lat s := by
  simp [resumeWithS, addResultS, State.fresh, SeqCtx.resume, overWithS]

theorem mapIdx_targets (dst : Option Nat) (ws : List Word) : (match dst with
    | some p => ws.mapIdx (fun i v => (p + i, v))
    | none => []) = targets { pd := dst } ws := by
  unfold targets
  cases dst <;> simp [List.mapIdx_eq_zipIdx_map]

theorem foldl_congr {α β : Type} (l : List α) (f g : β → α → β) (s : β) (h : ∀ a ∈ l, ∀ s, f s a = g s a) : l.foldl f s = l.foldl g s := by
  induction l generalizing s with
  | nil => rfl
  | cons a t ih => simp [h a (by simp), ih _ (fun b hb => h b (by simp [hb]))]

/-- Among arrivals of distinct lanes, an arrival finds the result of its own lane. -/
theorem find_lane {got : List CollArrival} {F : CollArrival → List Word} (h : (got.map (·.lane)).Nodup) {g : CollArrival} (hg : g ∈ got) :
    (got.map (fun g => (g.lane, F g))).find? (·.1 == g.lane) = some (g.lane, F g) := by
  induction got with
  | nil => cases hg
  | cons a t ih =>
    simp at h
    simp only [List.map_cons, List.find?_cons]
    rcases List.mem_cons.1 hg with rfl | hg
    · simp
    · have n : (a.lane == g.lane) = false := by simpa using fun e => h.1 g hg e.symm
      simp only [n]
      exact ih (by simpa using h.2) hg

/-- A collective with a result gives each member its word of the group (R129). -/
theorem completeColl_eq {c : Coll} {s : State} (h : (c.got.map (·.lane)).Nodup) (h3 : c.f ≠ 13) (h4 : c.f ≠ 14) :
    completeColl c s = membersEnd c (fun g => overWith (targets { pd := g.dst } [collWord c.f c.got g]) 8) s := by
  unfold completeColl collEnd membersEnd
  rw [if_neg h4, if_neg h3]
  simp only [h3, if_false]
  refine foldl_congr _ _ _ _ fun g hg s => ?_
  congr 1
  funext s
  rw [find_lane h hg, ← resumeWith_eq, ← mapIdx_targets]
  rfl

/-- `wsync` has no result: its members go on (R129, R142). -/
theorem completeColl_wsync {c : Coll} {s : State} (h : (c.got.map (·.lane)).Nodup) (h4 : c.f = 14) :
    completeColl c s = membersEnd c (fun _ => goesAgain) s := by
  unfold completeColl collEnd membersEnd
  rw [if_pos h4]
  refine foldl_congr _ _ _ _ fun g hg s => ?_
  congr 1
  funext s
  rw [find_lane h hg]
  rfl

/-! ## Descriptors and tables -/

theorem dfield_extract (d : BitVec 512) (k : Nat) : (BitVec.extractLsb' k 64 d).toNat = field d k 64 := by
  simp [field, BitVec.extractLsb'_toNat, Nat.shiftRight_eq_div_pow]

/-- What a watch descriptor must be (R252). -/
theorem watchDescOk_iff (d : BitVec 512) : watchDescOk d = true ↔ WatchRecord d := by
  unfold watchDescOk WatchRecord
  have e2 : ∀ k, BitVec.ofNat 64 (field d k 64) = BitVec.extractLsb' k 64 d := by
    intro k; apply BitVec.eq_of_toNat_eq; simp [dfield_extract]; unfold field; omega
  have lt : ∀ k, field d k 64 < 2^64 := by intro k; unfold field; omega
  have z : ∀ k, (BitVec.extractLsb' k 64 d) = 0 ↔ field d k 64 = 0 := by
    intro k; rw [← BitVec.toNat_inj, dfield_extract]; simp
  simp only [dfield_extract, e2, Bool.and_eq_true, beq_iff_eq, bne_iff_ne, decide_eq_true_eq, Bool.or_eq_true, ne_eq, z, and_assoc]
  have e3 : BitVec.extractLsb' 64 64 d ≠ 0 →
      BitVec.extractLsb' 0 64 d + BitVec.extractLsb' 64 64 d - 1 = BitVec.ofNat 64 (field d 0 64 + field d 64 64 - 1) := by
    intro h
    have := (z 64).not.1 h
    apply BitVec.eq_of_toNat_eq
    have h0 := lt 0; have h1 := lt 64
    rw [BitVec.toNat_sub, BitVec.toNat_add, dfield_extract, dfield_extract, BitVec.toNat_ofNat, show (1 : BitVec 64).toNat = 1 from rfl]
    omega
  constructor
  · rintro ⟨h1, h2, h3, h4, h5, h6, h7, h8, h9, h10, h11, h12, h13, h14⟩
    have h5' := (z 64).not.2 h5
    exact ⟨h1, h2, by omega, h4, h5, h6, h7, by rw [← e3 h5']; exact h8, by omega, h10, h11, h12, h13, h14⟩
  · rintro ⟨h1, h2, h3, h4, h5, h6, h7, h8, h9, h10, h11, h12, h13, h14⟩
    have h5' := (z 64).not.2 h5
    exact ⟨h1, h2, by omega, h4, h5, h6, h7, by rw [e3 h5']; exact h8, by omega, h10, h11, h12, h13, h14⟩

theorem tlbAdd_eq (size : Nat) (l : List TlbEnt) (t : TlbEnt) : tlbAdd size l t = tlbWith size l t := by
  unfold tlbAdd tlbWith
  congr 2
  apply List.filter_congr
  intro x _
  rw [Bool.eq_iff_iff]
  simp [or_assoc]

theorem pow2In_iff (x lo hi : Nat) : pow2In x lo hi = true ↔ lo ≤ x ∧ x ≤ hi ∧ ∃ k < 64, x = 2 ^ k := by
  simp [pow2In, and_assoc]

theorem bitsAt_eq (d lo n : Nat) : bitsAt d lo n = dfield d lo n := rfl

theorem queueDescOk_iff (d : Nat) : queueDescOk d = true ↔ QueueRecord d := by
  unfold queueDescOk QueueRecord
  simp only [Bool.and_eq_true, beq_iff_eq, decide_eq_true_eq, canonNat, bitsAt_eq, and_assoc]

/-! ## Requests to the module -/

/-- A save or restore finds its first ungranted line only if one is ungranted (R358, R369). -/
theorem lineReqs_granted (s : State) (c : Nat) (rs : List (Nat × Nat)) (h : ∀ r ∈ rs, LinesGranted s c r.1 r.2) :
    (lineReqs rs).find? (fun a => !granted s masterSpill c a 1) = none := by
  simp only [List.find?_eq_none, lineReqs, List.mem_flatMap, List.mem_map, List.mem_range]
  rintro x ⟨r, hr, k, hk, rfl⟩
  simp [h r hr k hk]

/-- When a mailbox request waits, is answered 3 and is answered 2 (R399). -/
theorem mailbox_answers {i : Instr} {req : BitVec 64} {op : Nat} {states : List BringUp} {lens : Nat → Prop} {s : State}
    (h : mailboxRule s i = some (req, op, states, lens)) (ho : reqOp req = op) :
    (s.root.serving ≠ none → exec i s = .next s)
    ∧ (s.root.serving = none → s.win.state ∉ states → exec i s = .next (mbReply (reqSeq req) 3 [] (heard req s)))
    ∧ (s.root.serving = none → s.win.state ∈ states → ¬ lens (reqLen req) ∨ reqClean req = false →
        exec i s = .next (mbReply (reqSeq req) 2 [] (heard req s))) := by
  cases i <;> simp only [mailboxRule, reduceCtorEq] at h <;> (try (split at h)) <;>
    simp only [Option.some.injEq, Prod.mk.injEq, reduceCtorEq] at h
  all_goals
    obtain ⟨rfl, rfl, rfl, rfl⟩ := h
    refine ⟨fun h => ?_, fun h h2 => ?_, fun h h2 h3 => ?_⟩
    all_goals
      simp only [exec, execAttest, execCert, execTimeSet, execDomainSet, execGrantRange, execRevokeRange, execSetExportWindow,
        execUnfreezeResume, execUnfreezeReset, execFwLoad, mbServe, any_]
      simp_all [Option.isSome_iff_ne_none, heard, mbState, mbBadArg] <;> grind

end Sys2Proof.Laws
end

