-- ==== Sys2Proof/Laws/PerInstr.lean ====
section
/-! SUPPORT. Statements made for each instruction: `RoundTrip`, that decoding the encoding of a legal instruction gives the instruction
back. -/

set_option Elab.async false

namespace Sys2Proof.Laws.RoundTrip

open Sys2Proof

/-- Decoding gives a legal instruction back from its words (R8, R55, R60). -/
def Statement (i : Instr) : Prop := i.wf = true → decode (encode i) = some i

theorem add (sw : Bool) (d : BitVec 7) (a : BitVec 7) (b : BitVec 7) (p : Option (BitVec 25)) : Statement (.add sw d a b p) := fun _ =>
  roundTrip_payload (w := packA sw 1 d a b 0) (p := p) rfl (by simp) (by simp) ((decodeWord_01 _ _ _ _ _ p).trans (rfl))

theorem sub (sw : Bool) (d : BitVec 7) (a : BitVec 7) (b : BitVec 7) (p : Option (BitVec 25)) : Statement (.sub sw d a b p) := fun _ =>
  roundTrip_payload (w := packA sw 1 d a b 1) (p := p) rfl (by simp) (by simp) ((decodeWord_01 _ _ _ _ _ p).trans (rfl))

theorem and (sw : Bool) (d : BitVec 7) (a : BitVec 7) (b : BitVec 7) (p : Option (BitVec 25)) : Statement (.and sw d a b p) := fun _ =>
  roundTrip_payload (w := packA sw 1 d a b 2) (p := p) rfl (by simp) (by simp) ((decodeWord_01 _ _ _ _ _ p).trans (rfl))

theorem or (sw : Bool) (d : BitVec 7) (a : BitVec 7) (b : BitVec 7) (p : Option (BitVec 25)) : Statement (.or sw d a b p) := fun _ =>
  roundTrip_payload (w := packA sw 1 d a b 3) (p := p) rfl (by simp) (by simp) ((decodeWord_01 _ _ _ _ _ p).trans (rfl))

theorem xor (sw : Bool) (d : BitVec 7) (a : BitVec 7) (b : BitVec 7) (p : Option (BitVec 25)) : Statement (.xor sw d a b p) := fun _ =>
  roundTrip_payload (w := packA sw 1 d a b 4) (p := p) rfl (by simp) (by simp) ((decodeWord_01 _ _ _ _ _ p).trans (rfl))

theorem andn (sw : Bool) (d : BitVec 7) (a : BitVec 7) (b : BitVec 7) (p : Option (BitVec 25)) : Statement (.andn sw d a b p) := fun _ =>
  roundTrip_payload (w := packA sw 1 d a b 5) (p := p) rfl (by simp) (by simp) ((decodeWord_01 _ _ _ _ _ p).trans (rfl))

theorem shl (sw : Bool) (d : BitVec 7) (a : BitVec 7) (b : BitVec 7) (p : Option (BitVec 25)) : Statement (.shl sw d a b p) := fun _ =>
  roundTrip_payload (w := packA sw 1 d a b 6) (p := p) rfl (by simp) (by simp) ((decodeWord_01 _ _ _ _ _ p).trans (rfl))

theorem shr (sw : Bool) (d : BitVec 7) (a : BitVec 7) (b : BitVec 7) (p : Option (BitVec 25)) : Statement (.shr sw d a b p) := fun _ =>
  roundTrip_payload (w := packA sw 1 d a b 7) (p := p) rfl (by simp) (by simp) ((decodeWord_01 _ _ _ _ _ p).trans (rfl))

theorem sar (sw : Bool) (d : BitVec 7) (a : BitVec 7) (b : BitVec 7) (p : Option (BitVec 25)) : Statement (.sar sw d a b p) := fun _ =>
  roundTrip_payload (w := packA sw 1 d a b 8) (p := p) rfl (by simp) (by simp) ((decodeWord_01 _ _ _ _ _ p).trans (rfl))

theorem rot (sw : Bool) (d : BitVec 7) (a : BitVec 7) (b : BitVec 7) (p : Option (BitVec 25)) : Statement (.rot sw d a b p) := fun _ =>
  roundTrip_payload (w := packA sw 1 d a b 9) (p := p) rfl (by simp) (by simp) ((decodeWord_01 _ _ _ _ _ p).trans (rfl))

theorem min (sw : Bool) (d : BitVec 7) (a : BitVec 7) (b : BitVec 7) (p : Option (BitVec 25)) : Statement (.min sw d a b p) := fun _ =>
  roundTrip_payload (w := packA sw 1 d a b 10) (p := p) rfl (by simp) (by simp) ((decodeWord_01 _ _ _ _ _ p).trans (rfl))

theorem max (sw : Bool) (d : BitVec 7) (a : BitVec 7) (b : BitVec 7) (p : Option (BitVec 25)) : Statement (.max sw d a b p) := fun _ =>
  roundTrip_payload (w := packA sw 1 d a b 11) (p := p) rfl (by simp) (by simp) ((decodeWord_01 _ _ _ _ _ p).trans (rfl))

theorem minn (sw : Bool) (d : BitVec 7) (a : BitVec 7) (b : BitVec 7) (p : Option (BitVec 25)) : Statement (.minn sw d a b p) := fun _ =>
  roundTrip_payload (w := packA sw 1 d a b 12) (p := p) rfl (by simp) (by simp) ((decodeWord_01 _ _ _ _ _ p).trans (rfl))

theorem maxn (sw : Bool) (d : BitVec 7) (a : BitVec 7) (b : BitVec 7) (p : Option (BitVec 25)) : Statement (.maxn sw d a b p) := fun _ =>
  roundTrip_payload (w := packA sw 1 d a b 13) (p := p) rfl (by simp) (by simp) ((decodeWord_01 _ _ _ _ _ p).trans (rfl))

theorem mul (sw : Bool) (d : BitVec 7) (a : BitVec 7) (b : BitVec 7) (p : Option (BitVec 25)) : Statement (.mul sw d a b p) := fun _ =>
  roundTrip_payload (w := packA sw 1 d a b 14) (p := p) rfl (by simp) (by simp) ((decodeWord_01 _ _ _ _ _ p).trans (rfl))

theorem mulh (sw : Bool) (d : BitVec 7) (a : BitVec 7) (b : BitVec 7) (p : Option (BitVec 25)) : Statement (.mulh sw d a b p) := fun _ =>
  roundTrip_payload (w := packA sw 1 d a b 15) (p := p) rfl (by simp) (by simp) ((decodeWord_01 _ _ _ _ _ p).trans (rfl))

theorem mulhn (sw : Bool) (d : BitVec 7) (a : BitVec 7) (b : BitVec 7) (p : Option (BitVec 25)) : Statement (.mulhn sw d a b p) := fun _ =>
  roundTrip_payload (w := packA sw 2 d a b 0) (p := p) rfl (by simp) (by simp) ((decodeWord_02 _ _ _ _ _ p).trans (rfl))

theorem div (sw : Bool) (d : BitVec 7) (a : BitVec 7) (b : BitVec 7) (p : Option (BitVec 25)) : Statement (.div sw d a b p) := fun _ =>
  roundTrip_payload (w := packA sw 2 d a b 1) (p := p) rfl (by simp) (by simp) ((decodeWord_02 _ _ _ _ _ p).trans (rfl))

theorem divn (sw : Bool) (d : BitVec 7) (a : BitVec 7) (b : BitVec 7) (p : Option (BitVec 25)) : Statement (.divn sw d a b p) := fun _ =>
  roundTrip_payload (w := packA sw 2 d a b 2) (p := p) rfl (by simp) (by simp) ((decodeWord_02 _ _ _ _ _ p).trans (rfl))

theorem rem (sw : Bool) (d : BitVec 7) (a : BitVec 7) (b : BitVec 7) (p : Option (BitVec 25)) : Statement (.rem sw d a b p) := fun _ =>
  roundTrip_payload (w := packA sw 2 d a b 3) (p := p) rfl (by simp) (by simp) ((decodeWord_02 _ _ _ _ _ p).trans (rfl))

theorem remn (sw : Bool) (d : BitVec 7) (a : BitVec 7) (b : BitVec 7) (p : Option (BitVec 25)) : Statement (.remn sw d a b p) := fun _ =>
  roundTrip_payload (w := packA sw 2 d a b 4) (p := p) rfl (by simp) (by simp) ((decodeWord_02 _ _ _ _ _ p).trans (rfl))

theorem clz (sw : Bool) (d : BitVec 7) (a : BitVec 7) (p : Option (BitVec 25)) : Statement (.clz sw d a p) := fun _ =>
  roundTrip_payload (w := packA sw 2 d a 0#7 5) (p := p) rfl (by simp) (by simp) ((decodeWord_02 _ _ _ _ _ p).trans (rfl))

theorem popc (sw : Bool) (d : BitVec 7) (a : BitVec 7) (p : Option (BitVec 25)) : Statement (.popc sw d a p) := fun _ =>
  roundTrip_payload (w := packA sw 2 d a 0#7 6) (p := p) rfl (by simp) (by simp) ((decodeWord_02 _ _ _ _ _ p).trans (rfl))

theorem brev (sw : Bool) (d : BitVec 7) (a : BitVec 7) (p : Option (BitVec 25)) : Statement (.brev sw d a p) := fun _ =>
  roundTrip_payload (w := packA sw 2 d a 0#7 7) (p := p) rfl (by simp) (by simp) ((decodeWord_02 _ _ _ _ _ p).trans (rfl))

theorem abs (sw : Bool) (d : BitVec 7) (a : BitVec 7) (p : Option (BitVec 25)) : Statement (.abs sw d a p) := fun _ =>
  roundTrip_payload (w := packA sw 2 d a 0#7 8) (p := p) rfl (by simp) (by simp) ((decodeWord_02 _ _ _ _ _ p).trans (rfl))

theorem neg (sw : Bool) (d : BitVec 7) (a : BitVec 7) (p : Option (BitVec 25)) : Statement (.neg sw d a p) := fun _ =>
  roundTrip_payload (w := packA sw 2 d a 0#7 9) (p := p) rfl (by simp) (by simp) ((decodeWord_02 _ _ _ _ _ p).trans (rfl))

theorem sel (sw : Bool) (d : BitVec 7) (a : BitVec 7) (b : BitVec 7) (p : Option (BitVec 25)) : Statement (.sel sw d a b p) := fun _ =>
  roundTrip_payload (w := packA sw 2 d a b 10) (p := p) rfl (by simp) (by simp) ((decodeWord_02 _ _ _ _ _ p).trans (rfl))

theorem mla (sw : Bool) (d : BitVec 7) (a : BitVec 7) (b : BitVec 7) (p : Option (BitVec 25)) : Statement (.mla sw d a b p) := fun _ =>
  roundTrip_payload (w := packA sw 2 d a b 11) (p := p) rfl (by simp) (by simp) ((decodeWord_02 _ _ _ _ _ p).trans (rfl))

theorem adds (sw : Bool) (d : BitVec 7) (a : BitVec 7) (b : BitVec 7) (p : Option (BitVec 25)) : Statement (.adds sw d a b p) := fun _ =>
  roundTrip_payload (w := packA sw 2 d a b 12) (p := p) rfl (by simp) (by simp) ((decodeWord_02 _ _ _ _ _ p).trans (rfl))

theorem subs (sw : Bool) (d : BitVec 7) (a : BitVec 7) (b : BitVec 7) (p : Option (BitVec 25)) : Statement (.subs sw d a b p) := fun _ =>
  roundTrip_payload (w := packA sw 2 d a b 13) (p := p) rfl (by simp) (by simp) ((decodeWord_02 _ _ _ _ _ p).trans (rfl))

theorem addsn (sw : Bool) (d : BitVec 7) (a : BitVec 7) (b : BitVec 7) (p : Option (BitVec 25)) : Statement (.addsn sw d a b p) := fun _ =>
  roundTrip_payload (w := packA sw 2 d a b 14) (p := p) rfl (by simp) (by simp) ((decodeWord_02 _ _ _ _ _ p).trans (rfl))

theorem subsn (sw : Bool) (d : BitVec 7) (a : BitVec 7) (b : BitVec 7) (p : Option (BitVec 25)) : Statement (.subsn sw d a b p) := fun _ =>
  roundTrip_payload (w := packA sw 2 d a b 15) (p := p) rfl (by simp) (by simp) ((decodeWord_02 _ _ _ _ _ p).trans (rfl))

theorem eq (sw : Bool) (d : BitVec 7) (a : BitVec 7) (b : BitVec 7) (p : Option (BitVec 25)) : Statement (.eq sw d a b p) := fun _ =>
  roundTrip_payload (w := packA sw 3 d a b 0) (p := p) rfl (by simp) (by simp) ((decodeWord_03 _ _ _ _ _ p).trans (rfl))

theorem ne (sw : Bool) (d : BitVec 7) (a : BitVec 7) (b : BitVec 7) (p : Option (BitVec 25)) : Statement (.ne sw d a b p) := fun _ =>
  roundTrip_payload (w := packA sw 3 d a b 1) (p := p) rfl (by simp) (by simp) ((decodeWord_03 _ _ _ _ _ p).trans (rfl))

theorem lt (sw : Bool) (d : BitVec 7) (a : BitVec 7) (b : BitVec 7) (p : Option (BitVec 25)) : Statement (.lt sw d a b p) := fun _ =>
  roundTrip_payload (w := packA sw 3 d a b 2) (p := p) rfl (by simp) (by simp) ((decodeWord_03 _ _ _ _ _ p).trans (rfl))

theorem le (sw : Bool) (d : BitVec 7) (a : BitVec 7) (b : BitVec 7) (p : Option (BitVec 25)) : Statement (.le sw d a b p) := fun _ =>
  roundTrip_payload (w := packA sw 3 d a b 3) (p := p) rfl (by simp) (by simp) ((decodeWord_03 _ _ _ _ _ p).trans (rfl))

theorem ltn (sw : Bool) (d : BitVec 7) (a : BitVec 7) (b : BitVec 7) (p : Option (BitVec 25)) : Statement (.ltn sw d a b p) := fun _ =>
  roundTrip_payload (w := packA sw 3 d a b 4) (p := p) rfl (by simp) (by simp) ((decodeWord_03 _ _ _ _ _ p).trans (rfl))

theorem len (sw : Bool) (d : BitVec 7) (a : BitVec 7) (b : BitVec 7) (p : Option (BitVec 25)) : Statement (.len sw d a b p) := fun _ =>
  roundTrip_payload (w := packA sw 3 d a b 5) (p := p) rfl (by simp) (by simp) ((decodeWord_03 _ _ _ _ _ p).trans (rfl))

theorem add64 (sw : Bool) (d : BitVec 7) (a : BitVec 7) (b : BitVec 7) (p : Option (BitVec 25)) : Statement (.add64 sw d a b p) := fun _ =>
  roundTrip_payload (w := packA sw 4 d a b 0) (p := p) rfl (by simp) (by simp) ((decodeWord_04 _ _ _ _ _ p).trans (rfl))

theorem sub64 (sw : Bool) (d : BitVec 7) (a : BitVec 7) (b : BitVec 7) (p : Option (BitVec 25)) : Statement (.sub64 sw d a b p) := fun _ =>
  roundTrip_payload (w := packA sw 4 d a b 1) (p := p) rfl (by simp) (by simp) ((decodeWord_04 _ _ _ _ _ p).trans (rfl))

theorem mul64 (sw : Bool) (d : BitVec 7) (a : BitVec 7) (b : BitVec 7) (p : Option (BitVec 25)) : Statement (.mul64 sw d a b p) := fun _ =>
  roundTrip_payload (w := packA sw 4 d a b 2) (p := p) rfl (by simp) (by simp) ((decodeWord_04 _ _ _ _ _ p).trans (rfl))

theorem shl64 (sw : Bool) (d : BitVec 7) (a : BitVec 7) (b : BitVec 7) (p : Option (BitVec 25)) : Statement (.shl64 sw d a b p) := fun _ =>
  roundTrip_payload (w := packA sw 4 d a b 3) (p := p) rfl (by simp) (by simp) ((decodeWord_04 _ _ _ _ _ p).trans (rfl))

theorem shr64 (sw : Bool) (d : BitVec 7) (a : BitVec 7) (b : BitVec 7) (p : Option (BitVec 25)) : Statement (.shr64 sw d a b p) := fun _ =>
  roundTrip_payload (w := packA sw 4 d a b 4) (p := p) rfl (by simp) (by simp) ((decodeWord_04 _ _ _ _ _ p).trans (rfl))

theorem sar64 (sw : Bool) (d : BitVec 7) (a : BitVec 7) (b : BitVec 7) (p : Option (BitVec 25)) : Statement (.sar64 sw d a b p) := fun _ =>
  roundTrip_payload (w := packA sw 4 d a b 5) (p := p) rfl (by simp) (by simp) ((decodeWord_04 _ _ _ _ _ p).trans (rfl))

theorem eq64 (sw : Bool) (d : BitVec 7) (a : BitVec 7) (b : BitVec 7) (p : Option (BitVec 25)) : Statement (.eq64 sw d a b p) := fun _ =>
  roundTrip_payload (w := packA sw 4 d a b 6) (p := p) rfl (by simp) (by simp) ((decodeWord_04 _ _ _ _ _ p).trans (rfl))

theorem lt64 (sw : Bool) (d : BitVec 7) (a : BitVec 7) (b : BitVec 7) (p : Option (BitVec 25)) : Statement (.lt64 sw d a b p) := fun _ =>
  roundTrip_payload (w := packA sw 4 d a b 7) (p := p) rfl (by simp) (by simp) ((decodeWord_04 _ _ _ _ _ p).trans (rfl))

theorem ltn64 (sw : Bool) (d : BitVec 7) (a : BitVec 7) (b : BitVec 7) (p : Option (BitVec 25)) : Statement (.ltn64 sw d a b p) := fun _ =>
  roundTrip_payload (w := packA sw 4 d a b 8) (p := p) rfl (by simp) (by simp) ((decodeWord_04 _ _ _ _ _ p).trans (rfl))

theorem mov64 (sw : Bool) (d : BitVec 7) (a : BitVec 7) (p : Option (BitVec 25)) : Statement (.mov64 sw d a p) := fun _ =>
  roundTrip_payload (w := packA sw 4 d a 0#7 9) (p := p) rfl (by simp) (by simp) ((decodeWord_04 _ _ _ _ _ p).trans (rfl))

theorem addx (sw : Bool) (d : BitVec 7) (a : BitVec 7) (b : BitVec 7) (p : Option (BitVec 25)) : Statement (.addx sw d a b p) := fun _ =>
  roundTrip_payload (w := packA sw 4 d a b 10) (p := p) rfl (by simp) (by simp) ((decodeWord_04 _ _ _ _ _ p).trans (rfl))

theorem addxn (sw : Bool) (d : BitVec 7) (a : BitVec 7) (b : BitVec 7) (p : Option (BitVec 25)) : Statement (.addxn sw d a b p) := fun _ =>
  roundTrip_payload (w := packA sw 4 d a b 11) (p := p) rfl (by simp) (by simp) ((decodeWord_04 _ _ _ _ _ p).trans (rfl))

theorem addi (sw : Bool) (d : BitVec 7) (a : BitVec 7) (i : BitVec 11) (p : Option (BitVec 25)) : Statement (.addi sw d a i p) := fun _ =>
  roundTrip_payload (w := packI sw 5 d a i) (p := p) rfl (by simp) (by simp) ((decodeWord_05 _ _ _ _ p).trans (rfl))

theorem andi (sw : Bool) (d : BitVec 7) (a : BitVec 7) (i : BitVec 11) (p : Option (BitVec 25)) : Statement (.andi sw d a i p) := fun _ =>
  roundTrip_payload (w := packI sw 6 d a i) (p := p) rfl (by simp) (by simp) ((decodeWord_06 _ _ _ _ p).trans (rfl))

theorem ori (sw : Bool) (d : BitVec 7) (a : BitVec 7) (i : BitVec 11) (p : Option (BitVec 25)) : Statement (.ori sw d a i p) := fun _ =>
  roundTrip_payload (w := packI sw 7 d a i) (p := p) rfl (by simp) (by simp) ((decodeWord_07 _ _ _ _ p).trans (rfl))

theorem xori (sw : Bool) (d : BitVec 7) (a : BitVec 7) (i : BitVec 11) (p : Option (BitVec 25)) : Statement (.xori sw d a i p) := fun _ =>
  roundTrip_payload (w := packI sw 8 d a i) (p := p) rfl (by simp) (by simp) ((decodeWord_08 _ _ _ _ p).trans (rfl))

theorem shli (sw : Bool) (d : BitVec 7) (a : BitVec 7) (n : BitVec 5) (p : Option (BitVec 25)) : Statement (.shli sw d a n p) := fun _ =>
  roundTrip_payload (w := packI sw 9 d a (0#6 ++ n)) (p := p) rfl (by simp) (by simp) ((decodeWord_09 _ _ _ _ p).trans (dec09_shli _ _ _ _ _))

theorem shri (sw : Bool) (d : BitVec 7) (a : BitVec 7) (n : BitVec 5) (p : Option (BitVec 25)) : Statement (.shri sw d a n p) := fun _ =>
  roundTrip_payload (w := packI sw 9 d a (16#6 ++ n)) (p := p) rfl (by simp) (by simp) ((decodeWord_09 _ _ _ _ p).trans (dec09_shri _ _ _ _ _))

theorem sari (sw : Bool) (d : BitVec 7) (a : BitVec 7) (n : BitVec 5) (p : Option (BitVec 25)) : Statement (.sari sw d a n p) := fun _ =>
  roundTrip_payload (w := packI sw 9 d a (32#6 ++ n)) (p := p) rfl (by simp) (by simp) ((decodeWord_09 _ _ _ _ p).trans (dec09_sari _ _ _ _ _))

theorem roti (sw : Bool) (d : BitVec 7) (a : BitVec 7) (n : BitVec 5) (p : Option (BitVec 25)) : Statement (.roti sw d a n p) := fun _ =>
  roundTrip_payload (w := packI sw 9 d a (48#6 ++ n)) (p := p) rfl (by simp) (by simp) ((decodeWord_09 _ _ _ _ p).trans (dec09_roti _ _ _ _ _))

theorem slti (sw : Bool) (d : BitVec 7) (a : BitVec 7) (i : BitVec 11) (p : Option (BitVec 25)) : Statement (.slti sw d a i p) := fun _ =>
  roundTrip_payload (w := packI sw 10 d a i) (p := p) rfl (by simp) (by simp) ((decodeWord_0A _ _ _ _ p).trans (rfl))

theorem sltni (sw : Bool) (d : BitVec 7) (a : BitVec 7) (i : BitVec 11) (p : Option (BitVec 25)) : Statement (.sltni sw d a i p) := fun _ =>
  roundTrip_payload (w := packI sw 11 d a i) (p := p) rfl (by simp) (by simp) ((decodeWord_0B _ _ _ _ p).trans (rfl))

theorem addxi (sw : Bool) (d : BitVec 7) (a : BitVec 7) (i : BitVec 11) (p : Option (BitVec 25)) : Statement (.addxi sw d a i p) := fun _ =>
  roundTrip_payload (w := packI sw 12 d a i) (p := p) rfl (by simp) (by simp) ((decodeWord_0C _ _ _ _ p).trans (rfl))

theorem movh (sw : Bool) (d : BitVec 7) (n : BitVec 18) (p : Option (BitVec 25)) : Statement (.movh sw d n p) := fun _ =>
  roundTrip_payload (w := packH sw 13 d n) (p := p) rfl (by simp) (by simp) ((decodeWord_0D _ _ _ p).trans (rfl))

theorem movl (sw : Bool) (d : BitVec 7) (n : BitVec 14) (p : Option (BitVec 25)) : Statement (.movl sw d n p) := fun _ =>
  roundTrip_payload (w := packH sw 14 d (0#4 ++ n)) (p := p) rfl (by simp) (by simp) ((decodeWord_0E _ _ _ p).trans (by simp [dec0E]))

theorem bz (sw : Bool) (a : BitVec 7) (o : BitVec 16) : Statement (.bz sw a o) := fun _ =>
  roundTrip_plain (w := packB sw 16 a 0 o) rfl (by simp) (by simp) ((decodeWord_10 _ _ _ _).trans (rfl))

theorem bnz (sw : Bool) (a : BitVec 7) (o : BitVec 16) : Statement (.bnz sw a o) := fun _ =>
  roundTrip_plain (w := packB sw 16 a 1 o) rfl (by simp) (by simp) ((decodeWord_10 _ _ _ _).trans (rfl))

theorem bltz (sw : Bool) (a : BitVec 7) (o : BitVec 16) : Statement (.bltz sw a o) := fun _ =>
  roundTrip_plain (w := packB sw 16 a 2 o) rfl (by simp) (by simp) ((decodeWord_10 _ _ _ _).trans (rfl))

theorem bgez (sw : Bool) (a : BitVec 7) (o : BitVec 16) : Statement (.bgez sw a o) := fun _ =>
  roundTrip_plain (w := packB sw 16 a 3 o) rfl (by simp) (by simp) ((decodeWord_10 _ _ _ _).trans (rfl))

theorem jmp (sw : Bool) (o : BitVec 25) : Statement (.jmp sw o) := fun _ =>
  roundTrip_plain (w := packJ sw 17 o) rfl (by simp) (by simp) ((decodeWord_11 _ _).trans (rfl))

theorem call (sw : Bool) (o : BitVec 25) : Statement (.call sw o) := fun _ =>
  roundTrip_plain (w := packJ sw 18 o) rfl (by simp) (by simp) ((decodeWord_12 _ _).trans (rfl))

theorem jr (sw : Bool) (a : BitVec 7) : Statement (.jr sw a) := fun _ =>
  roundTrip_plain (w := packA sw 19 0#7 a 0#7 0) rfl (by simp) (by simp) ((decodeWord_13 _ _ _ _ _).trans (rfl))

theorem callr (sw : Bool) (a : BitVec 7) : Statement (.callr sw a) := fun _ =>
  roundTrip_plain (w := packA sw 19 0#7 a 0#7 1) rfl (by simp) (by simp) ((decodeWord_13 _ _ _ _ _).trans (rfl))

theorem ret (sw : Bool) : Statement (.ret sw) := fun _ =>
  roundTrip_plain (w := packA sw 19 0#7 0#7 0#7 2) rfl (by simp) (by simp) ((decodeWord_13 _ _ _ _ _).trans (rfl))

theorem exit (sw : Bool) : Statement (.exit sw) := fun _ =>
  roundTrip_plain (w := packA sw 19 0#7 0#7 0#7 3) rfl (by simp) (by simp) ((decodeWord_13 _ _ _ _ _).trans (rfl))

theorem nop (sw : Bool) : Statement (.nop sw) := fun _ =>
  roundTrip_plain (w := packA sw 19 0#7 0#7 0#7 4) rfl (by simp) (by simp) ((decodeWord_13 _ _ _ _ _).trans (rfl))

theorem yield (sw : Bool) : Statement (.yield sw) := fun _ =>
  roundTrip_plain (w := packA sw 19 0#7 0#7 0#7 5) rfl (by simp) (by simp) ((decodeWord_13 _ _ _ _ _).trans (rfl))

theorem trap (sw : Bool) (n : BitVec 7) : Statement (.trap sw n) := fun _ =>
  roundTrip_plain (w := packA sw 19 0#7 0#7 n 6) rfl (by simp) (by simp) ((decodeWord_13 _ _ _ _ _).trans (rfl))

theorem brk (sw : Bool) (n : BitVec 7) : Statement (.brk sw n) := fun _ =>
  roundTrip_plain (w := packA sw 19 0#7 0#7 n 7) rfl (by simp) (by simp) ((decodeWord_13 _ _ _ _ _).trans (rfl))

theorem rett (sw : Bool) : Statement (.rett sw) := fun _ =>
  roundTrip_plain (w := packA sw 19 0#7 0#7 0#7 8) rfl (by simp) (by simp) ((decodeWord_13 _ _ _ _ _).trans (rfl))

theorem brxZ (sw : Bool) (a : BitVec 7) (o : BitVec 16) : Statement (.brxZ sw a o) := fun _ =>
  roundTrip_plain (w := packB sw 20 a 0 o) rfl (by simp) (by simp) ((decodeWord_14 _ _ _ _).trans (rfl))

theorem brxNz (sw : Bool) (a : BitVec 7) (o : BitVec 16) : Statement (.brxNz sw a o) := fun _ =>
  roundTrip_plain (w := packB sw 20 a 1 o) rfl (by simp) (by simp) ((decodeWord_14 _ _ _ _).trans (rfl))

theorem brxLtz (sw : Bool) (a : BitVec 7) (o : BitVec 16) : Statement (.brxLtz sw a o) := fun _ =>
  roundTrip_plain (w := packB sw 20 a 2 o) rfl (by simp) (by simp) ((decodeWord_14 _ _ _ _).trans (rfl))

theorem brxGez (sw : Bool) (a : BitVec 7) (o : BitVec 16) : Statement (.brxGez sw a o) := fun _ =>
  roundTrip_plain (w := packB sw 20 a 3 o) rfl (by simp) (by simp) ((decodeWord_14 _ _ _ _).trans (rfl))

theorem cont (sw : Bool) (d : BitVec 7) (a : BitVec 7) : Statement (.cont sw d a) := fun _ =>
  roundTrip_plain (w := packA sw 21 d a 0#7 0) rfl (by simp) (by simp) ((decodeWord_15 _ _ _ _ _).trans (rfl))

theorem qput (sw : Bool) (d : BitVec 7) (a : BitVec 7) (b : BitVec 7) : Statement (.qput sw d a b) := fun _ =>
  roundTrip_plain (w := packA sw 21 d a b 1) rfl (by simp) (by simp) ((decodeWord_15 _ _ _ _ _).trans (rfl))

theorem watch (sw : Bool) (d : BitVec 7) (a : BitVec 7) : Statement (.watch sw d a) := fun _ =>
  roundTrip_plain (w := packA sw 21 d a 0#7 2) rfl (by simp) (by simp) ((decodeWord_15 _ _ _ _ _).trans (rfl))

theorem unwatch (sw : Bool) (d : BitVec 7) (a : BitVec 7) (b : BitVec 7) : Statement (.unwatch sw d a b) := fun _ =>
  roundTrip_plain (w := packA sw 21 d a b 3) rfl (by simp) (by simp) ((decodeWord_15 _ _ _ _ _).trans (rfl))

theorem wgrow (sw : Bool) (d : BitVec 7) (a : BitVec 7) : Statement (.wgrow sw d a) := fun _ =>
  roundTrip_plain (w := packA sw 22 d a 0#7 0) rfl (by simp) (by simp) ((decodeWord_16 _ _ _ _ _).trans (rfl))

theorem wshrink (sw : Bool) (d : BitVec 7) (a : BitVec 7) : Statement (.wshrink sw d a) := fun _ =>
  roundTrip_plain (w := packA sw 22 d a 0#7 1) rfl (by simp) (by simp) ((decodeWord_16 _ _ _ _ _).trans (rfl))

theorem wbase (sw : Bool) (a : BitVec 7) : Statement (.wbase sw a) := fun _ =>
  roundTrip_plain (w := packA sw 22 0#7 a 0#7 2) rfl (by simp) (by simp) ((decodeWord_16 _ _ _ _ _).trans (rfl))

theorem wiset (sw : Bool) (a : BitVec 7) : Statement (.wiset sw a) := fun _ =>
  roundTrip_plain (w := packA sw 22 0#7 a 0#7 3) rfl (by simp) (by simp) ((decodeWord_16 _ _ _ _ _).trans (rfl))

theorem vrgat (sw : Bool) (d : BitVec 7) (a : BitVec 7) : Statement (.vrgat sw d a) := fun _ =>
  roundTrip_plain (w := packA sw 22 d a 0#7 4) rfl (by simp) (by simp) ((decodeWord_16 _ _ _ _ _).trans (rfl))

theorem vrsca (sw : Bool) (a : BitVec 7) (b : BitVec 7) : Statement (.vrsca sw a b) := fun _ =>
  roundTrip_plain (w := packA sw 22 0#7 a b 5) rfl (by simp) (by simp) ((decodeWord_16 _ _ _ _ _).trans (rfl))

theorem poolReq (sw : Bool) (d : BitVec 7) (a : BitVec 7) : Statement (.poolReq sw d a) := fun _ =>
  roundTrip_plain (w := packA sw 22 d a 0#7 6) rfl (by simp) (by simp) ((decodeWord_16 _ _ _ _ _).trans (rfl))

theorem poolRel (sw : Bool) (d : BitVec 7) (a : BitVec 7) : Statement (.poolRel sw d a) := fun _ =>
  roundTrip_plain (w := packA sw 22 d a 0#7 7) rfl (by simp) (by simp) ((decodeWord_16 _ _ _ _ _).trans (rfl))

theorem poolMap (sw : Bool) (d : BitVec 7) (a : BitVec 7) : Statement (.poolMap sw d a) := fun _ =>
  roundTrip_plain (w := packA sw 22 d a 0#7 8) rfl (by simp) (by simp) ((decodeWord_16 _ _ _ _ _).trans (rfl))

theorem poolOcc (sw : Bool) (d : BitVec 7) (a : BitVec 7) : Statement (.poolOcc sw d a) := fun _ =>
  roundTrip_plain (w := packA sw 22 d a 0#7 9) rfl (by simp) (by simp) ((decodeWord_16 _ _ _ _ _).trans (rfl))

theorem tstate (sw : Bool) (d : BitVec 7) (a : BitVec 7) : Statement (.tstate sw d a) := fun _ =>
  roundTrip_plain (w := packA sw 22 d a 0#7 10) rfl (by simp) (by simp) ((decodeWord_16 _ _ _ _ _).trans (rfl))

theorem tmark (sw : Bool) (d : BitVec 7) (a : BitVec 7) : Statement (.tmark sw d a) := fun _ =>
  roundTrip_plain (w := packA sw 22 d a 0#7 11) rfl (by simp) (by simp) ((decodeWord_16 _ _ _ _ _).trans (rfl))

theorem faddS (sw : Bool) (d : BitVec 7) (a : BitVec 7) (b : BitVec 7) (p : Option (BitVec 25)) : Statement (.faddS sw d a b p) := fun _ =>
  roundTrip_payload (w := packA sw 24 d a b 0) (p := p) rfl (by simp) (by simp) ((decodeWord_18 _ _ _ _ _ p).trans (rfl))

theorem fsubS (sw : Bool) (d : BitVec 7) (a : BitVec 7) (b : BitVec 7) (p : Option (BitVec 25)) : Statement (.fsubS sw d a b p) := fun _ =>
  roundTrip_payload (w := packA sw 24 d a b 1) (p := p) rfl (by simp) (by simp) ((decodeWord_18 _ _ _ _ _ p).trans (rfl))

theorem fmulS (sw : Bool) (d : BitVec 7) (a : BitVec 7) (b : BitVec 7) (p : Option (BitVec 25)) : Statement (.fmulS sw d a b p) := fun _ =>
  roundTrip_payload (w := packA sw 24 d a b 2) (p := p) rfl (by simp) (by simp) ((decodeWord_18 _ _ _ _ _ p).trans (rfl))

theorem fminS (sw : Bool) (d : BitVec 7) (a : BitVec 7) (b : BitVec 7) (p : Option (BitVec 25)) : Statement (.fminS sw d a b p) := fun _ =>
  roundTrip_payload (w := packA sw 24 d a b 3) (p := p) rfl (by simp) (by simp) ((decodeWord_18 _ _ _ _ _ p).trans (rfl))

theorem fmaxS (sw : Bool) (d : BitVec 7) (a : BitVec 7) (b : BitVec 7) (p : Option (BitVec 25)) : Statement (.fmaxS sw d a b p) := fun _ =>
  roundTrip_payload (w := packA sw 24 d a b 4) (p := p) rfl (by simp) (by simp) ((decodeWord_18 _ _ _ _ _ p).trans (rfl))

theorem fdivS (sw : Bool) (d : BitVec 7) (a : BitVec 7) (b : BitVec 7) (p : Option (BitVec 25)) : Statement (.fdivS sw d a b p) := fun _ =>
  roundTrip_payload (w := packA sw 24 d a b 5) (p := p) rfl (by simp) (by simp) ((decodeWord_18 _ _ _ _ _ p).trans (rfl))

theorem fsqrtS (sw : Bool) (d : BitVec 7) (a : BitVec 7) (p : Option (BitVec 25)) : Statement (.fsqrtS sw d a p) := fun _ =>
  roundTrip_payload (w := packA sw 24 d a 0#7 6) (p := p) rfl (by simp) (by simp) ((decodeWord_18 _ _ _ _ _ p).trans (rfl))

theorem frcpS (sw : Bool) (d : BitVec 7) (a : BitVec 7) (p : Option (BitVec 25)) : Statement (.frcpS sw d a p) := fun _ =>
  roundTrip_payload (w := packA sw 24 d a 0#7 7) (p := p) rfl (by simp) (by simp) ((decodeWord_18 _ _ _ _ _ p).trans (rfl))

theorem fabsS (sw : Bool) (d : BitVec 7) (a : BitVec 7) (p : Option (BitVec 25)) : Statement (.fabsS sw d a p) := fun _ =>
  roundTrip_payload (w := packA sw 24 d a 0#7 8) (p := p) rfl (by simp) (by simp) ((decodeWord_18 _ _ _ _ _ p).trans (rfl))

theorem fnegS (sw : Bool) (d : BitVec 7) (a : BitVec 7) (p : Option (BitVec 25)) : Statement (.fnegS sw d a p) := fun _ =>
  roundTrip_payload (w := packA sw 24 d a 0#7 9) (p := p) rfl (by simp) (by simp) ((decodeWord_18 _ _ _ _ _ p).trans (rfl))

theorem feqS (sw : Bool) (d : BitVec 7) (a : BitVec 7) (b : BitVec 7) (p : Option (BitVec 25)) : Statement (.feqS sw d a b p) := fun _ =>
  roundTrip_payload (w := packA sw 24 d a b 10) (p := p) rfl (by simp) (by simp) ((decodeWord_18 _ _ _ _ _ p).trans (rfl))

theorem fltS (sw : Bool) (d : BitVec 7) (a : BitVec 7) (b : BitVec 7) (p : Option (BitVec 25)) : Statement (.fltS sw d a b p) := fun _ =>
  roundTrip_payload (w := packA sw 24 d a b 11) (p := p) rfl (by simp) (by simp) ((decodeWord_18 _ _ _ _ _ p).trans (rfl))

theorem fleS (sw : Bool) (d : BitVec 7) (a : BitVec 7) (b : BitVec 7) (p : Option (BitVec 25)) : Statement (.fleS sw d a b p) := fun _ =>
  roundTrip_payload (w := packA sw 24 d a b 12) (p := p) rfl (by simp) (by simp) ((decodeWord_18 _ _ _ _ _ p).trans (rfl))

theorem funS (sw : Bool) (d : BitVec 7) (a : BitVec 7) (b : BitVec 7) (p : Option (BitVec 25)) : Statement (.funS sw d a b p) := fun _ =>
  roundTrip_payload (w := packA sw 24 d a b 13) (p := p) rfl (by simp) (by simp) ((decodeWord_18 _ _ _ _ _ p).trans (rfl))

theorem fmaS (sw : Bool) (d : BitVec 7) (a : BitVec 7) (b : BitVec 7) (p : Option (BitVec 25)) : Statement (.fmaS sw d a b p) := fun _ =>
  roundTrip_payload (w := packA sw 24 d a b 14) (p := p) rfl (by simp) (by simp) ((decodeWord_18 _ _ _ _ _ p).trans (rfl))

theorem fnmaS (sw : Bool) (d : BitVec 7) (a : BitVec 7) (b : BitVec 7) (p : Option (BitVec 25)) : Statement (.fnmaS sw d a b p) := fun _ =>
  roundTrip_payload (w := packA sw 24 d a b 15) (p := p) rfl (by simp) (by simp) ((decodeWord_18 _ _ _ _ _ p).trans (rfl))

theorem faddD (sw : Bool) (d : BitVec 7) (a : BitVec 7) (b : BitVec 7) (p : Option (BitVec 25)) : Statement (.faddD sw d a b p) := fun _ =>
  roundTrip_payload (w := packA sw 25 d a b 0) (p := p) rfl (by simp) (by simp) ((decodeWord_19 _ _ _ _ _ p).trans (rfl))

theorem fsubD (sw : Bool) (d : BitVec 7) (a : BitVec 7) (b : BitVec 7) (p : Option (BitVec 25)) : Statement (.fsubD sw d a b p) := fun _ =>
  roundTrip_payload (w := packA sw 25 d a b 1) (p := p) rfl (by simp) (by simp) ((decodeWord_19 _ _ _ _ _ p).trans (rfl))

theorem fmulD (sw : Bool) (d : BitVec 7) (a : BitVec 7) (b : BitVec 7) (p : Option (BitVec 25)) : Statement (.fmulD sw d a b p) := fun _ =>
  roundTrip_payload (w := packA sw 25 d a b 2) (p := p) rfl (by simp) (by simp) ((decodeWord_19 _ _ _ _ _ p).trans (rfl))

theorem fminD (sw : Bool) (d : BitVec 7) (a : BitVec 7) (b : BitVec 7) (p : Option (BitVec 25)) : Statement (.fminD sw d a b p) := fun _ =>
  roundTrip_payload (w := packA sw 25 d a b 3) (p := p) rfl (by simp) (by simp) ((decodeWord_19 _ _ _ _ _ p).trans (rfl))

theorem fmaxD (sw : Bool) (d : BitVec 7) (a : BitVec 7) (b : BitVec 7) (p : Option (BitVec 25)) : Statement (.fmaxD sw d a b p) := fun _ =>
  roundTrip_payload (w := packA sw 25 d a b 4) (p := p) rfl (by simp) (by simp) ((decodeWord_19 _ _ _ _ _ p).trans (rfl))

theorem fdivD (sw : Bool) (d : BitVec 7) (a : BitVec 7) (b : BitVec 7) (p : Option (BitVec 25)) : Statement (.fdivD sw d a b p) := fun _ =>
  roundTrip_payload (w := packA sw 25 d a b 5) (p := p) rfl (by simp) (by simp) ((decodeWord_19 _ _ _ _ _ p).trans (rfl))

theorem fsqrtD (sw : Bool) (d : BitVec 7) (a : BitVec 7) (p : Option (BitVec 25)) : Statement (.fsqrtD sw d a p) := fun _ =>
  roundTrip_payload (w := packA sw 25 d a 0#7 6) (p := p) rfl (by simp) (by simp) ((decodeWord_19 _ _ _ _ _ p).trans (rfl))

theorem frcpD (sw : Bool) (d : BitVec 7) (a : BitVec 7) (p : Option (BitVec 25)) : Statement (.frcpD sw d a p) := fun _ =>
  roundTrip_payload (w := packA sw 25 d a 0#7 7) (p := p) rfl (by simp) (by simp) ((decodeWord_19 _ _ _ _ _ p).trans (rfl))

theorem fabsD (sw : Bool) (d : BitVec 7) (a : BitVec 7) (p : Option (BitVec 25)) : Statement (.fabsD sw d a p) := fun _ =>
  roundTrip_payload (w := packA sw 25 d a 0#7 8) (p := p) rfl (by simp) (by simp) ((decodeWord_19 _ _ _ _ _ p).trans (rfl))

theorem fnegD (sw : Bool) (d : BitVec 7) (a : BitVec 7) (p : Option (BitVec 25)) : Statement (.fnegD sw d a p) := fun _ =>
  roundTrip_payload (w := packA sw 25 d a 0#7 9) (p := p) rfl (by simp) (by simp) ((decodeWord_19 _ _ _ _ _ p).trans (rfl))

theorem feqD (sw : Bool) (d : BitVec 7) (a : BitVec 7) (b : BitVec 7) (p : Option (BitVec 25)) : Statement (.feqD sw d a b p) := fun _ =>
  roundTrip_payload (w := packA sw 25 d a b 10) (p := p) rfl (by simp) (by simp) ((decodeWord_19 _ _ _ _ _ p).trans (rfl))

theorem fltD (sw : Bool) (d : BitVec 7) (a : BitVec 7) (b : BitVec 7) (p : Option (BitVec 25)) : Statement (.fltD sw d a b p) := fun _ =>
  roundTrip_payload (w := packA sw 25 d a b 11) (p := p) rfl (by simp) (by simp) ((decodeWord_19 _ _ _ _ _ p).trans (rfl))

theorem fleD (sw : Bool) (d : BitVec 7) (a : BitVec 7) (b : BitVec 7) (p : Option (BitVec 25)) : Statement (.fleD sw d a b p) := fun _ =>
  roundTrip_payload (w := packA sw 25 d a b 12) (p := p) rfl (by simp) (by simp) ((decodeWord_19 _ _ _ _ _ p).trans (rfl))

theorem funD (sw : Bool) (d : BitVec 7) (a : BitVec 7) (b : BitVec 7) (p : Option (BitVec 25)) : Statement (.funD sw d a b p) := fun _ =>
  roundTrip_payload (w := packA sw 25 d a b 13) (p := p) rfl (by simp) (by simp) ((decodeWord_19 _ _ _ _ _ p).trans (rfl))

theorem fmaD (sw : Bool) (d : BitVec 7) (a : BitVec 7) (b : BitVec 7) (p : Option (BitVec 25)) : Statement (.fmaD sw d a b p) := fun _ =>
  roundTrip_payload (w := packA sw 25 d a b 14) (p := p) rfl (by simp) (by simp) ((decodeWord_19 _ _ _ _ _ p).trans (rfl))

theorem fnmaD (sw : Bool) (d : BitVec 7) (a : BitVec 7) (b : BitVec 7) (p : Option (BitVec 25)) : Statement (.fnmaD sw d a b p) := fun _ =>
  roundTrip_payload (w := packA sw 25 d a b 15) (p := p) rfl (by simp) (by simp) ((decodeWord_19 _ _ _ _ _ p).trans (rfl))

theorem faddH2 (sw : Bool) (d : BitVec 7) (a : BitVec 7) (b : BitVec 7) (p : Option (BitVec 25)) : Statement (.faddH2 sw d a b p) := fun _ =>
  roundTrip_payload (w := packA sw 26 d a b 0) (p := p) rfl (by simp) (by simp) ((decodeWord_1A _ _ _ _ _ p).trans (rfl))

theorem fsubH2 (sw : Bool) (d : BitVec 7) (a : BitVec 7) (b : BitVec 7) (p : Option (BitVec 25)) : Statement (.fsubH2 sw d a b p) := fun _ =>
  roundTrip_payload (w := packA sw 26 d a b 1) (p := p) rfl (by simp) (by simp) ((decodeWord_1A _ _ _ _ _ p).trans (rfl))

theorem fmulH2 (sw : Bool) (d : BitVec 7) (a : BitVec 7) (b : BitVec 7) (p : Option (BitVec 25)) : Statement (.fmulH2 sw d a b p) := fun _ =>
  roundTrip_payload (w := packA sw 26 d a b 2) (p := p) rfl (by simp) (by simp) ((decodeWord_1A _ _ _ _ _ p).trans (rfl))

theorem fminH2 (sw : Bool) (d : BitVec 7) (a : BitVec 7) (b : BitVec 7) (p : Option (BitVec 25)) : Statement (.fminH2 sw d a b p) := fun _ =>
  roundTrip_payload (w := packA sw 26 d a b 3) (p := p) rfl (by simp) (by simp) ((decodeWord_1A _ _ _ _ _ p).trans (rfl))

theorem fmaxH2 (sw : Bool) (d : BitVec 7) (a : BitVec 7) (b : BitVec 7) (p : Option (BitVec 25)) : Statement (.fmaxH2 sw d a b p) := fun _ =>
  roundTrip_payload (w := packA sw 26 d a b 4) (p := p) rfl (by simp) (by simp) ((decodeWord_1A _ _ _ _ _ p).trans (rfl))

theorem fdivH2 (sw : Bool) (d : BitVec 7) (a : BitVec 7) (b : BitVec 7) (p : Option (BitVec 25)) : Statement (.fdivH2 sw d a b p) := fun _ =>
  roundTrip_payload (w := packA sw 26 d a b 5) (p := p) rfl (by simp) (by simp) ((decodeWord_1A _ _ _ _ _ p).trans (rfl))

theorem fsqrtH2 (sw : Bool) (d : BitVec 7) (a : BitVec 7) (p : Option (BitVec 25)) : Statement (.fsqrtH2 sw d a p) := fun _ =>
  roundTrip_payload (w := packA sw 26 d a 0#7 6) (p := p) rfl (by simp) (by simp) ((decodeWord_1A _ _ _ _ _ p).trans (rfl))

theorem frcpH2 (sw : Bool) (d : BitVec 7) (a : BitVec 7) (p : Option (BitVec 25)) : Statement (.frcpH2 sw d a p) := fun _ =>
  roundTrip_payload (w := packA sw 26 d a 0#7 7) (p := p) rfl (by simp) (by simp) ((decodeWord_1A _ _ _ _ _ p).trans (rfl))

theorem fabsH2 (sw : Bool) (d : BitVec 7) (a : BitVec 7) (p : Option (BitVec 25)) : Statement (.fabsH2 sw d a p) := fun _ =>
  roundTrip_payload (w := packA sw 26 d a 0#7 8) (p := p) rfl (by simp) (by simp) ((decodeWord_1A _ _ _ _ _ p).trans (rfl))

theorem fnegH2 (sw : Bool) (d : BitVec 7) (a : BitVec 7) (p : Option (BitVec 25)) : Statement (.fnegH2 sw d a p) := fun _ =>
  roundTrip_payload (w := packA sw 26 d a 0#7 9) (p := p) rfl (by simp) (by simp) ((decodeWord_1A _ _ _ _ _ p).trans (rfl))

theorem feqH2 (sw : Bool) (d : BitVec 7) (a : BitVec 7) (b : BitVec 7) (p : Option (BitVec 25)) : Statement (.feqH2 sw d a b p) := fun _ =>
  roundTrip_payload (w := packA sw 26 d a b 10) (p := p) rfl (by simp) (by simp) ((decodeWord_1A _ _ _ _ _ p).trans (rfl))

theorem fltH2 (sw : Bool) (d : BitVec 7) (a : BitVec 7) (b : BitVec 7) (p : Option (BitVec 25)) : Statement (.fltH2 sw d a b p) := fun _ =>
  roundTrip_payload (w := packA sw 26 d a b 11) (p := p) rfl (by simp) (by simp) ((decodeWord_1A _ _ _ _ _ p).trans (rfl))

theorem fleH2 (sw : Bool) (d : BitVec 7) (a : BitVec 7) (b : BitVec 7) (p : Option (BitVec 25)) : Statement (.fleH2 sw d a b p) := fun _ =>
  roundTrip_payload (w := packA sw 26 d a b 12) (p := p) rfl (by simp) (by simp) ((decodeWord_1A _ _ _ _ _ p).trans (rfl))

theorem funH2 (sw : Bool) (d : BitVec 7) (a : BitVec 7) (b : BitVec 7) (p : Option (BitVec 25)) : Statement (.funH2 sw d a b p) := fun _ =>
  roundTrip_payload (w := packA sw 26 d a b 13) (p := p) rfl (by simp) (by simp) ((decodeWord_1A _ _ _ _ _ p).trans (rfl))

theorem fmaH2 (sw : Bool) (d : BitVec 7) (a : BitVec 7) (b : BitVec 7) (p : Option (BitVec 25)) : Statement (.fmaH2 sw d a b p) := fun _ =>
  roundTrip_payload (w := packA sw 26 d a b 14) (p := p) rfl (by simp) (by simp) ((decodeWord_1A _ _ _ _ _ p).trans (rfl))

theorem fnmaH2 (sw : Bool) (d : BitVec 7) (a : BitVec 7) (b : BitVec 7) (p : Option (BitVec 25)) : Statement (.fnmaH2 sw d a b p) := fun _ =>
  roundTrip_payload (w := packA sw 26 d a b 15) (p := p) rfl (by simp) (by simp) ((decodeWord_1A _ _ _ _ _ p).trans (rfl))

theorem faddB2 (sw : Bool) (d : BitVec 7) (a : BitVec 7) (b : BitVec 7) (p : Option (BitVec 25)) : Statement (.faddB2 sw d a b p) := fun _ =>
  roundTrip_payload (w := packA sw 27 d a b 0) (p := p) rfl (by simp) (by simp) ((decodeWord_1B _ _ _ _ _ p).trans (rfl))

theorem fsubB2 (sw : Bool) (d : BitVec 7) (a : BitVec 7) (b : BitVec 7) (p : Option (BitVec 25)) : Statement (.fsubB2 sw d a b p) := fun _ =>
  roundTrip_payload (w := packA sw 27 d a b 1) (p := p) rfl (by simp) (by simp) ((decodeWord_1B _ _ _ _ _ p).trans (rfl))

theorem fmulB2 (sw : Bool) (d : BitVec 7) (a : BitVec 7) (b : BitVec 7) (p : Option (BitVec 25)) : Statement (.fmulB2 sw d a b p) := fun _ =>
  roundTrip_payload (w := packA sw 27 d a b 2) (p := p) rfl (by simp) (by simp) ((decodeWord_1B _ _ _ _ _ p).trans (rfl))

theorem fminB2 (sw : Bool) (d : BitVec 7) (a : BitVec 7) (b : BitVec 7) (p : Option (BitVec 25)) : Statement (.fminB2 sw d a b p) := fun _ =>
  roundTrip_payload (w := packA sw 27 d a b 3) (p := p) rfl (by simp) (by simp) ((decodeWord_1B _ _ _ _ _ p).trans (rfl))

theorem fmaxB2 (sw : Bool) (d : BitVec 7) (a : BitVec 7) (b : BitVec 7) (p : Option (BitVec 25)) : Statement (.fmaxB2 sw d a b p) := fun _ =>
  roundTrip_payload (w := packA sw 27 d a b 4) (p := p) rfl (by simp) (by simp) ((decodeWord_1B _ _ _ _ _ p).trans (rfl))

theorem fdivB2 (sw : Bool) (d : BitVec 7) (a : BitVec 7) (b : BitVec 7) (p : Option (BitVec 25)) : Statement (.fdivB2 sw d a b p) := fun _ =>
  roundTrip_payload (w := packA sw 27 d a b 5) (p := p) rfl (by simp) (by simp) ((decodeWord_1B _ _ _ _ _ p).trans (rfl))

theorem fsqrtB2 (sw : Bool) (d : BitVec 7) (a : BitVec 7) (p : Option (BitVec 25)) : Statement (.fsqrtB2 sw d a p) := fun _ =>
  roundTrip_payload (w := packA sw 27 d a 0#7 6) (p := p) rfl (by simp) (by simp) ((decodeWord_1B _ _ _ _ _ p).trans (rfl))

theorem frcpB2 (sw : Bool) (d : BitVec 7) (a : BitVec 7) (p : Option (BitVec 25)) : Statement (.frcpB2 sw d a p) := fun _ =>
  roundTrip_payload (w := packA sw 27 d a 0#7 7) (p := p) rfl (by simp) (by simp) ((decodeWord_1B _ _ _ _ _ p).trans (rfl))

theorem fabsB2 (sw : Bool) (d : BitVec 7) (a : BitVec 7) (p : Option (BitVec 25)) : Statement (.fabsB2 sw d a p) := fun _ =>
  roundTrip_payload (w := packA sw 27 d a 0#7 8) (p := p) rfl (by simp) (by simp) ((decodeWord_1B _ _ _ _ _ p).trans (rfl))

theorem fnegB2 (sw : Bool) (d : BitVec 7) (a : BitVec 7) (p : Option (BitVec 25)) : Statement (.fnegB2 sw d a p) := fun _ =>
  roundTrip_payload (w := packA sw 27 d a 0#7 9) (p := p) rfl (by simp) (by simp) ((decodeWord_1B _ _ _ _ _ p).trans (rfl))

theorem feqB2 (sw : Bool) (d : BitVec 7) (a : BitVec 7) (b : BitVec 7) (p : Option (BitVec 25)) : Statement (.feqB2 sw d a b p) := fun _ =>
  roundTrip_payload (w := packA sw 27 d a b 10) (p := p) rfl (by simp) (by simp) ((decodeWord_1B _ _ _ _ _ p).trans (rfl))

theorem fltB2 (sw : Bool) (d : BitVec 7) (a : BitVec 7) (b : BitVec 7) (p : Option (BitVec 25)) : Statement (.fltB2 sw d a b p) := fun _ =>
  roundTrip_payload (w := packA sw 27 d a b 11) (p := p) rfl (by simp) (by simp) ((decodeWord_1B _ _ _ _ _ p).trans (rfl))

theorem fleB2 (sw : Bool) (d : BitVec 7) (a : BitVec 7) (b : BitVec 7) (p : Option (BitVec 25)) : Statement (.fleB2 sw d a b p) := fun _ =>
  roundTrip_payload (w := packA sw 27 d a b 12) (p := p) rfl (by simp) (by simp) ((decodeWord_1B _ _ _ _ _ p).trans (rfl))

theorem funB2 (sw : Bool) (d : BitVec 7) (a : BitVec 7) (b : BitVec 7) (p : Option (BitVec 25)) : Statement (.funB2 sw d a b p) := fun _ =>
  roundTrip_payload (w := packA sw 27 d a b 13) (p := p) rfl (by simp) (by simp) ((decodeWord_1B _ _ _ _ _ p).trans (rfl))

theorem fmaB2 (sw : Bool) (d : BitVec 7) (a : BitVec 7) (b : BitVec 7) (p : Option (BitVec 25)) : Statement (.fmaB2 sw d a b p) := fun _ =>
  roundTrip_payload (w := packA sw 27 d a b 14) (p := p) rfl (by simp) (by simp) ((decodeWord_1B _ _ _ _ _ p).trans (rfl))

theorem fnmaB2 (sw : Bool) (d : BitVec 7) (a : BitVec 7) (b : BitVec 7) (p : Option (BitVec 25)) : Statement (.fnmaB2 sw d a b p) := fun _ =>
  roundTrip_payload (w := packA sw 27 d a b 15) (p := p) rfl (by simp) (by simp) ((decodeWord_1B _ _ _ _ _ p).trans (rfl))

theorem fexp2 (sw : Bool) (d : BitVec 7) (a : BitVec 7) (p : Option (BitVec 25)) : Statement (.fexp2 sw d a p) := fun _ =>
  roundTrip_payload (w := packA sw 28 d a 0#7 0) (p := p) rfl (by simp) (by simp) ((decodeWord_1C _ _ _ _ _ p).trans (rfl))

theorem flog2 (sw : Bool) (d : BitVec 7) (a : BitVec 7) (p : Option (BitVec 25)) : Statement (.flog2 sw d a p) := fun _ =>
  roundTrip_payload (w := packA sw 28 d a 0#7 1) (p := p) rfl (by simp) (by simp) ((decodeWord_1C _ _ _ _ _ p).trans (rfl))

theorem fsin (sw : Bool) (d : BitVec 7) (a : BitVec 7) (p : Option (BitVec 25)) : Statement (.fsin sw d a p) := fun _ =>
  roundTrip_payload (w := packA sw 28 d a 0#7 2) (p := p) rfl (by simp) (by simp) ((decodeWord_1C _ _ _ _ _ p).trans (rfl))

theorem fcos (sw : Bool) (d : BitVec 7) (a : BitVec 7) (p : Option (BitVec 25)) : Statement (.fcos sw d a p) := fun _ =>
  roundTrip_payload (w := packA sw 28 d a 0#7 3) (p := p) rfl (by simp) (by simp) ((decodeWord_1C _ _ _ _ _ p).trans (rfl))

theorem frsq (sw : Bool) (d : BitVec 7) (a : BitVec 7) (p : Option (BitVec 25)) : Statement (.frsq sw d a p) := fun _ =>
  roundTrip_payload (w := packA sw 28 d a 0#7 4) (p := p) rfl (by simp) (by simp) ((decodeWord_1C _ _ _ _ _ p).trans (rfl))

theorem ftanh (sw : Bool) (d : BitVec 7) (a : BitVec 7) (p : Option (BitVec 25)) : Statement (.ftanh sw d a p) := fun _ =>
  roundTrip_payload (w := packA sw 28 d a 0#7 5) (p := p) rfl (by simp) (by simp) ((decodeWord_1C _ _ _ _ _ p).trans (rfl))

theorem cvt (sw : Bool) (d : BitVec 7) (a : BitVec 7) (c : BitVec 7) (p : Option (BitVec 25)) : Statement (.cvt sw d a c p) := fun _ =>
  roundTrip_payload (w := packA sw 29 d a c 0) (p := p) rfl (by simp) (by simp) ((decodeWord_1D _ _ _ _ _ p).trans (rfl))

theorem cvtp (sw : Bool) (d : BitVec 7) (a : BitVec 7) (c : BitVec 7) (p : Option (BitVec 25)) : Statement (.cvtp sw d a c p) := fun _ =>
  roundTrip_payload (w := packA sw 29 d a c 1) (p := p) rfl (by simp) (by simp) ((decodeWord_1D _ _ _ _ _ p).trans (rfl))

theorem cvtq (sw : Bool) (d : BitVec 7) (a : BitVec 7) (c : BitVec 7) (p : Option (BitVec 25)) : Statement (.cvtq sw d a c p) := fun _ =>
  roundTrip_payload (w := packA sw 29 d a c 2) (p := p) rfl (by simp) (by simp) ((decodeWord_1D _ _ _ _ _ p).trans (rfl))

theorem fclass (sw : Bool) (d : BitVec 7) (a : BitVec 7) (k : BitVec 7) (p : Option (BitVec 25)) : Statement (.fclass sw d a k p) := fun _ =>
  roundTrip_payload (w := packA sw 29 d a k 3) (p := p) rfl (by simp) (by simp) ((decodeWord_1D _ _ _ _ _ p).trans (rfl))

theorem fscl (sw : Bool) (d : BitVec 7) (a : BitVec 7) (b : BitVec 7) (p : Option (BitVec 25)) : Statement (.fscl sw d a b p) := fun _ =>
  roundTrip_payload (w := packA sw 29 d a b 4) (p := p) rfl (by simp) (by simp) ((decodeWord_1D _ _ _ _ _ p).trans (rfl))

theorem ldB (sw : Bool) (t : BitVec 7) (r : BitVec 7) (i : BitVec 7) (p : Option (BitVec 25)) : Statement (.ldB sw t r i p) := fun _ =>
  roundTrip_payload (w := packA sw 32 t r i 0) (p := p) rfl (by simp) (by simp) ((decodeWord_20 _ _ _ _ _ p).trans (rfl))

theorem ldBs (sw : Bool) (t : BitVec 7) (r : BitVec 7) (i : BitVec 7) (p : Option (BitVec 25)) : Statement (.ldBs sw t r i p) := fun _ =>
  roundTrip_payload (w := packA sw 32 t r i 1) (p := p) rfl (by simp) (by simp) ((decodeWord_20 _ _ _ _ _ p).trans (rfl))

theorem ldH (sw : Bool) (t : BitVec 7) (r : BitVec 7) (i : BitVec 7) (p : Option (BitVec 25)) : Statement (.ldH sw t r i p) := fun _ =>
  roundTrip_payload (w := packA sw 32 t r i 2) (p := p) rfl (by simp) (by simp) ((decodeWord_20 _ _ _ _ _ p).trans (rfl))

theorem ldHs (sw : Bool) (t : BitVec 7) (r : BitVec 7) (i : BitVec 7) (p : Option (BitVec 25)) : Statement (.ldHs sw t r i p) := fun _ =>
  roundTrip_payload (w := packA sw 32 t r i 3) (p := p) rfl (by simp) (by simp) ((decodeWord_20 _ _ _ _ _ p).trans (rfl))

theorem ldW (sw : Bool) (t : BitVec 7) (r : BitVec 7) (i : BitVec 7) (p : Option (BitVec 25)) : Statement (.ldW sw t r i p) := fun _ =>
  roundTrip_payload (w := packA sw 32 t r i 4) (p := p) rfl (by simp) (by simp) ((decodeWord_20 _ _ _ _ _ p).trans (rfl))

theorem ldD (sw : Bool) (t : BitVec 7) (r : BitVec 7) (i : BitVec 7) (p : Option (BitVec 25)) : Statement (.ldD sw t r i p) := fun _ =>
  roundTrip_payload (w := packA sw 32 t r i 5) (p := p) rfl (by simp) (by simp) ((decodeWord_20 _ _ _ _ _ p).trans (rfl))

theorem ldQ (sw : Bool) (t : BitVec 7) (r : BitVec 7) (i : BitVec 7) (p : Option (BitVec 25)) : Statement (.ldQ sw t r i p) := fun _ =>
  roundTrip_payload (w := packA sw 32 t r i 6) (p := p) rfl (by simp) (by simp) ((decodeWord_20 _ _ _ _ _ p).trans (rfl))

theorem ldO (sw : Bool) (t : BitVec 7) (r : BitVec 7) (i : BitVec 7) (p : Option (BitVec 25)) : Statement (.ldO sw t r i p) := fun _ =>
  roundTrip_payload (w := packA sw 32 t r i 7) (p := p) rfl (by simp) (by simp) ((decodeWord_20 _ _ _ _ _ p).trans (rfl))

theorem ldmcQ (sw : Bool) (t : BitVec 7) (r : BitVec 7) (i : BitVec 7) (p : Option (BitVec 25)) : Statement (.ldmcQ sw t r i p) := fun _ =>
  roundTrip_payload (w := packA sw 32 t r i 8) (p := p) rfl (by simp) (by simp) ((decodeWord_20 _ _ _ _ _ p).trans (rfl))

theorem stB (sw : Bool) (t : BitVec 7) (r : BitVec 7) (i : BitVec 7) (p : Option (BitVec 25)) : Statement (.stB sw t r i p) := fun _ =>
  roundTrip_payload (w := packA sw 33 t r i 0) (p := p) rfl (by simp) (by simp) ((decodeWord_21 _ _ _ _ _ p).trans (rfl))

theorem stH (sw : Bool) (t : BitVec 7) (r : BitVec 7) (i : BitVec 7) (p : Option (BitVec 25)) : Statement (.stH sw t r i p) := fun _ =>
  roundTrip_payload (w := packA sw 33 t r i 1) (p := p) rfl (by simp) (by simp) ((decodeWord_21 _ _ _ _ _ p).trans (rfl))

theorem stW (sw : Bool) (t : BitVec 7) (r : BitVec 7) (i : BitVec 7) (p : Option (BitVec 25)) : Statement (.stW sw t r i p) := fun _ =>
  roundTrip_payload (w := packA sw 33 t r i 2) (p := p) rfl (by simp) (by simp) ((decodeWord_21 _ _ _ _ _ p).trans (rfl))

theorem stD (sw : Bool) (t : BitVec 7) (r : BitVec 7) (i : BitVec 7) (p : Option (BitVec 25)) : Statement (.stD sw t r i p) := fun _ =>
  roundTrip_payload (w := packA sw 33 t r i 3) (p := p) rfl (by simp) (by simp) ((decodeWord_21 _ _ _ _ _ p).trans (rfl))

theorem stQ (sw : Bool) (t : BitVec 7) (r : BitVec 7) (i : BitVec 7) (p : Option (BitVec 25)) : Statement (.stQ sw t r i p) := fun _ =>
  roundTrip_payload (w := packA sw 33 t r i 4) (p := p) rfl (by simp) (by simp) ((decodeWord_21 _ _ _ _ _ p).trans (rfl))

theorem stO (sw : Bool) (t : BitVec 7) (r : BitVec 7) (i : BitVec 7) (p : Option (BitVec 25)) : Statement (.stO sw t r i p) := fun _ =>
  roundTrip_payload (w := packA sw 33 t r i 5) (p := p) rfl (by simp) (by simp) ((decodeWord_21 _ _ _ _ _ p).trans (rfl))

theorem ldsW (sw : Bool) (t : BitVec 7) (r : BitVec 7) (i : BitVec 7) (p : Option (BitVec 25)) : Statement (.ldsW sw t r i p) := fun _ =>
  roundTrip_payload (w := packA sw 34 t r i 0) (p := p) rfl (by simp) (by simp) ((decodeWord_22 _ _ _ _ _ p).trans (rfl))

theorem ldsD (sw : Bool) (t : BitVec 7) (r : BitVec 7) (i : BitVec 7) (p : Option (BitVec 25)) : Statement (.ldsD sw t r i p) := fun _ =>
  roundTrip_payload (w := packA sw 34 t r i 1) (p := p) rfl (by simp) (by simp) ((decodeWord_22 _ _ _ _ _ p).trans (rfl))

theorem ldsQ (sw : Bool) (t : BitVec 7) (r : BitVec 7) (i : BitVec 7) (p : Option (BitVec 25)) : Statement (.ldsQ sw t r i p) := fun _ =>
  roundTrip_payload (w := packA sw 34 t r i 2) (p := p) rfl (by simp) (by simp) ((decodeWord_22 _ _ _ _ _ p).trans (rfl))

theorem stsW (sw : Bool) (t : BitVec 7) (r : BitVec 7) (i : BitVec 7) (p : Option (BitVec 25)) : Statement (.stsW sw t r i p) := fun _ =>
  roundTrip_payload (w := packA sw 34 t r i 3) (p := p) rfl (by simp) (by simp) ((decodeWord_22 _ _ _ _ _ p).trans (rfl))

theorem stsD (sw : Bool) (t : BitVec 7) (r : BitVec 7) (i : BitVec 7) (p : Option (BitVec 25)) : Statement (.stsD sw t r i p) := fun _ =>
  roundTrip_payload (w := packA sw 34 t r i 4) (p := p) rfl (by simp) (by simp) ((decodeWord_22 _ _ _ _ _ p).trans (rfl))

theorem stsQ (sw : Bool) (t : BitVec 7) (r : BitVec 7) (i : BitVec 7) (p : Option (BitVec 25)) : Statement (.stsQ sw t r i p) := fun _ =>
  roundTrip_payload (w := packA sw 34 t r i 5) (p := p) rfl (by simp) (by simp) ((decodeWord_22 _ _ _ _ _ p).trans (rfl))

theorem amoAdd (sw : Bool) (d : BitVec 7) (a : BitVec 7) (b : BitVec 7) (p : Option (BitVec 25)) : Statement (.amoAdd sw d a b p) := fun _ =>
  roundTrip_payload (w := packA sw 35 d a b 0) (p := p) rfl (by simp) (by simp) ((decodeWord_23 _ _ _ _ _ p).trans (rfl))

theorem amoAnd (sw : Bool) (d : BitVec 7) (a : BitVec 7) (b : BitVec 7) (p : Option (BitVec 25)) : Statement (.amoAnd sw d a b p) := fun _ =>
  roundTrip_payload (w := packA sw 35 d a b 1) (p := p) rfl (by simp) (by simp) ((decodeWord_23 _ _ _ _ _ p).trans (rfl))

theorem amoOr (sw : Bool) (d : BitVec 7) (a : BitVec 7) (b : BitVec 7) (p : Option (BitVec 25)) : Statement (.amoOr sw d a b p) := fun _ =>
  roundTrip_payload (w := packA sw 35 d a b 2) (p := p) rfl (by simp) (by simp) ((decodeWord_23 _ _ _ _ _ p).trans (rfl))

theorem amoXor (sw : Bool) (d : BitVec 7) (a : BitVec 7) (b : BitVec 7) (p : Option (BitVec 25)) : Statement (.amoXor sw d a b p) := fun _ =>
  roundTrip_payload (w := packA sw 35 d a b 3) (p := p) rfl (by simp) (by simp) ((decodeWord_23 _ _ _ _ _ p).trans (rfl))

theorem amoMin (sw : Bool) (d : BitVec 7) (a : BitVec 7) (b : BitVec 7) (p : Option (BitVec 25)) : Statement (.amoMin sw d a b p) := fun _ =>
  roundTrip_payload (w := packA sw 35 d a b 4) (p := p) rfl (by simp) (by simp) ((decodeWord_23 _ _ _ _ _ p).trans (rfl))

theorem amoMax (sw : Bool) (d : BitVec 7) (a : BitVec 7) (b : BitVec 7) (p : Option (BitVec 25)) : Statement (.amoMax sw d a b p) := fun _ =>
  roundTrip_payload (w := packA sw 35 d a b 5) (p := p) rfl (by simp) (by simp) ((decodeWord_23 _ _ _ _ _ p).trans (rfl))

theorem amoMinn (sw : Bool) (d : BitVec 7) (a : BitVec 7) (b : BitVec 7) (p : Option (BitVec 25)) : Statement (.amoMinn sw d a b p) := fun _ =>
  roundTrip_payload (w := packA sw 35 d a b 6) (p := p) rfl (by simp) (by simp) ((decodeWord_23 _ _ _ _ _ p).trans (rfl))

theorem amoMaxn (sw : Bool) (d : BitVec 7) (a : BitVec 7) (b : BitVec 7) (p : Option (BitVec 25)) : Statement (.amoMaxn sw d a b p) := fun _ =>
  roundTrip_payload (w := packA sw 35 d a b 7) (p := p) rfl (by simp) (by simp) ((decodeWord_23 _ _ _ _ _ p).trans (rfl))

theorem amoSwap (sw : Bool) (d : BitVec 7) (a : BitVec 7) (b : BitVec 7) (p : Option (BitVec 25)) : Statement (.amoSwap sw d a b p) := fun _ =>
  roundTrip_payload (w := packA sw 35 d a b 8) (p := p) rfl (by simp) (by simp) ((decodeWord_23 _ _ _ _ _ p).trans (rfl))

theorem amoCas (sw : Bool) (d : BitVec 7) (a : BitVec 7) (b : BitVec 7) (p : Option (BitVec 25)) : Statement (.amoCas sw d a b p) := fun _ =>
  roundTrip_payload (w := packA sw 35 d a b 9) (p := p) rfl (by simp) (by simp) ((decodeWord_23 _ _ _ _ _ p).trans (rfl))

theorem amoFadd (sw : Bool) (d : BitVec 7) (a : BitVec 7) (b : BitVec 7) (p : Option (BitVec 25)) : Statement (.amoFadd sw d a b p) := fun _ =>
  roundTrip_payload (w := packA sw 35 d a b 10) (p := p) rfl (by simp) (by simp) ((decodeWord_23 _ _ _ _ _ p).trans (rfl))

theorem amoAddb2 (sw : Bool) (d : BitVec 7) (a : BitVec 7) (b : BitVec 7) (p : Option (BitVec 25)) : Statement (.amoAddb2 sw d a b p) := fun _ =>
  roundTrip_payload (w := packA sw 35 d a b 11) (p := p) rfl (by simp) (by simp) ((decodeWord_23 _ _ _ _ _ p).trans (rfl))

theorem amoAddh2 (sw : Bool) (d : BitVec 7) (a : BitVec 7) (b : BitVec 7) (p : Option (BitVec 25)) : Statement (.amoAddh2 sw d a b p) := fun _ =>
  roundTrip_payload (w := packA sw 35 d a b 12) (p := p) rfl (by simp) (by simp) ((decodeWord_23 _ _ _ _ _ p).trans (rfl))

theorem amoAdd64 (sw : Bool) (d : BitVec 7) (a : BitVec 7) (b : BitVec 7) (p : Option (BitVec 25)) : Statement (.amoAdd64 sw d a b p) := fun _ =>
  roundTrip_payload (w := packA sw 35 d a b 13) (p := p) rfl (by simp) (by simp) ((decodeWord_23 _ _ _ _ _ p).trans (rfl))

theorem amoCas64 (sw : Bool) (d : BitVec 7) (a : BitVec 7) (b : BitVec 7) (p : Option (BitVec 25)) : Statement (.amoCas64 sw d a b p) := fun _ =>
  roundTrip_payload (w := packA sw 35 d a b 14) (p := p) rfl (by simp) (by simp) ((decodeWord_23 _ _ _ _ _ p).trans (rfl))

theorem amoInc (sw : Bool) (d : BitVec 7) (a : BitVec 7) (b : BitVec 7) (p : Option (BitVec 25)) : Statement (.amoInc sw d a b p) := fun _ =>
  roundTrip_payload (w := packA sw 35 d a b 15) (p := p) rfl (by simp) (by simp) ((decodeWord_23 _ _ _ _ _ p).trans (rfl))

theorem samoAdd (sw : Bool) (d : BitVec 7) (a : BitVec 7) (b : BitVec 7) (p : Option (BitVec 25)) : Statement (.samoAdd sw d a b p) := fun _ =>
  roundTrip_payload (w := packA sw 36 d a b 0) (p := p) rfl (by simp) (by simp) ((decodeWord_24 _ _ _ _ _ p).trans (rfl))

theorem samoAnd (sw : Bool) (d : BitVec 7) (a : BitVec 7) (b : BitVec 7) (p : Option (BitVec 25)) : Statement (.samoAnd sw d a b p) := fun _ =>
  roundTrip_payload (w := packA sw 36 d a b 1) (p := p) rfl (by simp) (by simp) ((decodeWord_24 _ _ _ _ _ p).trans (rfl))

theorem samoOr (sw : Bool) (d : BitVec 7) (a : BitVec 7) (b : BitVec 7) (p : Option (BitVec 25)) : Statement (.samoOr sw d a b p) := fun _ =>
  roundTrip_payload (w := packA sw 36 d a b 2) (p := p) rfl (by simp) (by simp) ((decodeWord_24 _ _ _ _ _ p).trans (rfl))

theorem samoXor (sw : Bool) (d : BitVec 7) (a : BitVec 7) (b : BitVec 7) (p : Option (BitVec 25)) : Statement (.samoXor sw d a b p) := fun _ =>
  roundTrip_payload (w := packA sw 36 d a b 3) (p := p) rfl (by simp) (by simp) ((decodeWord_24 _ _ _ _ _ p).trans (rfl))

theorem samoMin (sw : Bool) (d : BitVec 7) (a : BitVec 7) (b : BitVec 7) (p : Option (BitVec 25)) : Statement (.samoMin sw d a b p) := fun _ =>
  roundTrip_payload (w := packA sw 36 d a b 4) (p := p) rfl (by simp) (by simp) ((decodeWord_24 _ _ _ _ _ p).trans (rfl))

theorem samoMax (sw : Bool) (d : BitVec 7) (a : BitVec 7) (b : BitVec 7) (p : Option (BitVec 25)) : Statement (.samoMax sw d a b p) := fun _ =>
  roundTrip_payload (w := packA sw 36 d a b 5) (p := p) rfl (by simp) (by simp) ((decodeWord_24 _ _ _ _ _ p).trans (rfl))

theorem samoMinn (sw : Bool) (d : BitVec 7) (a : BitVec 7) (b : BitVec 7) (p : Option (BitVec 25)) : Statement (.samoMinn sw d a b p) := fun _ =>
  roundTrip_payload (w := packA sw 36 d a b 6) (p := p) rfl (by simp) (by simp) ((decodeWord_24 _ _ _ _ _ p).trans (rfl))

theorem samoMaxn (sw : Bool) (d : BitVec 7) (a : BitVec 7) (b : BitVec 7) (p : Option (BitVec 25)) : Statement (.samoMaxn sw d a b p) := fun _ =>
  roundTrip_payload (w := packA sw 36 d a b 7) (p := p) rfl (by simp) (by simp) ((decodeWord_24 _ _ _ _ _ p).trans (rfl))

theorem samoSwap (sw : Bool) (d : BitVec 7) (a : BitVec 7) (b : BitVec 7) (p : Option (BitVec 25)) : Statement (.samoSwap sw d a b p) := fun _ =>
  roundTrip_payload (w := packA sw 36 d a b 8) (p := p) rfl (by simp) (by simp) ((decodeWord_24 _ _ _ _ _ p).trans (rfl))

theorem samoCas (sw : Bool) (d : BitVec 7) (a : BitVec 7) (b : BitVec 7) (p : Option (BitVec 25)) : Statement (.samoCas sw d a b p) := fun _ =>
  roundTrip_payload (w := packA sw 36 d a b 9) (p := p) rfl (by simp) (by simp) ((decodeWord_24 _ _ _ _ _ p).trans (rfl))

theorem samoFadd (sw : Bool) (d : BitVec 7) (a : BitVec 7) (b : BitVec 7) (p : Option (BitVec 25)) : Statement (.samoFadd sw d a b p) := fun _ =>
  roundTrip_payload (w := packA sw 36 d a b 10) (p := p) rfl (by simp) (by simp) ((decodeWord_24 _ _ _ _ _ p).trans (rfl))

theorem samoAddb2 (sw : Bool) (d : BitVec 7) (a : BitVec 7) (b : BitVec 7) (p : Option (BitVec 25)) : Statement (.samoAddb2 sw d a b p) := fun _ =>
  roundTrip_payload (w := packA sw 36 d a b 11) (p := p) rfl (by simp) (by simp) ((decodeWord_24 _ _ _ _ _ p).trans (rfl))

theorem samoAddh2 (sw : Bool) (d : BitVec 7) (a : BitVec 7) (b : BitVec 7) (p : Option (BitVec 25)) : Statement (.samoAddh2 sw d a b p) := fun _ =>
  roundTrip_payload (w := packA sw 36 d a b 12) (p := p) rfl (by simp) (by simp) ((decodeWord_24 _ _ _ _ _ p).trans (rfl))

theorem samoAdd64 (sw : Bool) (d : BitVec 7) (a : BitVec 7) (b : BitVec 7) (p : Option (BitVec 25)) : Statement (.samoAdd64 sw d a b p) := fun _ =>
  roundTrip_payload (w := packA sw 36 d a b 13) (p := p) rfl (by simp) (by simp) ((decodeWord_24 _ _ _ _ _ p).trans (rfl))

theorem samoCas64 (sw : Bool) (d : BitVec 7) (a : BitVec 7) (b : BitVec 7) (p : Option (BitVec 25)) : Statement (.samoCas64 sw d a b p) := fun _ =>
  roundTrip_payload (w := packA sw 36 d a b 14) (p := p) rfl (by simp) (by simp) ((decodeWord_24 _ _ _ _ _ p).trans (rfl))

theorem samoInc (sw : Bool) (d : BitVec 7) (a : BitVec 7) (b : BitVec 7) (p : Option (BitVec 25)) : Statement (.samoInc sw d a b p) := fun _ =>
  roundTrip_payload (w := packA sw 36 d a b 15) (p := p) rfl (by simp) (by simp) ((decodeWord_24 _ _ _ _ _ p).trans (rfl))

theorem fence (sw : Bool) (c : BitVec 3) (m : BitVec 3) : Statement (.fence sw c m) := fun _ =>
  roundTrip_plain (w := packA sw 37 0#7 0#7 (c ++ m ++ 0#1) 0) rfl (by simp) (by simp) ((decodeWord_25 _ _ _ _ _).trans (by simp [dec25]))

theorem fenceAcq (sw : Bool) (c : BitVec 3) (m : BitVec 3) : Statement (.fenceAcq sw c m) := fun _ =>
  roundTrip_plain (w := packA sw 37 0#7 0#7 (c ++ m ++ 0#1) 1) rfl (by simp) (by simp) ((decodeWord_25 _ _ _ _ _).trans (by simp [dec25]))

theorem fenceRel (sw : Bool) (c : BitVec 3) (m : BitVec 3) : Statement (.fenceRel sw c m) := fun _ =>
  roundTrip_plain (w := packA sw 37 0#7 0#7 (c ++ m ++ 0#1) 2) rfl (by simp) (by simp) ((decodeWord_25 _ _ _ _ _).trans (by simp [dec25]))

theorem wct (sw : Bool) (d : BitVec 7) : Statement (.wct sw d) := fun _ =>
  roundTrip_plain (w := packA sw 37 d 0#7 0#7 3) rfl (by simp) (by simp) ((decodeWord_25 _ _ _ _ _).trans (rfl))

theorem flush (sw : Bool) (a : BitVec 7) (b : BitVec 7) : Statement (.flush sw a b) := fun _ =>
  roundTrip_plain (w := packA sw 37 0#7 a b 4) rfl (by simp) (by simp) ((decodeWord_25 _ _ _ _ _).trans (rfl))

theorem icinv (sw : Bool) (a : BitVec 7) (b : BitVec 7) : Statement (.icinv sw a b) := fun _ =>
  roundTrip_plain (w := packA sw 37 0#7 a b 5) rfl (by simp) (by simp) ((decodeWord_25 _ _ _ _ _).trans (rfl))

theorem fwait (sw : Bool) (d : BitVec 7) (a : BitVec 7) (b : BitVec 7) : Statement (.fwait sw d a b) := fun _ =>
  roundTrip_plain (w := packA sw 37 d a b 6) rfl (by simp) (by simp) ((decodeWord_25 _ _ _ _ _).trans (rfl))

theorem pref (sw : Bool) (a : BitVec 7) : Statement (.pref sw a) := fun _ =>
  roundTrip_plain (w := packA sw 37 0#7 a 0#7 7) rfl (by simp) (by simp) ((decodeWord_25 _ _ _ _ _).trans (rfl))

theorem wvoteAny (sw : Bool) (d : BitVec 7) (a : BitVec 7) (b : BitVec 7) : Statement (.wvoteAny sw d a b) := fun _ =>
  roundTrip_plain (w := packA sw 40 d a b 0) rfl (by simp) (by simp) ((decodeWord_28 _ _ _ _ _ none (.inl rfl)).trans (rfl))

theorem wvoteAll (sw : Bool) (d : BitVec 7) (a : BitVec 7) (b : BitVec 7) : Statement (.wvoteAll sw d a b) := fun _ =>
  roundTrip_plain (w := packA sw 40 d a b 1) rfl (by simp) (by simp) ((decodeWord_28 _ _ _ _ _ none (.inl rfl)).trans (rfl))

theorem wballot (sw : Bool) (d : BitVec 7) (a : BitVec 7) (b : BitVec 7) : Statement (.wballot sw d a b) := fun _ =>
  roundTrip_plain (w := packA sw 40 d a b 2) rfl (by simp) (by simp) ((decodeWord_28 _ _ _ _ _ none (.inl rfl)).trans (rfl))

theorem wredAdd (sw : Bool) (d : BitVec 7) (a : BitVec 7) (b : BitVec 7) : Statement (.wredAdd sw d a b) := fun _ =>
  roundTrip_plain (w := packA sw 40 d a b 3) rfl (by simp) (by simp) ((decodeWord_28 _ _ _ _ _ none (.inl rfl)).trans (rfl))

theorem wredFadd (sw : Bool) (d : BitVec 7) (a : BitVec 7) (b : BitVec 7) : Statement (.wredFadd sw d a b) := fun _ =>
  roundTrip_plain (w := packA sw 40 d a b 4) rfl (by simp) (by simp) ((decodeWord_28 _ _ _ _ _ none (.inl rfl)).trans (rfl))

theorem wredMin (sw : Bool) (d : BitVec 7) (a : BitVec 7) (b : BitVec 7) : Statement (.wredMin sw d a b) := fun _ =>
  roundTrip_plain (w := packA sw 40 d a b 5) rfl (by simp) (by simp) ((decodeWord_28 _ _ _ _ _ none (.inl rfl)).trans (rfl))

theorem wredMax (sw : Bool) (d : BitVec 7) (a : BitVec 7) (b : BitVec 7) : Statement (.wredMax sw d a b) := fun _ =>
  roundTrip_plain (w := packA sw 40 d a b 6) rfl (by simp) (by simp) ((decodeWord_28 _ _ _ _ _ none (.inl rfl)).trans (rfl))

theorem wscanAdd (sw : Bool) (d : BitVec 7) (a : BitVec 7) (b : BitVec 7) : Statement (.wscanAdd sw d a b) := fun _ =>
  roundTrip_plain (w := packA sw 40 d a b 7) rfl (by simp) (by simp) ((decodeWord_28 _ _ _ _ _ none (.inl rfl)).trans (rfl))

theorem wscanFadd (sw : Bool) (d : BitVec 7) (a : BitVec 7) (b : BitVec 7) : Statement (.wscanFadd sw d a b) := fun _ =>
  roundTrip_plain (w := packA sw 40 d a b 8) rfl (by simp) (by simp) ((decodeWord_28 _ _ _ _ _ none (.inl rfl)).trans (rfl))

theorem wsegscanAdd (sw : Bool) (d : BitVec 7) (a : BitVec 7) (b : BitVec 7) : Statement (.wsegscanAdd sw d a b) := fun _ =>
  roundTrip_plain (w := packA sw 40 d a b 9) rfl (by simp) (by simp) ((decodeWord_28 _ _ _ _ _ none (.inl rfl)).trans (rfl))

theorem wsegscanFadd (sw : Bool) (d : BitVec 7) (a : BitVec 7) (b : BitVec 7) : Statement (.wsegscanFadd sw d a b) := fun _ =>
  roundTrip_plain (w := packA sw 40 d a b 10) rfl (by simp) (by simp) ((decodeWord_28 _ _ _ _ _ none (.inl rfl)).trans (rfl))

theorem wisect (sw : Bool) (d : BitVec 7) (a : BitVec 7) (b : BitVec 7) : Statement (.wisect sw d a b) := fun _ =>
  roundTrip_plain (w := packA sw 40 d a b 11) rfl (by simp) (by simp) ((decodeWord_28 _ _ _ _ _ none (.inl rfl)).trans (rfl))

theorem wnz (sw : Bool) (d : BitVec 7) (a : BitVec 7) (b : BitVec 7) : Statement (.wnz sw d a b) := fun _ =>
  roundTrip_plain (w := packA sw 40 d a b 12) rfl (by simp) (by simp) ((decodeWord_28 _ _ _ _ _ none (.inl rfl)).trans (rfl))

theorem wmm (sw : Bool) (d : BitVec 7) (a : BitVec 7) (b : BitVec 7) (p : Option (BitVec 25)) : Statement (.wmm sw d a b p) := fun _ =>
  roundTrip_payload (w := packA sw 40 d a b 13) (p := p) rfl (by simp) (by simp) ((decodeWord_28 _ _ _ _ _ p (.inr rfl)).trans (rfl))

theorem wsync (sw : Bool) (b : BitVec 7) : Statement (.wsync sw b) := fun _ =>
  roundTrip_plain (w := packA sw 40 0#7 0#7 b 14) rfl (by simp) (by simp) ((decodeWord_28 _ _ _ _ _ none (.inl rfl)).trans (rfl))

theorem wperm (sw : Bool) (d : BitVec 7) (a : BitVec 7) (b : BitVec 7) : Statement (.wperm sw d a b) := fun _ =>
  roundTrip_plain (w := packA sw 40 d a b 15) rfl (by simp) (by simp) ((decodeWord_28 _ _ _ _ _ none (.inl rfl)).trans (rfl))

theorem nbInit (sw : Bool) (a : BitVec 7) (n : BitVec 4) : Statement (.nbInit sw a n) := fun _ =>
  roundTrip_plain (w := packA sw 41 0#7 a (0#3 ++ n) 0) rfl (by simp) (by simp) ((decodeWord_29 _ _ _ _ _).trans (by simp [dec29]))

theorem nbArrive (sw : Bool) (d : BitVec 7) (n : BitVec 4) : Statement (.nbArrive sw d n) := fun _ =>
  roundTrip_plain (w := packA sw 41 d 0#7 (0#3 ++ n) 1) rfl (by simp) (by simp) ((decodeWord_29 _ _ _ _ _).trans (by simp [dec29]))

theorem nbWait (sw : Bool) (d : BitVec 7) (a : BitVec 7) (n : BitVec 4) : Statement (.nbWait sw d a n) := fun _ =>
  roundTrip_plain (w := packA sw 41 d a (0#3 ++ n) 2) rfl (by simp) (by simp) ((decodeWord_29 _ _ _ _ _).trans (by simp [dec29]))

theorem nbMeet (sw : Bool) (d : BitVec 7) (n : BitVec 4) : Statement (.nbMeet sw d n) := fun _ =>
  roundTrip_plain (w := packA sw 41 d 0#7 (0#3 ++ n) 3) rfl (by simp) (by simp) ((decodeWord_29 _ _ _ _ _).trans (by simp [dec29]))

theorem nbTest (sw : Bool) (d : BitVec 7) (a : BitVec 7) (n : BitVec 4) : Statement (.nbTest sw d a n) := fun _ =>
  roundTrip_plain (w := packA sw 41 d a (0#3 ++ n) 4) rfl (by simp) (by simp) ((decodeWord_29 _ _ _ _ _).trans (by simp [dec29]))

theorem nbStat (sw : Bool) (d : BitVec 7) (e : BitVec 3) (n : BitVec 4) : Statement (.nbStat sw d e n) := fun _ =>
  roundTrip_plain (w := packA sw 41 d 0#7 (e ++ n) 5) rfl (by simp) (by simp) ((decodeWord_29 _ _ _ _ _).trans (by simp [dec29]))

theorem xredAdd (sw : Bool) (k : BitVec 3) (a : BitVec 7) (b : BitVec 7) : Statement (.xredAdd sw k a b) := fun _ =>
  roundTrip_plain (w := packA sw 41 (0#4 ++ k) a b 6) rfl (by simp) (by simp) ((decodeWord_29 _ _ _ _ _).trans (by simp [dec29]))

theorem xredFadd (sw : Bool) (k : BitVec 3) (a : BitVec 7) (b : BitVec 7) : Statement (.xredFadd sw k a b) := fun _ =>
  roundTrip_plain (w := packA sw 41 (0#4 ++ k) a b 7) rfl (by simp) (by simp) ((decodeWord_29 _ _ _ _ _).trans (by simp [dec29]))

theorem xredMax (sw : Bool) (k : BitVec 3) (a : BitVec 7) (b : BitVec 7) : Statement (.xredMax sw k a b) := fun _ =>
  roundTrip_plain (w := packA sw 41 (0#4 ++ k) a b 8) rfl (by simp) (by simp) ((decodeWord_29 _ _ _ _ _).trans (by simp [dec29]))

theorem xredOr (sw : Bool) (k : BitVec 3) (a : BitVec 7) (b : BitVec 7) : Statement (.xredOr sw k a b) := fun _ =>
  roundTrip_plain (w := packA sw 41 (0#4 ++ k) a b 9) rfl (by simp) (by simp) ((decodeWord_29 _ _ _ _ _).trans (by simp [dec29]))

theorem cpy (sw : Bool) (d : BitVec 7) (a : BitVec 7) (p : Option (BitVec 25)) : Statement (.cpy sw d a p) := fun _ =>
  roundTrip_payload (w := packA sw 42 d a 0#7 0) (p := p) rfl (by simp) (by simp) ((decodeWord_2A _ _ _ _ _ p).trans (rfl))

theorem mcpy (sw : Bool) (d : BitVec 7) (a : BitVec 7) (b : BitVec 7) (p : Option (BitVec 25)) : Statement (.mcpy sw d a b p) := fun _ =>
  roundTrip_payload (w := packA sw 42 d a b 1) (p := p) rfl (by simp) (by simp) ((decodeWord_2A _ _ _ _ _ p).trans (rfl))

theorem fget (sw : Bool) (d : BitVec 7) (a : BitVec 7) (b : BitVec 7) (p : Option (BitVec 25)) : Statement (.fget sw d a b p) := fun _ =>
  roundTrip_payload (w := packA sw 42 d a b 2) (p := p) rfl (by simp) (by simp) ((decodeWord_2A _ _ _ _ _ p).trans (rfl))

theorem fgetb (sw : Bool) (d : BitVec 7) (a : BitVec 7) (b : BitVec 7) (p : Option (BitVec 25)) : Statement (.fgetb sw d a b p) := fun _ =>
  roundTrip_payload (w := packA sw 42 d a b 3) (p := p) rfl (by simp) (by simp) ((decodeWord_2A _ _ _ _ _ p).trans (rfl))

theorem tld (sw : Bool) (d : BitVec 7) (a : BitVec 7) (p : Option (BitVec 25)) : Statement (.tld sw d a p) := fun _ =>
  roundTrip_payload (w := packA sw 48 d a 0#7 0) (p := p) rfl (by simp) (by simp) ((decodeWord_30 _ _ _ _ _ p).trans (rfl))

theorem tst (sw : Bool) (d : BitVec 7) (a : BitVec 7) (p : Option (BitVec 25)) : Statement (.tst sw d a p) := fun _ =>
  roundTrip_payload (w := packA sw 48 d a 0#7 1) (p := p) rfl (by simp) (by simp) ((decodeWord_30 _ _ _ _ _ p).trans (rfl))

theorem tstc (sw : Bool) (d : BitVec 7) (a : BitVec 7) (b : BitVec 7) (p : Option (BitVec 25)) : Statement (.tstc sw d a b p) := fun _ =>
  roundTrip_payload (w := packA sw 48 d a b 2) (p := p) rfl (by simp) (by simp) ((decodeWord_30 _ _ _ _ _ p).trans (rfl))

theorem tzero (sw : Bool) (d : BitVec 7) (p : Option (BitVec 25)) : Statement (.tzero sw d p) := fun _ =>
  roundTrip_payload (w := packA sw 48 d 0#7 0#7 3) (p := p) rfl (by simp) (by simp) ((decodeWord_30 _ _ _ _ _ p).trans (rfl))

theorem tmov (sw : Bool) (d : BitVec 7) (a : BitVec 7) (p : Option (BitVec 25)) : Statement (.tmov sw d a p) := fun _ =>
  roundTrip_payload (w := packA sw 48 d a 0#7 4) (p := p) rfl (by simp) (by simp) ((decodeWord_30 _ _ _ _ _ p).trans (rfl))

theorem tfree (sw : Bool) (d : BitVec 7) (p : Option (BitVec 25)) : Statement (.tfree sw d p) := fun _ =>
  roundTrip_payload (w := packA sw 48 d 0#7 0#7 5) (p := p) rfl (by simp) (by simp) ((decodeWord_30 _ _ _ _ _ p).trans (rfl))

theorem tcvt (sw : Bool) (d : BitVec 7) (a : BitVec 7) (p : Option (BitVec 25)) : Statement (.tcvt sw d a p) := fun _ =>
  roundTrip_payload (w := packA sw 48 d a 0#7 6) (p := p) rfl (by simp) (by simp) ((decodeWord_30 _ _ _ _ _ p).trans (rfl))

theorem tlay (sw : Bool) (n : BitVec 3) (a : BitVec 7) (p : Option (BitVec 25)) : Statement (.tlay sw n a p) := fun _ =>
  roundTrip_payload (w := packA sw 48 (0#4 ++ n) a 0#7 7) (p := p) rfl (by simp) (by simp) ((decodeWord_30 _ _ _ _ _ p).trans (by simp [dec30]))

theorem mma (sw : Bool) (d : BitVec 7) (a : BitVec 7) (b : BitVec 7) (p : Option (BitVec 25)) : Statement (.mma sw d a b p) := fun _ =>
  roundTrip_payload (w := packA sw 49 d a b 0) (p := p) rfl (by simp) (by simp) ((decodeWord_31 _ _ _ _ _ p).trans (rfl))

theorem mman (sw : Bool) (d : BitVec 7) (a : BitVec 7) (b : BitVec 7) (p : Option (BitVec 25)) : Statement (.mman sw d a b p) := fun _ =>
  roundTrip_payload (w := packA sw 49 d a b 1) (p := p) rfl (by simp) (by simp) ((decodeWord_31 _ _ _ _ _ p).trans (rfl))

theorem mms (sw : Bool) (d : BitVec 7) (a : BitVec 7) (b : BitVec 7) (p : Option (BitVec 25)) : Statement (.mms sw d a b p) := fun _ =>
  roundTrip_payload (w := packA sw 49 d a b 2) (p := p) rfl (by simp) (by simp) ((decodeWord_31 _ _ _ _ _ p).trans (rfl))

theorem tlu (sw : Bool) (d : BitVec 7) (p : Option (BitVec 25)) : Statement (.tlu sw d p) := fun _ =>
  roundTrip_payload (w := packA sw 50 d 0#7 0#7 0) (p := p) rfl (by simp) (by simp) ((decodeWord_32 _ _ _ _ _ p).trans (rfl))

theorem tchol (sw : Bool) (d : BitVec 7) (p : Option (BitVec 25)) : Statement (.tchol sw d p) := fun _ =>
  roundTrip_payload (w := packA sw 50 d 0#7 0#7 1) (p := p) rfl (by simp) (by simp) ((decodeWord_32 _ _ _ _ _ p).trans (rfl))

theorem tqr (sw : Bool) (d : BitVec 7) (p : Option (BitVec 25)) : Statement (.tqr sw d p) := fun _ =>
  roundTrip_payload (w := packA sw 50 d 0#7 0#7 2) (p := p) rfl (by simp) (by simp) ((decodeWord_32 _ _ _ _ _ p).trans (rfl))

theorem ttrsl (sw : Bool) (d : BitVec 7) (a : BitVec 7) (p : Option (BitVec 25)) : Statement (.ttrsl sw d a p) := fun _ =>
  roundTrip_payload (w := packA sw 50 d a 0#7 3) (p := p) rfl (by simp) (by simp) ((decodeWord_32 _ _ _ _ _ p).trans (rfl))

theorem ttrsu (sw : Bool) (d : BitVec 7) (a : BitVec 7) (p : Option (BitVec 25)) : Statement (.ttrsu sw d a p) := fun _ =>
  roundTrip_payload (w := packA sw 50 d a 0#7 4) (p := p) rfl (by simp) (by simp) ((decodeWord_32 _ _ _ _ _ p).trans (rfl))

theorem ttrsn (sw : Bool) (d : BitVec 7) (a : BitVec 7) (p : Option (BitVec 25)) : Statement (.ttrsn sw d a p) := fun _ =>
  roundTrip_payload (w := packA sw 50 d a 0#7 5) (p := p) rfl (by simp) (by simp) ((decodeWord_32 _ _ _ _ _ p).trans (rfl))

theorem tperm (sw : Bool) (d : BitVec 7) (a : BitVec 7) (p : Option (BitVec 25)) : Statement (.tperm sw d a p) := fun _ =>
  roundTrip_payload (w := packA sw 50 d a 0#7 6) (p := p) rfl (by simp) (by simp) ((decodeWord_32 _ _ _ _ _ p).trans (rfl))

theorem tqapp (sw : Bool) (d : BitVec 7) (a : BitVec 7) (p : Option (BitVec 25)) : Statement (.tqapp sw d a p) := fun _ =>
  roundTrip_payload (w := packA sw 50 d a 0#7 7) (p := p) rfl (by simp) (by simp) ((decodeWord_32 _ _ _ _ _ p).trans (rfl))

theorem tqappt (sw : Bool) (d : BitVec 7) (a : BitVec 7) (p : Option (BitVec 25)) : Statement (.tqappt sw d a p) := fun _ =>
  roundTrip_payload (w := packA sw 50 d a 0#7 8) (p := p) rfl (by simp) (by simp) ((decodeWord_32 _ _ _ _ _ p).trans (rfl))

theorem svmv (sw : Bool) (d : BitVec 7) (a : BitVec 7) (b : BitVec 7) (p : Option (BitVec 25)) : Statement (.svmv sw d a b p) := fun _ =>
  roundTrip_payload (w := packA sw 51 d a b 0) (p := p) rfl (by simp) (by simp) ((decodeWord_33 _ _ _ _ _ p).trans (rfl))

theorem svmm (sw : Bool) (d : BitVec 7) (a : BitVec 7) (b : BitVec 7) (p : Option (BitVec 25)) : Statement (.svmm sw d a b p) := fun _ =>
  roundTrip_payload (w := packA sw 51 d a b 1) (p := p) rfl (by simp) (by simp) ((decodeWord_33 _ _ _ _ _ p).trans (rfl))

theorem sbarInit (sw : Bool) (a : BitVec 7) (n : BitVec 4) : Statement (.sbarInit sw a n) := fun _ =>
  roundTrip_plain (w := packA sw 52 0#7 a (0#3 ++ n) 0) rfl (by simp) (by simp) ((decodeWord_34 _ _ _ _ _).trans (by simp [dec34]))

theorem sbarArrive (sw : Bool) (d : BitVec 7) (n : BitVec 4) : Statement (.sbarArrive sw d n) := fun _ =>
  roundTrip_plain (w := packA sw 52 d 0#7 (0#3 ++ n) 1) rfl (by simp) (by simp) ((decodeWord_34 _ _ _ _ _).trans (by simp [dec34]))

theorem sbarWait (sw : Bool) (d : BitVec 7) (a : BitVec 7) (n : BitVec 4) : Statement (.sbarWait sw d a n) := fun _ =>
  roundTrip_plain (w := packA sw 52 d a (0#3 ++ n) 2) rfl (by simp) (by simp) ((decodeWord_34 _ _ _ _ _).trans (by simp [dec34]))

theorem xrd (sw : Bool) (d : BitVec 7) (k : BitVec 3) (e : BitVec 7) : Statement (.xrd sw d k e) := fun _ =>
  roundTrip_plain (w := packA sw 52 d (4#4 ++ k) e 3) rfl (by simp) (by simp) ((decodeWord_34 _ _ _ _ _).trans (by simp [dec34]))

theorem sfence (sw : Bool) (c : BitVec 3) (m : BitVec 3) : Statement (.sfence sw c m) := fun _ =>
  roundTrip_plain (w := packA sw 52 0#7 0#7 (c ++ m ++ 0#1) 4) rfl (by simp) (by simp) ((decodeWord_34 _ _ _ _ _).trans (by simp [dec34]))

theorem send (sw : Bool) : Statement (.send sw) := fun _ =>
  roundTrip_plain (w := packA sw 52 0#7 0#7 0#7 5) rfl (by simp) (by simp) ((decodeWord_34 _ _ _ _ _).trans (rfl))

theorem sstat (sw : Bool) (d : BitVec 7) (e : BitVec 7) : Statement (.sstat sw d e) := fun _ =>
  roundTrip_plain (w := packA sw 52 d 0#7 e 6) rfl (by simp) (by simp) ((decodeWord_34 _ _ _ _ _).trans (rfl))

theorem setfmt (sw : Bool) (a : BitVec 7) : Statement (.setfmt sw a) := fun _ =>
  roundTrip_plain (w := packA sw 52 0#7 a 0#7 7) rfl (by simp) (by simp) ((decodeWord_34 _ _ _ _ _).trans (rfl))

theorem csrr (sw : Bool) (d : BitVec 7) (n : BitVec 14) : Statement (.csrr sw d n) := fun _ =>
  roundTrip_plain (w := packA sw 62 d (n.extractLsb' 7 7) (n.extractLsb' 0 7) 0) rfl (by simp) (by simp) ((decodeWord_3E _ _ _ _ _).trans (by show some (Instr.csrr sw d _) = _; rw [append_parts (v := 7) (w := 7) n]))

theorem csrw (sw : Bool) (n : BitVec 14) (a : BitVec 7) : Statement (.csrw sw n a) := fun _ =>
  roundTrip_plain (w := packA sw 62 (n.extractLsb' 7 7) a (n.extractLsb' 0 7) 1) rfl (by simp) (by simp) ((decodeWord_3E _ _ _ _ _).trans (by show some (Instr.csrw sw _ a) = _; rw [append_parts (v := 7) (w := 7) n]))

theorem pfxWord (p : BitVec 25) (w : BitVec 32) : Statement (.pfxWord p w) := fun h => Bool.noConfusion (show false = true from h)

theorem kwaitEq (b : BitVec 5) (a : BitVec 5) (d : BitVec 5) : Statement (.kwaitEq b a d) := fun _ =>
  roundTrip_hart (w := packHart b a 0 d) rfl (decodeHart_Eq ..)

theorem kwaitNe (b : BitVec 5) (a : BitVec 5) (d : BitVec 5) : Statement (.kwaitNe b a d) := fun _ =>
  roundTrip_hart (w := packHart b a 1 d) rfl (decodeHart_Ne ..)

theorem kwaitGeu (b : BitVec 5) (a : BitVec 5) (d : BitVec 5) : Statement (.kwaitGeu b a d) := fun _ =>
  roundTrip_hart (w := packHart b a 2 d) rfl (decodeHart_Geu ..)

theorem kwaitReread (h : Nat) : Statement (.kwaitReread h) := fun h => Bool.noConfusion (show false = true from h)

theorem registerResultWrite (who : Agent) (tag : Nat) : Statement (.registerResultWrite who tag) := fun h => Bool.noConfusion (show false = true from h)

theorem yieldExpiry (who : Agent) : Statement (.yieldExpiry who) := fun h => Bool.noConfusion (show false = true from h)

theorem readyAgeMark (who : Agent) : Statement (.readyAgeMark who) := fun h => Bool.noConfusion (show false = true from h)

theorem trapEntry (who : Agent) : Statement (.trapEntry who) := fun h => Bool.noConfusion (show false = true from h)

theorem formerWarpRelease  : Statement .formerWarpRelease := fun h => Bool.noConfusion (show false = true from h)

theorem formerPartialTimeout  : Statement .formerPartialTimeout := fun h => Bool.noConfusion (show false = true from h)

theorem blockStart  : Statement .blockStart := fun h => Bool.noConfusion (show false = true from h)

theorem queuePull (lvl : QLevel) : Statement (.queuePull lvl) := fun h => Bool.noConfusion (show false = true from h)

theorem queueMoveComplete  : Statement .queueMoveComplete := fun h => Bool.noConfusion (show false = true from h)

theorem wqRingRefill (q : Nat) (c : Nat) : Statement (.wqRingRefill q c) := fun h => Bool.noConfusion (show false = true from h)

theorem treeComplete (t : Nat) : Statement (.treeComplete t) := fun h => Bool.noConfusion (show false = true from h)

theorem launch (q : Nat) : Statement (.launch q) := fun h => Bool.noConfusion (show false = true from h)

theorem wait (q : Nat) : Statement (.wait q) := fun h => Bool.noConfusion (show false = true from h)

theorem signal (q : Nat) : Statement (.signal q) := fun h => Bool.noConfusion (show false = true from h)

theorem join (q : Nat) : Statement (.join q) := fun h => Bool.noConfusion (show false = true from h)

theorem cond (q : Nat) : Statement (.cond q) := fun h => Bool.noConfusion (show false = true from h)

theorem patch (q : Nat) : Statement (.patch q) := fun h => Bool.noConfusion (show false = true from h)

theorem doorbell (q : Nat) (v : BitVec 64) : Statement (.doorbell q v) := fun h => Bool.noConfusion (show false = true from h)

theorem kick (g : Nat) (v : BitVec 64) : Statement (.kick g v) := fun h => Bool.noConfusion (show false = true from h)

theorem mapQueue  : Statement .mapQueue := fun h => Bool.noConfusion (show false = true from h)

theorem unmapCtx  : Statement .unmapCtx := fun h => Bool.noConfusion (show false = true from h)

theorem clearError  : Statement .clearError := fun h => Bool.noConfusion (show false = true from h)

theorem preempt  : Statement .preempt := fun h => Bool.noConfusion (show false = true from h)

theorem resume  : Statement .resume := fun h => Bool.noConfusion (show false = true from h)

theorem regGraph  : Statement .regGraph := fun h => Bool.noConfusion (show false = true from h)

theorem inval  : Statement .inval := fun h => Bool.noConfusion (show false = true from h)

theorem copy  : Statement .copy := fun h => Bool.noConfusion (show false = true from h)

theorem checkpoint  : Statement .checkpoint := fun h => Bool.noConfusion (show false = true from h)

theorem restore  : Statement .restore := fun h => Bool.noConfusion (show false = true from h)

theorem badcmd  : Statement .badcmd := fun h => Bool.noConfusion (show false = true from h)

theorem irqmask (hi : Bool) (v : BitVec 64) : Statement (.irqmask hi v) := fun h => Bool.noConfusion (show false = true from h)

theorem pwrcap (v : BitVec 64) : Statement (.pwrcap v) := fun h => Bool.noConfusion (show false = true from h)

theorem registerWrite (off : Nat) (v : BitVec 64) : Statement (.registerWrite off v) := fun h => Bool.noConfusion (show false = true from h)

theorem hostApertureRead (pa : Nat) (n : Nat) : Statement (.hostApertureRead pa n) := fun h => Bool.noConfusion (show false = true from h)

theorem hostApertureWrite (pa : Nat) (bs : List (BitVec 8)) : Statement (.hostApertureWrite pa bs) := fun h => Bool.noConfusion (show false = true from h)

theorem attest (req : BitVec 64) : Statement (.attest req) := fun h => Bool.noConfusion (show false = true from h)

theorem cert (req : BitVec 64) : Statement (.cert req) := fun h => Bool.noConfusion (show false = true from h)

theorem timeSet (req : BitVec 64) : Statement (.timeSet req) := fun h => Bool.noConfusion (show false = true from h)

theorem domainSet (req : BitVec 64) : Statement (.domainSet req) := fun h => Bool.noConfusion (show false = true from h)

theorem grantRange (req : BitVec 64) : Statement (.grantRange req) := fun h => Bool.noConfusion (show false = true from h)

theorem revokeRange (req : BitVec 64) : Statement (.revokeRange req) := fun h => Bool.noConfusion (show false = true from h)

theorem setExportWindow (req : BitVec 64) : Statement (.setExportWindow req) := fun h => Bool.noConfusion (show false = true from h)

theorem unfreezeResume (req : BitVec 64) : Statement (.unfreezeResume req) := fun h => Bool.noConfusion (show false = true from h)

theorem unfreezeReset (req : BitVec 64) : Statement (.unfreezeReset req) := fun h => Bool.noConfusion (show false = true from h)

theorem fwLoad (req : BitVec 64) : Statement (.fwLoad req) := fun h => Bool.noConfusion (show false = true from h)

theorem mailboxBadop (req : BitVec 64) : Statement (.mailboxBadop req) := fun h => Bool.noConfusion (show false = true from h)

theorem fwVerify  : Statement .fwVerify := fun h => Bool.noConfusion (show false = true from h)

theorem moduleReset  : Statement .moduleReset := fun h => Bool.noConfusion (show false = true from h)

theorem trainComplete (t : Training) : Statement (.trainComplete t) := fun h => Bool.noConfusion (show false = true from h)

theorem thermalPreempt (temp : Nat) : Statement (.thermalPreempt temp) := fun h => Bool.noConfusion (show false = true from h)

theorem thermalPowerOff (temp : Nat) : Statement (.thermalPowerOff temp) := fun h => Bool.noConfusion (show false = true from h)

theorem powerCapAdjust (watts : Nat) : Statement (.powerCapAdjust watts) := fun h => Bool.noConfusion (show false = true from h)

theorem timeMessage (t : Nat) : Statement (.timeMessage t) := fun h => Bool.noConfusion (show false = true from h)

theorem timeSyncLoss  : Statement .timeSyncLoss := fun h => Bool.noConfusion (show false = true from h)

theorem heartbeat (m : Nat) : Statement (.heartbeat m) := fun h => Bool.noConfusion (show false = true from h)

theorem heartbeatTimeout (m : Nat) : Statement (.heartbeatTimeout m) := fun h => Bool.noConfusion (show false = true from h)

theorem flitCrcFail (port : Nat) (second : Bool) (id : Nat) : Statement (.flitCrcFail port second id) := fun h => Bool.noConfusion (show false = true from h)

theorem unreachableCompletion (id : Nat) : Statement (.unreachableCompletion id) := fun h => Bool.noConfusion (show false = true from h)

theorem remoteRequest (rq : RemoteReq) : Statement (.remoteRequest rq) := fun h => Bool.noConfusion (show false = true from h)

theorem writeCommit (id : Nat) : Statement (.writeCommit id) := fun h => Bool.noConfusion (show false = true from h)

theorem fwaitRetry (who : Agent) : Statement (.fwaitRetry who) := fun h => Bool.noConfusion (show false = true from h)

theorem writeAck (id : Nat) : Statement (.writeAck id) := fun h => Bool.noConfusion (show false = true from h)

theorem fillRequest (id : Nat) : Statement (.fillRequest id) := fun h => Bool.noConfusion (show false = true from h)

theorem fillReply (id : Nat) : Statement (.fillReply id) := fun h => Bool.noConfusion (show false = true from h)

theorem atomicAtHome (id : Nat) : Statement (.atomicAtHome id) := fun h => Bool.noConfusion (show false = true from h)

theorem mcastRequest (id : Nat) : Statement (.mcastRequest id) := fun h => Bool.noConfusion (show false = true from h)

theorem mcastWindowClose (w : Nat) : Statement (.mcastWindowClose w) := fun h => Bool.noConfusion (show false = true from h)

theorem mcastSlotFree (w : Nat) : Statement (.mcastSlotFree w) := fun h => Bool.noConfusion (show false = true from h)

theorem releasePoint (who : Agent) : Statement (.releasePoint who) := fun h => Bool.noConfusion (show false = true from h)

theorem icinvComplete (who : Agent) : Statement (.icinvComplete who) := fun h => Bool.noConfusion (show false = true from h)

theorem flushComplete (who : Agent) : Statement (.flushComplete who) := fun h => Bool.noConfusion (show false = true from h)

theorem csrwInForce (who : Agent) : Statement (.csrwInForce who) := fun h => Bool.noConfusion (show false = true from h)

theorem watchComplete (who : Agent) : Statement (.watchComplete who) := fun h => Bool.noConfusion (show false = true from h)

theorem unwatchComplete (who : Agent) : Statement (.unwatchComplete who) := fun h => Bool.noConfusion (show false = true from h)

theorem triggerRefill (q : Nat) (c : Nat) : Statement (.triggerRefill q c) := fun h => Bool.noConfusion (show false = true from h)

theorem trigOverflow (q : Nat) (c : Nat) : Statement (.trigOverflow q c) := fun h => Bool.noConfusion (show false = true from h)

theorem triggerDispatch (q : Nat) : Statement (.triggerDispatch q) := fun h => Bool.noConfusion (show false = true from h)

theorem cWritebackDone  : Statement .cWritebackDone := fun h => Bool.noConfusion (show false = true from h)

theorem relocationComplete  : Statement .relocationComplete := fun h => Bool.noConfusion (show false = true from h)

theorem wgrowGrant  : Statement .wgrowGrant := fun h => Bool.noConfusion (show false = true from h)

theorem wshrinkComplete (who : Agent) : Statement (.wshrinkComplete who) := fun h => Bool.noConfusion (show false = true from h)

theorem poolRelComplete (who : Agent) : Statement (.poolRelComplete who) := fun h => Bool.noConfusion (show false = true from h)

theorem passGrant  : Statement .passGrant := fun h => Bool.noConfusion (show false = true from h)

theorem passEnd  : Statement .passEnd := fun h => Bool.noConfusion (show false = true from h)

theorem engineRelease (n : Nat) : Statement (.engineRelease n) := fun h => Bool.noConfusion (show false = true from h)

theorem tileFetch (n : Nat) : Statement (.tileFetch n) := fun h => Bool.noConfusion (show false = true from h)

theorem copyOpStart  : Statement .copyOpStart := fun h => Bool.noConfusion (show false = true from h)

theorem copyOpComplete (id : Nat) : Statement (.copyOpComplete id) := fun h => Bool.noConfusion (show false = true from h)

theorem fgetDecode (who : Agent) : Statement (.fgetDecode who) := fun h => Bool.noConfusion (show false = true from h)

theorem fgetbComplete (id : Nat) : Statement (.fgetbComplete id) := fun h => Bool.noConfusion (show false = true from h)

theorem faultRecordWrite (i : Nat) : Statement (.faultRecordWrite i) := fun h => Bool.noConfusion (show false = true from h)

theorem faultResponse (i : Nat) : Statement (.faultResponse i) := fun h => Bool.noConfusion (show false = true from h)

theorem faultQueueReread (c : Nat) : Statement (.faultQueueReread c) := fun h => Bool.noConfusion (show false = true from h)

theorem eccRetry (site : EccSite) (how : EccEnd) : Statement (.eccRetry site how) := fun h => Bool.noConfusion (show false = true from h)

theorem walkerGrant  : Statement .walkerGrant := fun h => Bool.noConfusion (show false = true from h)

theorem walkComplete (i : Nat) : Statement (.walkComplete i) := fun h => Bool.noConfusion (show false = true from h)

theorem planeSwap  : Statement .planeSwap := fun h => Bool.noConfusion (show false = true from h)

theorem swapEnd  : Statement .swapEnd := fun h => Bool.noConfusion (show false = true from h)

theorem saveComplete  : Statement .saveComplete := fun h => Bool.noConfusion (show false = true from h)

theorem restoreStart (c : Nat) : Statement (.restoreStart c) := fun h => Bool.noConfusion (show false = true from h)

theorem restoreComplete  : Statement .restoreComplete := fun h => Bool.noConfusion (show false = true from h)

theorem engineImageRestore  : Statement .engineImageRestore := fun h => Bool.noConfusion (show false = true from h)

theorem checkpointQuiesce  : Statement .checkpointQuiesce := fun h => Bool.noConfusion (show false = true from h)

theorem quiesced (m : Nat) : Statement (.quiesced m) := fun h => Bool.noConfusion (show false = true from h)

theorem checkpointAbandon  : Statement .checkpointAbandon := fun h => Bool.noConfusion (show false = true from h)

theorem checkpointClose  : Statement .checkpointClose := fun h => Bool.noConfusion (show false = true from h)

theorem restoreReadbackDone  : Statement .restoreReadbackDone := fun h => Bool.noConfusion (show false = true from h)

theorem instructionFetchFill (who : Agent) : Statement (.instructionFetchFill who) := fun h => Bool.noConfusion (show false = true from h)

theorem reservedMajor (w : BitVec 32) : Statement (.reservedMajor w) := fun h => Bool.noConfusion (show false = true from h)

theorem irqstatClear (hi : Bool) (v : BitVec 64) : Statement (.irqstatClear hi v) := fun h => Bool.noConfusion (show false = true from h)

theorem ctxerrClear (v : BitVec 64) : Statement (.ctxerrClear v) := fun h => Bool.noConfusion (show false = true from h)

theorem bringUpStart  : Statement .bringUpStart := fun h => Bool.noConfusion (show false = true from h)

theorem pldmRequest (sel : Nat) : Statement (.pldmRequest sel) := fun h => Bool.noConfusion (show false = true from h)

end Sys2Proof.Laws.RoundTrip
end

