-- ==== Sys2Proof/Laws/State.lean ====
section
/-! SUPPORT. One lemma per field per named update of the state: what the update leaves as it was, and what it changes. -/

namespace Sys2Proof.Machine

open Sys2Proof

variable (s : State)

/-! ## A change of the acting thread -/

@[simp] theorem updTh_coreNo (f : Thread → Thread) : (s.updTh f).coreNo = s.coreNo := rfl
@[simp] theorem updTh_th (f : Thread → Thread) : (s.updTh f).th = f s.th := rfl
@[simp] theorem updTh_sq (f : Thread → Thread) : (s.updTh f).sq = s.sq := rfl
@[simp] theorem updTh_hart (f : Thread → Thread) : (s.updTh f).hart = s.hart := rfl
@[simp] theorem updTh_actor (f : Thread → Thread) : (s.updTh f).actor = s.actor := rfl
@[simp] theorem updTh_turn (f : Thread → Thread) : (s.updTh f).turn = s.turn := rfl
@[simp] theorem updTh_bundle (f : Thread → Thread) : (s.updTh f).bundle = s.bundle := rfl
@[simp] theorem updTh_bundleAll (f : Thread → Thread) : (s.updTh f).bundleAll = s.bundleAll := rfl
@[simp] theorem updTh_bundleNo (f : Thread → Thread) : (s.updTh f).bundleNo = s.bundleNo := rfl
@[simp] theorem updTh_split (f : Thread → Thread) : (s.updTh f).split = s.split := rfl
@[simp] theorem updTh_agenda (f : Thread → Thread) : (s.updTh f).agenda = s.agenda := rfl
@[simp] theorem updTh_clock (f : Thread → Thread) : (s.updTh f).clock = s.clock := rfl
@[simp] theorem updTh_pl (f : Thread → Thread) : (s.updTh f).pl = s.pl := rfl
@[simp] theorem updTh_standby (f : Thread → Thread) : (s.updTh f).standby = s.standby := rfl
@[simp] theorem updTh_swapEnd (f : Thread → Thread) : (s.updTh f).swapEnd = s.swapEnd := rfl
@[simp] theorem updTh_slots (f : Thread → Thread) : (s.updTh f).slots = s.slots := rfl
@[simp] theorem updTh_bankCycles (f : Thread → Thread) : (s.updTh f).bankCycles = s.bankCycles := rfl
@[simp] theorem updTh_epct (f : Thread → Thread) : (s.updTh f).epct = s.epct := rfl
@[simp] theorem updTh_backs (f : Thread → Thread) : (s.updTh f).backs = s.backs := rfl
@[simp] theorem updTh_icache (f : Thread → Thread) : (s.updTh f).icache = s.icache := rfl
@[simp] theorem updTh_icHome (f : Thread → Thread) : (s.updTh f).icHome = s.icHome := rfl
@[simp] theorem updTh_cl (f : Thread → Thread) : (s.updTh f).cl = s.cl := rfl
@[simp] theorem updTh_sched (f : Thread → Thread) : (s.updTh f).sched = s.sched := rfl
@[simp] theorem updTh_ctxs (f : Thread → Thread) : (s.updTh f).ctxs = s.ctxs := rfl
@[simp] theorem updTh_mem (f : Thread → Thread) : (s.updTh f).mem = s.mem := rfl
@[simp] theorem updTh_remote (f : Thread → Thread) : (s.updTh f).remote = s.remote := rfl
@[simp] theorem updTh_remoteEra (f : Thread → Thread) : (s.updTh f).remoteEra = s.remoteEra := rfl
@[simp] theorem updTh_sl (f : Thread → Thread) : (s.updTh f).sl = s.sl := rfl
@[simp] theorem updTh_xl (f : Thread → Thread) : (s.updTh f).xl = s.xl := rfl
@[simp] theorem updTh_cp (f : Thread → Thread) : (s.updTh f).cp = s.cp := rfl
@[simp] theorem updTh_win (f : Thread → Thread) : (s.updTh f).win = s.win := rfl
@[simp] theorem updTh_root (f : Thread → Thread) : (s.updTh f).root = s.root := rfl
@[simp] theorem updTh_ports (f : Thread → Thread) : (s.updTh f).ports = s.ports := rfl
@[simp] theorem updTh_unreachable (f : Thread → Thread) : (s.updTh f).unreachable = s.unreachable := rfl
@[simp] theorem updTh_heard (f : Thread → Thread) : (s.updTh f).heard = s.heard := rfl
@[simp] theorem updTh_lastLost (f : Thread → Thread) : (s.updTh f).lastLost = s.lastLost := rfl
@[simp] theorem updTh_syncLost (f : Thread → Thread) : (s.updTh f).syncLost = s.syncLost := rfl
@[simp] theorem updTh_badPorts (f : Thread → Thread) : (s.updTh f).badPorts = s.badPorts := rfl
@[simp] theorem updTh_closed (f : Thread → Thread) : (s.updTh f).closed = s.closed := rfl
@[simp] theorem updTh_beat (f : Thread → Thread) : (s.updTh f).beat = s.beat := rfl
@[simp] theorem updTh_ckptSet (f : Thread → Thread) : (s.updTh f).ckptSet = s.ckptSet := rfl
@[simp] theorem updTh_ckpt (f : Thread → Thread) : (s.updTh f).ckpt = s.ckpt := rfl
@[simp] theorem updTh_images (f : Thread → Thread) : (s.updTh f).images = s.images := rfl
@[simp] theorem updTh_out (f : Thread → Thread) : (s.updTh f).out = s.out := rfl
@[simp] theorem updTh_powered (f : Thread → Thread) : (s.updTh f).powered = s.powered := rfl
@[simp] theorem updTh_nextId (f : Thread → Thread) : (s.updTh f).nextId = s.nextId := rfl
@[simp] theorem updTh_freeCtr (f : Thread → Thread) : (s.updTh f).freeCtr = s.freeCtr := rfl

/-! ## A change of a context -/

@[simp] theorem updCtx_coreNo (c : Nat) (f : Ctx → Ctx) : (s.updCtx c f).coreNo = s.coreNo := rfl
@[simp] theorem updCtx_th (c : Nat) (f : Ctx → Ctx) : (s.updCtx c f).th = s.th := rfl
@[simp] theorem updCtx_sq (c : Nat) (f : Ctx → Ctx) : (s.updCtx c f).sq = s.sq := rfl
@[simp] theorem updCtx_hart (c : Nat) (f : Ctx → Ctx) : (s.updCtx c f).hart = s.hart := rfl
@[simp] theorem updCtx_actor (c : Nat) (f : Ctx → Ctx) : (s.updCtx c f).actor = s.actor := rfl
@[simp] theorem updCtx_turn (c : Nat) (f : Ctx → Ctx) : (s.updCtx c f).turn = s.turn := rfl
@[simp] theorem updCtx_bundle (c : Nat) (f : Ctx → Ctx) : (s.updCtx c f).bundle = s.bundle := rfl
@[simp] theorem updCtx_bundleAll (c : Nat) (f : Ctx → Ctx) : (s.updCtx c f).bundleAll = s.bundleAll := rfl
@[simp] theorem updCtx_bundleNo (c : Nat) (f : Ctx → Ctx) : (s.updCtx c f).bundleNo = s.bundleNo := rfl
@[simp] theorem updCtx_split (c : Nat) (f : Ctx → Ctx) : (s.updCtx c f).split = s.split := rfl
@[simp] theorem updCtx_agenda (c : Nat) (f : Ctx → Ctx) : (s.updCtx c f).agenda = s.agenda := rfl
@[simp] theorem updCtx_clock (c : Nat) (f : Ctx → Ctx) : (s.updCtx c f).clock = s.clock := rfl
@[simp] theorem updCtx_pl (c : Nat) (f : Ctx → Ctx) : (s.updCtx c f).pl = s.pl := rfl
@[simp] theorem updCtx_standby (c : Nat) (f : Ctx → Ctx) : (s.updCtx c f).standby = s.standby := rfl
@[simp] theorem updCtx_swapEnd (c : Nat) (f : Ctx → Ctx) : (s.updCtx c f).swapEnd = s.swapEnd := rfl
@[simp] theorem updCtx_slots (c : Nat) (f : Ctx → Ctx) : (s.updCtx c f).slots = s.slots := rfl
@[simp] theorem updCtx_bankCycles (c : Nat) (f : Ctx → Ctx) : (s.updCtx c f).bankCycles = s.bankCycles := rfl
@[simp] theorem updCtx_epct (c : Nat) (f : Ctx → Ctx) : (s.updCtx c f).epct = s.epct := rfl
@[simp] theorem updCtx_backs (c : Nat) (f : Ctx → Ctx) : (s.updCtx c f).backs = s.backs := rfl
@[simp] theorem updCtx_icache (c : Nat) (f : Ctx → Ctx) : (s.updCtx c f).icache = s.icache := rfl
@[simp] theorem updCtx_icHome (c : Nat) (f : Ctx → Ctx) : (s.updCtx c f).icHome = s.icHome := rfl
@[simp] theorem updCtx_cl (c : Nat) (f : Ctx → Ctx) : (s.updCtx c f).cl = s.cl := rfl
@[simp] theorem updCtx_sched (c : Nat) (f : Ctx → Ctx) : (s.updCtx c f).sched = s.sched := rfl
@[simp] theorem updCtx_ctxs (c : Nat) (f : Ctx → Ctx) : (s.updCtx c f).ctxs = updIf (·.n == c) f s.ctxs := rfl
@[simp] theorem updCtx_mem (c : Nat) (f : Ctx → Ctx) : (s.updCtx c f).mem = s.mem := rfl
@[simp] theorem updCtx_remote (c : Nat) (f : Ctx → Ctx) : (s.updCtx c f).remote = s.remote := rfl
@[simp] theorem updCtx_remoteEra (c : Nat) (f : Ctx → Ctx) : (s.updCtx c f).remoteEra = s.remoteEra := rfl
@[simp] theorem updCtx_sl (c : Nat) (f : Ctx → Ctx) : (s.updCtx c f).sl = s.sl := rfl
@[simp] theorem updCtx_xl (c : Nat) (f : Ctx → Ctx) : (s.updCtx c f).xl = s.xl := rfl
@[simp] theorem updCtx_cp (c : Nat) (f : Ctx → Ctx) : (s.updCtx c f).cp = s.cp := rfl
@[simp] theorem updCtx_win (c : Nat) (f : Ctx → Ctx) : (s.updCtx c f).win = s.win := rfl
@[simp] theorem updCtx_root (c : Nat) (f : Ctx → Ctx) : (s.updCtx c f).root = s.root := rfl
@[simp] theorem updCtx_ports (c : Nat) (f : Ctx → Ctx) : (s.updCtx c f).ports = s.ports := rfl
@[simp] theorem updCtx_unreachable (c : Nat) (f : Ctx → Ctx) : (s.updCtx c f).unreachable = s.unreachable := rfl
@[simp] theorem updCtx_heard (c : Nat) (f : Ctx → Ctx) : (s.updCtx c f).heard = s.heard := rfl
@[simp] theorem updCtx_lastLost (c : Nat) (f : Ctx → Ctx) : (s.updCtx c f).lastLost = s.lastLost := rfl
@[simp] theorem updCtx_syncLost (c : Nat) (f : Ctx → Ctx) : (s.updCtx c f).syncLost = s.syncLost := rfl
@[simp] theorem updCtx_badPorts (c : Nat) (f : Ctx → Ctx) : (s.updCtx c f).badPorts = s.badPorts := rfl
@[simp] theorem updCtx_closed (c : Nat) (f : Ctx → Ctx) : (s.updCtx c f).closed = s.closed := rfl
@[simp] theorem updCtx_beat (c : Nat) (f : Ctx → Ctx) : (s.updCtx c f).beat = s.beat := rfl
@[simp] theorem updCtx_ckptSet (c : Nat) (f : Ctx → Ctx) : (s.updCtx c f).ckptSet = s.ckptSet := rfl
@[simp] theorem updCtx_ckpt (c : Nat) (f : Ctx → Ctx) : (s.updCtx c f).ckpt = s.ckpt := rfl
@[simp] theorem updCtx_images (c : Nat) (f : Ctx → Ctx) : (s.updCtx c f).images = s.images := rfl
@[simp] theorem updCtx_out (c : Nat) (f : Ctx → Ctx) : (s.updCtx c f).out = s.out := rfl
@[simp] theorem updCtx_powered (c : Nat) (f : Ctx → Ctx) : (s.updCtx c f).powered = s.powered := rfl
@[simp] theorem updCtx_nextId (c : Nat) (f : Ctx → Ctx) : (s.updCtx c f).nextId = s.nextId := rfl
@[simp] theorem updCtx_freeCtr (c : Nat) (f : Ctx → Ctx) : (s.updCtx c f).freeCtr = s.freeCtr := rfl

/-! ## A change of a warp -/

@[simp] theorem updWarp_coreNo (k : Nat) (f : Warp → Warp) : (s.updWarp k f).coreNo = s.coreNo := rfl
@[simp] theorem updWarp_th (k : Nat) (f : Warp → Warp) : (s.updWarp k f).th = s.th := rfl
@[simp] theorem updWarp_sq (k : Nat) (f : Warp → Warp) : (s.updWarp k f).sq = s.sq := rfl
@[simp] theorem updWarp_hart (k : Nat) (f : Warp → Warp) : (s.updWarp k f).hart = s.hart := rfl
@[simp] theorem updWarp_actor (k : Nat) (f : Warp → Warp) : (s.updWarp k f).actor = s.actor := rfl
@[simp] theorem updWarp_turn (k : Nat) (f : Warp → Warp) : (s.updWarp k f).turn = s.turn := rfl
@[simp] theorem updWarp_bundle (k : Nat) (f : Warp → Warp) : (s.updWarp k f).bundle = s.bundle := rfl
@[simp] theorem updWarp_bundleAll (k : Nat) (f : Warp → Warp) : (s.updWarp k f).bundleAll = s.bundleAll := rfl
@[simp] theorem updWarp_bundleNo (k : Nat) (f : Warp → Warp) : (s.updWarp k f).bundleNo = s.bundleNo := rfl
@[simp] theorem updWarp_split (k : Nat) (f : Warp → Warp) : (s.updWarp k f).split = s.split := rfl
@[simp] theorem updWarp_agenda (k : Nat) (f : Warp → Warp) : (s.updWarp k f).agenda = s.agenda := rfl
@[simp] theorem updWarp_clock (k : Nat) (f : Warp → Warp) : (s.updWarp k f).clock = s.clock := rfl
@[simp] theorem updWarp_pl (k : Nat) (f : Warp → Warp) : (s.updWarp k f).pl = { s.pl with warps := updIf (·.slot == k) f s.pl.warps } := rfl
@[simp] theorem updWarp_standby (k : Nat) (f : Warp → Warp) : (s.updWarp k f).standby = s.standby := rfl
@[simp] theorem updWarp_swapEnd (k : Nat) (f : Warp → Warp) : (s.updWarp k f).swapEnd = s.swapEnd := rfl
@[simp] theorem updWarp_slots (k : Nat) (f : Warp → Warp) : (s.updWarp k f).slots = s.slots := rfl
@[simp] theorem updWarp_bankCycles (k : Nat) (f : Warp → Warp) : (s.updWarp k f).bankCycles = s.bankCycles := rfl
@[simp] theorem updWarp_epct (k : Nat) (f : Warp → Warp) : (s.updWarp k f).epct = s.epct := rfl
@[simp] theorem updWarp_backs (k : Nat) (f : Warp → Warp) : (s.updWarp k f).backs = s.backs := rfl
@[simp] theorem updWarp_icache (k : Nat) (f : Warp → Warp) : (s.updWarp k f).icache = s.icache := rfl
@[simp] theorem updWarp_icHome (k : Nat) (f : Warp → Warp) : (s.updWarp k f).icHome = s.icHome := rfl
@[simp] theorem updWarp_cl (k : Nat) (f : Warp → Warp) : (s.updWarp k f).cl = s.cl := rfl
@[simp] theorem updWarp_sched (k : Nat) (f : Warp → Warp) : (s.updWarp k f).sched = s.sched := rfl
@[simp] theorem updWarp_ctxs (k : Nat) (f : Warp → Warp) : (s.updWarp k f).ctxs = s.ctxs := rfl
@[simp] theorem updWarp_mem (k : Nat) (f : Warp → Warp) : (s.updWarp k f).mem = s.mem := rfl
@[simp] theorem updWarp_remote (k : Nat) (f : Warp → Warp) : (s.updWarp k f).remote = s.remote := rfl
@[simp] theorem updWarp_remoteEra (k : Nat) (f : Warp → Warp) : (s.updWarp k f).remoteEra = s.remoteEra := rfl
@[simp] theorem updWarp_sl (k : Nat) (f : Warp → Warp) : (s.updWarp k f).sl = s.sl := rfl
@[simp] theorem updWarp_xl (k : Nat) (f : Warp → Warp) : (s.updWarp k f).xl = s.xl := rfl
@[simp] theorem updWarp_cp (k : Nat) (f : Warp → Warp) : (s.updWarp k f).cp = s.cp := rfl
@[simp] theorem updWarp_win (k : Nat) (f : Warp → Warp) : (s.updWarp k f).win = s.win := rfl
@[simp] theorem updWarp_root (k : Nat) (f : Warp → Warp) : (s.updWarp k f).root = s.root := rfl
@[simp] theorem updWarp_ports (k : Nat) (f : Warp → Warp) : (s.updWarp k f).ports = s.ports := rfl
@[simp] theorem updWarp_unreachable (k : Nat) (f : Warp → Warp) : (s.updWarp k f).unreachable = s.unreachable := rfl
@[simp] theorem updWarp_heard (k : Nat) (f : Warp → Warp) : (s.updWarp k f).heard = s.heard := rfl
@[simp] theorem updWarp_lastLost (k : Nat) (f : Warp → Warp) : (s.updWarp k f).lastLost = s.lastLost := rfl
@[simp] theorem updWarp_syncLost (k : Nat) (f : Warp → Warp) : (s.updWarp k f).syncLost = s.syncLost := rfl
@[simp] theorem updWarp_badPorts (k : Nat) (f : Warp → Warp) : (s.updWarp k f).badPorts = s.badPorts := rfl
@[simp] theorem updWarp_closed (k : Nat) (f : Warp → Warp) : (s.updWarp k f).closed = s.closed := rfl
@[simp] theorem updWarp_beat (k : Nat) (f : Warp → Warp) : (s.updWarp k f).beat = s.beat := rfl
@[simp] theorem updWarp_ckptSet (k : Nat) (f : Warp → Warp) : (s.updWarp k f).ckptSet = s.ckptSet := rfl
@[simp] theorem updWarp_ckpt (k : Nat) (f : Warp → Warp) : (s.updWarp k f).ckpt = s.ckpt := rfl
@[simp] theorem updWarp_images (k : Nat) (f : Warp → Warp) : (s.updWarp k f).images = s.images := rfl
@[simp] theorem updWarp_out (k : Nat) (f : Warp → Warp) : (s.updWarp k f).out = s.out := rfl
@[simp] theorem updWarp_powered (k : Nat) (f : Warp → Warp) : (s.updWarp k f).powered = s.powered := rfl
@[simp] theorem updWarp_nextId (k : Nat) (f : Warp → Warp) : (s.updWarp k f).nextId = s.nextId := rfl
@[simp] theorem updWarp_freeCtr (k : Nat) (f : Warp → Warp) : (s.updWarp k f).freeCtr = s.freeCtr := rfl

/-! ## A change of a block -/

@[simp] theorem updBlock_coreNo (h : Nat) (f : Block → Block) : (s.updBlock h f).coreNo = s.coreNo := rfl
@[simp] theorem updBlock_th (h : Nat) (f : Block → Block) : (s.updBlock h f).th = s.th := rfl
@[simp] theorem updBlock_sq (h : Nat) (f : Block → Block) : (s.updBlock h f).sq = s.sq := rfl
@[simp] theorem updBlock_hart (h : Nat) (f : Block → Block) : (s.updBlock h f).hart = s.hart := rfl
@[simp] theorem updBlock_actor (h : Nat) (f : Block → Block) : (s.updBlock h f).actor = s.actor := rfl
@[simp] theorem updBlock_turn (h : Nat) (f : Block → Block) : (s.updBlock h f).turn = s.turn := rfl
@[simp] theorem updBlock_bundle (h : Nat) (f : Block → Block) : (s.updBlock h f).bundle = s.bundle := rfl
@[simp] theorem updBlock_bundleAll (h : Nat) (f : Block → Block) : (s.updBlock h f).bundleAll = s.bundleAll := rfl
@[simp] theorem updBlock_bundleNo (h : Nat) (f : Block → Block) : (s.updBlock h f).bundleNo = s.bundleNo := rfl
@[simp] theorem updBlock_split (h : Nat) (f : Block → Block) : (s.updBlock h f).split = s.split := rfl
@[simp] theorem updBlock_agenda (h : Nat) (f : Block → Block) : (s.updBlock h f).agenda = s.agenda := rfl
@[simp] theorem updBlock_clock (h : Nat) (f : Block → Block) : (s.updBlock h f).clock = s.clock := rfl
@[simp] theorem updBlock_pl (h : Nat) (f : Block → Block) : (s.updBlock h f).pl = { s.pl with blocks := updIf (·.handle == h) f s.pl.blocks } := rfl
@[simp] theorem updBlock_standby (h : Nat) (f : Block → Block) : (s.updBlock h f).standby = s.standby := rfl
@[simp] theorem updBlock_swapEnd (h : Nat) (f : Block → Block) : (s.updBlock h f).swapEnd = s.swapEnd := rfl
@[simp] theorem updBlock_slots (h : Nat) (f : Block → Block) : (s.updBlock h f).slots = s.slots := rfl
@[simp] theorem updBlock_bankCycles (h : Nat) (f : Block → Block) : (s.updBlock h f).bankCycles = s.bankCycles := rfl
@[simp] theorem updBlock_epct (h : Nat) (f : Block → Block) : (s.updBlock h f).epct = s.epct := rfl
@[simp] theorem updBlock_backs (h : Nat) (f : Block → Block) : (s.updBlock h f).backs = s.backs := rfl
@[simp] theorem updBlock_icache (h : Nat) (f : Block → Block) : (s.updBlock h f).icache = s.icache := rfl
@[simp] theorem updBlock_icHome (h : Nat) (f : Block → Block) : (s.updBlock h f).icHome = s.icHome := rfl
@[simp] theorem updBlock_cl (h : Nat) (f : Block → Block) : (s.updBlock h f).cl = s.cl := rfl
@[simp] theorem updBlock_sched (h : Nat) (f : Block → Block) : (s.updBlock h f).sched = s.sched := rfl
@[simp] theorem updBlock_ctxs (h : Nat) (f : Block → Block) : (s.updBlock h f).ctxs = s.ctxs := rfl
@[simp] theorem updBlock_mem (h : Nat) (f : Block → Block) : (s.updBlock h f).mem = s.mem := rfl
@[simp] theorem updBlock_remote (h : Nat) (f : Block → Block) : (s.updBlock h f).remote = s.remote := rfl
@[simp] theorem updBlock_remoteEra (h : Nat) (f : Block → Block) : (s.updBlock h f).remoteEra = s.remoteEra := rfl
@[simp] theorem updBlock_sl (h : Nat) (f : Block → Block) : (s.updBlock h f).sl = s.sl := rfl
@[simp] theorem updBlock_xl (h : Nat) (f : Block → Block) : (s.updBlock h f).xl = s.xl := rfl
@[simp] theorem updBlock_cp (h : Nat) (f : Block → Block) : (s.updBlock h f).cp = s.cp := rfl
@[simp] theorem updBlock_win (h : Nat) (f : Block → Block) : (s.updBlock h f).win = s.win := rfl
@[simp] theorem updBlock_root (h : Nat) (f : Block → Block) : (s.updBlock h f).root = s.root := rfl
@[simp] theorem updBlock_ports (h : Nat) (f : Block → Block) : (s.updBlock h f).ports = s.ports := rfl
@[simp] theorem updBlock_unreachable (h : Nat) (f : Block → Block) : (s.updBlock h f).unreachable = s.unreachable := rfl
@[simp] theorem updBlock_heard (h : Nat) (f : Block → Block) : (s.updBlock h f).heard = s.heard := rfl
@[simp] theorem updBlock_lastLost (h : Nat) (f : Block → Block) : (s.updBlock h f).lastLost = s.lastLost := rfl
@[simp] theorem updBlock_syncLost (h : Nat) (f : Block → Block) : (s.updBlock h f).syncLost = s.syncLost := rfl
@[simp] theorem updBlock_badPorts (h : Nat) (f : Block → Block) : (s.updBlock h f).badPorts = s.badPorts := rfl
@[simp] theorem updBlock_closed (h : Nat) (f : Block → Block) : (s.updBlock h f).closed = s.closed := rfl
@[simp] theorem updBlock_beat (h : Nat) (f : Block → Block) : (s.updBlock h f).beat = s.beat := rfl
@[simp] theorem updBlock_ckptSet (h : Nat) (f : Block → Block) : (s.updBlock h f).ckptSet = s.ckptSet := rfl
@[simp] theorem updBlock_ckpt (h : Nat) (f : Block → Block) : (s.updBlock h f).ckpt = s.ckpt := rfl
@[simp] theorem updBlock_images (h : Nat) (f : Block → Block) : (s.updBlock h f).images = s.images := rfl
@[simp] theorem updBlock_out (h : Nat) (f : Block → Block) : (s.updBlock h f).out = s.out := rfl
@[simp] theorem updBlock_powered (h : Nat) (f : Block → Block) : (s.updBlock h f).powered = s.powered := rfl
@[simp] theorem updBlock_nextId (h : Nat) (f : Block → Block) : (s.updBlock h f).nextId = s.nextId := rfl
@[simp] theorem updBlock_freeCtr (h : Nat) (f : Block → Block) : (s.updBlock h f).freeCtr = s.freeCtr := rfl

/-! ## A change of living threads -/

@[simp] theorem updThreads_coreNo (p : Thread → Bool) (f : Thread → Thread) : (s.updThreads p f).coreNo = s.coreNo := rfl
@[simp] theorem updThreads_th (p : Thread → Bool) (f : Thread → Thread) : (s.updThreads p f).th = if s.th.live && p s.th then f s.th else s.th := rfl
@[simp] theorem updThreads_sq (p : Thread → Bool) (f : Thread → Thread) : (s.updThreads p f).sq = s.sq := rfl
@[simp] theorem updThreads_hart (p : Thread → Bool) (f : Thread → Thread) : (s.updThreads p f).hart = s.hart := rfl
@[simp] theorem updThreads_actor (p : Thread → Bool) (f : Thread → Thread) : (s.updThreads p f).actor = s.actor := rfl
@[simp] theorem updThreads_turn (p : Thread → Bool) (f : Thread → Thread) : (s.updThreads p f).turn = s.turn := rfl
@[simp] theorem updThreads_bundle (p : Thread → Bool) (f : Thread → Thread) : (s.updThreads p f).bundle = s.bundle := rfl
@[simp] theorem updThreads_bundleAll (p : Thread → Bool) (f : Thread → Thread) : (s.updThreads p f).bundleAll = s.bundleAll := rfl
@[simp] theorem updThreads_bundleNo (p : Thread → Bool) (f : Thread → Thread) : (s.updThreads p f).bundleNo = s.bundleNo := rfl
@[simp] theorem updThreads_split (p : Thread → Bool) (f : Thread → Thread) : (s.updThreads p f).split = s.split := rfl
@[simp] theorem updThreads_agenda (p : Thread → Bool) (f : Thread → Thread) : (s.updThreads p f).agenda = s.agenda := rfl
@[simp] theorem updThreads_clock (p : Thread → Bool) (f : Thread → Thread) : (s.updThreads p f).clock = s.clock := rfl
@[simp] theorem updThreads_pl (p : Thread → Bool) (f : Thread → Thread) : (s.updThreads p f).pl = { s.pl with threads := updIf p f s.pl.threads } := rfl
@[simp] theorem updThreads_standby (p : Thread → Bool) (f : Thread → Thread) : (s.updThreads p f).standby = s.standby := rfl
@[simp] theorem updThreads_swapEnd (p : Thread → Bool) (f : Thread → Thread) : (s.updThreads p f).swapEnd = s.swapEnd := rfl
@[simp] theorem updThreads_slots (p : Thread → Bool) (f : Thread → Thread) : (s.updThreads p f).slots = s.slots := rfl
@[simp] theorem updThreads_bankCycles (p : Thread → Bool) (f : Thread → Thread) : (s.updThreads p f).bankCycles = s.bankCycles := rfl
@[simp] theorem updThreads_epct (p : Thread → Bool) (f : Thread → Thread) : (s.updThreads p f).epct = s.epct := rfl
@[simp] theorem updThreads_backs (p : Thread → Bool) (f : Thread → Thread) : (s.updThreads p f).backs = s.backs := rfl
@[simp] theorem updThreads_icache (p : Thread → Bool) (f : Thread → Thread) : (s.updThreads p f).icache = s.icache := rfl
@[simp] theorem updThreads_icHome (p : Thread → Bool) (f : Thread → Thread) : (s.updThreads p f).icHome = s.icHome := rfl
@[simp] theorem updThreads_cl (p : Thread → Bool) (f : Thread → Thread) : (s.updThreads p f).cl = s.cl := rfl
@[simp] theorem updThreads_sched (p : Thread → Bool) (f : Thread → Thread) : (s.updThreads p f).sched = s.sched := rfl
@[simp] theorem updThreads_ctxs (p : Thread → Bool) (f : Thread → Thread) : (s.updThreads p f).ctxs = s.ctxs := rfl
@[simp] theorem updThreads_mem (p : Thread → Bool) (f : Thread → Thread) : (s.updThreads p f).mem = s.mem := rfl
@[simp] theorem updThreads_remote (p : Thread → Bool) (f : Thread → Thread) : (s.updThreads p f).remote = s.remote := rfl
@[simp] theorem updThreads_remoteEra (p : Thread → Bool) (f : Thread → Thread) : (s.updThreads p f).remoteEra = s.remoteEra := rfl
@[simp] theorem updThreads_sl (p : Thread → Bool) (f : Thread → Thread) : (s.updThreads p f).sl = s.sl := rfl
@[simp] theorem updThreads_xl (p : Thread → Bool) (f : Thread → Thread) : (s.updThreads p f).xl = s.xl := rfl
@[simp] theorem updThreads_cp (p : Thread → Bool) (f : Thread → Thread) : (s.updThreads p f).cp = s.cp := rfl
@[simp] theorem updThreads_win (p : Thread → Bool) (f : Thread → Thread) : (s.updThreads p f).win = s.win := rfl
@[simp] theorem updThreads_root (p : Thread → Bool) (f : Thread → Thread) : (s.updThreads p f).root = s.root := rfl
@[simp] theorem updThreads_ports (p : Thread → Bool) (f : Thread → Thread) : (s.updThreads p f).ports = s.ports := rfl
@[simp] theorem updThreads_unreachable (p : Thread → Bool) (f : Thread → Thread) : (s.updThreads p f).unreachable = s.unreachable := rfl
@[simp] theorem updThreads_heard (p : Thread → Bool) (f : Thread → Thread) : (s.updThreads p f).heard = s.heard := rfl
@[simp] theorem updThreads_lastLost (p : Thread → Bool) (f : Thread → Thread) : (s.updThreads p f).lastLost = s.lastLost := rfl
@[simp] theorem updThreads_syncLost (p : Thread → Bool) (f : Thread → Thread) : (s.updThreads p f).syncLost = s.syncLost := rfl
@[simp] theorem updThreads_badPorts (p : Thread → Bool) (f : Thread → Thread) : (s.updThreads p f).badPorts = s.badPorts := rfl
@[simp] theorem updThreads_closed (p : Thread → Bool) (f : Thread → Thread) : (s.updThreads p f).closed = s.closed := rfl
@[simp] theorem updThreads_beat (p : Thread → Bool) (f : Thread → Thread) : (s.updThreads p f).beat = s.beat := rfl
@[simp] theorem updThreads_ckptSet (p : Thread → Bool) (f : Thread → Thread) : (s.updThreads p f).ckptSet = s.ckptSet := rfl
@[simp] theorem updThreads_ckpt (p : Thread → Bool) (f : Thread → Thread) : (s.updThreads p f).ckpt = s.ckpt := rfl
@[simp] theorem updThreads_images (p : Thread → Bool) (f : Thread → Thread) : (s.updThreads p f).images = s.images := rfl
@[simp] theorem updThreads_out (p : Thread → Bool) (f : Thread → Thread) : (s.updThreads p f).out = s.out := rfl
@[simp] theorem updThreads_powered (p : Thread → Bool) (f : Thread → Thread) : (s.updThreads p f).powered = s.powered := rfl
@[simp] theorem updThreads_nextId (p : Thread → Bool) (f : Thread → Thread) : (s.updThreads p f).nextId = s.nextId := rfl
@[simp] theorem updThreads_freeCtr (p : Thread → Bool) (f : Thread → Thread) : (s.updThreads p f).freeCtr = s.freeCtr := rfl

/-! ## A change of sequencer contexts -/

@[simp] theorem updSeqs_coreNo (p : SeqCtx → Bool) (f : SeqCtx → SeqCtx) : (s.updSeqs p f).coreNo = s.coreNo := rfl
@[simp] theorem updSeqs_th (p : SeqCtx → Bool) (f : SeqCtx → SeqCtx) : (s.updSeqs p f).th = s.th := rfl
@[simp] theorem updSeqs_sq (p : SeqCtx → Bool) (f : SeqCtx → SeqCtx) : (s.updSeqs p f).sq = if s.sq.held && p s.sq then f s.sq else s.sq := rfl
@[simp] theorem updSeqs_hart (p : SeqCtx → Bool) (f : SeqCtx → SeqCtx) : (s.updSeqs p f).hart = s.hart := rfl
@[simp] theorem updSeqs_actor (p : SeqCtx → Bool) (f : SeqCtx → SeqCtx) : (s.updSeqs p f).actor = s.actor := rfl
@[simp] theorem updSeqs_turn (p : SeqCtx → Bool) (f : SeqCtx → SeqCtx) : (s.updSeqs p f).turn = s.turn := rfl
@[simp] theorem updSeqs_bundle (p : SeqCtx → Bool) (f : SeqCtx → SeqCtx) : (s.updSeqs p f).bundle = s.bundle := rfl
@[simp] theorem updSeqs_bundleAll (p : SeqCtx → Bool) (f : SeqCtx → SeqCtx) : (s.updSeqs p f).bundleAll = s.bundleAll := rfl
@[simp] theorem updSeqs_bundleNo (p : SeqCtx → Bool) (f : SeqCtx → SeqCtx) : (s.updSeqs p f).bundleNo = s.bundleNo := rfl
@[simp] theorem updSeqs_split (p : SeqCtx → Bool) (f : SeqCtx → SeqCtx) : (s.updSeqs p f).split = s.split := rfl
@[simp] theorem updSeqs_agenda (p : SeqCtx → Bool) (f : SeqCtx → SeqCtx) : (s.updSeqs p f).agenda = s.agenda := rfl
@[simp] theorem updSeqs_clock (p : SeqCtx → Bool) (f : SeqCtx → SeqCtx) : (s.updSeqs p f).clock = s.clock := rfl
@[simp] theorem updSeqs_pl (p : SeqCtx → Bool) (f : SeqCtx → SeqCtx) : (s.updSeqs p f).pl = s.pl := rfl
@[simp] theorem updSeqs_standby (p : SeqCtx → Bool) (f : SeqCtx → SeqCtx) : (s.updSeqs p f).standby = s.standby := rfl
@[simp] theorem updSeqs_swapEnd (p : SeqCtx → Bool) (f : SeqCtx → SeqCtx) : (s.updSeqs p f).swapEnd = s.swapEnd := rfl
@[simp] theorem updSeqs_slots (p : SeqCtx → Bool) (f : SeqCtx → SeqCtx) : (s.updSeqs p f).slots = s.slots := rfl
@[simp] theorem updSeqs_bankCycles (p : SeqCtx → Bool) (f : SeqCtx → SeqCtx) : (s.updSeqs p f).bankCycles = s.bankCycles := rfl
@[simp] theorem updSeqs_epct (p : SeqCtx → Bool) (f : SeqCtx → SeqCtx) : (s.updSeqs p f).epct = s.epct := rfl
@[simp] theorem updSeqs_backs (p : SeqCtx → Bool) (f : SeqCtx → SeqCtx) : (s.updSeqs p f).backs = s.backs := rfl
@[simp] theorem updSeqs_icache (p : SeqCtx → Bool) (f : SeqCtx → SeqCtx) : (s.updSeqs p f).icache = s.icache := rfl
@[simp] theorem updSeqs_icHome (p : SeqCtx → Bool) (f : SeqCtx → SeqCtx) : (s.updSeqs p f).icHome = s.icHome := rfl
@[simp] theorem updSeqs_cl (p : SeqCtx → Bool) (f : SeqCtx → SeqCtx) : (s.updSeqs p f).cl = { s.cl with seqs := updIf p f s.cl.seqs } := rfl
@[simp] theorem updSeqs_sched (p : SeqCtx → Bool) (f : SeqCtx → SeqCtx) : (s.updSeqs p f).sched = s.sched := rfl
@[simp] theorem updSeqs_ctxs (p : SeqCtx → Bool) (f : SeqCtx → SeqCtx) : (s.updSeqs p f).ctxs = s.ctxs := rfl
@[simp] theorem updSeqs_mem (p : SeqCtx → Bool) (f : SeqCtx → SeqCtx) : (s.updSeqs p f).mem = s.mem := rfl
@[simp] theorem updSeqs_remote (p : SeqCtx → Bool) (f : SeqCtx → SeqCtx) : (s.updSeqs p f).remote = s.remote := rfl
@[simp] theorem updSeqs_remoteEra (p : SeqCtx → Bool) (f : SeqCtx → SeqCtx) : (s.updSeqs p f).remoteEra = s.remoteEra := rfl
@[simp] theorem updSeqs_sl (p : SeqCtx → Bool) (f : SeqCtx → SeqCtx) : (s.updSeqs p f).sl = s.sl := rfl
@[simp] theorem updSeqs_xl (p : SeqCtx → Bool) (f : SeqCtx → SeqCtx) : (s.updSeqs p f).xl = s.xl := rfl
@[simp] theorem updSeqs_cp (p : SeqCtx → Bool) (f : SeqCtx → SeqCtx) : (s.updSeqs p f).cp = s.cp := rfl
@[simp] theorem updSeqs_win (p : SeqCtx → Bool) (f : SeqCtx → SeqCtx) : (s.updSeqs p f).win = s.win := rfl
@[simp] theorem updSeqs_root (p : SeqCtx → Bool) (f : SeqCtx → SeqCtx) : (s.updSeqs p f).root = s.root := rfl
@[simp] theorem updSeqs_ports (p : SeqCtx → Bool) (f : SeqCtx → SeqCtx) : (s.updSeqs p f).ports = s.ports := rfl
@[simp] theorem updSeqs_unreachable (p : SeqCtx → Bool) (f : SeqCtx → SeqCtx) : (s.updSeqs p f).unreachable = s.unreachable := rfl
@[simp] theorem updSeqs_heard (p : SeqCtx → Bool) (f : SeqCtx → SeqCtx) : (s.updSeqs p f).heard = s.heard := rfl
@[simp] theorem updSeqs_lastLost (p : SeqCtx → Bool) (f : SeqCtx → SeqCtx) : (s.updSeqs p f).lastLost = s.lastLost := rfl
@[simp] theorem updSeqs_syncLost (p : SeqCtx → Bool) (f : SeqCtx → SeqCtx) : (s.updSeqs p f).syncLost = s.syncLost := rfl
@[simp] theorem updSeqs_badPorts (p : SeqCtx → Bool) (f : SeqCtx → SeqCtx) : (s.updSeqs p f).badPorts = s.badPorts := rfl
@[simp] theorem updSeqs_closed (p : SeqCtx → Bool) (f : SeqCtx → SeqCtx) : (s.updSeqs p f).closed = s.closed := rfl
@[simp] theorem updSeqs_beat (p : SeqCtx → Bool) (f : SeqCtx → SeqCtx) : (s.updSeqs p f).beat = s.beat := rfl
@[simp] theorem updSeqs_ckptSet (p : SeqCtx → Bool) (f : SeqCtx → SeqCtx) : (s.updSeqs p f).ckptSet = s.ckptSet := rfl
@[simp] theorem updSeqs_ckpt (p : SeqCtx → Bool) (f : SeqCtx → SeqCtx) : (s.updSeqs p f).ckpt = s.ckpt := rfl
@[simp] theorem updSeqs_images (p : SeqCtx → Bool) (f : SeqCtx → SeqCtx) : (s.updSeqs p f).images = s.images := rfl
@[simp] theorem updSeqs_out (p : SeqCtx → Bool) (f : SeqCtx → SeqCtx) : (s.updSeqs p f).out = s.out := rfl
@[simp] theorem updSeqs_powered (p : SeqCtx → Bool) (f : SeqCtx → SeqCtx) : (s.updSeqs p f).powered = s.powered := rfl
@[simp] theorem updSeqs_nextId (p : SeqCtx → Bool) (f : SeqCtx → SeqCtx) : (s.updSeqs p f).nextId = s.nextId := rfl
@[simp] theorem updSeqs_freeCtr (p : SeqCtx → Bool) (f : SeqCtx → SeqCtx) : (s.updSeqs p f).freeCtr = s.freeCtr := rfl

/-! ## A fresh number -/

@[simp] theorem fresh_coreNo  : (s.fresh.2).coreNo = s.coreNo := rfl
@[simp] theorem fresh_th  : (s.fresh.2).th = s.th := rfl
@[simp] theorem fresh_sq  : (s.fresh.2).sq = s.sq := rfl
@[simp] theorem fresh_hart  : (s.fresh.2).hart = s.hart := rfl
@[simp] theorem fresh_actor  : (s.fresh.2).actor = s.actor := rfl
@[simp] theorem fresh_turn  : (s.fresh.2).turn = s.turn := rfl
@[simp] theorem fresh_bundle  : (s.fresh.2).bundle = s.bundle := rfl
@[simp] theorem fresh_bundleAll  : (s.fresh.2).bundleAll = s.bundleAll := rfl
@[simp] theorem fresh_bundleNo  : (s.fresh.2).bundleNo = s.bundleNo := rfl
@[simp] theorem fresh_split  : (s.fresh.2).split = s.split := rfl
@[simp] theorem fresh_agenda  : (s.fresh.2).agenda = s.agenda := rfl
@[simp] theorem fresh_clock  : (s.fresh.2).clock = s.clock := rfl
@[simp] theorem fresh_pl  : (s.fresh.2).pl = s.pl := rfl
@[simp] theorem fresh_standby  : (s.fresh.2).standby = s.standby := rfl
@[simp] theorem fresh_swapEnd  : (s.fresh.2).swapEnd = s.swapEnd := rfl
@[simp] theorem fresh_slots  : (s.fresh.2).slots = s.slots := rfl
@[simp] theorem fresh_bankCycles  : (s.fresh.2).bankCycles = s.bankCycles := rfl
@[simp] theorem fresh_epct  : (s.fresh.2).epct = s.epct := rfl
@[simp] theorem fresh_backs  : (s.fresh.2).backs = s.backs := rfl
@[simp] theorem fresh_icache  : (s.fresh.2).icache = s.icache := rfl
@[simp] theorem fresh_icHome  : (s.fresh.2).icHome = s.icHome := rfl
@[simp] theorem fresh_cl  : (s.fresh.2).cl = s.cl := rfl
@[simp] theorem fresh_sched  : (s.fresh.2).sched = s.sched := rfl
@[simp] theorem fresh_ctxs  : (s.fresh.2).ctxs = s.ctxs := rfl
@[simp] theorem fresh_mem  : (s.fresh.2).mem = s.mem := rfl
@[simp] theorem fresh_remote  : (s.fresh.2).remote = s.remote := rfl
@[simp] theorem fresh_remoteEra  : (s.fresh.2).remoteEra = s.remoteEra := rfl
@[simp] theorem fresh_sl  : (s.fresh.2).sl = s.sl := rfl
@[simp] theorem fresh_xl  : (s.fresh.2).xl = s.xl := rfl
@[simp] theorem fresh_cp  : (s.fresh.2).cp = s.cp := rfl
@[simp] theorem fresh_win  : (s.fresh.2).win = s.win := rfl
@[simp] theorem fresh_root  : (s.fresh.2).root = s.root := rfl
@[simp] theorem fresh_ports  : (s.fresh.2).ports = s.ports := rfl
@[simp] theorem fresh_unreachable  : (s.fresh.2).unreachable = s.unreachable := rfl
@[simp] theorem fresh_heard  : (s.fresh.2).heard = s.heard := rfl
@[simp] theorem fresh_lastLost  : (s.fresh.2).lastLost = s.lastLost := rfl
@[simp] theorem fresh_syncLost  : (s.fresh.2).syncLost = s.syncLost := rfl
@[simp] theorem fresh_badPorts  : (s.fresh.2).badPorts = s.badPorts := rfl
@[simp] theorem fresh_closed  : (s.fresh.2).closed = s.closed := rfl
@[simp] theorem fresh_beat  : (s.fresh.2).beat = s.beat := rfl
@[simp] theorem fresh_ckptSet  : (s.fresh.2).ckptSet = s.ckptSet := rfl
@[simp] theorem fresh_ckpt  : (s.fresh.2).ckpt = s.ckpt := rfl
@[simp] theorem fresh_images  : (s.fresh.2).images = s.images := rfl
@[simp] theorem fresh_out  : (s.fresh.2).out = s.out := rfl
@[simp] theorem fresh_powered  : (s.fresh.2).powered = s.powered := rfl
@[simp] theorem fresh_nextId  : (s.fresh.2).nextId = s.nextId + 1 := rfl
@[simp] theorem fresh_freeCtr  : (s.fresh.2).freeCtr = s.freeCtr := rfl

@[simp] theorem fresh_number : s.fresh.1 = s.nextId := rfl

/-! ## A free value -/

@[simp] theorem draw_coreNo  : (s.draw.2).coreNo = s.coreNo := rfl
@[simp] theorem draw_th  : (s.draw.2).th = s.th := rfl
@[simp] theorem draw_sq  : (s.draw.2).sq = s.sq := rfl
@[simp] theorem draw_hart  : (s.draw.2).hart = s.hart := rfl
@[simp] theorem draw_actor  : (s.draw.2).actor = s.actor := rfl
@[simp] theorem draw_turn  : (s.draw.2).turn = s.turn := rfl
@[simp] theorem draw_bundle  : (s.draw.2).bundle = s.bundle := rfl
@[simp] theorem draw_bundleAll  : (s.draw.2).bundleAll = s.bundleAll := rfl
@[simp] theorem draw_bundleNo  : (s.draw.2).bundleNo = s.bundleNo := rfl
@[simp] theorem draw_split  : (s.draw.2).split = s.split := rfl
@[simp] theorem draw_agenda  : (s.draw.2).agenda = s.agenda := rfl
@[simp] theorem draw_clock  : (s.draw.2).clock = s.clock := rfl
@[simp] theorem draw_pl  : (s.draw.2).pl = s.pl := rfl
@[simp] theorem draw_standby  : (s.draw.2).standby = s.standby := rfl
@[simp] theorem draw_swapEnd  : (s.draw.2).swapEnd = s.swapEnd := rfl
@[simp] theorem draw_slots  : (s.draw.2).slots = s.slots := rfl
@[simp] theorem draw_bankCycles  : (s.draw.2).bankCycles = s.bankCycles := rfl
@[simp] theorem draw_epct  : (s.draw.2).epct = s.epct := rfl
@[simp] theorem draw_backs  : (s.draw.2).backs = s.backs := rfl
@[simp] theorem draw_icache  : (s.draw.2).icache = s.icache := rfl
@[simp] theorem draw_icHome  : (s.draw.2).icHome = s.icHome := rfl
@[simp] theorem draw_cl  : (s.draw.2).cl = s.cl := rfl
@[simp] theorem draw_sched  : (s.draw.2).sched = s.sched := rfl
@[simp] theorem draw_ctxs  : (s.draw.2).ctxs = s.ctxs := rfl
@[simp] theorem draw_mem  : (s.draw.2).mem = s.mem := rfl
@[simp] theorem draw_remote  : (s.draw.2).remote = s.remote := rfl
@[simp] theorem draw_remoteEra  : (s.draw.2).remoteEra = s.remoteEra := rfl
@[simp] theorem draw_sl  : (s.draw.2).sl = s.sl := rfl
@[simp] theorem draw_xl  : (s.draw.2).xl = s.xl := rfl
@[simp] theorem draw_cp  : (s.draw.2).cp = s.cp := rfl
@[simp] theorem draw_win  : (s.draw.2).win = s.win := rfl
@[simp] theorem draw_root  : (s.draw.2).root = s.root := rfl
@[simp] theorem draw_ports  : (s.draw.2).ports = s.ports := rfl
@[simp] theorem draw_unreachable  : (s.draw.2).unreachable = s.unreachable := rfl
@[simp] theorem draw_heard  : (s.draw.2).heard = s.heard := rfl
@[simp] theorem draw_lastLost  : (s.draw.2).lastLost = s.lastLost := rfl
@[simp] theorem draw_syncLost  : (s.draw.2).syncLost = s.syncLost := rfl
@[simp] theorem draw_badPorts  : (s.draw.2).badPorts = s.badPorts := rfl
@[simp] theorem draw_closed  : (s.draw.2).closed = s.closed := rfl
@[simp] theorem draw_beat  : (s.draw.2).beat = s.beat := rfl
@[simp] theorem draw_ckptSet  : (s.draw.2).ckptSet = s.ckptSet := rfl
@[simp] theorem draw_ckpt  : (s.draw.2).ckpt = s.ckpt := rfl
@[simp] theorem draw_images  : (s.draw.2).images = s.images := rfl
@[simp] theorem draw_out  : (s.draw.2).out = s.out := rfl
@[simp] theorem draw_powered  : (s.draw.2).powered = s.powered := rfl
@[simp] theorem draw_nextId  : (s.draw.2).nextId = s.nextId := rfl
@[simp] theorem draw_freeCtr  : (s.draw.2).freeCtr = s.freeCtr + 1 := rfl

@[simp] theorem draw_number : s.draw.1 = s.freeCtr := rfl

/-! ## A new result of the acting thread (R26) -/

section

variable (regs : List (Nat × Word)) (lo : Nat) (hi : Option Nat) (cap : Capture) (ready : Bool)

@[simp] theorem addResult_coreNo : (addResult regs lo hi cap ready s).2.coreNo = s.coreNo := rfl
@[simp] theorem addResult_th : (addResult regs lo hi cap ready s).2.th =
    { s.th with pend := s.th.pend ++ [{ tag := s.nextId, regs := regs, cap := cap, ready := ready, issued := s.clock.cycle, minLat := lo, maxLat := hi }] } := rfl
@[simp] theorem addResult_sq : (addResult regs lo hi cap ready s).2.sq = s.sq := rfl
@[simp] theorem addResult_hart : (addResult regs lo hi cap ready s).2.hart = s.hart := rfl
@[simp] theorem addResult_actor : (addResult regs lo hi cap ready s).2.actor = s.actor := rfl
@[simp] theorem addResult_turn : (addResult regs lo hi cap ready s).2.turn = s.turn := rfl
@[simp] theorem addResult_bundle : (addResult regs lo hi cap ready s).2.bundle = s.bundle := rfl
@[simp] theorem addResult_bundleAll : (addResult regs lo hi cap ready s).2.bundleAll = s.bundleAll := rfl
@[simp] theorem addResult_bundleNo : (addResult regs lo hi cap ready s).2.bundleNo = s.bundleNo := rfl
@[simp] theorem addResult_split : (addResult regs lo hi cap ready s).2.split = s.split := rfl
@[simp] theorem addResult_agenda : (addResult regs lo hi cap ready s).2.agenda = s.agenda := rfl
@[simp] theorem addResult_clock : (addResult regs lo hi cap ready s).2.clock = s.clock := rfl
@[simp] theorem addResult_pl : (addResult regs lo hi cap ready s).2.pl = s.pl := rfl
@[simp] theorem addResult_standby : (addResult regs lo hi cap ready s).2.standby = s.standby := rfl
@[simp] theorem addResult_swapEnd : (addResult regs lo hi cap ready s).2.swapEnd = s.swapEnd := rfl
@[simp] theorem addResult_slots : (addResult regs lo hi cap ready s).2.slots = s.slots := rfl
@[simp] theorem addResult_bankCycles : (addResult regs lo hi cap ready s).2.bankCycles = s.bankCycles := rfl
@[simp] theorem addResult_epct : (addResult regs lo hi cap ready s).2.epct = s.epct := rfl
@[simp] theorem addResult_backs : (addResult regs lo hi cap ready s).2.backs = s.backs := rfl
@[simp] theorem addResult_icache : (addResult regs lo hi cap ready s).2.icache = s.icache := rfl
@[simp] theorem addResult_icHome : (addResult regs lo hi cap ready s).2.icHome = s.icHome := rfl
@[simp] theorem addResult_cl : (addResult regs lo hi cap ready s).2.cl = s.cl := rfl
@[simp] theorem addResult_sched : (addResult regs lo hi cap ready s).2.sched = s.sched := rfl
@[simp] theorem addResult_ctxs : (addResult regs lo hi cap ready s).2.ctxs = s.ctxs := rfl
@[simp] theorem addResult_mem : (addResult regs lo hi cap ready s).2.mem = s.mem := rfl
@[simp] theorem addResult_remote : (addResult regs lo hi cap ready s).2.remote = s.remote := rfl
@[simp] theorem addResult_remoteEra : (addResult regs lo hi cap ready s).2.remoteEra = s.remoteEra := rfl
@[simp] theorem addResult_sl : (addResult regs lo hi cap ready s).2.sl = s.sl := rfl
@[simp] theorem addResult_xl : (addResult regs lo hi cap ready s).2.xl = s.xl := rfl
@[simp] theorem addResult_cp : (addResult regs lo hi cap ready s).2.cp = s.cp := rfl
@[simp] theorem addResult_win : (addResult regs lo hi cap ready s).2.win = s.win := rfl
@[simp] theorem addResult_root : (addResult regs lo hi cap ready s).2.root = s.root := rfl
@[simp] theorem addResult_ports : (addResult regs lo hi cap ready s).2.ports = s.ports := rfl
@[simp] theorem addResult_unreachable : (addResult regs lo hi cap ready s).2.unreachable = s.unreachable := rfl
@[simp] theorem addResult_heard : (addResult regs lo hi cap ready s).2.heard = s.heard := rfl
@[simp] theorem addResult_lastLost : (addResult regs lo hi cap ready s).2.lastLost = s.lastLost := rfl
@[simp] theorem addResult_syncLost : (addResult regs lo hi cap ready s).2.syncLost = s.syncLost := rfl
@[simp] theorem addResult_badPorts : (addResult regs lo hi cap ready s).2.badPorts = s.badPorts := rfl
@[simp] theorem addResult_closed : (addResult regs lo hi cap ready s).2.closed = s.closed := rfl
@[simp] theorem addResult_beat : (addResult regs lo hi cap ready s).2.beat = s.beat := rfl
@[simp] theorem addResult_ckptSet : (addResult regs lo hi cap ready s).2.ckptSet = s.ckptSet := rfl
@[simp] theorem addResult_ckpt : (addResult regs lo hi cap ready s).2.ckpt = s.ckpt := rfl
@[simp] theorem addResult_images : (addResult regs lo hi cap ready s).2.images = s.images := rfl
@[simp] theorem addResult_out : (addResult regs lo hi cap ready s).2.out = s.out := rfl
@[simp] theorem addResult_powered : (addResult regs lo hi cap ready s).2.powered = s.powered := rfl
@[simp] theorem addResult_nextId : (addResult regs lo hi cap ready s).2.nextId = s.nextId + 1 := rfl
@[simp] theorem addResult_freeCtr : (addResult regs lo hi cap ready s).2.freeCtr = s.freeCtr := rfl
@[simp] theorem addResult_number : (addResult regs lo hi cap ready s).1 = s.nextId := rfl

end

end Sys2Proof.Machine
end

