-- ==== Sys2Proof/Tests/Slice0.lean ====
section
/-! SUPPORT. Tests: ill-formed terms that the well-formedness check refuses, words of the specification's encodings and examples,
results of its examples, and, for each statement, a state and operands that meet its hypotheses. -/

set_option Elab.async false
set_option exponentiation.threshold 1024

open Sys2Proof Sys2Proof.Machine Sys2Proof.Rules

namespace Sys2Proof.Tests

/-! ## Well-formedness: one ill-formed term for each check -/

/-- R57, R58: a source is at most 125, a destination at most 95 or 112. -/
theorem test_wf_fields : (Instr.add false 5 126 7 none).wf = false ∧ (Instr.add false 96 6 7 none).wf = false
    ∧ (Instr.add false 112 125 95 none).wf = true := by decide
/-- R16: a pair starts at an even register. -/
theorem test_wf_pair : (Instr.add64 false 4 7 8 none).legalSimt = false
    ∧ (Instr.add64 false 4 6 8 none).wf = true := by decide
/-- R57: a quad starts at a register that 4 divides. -/
theorem test_wf_quad : (Instr.ldQ false 6 4 0 none).wf = false ∧ (Instr.ldQ false 8 4 0 none).wf = true := by decide
/-- Table 3-3: `jmp` accepts no payload, and `wmm` and `ldmc.q` require one. -/
theorem test_wf_required : (Instr.ldmcQ false 8 4 0 none).wf = false ∧ (Instr.wmm false 8 4 6 none).wf = false := by decide
/-- Table 3-5: pattern 0 takes amount 0; pattern 7 is reserved. -/
theorem test_wf_pattern : (Instr.add false 5 6 7 (some (1 <<< 17))).wf = false ∧ (Instr.add false 5 6 7 (some (7 <<< 22))).wf = false
    ∧ (Instr.add false 5 6 7 (some (1 <<< 22 ||| 1 <<< 17))).wf = true := by decide
/-- R61: no pattern on an operand that the member does not read. -/
theorem test_wf_unread : (Instr.movh false 5 0 (some (2 <<< 14))).wf = false := by decide
/-- R15, R61: `wi` is not added to a special register. -/
theorem test_wf_wi : (Instr.add false 5 113 7 (some 8)).wf = false ∧ (Instr.add false 5 6 7 (some 8)).wf = true := by decide
/-- R61: RND is zero where the member does not round, and at most 5 where it does. -/
theorem test_wf_round : (Instr.add false 5 6 7 (some (1 <<< 6))).wf = false ∧ (Instr.faddS false 5 6 7 (some (6 <<< 6))).wf = false
    ∧ (Instr.faddS false 5 6 7 (some (5 <<< 6))).wf = true := by decide
/-- R62, R64: a scope and a mask stand with ACQ or REL alone, and an order needs a scope. -/
theorem test_wf_order : (Instr.ldW false 6 4 0 (some (1 <<< 20))).wf = false ∧ (Instr.ldW false 6 4 0 (some (1 <<< 24))).wf = false
    ∧ (Instr.ldW false 6 4 0 (some 0x1640000)).wf = true := by decide
/-- R62: a load has no REL, a store no ACQ. -/
theorem test_wf_release : (Instr.ldW false 6 4 0 (some 0xC40000)).wf = false ∧ (Instr.stW false 6 4 0 (some 0x1640000)).wf = false := by decide
/-- R62, R96, R231: an ordered scratch access has no hint. -/
theorem test_wf_hint : (Instr.ldsW false 6 4 0 (some (1 <<< 15 ||| 0x1640000))).wf = false ∧ (Instr.ldsW false 6 4 0 (some (1 <<< 15))).wf = true
    ∧ (Instr.ldW false 6 4 0 (some (1 <<< 15))).wf = true := by decide
/-- R62: the core mask of `ldmc.q` stands in an even register. -/
theorem test_wf_mask : (Instr.ldmcQ false 8 4 0 (some 0xD00)).wf = false ∧ (Instr.ldmcQ false 8 4 0 (some 0xC00)).wf = true := by decide
/-- R63: the format word of `wmm` is a register or a special register. -/
theorem test_wf_format : (Instr.wmm false 8 4 16 (some (126 <<< 18))).wf = false ∧ (Instr.wmm false 8 4 16 (some (7 <<< 18))).wf = true := by decide
/-- R64: BAR stands with its bit, and MOD bits are those of the entry. -/
theorem test_wf_tile : (Instr.tlu false 9 (some (1 <<< 13))).wf = false ∧ (Instr.tlu false 9 (some 1)).wf = false
    ∧ (Instr.tlu false 9 (some 0x3000)).wf = true := by decide
/-- R327: a window fetch takes only a payload of zeros. -/
theorem test_wf_zero : (Instr.fget false 5 6 8 (some 1)).wf = false := by decide
/-- Table 3-10: a conversion does not name one format twice, and `cvtq` has four codes of each direction. -/
theorem test_wf_codes : (Instr.cvt false 5 6 0x22 none).wf = false ∧ (Instr.cvtp false 5 6 4 none).wf = false
    ∧ (Instr.cvtq false 8 4 8 none).wf = false ∧ (Instr.cvtq false 8 4 4 none).wf = true := by decide
/-- R59, R67: a stream's instruction names c0 to c31. -/
theorem test_wf_stream : (Instr.mma false 32 6 7 none).wf = false ∧ (Instr.mma false 31 6 7 none).wf = true := by decide

/-! ## Words of the specification's examples and encoding tables -/

theorem test_decode_div : decode [0x04143071] = some (.div false 5 6 7 none) := rfl
theorem test_decode_addi : decode [0x0A1C2001] = some (.addi false 7 4 1 none) := rfl
theorem test_decode_shri : decode [0x120C2205] = some (.shri false 3 4 5 none) := rfl
theorem test_decode_bnz : decode [0x2015FFFD] = some (.bnz false 5 0xFFFD) := rfl
theorem test_decode_brx : decode [0x2815FFFD] = some (.brxNz false 5 0xFFFD) := rfl
theorem test_decode_call : decode [0x24000080] = some (.call false 0x80) := rfl
theorem test_decode_store : decode [0x4204_2002] = some (.stW false 1 4 0 none) := rfl
theorem test_decode_load_acquire : decode [0x7F640000, 0x40182034] = some (.ldW false 6 4 3 (some 0x1640000)) := rfl
theorem test_decode_ldmc : decode [0x7E00_0C00, 0x4020_2008] = some (.ldmcQ false 8 4 0 (some 0xC00)) := rfl
theorem test_decode_fence : decode [0x4A000640] = some (.fence false 6 2) := rfl
theorem test_decode_fma_double : decode [0x3210308E] = some (.fmaD false 4 6 8 none) := rfl
theorem test_decode_cvtq : decode [0x3A20_2042] = some (.cvtq false 8 4 4 none) := rfl
theorem test_decode_wred_fadd : decode [0x5010_2864] = some (.wredFadd false 4 5 6) := rfl
theorem test_decode_nb_meet : decode [0x5208_0033] = some (.nbMeet false 2 3) := rfl
theorem test_decode_watch : decode [0x2A08_2002] = some (.watch false 2 4) := rfl
theorem test_decode_amo_addb2 : decode [0x4620_202B] = some (.amoAddb2 false 8 4 2 none) := rfl
theorem test_decode_pool_req : decode [0xAC08_1806] = some (.poolReq true 2 3) := rfl
theorem test_decode_mma : decode [0x7E00_5000, 0x6214_3070] = some (.mma false 5 6 7 (some 0x5000)) := rfl
theorem test_decode_tlu : decode [0x7E00_3000, 0x6424_0000] = some (.tlu false 9 (some 0x3000)) := rfl
theorem test_decode_svmv : decode [0x7E00_9000, 0x6628_58C0] = some (.svmv false 10 11 12 (some 0x9000)) := rfl
theorem test_decode_cpy : decode [0x7F44_5000, 0x5408_2000] = some (.cpy false 2 4 (some 0x1445000)) := rfl
theorem test_decode_csrr : decode [0x7C14_0110] = some (.csrr false 5 0x011) := rfl
theorem test_decode_reserved_zero : decode [0x00000000] = none := rfl
theorem test_decode_exit : decode [0x26000003] = some (.exit false) := rfl
theorem test_decode_table_word : decodeTableWord 64 0x401820347F640000 = some (.ldW false 6 4 3 (some 0x1640000)) := rfl

/-! ## Results of the specification's examples -/

/-- Slot 0, lane 0 of a warp of 64 registers in block 0 of context 1, in a module that is ready: a handler at 0x4000, pages 0 to 511
mapped onto themselves by page tables from 0x10000 on and by the TLBs, and a grant of the first GiB to every master. -/
def world (rs : List (Nat × Word)) : State :=
  { State.reset with
    th := { live := true, uid := 1, pc := 0x1000, kp := 0x8000, regs := rs }
    pl := { ctx := some 1, pmap := [(30, { role := .cache }), (31, { role := .cache })]
            warps := [{ slot := 0, regsPer := 64, block := some 0 }]
            blocks := [{ handle := 0, ctx := 1, scratch := 4096, stream := some 0, bars := [(0, { count := 2, pending := 2 })] }] }
    ctxs := [{ n := 1, hvec := 0x4000, ptRoot := 0x10000 }]
    mem := [(0x10000, 3), (0x10001, 0x10), (0x10002, 1), (0x11000, 3), (0x11001, 0x20), (0x11002, 1), (0x12000, 3), (0x12001, 0x30),
      (0x12002, 1), (0x13000, 0x39)]
    xl := { coreTlb := [{ ctx := 1, vpage := 0, pages := 512, ppage := 0, remote := none, r := true, w := true, x := true }]
            clusterTlb := [{ ctx := 1, vpage := 0, pages := 512, ppage := 0, remote := none, r := true, w := true, x := true }] }
    root := { grants := [{ master := 0xFFFF, ctx := 1, base := 0, len := 2 ^ 30 }] }
    win := { state := .ready } }

/-- The same with the block's stream acting, in sequencer context 0. -/
def streamWorld (cs : List (Nat × DWord)) : State :=
  { world [] with actor := .stream, sq := { n := 0, held := true, block := 0, pc := 0x2000, regs := cs } }

/-- The words that an instruction of thread 0 leaves outstanding. -/
def words (i : Instr) (rs : List (Nat × Word)) : List (Nat × Word) :=
  match exec i (world rs) with
  | .next t => t.th.pend.flatMap (·.regs)
  | _ => []

/-- R82's example: division of the least number by minus one, and by zero. -/
theorem test_div : words (.div false 5 6 7 none) [(6, 0x80000000), (7, 0xFFFFFFFF)] = [(5, 0x80000000)]
    ∧ words (.rem false 5 6 7 none) [(6, 0x80000000), (7, 0xFFFFFFFF)] = [(5, 0)]
    ∧ words (.divn false 5 6 7 none) [(6, 0x80000000), (7, 0xFFFFFFFF)] = [(5, 0)]
    ∧ words (.remn false 5 6 7 none) [(6, 0x80000000), (7, 0xFFFFFFFF)] = [(5, 0x80000000)] := by decide
theorem test_div_zero : words (.div false 5 6 7 none) [(6, 0x80000000)] = [(5, 0xFFFFFFFF)]
    ∧ words (.divn false 5 6 7 none) [(6, 0x80000000)] = [(5, 0xFFFFFFFF)]
    ∧ words (.rem false 5 6 7 none) [(6, 0x80000000)] = [(5, 0x80000000)]
    ∧ words (.remn false 5 6 7 none) [(6, 0x80000000)] = [(5, 0x80000000)] := by decide
/-- R82: a shift amount of the width or more fills; a rotation takes it modulo the width. -/
theorem test_shift : words (.sar false 5 6 7 none) [(6, 0x80000000), (7, 40)] = [(5, 0xFFFFFFFF)]
    ∧ words (.shl false 5 6 7 none) [(6, 1), (7, 32)] = [(5, 0)] := by decide
/-- R19: a result to the discard register writes nothing. -/
theorem test_discard : words (.add false 112 6 7 none) [(6, 1)] = [] := by decide
/-- R16: a pair's low word is in the lower register. -/
theorem test_pair : words (.add64 false 4 6 8 none) [(6, 0xFFFFFFFF), (8, 1)] = [(4, 0), (5, 1)] := by decide

/-- The example of `cvtq` (R113): with and without saturation. -/
theorem test_cvtq : words (.cvtq false 8 4 4 none) [(4, 0x3F800000), (5, 0xC0200000), (6, 0x447A0000), (7, 0x7FC00000)] = [(8, 0x7F7FC238)]
    ∧ words (.cvtq false 8 4 4 (some 0x20)) [(4, 0x3F800000), (5, 0xC0200000), (6, 0x447A0000), (7, 0x7FC00000)] = [(8, 0x7F7EC238)] := by decide
/-- The example of `cvtp.rdi` (R104), lane 0. -/
theorem test_cvtp_dither : words (.cvtp false 2 6 3 (some 0x140)) [(6, 0x3F804000), (7, 0x3F804000)] = [(2, 0x3F803F81)] := by decide
/-- The examples of `fma.d` and `fmin.s` (R107, R110). -/
theorem test_fma_double : words (.fmaD false 4 6 8 none) [(5, 0xBFF00000), (6, 1), (7, 0x3FF00000), (8, 0xFFFFFFFE), (9, 0x3FEFFFFF)]
    = [(4, 0), (5, 0xB9700000)] := by decide
theorem test_fmin : words (.fminS false 2 3 4 none) [(3, 0x80000000)] = [(2, 0x80000000)]
    ∧ words (.fmaxS false 2 3 4 none) [(3, 0x80000000)] = [(2, 0)]
    ∧ words (.fminS false 2 3 4 none) [(3, 0x7F800001), (4, 0x40000000)] = [(2, 0x40000000)] := by decide
/-- The example of `amo.addb2` (R236). -/
theorem test_amo_addb2 : amoNew 11 0x00013F80 0x00013B80 0 = some 0x00023F80 ∧ amoNew 11 0x00023F80 0x80033B80 0 = some 0x80013F80 := by decide
/-- The example of `wred.fadd` (R142): a tree, not a chain. -/
theorem test_wred_fadd :
    let got : List CollArrival := [⟨0, 0x4B800000, 15, 0, 0, none, false⟩, ⟨1, 0x3F800000, 15, 0, 0, none, false⟩,
      ⟨2, 0x3F800000, 15, 0, 0, none, false⟩, ⟨3, 0xCB800000, 15, 0, 0, none, false⟩]
    ∀ g ∈ got, collWord 4 got g = 0x3F800000 := by decide
/-- R346: `trap` 5 at 0x1000 saves the address after it, and the handler's window is the last eight registers. -/
theorem test_trap : (match exec (.trap false 5) (world []) with
    | .next t => (t.th.frame, t.th.pc, t.th.wb, t.th.inh)
    | _ => ({}, 0, 0, false)) = (⟨0x1004, 11, 0, 5⟩, 0x4000, 56, true) := by decide
/-- R14: a call stores the return address below the stack pointer. -/
theorem test_call : (match exec (.call false 0x80) (world []) with
    | .next t => (t.th.pc, t.th.kp, (l1Find t 255).map (fun l => (l.dirty, l.bytes)))
    | _ => (0, 0, none)) = (0x1200, 0x7FF8, some (0xFF * 2 ^ 120, [(120, 4), (121, 0x10)])) := by decide

/-! ## States and operands that meet the hypotheses of each statement -/

/-- An instruction of a thread passes its checks; a stream may run one. -/
theorem can {i : Instr} {s : State} (ha : s.actor ≠ .stream) (h : checkFail i.ins s = none) : Executes i s := ⟨ha, h⟩
theorem canS {i : Instr} {s : State} (ha : s.actor = .stream) (h : streamOk i.ins = true) : Streams i s := ⟨ha, h⟩

theorem wit_IntegerResultsOfThreads : (∃ r, integerRule (.div true 112 125 63 none) = some r) ∧ Executes (.div true 112 125 63 none) (world []) :=
  ⟨⟨_, rfl⟩, can (by decide) (by decide)⟩
theorem wit_PairResultsOfThreads : (∃ r, pairRule (.sar64 false 62 0 63 none) = some r) ∧ Executes (.sar64 false 62 0 63 none) (world []) :=
  ⟨⟨_, rfl⟩, can (by decide) (by decide)⟩
theorem wit_IntegerResultsOfStreams : (∃ r, integerRule (.add true 0 31 7 none) = some r) ∧ Streams (.add true 0 31 7 none) (streamWorld [])
    ∧ (∃ r, pairRule (.addx false 5 6 7 none) = some r) ∧ Streams (.addx false 5 6 7 none) (streamWorld []) :=
  ⟨⟨_, rfl⟩, canS rfl (by decide), ⟨_, rfl⟩, canS rfl (by decide)⟩
theorem wit_FloatResults : (∃ r, floatRule (.fmaD false 4 6 8 none) = some r) ∧ Executes (.fmaD false 4 6 8 none) (world [])
    ∧ (∃ r, floatRule (.fexp2 false 4 6 none) = some r) ∧ Executes (.fexp2 false 4 6 none) (world []) :=
  ⟨⟨_, rfl⟩, can (by decide) (by decide), ⟨_, rfl⟩, can (by decide) (by decide)⟩
theorem wit_ConversionResults : (∃ r, convertRule (.cvtq false 8 4 0x17 none) = some r) ∧ Executes (.cvtq false 8 4 0x17 none) (world [])
    ∧ (∃ r, convertRule (.fclass false 8 4 1 none) = some r) ∧ Executes (.fclass false 8 4 1 none) (world []) :=
  ⟨⟨_, rfl⟩, can (by decide) (by decide), ⟨_, rfl⟩, can (by decide) (by decide)⟩
theorem wit_ChecksComeFirst :
    ((Instr.add false 5 64 7 none).onCore = true ∧ checkFail (Instr.add false 5 64 7 none).ins (world []) = some { cause := .regBounds, info := 64 })
    ∧ (csrOk (world []) 0x11 false = true ∧ ∃ t, checkFail (Instr.csrr false 64 0x11).ins (world []) = some t)
    ∧ (csrOk (world []) 0x10 true = true ∧ ∃ t, checkFail (Instr.csrw false 0x10 64).ins (world []) = some t)
    ∧ csrOk (world []) 0x3FFF false = false ∧ csrOk (world []) 0x3FFF true = false ∧ (world []).actor ≠ .stream :=
  ⟨⟨rfl, rfl⟩, ⟨rfl, _, rfl⟩, ⟨rfl, _, rfl⟩, rfl, rfl, by decide⟩
theorem wit_StreamsStopOnOtherWords :
    (Instr.exit false).onCore = true ∧ (streamWorld []).actor = .stream ∧ streamOk (Instr.exit false).ins = false
    ∧ (Instr.add false 32 6 7 none).onCore = true ∧ streamOk (Instr.add false 32 6 7 none).ins = false := by decide
theorem wit_Transfers :
    (Executes (.bz false 5 0x7FFF) (world []) ∧ transfer 0x1000 0 0 (.bz false 5 0x7FFF) = some (some (branchTo 0x1000 32767))
      ∧ Executes (.bgez false 5 0x8000) (world []) ∧ transfer 0x1000 (-1) 0 (.bgez false 5 0x8000) = some none)
    ∧ Streams (.bnz false 5 1) (streamWorld [(5, 1)]) ∧ transfer 0x2000 1 1 (.bnz false 5 1) = some (some (branchTo 0x2000 1)) :=
  ⟨⟨can (by decide) (by decide), rfl, can (by decide) (by decide), rfl⟩, canS rfl (by decide), rfl⟩

/-- The world with the bytes from 0x8000 on in the L1. -/
def cached (rs : List (Nat × Word)) (bs : List Byte) : State :=
  { world rs with pl := { (world rs).pl with l1 :=
    [{ line := 256, bank := 30, valid0 := true, exp0 := 1000, ctx := 1, bytes := stSetAll 0 [] (atAddr 0 bs) }] } }

theorem wit_CallsAndReturns :
    (Executes (.callr false 6) (world [(6, 0x100000)]) ∧ callTarget 0x1000 0x100000 (.callr false 6) = some 0x100000
      ∧ canonical 0x100000 = true ∧ (0x100000 : DWord).toNat % 4 = 0 ∧ canonical ((world []).th.kp - 8) = true
      ∧ (world []).th.kp.toNat % 8 = 0 ∧ (tlbHit (world []).xl.coreTlb 1 ((world []).th.kp - 8).toNat .write).isSome = true
      ∧ writeHeld (world []) 1 1 0x7FF8 = false)
    ∧ (Streams (.call false 0x80) (streamWorld []) ∧ (callTarget 0x2000 0 (.call false 0x80)).isSome = true)
    ∧ ((tlbHit (cached [] [0, 0x40]).xl.coreTlb 1 0x8000 .read).isSome = true
      ∧ (∃ vt, loadPath (cached [] [0, 0x40]) 0x8000 8 false = .value [0, 0x40, 0, 0, 0, 0, 0, 0] vt)
      ∧ canonical (BitVec.ofNat 64 (leNat [0, 0x40, 0, 0, 0, 0, 0, 0])) = true ∧ leNat [0, 0x40, 0, 0, 0, 0, 0, 0] % 4 = 0) :=
  ⟨⟨can (by decide) (by decide), rfl, by decide, by decide, by decide, by decide, by decide, by decide⟩, ⟨canS rfl (by decide), rfl⟩,
    by decide, ⟨_, rfl⟩, by decide, by decide⟩

/-- The world with a kernel-stack pointer. -/
def stackWorld (rs : List (Nat × Word)) (kp : DWord) : State := { world rs with th := { (world rs).th with kp := kp } }

theorem wit_CallsAndReturnsTrap :
    (Executes (.callr false 6) (world [(7, 0x01000000)]) ∧ callTarget 0x1000 0x0100000000000000 (.callr false 6) = some 0x0100000000000000
      ∧ canonical 0x0100000000000000 = false)
    ∧ (Executes (.callr false 6) (world [(6, 0x100002)]) ∧ canonical 0x100002 = true ∧ (0x100002 : DWord).toNat % 4 ≠ 0)
    ∧ (∀ kp ∈ [(0xFF00000000000000 : DWord), 0x8004, 0x200008], Executes (.call false 0x80) (stackWorld [] kp))
    ∧ canonical (0xFF00000000000000 - 8) = false ∧ canonical (0x8004 - 8) = true ∧ (0x8004 : DWord).toNat % 8 ≠ 0
    ∧ Unmapped (stackWorld [] 0x200008) (0x200008 - 8) .write
    ∧ (canonical 0x0100000000000000 = false ∧ canonical 0x8004 = true ∧ Unmapped (stackWorld [] 0x200000) 0x200000 .read)
    ∧ (∃ vt, loadPath (cached [] [2]) 0x8000 8 false = .value [2, 0, 0, 0, 0, 0, 0, 0] vt)
    ∧ (∃ vt, loadPath (cached [] [0, 0, 0, 0, 0, 0, 0, 1]) 0x8000 8 false = .value [0, 0, 0, 0, 0, 0, 0, 1] vt)
    ∧ loadPath (world []) 0x8000 8 false = .ask ∧ NoFillToJoin 0x8000 (world []) :=
  ⟨⟨can (by decide) (by decide), rfl, by decide⟩, ⟨can (by decide) (by decide), by decide, by decide⟩,
    fun kp h => can (by intro e; cases e) rfl, by decide, by decide, by decide, by unfold Unmapped; decide,
    ⟨by decide, by decide, by unfold Unmapped; decide⟩, ⟨_, rfl⟩, ⟨_, rfl⟩, rfl, fun _ h => nomatch h⟩
theorem wit_TrapsEnterTheHandler :
    (Executes (.trap false 0x3FFF) (world []) ∧ (trapRule (.trap false 0x3FFF)).isSome = true ∧ CanTrap (world []))
    ∧ (Executes (.brk false 7) { world [] with ctxs := [{ n := 1 }] } ∧ (trapRule (.brk false 7)).isSome = true
      ∧ (world []).th.allReady = true ∧ State.curCtx { world [] with ctxs := [{ n := 1 }] } = { n := 1 })
    ∧ (let s := { world [] with th := { (world []).th with inh := true } };
      Executes (.brk false 7) s ∧ s.th.allReady = true ∧ s.th.inh = true)
    ∧ (∀ i ∈ [Instr.reservedMajor 0x60000000, .pfxWord 0x7E000000 0x26000003, .trap false 1, .brk false 1],
      TrapsNow i (world []) ∧ (trapRule i).isSome = true) :=
  ⟨⟨can (by decide) (by decide), rfl, by unfold CanTrap; decide⟩, ⟨can (by decide) (by decide), rfl, rfl, rfl⟩,
    ⟨can (by decide) (by decide), rfl, rfl⟩, by unfold TrapsNow; decide⟩
theorem wit_ReturnFromHandler : (world []).actor ≠ .stream ∧ (world []).th.inh = false
    ∧ (let t : Thread := { (world []).th with inh := true, frame := { trpc := 0xFFFFFFFFFFFFFFFC } };
      t.inh = true ∧ canonical t.frame.trpc = true ∧ t.frame.trpc.toNat % 4 = 0) := by decide
theorem wit_YieldAndExit : (world []).actor ≠ .stream ∧ (world []).th.deferred = none
    ∧ ∀ u ∈ (world []).pl.threads, u.is (world []).th.slot (world []).th.lane = false := by decide
/-- Two threads of a bundle: lane 0 with `a` in r5, lane 1 with 1. -/
def twoLanes (a : Word) : State :=
  { world [(5, a)] with
    bundleAll := [(0, 0), (0, 1)], sched := { trees := [{ n := 0, ctx := 1, count := 1 }] }
    pl := { (world []).pl with threads := [{ live := true, uid := 2, lane := 1, pc := 0x1000, regs := [(5, 1)] }] } }

theorem wit_ExileBranches :
    (∃ p, exileRule (.brxZ false 5 0x8000) = some ((0x8000 : BitVec 16).toInt, p) ∧ Executes (.brxZ false 5 0x8000) (world []) ∧ inBundle (world []) = false)
    ∧ (∃ p, exileRule (.brxZ false 5 4) = some ((4 : BitVec 16).toInt, p) ∧ Executes (.brxZ false 5 4) (twoLanes 1) ∧ (twoLanes 1).split = none
      ∧ p 1 = false ∧ voters (.brxZ false 5 4) p true (twoLanes 1) = [])
    ∧ (∃ p, exileRule (.brxZ false 5 4) = some ((4 : BitVec 16).toInt, p) ∧ Executes (.brxZ false 5 4) (twoLanes 0) ∧ inBundle (twoLanes 0) = true
      ∧ voters (.brxZ false 5 4) p true (twoLanes 0) ≠ [] ∧ voters (.brxZ false 5 4) p false (twoLanes 0) ≠ [])
    ∧ (let s := { twoLanes 1 with split := some (0, 1) };
      ∃ p, exileRule (.brxNz false 5 4) = some ((4 : BitVec 16).toInt, p) ∧ Executes (.brxNz false 5 4) s ∧ inBundle s = true ∧ p 1 = true
        ∧ s.split = some (s.bundleNo, 1)
        ∧ recTrap (branchTo s.th.pc 4) s = none ∧ s.th.allReady = true ∧ (placeRecord 0x1010 { s with th := s.th.completeAll }).isSome = true)
    ∧ (let s := { twoLanes 1 with split := some (0, 2) };
      ∃ p, exileRule (.brxNz false 5 4) = some ((4 : BitVec 16).toInt, p) ∧ Executes (.brxNz false 5 4) s ∧ inBundle s = true ∧ p 1 = true ∧ (2 : Nat) ≠ 1
        ∧ s.split = some (s.bundleNo, 2))
    ∧ (let s := { twoLanes 1 with split := some (0, 1), th := { (twoLanes 1).th with wb := 62 } };
      ∃ t, Executes (.brxNz false 125 4) s ∧ inBundle s = true ∧ recTrap (branchTo s.th.pc 4) s = some t)
    ∧ (let s := { twoLanes 1 with split := some (0, 1), th := { (twoLanes 1).th with pend := [{ tag := 1, regs := [(6, 0)], ready := false, issued := 0, minLat := 40, maxLat := none }] } };
      Executes (.brxNz false 5 4) s ∧ inBundle s = true ∧ recTrap (branchTo s.th.pc 4) s = none ∧ s.th.allReady = false) :=
  ⟨⟨_, rfl, can (by decide) (by decide), by decide⟩, ⟨_, rfl, can (by decide) (by decide), rfl, by decide, by decide⟩,
    ⟨_, rfl, can (by decide) (by decide), by decide, by decide, by decide⟩,
    ⟨_, rfl, can (by decide) (by decide), by decide, by decide, by decide, by decide, by decide, by decide⟩,
    ⟨_, rfl, can (by decide) (by decide), by decide, by decide, by decide, by decide⟩,
    ⟨_, can (by decide) (by decide), by decide, rfl⟩, can (by decide) (by decide), by decide, by decide, by decide⟩
theorem wit_RecordsAndTasks :
    (let r : Result 32 := { tag := 1, regs := [(9, 0)], ready := false, issued := 0, minLat := 40, maxLat := none };
      let s := { world [(6, 0x4000)] with th := { (world [(6, 0x4000)]).th with pend := [r] } };
      Executes (.cont false 5 6) s ∧ s.th.allReady = false)
    ∧ (Executes (.cont false 5 6) (world [(6, 0x4000)]) ∧ (world []).th.allReady = true ∧ recTrap 0x4000 (world []) = none)
    ∧ (Executes (.qput false 5 6 7) (cached [(6, 0x8000)] [1]) ∧ AddressOk 0x8000 64 ∧ (tlbHit (world []).xl.coreTlb 1 0x8000 .read).isSome = true
      ∧ HasRecord 0x8000 (1 :: List.replicate 63 0) (cached [(6, 0x8000)] [1])
        { l1Touch 256 (cached [(6, 0x8000)] [1]) with th := { (cached [(6, 0x8000)] [1]).th with pct := max 0 0 } })
    ∧ (let s := { world [(6, 0x8000)] with th := { (world [(6, 0x8000)]).th with got := some (0x1000, 0x8000, some [2]) } };
      Executes (.qput false 5 6 7) s ∧ HasRecord 0x8000 [2] s { s with th := { s.th with got := none } }) :=
  ⟨⟨can (by decide) (by decide), by decide⟩, ⟨can (by decide) (by decide), rfl, by decide⟩,
    ⟨can (by decide) (by decide), ⟨by decide, by decide⟩, by decide, Or.inl ⟨rfl, some 0, rfl, rfl⟩⟩,
    can (by decide) (by decide), Or.inr ⟨rfl, rfl⟩⟩
theorem wit_WindowsAndRegisterWrites :
    Executes (.wbase false 5) (world [(5, 62)]) ∧ Executes (.wiset false 5) (world [(5, 511)]) ∧ Executes (.vrsca false 5 6) (world [(5, 63)])
    ∧ (Executes (.csrw false 0x011 5) (world []) ∧ csrOk (world []) 0x011 true = true)
    ∧ (let s := { world [] with ctxs := [{ n := 1, sys := true }] };
      Executes (.csrw false 0x104 5) s ∧ csrOk s 0x104 true = true)
    ∧ Streams (.setfmt false 31) (streamWorld []) :=
  ⟨can (by decide) (by decide), can (by decide) (by decide), can (by decide) (by decide), ⟨can (by decide) (by decide), by decide⟩,
    ⟨can (by decide) (by decide), by decide⟩, canS rfl (by decide)⟩
theorem wit_StatusReads :
    (Executes (.poolMap false 5 6) (world [(6, 31)]) ∧ (statusRule 31 (world []) (.poolMap false 5 6)).isSome = true
      ∧ Executes (.nbStat false 5 0 4) (world []) ∧ (statusRule 0 (world []) (.nbStat false 5 0 4)).isSome = true)
    ∧ (Streams (.sstat false 5 2) (streamWorld []) ∧ (statusRuleS 0 (streamWorld []) (.sstat false 5 2)).isSome = true)
    ∧ Executes (.poolOcc false 5 6) (world [(6, 0x25)]) ∧ ¬ (0x20 ≤ 0x25 ∧ 0x25 ≤ 0x24) ∧ 0x25 ≠ 0x14
    ∧ Executes (.poolOcc false 5 6) (world [(6, 0x14)])
    ∧ Executes (.poolOcc false 5 6) (world [(6, 0x24)]) ∧ 0x20 ≤ 0x24 :=
  ⟨⟨can (by decide) (by decide), by decide, can (by decide) (by decide), by decide⟩, ⟨canS rfl (by decide), by decide⟩,
    can (by decide) (by decide), by decide, by decide, can (by decide) (by decide), can (by decide) (by decide), by decide⟩
theorem wit_RegisterGrowth :
    (Executes (.wgrow false 5 6) (world [(6, 512)]) ∧ RegCount 512 ∧ (world []).warp.regsPer < 512 ∧ (world []).warp.reqBusy = false
      ∧ growAsks (world []) = [] ∧ pagesCover (world []) 0 512 = true)
    ∧ (Executes (.wshrink false 5 6) (world [(6, 8)]) ∧ RegCount 8 ∧ 8 < (world []).warp.regsPer ∧ windowBeyond (world []) 0 8 = false
      ∧ shrinkWaits (world []) 0 8 = false)
    ∧ Executes (.wgrow false 5 6) (world [(6, 1023)]) ∧ ¬ RegCount 1023 :=
  ⟨⟨can (by decide) (by decide), by unfold RegCount; decide, by decide, by decide, by decide, by decide⟩,
    ⟨can (by decide) (by decide), by unfold RegCount; decide, by decide, by decide, by decide⟩,
    can (by decide) (by decide), by unfold RegCount; decide⟩

/-- The world without a block: a free warp. -/
def freeWorld (rs : List (Nat × Word)) : State :=
  { world rs with pl := { (world rs).pl with warps := [{ slot := 0, regsPer := 64 }], blocks := [] } }

/-- The world with a tile of the block in a state. -/
def tileWorld (st : TileSt) (rs : List (Nat × Word)) : State :=
  { world rs with pl := { (world rs).pl with tiles := [{ key := 1, bank := 0, owner := 0, st := st }] } }

theorem wit_PoolRequests :
    (Executes (.poolReq false 5 6) (world [(6, 0x18000001)]) ∧ (world []).warp.block = some 0 ∧ reqWordOk 0x18000001 = true
      ∧ tileCountBad (world []) 0 0x18000001 = false ∧ (world []).warp.reqBusy = false)
    ∧ (Executes (.poolReq false 5 6) (world []) ∧ reqWordOk 0 = false)
    ∧ (let s := { world [(6, 0x18000001)] with pl := { (world []).pl with warps := [{ slot := 0, regsPer := 64, block := some 0, reqBusy := true }] } };
      Executes (.poolReq false 5 6) s ∧ s.warp.block = some 0 ∧ tileCountBad s 0 0x18000001 = false ∧ s.warp.reqBusy = true)
    ∧ (Executes (.poolRel false 5 6) (world [(6, 2)]) ∧ scratchOpen (world []) 0 = false)
    ∧ Executes (.poolReq false 5 6) (freeWorld []) ∧ Executes (.poolRel false 5 6) (freeWorld []) ∧ (freeWorld []).warp.block = none
    ∧ Executes (.tmark false 5 6) (tileWorld .ready []) ∧ localTile (tileWorld .ready []) 0 = some { key := 1, bank := 0, owner := 0, st := .ready }
    ∧ Executes (.tmark false 5 6) (tileWorld .ready [(6, 1)]) ∧ localTile (tileWorld .ready []) 1 = none :=
  ⟨⟨can (by decide) (by decide), rfl, by decide, by decide, rfl⟩, ⟨can (by decide) (by decide), by decide⟩,
    ⟨can (by decide) (by decide), rfl, by decide, rfl⟩, ⟨can (by decide) (by decide), by decide⟩,
    can (by decide) (by decide), can (by decide) (by decide), rfl, can (by decide) (by decide), by decide, can (by decide) (by decide), by decide⟩

/-- A region descriptor (R252): 64 bytes from 0x9000, DEPTH 1, a handler at 0x4000. -/
def descOf (base len : Nat) : List Byte := [base, len, 0x4000, 0x4080, 0, 8, 0, 0].flatMap (fun v => leBytes v 8)
def descBytes : List Byte := descOf 0x9000 64

/-- The greatest id, attached. -/
def att511 : Att :=
  { id := 511, ctx := 1, tree := none, va := 0, pa := 0, len := 64, gran := 64, depth := 1, prio := 0, entry := 0, lb := 0, args := 0 }

set_option maxRecDepth 8192 in
theorem wit_WatchedRegionsWait :
    (let s := cached [(6, 0x8000)] descBytes;
      Executes (.watch false 5 6) s ∧ AddressOk 0x8000 64 ∧ (tlbHit s.xl.coreTlb 1 0x8000 .read).isSome = true
      ∧ HasRecord 0x8000 descBytes s { l1Touch 256 s with th := { s.th with pct := max 0 0 } } ∧ watchDescOk (recordOf descBytes) = true
      ∧ ∃ v, findPages 1 (rangePages 0x9000 64) { l1Touch 256 s with th := { s.th with pct := max 0 0 } } = (none, v)
        ∧ homesFrom v.th.found (rangePages 0x9000 64) = some [0x9000]
        ∧ freeAttId { v with th := { v.th with found := [] } } 1 (rangeSlices 0x9000 64) = some 0)
    ∧ (∃ v, findPages 1 (rangePages 0x9000 8192) (world []) = (none, v) ∧ homesFrom v.th.found (rangePages 0x9000 8192) = some [0x9000, 0xA000])
    ∧ (let s := cached [(6, 0x8000)] (descOf 0x1FF000 8192);
      watchDescOk (recordOf (descOf 0x1FF000 8192)) = true
      ∧ ∃ u v, HasRecord 0x8000 (descOf 0x1FF000 8192) s u ∧ findPages 1 (rangePages 0x1FF000 8192) u = (some 512, v))
    ∧ (let s := { world [(6, 511)] with sl := { atts := [att511] } };
      Executes (.unwatch false 5 6 7) s ∧ s.sl.atts.any (fun k => k.ctx == s.ctxNo && k.id == 511) = true)
    ∧ Executes (.unwatch false 5 6 7) (world []) ∧ (world []).sl.atts.any (fun k => k.ctx == 1 && k.id == 0) = false :=
  ⟨⟨can (by decide) (by decide), ⟨by decide, by decide⟩, by decide, Or.inl ⟨rfl, some 0, by decide, rfl⟩, by decide, _, rfl, by decide, by decide⟩,
    ⟨_, rfl, by decide⟩, ⟨by decide, _, _, Or.inl ⟨rfl, some 0, by decide, rfl⟩, rfl⟩,
    ⟨can (by decide) (by decide), by decide⟩, can (by decide) (by decide), by decide⟩
theorem wit_LoadsFromTheCore :
    loadForm (.ldHs false 5 6 0 none) = some (2, true, 0) ∧ Executes (.ldHs false 5 6 0 none) (cached [(6, 0x8000)] [1])
    ∧ AddressOk (addressOf 0x8000 0 2) 2 ∧ (tlbHit (cached [] [1]).xl.coreTlb 1 0x8000 .read).isSome = true
    ∧ ∃ vt, bundlePath (Instr.ldHs false 5 6 0 none).ins 0 2 false 0x8000 (cached [(6, 0x8000)] [1]) = .value [1, 0] vt :=
  ⟨rfl, can (by decide) (by decide), ⟨by decide, by decide⟩, by decide, _, rfl⟩
theorem wit_LoadsAskTheHome :
    (loadForm (.ldO false 8 6 0x7F (some 0x1640000)) = some (32, false, 0x7F) ∧ Executes (.ldO false 8 6 0x7F (some 0x1640000)) (world [(6, 0x8000)])
      ∧ AddressOk (addressOf 0x8000 0x7F 32) 32 ∧ (tlbHit (world []).xl.coreTlb 1 0x7FE0 .read).isSome = true
      ∧ bundlePath (Instr.ldO false 8 6 0x7F (some 0x1640000)).ins 0x7F 32 false 0x7FE0 (world [(6, 0x8000)]) = .ask ∧ NoFillToJoin 0x7FE0 (world []))
    ∧ (Executes (.ldmcQ false 8 6 0 (some 0xC00)) (world [(6, 0x8000), (12, 1)]) ∧ AddressOk (addressOf 0x8000 0 16) 16
      ∧ ownQueue (world []) 1 = [] ∧ isPoisoned (world []) 0x8000 16 = false ∧ NoFillToJoin 0x8000 (world []) ∧ (world []).pl.net = []) :=
  ⟨⟨rfl, can (by decide) (by decide), ⟨by decide, by decide⟩, by decide, by decide, fun m hm => by simp [world] at hm⟩,
    can (by decide) (by decide), ⟨by decide, by decide⟩, by decide, by decide, fun m hm => by simp [world] at hm, rfl⟩
theorem wit_StoresLeaveTheThread :
    storeForm (.stB false 63 6 0x40 none) = some (1, 0x40) ∧ Executes (.stB false 63 6 0x40 none) (world [(6, 0x8000)])
    ∧ AddressOk (addressOf 0x8000 0x40 1) 1 ∧ (tlbHit (world []).xl.coreTlb 1 0x7FC0 .write).isSome = true ∧ writeHeld (world []) 1 1 0x7FC0 = false :=
  ⟨rfl, can (by decide) (by decide), ⟨by decide, by decide⟩, by decide, by decide⟩
theorem wit_StoredBytesAreInTheCore :
    storeForm (.stO false 8 6 3 none) = some (32, 3) ∧ Executes (.stO false 8 6 3 none) (world [(6, 0x8000)]) ∧ AddressOk (addressOf 0x8000 3 32) 32
    ∧ (tlbHit (world []).xl.coreTlb 1 0x8060 .write).isSome = true ∧ writeHeld (world []) 1 1 0x8060 = false ∧ bundleEvict (world []) 0 (lineOf 0x8060) = none
    ∧ (memOrd none).rel = false
    ∧ (memOrd none).scope < 3 ∧ (memOrd none).hint ≠ 1 ∧ isX 0x8060 = false ∧ 0x8060 % 128 + 32 ≤ 128 :=
  ⟨rfl, can (by decide) (by decide), ⟨by decide, by decide⟩, by decide, by decide, by decide, by decide, by decide, by decide, by decide, by decide⟩
theorem wit_StreamAccessesAndBadAddresses :
    (Streams (.ldD false 31 6 0 none) (streamWorld [(6, 0x8000)]) ∧ AddressOk (addressOf 0x8000 0 8) 8
      ∧ (tlbHit (streamWorld []).xl.clusterTlb 1 0x8000 .read).isSome = true ∧ isPoisoned (streamWorld []) 0x8000 8 = false)
    ∧ (Streams (.stB false 31 6 0 none) (streamWorld []) ∧ (tlbHit (streamWorld []).xl.clusterTlb 1 0 .write).isSome = true)
    ∧ canonical (addressOf 0x0100000000000000 0 8) = false ∧ canonical (addressOf 4 0 8) = true ∧ (addressOf 4 0 8).toNat % 8 ≠ 0
    ∧ Executes (.ldD false 4 6 0 none) (world [(6, 4)]) ∧ Executes (.stD false 4 6 0 none) (world [(7, 0x01000000)]) :=
  ⟨⟨canS rfl (by decide), ⟨by decide, by decide⟩, by decide, by decide⟩, ⟨canS rfl (by decide), by decide⟩, by decide, by decide, by decide,
    can (by decide) (by decide), can (by decide) (by decide)⟩
/-- A release store of thread 0 that waits for its point. -/
def someQueued : Queued := { uid := 1, slot := 0, lane := 0, rel := some (2, 3), scope := 2, hint := 0, ws := [(0x8000, 7)], depth := 0, bundle := 0 }

theorem wit_ScratchAccesses :
    (scratchLoadForm (.ldsQ false 8 6 0x7F none) = some (16, 0x7F) ∧ Executes (.ldsQ false 8 6 0x7F none) (world [(6, 4096)])
      ∧ ScratchOk (offsetOf 4096 0x7F 16) 16 0 (world []) ∧ ∀ q ∈ (world []).pl.storeQ, q.uid = 1 → q.scratch = none)
    ∧ (let s := { world [(6, 4096)] with pl := { (world []).pl with storeQ := [{ someQueued with ws := atAddr 4080 (leBytes 7 16), scratch := some 0 }] } };
      Executes (.ldsQ false 8 6 0x7F none) s ∧ scratchBytes s 0 4080 16 = some (leBytes 7 16))
    ∧ (scratchStoreForm (.stsW false 8 6 0 (some 0xC60000)) = some (4, 0) ∧ Executes (.stsW false 8 6 0 (some 0xC60000)) (world [])
      ∧ (memOrd (some 0xC60000)).rel = true)
    ∧ (scratchStoreForm (.stsW false 8 6 0 none) = some (4, 0) ∧ Executes (.stsW false 8 6 0 none) (world []) ∧ ScratchOk (offsetOf 0 0 4) 4 0 (world [])
      ∧ writeHeld (world []) 1 0 0 = false ∧ (memOrd none).rel = false)
    ∧ (Executes (.samoCas64 false 8 6 10 (some 0xC60000)) (world [(6, 4088)]) ∧ writeHeld (world []) 1 0 4088 = false)
    ∧ (scratchAtomicForm (.samoCas64 false 8 6 10 none) = some 14 ∧ Executes (.samoCas64 false 8 6 10 none) (world [(6, 4088)])
      ∧ ScratchOk 4088 (atomicBytes 14) 0 (world [])) :=
  ⟨⟨rfl, can (by decide) (by decide), by unfold ScratchOk; decide, fun q hq => by simp [world, State.reset] at hq⟩, ⟨can (by decide) (by decide), by decide⟩,
    ⟨rfl, can (by decide) (by decide), by decide⟩, ⟨rfl, can (by decide) (by decide), by unfold ScratchOk; decide, by decide, by decide⟩,
    ⟨can (by decide) (by decide), by decide⟩, rfl, can (by decide) (by decide), by unfold ScratchOk; decide⟩
theorem wit_AtomicsLeaveForTheHome :
    atomicForm (.amoInc false 8 6 5 none) = some 15 ∧ Executes (.amoInc false 8 6 5 none) (world [(6, 0x8000)]) ∧ AddressOk 0x8000 (atomicBytes 15)
    ∧ (tlbHit (world []).xl.coreTlb 1 0x8000 .atomic).isSome = true ∧ writeHeld (world []) 1 1 0x8000 = false ∧ isPoisoned (world []) 0x8000 4 = false :=
  ⟨rfl, can (by decide) (by decide), ⟨by decide, by decide⟩, by decide, by decide, by decide⟩
theorem wit_AtomicValues : (0 : Nat) ≤ 15 ∧ (15 : Nat) ≤ 15 := by decide
theorem wit_FencesAndWriteTimes :
    (fenceRule (.fence false 6 2) = some (true, true, 6, 2) ∧ Executes (.fence false 6 2) (world []) ∧ NoDeferred (world []))
    ∧ (let s := { world [] with th := { (world []).th with deferred := some { gran := 0, aid := 0, depth := 2 } } };
      Executes (.fenceAcq false 2 1) s ∧ s.th.deferred = some { gran := 0, aid := 0, depth := 2 } ∧ s.th.inh = false)
    ∧ Executes (.wct false 4) (world []) :=
  ⟨⟨rfl, can (by decide) (by decide), Or.inl rfl⟩, ⟨can (by decide) (by decide), rfl, rfl⟩, can (by decide) (by decide)⟩
def queuedWorld (rs : List (Nat × Word)) : State := { world rs with pl := { (world rs).pl with storeQ := [someQueued] } }

theorem wit_RangesFlushAndInvalidate :
    (Executes (.flush false 6 8) (world [(6, 0x8000)])
      ∧ Executes (.icinv false 6 8) (world [(6, 0xFFFFFFFF), (7, 0x00FFFFFF), (8, 2)])
      ∧ canonical 0x00FFFFFFFFFFFFFF = true ∧ canonical (lastByte 0x00FFFFFFFFFFFFFF 2) = false
      ∧ canonical (lastByte 0x00FFFFFFFFFFFFFF 1) = true ∧ canonical 0x0100000000000000 = false)
    ∧ ownQueue (world []) 1 = [] ∧ Executes (.flush false 6 8) (queuedWorld [(6, 0x8000), (8, 1)]) ∧ ownQueue (queuedWorld []) 1 ≠ [] :=
  ⟨⟨can (by decide) (by decide), can (by decide) (by decide), by decide, by decide, by decide, by decide⟩, by decide, can (by decide) (by decide), by decide⟩
theorem wit_FutureWaitsAndPrefetches :
    (Executes (.fwait false 5 6 8) (world [(6, 0x8000)]) ∧ AddressOk 0x8000 4 ∧ (tlbHit (world []).xl.coreTlb 1 0x8000 .read).isSome = true
      ∧ ownQueue (world []) 1 = [] ∧ isPoisoned (world []) 0x8000 4 = false)
    ∧ (Executes (.pref false 6) (world [(6, 0x8000)]) ∧ canonical 0x8000 = true ∧ (world []).th.got = none
      ∧ isX 0x8000 = false ∧ sectorValid (world []) 256 0 = false)
    ∧ (Executes (.pref false 6) (world [(6, 0), (7, 0x01000000)]) ∧ canonical 0x0100000000000000 = false ∧ sectorValid (cached [] []) 256 0 = true)
    ∧ (Executes (.pref false 6) (world [(6, 0x200000)]) ∧ canonical 0x200000 = true ∧ tlbHit (world []).xl.coreTlb 1 0x200000 .read = none
      ∧ tlbHit (world []).xl.clusterTlb 1 0x200000 .read = none ∧ tlbHit (world []).xl.dieTlb 1 0x200000 .read = none)
    ∧ (let s := { world [(6, 0x200000)] with th := { (world [(6, 0x200000)]).th with got := some (0x1000, 0x200, none) } }
      Executes (.pref false 6) s ∧ s.th.got = some (s.th.pc, (0x200000 : DWord).toNat % 2 ^ 57 / 4096, none)) :=
  ⟨⟨can (by decide) (by decide), ⟨by decide, by decide⟩, by decide, by decide, by decide⟩,
    ⟨can (by decide) (by decide), by decide, rfl, by decide, by decide⟩, ⟨can (by decide) (by decide), by decide, by decide⟩,
    ⟨can (by decide) (by decide), by decide, by decide, by decide, by decide⟩, can (by decide) (by decide), rfl⟩
theorem wit_BarriersOfThreads :
    (∃ b, Executes (.nbInit false 6 15) (world [(6, 65535)]) ∧ (world []).thBlock = some b ∧ (barOf b 15).pending = (barOf b 15).count
      ∧ barWaited (world []) b.handle 15 = false ∧ engineOwes (world []) b.handle 15 = false)
    ∧ (Executes (.nbMeet false 5 0) (world []) ∧ NoDeferred (world []) ∧ ∃ x, arrivalRule (operands (Instr.nbMeet false 5 0).ins (world [])) (.nbMeet false 5 0) = some x)
    ∧ (∃ b, Executes (.nbWait false 5 6 0) (world []) ∧ (world []).thBlock = some b ∧ (barOf b 0).phase = 0)
    ∧ (barNumber (.nbTest false 5 6 15) = some 15 ∧ Executes (.nbTest false 5 6 15) (freeWorld []) ∧ (freeWorld []).thBlock = none)
    ∧ (let d : Deferred := { gran := 0, aid := 0, depth := 2 }
      let s := { world [] with th := { (world []).th with deferred := some d } };
      Executes (.nbWait false 5 6 0) s ∧ s.th.deferred = some d ∧ s.th.inh = false) :=
  ⟨⟨_, can (by decide) (by decide), rfl, by decide, by decide, by decide⟩, ⟨can (by decide) (by decide), Or.inl rfl, _, rfl⟩,
    ⟨_, can (by decide) (by decide), rfl, by decide⟩, ⟨by decide, can (by decide) (by decide), by decide⟩, can (by decide) (by decide), rfl, rfl⟩
theorem wit_CrossingArrivalsWait :
    (crossingRule (.xredAdd false 7 6 8) = some (6, 7) ∧ Executes (.xredAdd false 7 6 8) (freeWorld [])
      ∧ (freeWorld []).thBlock.bind (·.stream) = none)
    ∧ Executes (.xredAdd false 7 6 8) (world [(8, 1)]) ∧ (world []).thBlock.bind (·.stream) = some 0 :=
  ⟨⟨rfl, can (by decide) (by decide), by decide⟩, can (by decide) (by decide), by decide⟩
theorem wit_BarrierPhases :
    (∃ b, ((world []).updBlock 0 (fun b => { b with bars := [(15, { count := 0 })] })).block? 0 = some b ∧ (barOf b 15).count = 0)
    ∧ (∃ b, (world []).block? 0 = some b ∧ (barOf b 0).count ≠ 0 ∧ (barOf b 0).pending ≠ 1 ∧ (barOf b 0).pending ≠ 0)
    ∧ ∃ b, ((world []).updBlock 0 (fun b => { b with bars := [(0, { count := 2, pending := 1, phase := 65535 })] })).block? 0 = some b
      ∧ (barOf b 0).count ≠ 0 ∧ (barOf b 0).pending = 1 :=
  ⟨⟨_, rfl, by decide⟩, ⟨_, rfl, by decide, by decide, by decide⟩, _, rfl, by decide, by decide⟩
theorem wit_CollectivesMeet :
    collectiveForm (.wballot false 5 6 7) = some 2
    ∧ (Executes (.wballot false 5 6 7) (world []) ∧ (memberMask 2 (operands (Instr.wballot false 5 6 7).ins (world []))).getLsbD 0 = false)
    ∧ (let i := Instr.wballot false 5 6 7;
      let s := { world [(7, 3)] with pl := { (world []).pl with threads := [{ live := true, uid := 2, lane := 1 }] } };
      let o := operands i.ins s;
      let c := instanceWith i.ins 2 o s;
      let u := arrivedIn i.ins 2 o s;
      Executes i s ∧ (memberMask 2 o).getLsbD 0 = true ∧ c.mask = memberMask 2 o ∧ c.inh = s.th.inh ∧ collCycle u c = []
        ∧ c.mask &&& livingMask u c.slot &&& ~~~(arrivedMask c) ≠ 0)
    ∧ (let i := Instr.wballot false 5 6 7;
      let s := world [(7, 1)];
      let o := operands i.ins s;
      let c := instanceWith i.ins 2 o s;
      let u := arrivedIn i.ins 2 o s;
      Executes i s ∧ (memberMask 2 o).getLsbD 0 = true ∧ c.mask = memberMask 2 o ∧ c.inh = s.th.inh ∧ collCycle u c = []
        ∧ c.mask &&& livingMask u c.slot &&& ~~~(arrivedMask c) = 0 ∧ c.mask &&& ~~~(livingMask u c.slot) = 0)
    ∧ (let i := Instr.wballot false 5 6 7;
      let s := world [(7, 3)];
      let o := operands i.ins s;
      let c := instanceWith i.ins 2 o s;
      let u := arrivedIn i.ins 2 o s;
      Executes i s ∧ c.mask = memberMask 2 o ∧ c.inh = s.th.inh ∧ collCycle u c = []
        ∧ c.mask &&& livingMask u c.slot &&& ~~~(arrivedMask c) = 0 ∧ c.mask &&& ~~~(livingMask u c.slot) ≠ 0)
    ∧ (let i := Instr.wballot false 5 6 7;
      let s := { world [(7, 3)] with pl := { (world []).pl with colls := [{ slot := 0, pc := 0x1000, f := 2, mask := 7, inh := false }] } };
      let o := operands i.ins s;
      Executes i s ∧ (memberMask 2 o).getLsbD s.th.lane = true ∧ (instanceWith i.ins 2 o s).mask ≠ memberMask 2 o)
    ∧ (let i := Instr.wballot false 5 6 7;
      let s := { world [(7, 3)] with pl := { (world []).pl with
        threads := [{ live := true, uid := 2, lane := 1 }]
        colls := [{ slot := 0, pc := 0x1008, f := 2, mask := 3, inh := false, got := [{ lane := 1, av := 0, dst := none }] }] } };
      let o := operands i.ins s;
      let c := instanceWith i.ins 2 o s;
      Executes i s ∧ c.mask = memberMask 2 o ∧ c.inh = s.th.inh ∧ collCycle (arrivedIn i.ins 2 o s) c ≠ []) :=
  ⟨rfl, ⟨can (by decide) (by decide), by decide⟩,
    ⟨can (by decide) (by decide), by decide, by decide, by decide, by decide, by decide⟩,
    ⟨can (by decide) (by decide), by decide, by decide, by decide, by decide, by decide, by decide⟩,
    ⟨can (by decide) (by decide), by decide, by decide, by decide, by decide, by decide⟩,
    ⟨can (by decide) (by decide), by decide, by decide⟩, can (by decide) (by decide), by decide, by decide, by decide⟩

/-- An arrival of a lane with a format word. -/
def arrived (l : Nat) (f : Word) : CollArrival := { lane := l, av := 1, fv := f, dst := none }

theorem wit_CollectiveSums :
    (∃ (got : List CollArrival) (me : CollArrival), (got.map (·.lane)).Nodup ∧ (∀ g ∈ got, g.lane < 32) ∧ me ∈ got)
    ∧ (∃ g ∈ [arrived 0 0, arrived 31 1], g.fv ≠ (arrived 31 1).fv)
    ∧ (∀ g ∈ [arrived 0 0, arrived 31 0], g.fv = (arrived 31 0).fv) ∧ WmmFormat 0 ∧ ¬ WmmFormat 1 :=
  ⟨⟨[arrived 0 1, arrived 31 2], arrived 31 2, by decide, by decide, by decide⟩, by decide, by decide, by unfold WmmFormat; decide, by unfold WmmFormat; decide⟩

/-- An operation of a queue. -/
def someOp : CopyOp := { id := 7, kind := .cpy, block := some 0, ctx := 1, desc := 0 }

theorem wit_CopiesAndFetchesQueue :
    (let s := world [(6, 0x8000)];
      copyForm (.cpy false 5 6 none) = some .cpy ∧ Executes (.cpy false 5 6 none) s ∧ AddressOk 0x8000 64 ∧ copyHeld s < 32
      ∧ (tlbHit s.xl.coreTlb 1 0x8000 .read).isSome = true ∧ FollowsReleases 0 s ∧ s.warp.block ≠ none ∧ s.th.got = none
      ∧ loadPath { s with sl := { poison := [512] } } 0x8000 64 false = .poison
      ∧ HasRecord 0x8000 (List.replicate 64 0) (cached [(6, 0x8000)] [])
        { l1Touch 256 (cached [(6, 0x8000)] []) with th := { (cached [(6, 0x8000)] []).th with pct := max 0 0 } })
    ∧ (Executes (.fgetb false 5 6 8 (some 0x1445000)) (world [(6, 0x8000)]) ∧ (world []).cl.fetchQ.length < 32 ∧ FollowsReleases 0x1445000 (world []))
    ∧ Executes (.fget false 5 6 8 none) (world [(6, 0x8000)])
    ∧ (let s := { world [(6, 0x8000)] with cl := { copyQ := List.replicate 32 someOp } };
      Executes (.cpy false 5 6 none) s ∧ 32 ≤ copyHeld s)
    ∧ (let s := { world [(6, 0x8000)] with cl := { fetchQ := List.replicate 32 someOp } };
      Executes (.fgetb false 5 6 8 none) s ∧ 32 ≤ s.cl.fetchQ.length) :=
  ⟨⟨rfl, can (by decide) (by decide), ⟨by decide, by decide⟩, by decide, by decide, by unfold FollowsReleases; decide, by decide, rfl, by decide,
      Or.inl ⟨rfl, some 0, by decide, rfl⟩⟩,
    ⟨can (by decide) (by decide), by decide, by unfold FollowsReleases; decide⟩, can (by decide) (by decide), ⟨can (by decide) (by decide), by decide⟩,
    can (by decide) (by decide), by decide⟩

/-- An entry of the reservation table. -/
def someEntry (n : Nat) : REntry :=
  { n := n, maj := 0x31, f := 0, dnum := 0, dv := 0, av := 0, bv := 0, payload := 0, ctx := 0, block := 0, fmt := 0, issued := 0, seq := n, prio := 0
    depth := 0, phase := 0 }

theorem wit_TileInstructionsEnterTheTable :
    (∃ x, tileForm (.tstc false 9 10 11 none) = some x ∧ Streams (.tstc false 9 10 11 none) (streamWorld [])
      ∧ tableRoom { streamWorld [] with cl := { table := (List.range 16).map someEntry } } = false
      ∧ tableRoom { streamWorld [] with cl := { table := (List.range 15).map someEntry } } = true
      ∧ entryAddrs (entryFor x none (streamWorld [(11, 0x0100000000000000)])) = [(0x0100000000000000, 16)] ∧ canonical 0x0100000000000000 = false
      ∧ entryAddrs (entryFor x none (streamWorld [(11, 8)])) = [(8, 16)] ∧ canonical 8 = true ∧ (8 : DWord).toNat % 16 ≠ 0
      ∧ entryAddrs (entryFor x none (streamWorld [(11, 16)])) = [(16, 16)] ∧ canonical 16 = true ∧ (16 : DWord).toNat % 16 = 0)
    ∧ ∃ x, tileForm (.mma false 5 6 7 (some 0x5000)) = some x ∧ Streams (.mma false 5 6 7 (some 0x5000)) (streamWorld [])
      ∧ tableRoom (streamWorld []) = true ∧ entryAddrs (entryFor x (some 0x5000) (streamWorld [])) = [] :=
  ⟨⟨_, rfl, canS rfl (by decide), by decide, by decide, by decide, by decide, by decide, by decide, by decide, by decide, by decide, by decide⟩,
    _, rfl, canS rfl (by decide), by decide, by decide⟩
theorem wit_StreamControl :
    (∃ b, Streams (.sbarInit false 5 15) (streamWorld [(5, 65535)]) ∧ (streamWorld []).block? 0 = some b ∧ (barOf b 15).pending = (barOf b 15).count
      ∧ barWaited (streamWorld []) b.handle 15 = false ∧ engineOwes (streamWorld []) b.handle 15 = false)
    ∧ Streams (.sbarArrive false 5 0) (streamWorld [])
    ∧ (∃ b, Streams (.sbarWait false 5 6 0) (streamWorld []) ∧ (streamWorld []).block? 0 = some b ∧ (barOf b 0).phase = 0)
    ∧ (Streams (.xrd false 5 7 6) (streamWorld [(6, 1)]) ∧ 2 ^ 31 ≤ (stGet 0 (streamWorld []).sq.xseq 7 + 2 ^ 32 - 1) % 2 ^ 32)
    ∧ Streams (.sfence false 6 2) (streamWorld []) ∧ (streamWorld []).actor = .stream :=
  ⟨⟨_, canS rfl (by decide), rfl, by decide, by decide, by decide⟩, canS rfl (by decide), ⟨_, canS rfl (by decide), rfl, by decide⟩,
    ⟨canS rfl (by decide), by decide⟩, canS rfl (by decide), rfl⟩
theorem wit_HartsWait : (∃ x, kwaitRule (.kwaitGeu 1 2 3) = some x) ∧ (∃ x, kwaitRule (.kwaitEq 0 31 0) = some x)
    ∧ (hartGet { x := [(2, 12)] } 2).toNat % 8 ≠ 0 ∧ ((hartGet { x := [(2, 2 ^ 44)] } 2).toNat % 8 = 0 ∧ (hartGet { x := [(2, 2 ^ 44)] } 2).toNat ≥ Config.memBytes)
    ∧ ((hartGet {} 2).toNat % 8 = 0 ∧ (hartGet {} 2).toNat < Config.memBytes ∧ isFrozen (world []) masterCp = false ∧ reaches (world []) masterCp 0 8 = true)
    ∧ isFrozen { world [] with root := { frozen := [{ master := masterCp, ctx := 0, pa := 0, time := 0 }] } } masterCp = true :=
  ⟨⟨_, rfl⟩, ⟨_, rfl⟩, by decide, ⟨by decide, by decide⟩, ⟨by decide, by decide, by decide, by decide⟩, by decide⟩

/-- A result that may be written, behind one to another register. -/
def someResult (tag reg : Nat) : Result 32 := { tag := tag, regs := [(reg, 9)], issued := 0, minLat := 4, maxLat := some 4 }

/-- The world with the thread parked, at cycle and nanosecond 100. -/
def parked (pk : Park) (rs : List (Nat × Word)) : State :=
  { world rs with th := { (world rs).th with park := pk, npc := 0x1004 }, clock := { cycle := 100, tbase := 100 } }

theorem concerns (pk : Park) (rs : List (Nat × Word)) : Concerns (parked pk rs) 0 0 := ⟨by decide, rfl⟩

theorem wit_ResultsAgesAndTraps :
    (let s := { parked .switch [] with th := { (parked .switch []).th with pend := [someResult 1 5, someResult 2 6] } };
      Concerns s 0 0 ∧ (s.bring 0 0).th.pend = [someResult 1 5] ++ someResult 2 6 :: [] ∧ MayWrite (someResult 2 6) [someResult 1 5] (s.bring 0 0))
    ∧ (let r : Result 64 := { tag := 1, regs := [(31, 9)], issued := 0, minLat := 100, maxLat := some 100 };
      let s := { streamWorld [] with clock := { cycle := 100 }, sq := { (streamWorld []).sq with pend := [r] } };
      s.holds 0 = true ∧ (s.bringStream 0).sq.pend = [] ++ r :: [] ∧ MayWrite r [] (s.bringStream 0))
    ∧ (let s := parked (.trap { cause := .page, addr := 0x8000 } 0x1000 false) [];
      Concerns s 0 0 ∧ CanTrap (s.bring 0 0)) :=
  ⟨⟨⟨by decide, by decide⟩, rfl, by unfold MayWrite; decide⟩, ⟨rfl, rfl, by unfold MayWrite; decide⟩, concerns _ _, by unfold CanTrap; decide⟩
theorem wit_ParkedInstructionsEnd :
    (let s := parked (.yield 99) [];
      Concerns s 0 0 ∧ (s.bring 0 0).th.park = .yield 99 ∧ 99 < (s.bring 0 0).clock.cycle)
    ∧ (∀ pk, Concerns (parked pk []) 0 0 ∧ ((parked pk []).bring 0 0).th.park = pk)
    ∧ ((∀ m ∈ ((parked (.flush [3]) []).bring 0 0).pl.net, [3].contains m.id = false)
      ∧ writesOpen (parked (.icinv 0 128 []) []) 1 = false ∧ (parked (.icinv 0 128 []) []).th.pct ≤ 100)
    ∧ shrinkWaits (parked (.wshrink 4 8) []) 0 8 = false
    ∧ ((parked (.poolRel 4) []).warp.block = some 0 ∧ scratchOpen (parked (.poolRel 4) []) 0 = false)
    ∧ hasRecords (stopAtt 1 511 (parked (.unwatch none 511 false) [])) 1 511 = false
    ∧ hasRecords (discardRecords 1 511 (stopAtt 1 511 (parked (.unwatch none 511 true) []))) 1 511 = false :=
  ⟨⟨concerns _ _, rfl, by decide⟩, fun pk => ⟨concerns _ _, rfl⟩, by decide, by decide, by decide, by decide, by decide⟩

/-- The world with a dense handle at 0x8000: one row, one column, FP32, of the word at 0x9000. -/
def handleBytes : List Byte := [0x9000, 0, 0, 1 + 2 ^ 32, 4, 0, 0, 0].flatMap (fun v => leBytes v 8)
def handleWorld : State :=
  { parked (.fget 5 (some 5) 0x8000 0 0 0) [] with mem := setBytes (world []).mem (atAddr 0x8000 handleBytes) }

set_option maxRecDepth 8192 in
theorem wit_ReadsOfParkedInstructions :
    (let s := parked (.fwait 0x8000 0x8000 0 (some 5) false) [];
      Concerns s 0 0 ∧ lineClear s 0x8000 = true ∧ Reaches s (masterCore s) 1 0x8000 4 ∧ isPoisoned s 0x8000 4 = false
      ∧ l1Find s (lineOf 0x8000) = none ∧ BitVec.ofNat 32 (leNat (homeBytes s 0x8000 4)) = 0 ∧ waitRoom s 0x8000 = true)
    ∧ (let s := handleWorld;
      let f : FetchFor := { ctx := 1, thread := true, fresh := false };
      let h : BitVec 512 := BitVec.ofNat 512 (leNat handleBytes);
      ∃ vt0 u0 bs vt u1 v, Concerns s 0 0 ∧ fetchHandle f 0x8000 s = (.ok (h, vt0), u0) ∧ fgetRegs (fhElem h) 5 (some 5) 0 u0.warp.regsPer = none
        ∧ handleOk h = true ∧ arraysInG u0 1 h = .ok true ∧ 0 < fhRows h ∧ 0 < fhCols h
        ∧ fetchUnits f h (rowUnits h 0 0 1) u0 = (.ok (bs, vt), u1) ∧ (fetchElem (unitReader bs) h 0 0).go.1 = .ok v)
    ∧ (let s := parked (.ifetch 0x1FFFFC) [];
      Concerns s 0 0 ∧ (tlbHit s.xl.coreTlb 1 0x1FFFFC .fetch).isSome = true ∧ Reaches s (masterCore s) 1 0x1FFF80 128
      ∧ isPoisoned s 0x1FFFFC 4 = false) :=
  ⟨⟨concerns _ _, by decide, ⟨by decide, by decide, by decide⟩, by decide, by decide, by decide, by decide⟩,
    ⟨_, _, _, _, _, _, ⟨by decide, rfl⟩, rfl, by decide, by decide, by decide, by decide, by decide, rfl, rfl⟩,
    concerns _ _, by decide, ⟨by decide, by decide, by decide⟩, by decide⟩

/-- The world with messages of the core on their way, at cycle and nanosecond 100. -/
def netWorld (ms : List Msg) : State :=
  { parked .none [] with pl := { (world []).pl with net := ms } }

/-- A write of one byte at 0x8000, and a step of an atomic there. -/
def someWrite : WriteMsg := { ws := [(0x8000, 1)], writer := .evict, depth := 0, ctx := 1 }
def someStep : AtomicStep := { uid := 1, slot := 0, lane := 0, tag := 1, f := 0, pa := 0x8000, b := 1, expect := 0 }

theorem wit_MessagesAtTheHome :
    (let s := netWorld [⟨3, .write someWrite⟩];
      s.pl.net.find? (·.id == 3) = some ⟨3, .write someWrite⟩ ∧ mayServe s ⟨3, .write someWrite⟩ = true
      ∧ windowHolds s 256 = false ∧ Reaches s (writerMaster s someWrite.writer) 1 0x8000 1)
    ∧ (let m : Msg := ⟨3, .write { someWrite with ack := some (104, []) }⟩;
      (netWorld [m]).pl.net.find? (·.id == 3) = some m ∧ mayReturn (netWorld [m]) m = true)
    ∧ (let f : Fill := { line := 256, sec := 1, lease := 1024, ctx := 1 };
      let s := netWorld [⟨3, .fill f⟩];
      s.pl.net.find? (·.id == 3) = some ⟨3, .fill f⟩ ∧ mayServe s ⟨3, .fill f⟩ = true ∧ Reaches s (fillMaster s f) 1 (256 * 128 + 1 * 64) 64)
    ∧ (let f : Fill := { line := 256, sec := 0, lease := 1024, reply := some (List.replicate 64 0, 1124, 0, false) };
      (netWorld [⟨3, .fill f⟩]).pl.net.find? (·.id == 3) = some ⟨3, .fill f⟩ ∧ mayReturn (netWorld [⟨3, .fill f⟩]) ⟨3, .fill f⟩ = true)
    ∧ (let a : AtomicMsg := { steps := [someStep], depth := 0, ctx := 1 };
      let s := netWorld [⟨3, .atomic a⟩];
      mayServe s ⟨3, .atomic a⟩ = true ∧ windowHolds s 256 = false ∧ Reaches s (masterCore s) 1 (bodyLine (.atomic a) * 128) 128)
    ∧ (let x : McastMsg := { line := 256, n0 := 0, mask := 1, bit := 0, lease := 1024, waits := [] };
      let s := netWorld [⟨3, .mcast x⟩];
      mayServe s ⟨3, .mcast x⟩ = true ∧ Reaches s (masterCore s) s.ctxNo (256 * 128) 128)
    ∧ (let w : Window := { slice := 0, line := 256, n0 := 0, mask := 1, joined := 0, asked := 1, reqs := [], opened := 36, len := 64 };
      w.closed = none ∧ w.opened + w.len ≤ (netWorld []).clock.cycle ∧ ({ w with closed := some 36 }).closed = some 36 ∧ 36 + w.len ≤ (netWorld []).clock.cycle) :=
  ⟨⟨rfl, rfl, by decide, by decide, by decide, by decide⟩, ⟨rfl, rfl⟩, ⟨rfl, rfl, by decide, by decide, by decide⟩, ⟨rfl, rfl⟩,
    ⟨rfl, by decide, by decide, by decide, by decide⟩, ⟨rfl, by decide, by decide, by decide⟩, rfl, by decide, rfl, by decide⟩
theorem wit_CommitsAndLeases : (world []).sl.atts = [] := rfl

/-- A task of two blocks, a block, and a record of core 0. -/
def someTask : QEntry := { ctx := 1, tree := 0, prio := 0, since := 0, work := .task 0x8000 0x9000 0 2 0 }
def someBlock : QEntry := { ctx := 1, tree := 0, prio := 0, since := 0, work := .block 0x8000 0x9000 0 2 1 }
def someRecord (lane : Nat) : QEntry :=
  { ctx := 1, tree := 0, prio := 0, since := 0, work := .cont 0 { hdr := recHeader 0 0 lane 0x4000, regs := [], pct := 0, depth := 0 } }

/-- A trigger record of slice 3. -/
def someTrig (seq : Nat) : TrigRec :=
  { ctx := 1, slice := 3, aid := 511, gaddr := 0, depth := 1, count := 1, wct := 0, prio := 0, seq := seq, tree := 0 }

theorem wit_QueuesOfWork :
    (let s := { world [] with sched := { segs := [(5, [someTask])], dieQ := List.replicate 7 someBlock } };
      MayPull .die s.sched.dieQ.length s ∧ (pullOrder s).find? (fun k => !(segTake s k).isEmpty) = some 5)
    ∧ (let s := { world [] with sched := { dieQ := [someTask] } };
      MayPull .cluster s.sched.clusterQ.length s ∧ (splitBlocks 8 (inOrder s.clock.cycle s.sched.dieQ)).1 ≠ [])
    ∧ (let s := { world [] with sched := { segs := [(0, [someRecord 0])] } };
      MayPull .core s.sched.coreQ.length s ∧ ownRecords s ≠ [])
    ∧ (let s := { world [] with sched := { clusterQ := [someBlock] } };
      MayPull .core s.sched.coreQ.length s ∧ ownRecords s = [] ∧ s.sched.clusterQ ≠ [])
    ∧ ((List.replicate 511 someBlock).length + [someBlock].length ≤ 512 ∧ (List.replicate 63 someBlock).length + [someBlock].length ≤ 64
      ∧ (List.replicate 31 someBlock).length + [someBlock].length ≤ 32)
    ∧ (let s := { world [] with sched := { rings := [{ q := 3, ctx := 1, blocks := [[someBlock]] }] } };
      (segOf s 3).length + 8 ≤ 256 ∧ firstRing s 3 = some { q := 3, ctx := 1, blocks := [[someBlock]] })
    ∧ (let s := { world [] with sl := { trigRings := [{ slice := 3, ctx := 1, head := 1 }] } };
      (s.ctx? 1).isSome = true ∧ onChip s 3 1 + 8 ≤ 256 ∧ (chipRecords s 3).length + 8 ≤ 256 ∧ (trigRing s 3 1).tail < (trigRing s 3 1).head)
    ∧ (let s := { world [] with sl := { trigRings := [{ slice := 3, ctx := 1, lost := 1, reported := some 0 }] }, clock := { tbase := 4096 } };
      0 < (trigRing s 3 1).lost ∧ (trigRing s 3 1).reported = some 0 ∧ 0 + 4096 ≤ s.clock.tbase)
    ∧ (let s := { world [] with sl := { atts := [att511], trigs := [someTrig 1, someTrig 0], lastDispatch := [(3, 0)] }, clock := { cycle := 4 } };
      (∀ x ∈ s.sl.lastDispatch, x.1 = 3 → x.2 + 4 ≤ s.clock.cycle) ∧ nextTrig s 3 = some (someTrig 0)
      ∧ s.sl.atts.find? (fun k => k.ctx == 1 && k.id == 511) = some att511 ∧ (segPush 3 someTask s).isSome = true) :=
  ⟨⟨⟨by decide, by decide⟩, by decide⟩, ⟨⟨by decide, by decide⟩, by decide⟩, ⟨⟨by decide, by decide⟩, by decide⟩,
    ⟨⟨by decide, by decide⟩, by decide, by decide⟩, ⟨by rw [List.length_replicate]; decide, by rw [List.length_replicate]; decide, by decide⟩, ⟨by decide, by decide⟩, ⟨by decide, by decide, by decide, by decide⟩,
    ⟨by decide, by decide, by decide⟩, by decide, by decide, by decide, by decide⟩

/-- Bytes of 64-bit words. -/
def dwords (l : List Nat) : List Byte := l.flatMap (fun v => leBytes v 8)

/-- A launch block at 0x9000 (Table 8-4): one role of one warp with eight registers, entry 0x4000; and a header at 0x8000 that names it. -/
def launchBytes : List Byte := dwords [0, 0, 2 ^ 42, 0, 0x4000, 1032, 0, 0, 0, 0, 0, 0, 0, 0, 0, 0]
def headerWords : List Byte := dwords [0x9000, 0, 1, 0, 0, 0, 0, 0]

/-- An idle core of context 1 whose memory holds both. -/
def idleWorld : State :=
  { State.reset with
    ctxs := (world []).ctxs, xl := (world []).xl, root := (world []).root, win := (world []).win
    mem := setBytes (setBytes (world []).mem (atAddr 0x8000 headerWords)) (atAddr 0x9000 launchBytes) }

set_option maxRecDepth 16384 in
theorem wit_BlocksWarpsAndTheirEnds :
    (let e : QEntry := { ctx := 1, tree := 0, prio := 0, since := 0, work := .block 0x8000 0x9000 0 1 0 };
      let s := { idleWorld with sched := { coreQ := [e] } };
      let l : BitVec 1024 := BitVec.ofNat 1024 (leNat launchBytes);
      (∀ b ∈ s.pl.blocks, b.argsWait = false) ∧ s.sched.lastStart = none ∧ inOrder s.clock.cycle s.sched.coreQ = [e] ∧ ctxRuns s e.ctx = true
      ∧ timePassed s e = true ∧ lbAt s e.ctx 0x9000 = .ok (some l) ∧ lbFail l = none
      ∧ (allocBlock e l (startArgs e 0x8000 0 1 0) { s with pl := { s.pl with ctx := some e.ctx } }).isSome = true)
    ∧ (let s := { idleWorld with sched := { coreQ := [someRecord 0, someRecord 31], trees := [{ n := 0, ctx := 1, count := 2 }] }, clock := { cycle := 256 } };
      let l := s.sched.coreQ.filter (fun e => isCont e && ctxRuns s e.ctx);
      l = [someRecord 0, someRecord 31] ∧ (releaseWarp (gather (someRecord 0) l) s).isSome = true
      ∧ groupDue s.clock.cycle (gather (someRecord 0) l) = true ∧ (gather (someRecord 0) l).length < 32 ∧ coreQuiet s = true)
    ∧ (let t : Tree := { n := 0, ctx := 1, count := 0, tct := 100, sigAddr := 0x9000 };
      let s := { idleWorld with sched := { trees := [t] }, clock := { tbase := 100 } };
      s.sched.trees.find? (·.n == 0) = some t ∧ t.detached = false ∧ s.cp.stopped = false ∧ isFrozen s masterCp = false ∧ planeHasTree s.pl 0 = false
      ∧ planeHasTree s.standby.plane 0 = false ∧ s.slots = [] ∧ (treeReleased 1 s).1 = true
      ∧ engHome (treeReleased 1 s).2 masterCp 1 0x9000 .write 8 = .ok 0x9000)
    ∧ (let s := { world [] with pl := { (world []).pl with shake := some (.writeback [29] [3] .toFree none) } };
      (∀ m ∈ s.pl.net, [3].contains m.id = false) ∧ ∀ x ∈ s.pl.l1, [29].contains x.bank = true → x.dirty = 0)
    ∧ (let s := { world [] with th := { (world []).th with park := .wgrow 4 512 0 } };
      growAsks s = [(0, 512, 0)] ∧ pagesCover s 0 512 = true) :=
  ⟨⟨by decide, rfl, by decide, by decide, by decide, by decide, by decide, by decide⟩, ⟨by decide, by decide, by decide, by decide, by decide⟩,
    ⟨by decide, rfl, rfl, rfl, by decide, by decide, rfl, by decide, by rfl⟩, ⟨by decide, by decide⟩, by decide, by decide⟩

/-- The idle core with queue 0 mapped: its ring at 0xA000, where packet `p` stands; `cur` is the packet in progress. -/
def cpQueue (cur : Option Nat) (did : Bool) : CpQueue :=
  { q := 0, ctx := 1, ring := 0xA000, log2n := 4, rptr := 0xB000, errRec := 0xB040, widx := 1, pins := [(0xA, 0xA), (0xB, 0xB)], cur := cur, did := did }
def cpWorld (p : Nat) (x : CpQueue) : State :=
  { idleWorld with mem := setBytes idleWorld.mem (atAddr 0xA000 (leBytes p 64)), cp := { queues := [x] } }

/-- A packet of a type with the words at ADDR and VALUE. -/
def packet (ty addr val : Nat) : Nat := ty + 2 ^ 64 * addr + 2 ^ 128 * val

set_option maxRecDepth 16384 in
theorem wit_PacketsAct :
    (let p := packet 1 0x8000 0;
      let x := cpQueue none false;
      let s := cpWorld p x;
      let u := setCpq 0 (fun y => { y with cur := some p }) s;
      let h : BitVec 512 := BitVec.ofNat 512 (leNat headerWords);
      AtPacket 1 0 x p s u ∧ x.pct ≤ u.clock.tbase ∧ launchCheck u 1 (pkAddr p) = .ok (.inr h)
      ∧ (launchSeed 1 (pkAddr p) h (BitVec.ofNat 32 (pkCount p)) 0 { n := 0, ctx := 1, count := 0, queue := some 0 } u).isSome = true)
    ∧ (∀ ty ∈ [2, 5], let p := packet ty 0x8000 0x9000;
      let x := cpQueue (some p) false;
      AtPacket ty 0 x p (cpWorld p x) (cpWorld p x) ∧ cpRead (cpWorld p x) 1 (pkAddr p).toNat 8 = .ok (0x8000, leBytes 0x9000 8))
    ∧ (∀ did, let p := packet 3 0xC000 7;
      let x := cpQueue (some p) did;
      AtPacket 3 0 x p (cpWorld p x) (cpWorld p x) ∧ engHome (cpWorld p x) masterCp 1 0xC000 .write 8 = .ok 0xC000)
    ∧ (let p := packet 3 0xC000 7 + 256;
      let x := cpQueue (some p) false;
      AtPacket 3 0 x p (cpWorld p x) (cpWorld p x) ∧ p / 256 % 2 = 1 ∧ engHome (cpWorld p x) masterCp 1 0xC000 .atomic 8 = .ok 0xC000
        ∧ isPoisoned (cpWorld p x) 0xC000 8 = false)
    ∧ (let p := packet 4 0 0;
      AtPacket 4 0 (cpQueue (some p) false) p (cpWorld p (cpQueue (some p) false)) (cpWorld p (cpQueue (some p) false)))
    ∧ (∀ did, let p := packet 6 0x8000 1;
      let x := cpQueue (some p) did;
      AtPacket 6 0 x p (cpWorld p x) (cpWorld p x) ∧ (match patchTable (cpWorld p x) 1 p with | .ok es => es.length == 1 | _ => false) = true)
    ∧ (idleWorld.win.state = .ready ∧ (∀ x ∈ (cpWorld 0 (cpQueue none false)).cp.queues, x.q = 0 → x.skip = 0))
    ∧ (let g : Graph := { g := 255, ctx := 1, nodes := 0x8000, nnodes := 1, sigAddr := 0, sigVal := 0 };
      (0x1FF : BitVec 64).toNat % 256 = 255 ∧ ({ idleWorld with cp := { graphs := [g] } } : State).cp.graphs.find? (·.g == 255) = some g)
    ∧ (let s := { idleWorld with hart := { n := 3, wait := some (1, 0x8000, 0, 5) } };
      s.hart.wait = some (1, 0x8000, 0, 5) ∧ 0x8000 < Config.memBytes ∧ isFrozen s masterCp = false ∧ reaches s masterCp 0x8000 8 = true
        ∧ isPoisoned s 0x8000 8 = false ∧ relHolds 1 (BitVec.ofNat 64 (getLe s.mem 0x8000 8)) 0 = true) := by
  refine ⟨?_, ?_, ?_, ?_, ?_, ?_, ?_, ?_, ?_⟩
  · exact ⟨⟨by decide, by decide, rfl, rfl, by decide, by decide, Or.inr ⟨rfl, rfl, 0xA000, by decide, by decide, by decide, by decide, by decide⟩⟩,
      by decide, by decide, by decide⟩
  · intro ty h
    simp only [List.mem_cons, List.not_mem_nil, or_false] at h
    rcases h with rfl | rfl <;>
      exact ⟨⟨by decide, by decide, rfl, rfl, by decide, by decide, Or.inl ⟨rfl, rfl⟩⟩, by decide⟩
  · intro did
    cases did <;> exact ⟨⟨by decide, by decide, rfl, rfl, by decide, by decide, Or.inl ⟨rfl, rfl⟩⟩, by decide⟩
  · exact ⟨⟨by decide, by decide, rfl, rfl, by decide, by decide, Or.inl ⟨rfl, rfl⟩⟩, by decide, by decide, by decide⟩
  · exact ⟨by decide, by decide, rfl, rfl, by decide, by decide, Or.inl ⟨rfl, rfl⟩⟩
  · intro did
    cases did <;> exact ⟨⟨by decide, by decide, rfl, rfl, by decide, by decide, Or.inl ⟨rfl, rfl⟩⟩, by decide⟩
  · exact ⟨rfl, by decide⟩
  · exact ⟨rfl, rfl⟩
  · exact ⟨rfl, by decide, by decide, by decide, by decide, by decide⟩

/-- The idle core with a command record: code, context, index, and four arguments. -/
def cmdWorld (k idx : Nat) (args : List Nat) : State :=
  { cpWorld 0 (cpQueue none false) with
    win := { state := .ready, cmdrec := stSetAll 0 [] ((0, BitVec.ofNat 64 (k + 2 ^ 16 + 2 ^ 24 * idx)) :: args.mapIdx (fun i v => (4 + i, BitVec.ofNat 64 v))) }
    root := { (world []).root with domain := [{ m := 1, ports := 1 }] } }

/-- A graph header at 0xD000 and its one node, a launch, at 0xE000. -/
def graphWorld : State :=
  let s := cmdWorld 6 5 [0xD000];
  { s with mem := setBytes (setBytes s.mem (atAddr 0xD000 (dwords [0xE000, 1]))) (atAddr 0xE000 (dwords [0xFFFFFFFF00000001, 0x00000000FFFFFFFF, 0x8000])) }

/-- A set of modules at 0xF000: this one. -/
def setWorld (k : Nat) : State :=
  let s := cmdWorld k 0 [0, 1, 0xF000, if k = 9 then 1 else 0];
  { s with mem := setBytes s.mem [(0xF000, 1)] }

/-- The world with the header of module 0's checkpoint of stamp 0 at region 0 of module 1, read through its port. -/
def headerBytes : List Byte := dwords [0x43504B43 + 2 ^ 32, 0, 0, 0, 2 ^ 39, 0, 0, 0]
def headedWorld (bs : List Byte) : State := { setWorld 10 with remote := soSetAll [] (atAddr (2 * 2 ^ 39) bs) }

set_option maxRecDepth 16384 in
theorem wit_CommandsRun :
    (let s := cmdWorld 1 31 [0x8000, 0xB000];
      let u := takenUp s;
      Commanded 1 s ∧ granted u masterCp (cmdCtx u) (cmdArg u 0) 128 = true ∧ granted u masterCp (cmdCtx u) (cmdArg u 1) 64 = true
      ∧ isFrozen u masterWalker = false ∧ isFrozen u masterFault = false ∧ mapBarred u = none
      ∧ (mapQueue 31 1 0x8000 0xB000 u).1 = 3 ∧ refusedAt 1 0x8000 (getLe u.mem 0xB000 64) u = some 0 ∧ granted u masterCp 1 0 64 = true)
    ∧ (let s := { cmdWorld 1 31 [0, 0xB000] with mem := setBytes (world []).mem (atAddr 0xB000 (dwords [0xA000, 4, 0xA800, 0xA840])) };
      Commanded 1 s ∧ mapBarred (takenUp s) = none ∧ (mapQueue 31 1 0 0xB000 (takenUp s)).1 = 0)
    ∧ (∀ k ∈ [2, 3, 4, 5, 7], Commanded k (cmdWorld k 0 [0, 1]))
    ∧ (let s := graphWorld;
      Commanded 6 s ∧ aligned (BitVec.ofNat 64 (cmdArg (takenUp s) 0)) 64 = true
      ∧ ∃ bs, cpRead (takenUp s) 1 0xD000 64 = .ok (0xD000, bs) ∧ GraphHeaderOk (takenUp s) (leNat bs)
        ∧ ∃ ns, graphNodes (takenUp s) (graphOf (takenUp s) (leNat bs)) = .ok ns ∧ graphBad ns = none)
    ∧ (let s := cmdWorld 8 0 [0x8000, 0];
      let u := takenUp s;
      Commanded 8 s ∧ cmdArg u 1 = u.xid ∧ copyHeld u < 32 ∧ engHome u (masterEngine u 1) (cmdCtx u) (cmdArg u 0) .read 64 = .ok 0x8000
      ∧ readPoisoned u 0x8000 64 = false)
    ∧ (∀ k ∈ [9, 10], Commanded k (setWorld k) ∧ granted (takenUp (setWorld k)) masterCp 1 0xF000 32 = true)
    ∧ (let v := takenUp (headedWorld headerBytes);
      isUnreachable v 1 = false ∧ readPoisoned v (2 * 2 ^ 39) 64 = false ∧ HeaderTaken v.win.modnum (cmdArg v 0) (targetHeader v 1 0)
      ∧ ¬ HeaderTaken 0 0 (targetHeader (takenUp (headedWorld (List.replicate 64 0))) 1 0))
    ∧ (let s := cmdWorld 11 0 [];
      HearsCommands s ∧ ActsNow s ∧ cmdBad (takenUp s) = true)
    ∧ (let s := cmdWorld 2 0 [0, 1];
      let h := { s with win := { s.win with cmdRes := 1 }, cp := { s.cp with cmd := .held, cmdrec := s.win.cmdrec } };
      let f := { s with root := { s.root with frozen := [{ master := masterCp, ctx := 1, pa := 0, time := 0 }] } };
      let b := { s with win := { s.win with cmdRes := 1 } };
      Commanded 2 h ∧ ¬ ActsNow f ∧ HearsCommands f ∧ cmdCode (takenUp f) = 2 ∧ cmdBad (takenUp f) = false
      ∧ ¬ ActsNow { s with win := { s.win with hostPct := 1 }, clock := { s.clock with tbase := 0 } } ∧ ¬ HearsCommands b
      ∧ ¬ HearsCommands { s with win := { s.win with state := .train } }) := by
  unfold Commanded ActsNow HearsCommands Accepts HeaderTaken
  refine ⟨by decide, by decide, by decide, ⟨by decide, by decide, _, rfl, ?_, _, rfl, by decide⟩, by decide, by decide, by decide, by decide, by decide⟩
  unfold GraphHeaderOk; decide


theorem wit_WindowAndManagement :
    ((7 : Nat) < 8 ∧ (127 : Nat) < 128 ∧ (255 : Nat) < 256
      ∧ (∀ k ∈ [0x20, 0xF8, 0x150, 0x1100, 0x2800, 0x3028, 0x3900, 0x4020, 0x6018], ¬ InWindow k)
      ∧ (∀ k ∈ [0x100, 0x13F, 0x140, 0x10FF, 0x27FF], WriteOnlyOffset k) ∧ (∀ k ∈ readOnlyOffsets, InWindow k ∧ ¬ WriteOnlyOffset k))
    ∧ ((104 : Nat) < 105 ∧ (114 : Nat) < 115 ∧ (world []).win.pwrcap < 3001 ∧ 2999 < (world []).win.pwrcap ∧ (world []).win.temp < 105)
    ∧ ((0x8000 : Nat) < Config.memBytes ∧ Config.memBytes < 0x8000 + 2 ^ 44 ∧ 0x8000 + 8 ≤ Config.memBytes ∧ isFrozen (world []) masterHost = false
      ∧ reaches (world []) masterHost 0x8000 8 = true ∧ reaches (world []) masterHost (2 ^ 30) 8 = false ∧ (2 ^ 20 - 8 : Nat) < 2 ^ 20
      ∧ ¬ ((world []).cp.stopped = true ∧ (world []).ckpt.st ≠ .idle)
      ∧ (let s := { world [] with cp := { stopped := true }, ckpt := { st := .draining } }; s.cp.stopped = true ∧ s.ckpt.st ≠ .idle))
    ∧ (let s := world [];
      ∃ v, [s.win.pwr, s.win.temp, stateCode s.win.state, s.win.rasCorrected, s.win.rasTransient, s.win.rasLasting, s.win.rasRetry][6]? = some v) := by
  unfold InWindow WriteOnlyOffset
  exact ⟨by decide, by decide, by decide, _, rfl⟩

/-- A mailbox request of an operation with a length, and the world with the request's first words in the mailbox. -/
def request (op len : Nat) : BitVec 64 := BitVec.ofNat 64 (op + 2 ^ 8 * 9 + 2 ^ 16 * len)
def mailWorld (st : BringUp) (ws : List Nat) : State :=
  { world [] with win := { state := st, mbox := setBytes [] (atAddr 0x100 (dwords ws)) }, ctxs := [] }

theorem wit_MailboxAndBringUp :
    Requested (request 1 32) 1 [.ready] 32 (mailWorld .ready [])
    ∧ Requested (request 2 8) 2 [.train, .ready] 8 (mailWorld .train [1784])
    ∧ Requested (request 3 8) 3 [.waitFw, .verify, .train] 8 (mailWorld .verify [12345])
    ∧ (∀ w ∈ [0x1FF, 0x5FF], let s := mailWorld .ready [w, 0];
      let u := heard (request 4 16) s;
      Requested (request 4 16) 4 [.train, .ready] 16 s ∧ rqDword u 0 = w ∧ w / 2 ^ 11 = 0 ∧ rqDword u 1 / 2 ^ 48 = 0 ∧ w % 256 ≠ s.win.modnum
      ∧ w.testBit 8 = true ∧ (w = 0x5FF → w.testBit 10 = true ∧ w.testBit 9 = false ∧ rqDword u 1 = 0 ∧ s.ctxs = []) ∧ (w = 0x1FF → w.testBit 10 = false))
    ∧ (let s := mailWorld .ready [0x047F0100, 0x1000, 0x1000];
      let u := heard (request 5 24) s;
      Requested (request 5 24) 5 [.train, .ready] 24 s ∧ grKind s = 0 ∧ grKind u = 0 ∧ rangeArgsOk u = true ∧ rqDword u 2 ≠ 0)
    ∧ (let s := mailWorld .ready [0x047F0101, 0x1000, 0];
      grKind s = 1 ∧ rangeArgsOk (heard (request 5 24) s) = true)
    ∧ (let s := mailWorld .ready [2 + 2 ^ 32 * 63 + 2 ^ 40, 0x200000, 0x200000];
      grKind s = 2 ∧ grantArgsOk (heard (request 5 24) s) (2 ^ 21) = true)
    ∧ (∀ w ∈ [3, 0x10003], let s := { mailWorld .ready [w] with root := { frozen := [{ master := 3, ctx := 1, pa := 0, time := 0 }] } };
      let u := heard (request 6 8) s;
      Requested (request 6 8) 6 [.ready] 8 s ∧ rqDword u 0 / 2 ^ 17 = 0 ∧ u.root.frozen.find? (·.master == rqDword u 0 % 65536) = some ⟨3, 1, 0, 0⟩
      ∧ (w = 3 → actionIs false s = true) ∧ (w = 0x10003 → actionIs true s = true))
    ∧ (let s := mailWorld .waitFw [2 ^ 22 - 2032, 1];
      Requested (request 7 2048) 7 [.waitFw] (16 + 2032) s ∧ rqDword (heard (request 7 2048) s) 0 % 16 = 0
      ∧ rqDword (heard (request 7 2048) s) 0 + 2032 ≤ 2 ^ 22 ∧ rqDword (heard (request 7 2048) s) 1 = 1)
    ∧ (reqOp (request 0 0) = 0 ∧ 7 < reqOp (request 255 0) ∧ reqOp (request 1 31) = 1 ∧ reqLen (request 1 31) ≠ 32 ∧ (mailWorld .ready []).root.serving = none
      ∧ (mailWorld .train []).win.state ≠ .ready) := by
  unfold Requested
  exact ⟨by decide, by decide, by decide, by decide, by decide, by decide, by decide, by decide, by decide, by decide⟩

/-- An idle core of module 1 whose neighbour 0 is in the domain, its only port out of service. -/
def linkWorld : State :=
  { netWorld [⟨3, .fill { line := 2 ^ 32, sec := 0, lease := 0 }⟩, ⟨4, .write { someWrite with ws := [(2 ^ 39, 1)] }⟩] with
    win := { state := .ready, modnum := 1 }, root := { domain := [{ m := 0, ports := 1 }], exports := [⟨0, 0x8000, 0x1000, true, true⟩] }
    ports := [{ n := 0, out := true }], clock := { tbase := 200000000, cycle := 100 } }

theorem wit_DomainAndLinks :
    followsDomain linkWorld = true
    ∧ (let s := { linkWorld with win := { state := .ready, modnum := 0 }, root := { domain := [{ m := 1, ports := 1 }] } };
      followsDomain s = false ∧ ∃ d ∈ s.root.domain, d.pool = false)
    ∧ (linkWorld.syncLost = false ∧ ({ linkWorld with syncLost := true } : State).syncLost = true
      ∧ (let d : Int := ((200000040 : Nat) : Int) - linkWorld.clock.tbase; -40 ≤ d ∧ d ≤ 40) ∧ (let d : Int := ((199999959 : Nat) : Int) - linkWorld.clock.tbase; ¬ (-40 ≤ d ∧ d ≤ 40)))
    ∧ (stGet 0 linkWorld.heard 0 + 100000000 ≤ linkWorld.clock.tbase ∧ linkWorld.unreachable.contains 0 = false ∧ 0 ∉ linkWorld.ckptSet
      ∧ 0 ∈ ({ linkWorld with ckptSet := [0, 1] } : State).ckptSet)
    ∧ (∀ x ∈ [({ n := 0 } : Port), { n := 0, fails := [199999999, 199000001] }], let s := { linkWorld with ports := [x] };
      s.ports.find? (·.n == 0) = some x ∧ x.out = false ∧ isFrozen s (masterPort 0) = false ∧ (∀ m ∈ s.pl.net ++ s.standby.plane.net, m.id ≠ 9)
      ∧ (x.fails = [] → ((s.clock.tbase :: x.fails).filter (fun t => decide (s.clock.tbase < t + 1000000))).length < 3)
      ∧ (x.fails ≠ [] → 3 ≤ ((s.clock.tbase :: x.fails).filter (fun t => decide (s.clock.tbase < t + 1000000))).length))
    ∧ (∃ m f, linkWorld.pl.net.find? (·.id == 3) = some m ∧ m.body = .fill f ∧ isX (bodyLine m.body * 128) = true
      ∧ isUnreachable linkWorld (xModule (bodyLine m.body * 128)) = true ∧ bodyServed m.body = false)
    ∧ (∃ m w, linkWorld.pl.net.find? (·.id == 4) = some m ∧ m.body = .write w ∧ isX (bodyLine m.body * 128) = true
      ∧ isUnreachable linkWorld (xModule (bodyLine m.body * 128)) = true ∧ bodyServed m.body = false)
    ∧ (∃ m w, let s := { linkWorld with ports := [{ n := 0 }] };
      s.pl.net.find? (·.id == 4) = some m ∧ m.body = .write w ∧ portOf s (bodyLine m.body * 128) = 0)
    ∧ (let s := { linkWorld with root := { linkWorld.root with grants := (world []).root.grants } };
      isFrozen s (masterPort 0) = false ∧ (0x8F80 % 128 + 127 < 128 ∧ exported s 0x8F80 128 false true = true ∧ exported s 0x8F80 129 false true = false
      ∧ exported s 0x8FF8 8 true true = true ∧ exported s 0x8FF8 4 true false = true ∧ isPoisoned s 0x8FF8 8 = false
      ∧ reaches s (masterPort 0) 0x8F80 128 = true ∧ reaches s (masterPort 0) 0x8FF8 8 = true ∧ reaches linkWorld (masterPort 0) 0x8F80 128 = false
      ∧ isPoisoned { s with sl := { poison := [0x8FF8 / 64] } } 0x8FF8 8 = true)) :=
  ⟨by decide, by decide, by decide, by decide, by decide, ⟨_, _, rfl, rfl, by decide, by decide, by decide⟩, ⟨_, _, rfl, rfl, by decide, by decide, by decide⟩,
    ⟨_, _, rfl, rfl, congrArg (fun k => [0].getD k 0) (Nat.mod_one _)⟩, by decide⟩

/-- The world with a walk of page `k` that the thread waits for. -/
def walkWorld (k : Nat) : State :=
  { parked (.walk (k * 4096) .read) [] with xl := { (world []).xl with walks := [{ ctx := 1, page := k, acc := .read, granted := true }] } }

/-- The same with an outstanding fault in the first record of a fault queue at 0xC000, answered with `r`. -/
def faultWorld (r : Nat) : State :=
  { walkWorld 512 with
    xl := { faults := [{ ctx := 1, page := 512, acc := .read, kind := 0, level := 1, entry := 0, srcid := 0, idx := some 0 }] }
    ctxs := [{ n := 1, hvec := 0x4000, ptRoot := 0x10000, fqAddr := 0xC000, widx := 1 }]
    mem := setBytes (world []).mem (atAddr 0xC040 (leBytes (r * 2 ^ 448) 64)) }

set_option maxRecDepth 8192 in
theorem wit_FaultsAndErrors :
    (let s := { world [] with xl := { walks := [⟨1, 0, .read, true, []⟩, ⟨1, 1, .read, false, []⟩] } };
      s.xl.walks = [⟨1, 0, .read, true, []⟩] ++ ⟨1, 1, .read, false, []⟩ :: [] ∧ (∀ x ∈ [(⟨1, 0, .read, true, []⟩ : Walk)], x.granted = true)
      ∧ (s.xl.walks.filter (·.granted)).length < 64)
    ∧ (∀ k ∈ [511, 512], let s := walkWorld k;
      isFrozen s masterWalker = false ∧ walkBarred s 1 (k * 4096) = none ∧ walkWanted s 1 k .read = true
      ∧ (∀ b ∈ [Acc.write, .atomic, .fetch], walkWanted s 1 k b = false ∧ coreWants s 1 k b = false)
      ∧ (k = 511 → (match walkPage s 1 (k * 4096) .read with | .leaf _ _ _ => true | _ => false) = true)
      ∧ (k = 512 → (match walkPage s 1 (k * 4096) .read with | .fault _ _ _ => true | _ => false) = true ∧ s.xl.faults = []))
    ∧ (let s := { walkWorld 511 with th := { (walkWorld 511).th with park := .pages 511 } };
      walkWanted s 1 511 .read = false ∧ coreWants s 1 511 .read = true
      ∧ ∀ b ∈ [Acc.write, .atomic, .fetch], walkWanted s 1 511 b = false ∧ coreWants s 1 511 b = false)
    ∧ (let c : Ctx := { n := 1, fqAddr := 0xC000, widx := 14 };
      let s := { faultWorld 0 with ctxs := [c] };
      s.ctx? 1 = some c ∧ (c.widx + 2 ^ 32 - c.ridx) % 2 ^ 32 < c.fqSize ∧ isFrozen s masterFault = false ∧ granted s masterFault 1 (faultAddr c 14) 64 = true
      ∧ granted s masterFault 1 c.fqAddr 64 = true)
    ∧ (faultResp (faultWorld 1) { ctx := 1, page := 512, acc := .read, kind := 0, level := 1, entry := 0, srcid := 0, idx := some 0 } = 1
      ∧ isFrozen (faultWorld 1) masterFault = false ∧ granted (faultWorld 1) masterFault 1 (respAddr (faultWorld 1) { ctx := 1, page := 512, acc := .read, kind := 0, level := 1, entry := 0, srcid := 0, idx := some 0 }) 8 = true
      ∧ 2 ≤ faultResp (faultWorld 2) { ctx := 1, page := 512, acc := .read, kind := 0, level := 1, entry := 0, srcid := 0, idx := some 0 })
    ∧ ∃ l, l1Find (cached [] [1]) 256 = some l :=
  ⟨⟨rfl, by decide, by decide⟩, by decide, by decide, by decide, by decide, _, rfl⟩

/-- The world with its context paused: its plane is to be swapped out. -/
def pausedWorld : State := { world [] with ctxs := [{ n := 1, paused := true, saveArea := 0x200000 }], clock := { cycle := 100, tbase := 100 } }

/-- A saved context without blocks, and an image of the module. -/
def someSlot : SaveSlot := { ctx := 1, standby := { plane := { ctx := some 1 } } }
def someImage : CkptImage :=
  { target := 1, base := 0, t := 50, modnum := 0, sched := {}, sl := {}, cp := {}, ctxs := [], slots := [], mem := [] }

set_option maxRecDepth 16384 in
theorem wit_SwapsAndCheckpoints :
    (swapWanted pausedWorld.stow = true ∧ swapOpen pausedWorld.stow = true)
    ∧ (let u := { pausedWorld with swapEnd := some 100 }.stow;
      u.swapEnd = some 100 ∧ 100 ≤ u.clock.cycle ∧ planeIdle u = false)
    ∧ (let u := { pausedWorld with pl := {}, th := {}, standby := { st := .saving, plane := (world []).pl } }.stow;
      u.standby.plane.ctx = some 1 ∧ saveReady u = true ∧ isFrozen u masterSpill = false ∧ granted u masterSpill 1 (slotAddr u 1) 0x118000 = true)
    ∧ (let s := { pausedWorld with slots := [someSlot], cp := { resuming := [1] }, mem := [(0x200000, 1)] };
      slotOf s 1 = some someSlot ∧ s.cp.resuming.contains 1 = true ∧ s.standby.st = .empty ∧ s.standby.engineDue = false ∧ s.swapEnd = none
      ∧ slotValid s 1 = true ∧ isFrozen s masterSpill = false ∧ clusterRoom s someSlot.standby true = true
      ∧ granted s masterSpill 1 (slotAddr s 1) 0x118000 = true ∧ (standbyFree s).1 = true)
    ∧ (∀ q ∈ [([] : List SeqCtx), [{}]], let s := { pausedWorld with standby := { st := .restoring, plane := { ctx := some 1 }, seqs := q } };
      s.standby.st = .restoring ∧ s.standby.plane.ctx = some 1 ∧ isFrozen s masterSpill = false ∧ granted s masterSpill 1 (slotAddr s 1) 0x118000 = true
      ∧ slotPoisoned s 1 (savedBanks s.standby.plane) false 0 = false
      ∧ slotPoisoned { s with sl := { poison := [slotAddr s 1 / 64] } } 1 (savedBanks s.standby.plane) false 0 = true
      ∧ (q = [] → s.standby.hasEngine = false) ∧ (q ≠ [] → s.standby.hasEngine = true))
    ∧ (∀ q ∈ [([] : List SeqCtx), [{}]], let s := { pausedWorld with standby := { st := .saving, engineDue := true, nframes := 8, seqs := q } };
      isFrozen s masterSpill = false ∧ granted s masterSpill 1 (slotAddr s 1) 0x118000 = true ∧ slotPoisoned s 1 [] true 8 = false
      ∧ slotPoisoned { s with sl := { poison := [(slotAddr s 1 + 0x8000) / 64] } } 1 [] true 8 = true ∧ s.pl.ctx = some 1 ∧ s.standby.engineDue = true ∧ s.standby.st ≠ .restoring ∧ s.standby.st ≠ .ready ∧ s.swapEnd = none
      ∧ clusterRoom s s.standby false = true ∧ (q = [] → s.standby.hasEngine = false) ∧ (q ≠ [] → s.standby.hasEngine = true))
    ∧ (({ st := .armed, t := 100 } : Ckpt).t ≤ pausedWorld.clock.tbase
      ∧ (let s := { idleWorld with ckpt := { st := .draining, set := [0, 1] } };
        drained s.stow = true ∧ allQuiesced s = false))
    ∧ (({ st := .barrier 0 } : Ckpt).got.contains 1 = false ∧ ({ st := .draining } : Ckpt).got.contains 1 = false)
    ∧ (let s := { idleWorld with ckpt := { st := .barrier 0, set := [0, 1] }, clock := { tbase := 1000000000 } };
      s.ckpt.st = .barrier 0 ∧ 0 + 1000000000 ≤ s.clock.tbase ∧ allQuiesced s = false)
    ∧ (let s := { idleWorld with ckpt := { st := .streaming, target := 1 }, images := [someImage] };
      s.ckpt.st = .streaming ∧ s.images.find? (fun x => x.target == s.ckpt.target && x.base == s.ckpt.base) = some someImage)
    ∧ (let s := { headedWorld [] with ckpt := { st := .restoring, target := 1, t := 50 }, images := [someImage], remote := soSetAll [] (atAddr (2 * 2 ^ 39) (dwords [0x43504B43 + 2 ^ 32, 0, 50, 0, 2 ^ 39, 0, 0, 0])) };
      isUnreachable s 1 = false ∧ HeaderTaken s.win.modnum 50 (targetHeader s 1 0)
      ∧ s.images.find? (fun x => x.target == s.ckpt.target && x.base == s.ckpt.base) = some someImage ∧ (∀ c ∈ s.remote, someImage.byteAt c.1 = none)
      ∧ ¬ HeaderTaken s.win.modnum 49 (targetHeader s 1 0)) := by
  unfold HeaderTaken
  exact ⟨⟨by decide, by decide⟩, by decide, by decide, by decide, by decide, by decide, by decide, by decide, by decide, by decide, by decide⟩

/-- A `tfree` in the reservation table at a stage. -/
def freeEntry (st : EStage) : REntry :=
  { n := 3, maj := 0x30, f := 5, dnum := 0, dv := 0x8000, av := 0, bv := 0, payload := 0, ctx := 0, block := 0, fmt := 0, issued := 0, seq := 7, prio := 0
    depth := 0, phase := 0, stage := st, checked := true }
def engineWorld (e : REntry) : State :=
  { tileWorld .ready [] with cl := { table := [e], seqs := [{ n := 0, held := true, block := 0 }] }, clock := { cycle := 100, tbase := 100 } }

/-- A copy of one FP32 element from 0x8000 to 0x9000, and its operation. -/
def copyDesc : BitVec 512 := BitVec.ofNat 512 (leNat (dwords [0x8000, 0x9000, 0, 0x0001000100010001]))
def copyOp (k : CopyKind) (started : Bool) : CopyOp := { someOp with kind := k, desc := copyDesc, started := started }

/-- A window fetch of the one element of the handle at 0x8000. -/
def fetchOp (rows : Nat) : CopyOp := { someOp with kind := .fgetb, addr := 0x8000, quad := BitVec.ofNat 128 (2 ^ 96 * (1 + 2 ^ 16 * rows)) }

set_option maxRecDepth 16384 in
theorem wit_EnginesAdvance :
    (let e := freeEntry .fetched;
      let s := engineWorld e;
      settleTable s = s ∧ (∀ x ∈ s.cl.table, onPort x = true → running x = false) ∧ (∀ x ∈ s.cl.table, onPort x ≠ true → x.stage ≠ .fetched)
      ∧ e ∈ s.cl.table ∧ onPort e = true ∧ eligible s e = true ∧ s.cl.table.Pairwise (fun x y => x.n ≠ y.n)
      ∧ (∀ x ∈ s.cl.table, x.n = e.n) ∧ nextTile e = some 0)
    ∧ (let e := freeEntry .accepted;
      let s := engineWorld e;
      s.cl.table.find? (·.n == 3) = some e ∧ e.isFrozen = false ∧ e.denied = false ∧ e.checked = true ∧ unserved s e.waitIds = false
      ∧ isFrozen s (masterEngine s 0) = false ∧ s.pl.blocks.any (·.handle == e.block) = true ∧ nextTile e = some 0
      ∧ ∃ o log, (passBody s (homeReader s (masterEngine s 0) (entryCtx s e) false) e 0).goBytes = (.ok o, log)
        ∧ (∀ l ∈ s.pl.l1, log.lines.contains l.line = true → l.dirty = 0) ∧ writesPending s log.lines.eraseDups = false)
    ∧ (let e := freeEntry (.inPass 100);
      let s := engineWorld e;
      s.cl.table.filter (fun x => match x.stage with | .inPass t => decide (t ≤ s.clock.cycle) | _ => false) = [e]
      ∧ ∃ o ws later, (passBody s (snapReader e.snap) e 0).go.1 = .ok o ∧ homeWrites s (entryCtx s e) [] o.writes = .ok ws
        ∧ homeWrites s (entryCtx s e) [] o.later = .ok later)
    ∧ (let e := freeEntry .releasing;
      let s := engineWorld e;
      s.cl.table.find? (·.n == 3) = some e ∧ s.pl.blocks.any (·.handle == e.block) = true ∧ e.undone = false ∧ ({ e with undone := true } : REntry).undone = true
      ∧ e.stage = .releasing ∧ engineOpen s 0 e.seq = false ∧ e.later = [] ∧ relMet s e.payload e.opct = true
      ∧ ({ e with later := [(0x9000, 1)] } : REntry).later ≠ [])
    ∧ (let c := copyOp .cpy false;
      let s := { world [] with cl := { copyQ := [c] } };
      copiesToRun s = [c] ∧ planeFree c = true ∧ statusCode c.status = 0 ∧ c.denied = false ∧ tileGone s c.bank = false ∧ tileGone s c.srcBank = false
      ∧ ∃ k, planChunk (setCopy c.id (fun x => { x with accepted := true }) (takeTiles c s)) c = .ok k)
    ∧ (∀ k ∈ [CopyKind.cpy, .hostCopy], let c := copyOp k true;
      let s := { world [] with cl := { copyQ := [c] } };
      s.cl.copyQ.find? (·.id == 7) = some c ∧ copyOver s c = true ∧ s.pl.ctx = some c.ctx)
    ∧ (let s := { handleWorld with cl := { fetchQ := [fetchOp 1] } };
      let c := fetchOp 1;
      let d : BitVec 512 := BitVec.ofNat 512 (leNat handleBytes);
      s.cl.fetchQ.find? (·.id == 7) = some c ∧ opRuns s c = true ∧ s.pl.ctx = some c.ctx ∧ c.frozen = none ∧ unserved s c.waitIds = false
      ∧ opHeld s c = false ∧ s.cp.stopped = false ∧ c.denied = false ∧ c.accepted = false ∧ c.block = some 0
      ∧ (∃ vt u, fetchHandle { ctx := 1, thread := false, fresh := false } 0x8000 s = (.ok (d, vt), u) ∧ arraysInG u 1 d = .ok true)
      ∧ windowCheck d 0 0 0 1 1 4096 = 0 ∧ windowCheck d 0 0 0 2 1 4096 ≠ 0)
    ∧ (let d : BitVec 512 := BitVec.ofNat 512 (leNat handleBytes);
      let c := { fetchOp 1 with accepted := true, desc := d };
      let s := { handleWorld with cl := { fetchQ := [c] } };
      c.rest = [] ∧ ({ c with rest := [1], restAt := 127 } : CopyOp).rest ≠ [] ∧ c.done < 1 ∧ ∃ bs vt u vs, fetchUnits { ctx := 1, thread := false, fresh := false } d (rowUnits d 0 0 1) s = (.ok (bs, vt), u)
        ∧ (rowElems (unitReader bs) d 0 1 0).go.1 = .ok vs) :=
  ⟨⟨by decide, by decide, by decide, by decide, by decide, by decide, by decide, by decide, by decide⟩,
    ⟨by decide, by decide, by decide, by decide, by decide, by decide, by decide, by decide, _, _, rfl, by decide, by decide⟩,
    ⟨by decide, _, _, _, rfl, rfl, rfl⟩, by decide,
    ⟨by decide, by decide, by decide, by decide, by decide, by decide, _, rfl⟩, by decide,
    ⟨by decide, by decide, by decide, by decide, by decide, by decide, by decide, by decide, by decide, by decide, ⟨_, _, rfl, by decide⟩, by decide, by decide⟩,
    rfl, by decide, by decide, _, _, _, _, rfl, rfl⟩

/-- 1 and 2 over 3 and 4 in FP32, and the same with a zero column. -/
def someMat : Mat := [[0x3F800000, 0x40000000], [0x40400000, 0x40800000]]
def flatMat : Mat := [[0x3F800000, 0x40000000], [0, 0x40800000]]

set_option maxRecDepth 8192 in
theorem wit_MatrixPasses :
    (∀ m ∈ [0x30, 0x31, 0x32, 0x33], ∀ f ∈ List.range 9, let e := { freeEntry .accepted with maj := m, f := f }; e.maj = m ∧ e.f = f)
    ∧ (let e := { freeEntry .accepted with f := 1, payload := 0 }; e.a.kind ≠ 1)
    ∧ (let e := { freeEntry .accepted with f := 2, dv := 16 }; 16 ≤ e.dv.toNat ∧ blockStart (engineWorld e) e 0 ≤ e.dv.toNat
      ∧ e.dv.toNat < blockStart (engineWorld e) e 1)
    ∧ (let e := { freeEntry .accepted with f := 2, dv := 2 ^ 32 }; blockStart (engineWorld e) e 64 ≤ e.dv.toNat)
    ∧ (let e := { freeEntry .accepted with maj := 0x31, f := 0 }; e.b.cols = e.a.cols)
    ∧ (let e := { freeEntry .accepted with maj := 0x32, f := 0 }; e.d.rows = e.d.cols)
    ∧ (IsMat someMat 2 2 ∧ (∀ i, 0 ≤ i → i < 2 → isFinite .f32 (matAt someMat i 0) = true) ∧ IsPivot .f32 someMat 2 0 1 ∧ Fmt.f32.mag (matAt someMat 1 0) ≠ 0)
    ∧ (isFinite .f32 (matAt [[0x7F800000]] 0 0) = false ∧ IsPivot .f32 [[0]] 1 0 0 ∧ Fmt.f32.mag (matAt [[0]] 0 0) = 0)
    ∧ (¬ ((Fmt.f32.decode (matAt someMat 0 0)).isNan = true ∨ fle .f32 (matAt someMat 0 0) 0 = true) ∧ fle .f32 (matAt [[0]] 0 0) 0 = true)
    ∧ (Fmt.f32.mag 0x80000000 = 0 ∧ Fmt.f32.mag 0x3F800000 ≠ 0)
    ∧ ((∀ i, 0 < i → i < 2 → Fmt.f32.mag (matAt flatMat i 0) = 0) ∧ ∃ i, 0 < i ∧ i < 2 ∧ Fmt.f32.mag (matAt someMat i 0) ≠ 0)
    ∧ (∀ j ∈ [0], j < 2 ∧ 1 < 2)
    ∧ entryOf (engineWorld (freeEntry .accepted)) 7 = some (freeEntry .accepted) := by
  refine ⟨by decide, by decide, ?_, ?_, by decide, by decide, ⟨by unfold IsMat; decide, ?_, ⟨by decide, by decide, ?_⟩, by decide⟩,
    ⟨by decide, ⟨by decide, by decide, ?_⟩, by decide⟩, by decide, by decide, ⟨?_, 1, by decide, by decide, by decide⟩, by decide, rfl⟩
  · simp [freeEntry, blockStart]
  · have h : ∀ (k : Nat) (s : State) (e : REntry), ((List.range k).map (fun i => 8 + 4 * (liveWords s e i).length)).sum ≤ k * 264 := fun k s e => by
      induction k with
      | zero => simp
      | succ k ih =>
        have : (liveWords s e k).length ≤ 64 := (List.length_filter_le _ _).trans (by simp)
        simp only [List.range_succ, List.map_append, List.sum_append, List.map_cons, List.map_nil, List.sum_cons, List.sum_nil]
        omega
    intro e
    exact (Nat.add_le_add_left (h 64 _ e) 16).trans (by decide)
  all_goals intro i a b; obtain rfl | rfl : i = 0 ∨ i = 1 := by omega
  all_goals first | decide | omega

theorem wit_ComparisonsWriteOneOrZero : Executes (.ltn false 5 6 7 none) (world [(6, 0xFFFFFFFF)]) ∧ Executes (.lt false 5 6 7 none) (world [(6, 0xFFFFFFFF)]) :=
  ⟨can (by decide) (by decide), can (by decide) (by decide)⟩
theorem wit_WindowBase :
    Executes (.wbase false 5) (world [(5, 63)]) ∧ (63 : Word).getLsbD 0 = true
    ∧ Executes (.wbase false 5) (world [(5, 64)]) ∧ (world []).warp.regsPer - 2 < (64 : Word).toNat
    ∧ Executes (.wbase false 5) (world [(5, 62)]) ∧ (62 : Word).getLsbD 0 = false ∧ (62 : Word).toNat ≤ (world []).warp.regsPer - 2
    ∧ (let w := { world [] with th := { (world []).th with wb := 62 } };
      let i := (Instr.add false 95 0 1 none).ins;
      w.th.wb = 62 ∧ ∃ u ∈ i.sh.uses, u.f.toNat ≤ 95 ∧ u.slot = .d ∧ ∃ v ∈ i.sh.uses, v.f.toNat ≤ 95 ∧ v.slot ≠ .d ∧ sourceThread w i.alu v.slot = some w.th) :=
  ⟨can (by decide) (by decide), by decide, can (by decide) (by decide), by decide, can (by decide) (by decide), by decide, by decide, by decide⟩
theorem wit_DecodeEncodeAgree : (Instr.ldmcQ true 92 94 0x40 (some 0x5E00)).wf = true ∧ (Instr.kwaitGeu 31 0 31).wf = true := by decide

/-- The world with the word of `exit` at the thread's and the stream's PC. -/
def codeWorld : State := { world [] with icache := [(codeKey 1 0x1000, 0x26000003), (codeKey 1 0x2000, 0x26000003)] }

theorem wit_StepRunsDecodedInstruction :
    (let s := { codeWorld with bundle := [(0, 0)] };
      let b : State := { s.fetchThread 0 0 with bundle := [], actor := .simt };
      s.powered = true ∧ b.th.live = true ∧ codeWord? b b.ctxNo b.th.pc = some 0x26000003
      ∧ (decodePair 0x26000003 ((codeWord? b b.ctxNo (b.th.pc + 4)).getD 0)).isSome = true)
    ∧ ({ codeWorld with agenda := [.timeSyncLoss] } : State).bundle = []
    ∧ (let s := { codeWorld with turn := .stream, sq := { n := 0, held := true, block := 0, pc := 0x2000 } };
      s.bundle = [] ∧ s.agenda = [] ∧ nextSeqNo s = some 0
      ∧ codeWord? (bringSeq 0 s) (bringSeq 0 s).ctxNo (bringSeq 0 s).sq.pc = some 0x26000003 ∧ (decodePair 0x26000003 0).isSome = true)
    ∧ (let s := { codeWorld with icache := [(codeKey 1 0x2000, 0)], turn := .stream, sq := { n := 0, held := true, block := 0, pc := 0x2000 } };
      s.bundle = [] ∧ s.agenda = [] ∧ nextSeqNo s = some 0 ∧ codeWord? (bringSeq 0 s) (bringSeq 0 s).ctxNo (bringSeq 0 s).sq.pc = some 0
      ∧ decodePair 0 ((codeWord? (bringSeq 0 s) (bringSeq 0 s).ctxNo ((bringSeq 0 s).sq.pc + 4)).getD 0) = none)
    ∧ (let s := { idleWorld with turn := .hart, cp := { harts := [{ n := 0 }], fw := [(0, 0x0000008B)] } };
      s.bundle = [] ∧ s.agenda = [] ∧ nextHartNo s = some 0 ∧ fwWord (bringHart 0 s) (bringHart 0 s).hart.pc = 0x0000008B)
    ∧ decodeHart 0x0000008B ≠ none
    ∧ (let s := { idleWorld with turn := .hart, cp := { harts := [{ n := 0 }], fw := [(0, 0x00000013)] } };
      nextHartNo s = some 0 ∧ fwWord (bringHart 0 s) (bringHart 0 s).hart.pc = 0x00000013)
    ∧ decodeHart 0x00000013 = none
    ∧ ({ world [] with powered := false } : State).powered = false := by
  refine ⟨by decide, rfl, by decide, by decide, by decide, by simp [decodeHart], by decide, by simp [decodeHart], rfl⟩
theorem wit_ThreadsKept : PlaneOk (twoLanes 1).pl ∧ ThreadsOk State.reset ∧ ∃ t, Steps { State.reset with agenda := [.timeSyncLoss] } t := by
  unfold PlaneOk ThreadsOk PlaneOk
  exact ⟨by decide, by decide, _, rfl⟩
theorem wit_MemoryCanonicalKept : MemoryOk State.reset ∧ ∃ t, Steps { State.reset with agenda := [.timeSyncLoss] } t :=
  ⟨⟨rfl, fun _ h => nomatch h⟩, _, rfl⟩

/-! ## Witnesses of the clauses about checks, ends, pool answers and barriers -/

/-- The thread with register 6 poisoned. -/
def poisonWorld : State := { world [] with th := { (world []).th with poisoned := [6] } }

theorem wit_ChecksPinned :
    ¬ PayloadLegal (Instr.add false 5 6 7 (some 2)).ins.sh (some 2)
    ∧ (PayloadLegal (Instr.add false 5 126 7 none).ins.sh none ∧ ∃ u ∈ (Instr.add false 5 126 7 none).ins.sh.uses, ¬ FieldLegal u)
    ∧ (let i := (Instr.add false 5 64 7 none).ins;
      (∀ u ∈ i.sh.uses, FieldLegal u) ∧ i.sh.extra = true ∧ i.sh.simt = true ∧ ∃ u ∈ i.sh.uses, FailsBounds (world []) i u 64)
    ∧ (let i := (Instr.add false 5 6 7 none).ins;
      (∀ u ∈ i.sh.uses, ∀ p, ¬ FailsBounds poisonWorld i u p) ∧ (∃ u ∈ i.sh.uses, ReadsPoison poisonWorld i u 6)
      ∧ ∀ u ∈ i.sh.uses, ∀ p, ¬ ReadsPoison (world []) i u p)
    ∧ (∀ i ∈ [Instr.pref false 6, .watch false 4 6, .poolMap false 5 6], (quietRule i).isSome = true
      ∧ checkFail i.ins poisonWorld = some { cause := .poison, info := 6 } ∧ poisonWorld.actor ≠ .stream)
    ∧ (∃ r, floatRule (.faddS false 5 6 7 none) = some r)
    ∧ checkFail (Instr.faddS false 5 6 7 none).ins poisonWorld = some { cause := .poison, info := 6 } := by
  have own : ∀ u ∈ (Instr.add false 5 6 7 none).ins.sh.uses, readFrom (world []) (Instr.add false 5 6 7 none).ins u = some (world []).th := by decide
  have low : ∀ u ∈ (Instr.add false 5 6 7 none).ins.sh.uses, let k := indexOf poisonWorld (Instr.add false 5 6 7 none).ins u
    ¬ poisonWorld.warp.regsPer ≤ k ∧ ¬ poisonWorld.warp.regsPer < k + u.n ∧ wiAt (Instr.add false 5 6 7 none).ins.alu u.slot = false := by decide
  refine ⟨fun h => ?_, ⟨⟨nofun, nofun⟩, ?_⟩, ⟨?_, rfl, rfl, ?_⟩, ⟨fun u hu p h => ?_, ?_, fun u hu p h => ?_⟩, by decide, ⟨_, rfl⟩, by decide⟩
  · exact absurd h.2.2.2.2.2.2.2.1 (by decide)
  · unfold FieldLegal; decide
  · unfold FieldLegal; decide
  · unfold FailsBounds; decide
  · obtain ⟨h1, h2, h3⟩ := low u hu
    obtain ⟨-, ⟨h | h, -⟩ | ⟨-, h, -⟩⟩ := h
    · exact h1 h
    · exact Bool.false_ne_true (h3.symm.trans h.1)
    · exact h2 h
  · exact ⟨⟨6, 1, .src, .a⟩, by decide, by decide, by decide, by decide, by decide, _, rfl, by decide⟩
  · obtain ⟨-, -, -, -, t, ht, hp⟩ := h
    rw [own u hu] at ht
    cases ht
    exact nomatch hp

theorem wit_TrapsOfEveryCause :
    (Cause.page, 8) ∈ causeTable ∧ (Cause.cascade, 32) ∈ causeTable ∧ CanTrap (world [])
    ∧ (let r : Result 32 := { tag := 1, regs := [(9, 0)], ready := false, issued := 0, minLat := 40, maxLat := none };
      ({ (world []).th with pend := [r] } : Thread).allReady = false)
    ∧ (world []).th.allReady = true ∧ ({ (world []).th with inh := true } : Thread).inh = true
    ∧ (world []).pl.ctx = some 1 ∧ (world []).th.deferred = none := by
  unfold CanTrap; decide

/-- The thread in its handler, with a saved PC that is not canonical, or not aligned. -/
theorem wit_ReturnTraps :
    canonical 0x0100000000000000 = false ∧ canonical 2 = true ∧ (2 : DWord).toNat % 4 ≠ 0
    ∧ ({ (world []).th with inh := true, frame := { trpc := 2 } } : Thread).allReady = true := by decide

/-- Lane 0 of block 0, with another living lane, a barrier that both take part in, and `p` arrivals to come. -/
def leaveWorld (p arrived : Nat) : State :=
  { twoLanes 0 with pl := { (twoLanes 0).pl with
      blocks := [{ handle := 0, ctx := 1, stream := some 0, bars := [(15, { count := 2, pending := p, arrived := arrived, part := 3 }), (14, { part := 2 })] }] } }

theorem wit_ThreadLeavesBarriers :
    ∀ x ∈ [(1, 0), (2, 0), (1, 1)], let s := leaveWorld x.1 x.2
      PlaneOk s.pl ∧ s.warp.block = some 0 ∧ (∃ u ∈ s.pl.threads, u.slot = s.th.slot)
      ∧ ∃ b, s.block? 0 = some b ∧ (barOf b 15).part.testBit s.th.tid = true ∧ (barOf b 15).count ≠ 0 ∧ (barOf b 15).pending = x.1
        ∧ (barOf b 15).arrived.testBit s.th.tid = decide (x.2 = 1) ∧ ¬ ((barOf b 14).part.testBit s.th.tid = true) := by
  unfold PlaneOk; decide

/-- A collective of lane 1, which has arrived, lane 0 and, under mask 7, lane 2. -/
def meeting (m : Word) : Coll := { slot := 0, pc := 0x1000, f := 2, mask := m, inh := false, got := [{ lane := 1, av := 0, dst := none }] }
def others : List Thread := [{ live := true, uid := 2, lane := 1 }, { live := true, uid := 3, lane := 2 }]
def meetWorld (m : Word) : State :=
  { twoLanes 0 with pl := { (twoLanes 0).pl with
      colls := [meeting m], threads := others } }

set_option maxRecDepth 4096 in
theorem wit_ThreadLeavesCollectives :
    (∀ m, PlaneOk (meetWorld m).pl ∧ (meetWorld m).pl.colls = [meeting m] ∧ (meeting m).slot = (meetWorld m).th.slot ∧ (meeting m).got ≠ []
      ∧ ∀ g ∈ (meeting m).got, g.lane ≠ (meetWorld m).th.lane ∧ ∃ u ∈ (meetWorld m).pl.threads, u.live = true ∧ u.is 0 g.lane = true)
    ∧ (meeting 3).mask.getLsbD 0 = true ∧ (meeting 3).mask &&& livingMask { meetWorld 3 with th := {} } 0 &&& ~~~(arrivedMask (meeting 3)) = 0
    ∧ (meeting 7).mask &&& livingMask { meetWorld 7 with th := {} } 0 &&& ~~~(arrivedMask (meeting 7)) ≠ 0 := by
  unfold PlaneOk
  have h : ∀ g ∈ [({ lane := 1, av := 0, dst := none } : CollArrival)], g.lane ≠ 0 ∧ ∃ u ∈ others, u.live = true ∧ u.is 0 g.lane = true := by decide
  exact ⟨fun m => ⟨⟨(by decide : others.Pairwise (fun t u => t.key < u.key)), (by decide : ∀ t ∈ others, t.live = true ∧ t.lane < 32)⟩, rfl, rfl, nofun, h⟩,
    by decide, by decide, by decide⟩

theorem wit_LastThreadLeaves :
    (let s := { freeWorld [] with sched := { trees := [{ n := 0, ctx := 1, count := 1 }] } };
      (∀ u ∈ s.pl.threads, u.slot ≠ s.th.slot) ∧ ∃ w tr, s.warpAt? s.th.slot = some w ∧ w.block = none ∧ s.sched.trees.find? (·.n == w.tree) = some tr)
    ∧ (let b : Block := { handle := 0, ctx := 1, scratch := 128 };
      let s := { world [] with pl := { (world []).pl with blocks := [b] }, sched := { trees := [{ n := 0, ctx := 1, count := 1 }] } };
      (∃ w, s.warpAt? s.th.slot = some w ∧ w.block = some 0) ∧ s.block? 0 = some b ∧ b.stream = none
      ∧ (∀ y ∈ s.pl.warps, y.slot ≠ s.th.slot → y.block ≠ some 0) ∧ (∃ tr, s.sched.trees.find? (·.n == b.tree) = some tr) ∧ tilesOf s 0 = [])
    ∧ (netWorld [⟨3, .write someWrite⟩]).pl.net ≠ [] :=
  ⟨⟨by decide, _, _, rfl, rfl, rfl⟩, ⟨⟨_, rfl, rfl⟩, rfl, rfl, by decide, ⟨_, rfl⟩, by decide⟩, by decide⟩

theorem wit_OperandReads :
    (let i := (Instr.fmaD false 4 6 8 (some (5 <<< 22 ||| 1 <<< 17))).ins;
      ∃ u ∈ i.sh.uses, (i.sh.uses.map (·.slot)).Nodup ∧ u.role ≠ .dst ∧ u.n ≤ 8 ∧ bitsFrom i.alu 22 3 ≠ 7 ∧ bitsFrom i.alu 14 3 ≠ 7
        ∧ readFrom (world []) i u = none ∧ ∃ v ∈ i.sh.uses, v.role ≠ .dst ∧ v.n ≤ 8 ∧ readFrom (world []) i v = some (world []).th ∧ v.f.toNat ≤ 95)
    ∧ (let i := (Instr.add false 5 125 7 (some (3 <<< 22 ||| 1 <<< 17))).ins;
      ∃ u ∈ i.sh.uses, u.role ≠ .dst ∧ u.n ≤ 8 ∧ 96 ≤ u.f.toNat ∧ (readFrom (twoLanes 0) i u).isSome = true) :=
  ⟨⟨⟨6, 2, .src, .a⟩, by decide, by decide, by decide, by decide, by decide, by decide, by decide, ⟨8, 2, .src, .b⟩, by decide, by decide, by decide, by decide, by decide⟩,
    ⟨125, 1, .src, .a⟩, by decide, by decide, by decide, by decide, by decide⟩

/-- The world with a request of the warp in progress, and with a grow of another warp ahead. -/
def busyWorld (rs : List (Nat × Word)) : State :=
  { world rs with pl := { (world rs).pl with warps := [{ slot := 0, regsPer := 64, block := some 0, reqBusy := true }] } }
def behindWorld (rs : List (Nat × Word)) : State :=
  { world rs with pl := { (world rs).pl with
      warps := [{ slot := 0, regsPer := 64, block := some 0 }, { slot := 1, regsPer := 64 }]
      threads := [{ live := true, uid := 2, slot := 1, park := .wgrow 9 512 8 }] } }

/-- The world with the sixteen banks from 2 on the pool's, and those above 29 the cache's: no free page is left. -/
def fullWorld (rs : List (Nat × Word)) (c : List Nat) : State :=
  { world rs with pl := { (world rs).pl with pmap := ((List.range 32).map (fun k => (k, ({ role := if k ∈ c then .cache else .scratch } : Bank)))) } }

theorem wit_GrowthAnswers :
    (Executes (.wgrow false 5 6) (world [(6, 0x400 + 512)]) ∧ (0x400 + 512) / 1024 % 2 ^ 21 ≠ 0)
    ∧ (Executes (.wgrow false 5 6) (world [(6, 8)]) ∧ RegCount 8 ∧ 8 ≤ (world []).warp.regsPer)
    ∧ (Executes (.wgrow false 5 6) (world [(6, 0x80000000 + 512)]) ∧ (0x80000000 + 512) / 2 ^ 31 = 1 ∧ (world []).warp.reqBusy = false)
    ∧ (Executes (.wgrow false 5 6) (busyWorld [(6, 512)]) ∧ (busyWorld []).warp.reqBusy = true ∧ ¬ ∃ x ∈ growAsks (busyWorld []), x.1 = 0)
    ∧ (Executes (.wgrow false 5 6) (behindWorld [(6, 512)]) ∧ growAsks (behindWorld []) ≠ [] ∧ (behindWorld []).warp.reqBusy = false)
    ∧ (Executes (.wgrow false 5 6) (fullWorld [(6, 512)] [30, 31]) ∧ growAsks (fullWorld [] [30, 31]) = [] ∧ pagesCover (fullWorld [] [30, 31]) 0 512 = false
      ∧ takenFor 4 (fullWorld [] [30, 31]) = none ∧ takenFor 4 (fullWorld [] [26, 27, 28, 29, 30, 31]) = some [31, 30, 29, 28])
    ∧ (Executes (.wshrink false 5 6) (world [(6, 9)]) ∧ ¬ RegCount 9) ∧ Executes (.wshrink false 5 6) (world [(6, 64)])
    ∧ (let s := { world [(62 + 6, 8)] with th := { (world [(62 + 6, 8)]).th with wb := 62 } };
      windowBeyond s 0 8 = true) :=
  ⟨⟨can (by decide) (by decide), by decide⟩, ⟨can (by decide) (by decide), by unfold RegCount; decide, by decide⟩,
    ⟨can (by decide) (by decide), by decide, by decide⟩, ⟨can (by decide) (by decide), by decide, by decide⟩,
    ⟨can (by decide) (by decide), by decide, by decide⟩, ⟨can (by decide) (by decide), by decide, by decide, by decide, by decide⟩,
    ⟨can (by decide) (by decide), by unfold RegCount; decide⟩, can (by decide) (by decide), by decide⟩

/-! ## Witnesses of the clauses about the pool, regions, loads, barriers and release points -/

theorem wit_PoolAnswers :
    (∀ st ∈ [TileSt.empty, .filling], Executes (.tmark false 5 6) (tileWorld st []) ∧ ∃ t, localTile (tileWorld st []) 0 = some t ∧ t.st = st)
    ∧ (∃ t, localTile { tileWorld .ready [] with pl := { (tileWorld .ready []).pl with tiles := [{ key := 1, bank := 0, owner := 0, st := .ready, readers := 1 }] } } 0 = some t
      ∧ t.readers ≠ 0)
    ∧ Executes (.poolRel false 5 6) (world []) ∧ Executes (.poolRel false 5 6) (busyWorld [(6, 4)]) ∧ (busyWorld []).warp.block = some 0
    ∧ (let s := { world [(6, 2)] with pl := { (world []).pl with shake := some (.reloc 0 [(0, 0, 0)] none) } };
      Executes (.poolRel false 5 6) s ∧ s.warp.reqBusy = false ∧ scratchOpen s 0 = true) := by
  refine ⟨fun st h => ?_, ⟨_, rfl, by decide⟩, can (by decide) (by decide), can (by decide) (by decide), rfl, can (by decide) (by decide), by decide, by decide⟩
  simp only [List.mem_cons, List.not_mem_nil, or_false] at h
  rcases h with rfl | rfl <;> exact ⟨can (by decide) (by decide), _, rfl, rfl⟩

set_option maxRecDepth 8192 in
theorem wit_RefusedRegions :
    (let s := cached [(6, 0x8000)] (descOf 0x9000 0);
      Executes (.watch false 5 6) s ∧ ¬ WatchRecord (recordOf (descOf 0x9000 0)) ∧ ∃ u, HasRecord 0x8000 (descOf 0x9000 0) s u)
    ∧ (WatchRecord (recordOf descBytes) ∧ WatchRecord (recordOf (descOf 0x1FF000 8192)) ∧ WatchRecord (recordOf (descOf 0x9000 8192)))
    ∧ homesFrom [] [9] = none
    ∧ (∃ k < 1, [0xB000][k]? ≠ some (0x9000 + (k + 1) * 4096))
    ∧ (let s := { world [] with sl := { atts := (List.range 512).map (fun k => { att511 with id := k, pa := 0x9000 }) } };
      freeAttId s 1 (rangeSlices 0x9000 64) = none)
    ∧ (let s := { world [(6, 511), (7, 2)] with sl := { atts := [att511] } };
      Executes (.unwatch false 5 6 7) s ∧ s.sl.atts.any (fun k => k.ctx == s.ctxNo && k.id == 511) = true ∧ 1 < (2 : Word).toNat)
    ∧ Executes (.unwatch false 5 6 7) (world [(6, 512)]) := by
  unfold WatchRecord
  exact ⟨⟨can (by decide) (by decide), by decide, _, Or.inl ⟨rfl, some 0, by decide, rfl⟩⟩, by decide, by decide, by decide, by decide,
    ⟨can (by decide) (by decide), by decide, by decide⟩, can (by decide) (by decide)⟩

theorem wit_BytesOfLoads :
    AloneAt 256 (cached [] [1])
    ∧ (let s := { cached [] [] with pl := { (cached [] []).pl with l1 := [{ line := 256, bank := 30, dirty := 3, bytes := [(1, 7)] }] } };
      isX 0x8000 = false ∧ (∀ q ∈ ownQueue s s.th.uid, q.atom = none) ∧ (∀ k < 2, lastAt (waitingBytes s) (0x8000 + k) = none)
      ∧ ∀ k < 2, ownByteAt s (0x8000 + k) = some ([0, 7].getD k 0) ∧ dirtyBad s (0x8000 + k) = false)
    ∧ (∀ k < 1, (lastAt (waitingBytes (queuedWorld [])) (0x8000 + k)).isSome = true ∧ ownByteAt (queuedWorld []) (0x8000 + k) = some ([7].getD k 0)
      ∧ dirtyBad (queuedWorld []) (0x8000 + k) = false)
    ∧ (let s := cached [] [1];
      ownQueue s s.th.uid = [] ∧ (∀ k < 64, lastAt (ownSent s s.th.uid) (0x8000 + k) = none) ∧ inWriteBack s 0x8000 64 = false
      ∧ ∃ l, l1Find s (lineOf 0x8000) = some l ∧ (∃ k < 64, l.dirty.testBit k = false) ∧ l.valid0 = true ∧ s.clock.tbase < l.exp0 ∧ l.poison0 = false)
    ∧ (let s := world [(5, 7), (6, 0x8000)];
      ∃ t, exec (.stW false 5 6 0 none) s = .next t ∧ Executes (.stW false 5 6 0 none) s ∧ ownQueue s s.th.uid = [] ∧ lineHeld s 1 0x8000 = false
        ∧ bundleEvict s s.bundleNo 256 = none ∧ AloneAt (lineOf 0x8000) s ∧ l1Find s 256 = none
        ∧ Executes (.ldW false 7 6 0 none) t ∧ (tlbHit t.xl.coreTlb t.ctxNo 0x8000 .read).isSome = true ∧ servedAtHome (memOrd none) = false
        ∧ ∀ k < 4, dirtyBad t (0x8000 + k) = false) := by
  refine ⟨⟨rfl, nofun⟩, by decide, by decide, ⟨by decide, by decide, by decide, _, rfl, ⟨0, by decide, by decide⟩, rfl, by decide, rfl⟩,
    _, rfl, can (by decide) (by decide), by decide, by decide, by decide, ⟨rfl, nofun⟩, by decide, can (by decide) (by decide), by decide, by decide, by decide⟩

theorem wit_LinesHeld : lineHeld (world []) 0 0 = false ∧ lineHeld (world []) 1 0x8000 = false ∧ lineHeld (queuedWorld []) 1 0x8000 = true := by decide

theorem wit_TranslationsAbove :
    (∃ e u, Executes (.pref false 6) { world [(6, 0x8000)] with xl := { clusterTlb := (world []).xl.clusterTlb } }
      ∧ AboveCore 0x8000 e { world [(6, 0x8000)] with xl := { clusterTlb := (world []).xl.clusterTlb } } u)
    ∧ ∃ e u, AboveCore 0x8000 e { world [(6, 0x8000)] with xl := { dieTlb := (world []).xl.clusterTlb } } u :=
  ⟨⟨_, _, can (by decide) (by decide), by decide, Or.inl ⟨rfl, rfl⟩⟩, _, _, by decide, Or.inr ⟨by decide, rfl, rfl⟩⟩

theorem wit_BarriersRefused :
    (∃ b, Executes (.nbInit false 6 0) (world []) ∧ (world []).thBlock = some b ∧ 65535 < (65536 : Word).toNat)
    ∧ (∃ b, let s := leaveWorld 1 1; Executes (.nbInit false 6 15) s ∧ s.thBlock = some b ∧ (barOf b 15).pending ≠ (barOf b 15).count) :=
  ⟨⟨_, can (by decide) (by decide), rfl, by decide⟩, _, can (by decide) (by decide), rfl, by decide⟩

/-- An instance of lanes 0 and 31 that has met. -/
def metColl (f : Nat) (a b : Word) : Coll := { slot := 0, pc := 0x1000, f := f, mask := 0x80000001, inh := false, got := [arrived 0 a, arrived 31 b] }

theorem wit_CollectivesComplete :
    (∀ f, ((metColl f 0 1).got.map (·.lane)).Nodup) ∧ (metColl 14 0 0).f = 14 ∧ ((metColl 15 0 0).f ≠ 13 ∧ (metColl 15 0 0).f ≠ 14)
    ∧ (∃ me ∈ (metColl 13 0 1).got, ∃ g ∈ (metColl 13 0 1).got, g.fv ≠ me.fv)
    ∧ (∀ me ∈ (metColl 13 1 1).got, (∀ g ∈ (metColl 13 1 1).got, g.fv = me.fv) ∧ me.fv.toNat = 1) ∧ ¬ WmmFormat 1
    ∧ (∀ me ∈ (metColl 13 0 0).got, (∀ g ∈ (metColl 13 0 0).got, g.fv = me.fv) ∧ me.fv.toNat = 0) ∧ WmmFormat 0
    ∧ ∀ g ∈ (metColl 13 0 0).got, g.lane < 32 := by
  refine ⟨fun f => (by decide : [0, 31].Nodup), rfl, ⟨by decide, by decide⟩, by decide, by decide, by unfold WmmFormat; decide, by decide, by unfold WmmFormat; decide, by decide⟩

theorem wit_HartFreezes :
    let s := { world [] with root := {}, hart := { x := [(2, 0x8000)] } }
    (hartGet s.hart 2).toNat % 8 = 0 ∧ (hartGet s.hart 2).toNat < Config.memBytes ∧ isFrozen s masterCp = false ∧ reaches s masterCp 0x8000 8 = false := by decide

theorem wit_ReleasePoints :
    (∀ pk, queuedPoint 0 0 (parked pk []) = parked pk [])
    ∧ ReadsServed (parked (.fence true false 2 7) []) [] 7 none
    ∧ (let s := { parked (.fence true false 2 7) [] with pl := { (parked .none []).pl with net := [⟨3, .fill { line := 256, sec := 0, lease := 64, waits := [{ slot := 0, lane := 0, tag := 1, pa := 0x8000, size := 4 }] }⟩] } };
      ¬ ReadsServed s [1] 7 none)
    ∧ (let s := { cached [] [1] with pl := { (cached [] [1]).pl with l1 := [{ line := 256, bank := 30, dirty := 1, bytes := [(0, 1)] }] } };
      (s.pl.l1.map (·.line)).Nodup ∧ ∃ l ∈ s.pl.l1, l.dirty ≠ 0 ∧ l.scope < 2)
    ∧ (∀ l ∈ (cached [] [1]).pl.l1, l.dirty = 0 ∨ 2 ≤ l.scope)
    ∧ ((7 : BitVec 3).getLsbD 1 = true ∧ (4 : BitVec 3).getLsbD 1 = false)
    ∧ (let q : Queued := { someQueued with rel := none };
      let s := { world [] with pl := { (world []).pl with storeQ := [q] } };
      s.pl.puts = [] ∧ s.pl.storeQ = [q] ∧ q.slot = 0 ∧ q.lane = 0 ∧ q.scratch = none ∧ q.atom = none)
    ∧ (let r := releaseStep 1 0 2 3 none (parked .none []); r.1 = true)
    ∧ (let q : Queued := { someQueued with scratch := some 0, atom := some { someStep with pa := 0 }, ws := [] };
      q.scratch = some 0 ∧ q.atom.isSome = true ∧ ∀ x, q.atom = some x → x.f ≤ 15) := by
  refine ⟨fun pk => rfl, ⟨nofun, nofun, nofun⟩, fun h => ?_, by decide, by decide, by decide, by decide, by decide, rfl, rfl, ?_⟩
  · rcases h.1 _ (List.mem_singleton.2 rfl) with h | h
    · exact nomatch h
    · exact absurd (h _ (List.mem_singleton.2 rfl) (by decide)) (by decide)
  · rintro x h
    cases h
    decide

theorem wit_ArrivalsTakeEffect :
    (∃ b, (parked (.arrive 0 none false) []).thBlock = some b ∧ (arriveBar b.handle 0 0 (some 0) (parked (.arrive 0 none false) [])).isSome = true)
    ∧ (∃ b, let s := leaveWorld 1 0; let u := s.updBlock 0 (fun b => { b with bars := [(15, { count := 0 })] }); u.thBlock = some b ∧ (barOf b 15).count = 0)
    ∧ (∃ b, (parked (.arrive 0 (some 5) true) []).thBlock = some b
      ∧ (arriveBar b.handle 0 0 (some 0) { parked .none [] with th := { (parked .none []).th with park := .barWait 0 0 (some 5) } }).isSome = true) :=
  ⟨⟨_, rfl, by decide⟩, ⟨_, rfl, by decide⟩, _, rfl, by decide⟩

/-- The block with a crossing that lane 1 has brought 5 to, and the sequencer context of its stream. -/
def crossWorld (m : Word) (ls : List Nat) : State :=
  { twoLanes 0 with
    pl := { (twoLanes 0).pl with blocks := [{ handle := 0, ctx := 1, stream := some 0, crossings := [{ k := 7, op := 6, mask := m, got := ls.map (fun l => (0, l, 5)) }] }] }
    cl := { seqs := [{ n := 0, held := true, block := 0 }] } }

theorem wit_CrossingArrivals :
    (∃ b, (crossWorld 1 []).thBlock = some b ∧ ∃ x, b.crossings.find? (·.k == 7) = some x ∧ x.mask ≠ 2)
    ∧ (∃ t ∈ (crossWorld 1 []).living, ((crossWorld 1 []).warpAt t.slot).block = some 0 ∧ t.lane ≠ 0)
    ∧ (let s := crossWorld 1 [1];
      (∀ t ∈ s.living, ∃ g ∈ [(0, 1), (s.th.slot, s.th.lane)], g.1 = t.slot ∧ g.2 = t.lane)
      ∧ ∃ q ∈ s.allSeqs, q.n = 0 ∧ q.held = true ∧ q.block = 0 ∧ (s.allSeqs.map (·.n)).Nodup ∧ q.park = .none ∧ stWf 0 q.xseq = true ∧ stWf 0 q.xval = true) := by
  refine ⟨⟨_, rfl, _, rfl, by decide⟩, by decide, by decide, ?_⟩
  exact ⟨{ n := 0, held := true, block := 0 }, by decide, rfl, rfl, rfl, by decide, rfl, rfl, rfl⟩

theorem wit_ForcedRegisters :
    (world []).ctx? 1 = some { n := 1, hvec := 0x4000, ptRoot := 0x10000 }
    ∧ ∀ q, onChip ((world []).updCtx 1 (ctxWritten 0x104 0)) q 1 ≤ max 8 (min 256 (0 : Word).toNat) :=
  ⟨by decide, fun _ => Nat.zero_le _⟩

/-! ## Witnesses of the clauses about messages, work and the units of the module -/

/-- A load of thread 0 that waits for the bytes at 0x8000, and the world with its result outstanding. -/
def someLoad : LoadWait := { slot := 0, lane := 0, tag := 1, pa := 0x8000, va := 0x8000, size := 4 }
def loadWorld (ms : List Msg) : State :=
  { netWorld ms with th := { (netWorld []).th with pend := [{ tag := 1, regs := [(5, 0)], ready := false, issued := 0, minLat := 40, maxLat := none }] } }
def someFill (alloc : Bool) : Fill := { line := 256, sec := 0, lease := 64, ctx := 1, bundle := 3, alloc := alloc, waits := [someLoad] }

theorem wit_RepliesAndDeliveries :
    (let a : AtomicMsg := { steps := [someStep], depth := 0, ctx := 1, ack := some (104, []) };
      mayReturn (netWorld [⟨3, .atomic a⟩]) ⟨3, .atomic a⟩ = true)
    ∧ (∀ alloc, let s := loadWorld [⟨3, .fill (someFill alloc)⟩, ⟨4, .fill { someFill alloc with sec := 1, reply := some ([], 0, 0, true) }⟩];
      IsMsg 3 ⟨3, .fill (someFill alloc)⟩ s ∧ Serves ⟨3, .fill (someFill alloc)⟩ s ∧ (s.pl.net.map (·.id)).Nodup
      ∧ Reaches s (fillMaster s (someFill alloc)) 1 0x8000 64 ∧ isPoisoned s 0x8000 64 = false
      ∧ isPoisoned { s with sl := { poison := [512] } } 0x8000 64 = true ∧ ∀ w ∈ (someFill alloc).waits, w.stream = none)
    ∧ (∀ s : State, s.pl.l1 = [] → ∀ l, l1Find s 256 = some l → stWf 0 l.bytes = true) ∧ (List.replicate 64 (0 : Byte)).length = 64
    ∧ (Concerns (loadWorld []) 0 0 ∧ ((loadWorld []).bring 0 0).th.pend.any (·.tag == someLoad.tag) = true
      ∧ ((loadWorld []).bring 0 0).th.park ≠ .record 1 ∧ ((loadWorld []).bring 0 0).th.park ≠ .ret 1 ∧ someLoad.bad = false
      ∧ (∀ k < 4, dirtyBad ((loadWorld []).bring 0 0) (0x8000 + k) = false) ∧ takesAny ((loadWorld []).bring 0 0) someLoad = true) := by
  unfold Concerns Reaches Serves IsMsg
  refine ⟨rfl, fun alloc => ?_, fun s h l e => ?_, rfl, by decide⟩
  · cases alloc <;> exact ⟨rfl, ⟨rfl, by decide⟩, by decide, ⟨by decide, by decide, by decide⟩, by decide, by decide, by decide⟩
  · simp only [l1Find, h] at e
    exact nomatch e

theorem wit_AtomicsAtTheHome :
    (let a : AtomicMsg := { steps := [someStep, { someStep with lane := 1, tag := 2 }], depth := 0, ctx := 1 };
      let s := netWorld [⟨3, .atomic a⟩];
      IsMsg 3 ⟨3, .atomic a⟩ s ∧ Serves ⟨3, .atomic a⟩ s ∧ Reaches s (masterCore s) 1 (bodyLine (.atomic a) * 128) 128 ∧ a.steps ≠ []
      ∧ ∀ x ∈ a.steps, x.f ≤ 15 ∧ x.pa % atomicBytes x.f = 0 ∧ isX x.pa = false ∧ isPoisoned s x.pa 1 = false) := by
  unfold Reaches Serves IsMsg
  exact ⟨rfl, ⟨rfl, by decide⟩, ⟨by decide, by decide, by decide⟩, nofun, by decide⟩

/-- A multicast load of core 0 of the neighbourhood, and a window that it finds. -/
def someCast : McastMsg := { line := 256, n0 := 0, mask := 3, bit := 0, lease := 1024, ctx := 1, waits := [{ someLoad with size := 16 }] }
def someWindow : Window := { slice := homeSlice 0x8000, line := 256, n0 := 0, mask := 3, joined := 0, asked := 0, reqs := [], opened := 90, len := 256 }
def castWorld (x : McastMsg) (ws : List Window) : State := { loadWorld [⟨3, .mcast x⟩] with sl := { windows := ws } }

theorem wit_MulticastRequests :
    (∀ ws ∈ [[someWindow], [{ someWindow with asked := 2 }], [{ someWindow with closed := some 99 }], List.replicate 16 { someWindow with line := 0 }, []],
      let s := castWorld someCast ws;
      mayServe s ⟨3, .mcast someCast⟩ = true ∧ otherWindow s someCast = false ∧ isFrozen s (masterCore s) = false ∧ granted s (masterCore s) 1 (256 * 128) 128 = true)
    ∧ (someWindow.mask &&& ~~~(someWindow.asked ||| 1#64 <<< 0) ≠ 0 ∧ someWindow.mask &&& ~~~((2 : DWord) ||| 1#64 <<< 0) = 0
      ∧ [someWindow].findIdx? (fun w => sameWindow someCast w && w.closed.isNone) = some 0)
    ∧ (let w := { someWindow with closed := some 99 };
      [w].findIdx? (fun w => sameWindow someCast w && w.closed.isNone) = none
      ∧ (sameWindow someCast w && w.closed.any (fun k => decide (100 < k + w.len)) && w.asked &&& (1#64 <<< 0) == 0) = true)
    ∧ ((List.replicate 16 { someWindow with line := 0 }).findIdx? (fun w => sameWindow someCast w) = none
      ∧ 16 ≤ ((List.replicate 16 { someWindow with line := 0 }).filter (fun w => w.slice == homeSlice (256 * 128))).length)
    ∧ (someCast.mask &&& ~~~(1#64 <<< 0) ≠ 0 ∧ (1 : DWord) &&& ~~~(1#64 <<< 0) = 0)
    ∧ (mcastHere (castWorld someCast []) someCast = true ∧ isPoisoned (castWorld someCast []) (256 * 128) 1 = false
      ∧ isPoisoned (castWorld someCast []) (256 * 128 + 64) 1 = false ∧ ∀ w ∈ someCast.waits, lineOf w.pa = someCast.line) := by decide

theorem wit_MessagesStay :
    (let a : Msg := ⟨2, .write someWrite⟩;
      let m : Msg := ⟨3, .fill (someFill true)⟩;
      IsMsg 3 m (netWorld [a, m]) ∧ a ∈ (netWorld [a, m]).pl.net.takeWhile (·.id != 3) ∧ bodyLine a.body = bodyLine m.body ∧ bodyServed a.body = false) := by
  unfold IsMsg; decide

theorem wit_ArgumentsLoad :
    (let s := cached [(6, 0x8000)] [1];
      let b : Block := { handle := 0, ctx := 1, args := 0x8000 };
      (tlbHit s.xl.coreTlb s.ctxNo b.args.toNat .read).isSome = true ∧ ∃ u, HasRecord 0x8000 (1 :: List.replicate 63 0) s u)
    ∧ ∀ t ∈ idleWorld.pl.threads, ∃ w ∈ idleWorld.pl.warps, w.slot = t.slot ∧ t.lane < 32 :=
  ⟨⟨by decide, _, wit_RecordsAndTasks.2.2.1.2.2.2⟩, by decide⟩

/-- Graph 5 of one node in a run, and the world that holds it. -/
def someGraph (st : List (Nat × NodeSt)) : Graph := { g := 5, ctx := 1, nodes := 0xE000, nnodes := 1, sigAddr := 0, sigVal := 0, running := true, st := st }
def runWorld (x : Graph) : State := { graphWorld with cp := { graphWorld.cp with graphs := [x] } }
def nodeBytes : BitVec 512 := BitVec.ofNat 512 (leNat ((dwords [0xFFFFFFFF00000001, 0x00000000FFFFFFFF, 0x8000]) ++ List.replicate 40 0))

set_option maxRecDepth 16384 in
theorem wit_GraphsRun :
    (∀ n < 4096, ∃ t ∈ (List.range 4096).map (fun k => ({ n := k, ctx := 1, count := 1 } : Tree)), t.n = n)
    ∧ (∀ x ∈ [someGraph [], { someGraph [] with running := false, heldKick := some 5 }], (runWorld x).cp.graphs.find? (·.g == 5) = some x ∧ cpRuns (runWorld x) = true)
    ∧ ((someGraph []).running = true ∧ NodeOpen (someGraph []) 0 ∧ (5 : BitVec 64).toNat / 256 = 0 ∧ ∀ i < 1, ¬ NodeOpen (someGraph [(0, .done)]) i)
    ∧ (let s := { runWorld (someGraph []) with clock := { tbase := 7 } };
      graphNodes s (someGraph []) = .ok [nodeBytes] ∧ nodeOk 1 nodeBytes = true ∧ ndType nodeBytes = 1 ∧ ndPred nodeBytes = 0
      ∧ ∃ h, launchCheck s 1 (ndAddr nodeBytes) = .ok (.inr h)
        ∧ (launchSeed 1 (ndAddr nodeBytes) h (ndAff nodeBytes) 0 { n := 0, ctx := 1, count := 0, node := some (5, 0) } s).isSome = true) := by
  unfold NodeOpen
  exact ⟨fun n h => ⟨_, List.mem_map_of_mem (List.mem_range.2 h), rfl⟩, by decide, by decide, by decide, by decide, by decide, by decide, _, rfl, by decide⟩

theorem wit_ReadyNodes : NodeReady (someGraph []) [nodeBytes] 0 ∧ ¬ NodeSkipped (someGraph []) [nodeBytes] 0 nodeBytes :=
  ⟨⟨by decide, rfl, Or.inl ⟨_, rfl, by decide⟩⟩, fun h => h.1 (by decide)⟩

theorem wit_HostWritesOpen :
    (let s := { idleWorld with win := { state := .ready, hostPct := 1 } }; Accepts s ∧ hostOpen s = true)
    ∧ ¬ Accepts { idleWorld with root := { frozen := [{ master := masterHost, ctx := 0, pa := 0, time := 0 }] } } := by
  unfold Accepts; decide

/-- A context descriptor (Table 8-1) of the idle core's context, its save area at 0x100000, fault queue at 0xC000, rings at 0x20000, error ring at 0xC000. -/
def descriptorBytes : List Byte :=
  dwords [0x10000, 64 * 2 ^ 32, 0, 0x4000, 64 * 2 ^ 32, 32 + 2 ^ 32 * 8, 0x20000, 1, 0, 0xC000, 16 * 2 ^ 0, 0x100000, 0x10000, 0xC000, 0, 0]

/-- The world with that descriptor at 0xE000, and a queue's at 0xB000. -/
def mapWorld (ctxs : List Ctx) : State :=
  let s := cmdWorld 1 31 [0xE000, 0xB000]
  { s with ctxs := ctxs, mem := setBytes (setBytes s.mem (atAddr 0xE000 descriptorBytes)) (atAddr 0xB000 (dwords [0xA000, 4, 0xA800, 0xA840, 0, 0, 0, 0])) }

set_option maxRecDepth 16384 in
theorem wit_Mappings :
    QueueRecord (getLe (mapWorld []).mem 0xB000 64) ∧ ¬ QueueRecord (getLe (mapWorld []).mem 0xA000 64)
    ∧ isPoisoned (mapWorld []) 0xB000 64 = false
    ∧ ContextRecord (getLe (mapWorld []).mem 0xE000 128) ∧ ¬ ContextRecord (getLe (mapWorld []).mem 0x9000 128)
    ∧ (contextPages (mapWorld []) (contextFrom 1 0xE000 (getLe (mapWorld []).mem 0xE000 128))).isSome = true
    ∧ (∀ y ∈ [({ n := 1, desc := 0xE000, ptRoot := 0x10000 } : Ctx)], (mapWorld [y]).ctx? 1 = some y ∧ y.desc = 0xE000
      ∧ (queuePages (mapWorld [y]) 1 (getLe (mapWorld []).mem 0xB000 64)).isSome = true)
    ∧ (mapWorld []).ctx? 1 = none ∧ (∀ t ∈ (mapWorld []).sched.trees, t.n ≠ 0)
    ∧ queuePages (mapWorld [{ n := 1 }]) 1 (getLe (mapWorld []).mem 0xB000 64) = none := by
  unfold QueueRecord ContextRecord
  exact ⟨by decide, by decide, by decide, by decide, by decide, by decide, by decide, by decide, by decide, by decide⟩

/-! ## Witnesses of the clauses about commands, the mailbox, plane swaps and steps -/

set_option maxRecDepth 16384 in
theorem wit_CommandsRefused :
    (let u := { idleWorld with slots := [{ ctx := 1, standby := { plane := { ctx := some 1 } } }] };
      (∃ x ∈ u.slots, x.ctx = 1) ∧ 1 ∉ u.cp.resuming)
    ∧ (aligned (BitVec.ofNat 64 0xD004) 64 = false ∧ ¬ GraphHeaderOk (takenUp graphWorld) 0
      ∧ graphBad [0] = some 0)
    ∧ (let u := takenUp { cmdWorld 8 0 [0x8000, 0] with sl := { poison := [512] } };
      engHome u (masterEngine u 1) (cmdCtx u) (cmdArg u 0) .read 64 = .ok 0x8000 ∧ readPoisoned u 0x8000 64 = true)
    ∧ (let s := cmdWorld 8 0 [0x200000, 0];
      let u := takenUp { s with xl := { s.xl with missed := [{ master := masterEngine s 1, ctx := 1, page := 512, acc := .read }] } };
      ∃ va acc v, engHome u (masterEngine u 1) (cmdCtx u) (cmdArg u 0) .read 64 = .error (.fault va acc) ∧ engFault (masterEngine u 1) (cmdCtx u) va acc u = (true, v)) := by
  refine ⟨by decide, ⟨by decide, fun h => absurd h.2.2.1 (by decide), by decide⟩, by decide, 0x200000, .read, _, by decide, Prod.ext (by decide : _ = true) rfl⟩

theorem wit_FrozenHostPort :
    ¬ Accepts { world [] with root := { (world []).root with frozen := [{ master := masterHost, ctx := 0, pa := 0, time := 0 }] } }
    ∧ Accepts (world []) ∧ isFrozen { world [] with root := { frozen := [{ master := masterHost, ctx := 0, pa := 0, time := 0 }] } } masterHost = true := by
  unfold Accepts; decide

theorem wit_DomainSettles :
    (let s := { linkWorld with pl := {}, root := { linkWorld.root with domNext := [(2, some { m := 2, ports := 1 }), (0, none)] } };
      (s.root.domNext.map (·.1)).Nodup ∧ (∀ x ∈ s.root.domNext, ∀ e, x.2 = some e → e.m = x.1) ∧ xOpen s 2 = false ∧ xOpen s 0 = false
      ∧ ∀ d ∈ s.root.domain, d.m ≠ 2)
    ∧ (let s := { linkWorld with root := { linkWorld.root with domNext := [(0, none)] } };
      ∀ e, (0, e) ∈ s.root.domNext → xOpen s 0 = true) := by
  refine ⟨⟨by decide, ?_, by decide, by decide, by decide⟩, fun e h => ?_⟩
  · simp
  · decide

theorem wit_MailboxRefusals :
    (∀ st ∈ [BringUp.train, .ready], mailboxRule (mailWorld st []) (.attest (request 1 31)) = some (request 1 31, 1, [.ready], (· = 32)))
    ∧ reqOp (request 1 31) = 1 ∧ (mailWorld .train []).win.state ∉ [BringUp.ready] ∧ (mailWorld .ready []).win.state ∈ [BringUp.ready] ∧ reqLen (request 1 31) ≠ 32
    ∧ (mailWorld .ready []).root.serving = none ∧ ({ (mailWorld .ready []).root with serving := some 4 } : Root).serving ≠ none
    ∧ (mailboxRule (mailWorld .ready [0]) (.grantRange (request 5 24))).isSome = true ∧ (mailboxRule (mailWorld .ready [0x10000]) (.unfreezeReset (request 6 8))).isSome = true := by
  refine ⟨fun st h => rfl, by decide, by decide, by decide, by decide, rfl, by decide, by decide, by decide⟩

theorem wit_MastersReset :
    (world []).coreNo < 1152 ∧ masterEngine (world []) 0 ≠ masterCore (world []) ∧ masterEngine (world []) 2 ≠ masterEngine (world []) 0
    ∧ masterEngine (world []) 3 ≠ masterEngine (world []) 0 := by decide

/-- Every line of the first GiB is granted to context 1. -/
theorem wit_LinesGranted (s : State) (lo n : Nat) (h : s.root = (world []).root) (k : lo + n + 128 ≤ 2 ^ 30) : LinesGranted s 1 lo n := by
  intro i hi
  have : (world []).root.grants = [{ master := 0xFFFF, ctx := 1, base := 0, len := 2 ^ 30 }] := rfl
  simp only [granted, h, this, List.any_cons, List.any_nil, Bool.or_false]
  simp
  omega

theorem wit_SavesStop :
    let s := { pausedWorld with root := {} }
    granted s masterSpill 1 (slotAddr s 1) 1 = false ∧ isFrozen s masterSpill = false := by decide

theorem wit_StreamsStep :
    let s := { codeWorld with turn := .stream, cl := { seqs := [{ n := 0, held := true, block := 0, pc := 0x2000 }] } }
    let b := bringSeq 0 (waitWordS s)
    nextSeqNo s = some 0 ∧ codeWord? b b.ctxNo b.sq.pc = some 0x26000003 ∧ (decodePair 0x26000003 ((codeWord? b b.ctxNo (b.sq.pc + 4)).getD 0)).isSome = true := by decide

end Sys2Proof.Tests
end

section
/-! PROOF. What holds of every instruction whatever the state: encoding loses nothing (R8, R55, R60), and every step has a next state
(R9, R23, R343, R408). -/

namespace Sys2Proof.Laws

open Sys2Proof Sys2Proof.Machine

/-! ## Decoding gives every instruction back -/

namespace RoundTrip

/-- One case per constructor, in the order of `Instr`: the lemma of the constructor's own name. -/
theorem ofInstr : ∀ i : Instr, Statement i :=
  @Instr.rec Statement
    add sub and or xor andn shl shr sar rot min max minn maxn mul mulh mulhn div divn rem remn clz popc brev abs neg sel mla adds subs
    addsn subsn eq ne lt le ltn len add64 sub64 mul64 shl64 shr64 sar64 eq64 lt64 ltn64 mov64 addx addxn addi andi ori xori shli shri
    sari roti slti sltni addxi movh movl bz bnz bltz bgez jmp call jr callr ret exit nop yield trap brk rett brxZ brxNz brxLtz brxGez
    cont qput watch unwatch wgrow wshrink wbase wiset vrgat vrsca poolReq poolRel poolMap poolOcc tstate tmark faddS fsubS fmulS fminS
    fmaxS fdivS fsqrtS frcpS fabsS fnegS feqS fltS fleS funS fmaS fnmaS faddD fsubD fmulD fminD fmaxD fdivD fsqrtD frcpD fabsD fnegD
    feqD fltD fleD funD fmaD fnmaD faddH2 fsubH2 fmulH2 fminH2 fmaxH2 fdivH2 fsqrtH2 frcpH2 fabsH2 fnegH2 feqH2 fltH2 fleH2 funH2 fmaH2
    fnmaH2 faddB2 fsubB2 fmulB2 fminB2 fmaxB2 fdivB2 fsqrtB2 frcpB2 fabsB2 fnegB2 feqB2 fltB2 fleB2 funB2 fmaB2 fnmaB2 fexp2 flog2 fsin
    fcos frsq ftanh cvt cvtp cvtq fclass fscl ldB ldBs ldH ldHs ldW ldD ldQ ldO ldmcQ stB stH stW stD stQ stO ldsW ldsD ldsQ stsW stsD
    stsQ amoAdd amoAnd amoOr amoXor amoMin amoMax amoMinn amoMaxn amoSwap amoCas amoFadd amoAddb2 amoAddh2 amoAdd64 amoCas64 amoInc
    samoAdd samoAnd samoOr samoXor samoMin samoMax samoMinn samoMaxn samoSwap samoCas samoFadd samoAddb2 samoAddh2 samoAdd64 samoCas64
    samoInc fence fenceAcq fenceRel wct flush icinv fwait pref wvoteAny wvoteAll wballot wredAdd wredFadd wredMin wredMax wscanAdd
    wscanFadd wsegscanAdd wsegscanFadd wisect wnz wmm wsync wperm nbInit nbArrive nbWait nbMeet nbTest nbStat xredAdd xredFadd xredMax
    xredOr cpy mcpy fget fgetb tld tst tstc tzero tmov tfree tcvt tlay mma mman mms tlu tchol tqr ttrsl ttrsu ttrsn tperm tqapp tqappt
    svmv svmm sbarInit sbarArrive sbarWait xrd sfence send sstat setfmt csrr csrw pfxWord kwaitEq kwaitNe kwaitGeu kwaitReread
    registerResultWrite yieldExpiry readyAgeMark trapEntry formerWarpRelease formerPartialTimeout blockStart queuePull queueMoveComplete
    wqRingRefill treeComplete launch wait signal join cond patch doorbell kick mapQueue unmapCtx clearError preempt resume regGraph
    inval copy checkpoint restore badcmd irqmask pwrcap registerWrite hostApertureRead hostApertureWrite attest cert timeSet domainSet
    grantRange revokeRange setExportWindow unfreezeResume unfreezeReset fwLoad mailboxBadop fwVerify moduleReset trainComplete
    thermalPreempt thermalPowerOff powerCapAdjust timeMessage timeSyncLoss heartbeat heartbeatTimeout flitCrcFail unreachableCompletion
    remoteRequest writeCommit fwaitRetry writeAck fillRequest fillReply atomicAtHome mcastRequest mcastWindowClose mcastSlotFree
    releasePoint icinvComplete flushComplete csrwInForce watchComplete unwatchComplete triggerRefill trigOverflow triggerDispatch
    cWritebackDone relocationComplete wgrowGrant wshrinkComplete poolRelComplete passGrant passEnd engineRelease tileFetch copyOpStart
    copyOpComplete fgetDecode fgetbComplete faultRecordWrite faultResponse faultQueueReread eccRetry walkerGrant walkComplete planeSwap
    swapEnd saveComplete restoreStart restoreComplete engineImageRestore checkpointQuiesce quiesced checkpointAbandon checkpointClose
    restoreReadbackDone instructionFetchFill reservedMajor irqstatClear ctxerrClear bringUpStart pldmRequest

end RoundTrip

/-- Settles O53, by the cases of the instruction. -/
theorem decodeEncodeAgree : Obligations.DecodeEncodeAgree := RoundTrip.ofInstr

/-! ## Every instruction goes on -/

/-- An answer that lets the machine go on: neither a fault nor a refusal. -/
def GoesOn (x : Answer) : Prop := ∃ t, x = .next t

theorem goesOn_next (t : State) : GoesOn (.next t) := ⟨t, rfl⟩

theorem goesOn_ite {c : Prop} [Decidable c] {x y : Answer} (hx : GoesOn x) (hy : GoesOn y) : GoesOn (if c then x else y) := by
  split
  · exact hx
  · exact hy

/-- A failed check is a trap of the thread or a stop of the stream, and both have a next state (R23, R279, R343). -/
theorem goesOn_run (i : Ins) (f g : Opnds → State → State) (s : State) : GoesOn (run i f g s) := by
  unfold run
  split <;> exact goesOn_next _

theorem goesOn_runQuiet (i : Ins) (bad : State → State) (f : Opnds → State → State) (s : State) : GoesOn (runQuiet i bad f s) := by
  unfold runQuiet
  split <;> exact goesOn_next _

theorem goesOn_runFloat (i : Ins) (f : Opnds → State → State) (s : State) : GoesOn (runFloat i f s) := by
  unfold runFloat
  split <;> exact goesOn_next _

theorem goesOn_csrRun (i : Ins) (n : BitVec 14) (isWrite : Bool) (f : Opnds → State → State) (s : State) : GoesOn (csrRun i n isWrite f s) :=
  goesOn_ite (goesOn_run ..) (goesOn_next _)

theorem goesOn_registerResultWrite (who : Agent) (tag : Nat) (s : State) : GoesOn (execRegisterResultWrite who tag s) := by
  cases who with
  | thread slot lane => exact goesOn_next _
  | stream n => exact goesOn_next _

theorem goesOn_instructionFetchFill (who : Agent) (s : State) : GoesOn (execInstructionFetchFill who s) := by
  cases who with
  | thread slot lane => exact goesOn_next _
  | stream n => exact goesOn_next _

theorem goesOn_cWritebackDone (s : State) : GoesOn (execCWritebackDone s) := by
  unfold execCWritebackDone
  split
  · exact goesOn_ite (goesOn_next _) (goesOn_ite (goesOn_next _) (goesOn_next _))
  · exact goesOn_next _

theorem goesOn_relocationComplete (s : State) : GoesOn (execRelocationComplete s) := by
  unfold execRelocationComplete
  split
  · exact goesOn_ite (goesOn_next _) (goesOn_next _)
  · exact goesOn_next _

/-- The cases are grouped by the operation that runs the instruction; the last group is the steps of other units whose meaning is a next
state with no case before it. -/
theorem goesOn_exec (i : Instr) (s : State) : GoesOn (exec i s) := by
  cases i with
  | add | sub | and | or | xor | andn | shl | shr | sar | rot | min | max | minn | maxn | mul | mulh | mulhn | div | divn | rem | remn
  | clz | popc | brev | abs | neg | sel | mla | adds | subs | addsn | subsn | eq | ne | lt | le | ltn | len | add64 | sub64 | mul64
  | shl64 | shr64 | sar64 | eq64 | lt64 | ltn64 | mov64 | addx | addxn | addi | andi | ori | xori | shli | shri | sari | roti | slti
  | sltni | addxi | movh | movl | bz | bnz | bltz | bgez | jmp | call | jr | callr | ret | exit | nop | yield | trap | brk | rett | brxZ
  | brxNz | brxLtz | brxGez | cont | qput | wbase | wiset | vrgat | vrsca | ldB | ldBs | ldH | ldHs | ldW | ldD | ldQ | ldO | ldmcQ
  | stB | stH | stW | stD | stQ | stO | ldsW | ldsD | ldsQ | stsW | stsD | stsQ | amoAdd | amoAnd | amoOr | amoXor | amoMin | amoMax
  | amoMinn | amoMaxn | amoSwap | amoCas | amoFadd | amoAddb2 | amoAddh2 | amoAdd64 | amoCas64 | amoInc | samoAdd | samoAnd | samoOr
  | samoXor | samoMin | samoMax | samoMinn | samoMaxn | samoSwap | samoCas | samoFadd | samoAddb2 | samoAddh2 | samoAdd64 | samoCas64
  | samoInc | fence | fenceAcq | fenceRel | wct | flush | icinv | fwait | wvoteAny | wvoteAll | wballot | wredAdd | wredFadd | wredMin
  | wredMax | wscanAdd | wscanFadd | wsegscanAdd | wsegscanFadd | wisect | wnz | wmm | wsync | wperm | nbInit | nbArrive | nbWait
  | nbMeet | nbTest | nbStat | xredAdd | xredFadd | xredMax | xredOr | cpy | mcpy | fget | fgetb | tld | tst | tstc | tzero | tmov
  | tfree | tcvt | tlay | mma | mman | mms | tlu | tchol | tqr | ttrsl | ttrsu | ttrsn | tperm | tqapp | tqappt | svmv | svmm | sbarInit
  | sbarArrive | sbarWait | xrd | sfence | send | sstat | setfmt | pfxWord | reservedMajor => exact goesOn_run ..
  | faddS | fsubS | fmulS | fminS | fmaxS | fdivS | fsqrtS | frcpS | fabsS | fnegS | feqS | fltS | fleS | funS | fmaS | fnmaS | faddD
  | fsubD | fmulD | fminD | fmaxD | fdivD | fsqrtD | frcpD | fabsD | fnegD | feqD | fltD | fleD | funD | fmaD | fnmaD | faddH2 | fsubH2
  | fmulH2 | fminH2 | fmaxH2 | fdivH2 | fsqrtH2 | frcpH2 | fabsH2 | fnegH2 | feqH2 | fltH2 | fleH2 | funH2 | fmaH2 | fnmaH2 | faddB2
  | fsubB2 | fmulB2 | fminB2 | fmaxB2 | fdivB2 | fsqrtB2 | frcpB2 | fabsB2 | fnegB2 | feqB2 | fltB2 | fleB2 | funB2 | fmaB2 | fnmaB2
  | fexp2 | flog2 | fsin | fcos | frsq | ftanh | cvt | cvtp | cvtq | fclass | fscl => exact goesOn_runFloat ..
  | watch | unwatch | wgrow | wshrink | poolReq | poolRel | poolMap | poolOcc | tstate | tmark | pref =>
    exact goesOn_runQuiet ..
  | csrr | csrw => exact goesOn_csrRun ..
  | registerResultWrite => exact goesOn_registerResultWrite ..
  | instructionFetchFill => exact goesOn_instructionFetchFill ..
  | cWritebackDone => exact goesOn_cWritebackDone s
  | relocationComplete => exact goesOn_relocationComplete s
  | _ => exact goesOn_next _

/-- Settles O60, by the cases of the instruction. -/
theorem everyInstructionGoesOn : Obligations.EveryInstructionGoesOn := goesOn_exec

end Sys2Proof.Laws
end

section
/-! PROOF. Writes of the window, of indexed registers and of special registers (R91 to R93, R99, R101, R318). -/

namespace Sys2Proof.Laws

open Sys2Proof Sys2Proof.Machine Sys2Proof.Rules

/-! ## Meanings of instructions that have passed their checks -/

theorem runThread_of_executes {i : Instr} {s : State} (h : Executes i s) (f : Opnds → State → State) :
    runThread i.ins f s = .next (f (operands i.ins s) s) :=
  run_thread h.1 h.2

theorem runStream_of_streams {i : Instr} {s : State} (h : Streams i s) (f : Opnds → State → State) :
    runStream i.ins f s = .next (f (operandsC i.ins s) s) :=
  run_stream h.1 h.2

theorem csrRun_of_executes {i : Instr} {s : State} {n : BitVec 14} {isWrite : Bool} (h : Executes i s) (ok : csrOk s n.toNat isWrite = true)
    (f : Opnds → State → State) : csrRun i.ins n isWrite f s = .next (f (operands i.ins s) s) := by
  unfold csrRun
  rw [ok, Bool.or_true, if_pos rfl, runThread_of_executes h]

theorem result_eq_finishWith (i : Ins) (o : Opnds) (ws : List Word) (lo hi : Nat) (s : State) :
    result i o ws lo hi s = finishWith i (targets o ws) lo (some hi) true s :=
  result_eq ..

/-! ## The window and indexed registers (R91 to R93) -/

/-- `wbase` refuses a base that is odd or beyond the last pair of the allocation. -/
theorem wbaseOp_eq (i : Ins) (o : Opnds) (s : State) : wbaseOp i o s =
    if (wordOf o.a).toNat % 2 = 0 ∧ (wordOf o.a).toNat ≤ s.warp.regsPer - 2
    then steps i { s with th := { s.th with wb := (wordOf o.a).toNat } } else raise { cause := .regBounds, info := wordOf o.a } s := by
  have bad : ((wordOf o.a).getLsbD 0 = true ∨ (wordOf o.a).toNat > s.warp.regsPer - 2)
      ↔ ¬ ((wordOf o.a).toNat % 2 = 0 ∧ (wordOf o.a).toNat ≤ s.warp.regsPer - 2) := by
    simp only [BitVec.getLsbD, Nat.testBit_zero, decide_eq_true_eq]
    omega
  exact (if_congr bad rfl (finish_eq ..)).trans (ite_not ..)

theorem wisetOp_eq (i : Ins) (o : Opnds) (s : State) : wisetOp i o s =
    if (wordOf o.a).toNat ≤ 511
    then steps i (s.updWarp s.th.slot (fun w => { w with wi := (wordOf o.a).toNat })) else raise { cause := .regBounds, info := wordOf o.a } s :=
  (if_congr Nat.not_le.symm rfl (finish_eq ..)).trans (ite_not ..)

/-- `vrsca` writes relative to WB alone; an index above 511 is shown itself, one beyond the allocation as the register it reaches. -/
theorem vrscaOp_eq (i : Ins) (o : Opnds) (s : State) : vrscaOp i o s =
    if (wordOf o.a).toNat > 511 then raise { cause := .regBounds, info := wordOf o.a } s
    else if s.th.wb + (wordOf o.a).toNat ≥ s.warp.regsPer
    then raise { cause := .regBounds, info := BitVec.ofNat 32 (s.th.wb + (wordOf o.a).toNat) } s
    else finishWith i [(s.th.wb + (wordOf o.a).toNat, wordOf o.b)] 4 (some 4) true s := by
  unfold vrscaOp indexed indexedInfo badReg
  by_cases above : (wordOf o.a).toNat > 511
  · simp only [above, true_or, if_true]
  · by_cases beyond : s.th.wb + (wordOf o.a).toNat ≥ s.warp.regsPer
    · simp only [above, beyond, or_true, if_true, if_false]
    · simp only [above, beyond, or_self, if_false, result_eq_finishWith]
      rfl

/-! ## Special registers (R99, R101) -/

theorem setHigh_eq (v : DWord) (w : Word) : setHigh v w = w ++ v.extractLsb' 0 32 := by
  rw [setHigh, lowWord, BitVec.truncate_eq_setWidth, BitVec.setWidth_eq_extractLsb' (by omega)]

/-- What a write at level T or H leaves of the thread: only KP and TRPC can be written (Table 4-8). -/
theorem csrSet_eq (n : Nat) (v : Word) (s : State) : csrSet n v s = { s with th := match n with
    | 0x010 => { s.th with kp := s.th.kp.extractLsb' 32 32 ++ v }
    | 0x011 => { s.th with kp := v ++ s.th.kp.extractLsb' 0 32 }
    | 0x030 => { s.th with frame := { s.th.frame with trpc := s.th.frame.trpc.extractLsb' 32 32 ++ v } }
    | 0x031 => { s.th with frame := { s.th.frame with trpc := v ++ s.th.frame.trpc.extractLsb' 0 32 } }
    | _ => s.th } := by
  unfold csrSet State.updTh
  simp only [setHigh_eq] <;> rfl

/-- The registers at level Y are those from 0x100 on (Table 4-8). -/
theorem le_of_csrKind_y {n : Nat} {ro : Bool} (y : csrKind n = some (.y, ro)) : 0x100 ≤ n := by
  grind [csrKind]

/-- A write below 0x100 is done at once. -/
theorem csrwOp_below {n : BitVec 14} (h : n.toNat < 0x100) (i : Ins) (o : Opnds) (s : State) :
    csrwOp i n o s = steps i (csrSet n.toNat (wordOf o.a) s) := by
  unfold csrwOp
  split
  · next e => exact absurd (le_of_csrKind_y e) (Nat.not_le.2 h)
  · exact finish_eq ..

/-- Of the registers from 0x100 on, only those at level Y can be written. -/
theorem csrKind_of_csrOk {s : State} {n : Nat} (ok : csrOk s n true = true) (h : 0x100 ≤ n) : csrKind n = some (.y, false) := by
  have listed : csrKind n ≠ none := fun e => by simp [csrOk, e] at ok
  grind [csrKind]

/-- A legal write from 0x100 on waits until it is in force on every core. -/
theorem csrwOp_above {n : BitVec 14} {s : State} (ok : csrOk s n.toNat true = true) (h : 0x100 ≤ n.toNat) (i : Ins) (o : Opnds) :
    csrwOp i n o s = waitsIn i (.csrw n.toNat (wordOf o.a)) s := by
  have y : csrKind n.toNat = some (.y, false) := csrKind_of_csrOk ok h
  rw [csrwOp, y]
  exact hold_eq ..

/-! ## The statement -/

/-- Settles O12, from the meaning of each instruction. -/
theorem windowsAndRegisterWrites : Obligations.WindowsAndRegisterWrites := by
  refine ⟨⟨fun sw a s h => ?wbase, fun sw a s h => ?wiset, fun sw a b s h => ?vrsca⟩,
    fun sw a n s h ok below => ?csrwBelow, fun sw a n s h ok above => ?csrwAbove, fun sw a s h => ?setfmt⟩
  case wbase => exact (runThread_of_executes h _).trans (congrArg _ (wbaseOp_eq ..))
  case wiset => exact (runThread_of_executes h _).trans (congrArg _ (wisetOp_eq ..))
  case vrsca => exact (runThread_of_executes h _).trans (congrArg _ (vrscaOp_eq ..))
  case csrwBelow =>
    exact (csrRun_of_executes h ok _).trans (congrArg _ ((csrwOp_below below ..).trans (congrArg _ (csrSet_eq ..))))
  case csrwAbove => exact (csrRun_of_executes h ok _).trans (congrArg _ (csrwOp_above ok above ..))
  case setfmt => exact runStream_of_streams h _

end Sys2Proof.Laws
end

section
/-! PROOF. What a step runs (R23, R66, R122, R124, R169, R277, R279, R409). -/

namespace Sys2Proof.Laws

open Sys2Proof Sys2Proof.Machine Sys2Proof.Rules

/-! ## The next action -/

/-- With power, a step does its next action. -/
theorem step_of_run {s t : State} {i : Instr} (hp : s.powered = true) (h : nextAction s = .run i t) : step s = exec i t := by
  simp [step, hp, h]

theorem step_of_silent {s t : State} (hp : s.powered = true) (h : nextAction s = .silent t) : step s = .next t := by
  simp [step, hp, h]

theorem instrAt_some {w w1 : Word} {i : Instr} (h : decodePair w w1 = some i) : instrAt w w1 = i := by simp [instrAt, h]

theorem instrAt_none {w w1 : Word} (h : decodePair w w1 = none) : instrAt w w1 = .reservedMajor w := by simp [instrAt, h]

theorem wordsAt_some {s : State} {pc : PC} {w : Word} (h : codeWord? s s.ctxNo pc = some w) :
    wordsAt s pc = some (w, (codeWord? s s.ctxNo (pc + 4)).getD 0) := by simp [wordsAt, h]

theorem nextAction_bundle {s : State} {who : Nat × Nat} {rest : List (Nat × Nat)} {w : Word} (hb : s.bundle = who :: rest)
    (live : (bringThread who rest s).th.live = true)
    (hw : codeWord? (bringThread who rest s) (bringThread who rest s).ctxNo (bringThread who rest s).th.pc = some w) :
    nextAction s = .run (instrAt w ((codeWord? (bringThread who rest s) (bringThread who rest s).ctxNo ((bringThread who rest s).th.pc + 4)).getD 0))
      (bringThread who rest s) := by
  simp [nextAction, hb, nextThread, live, wordsAt_some hw]

theorem nextAction_agenda {s : State} {i : Instr} {rest : List Instr} (hb : s.bundle = []) (ha : s.agenda = i :: rest) :
    nextAction s = .run i { s with agenda := rest } := by
  simp [nextAction, hb, ha]

theorem nextAction_stream {s : State} {n : Nat} {w : Word} (hb : s.bundle = []) (ha : s.agenda = []) (ht : s.turn = .stream)
    (hn : nextSeqNo s = some n)
    (hw : codeWord? (bringSeq n (waitWordS s)) (bringSeq n (waitWordS s)).ctxNo (bringSeq n (waitWordS s)).sq.pc = some w) :
    nextAction s = .run (instrAt w ((codeWord? (bringSeq n (waitWordS s)) (bringSeq n (waitWordS s)).ctxNo ((bringSeq n (waitWordS s)).sq.pc + 4)).getD 0))
      (bringSeq n (waitWordS s)) := by
  simp [nextAction, hb, ha, ht, nextStream, hn, wordsAt_some hw]

theorem nextAction_hart_some {s : State} {n : Nat} {i : Instr} (hb : s.bundle = []) (ha : s.agenda = []) (ht : s.turn = .hart)
    (hn : nextHartNo s = some n) (hd : decodeHart (fwWord (bringHart n s) (bringHart n s).hart.pc) = some i) :
    nextAction s = .run i (bringHart n s) := by
  simp [nextAction, hb, ha, ht, nextHart, hn, hd]

theorem nextAction_hart_none {s : State} {n : Nat} (hb : s.bundle = []) (ha : s.agenda = []) (ht : s.turn = .hart)
    (hn : nextHartNo s = some n) (hd : decodeHart (fwWord (bringHart n s) (bringHart n s).hart.pc) = none) :
    nextAction s = .silent (hartStep (bringHart n s)) := by
  simp [nextAction, hb, ha, ht, nextHart, hn, hd]

/-- A stream stops on the reserved word, whose shape is none of a stream's (R66, R67). -/
theorem exec_reservedMajor_stream {w : Word} {s : State} (ha : s.actor = .stream) : exec (.reservedMajor w) s = .next (stopStream 2 s) :=
  run_stream_stop ha (by rfl)

/-! ## The statement -/

/-- Settles O55, by the order of the step: bundle, agenda, stream, hart. -/
theorem stepRunsDecodedInstruction : Obligations.StepRunsDecodedInstruction := by
  refine ⟨?thread, ?event, ?stream, ?streamStops, ?hart, ?hartBase, ?off⟩
  case thread =>
    intro s slot lane rest w hp hb b live hw w1
    have h : step s = exec (instrAt w w1) b := step_of_run hp (nextAction_bundle (who := (slot, lane)) hb live hw)
    exact ⟨fun i hd => by rw [h, instrAt_some hd], fun hd => by rw [h, instrAt_none hd]⟩
  case event => exact fun s i rest hp hb ha => step_of_run hp (nextAction_agenda hb ha)
  case stream =>
    intro s n w i hp hb ha ht hn b hw hd
    rw [step_of_run hp (nextAction_stream hb ha ht hn hw), instrAt_some hd]
  case streamStops =>
    intro s n w hp hb ha ht hn b hw hd
    rw [step_of_run hp (nextAction_stream hb ha ht hn hw), instrAt_none hd]
    exact ⟨rfl, exec_reservedMajor_stream rfl⟩
  case hart => exact fun s n i hp hb ha ht hn hd => step_of_run hp (nextAction_hart_some hb ha ht hn hd)
  case hartBase => exact fun s n hp hb ha ht hn hd => step_of_silent hp (nextAction_hart_none hb ha ht hn hd)
  case off =>
    intro s hp
    simp [step, hp]

end Sys2Proof.Laws
end

section
/-! PROOF. Integer results of threads and streams: the operations of Tables 4-2 and 4-3 in integer arithmetic (R80 to R84). -/

namespace Sys2Proof.Laws

open Sys2Proof Sys2Proof.Machine Sys2Proof.Rules

/-! ## The operations in integer arithmetic, at every width -/

section

variable {n : Nat} (a b d : BitVec n)

theorem flag_eq_truth (p : Bool) : (flag p : BitVec n) = truth (p = true) := rfl

theorem flag_eq_truth_of_iff {p : Bool} {q : Prop} [Decidable q] (h : p = true ↔ q) : (flag p : BitVec n) = truth q :=
  if_congr h rfl rfl

theorem add_eq_ofNat : a + b = BitVec.ofNat n (a.toNat + b.toNat) := rfl

theorem sub_eq_ofInt : a - b = BitVec.ofInt n (a.toInt - b.toInt) := by
  apply BitVec.eq_of_toInt_eq
  rw [BitVec.toInt_sub, BitVec.toInt_ofInt]

theorem mul_eq_ofNat : a * b = BitVec.ofNat n (a.toNat * b.toNat) := rfl

theorem neg_eq_ofInt : -a = BitVec.ofInt n (-a.toInt) := by
  apply BitVec.eq_of_toInt_eq
  rw [BitVec.toInt_neg, BitVec.toInt_ofInt]

theorem mla_eq_ofNat : d + a * b = BitVec.ofNat n (d.toNat + a.toNat * b.toNat) := by
  apply BitVec.eq_of_toNat_eq
  simp

theorem shlN_eq (k : Nat) : shlN a k = shiftLeft a k := by
  have h : a <<< k = BitVec.ofNat n (a.toNat * 2 ^ k) := BitVec.eq_of_toNat_eq (by simp [Nat.shiftLeft_eq])
  rw [shlN, shiftLeft, h]

theorem shrN_eq (k : Nat) : shrN a k = shiftRight a k := by
  have h : a >>> k = BitVec.ofNat n (a.toNat / 2 ^ k) := BitVec.eq_of_toNat_eq (by
    rw [BitVec.toNat_ushiftRight, BitVec.toNat_ofNat, Nat.shiftRight_eq_div_pow,
      Nat.mod_eq_of_lt (Nat.lt_of_le_of_lt (Nat.div_le_self ..) a.isLt)])
  rw [shrN, shiftRight, h]

theorem sarN_eq (k : Nat) : sarN a k = shiftSigned a k := by
  rw [sarN, shiftSigned, BitVec.sshiftRight, Int.shiftRight_eq_div_pow]
  rfl

theorem rotN_eq (k : Nat) : rotN a k = rotated a k := by
  rw [rotN, rotated, BitVec.rotateLeft, BitVec.rotateLeftAux, Nat.mod_mod]

theorem remN_eq : remN a b = if b = 0 then a else BitVec.ofInt n (a.toInt - b.toInt * a.toInt.tdiv b.toInt) := by
  rw [remN, Int.tmod_def]

theorem clzN_eq : clzN a = BitVec.ofNat n (n - (if a = 0 then 0 else a.toNat.log2 + 1)) := by
  unfold clzN
  split
  · rfl
  · rw [Nat.sub_sub, Nat.add_comm]

theorem popcN_eq : popcN a = BitVec.ofNat n ((List.range n).countP (fun k => a.getLsbD k)) := by
  rw [popcN, List.countP_eq_length_filter]

theorem absN_eq : absN a = BitVec.ofNat n a.toInt.natAbs := by
  apply BitVec.eq_of_toNat_eq
  have lt := a.isLt
  rw [absN, BitVec.toNat_ofNat, BitVec.toInt_eq_msb_cond]
  by_cases neg : a.msb = true
  · have e : ((a.toNat : Int) - (2 ^ n : Nat)).natAbs = 2 ^ n - a.toNat := by omega
    rw [if_pos neg, if_pos neg, e, BitVec.toNat_neg]
  · rw [if_neg neg, if_neg neg, Int.natAbs_natCast, Nat.mod_eq_of_lt lt]

/-- Both ways to clamp agree on a range that is not empty. -/
theorem clampTo_eq {lo hi : Int} (h : lo ≤ hi) (v : Int) : clampTo lo hi v = clamp lo hi v := by
  unfold clampTo clamp
  split
  · omega
  · split <;> omega

theorem satS_eq (v : Int) : satS n v = BitVec.ofInt n (clamp (-(2 ^ (n - 1))) (2 ^ (n - 1) - 1) v) := by
  have h : (0 : Int) < 2 ^ (n - 1) := Int.pow_pos (by decide)
  rw [satS, clampTo_eq (by omega)]

/-- A number within the unsigned range, from a clamped sum or difference. -/
theorem satU_eq (v : Int) : satU n v = BitVec.ofNat n (min (2 ^ n - 1) v.toNat) := by
  have h : (0 : Int) < 2 ^ n := Int.pow_pos (by decide)
  have e : clampTo 0 (2 ^ n - 1) v = ((min (2 ^ n - 1) v.toNat : Nat) : Int) := by
    rw [clampTo_eq (by omega), clamp]
    push_cast [Nat.one_le_two_pow]
    omega
  rw [satU, e, BitVec.ofInt_natCast]

theorem addsn_eq : satU n (a.toNat + b.toNat) = BitVec.ofNat n (min (2 ^ n - 1) (a.toNat + b.toNat)) := satU_eq _

theorem subsn_eq : satU n (a.toNat - b.toNat) = BitVec.ofNat n (a.toNat - b.toNat) := by
  have h := a.isLt
  rw [satU_eq, Int.toNat_sub, Nat.min_eq_right (by omega)]

/-- A sign-extended field is the number it holds. -/
theorem signExtend_eq_ofInt {m : Nat} (i : BitVec m) (n : Nat) : i.signExtend n = BitVec.ofInt n i.toInt := rfl

theorem add_signExtend_eq {m : Nat} (i : BitVec m) : a + i.signExtend n = BitVec.ofInt n (a.toInt + i.toInt) := by
  apply BitVec.eq_of_toInt_eq
  rw [BitVec.toInt_add, BitVec.toInt_ofInt, signExtend_eq_ofInt, BitVec.toInt_ofInt, Int.add_bmod_bmod]

theorem slt_signExtend_iff {m : Nat} (i : BitVec m) (h : m ≤ n) : a.slt (i.signExtend n) = true ↔ a.toInt < i.toInt := by
  rw [BitVec.slt_iff_toInt_lt, BitVec.toInt_signExtend_of_le h]

theorem sub64_eq (x y : DWord) : x - y = BitVec.ofInt 64 (x.toNat - y.toNat) := by
  apply BitVec.eq_of_toNat_eq
  rw [BitVec.toNat_sub, BitVec.toNat_ofInt]
  omega

/-- The low part of an address, sign-extended or not, is the number that R83 reads. -/
theorem add_low32s_eq (x y : DWord) : x + (y.truncate 32).signExtend 64 = BitVec.ofInt 64 (x.toInt + low32s y) := add_signExtend_eq ..

theorem add_low32_eq (x y : DWord) : x + (y.truncate 32).zeroExtend 64 = BitVec.ofNat 64 (x.toNat + low32 y) := by
  apply BitVec.eq_of_toNat_eq
  simp [low32]

/-- A word read as one of 64 bits and cut again is itself. -/
theorem truncate_zeroExtend (v : Word) : (v.zeroExtend 64).truncate 32 = v := by
  apply BitVec.eq_of_toNat_eq
  simp

theorem toNat_zeroExtend (v : Word) : (v.zeroExtend 64).toNat = v.toNat := BitVec.toNat_setWidth_of_le (by decide)

theorem movh_eq (v : BitVec 18) : v.zeroExtend 32 <<< 14 = BitVec.ofNat 32 (v.toNat * 2 ^ 14) := by
  apply BitVec.eq_of_toNat_eq
  simp [Nat.shiftLeft_eq]

theorem movl_eq {k : Nat} (x : BitVec (k + 14)) (v : BitVec 14) :
    x.extractLsb' 14 k ++ v = BitVec.ofNat (k + 14) (x.toNat / 2 ^ 14 * 2 ^ 14 + v.toNat) := by
  apply BitVec.eq_of_toNat_eq
  have hx := x.isLt
  have hv := v.isLt
  have hq : x.toNat / 2 ^ 14 < 2 ^ k := Nat.div_lt_of_lt_mul (by rwa [Nat.pow_add, Nat.mul_comm] at hx)
  have hb : x.toNat / 2 ^ 14 * 2 ^ 14 + v.toNat < 2 ^ (k + 14) := by
    rw [Nat.pow_add]
    omega
  rw [BitVec.toNat_append, BitVec.extractLsb'_toNat, Nat.shiftRight_eq_div_pow, Nat.mod_eq_of_lt hq, BitVec.toNat_ofNat,
    Nat.mod_eq_of_lt hb, ← Nat.shiftLeft_add_eq_or_of_lt hv, Nat.shiftLeft_eq]

end

/-! ## What each instruction gives -/

/-- An instruction runs as its rule says: its result on threads and on streams (Table 4-1). -/
def Gives (i : Instr) (r : ResultRule) : Prop :=
  ∀ s, exec i s = run i.ins (fun o => result i.ins o (r.thread i.ins s o) r.lo r.hi) (fun o => resultS i.ins o (r.stream o) r.lo r.hi) s

theorem gives_of_run {i : Instr} {r : ResultRule} {f : Opnds → List Word} {g : Opnds → DWord}
    (h : ∀ s, exec i s = run i.ins (fun o => result i.ins o (f o) r.lo r.hi) (fun o => resultS i.ins o (g o) r.lo r.hi) s)
    (hf : ∀ s o, f o = r.thread i.ins s o) (hg : ∀ o, g o = r.stream o) : Gives i r := by
  intro s
  rw [h, funext (hf s), funext hg]

section

variable {i : Instr} {lo hi : Nat} {g : (n : Nat) → BitVec n → BitVec n → BitVec n → BitVec n}

theorem gives_int1 {f : (n : Nat) → BitVec n → BitVec n}
    (e : ∀ n, 32 ≤ n → ∀ d a b, f n a = g n d a b)
    (h : ∀ s, exec i s = int1 i.ins lo hi f s := by intro _; rfl) : Gives i (single g lo hi) :=
  gives_of_run h (fun _ _ => congrArg (fun v => [v]) (e 32 (by decide) ..)) (fun _ => e 64 (by decide) ..)

theorem gives_int2 {f : (n : Nat) → BitVec n → BitVec n → BitVec n}
    (e : ∀ n, 32 ≤ n → ∀ d a b, f n a b = g n d a b)
    (h : ∀ s, exec i s = int2 i.ins lo hi f s := by intro _; rfl) : Gives i (single g lo hi) :=
  gives_of_run h (fun _ _ => congrArg (fun v => [v]) (e 32 (by decide) ..)) (fun _ => e 64 (by decide) ..)

theorem gives_int3 {f : (n : Nat) → BitVec n → BitVec n → BitVec n → BitVec n}
    (e : ∀ n, 32 ≤ n → ∀ d a b, f n d a b = g n d a b)
    (h : ∀ s, exec i s = int3 i.ins lo hi f s := by intro _; rfl) : Gives i (single g lo hi) :=
  gives_of_run h (fun _ _ => congrArg (fun v => [v]) (e 32 (by decide) ..)) (fun _ => e 64 (by decide) ..)

theorem gives_pair2 {f g : DWord → DWord → DWord} (e : ∀ x y, f x y = g x y)
    (h : ∀ s, exec i s = pair2 i.ins f s := by intro _; rfl) : Gives i (pairs g) :=
  gives_of_run h (fun _ _ => congrArg dwordWords (e ..)) (fun _ => e ..)

/-- Pair a and the single b: a thread's b is one word, a stream's a register of 64 bits. -/
theorem gives_pairW {f : DWord → Word → DWord} {f' g : DWord → DWord → DWord} (e : ∀ x y, f x y = g x (y.zeroExtend 64))
    (e' : ∀ x y, f' x y = g x y) (h : ∀ s, exec i s = pairW i.ins f f' s := by intro _; rfl) : Gives i (pairs g (b64 := false)) :=
  gives_of_run h (fun _ _ => congrArg dwordWords (e ..)) (fun _ => e' ..)

theorem gives_pairRel {f p : DWord → DWord → Bool} (e : ∀ x y, f x y = p x y)
    (h : ∀ s, exec i s = pairRel i.ins f s := by intro _; rfl) : Gives i (pairTruth p) :=
  gives_of_run h (fun _ _ => congrArg (fun b => [flag b]) (e ..)) (fun _ => congrArg flag (e ..))

end

/-- Each integer instruction gives what Tables 4-2 and 4-3 say (R80 to R82, R84). -/
theorem gives_integerRule (i : Instr) : (integerRule i).elim True (Gives i) := by
  cases i with
  | add => exact gives_int2 fun _ _ _ a b => add_eq_ofNat a b
  | sub => exact gives_int2 fun _ _ _ a b => sub_eq_ofInt a b
  | and | or | xor | andn => exact gives_int2 fun _ _ _ _ _ => rfl
  | shl => exact gives_int2 fun _ _ _ a _ => shlN_eq a _
  | shr => exact gives_int2 fun _ _ _ a _ => shrN_eq a _
  | sar => exact gives_int2 fun _ _ _ a _ => sarN_eq a _
  | rot => exact gives_int2 fun _ _ _ a _ => rotN_eq a _
  | min | max | minn | maxn => exact gives_int2 fun _ _ _ _ _ => rfl
  | mul => exact gives_int2 fun _ _ _ a b => mul_eq_ofNat a b
  | mulh | mulhn | div | divn => exact gives_int2 fun _ _ _ _ _ => rfl
  | rem => exact gives_int2 fun _ _ _ a b => remN_eq a b
  | remn => exact gives_int2 fun _ _ _ _ _ => rfl
  | clz => exact gives_int1 fun _ _ _ a _ => clzN_eq a
  | popc => exact gives_int1 fun _ _ _ a _ => popcN_eq a
  | brev => exact gives_int1 fun _ _ _ _ _ => rfl
  | abs => exact gives_int1 fun _ _ _ a _ => absN_eq a
  | neg => exact gives_int1 fun _ _ _ a _ => neg_eq_ofInt a
  | sel => exact gives_int3 fun _ _ _ _ _ => rfl
  | mla => exact gives_int3 fun _ _ d a b => mla_eq_ofNat a b d
  | adds | subs => exact gives_int2 fun _ _ _ _ _ => satS_eq _
  | addsn => exact gives_int2 fun _ _ _ a b => addsn_eq a b
  | subsn => exact gives_int2 fun _ _ _ a b => subsn_eq a b
  | eq => exact gives_int2 fun _ _ _ _ _ => flag_eq_truth_of_iff beq_iff_eq
  | ne => exact gives_int2 fun _ _ _ _ _ => flag_eq_truth_of_iff bne_iff_ne
  | lt => exact gives_int2 fun _ _ _ _ _ => flag_eq_truth_of_iff BitVec.slt_iff_toInt_lt
  | le => exact gives_int2 fun _ _ _ _ _ => flag_eq_truth_of_iff BitVec.sle_iff_toInt_le
  | ltn => exact gives_int2 fun _ _ _ _ _ => flag_eq_truth_of_iff BitVec.ult_iff_lt
  | len => exact gives_int2 fun _ _ _ _ _ => flag_eq_truth_of_iff BitVec.ule_iff_le
  | addi => exact gives_int1 fun _ _ _ a _ => add_signExtend_eq a _
  | andi | ori | xori => exact gives_int1 fun _ _ _ _ _ => rfl
  | shli => exact gives_int1 fun _ _ _ a _ => shlN_eq a _
  | shri => exact gives_int1 fun _ _ _ a _ => shrN_eq a _
  | sari => exact gives_int1 fun _ _ _ a _ => sarN_eq a _
  | roti => exact gives_int1 fun _ _ _ a _ => rotN_eq a _
  | slti => exact gives_int1 fun _ w _ a _ => flag_eq_truth_of_iff (slt_signExtend_iff a _ (by omega))
  | sltni => exact gives_int1 fun _ _ _ _ _ => flag_eq_truth_of_iff BitVec.ult_iff_lt
  | _ => exact trivial

theorem gives_of_integerRule {i : Instr} {r : ResultRule} (h : integerRule i = some r) : Gives i r := by
  have g := gives_integerRule i
  rwa [h] at g

/-- Each instruction on pairs gives what Table 4-4 and R84 say (R16, R83). -/
theorem gives_pairRule (i : Instr) : (pairRule i).elim True (Gives i) := by
  cases i with
  | add64 => exact gives_pair2 fun x y => add_eq_ofNat x y
  | sub64 => exact gives_pair2 fun x y => sub64_eq x y
  | mul64 => exact gives_pair2 fun x y => mul_eq_ofNat x y
  | shl64 => exact gives_pairW (fun x y => (shlN_eq x y.toNat).trans (by rw [toNat_zeroExtend])) fun x y => shlN_eq x y.toNat
  | shr64 => exact gives_pairW (fun x y => (shrN_eq x y.toNat).trans (by rw [toNat_zeroExtend])) fun x y => shrN_eq x y.toNat
  | sar64 => exact gives_pairW (fun x y => (sarN_eq x y.toNat).trans (by rw [toNat_zeroExtend])) fun x y => sarN_eq x y.toNat
  | eq64 => exact gives_pairRel fun _ _ => Bool.beq_eq_decide_eq ..
  | lt64 => exact gives_pairRel fun _ _ => rfl
  | ltn64 => exact gives_pairRel fun _ _ => rfl
  | mov64 => exact gives_pair2 fun _ _ => rfl
  | addx => exact gives_pairW (f := fun x y => x + y.signExtend 64) (fun x y => by rw [← add_low32s_eq, truncate_zeroExtend]) fun x y => add_low32s_eq x y
  | addxn => exact gives_pairW (f := fun x y => x + y.zeroExtend 64) (fun x y => by rw [← add_low32_eq, truncate_zeroExtend]) fun x y => add_low32_eq x y
  | addxi => exact gives_of_run (fun _ => rfl) (fun _ _ => congrArg dwordWords (add_signExtend_eq ..)) fun _ => add_signExtend_eq ..
  | movh => exact gives_of_run (fun _ => rfl) (fun _ _ => congrArg (fun v => [v]) (movh_eq _)) fun _ => congrArg (·.signExtend 64) (movh_eq _)
  | movl => exact gives_of_run (fun _ => rfl) (fun _ _ => congrArg (fun v => [v]) (movl_eq (k := 18) ..)) fun _ => movl_eq (k := 50) ..
  | _ => exact trivial

theorem gives_of_pairRule {i : Instr} {r : ResultRule} (h : pairRule i = some r) : Gives i r := by
  have g := gives_pairRule i
  rwa [h] at g

/-! ## The statement -/

/-- A thread that has passed its checks gets the result of its rule. -/
theorem exec_thread_of_gives {i : Instr} {r : ResultRule} {s : State} (g : Gives i r) (h : Executes i s) :
    exec i s = .next (afterResult r i.ins s) :=
  (g s).trans ((run_thread h.1 h.2).trans (congrArg _ (result_eq ..)))

/-- Settles O1, by the rule of each instruction. -/
theorem integerResultsOfThreads : Obligations.IntegerResultsOfThreads :=
  ⟨fun _ _ _ hr => exec_thread_of_gives (gives_of_integerRule hr), fun _ _ _ hr => exec_thread_of_gives (gives_of_pairRule hr)⟩

end Sys2Proof.Laws
end

section
/-! PROOF. Branches, jumps and `nop` of threads and of streams (R12, R56, R79, R85, R86, R277, R279). -/

namespace Sys2Proof.Laws

open Sys2Proof Sys2Proof.Machine Sys2Proof.Rules

/-! ## Conditions (R85) -/

section

variable {n : Nat} (v : BitVec n)

theorem condZ_iff : condZ v = true ↔ v.toInt = 0 := by
  rw [condZ, beq_iff_eq, BitVec.ofNat_eq_ofNat, ← BitVec.toInt_inj, BitVec.toInt_zero]

theorem condNz_iff : condNz v = true ↔ v.toInt ≠ 0 := by
  rw [condNz, bne_iff_ne, ne_eq, BitVec.ofNat_eq_ofNat, ← BitVec.toInt_inj, BitVec.toInt_zero]

theorem condLtz_iff : condLtz v = true ↔ v.toInt < 0 := by
  rw [condLtz, BitVec.msb_eq_toInt, decide_eq_true_eq]

theorem condGez_iff : condGez v = true ↔ v.toInt ≥ 0 := by
  simp [condGez, BitVec.msb_eq_toInt]

end

/-! ## Going on and going elsewhere -/

/-- Where a transfer leads: the next word, or a value for the PC. -/
def goesTo (i : Ins) (s : State) (g : Option DWord) : State := g.elim (steps i s) (fun v => arrives i v s)

/-- The same of a stream, whose branches and jumps have no word in front. -/
def goesToS (i : Ins) (s : State) (g : Option DWord) : State := g.elim (onlyGoesS i (s.sq.pc + 4) s) (fun v => arrivesS i v s)

theorem gotoS_eq (i : Ins) (pc : PC) (s : State) : gotoS i pc s = onlyGoesS i pc s := rfl

theorem finishS_eq (i : Ins) (s : State) : finishS i s = onlyGoesS i (s.sq.pc + if i.p.isSome then 8 else 4) s := rfl

theorem finishS_eq_of_noPayload {i : Ins} (h : i.p = none) (s : State) : finishS i s = onlyGoesS i (s.sq.pc + 4) s := by
  rw [finishS_eq, h]
  rfl

section

variable {i : Instr} {s : State} {o : BitVec 16} {c : (n : Nat) → BitVec n → Bool} {p : Prop} [Decidable p]

/-- A branch of a thread goes to its target where its condition holds, else on. -/
theorem branch_thread (h : Executes i s) (hc : c 32 (wordOf (operands i.ins s).a) = true ↔ p) (e : exec i s = branch i.ins o c s := by rfl) :
    exec i s = .next (goesTo i.ins s (if p then some (branchTo s.th.pc o.toInt) else none)) := by
  rw [e, branch, run_thread h.1 h.2]
  by_cases taken : p
  · rw [if_pos (hc.2 taken), if_pos taken, jumpTo_eq, branchTarget_eq]
    rfl
  · rw [if_neg (fun x => taken (hc.1 x)), if_neg taken, finish_eq]
    rfl

theorem branch_stream (h : Streams i s) (hc : c 64 (dwordOf (operandsC i.ins s).a) = true ↔ p) (hp : i.ins.p = none := by rfl)
    (e : exec i s = branch i.ins o c s := by rfl) :
    exec i s = .next (goesToS i.ins s (if p then some (branchTo s.sq.pc o.toInt) else none)) := by
  rw [e, branch, run_stream h.1 h.2]
  by_cases taken : p
  · rw [if_pos (hc.2 taken), if_pos taken, jumpToS_eq, branchTarget_eq]
    rfl
  · rw [if_neg (fun x => taken (hc.1 x)), if_neg taken, finishS_eq_of_noPayload hp]
    rfl

end

/-! ## The statement -/

theorem transfer_thread (i : Instr) (s : State) (h : Executes i s) :
    (transfer s.th.pc (wordOf (operands i.ins s).a).toInt (dwordOf (operands i.ins s).a) i).elim True
      (fun g => exec i s = .next (goesTo i.ins s g)) := by
  cases i with
  | bz => exact branch_thread h (condZ_iff _)
  | bnz => exact branch_thread h (condNz_iff _)
  | bltz => exact branch_thread h (condLtz_iff _)
  | bgez => exact branch_thread h (condGez_iff _)
  | jmp => exact (run_thread h.1 h.2).trans (congrArg _ ((jumpTo_eq ..).trans (congrArg (arrives _ · s) (branchTarget_eq ..))))
  | jr => exact (run_thread h.1 h.2).trans (congrArg _ (jumpTo_eq ..))
  | nop => exact (run_thread h.1 h.2).trans (congrArg _ (finish_eq ..))
  | _ => exact trivial

theorem transfer_stream (i : Instr) (s : State) (h : Streams i s) :
    (transfer s.sq.pc (dwordOf (operandsC i.ins s).a).toInt (dwordOf (operandsC i.ins s).a) i).elim True
      (fun g => exec i s = .next (goesToS i.ins s g)) := by
  cases i with
  | bz => exact branch_stream h (condZ_iff _)
  | bnz => exact branch_stream h (condNz_iff _)
  | bltz => exact branch_stream h (condLtz_iff _)
  | bgez => exact branch_stream h (condGez_iff _)
  | jmp => exact (run_stream h.1 h.2).trans (congrArg _ ((jumpToS_eq ..).trans (congrArg (arrivesS _ · s) (branchTarget_eq ..))))
  | jr => exact (run_stream h.1 h.2).trans (congrArg _ (jumpToS_eq ..))
  | nop => exact run_stream h.1 h.2
  | _ => exact trivial

/-- Settles O6, by the cases of the instruction. -/
theorem transfers : Obligations.Transfers := by
  refine ⟨fun i g s h hg => ?thread, fun i g s h hg => ?stream⟩
  case thread =>
    have e := transfer_thread i s h
    rw [hg] at e
    cases g <;> exact e
  case stream =>
    have e := transfer_stream i s h
    rw [hg] at e
    cases g <;> exact e

end Sys2Proof.Laws
end

section
/-! PROOF. What the operations of the core's cache leave as it was (R97, R210, R215, R216, R224): all but its lines, its messages, the merge
windows and the model's own count; and no fill is asked for by a write-back, a store or the bookkeeping of copies. -/

namespace Sys2Proof.Laws

open Sys2Proof Sys2Proof.Machine Sys2Proof.Rules

/-! ## Translations (R374) -/

theorem translate_core {s : State} {c va : Nat} {acc : Acc} {e : TlbEnt} (h : tlbHit s.xl.coreTlb c va acc = some e) :
    Machine.translate c va acc s = (some (e.home va), s) := by
  simp only [Machine.translate, h]

theorem translate_unmapped {s : State} {va : DWord} {acc : Acc} (h : Unmapped s va acc) :
    Machine.translate s.ctxNo va.toNat acc s = (none, s) := by
  obtain ⟨core, cluster, die⟩ := h
  simp only [Machine.translate, core, cluster, die]

@[simp] theorem wantWalk_th (c va : Nat) (acc : Acc) (s : State) : (wantWalk c va acc s).th = s.th := by
  unfold wantWalk
  dsimp only
  split <;> rfl

/-- An address that the core translates goes ahead. -/
theorem withHome_core {s : State} {va : DWord} {acc : Acc} {e : TlbEnt} (h : tlbHit s.xl.coreTlb s.ctxNo va.toNat acc = some e)
    (k : Nat → State → State) : withHome va acc k s = k (e.home va.toNat) s := by
  simp only [withHome, translate_core h]

/-- An address that no TLB holds is walked for. -/
theorem withHome_unmapped {s : State} {va : DWord} {acc : Acc} (h : Unmapped s va acc) (k : Nat → State → State) :
    withHome va acc k s = walksFor va acc s := by
  simp only [withHome, translate_unmapped h, walksFor, State.updTh, wantWalk_th]

/-! ## Steps of the cache -/

/-- `t` is `s` but for the lines and messages of the core, the merge windows and the count of the model's own numbers, and every fill on its way
in `t` was on its way in `s`, for the same bundle, sector and reply. -/
structure CacheStep (s t : State) : Prop where
  rest : ∃ n net l1 ws, t = { s with nextId := n, pl := { s.pl with net := net, l1 := l1 }, sl := { s.sl with windows := ws } }
  fills : ∀ m ∈ t.pl.net, ∀ f, m.body = .fill f →
    ∃ m' ∈ s.pl.net, ∃ g, m'.body = .fill g ∧ g.bundle = f.bundle ∧ g.line = f.line ∧ g.sec = f.sec ∧ g.reply = f.reply

namespace CacheStep

/-- Where the messages are the same, so are the fills. -/
theorem of_net {s t : State} (rest : ∃ n net l1 ws, t = { s with nextId := n, pl := { s.pl with net := net, l1 := l1 }, sl := { s.sl with windows := ws } })
    (net : t.pl.net = s.pl.net) : CacheStep s t :=
  ⟨rest, fun m hm f hf => ⟨m, net ▸ hm, f, hf, rfl, rfl, rfl, rfl⟩⟩

theorem refl (s : State) : CacheStep s s := of_net ⟨_, _, _, _, rfl⟩ rfl

theorem trans {s t u : State} (a : CacheStep s t) (b : CacheStep t u) : CacheStep s u := by
  obtain ⟨⟨_, _, _, _, rfl⟩, fa⟩ := a
  obtain ⟨⟨_, _, _, _, rfl⟩, fb⟩ := b
  refine ⟨⟨_, _, _, _, rfl⟩, fun m hm f hf => ?_⟩
  obtain ⟨m', hm', g, hg, e1, e2, e3, e4⟩ := fb m hm f hf
  obtain ⟨m'', hm'', g', hg', e1', e2', e3', e4'⟩ := fa m' hm' g hg
  exact ⟨m'', hm'', g', hg', e1'.trans e1, e2'.trans e2, e3'.trans e3, e4'.trans e4⟩

section

variable {s t : State} (h : CacheStep s t)

include h

theorem th : t.th = s.th := by obtain ⟨⟨_, _, _, _, rfl⟩, _⟩ := h; rfl
theorem actor : t.actor = s.actor := by obtain ⟨⟨_, _, _, _, rfl⟩, _⟩ := h; rfl
theorem mem : t.mem = s.mem := by obtain ⟨⟨_, _, _, _, rfl⟩, _⟩ := h; rfl
theorem clock : t.clock = s.clock := by obtain ⟨⟨_, _, _, _, rfl⟩, _⟩ := h; rfl
theorem bundle : t.bundle = s.bundle := by obtain ⟨⟨_, _, _, _, rfl⟩, _⟩ := h; rfl
theorem bundleNo : t.bundleNo = s.bundleNo := by obtain ⟨⟨_, _, _, _, rfl⟩, _⟩ := h; rfl
theorem ctxNo : t.ctxNo = s.ctxNo := by obtain ⟨⟨_, _, _, _, rfl⟩, _⟩ := h; rfl
theorem curCtx : t.curCtx = s.curCtx := by obtain ⟨⟨_, _, _, _, rfl⟩, _⟩ := h; rfl
theorem storeQ : t.pl.storeQ = s.pl.storeQ := by obtain ⟨⟨_, _, _, _, rfl⟩, _⟩ := h; rfl

end

end CacheStep

/-- No fill of the bundle can be joined after a step of the cache where none could before. -/
theorem noFillToJoin_of_cacheStep {s t : State} {a : Nat} (h : CacheStep s t) (none : NoFillToJoin a s) : NoFillToJoin a t := by
  intro m hm f hf bundle line sec
  obtain ⟨m', hm', g, hg, eb, el, es, er⟩ := h.fills m hm f hf
  rw [← er]
  exact none m' hm' g hg (eb.trans (bundle.trans h.bundleNo)) (el.trans line) (es.trans sec)

theorem aloneAt_of_cacheStep {s t : State} {line : Nat} (h : CacheStep s t) (alone : AloneAt line s) : AloneAt line t := by
  refine ⟨h.bundle.trans alone.1, fun m hm f hf bundle at_ => ?_⟩
  obtain ⟨m', hm', g, hg, eb, el, _, er⟩ := h.fills m hm f hf
  rw [← er]
  exact alone.2 m' hm' g hg (eb.trans (bundle.trans h.bundleNo)) (el.trans at_)

/-! ## The operations -/

section

variable (s : State)

theorem cacheStep_fresh : CacheStep s s.fresh.2 := .of_net ⟨_, _, _, _, rfl⟩ rfl

theorem cacheStep_l1Put (l : L1Line) : CacheStep s (l1Put l s) := .of_net ⟨_, _, _, _, rfl⟩ rfl

theorem cacheStep_l1Drop (line : Nat) : CacheStep s (l1Drop line s) := .of_net ⟨_, _, _, _, rfl⟩ rfl

/-- A change of the messages that leaves bundle, sector and reply of each fill. -/
theorem cacheStep_mapNet (f : Msg → Msg) (h : ∀ m g, (f m).body = .fill g →
    ∃ g', m.body = .fill g' ∧ g'.bundle = g.bundle ∧ g'.line = g.line ∧ g'.sec = g.sec ∧ g'.reply = g.reply) :
    CacheStep s { s with pl := { s.pl with net := s.pl.net.map f } } := by
  refine ⟨⟨_, _, _, _, rfl⟩, fun m hm g hg => ?_⟩
  obtain ⟨m', hm', rfl⟩ := List.mem_map.1 hm
  obtain ⟨g', hg'⟩ := h m' g hg
  exact ⟨m', hm', g', hg'⟩

theorem cacheStep_windows (ws : List Window) : CacheStep s { s with sl := { s.sl with windows := ws } } := .of_net ⟨_, _, _, _, rfl⟩ rfl

theorem cacheStep_updReads (f : List LoadWait → List LoadWait) : CacheStep s (updReads f s) := by
  refine (cacheStep_mapNet s _ fun m g hg => ?_).trans (cacheStep_windows _ _)
  cases hb : m.body with
  | fill x =>
    simp only [hb] at hg
    cases hg
    exact ⟨x, rfl, rfl, rfl, rfl, rfl⟩
  | write | atomic | mcast => simp [hb] at hg

theorem cacheStep_cancelFills (p : Fill → Bool) (line sec : Nat) : CacheStep s (cancelFills p line sec s) := by
  refine cacheStep_mapNet s _ fun m g hg => ?_
  cases hb : m.body with
  | fill x =>
    simp only [hb] at hg
    split at hg
    · cases hg
      exact ⟨x, rfl, rfl, rfl, rfl, rfl⟩
    · exact ⟨g, hb ▸ hg, rfl, rfl, rfl, rfl⟩
  | write | atomic | mcast => simp [hb] at hg

theorem cacheStep_ite {c : Prop} [Decidable c] {s t u : State} (ht : CacheStep s t) (hu : CacheStep s u) : CacheStep s (if c then t else u) := by
  split
  · exact ht
  · exact hu

theorem cacheStep_cancelIf (c : Prop) [Decidable c] (p : Fill → Bool) (line sec : Nat) :
    CacheStep s (if c then cancelFills p line sec s else s) :=
  cacheStep_ite (cacheStep_cancelFills ..) (.refl s)

theorem cacheStep_l1Invalidate (line sec : Nat) : CacheStep s (l1Invalidate line sec s) := by
  unfold l1Invalidate
  split
  · exact .refl s
  · exact cacheStep_l1Put ..

theorem cacheStep_l1Lose (line sec : Nat) : CacheStep s (l1Lose line sec s) :=
  (cacheStep_cancelFills ..).trans (cacheStep_l1Invalidate ..)

theorem cacheStep_l1Renew (h : Nat) : CacheStep s (l1Renew h s) := by
  unfold l1Renew
  split
  · exact .refl s
  · exact (cacheStep_cancelFills ..).trans (cacheStep_l1Invalidate ..)

theorem cacheStep_l1Touch (line : Nat) : CacheStep s (l1Touch line s) := by
  unfold l1Touch
  split
  · exact .refl s
  · exact (cacheStep_fresh s).trans (cacheStep_l1Put ..)

theorem cacheStep_send {b : MsgBody} (h : ∀ f, b ≠ .fill f) : CacheStep s (netSend b s).2 := by
  refine ⟨⟨_, _, _, _, rfl⟩, fun m hm f hf => ?_⟩
  rcases List.mem_append.1 hm with hm | hm
  · exact ⟨m, hm, f, hf, rfl, rfl, rfl, rfl⟩
  · rw [List.mem_singleton.1 hm] at hf
    exact absurd hf (h f)

theorem cacheStep_sendWrite (w : WriteMsg) : CacheStep s (netSend (.write w) s).2 := cacheStep_send s (fun _ => MsgBody.noConfusion)

/-- A change of one message that makes no fill of it and leaves fills. -/
theorem cacheStep_netUpd (id : Nat) (f : MsgBody → MsgBody) (h : ∀ b g, f b = .fill g → b = .fill g) : CacheStep s (netUpd id f s) := by
  refine cacheStep_mapNet s _ fun m g hg => ?_
  split at hg
  · exact ⟨g, h _ _ hg, rfl, rfl, rfl, rfl⟩
  · exact ⟨g, hg, rfl, rfl, rfl, rfl⟩

theorem cacheStep_writeBack (line : Nat) (w : Writer) : CacheStep s (writeBack line w s).2 := by
  unfold writeBack
  split
  · exact .refl s
  · dsimp only
    split
    · exact .refl s
    · refine .trans ?_ (cacheStep_sendWrite ..)
      refine .trans ?_ (cacheStep_l1Put ..)
      exact ((cacheStep_updReads ..).trans (cacheStep_cancelIf ..)).trans (cacheStep_cancelIf ..)

theorem cacheStep_evict (line : Nat) : CacheStep s (evict line s).2 :=
  (cacheStep_writeBack ..).trans (cacheStep_l1Drop ..)

theorem cacheStep_l1Ensure (line : Nat) : CacheStep s (l1Ensure line s).2 := by
  unfold l1Ensure
  dsimp only
  refine (cacheStep_fresh s).trans ?_
  split
  · exact .refl _
  · split
    · exact .refl _
    · split
      · exact cacheStep_evict ..
      · exact .refl _

theorem cacheStep_holdLoads (who : List (Nat × Nat)) (line : Nat) : CacheStep s (holdLoads who line s) := by
  unfold holdLoads
  exact cacheStep_updReads ..

theorem cacheStep_l1Write (h : Nat) (bs : List Byte) (scope depth uid bundle : Nat) (keep : Bool) :
    CacheStep s (l1Write h bs scope depth uid bundle keep s) := by
  unfold l1Write
  split
  · refine cacheStep_netUpd s _ _ fun b g hg => ?_
    cases b with
    | write => cases hg
    | fill | atomic | mcast => exact hg
  · exact (cacheStep_l1Ensure ..).trans (cacheStep_l1Put ..)

theorem cacheStep_loseIf (c : Prop) [Decidable c] (line sec : Nat) : CacheStep s (if c then l1Lose line sec s else s) :=
  cacheStep_ite (cacheStep_l1Lose ..) (.refl s)

theorem cacheStep_writeBackIf (c : Prop) [Decidable c] (line : Nat) (w : Writer) : CacheStep s (if c then s else (writeBack line w s).2) :=
  cacheStep_ite (.refl s) (cacheStep_writeBack ..)

theorem cacheStep_sendStore (uid seq tree depth bundle hint ctx : Nat) (ws : List (Nat × Byte)) :
    CacheStep s (sendStore uid seq tree depth bundle hint ctx ws s) := by
  unfold sendStore
  split
  · exact .refl s
  · dsimp only
    split
    · refine .trans ?_ (cacheStep_netUpd _ _ _ fun b g hg => ?_)
      · exact cacheStep_loseIf ..
      · cases b with
        | write => cases hg
        | fill | atomic | mcast => exact hg
    · exact ((cacheStep_loseIf ..).trans (cacheStep_writeBackIf ..)).trans (cacheStep_sendWrite ..)

theorem cacheStep_putStore (q : Queued) : CacheStep s (putStore q s) := by
  unfold putStore
  split
  · exact .refl s
  · dsimp only
    refine (cacheStep_fresh s).trans ?_
    split
    · exact (cacheStep_holdLoads ..).trans (cacheStep_l1Write ..)
    · exact cacheStep_sendStore ..

end

/-! ## A read of the home (R210) -/

/-- With no fill to join, a read of the home is a fill request of its own. -/
theorem askFill_new {w : LoadWait} {s : State} (alone : NoFillToJoin w.pa s) (hint : Nat) :
    askFill w hint s = (netSend (.fill { line := lineOf w.pa, sec := w.pa % 128 / 64, lease := if hint = 3 then 64 else s.curCtx.lease.toNat
                                         ctx := s.ctxNo, bundle := s.bundleNo, alloc := !isX w.pa && hint != 1, keep := hint == 2, waits := [w] }) s).2 := by
  unfold askFill
  dsimp only
  split
  · next m found =>
    have hm := List.mem_of_find?_eq_some found
    have hp := List.find?_some found
    split at hp
    · next f hf =>
      simp only [Bool.and_eq_true, beq_iff_eq] at hp
      obtain ⟨⟨⟨bundle, line⟩, sec⟩, reply⟩ := hp
      rw [Option.isNone_iff_eq_none] at reply
      exact absurd (alone m hm f hf bundle line sec) (by simp [reply])
    · cases hp
  · rfl

end Sys2Proof.Laws
end

section
/-! PROOF. Calls and returns of threads and of streams (R14, R24, R279). -/

namespace Sys2Proof.Laws

open Sys2Proof Sys2Proof.Machine Sys2Proof.Rules

/-! ## Calls (R14, R24) -/

theorem not_eq_false_of {b : Bool} (h : b = true) : ¬ b = false := by simp [h]

theorem pcStop_ok {v : DWord} (canon : canonical v = true) (aligned : v.toNat % 4 = 0) : pcStop v = none := by
  have low : ¬ v.extractLsb' 0 2 ≠ 0 := fun x => (low2_ne_zero v).1 x aligned
  simp only [pcStop, canon, Bool.not_true, Bool.false_eq_true, if_false, if_neg low]

/-- The checks of a call in the order of R24. -/
theorem callFail_eq (v kp : DWord) : callFail v kp =
    if canonical v = false then some { cause := .addrCanon, addr := v }
    else if canonical (kp - 8) = false then some { cause := .addrCanon, addr := kp - 8 }
    else if v.toNat % 4 ≠ 0 then some { cause := .instAlign, addr := v }
    else if kp.toNat % 8 ≠ 0 then some { cause := .align, addr := kp, info := 8 }
    else none := by
  simp only [callFail, low2_ne_zero, low3_ne_zero, Bool.not_eq_true']

theorem callTo_fail {i : Ins} {v : DWord} {s : State} {t : Trap} (h : callFail v s.th.kp = some t) : callTo i v s = raise t s := by
  simp only [callTo, h]

/-- A call past its checks whose writes are not held stores the next address. -/
theorem callTo_ok {i : Ins} {v : DWord} {s : State} {e : TlbEnt} (h : callFail v s.th.kp = none)
    (hit : tlbHit s.xl.coreTlb s.ctxNo (s.th.kp - 8).toNat .write = some e)
    (free : writeHeld s s.th.uid (spaceOf (e.home (s.th.kp - 8).toNat)) (e.home (s.th.kp - 8).toNat) = false) :
    callTo i v s = goto i (v.truncate 57) ((putStore (queuedOf s {} (atAddr (e.home (s.th.kp - 8).toNat)
      (leBytes (pc64 (nextPc i s)).toNat 8))) s).updTh (fun t => { t with kp := s.th.kp - 8 })) := by
  simp only [callTo, h, withHome_core hit, free, Bool.false_eq_true, if_false]

theorem callTo_unmapped {i : Ins} {v : DWord} {s : State} (h : callFail v s.th.kp = none) (miss : Unmapped s (s.th.kp - 8) .write) :
    callTo i v s = walksFor (s.th.kp - 8) .write s := by
  simp only [callTo, h, withHome_unmapped miss]

/-- What `call` and `callr` run on threads: a call to their target. Neither has a word in front. -/
theorem call_thread (i : Instr) (s : State) (h : Executes i s) :
    (callTarget s.th.pc (dwordOf (operands i.ins s).a) i).elim True
      (fun v => exec i s = .next (callTo i.ins v s) ∧ i.ins.p = none) := by
  cases i with
  | call => exact ⟨(run_thread h.1 h.2).trans (congrArg _ (congrArg (callTo _ · s) (branchTarget_eq ..))), rfl⟩
  | callr => exact ⟨run_thread h.1 h.2, rfl⟩
  | _ => exact trivial

theorem call_stream (i : Instr) (s : State) (h : Streams i s) :
    (callTarget s.sq.pc (dwordOf (operandsC i.ins s).a) i).elim True
      (fun v => exec i s = .next (callToS i.ins v s) ∧ i.ins.p = none) := by
  cases i with
  | call => exact ⟨(run_stream h.1 h.2).trans (congrArg _ (congrArg (callToS _ · s) (branchTarget_eq ..))), rfl⟩
  | callr => exact ⟨run_stream h.1 h.2, rfl⟩
  | _ => exact trivial

theorem exec_call {i : Instr} {s : State} {v : DWord} (h : Executes i s)
    (target : callTarget s.th.pc (dwordOf (operands i.ins s).a) i = some v) : exec i s = .next (callTo i.ins v s) ∧ i.ins.p = none := by
  have e := call_thread i s h
  rwa [target] at e

theorem exec_callS {i : Instr} {s : State} {v : DWord} (h : Streams i s)
    (target : callTarget s.sq.pc (dwordOf (operandsC i.ins s).a) i = some v) : exec i s = .next (callToS i.ins v s) ∧ i.ins.p = none := by
  have e := call_stream i s h
  rwa [target] at e

theorem nextPc_of_noPayload {i : Ins} (h : i.p = none) (s : State) : nextPc i s = s.th.pc + 4 := by
  rw [nextPc, h]
  rfl

theorem nextPcS_of_noPayload {i : Ins} (h : i.p = none) (s : State) : nextPcS i s = s.sq.pc + 4 := by
  rw [nextPcS, h]
  rfl

/-- A stream's call keeps up to 16 return addresses (R279). -/
theorem callToS_ok {i : Ins} {v : DWord} (p : i.p = none) (canon : canonical v = true) (aligned : v.toNat % 4 = 0) (s : State) :
    callToS i v s = if s.sq.rstack.length ≥ 16 then stopStream 6 s
      else onlyGoesS i (v.truncate 57) { s with sq := { s.sq with rstack := (s.sq.pc + 4) :: s.sq.rstack } } := by
  simp only [callToS, pcStop_ok canon aligned, nextPcS_of_noPayload p, gotoS_eq]

/-! ## Returns (R14, R24) -/

theorem captures_ret (sw : Bool) (s : State) (tag : Nat) : captures (Instr.ret sw).ins s tag = [] := rfl

theorem msb_ret (sw : Bool) : (Instr.ret sw).ins.word.msb = sw := by cases sw <;> rfl

/-- `ret` names no register and has no word in front: nothing comes before its effect. -/
theorem executes_ret (sw : Bool) {s : State} (ha : s.actor ≠ .stream) : Executes (.ret sw) s := ⟨ha, rfl⟩

theorem exec_ret {sw : Bool} {s : State} (ha : s.actor ≠ .stream) : exec (.ret sw) s = .next (retOp (Instr.ret sw).ins s) :=
  run_thread ha rfl

theorem exec_ret_stream {sw : Bool} {s : State} (ha : s.actor = .stream) : exec (.ret sw) s = .next (retOpS (Instr.ret sw).ins s) :=
  run_stream ha rfl

/-- The checks of a return in the order of R24. -/
theorem retFail_eq (kp : DWord) : retFail kp =
    if canonical kp = false then some { cause := .addrCanon, addr := kp }
    else if kp.toNat % 8 ≠ 0 then some { cause := .align, addr := kp, info := 8 }
    else none := by
  simp only [retFail, low3_ne_zero, Bool.not_eq_true']

theorem pcFail_eq (v : DWord) : pcFail v =
    if canonical v = false then some { cause := .addrCanon, addr := v }
    else if v.toNat % 4 ≠ 0 then some { cause := .instAlign, addr := v }
    else none := by
  simp only [pcFail, low2_ne_zero, Bool.not_eq_true']

section

variable {i : Ins} {s : State}

theorem retOp_fail {t : Trap} (h : retFail s.th.kp = some t) : retOp i s = raise t s := by
  simp only [retOp, h]

theorem retOp_unmapped (h : retFail s.th.kp = none) (miss : Unmapped s s.th.kp .read) : retOp i s = walksFor s.th.kp .read s := by
  simp only [retOp, h, withHome_unmapped miss]

section

variable {e : TlbEnt} (h : retFail s.th.kp = none) (hit : tlbHit s.xl.coreTlb s.ctxNo s.th.kp.toNat .read = some e)

include h hit

theorem retOp_poison (path : loadPath s (e.home s.th.kp.toNat) 8 false = .poison) : retOp i s = raise { cause := .poison, addr := s.th.kp } s := by
  simp only [retOp, h, withHome_core hit, path]

theorem retOp_value {bs : List Byte} {vt : Option Nat} (path : loadPath s (e.home s.th.kp.toNat) 8 false = .value bs vt) :
    retOp i s = finishRet (BitVec.ofNat 64 (leNat bs)) (waitsIn i .none (sees vt (l1Touch (lineOf (e.home s.th.kp.toNat)) s))) := by
  simp only [retOp, h, withHome_core hit, path, hold_eq]
  rfl

theorem retOp_ask (path : loadPath s (e.home s.th.kp.toNat) 8 false = .ask) :
    retOp i s = waitsIn i (.ret s.nextId) (askFill (Machine.waitOf s.fresh.2 s.nextId s.th.kp (e.home s.th.kp.toNat) 8 false) 0
      (l1Renew (e.home s.th.kp.toNat) s.fresh.2)) := by
  simp only [retOp, h, withHome_core hit, path, hold_eq]
  rfl

end

end

/-- A value that the pc may take ends the return. -/
theorem finishRet_ok {v : DWord} (canon : canonical v = true) (aligned : v.toNat % 4 = 0) (s : State) :
    finishRet v s = s.updTh (fun t => ({ t with npc := v.truncate 57, kp := t.kp + 8 }).resume) := by
  have ok : pcFail v = none := by rw [pcFail_eq, if_neg (by simp [canon]), if_neg (by omega)]
  simp only [finishRet, ok]

theorem finishRet_fail {v : DWord} {t : Trap} (h : pcFail v = some t) (s : State) : finishRet v s = raise t s := by
  simp only [finishRet, h]

theorem l1Renew_fresh (h : Nat) (s : State) : l1Renew h s.fresh.2 = { l1Renew h s with nextId := s.nextId + 1 } := by
  have find : l1Find (cancelFills (fun f => f.bundle != s.bundleNo || f.reply.isSome) (lineOf h) (h % 128 / 64) s.fresh.2) (lineOf h)
      = l1Find (cancelFills (fun f => f.bundle != s.bundleNo || f.reply.isSome) (lineOf h) (h % 128 / 64) s) (lineOf h) := rfl
  unfold l1Renew l1Invalidate
  rw [fresh_bundleNo, find]
  split
  · rfl
  · split <;> rfl

/-- A return whose bytes only the home has asks for them with a fill of its own. -/
theorem askFill_ret {s : State} {h : Nat} (alone : NoFillToJoin h s) (kp : DWord) :
    askFill (Machine.waitOf s.fresh.2 s.nextId kp h 8 false) 0 (l1Renew h s.fresh.2) = { l1Renew h s with
      nextId := s.nextId + 2
      pl := { (l1Renew h s).pl with net := (l1Renew h s).pl.net ++ [{ id := s.nextId + 1, body := .fill (fillOf {} kp h 8 false s) }] } } := by
  have step : CacheStep s (l1Renew h s.fresh.2) := (cacheStep_fresh s).trans (cacheStep_l1Renew ..)
  have alone' : NoFillToJoin (Machine.waitOf s.fresh.2 s.nextId kp h 8 false).pa (l1Renew h s.fresh.2) := noFillToJoin_of_cacheStep step alone
  rw [askFill_new alone', step.curCtx, step.ctxNo, step.bundleNo, l1Renew_fresh]
  rfl

theorem toNat_ofNat_64_mod_four {n : Nat} (h : n % 4 = 0) : (BitVec.ofNat 64 n).toNat % 4 = 0 := by
  rw [BitVec.toNat_ofNat]
  omega

/-- The thread after a return: at the loaded address, with nothing captured, and parked only for what was outstanding before. -/
theorem ret_resumes (sw : Bool) (v : Nat) (vt : Option Nat) {line : Nat} (s : State) :
    (waitsIn (Instr.ret sw).ins .none (sees vt (l1Touch line s))).updTh
        (fun t => ({ t with npc := (BitVec.ofNat 64 v).truncate 57, kp := t.kp + 8 }).resume)
      = { l1Touch line s with th := { (l1Touch line s).th with
            pc := BitVec.ofNat 57 v, npc := BitVec.ofNat 57 v, kp := s.th.kp + 8, pct := max s.th.pct (vt.getD 0), wctMax := max s.th.wctMax (vt.getD 0)
            held := none, smark := sw, park := if sw && !s.th.pend.isEmpty then .switch else .none } } := by
  have low : (BitVec.ofNat 64 v).truncate 57 = BitVec.ofNat 57 v := BitVec.eq_of_toNat_eq (by simp)
  simp only [waitsIn, waitsAt, captures_ret, sees, State.updTh, Thread.resume, msb_ret, low, (cacheStep_l1Touch s line).th, List.head?_nil,
    Option.toList_none, List.append_nil, List.length_nil, Nat.add_zero]

/-! ## The statement -/

/-- Settles O7, by the checks of calls and returns in their order. -/
theorem callsAndReturns : Obligations.CallsAndReturns := by
  refine ⟨⟨fun i v s e h target c1 a1 c2 a2 hit free => ?call, fun i v s h target => ?callFails, fun i v s h target c a => ?callStream⟩,
    fun sw s e bs vt ha c a hit path cv av => ?ret, fun sw s ha => ?retFails, fun sw s ha => ?retStream⟩
  case call =>
    obtain ⟨run, p⟩ := exec_call h target
    have ok : callFail v s.th.kp = none := by rw [callFail_eq, if_neg (by simp [c1]), if_neg (not_eq_false_of c2), if_neg (by omega), if_neg (by omega)]
    rw [run, callTo_ok ok hit free, nextPc_of_noPayload p, goto_eq]
    rfl
  case callFails =>
    obtain ⟨run, -⟩ := exec_call h target
    rw [run]
    have fails := callFail_eq v s.th.kp
    refine ⟨fun c => ?_, fun c c' => ?_, fun c c' a => ?_, fun c c' a a' => ?_, fun c c' a a' miss => ?_⟩
    · rw [callTo_fail (fails.trans (if_pos c))]
    · rw [callTo_fail (fails.trans (by rw [if_neg (by simp [c]), if_pos c']))]
    · rw [callTo_fail (fails.trans (by rw [if_neg (by simp [c]), if_neg (not_eq_false_of c'), if_pos a]))]
    · rw [callTo_fail (fails.trans (by rw [if_neg (by simp [c]), if_neg (not_eq_false_of c'), if_neg (by omega), if_pos a']))]
    · rw [callTo_unmapped (fails.trans (by rw [if_neg (by simp [c]), if_neg (not_eq_false_of c'), if_neg (by omega), if_neg (by omega)])) miss]
  case callStream =>
    obtain ⟨run, p⟩ := exec_callS h target
    rw [run, callToS_ok p c a]
  case ret =>
    have ok : retFail s.th.kp = none := by rw [retFail_eq, if_neg (by simp [c]), if_neg (by omega)]
    rw [exec_ret ha, retOp_value ok hit path, finishRet_ok cv (toNat_ofNat_64_mod_four av)]
    exact congrArg _ (ret_resumes sw _ _ s)
  case retFails =>
    have fails := retFail_eq s.th.kp
    rw [exec_ret ha]
    refine ⟨fun c => ?_, fun c a => ?_, fun c a miss => ?_, fun e c a hit => ?_⟩
    · rw [retOp_fail (fails.trans (if_pos c))]
    · rw [retOp_fail (fails.trans (by rw [if_neg (by simp [c]), if_pos a]))]
    · rw [retOp_unmapped (fails.trans (by rw [if_neg (by simp [c]), if_neg (by omega)])) miss]
    · have ok : retFail s.th.kp = none := fails.trans (by rw [if_neg (by simp [c]), if_neg (by omega)])
      refine ⟨fun path => ?_, fun bs vt path => ⟨fun cv => ?_, fun cv av => ?_⟩, fun path alone => ?_⟩
      · rw [retOp_poison ok hit path]
      · rw [retOp_value ok hit path, finishRet_fail ((pcFail_eq _).trans (if_pos cv))]
      · rw [retOp_value ok hit path, finishRet_fail ((pcFail_eq _).trans (by rw [if_neg (by simp [cv]), if_pos av]))]
      · rw [retOp_ask ok hit path, askFill_ret alone]
  case retStream =>
    rw [exec_ret_stream ha]
    unfold retOpS
    cases s.sq.rstack with
    | nil => rfl
    | cons r rest => rfl

end Sys2Proof.Laws
end

section
/-! PROOF. Plain loads and stores: their forms, addresses and values (R94, R95). -/

namespace Sys2Proof.Laws

open Sys2Proof Sys2Proof.Machine Sys2Proof.Rules

/-! ## Addresses (R95) -/

theorem globalAddr_eq (base : DWord) (n : BitVec 7) (size : Nat) : globalAddr base n size = addressOf base n size := by
  apply BitVec.eq_of_toInt_eq
  rw [globalAddr, addressOf, signExtend_eq_ofInt, ← BitVec.ofInt_natCast, BitVec.toInt_add, BitVec.toInt_mul, BitVec.toInt_ofInt, BitVec.toInt_ofInt,
    BitVec.toInt_ofInt, Int.bmod_mul_bmod, Int.mul_bmod_bmod, Int.add_bmod_bmod]

theorem globalFail_canon {a : DWord} (size : Nat) (h : canonical a = false) : globalFail a size = some { cause := .addrCanon, addr := a } := by
  simp [globalFail, h]

theorem globalFail_align {a : DWord} {size : Nat} (h : canonical a = true) (h' : a.toNat % size ≠ 0) :
    globalFail a size = some { cause := .align, addr := a, info := BitVec.ofNat 32 size } := by
  simp [globalFail, h, h']

theorem globalFail_ok {a : DWord} {size : Nat} (h : AddressOk a size) : globalFail a size = none := by
  obtain ⟨canon, aligned⟩ := h
  simp [globalFail, canon, aligned]

/-! ## Forms (R94) -/

/-- What the model does for a plain load of a form. -/
def LoadsAs (i : Instr) (x : Nat × Bool × BitVec 7) : Prop :=
  (∀ s, exec i s = load i.ins x.2.2 x.1 x.2.1 s) ∧ immOf i.ins.word = x.2.2 ∧ (x.1 = 1 ∨ x.1 = 2 ∨ 4 ≤ x.1)

theorem immOf_packA (sw : Bool) (m : BitVec 6) (t r n : BitVec 7) (f : BitVec 4) : immOf (packA sw m t r n f) = n := bOf_packA ..

theorem loadForm_elim (i : Instr) : (loadForm i).elim True (LoadsAs i) := by
  cases i with
  | ldB | ldBs | ldH | ldHs | ldW | ldD | ldQ | ldO => exact ⟨fun _ => rfl, immOf_packA .., by simp⟩
  | _ => exact trivial

/-- What the model does for a plain store of a form. -/
def StoresAs (i : Instr) (x : Nat × BitVec 7) : Prop := (∀ s, exec i s = store i.ins x.2 x.1 s) ∧ 0 < x.1

theorem storeForm_elim (i : Instr) : (storeForm i).elim True (StoresAs i) := by
  cases i with
  | stB | stH | stW | stD | stQ | stO => exact ⟨fun _ => rfl, Nat.succ_pos _⟩
  | _ => exact trivial

section

variable {i : Instr} {size : Nat} {signed : Bool} {n : BitVec 7} {s : State}

theorem load_of_form (h : loadForm i = some (size, signed, n)) : LoadsAs i (size, signed, n) := by
  have e := loadForm_elim i
  rwa [h] at e

theorem store_of_form (h : storeForm i = some (size, n)) : StoresAs i (size, n) := by
  have e := storeForm_elim i
  rwa [h] at e

theorem exec_load (h : loadForm i = some (size, signed, n)) (hx : Executes i s) :
    exec i s = .next (loadG i.ins n size signed (operands i.ins s) s) :=
  ((load_of_form h).1 s).trans (run_thread hx.1 hx.2)

theorem exec_store (h : storeForm i = some (size, n)) (hx : Executes i s) : exec i s = .next (storeG i.ins n size (operands i.ins s) s) :=
  ((store_of_form h).1 s).trans (run_thread hx.1 hx.2)

theorem exec_load_stream (h : loadForm i = some (size, signed, n)) (hx : Streams i s) :
    exec i s = .next (loadGS i.ins n size signed (operandsC i.ins s) s) :=
  ((load_of_form h).1 s).trans (run_stream hx.1 hx.2)

theorem exec_store_stream (h : storeForm i = some (size, n)) (hx : Streams i s) : exec i s = .next (storeGS i.ins n size (operandsC i.ins s) s) :=
  ((store_of_form h).1 s).trans (run_stream hx.1 hx.2)

end

/-! ## Accesses of threads, past their checks -/

section

variable {i : Ins} {n : BitVec 7} {size : Nat} {signed : Bool} {o : Opnds} {s : State}

theorem loadG_fail {t : Trap} (h : globalFail (addressOf (dwordOf o.a) n size) size = some t) : loadG i n size signed o s = raise t s := by
  simp only [loadG, globalAddr_eq, h]

theorem storeG_fail {t : Trap} (h : globalFail (addressOf (dwordOf o.a) n size) size = some t) : storeG i n size o s = raise t s := by
  simp only [storeG, globalAddr_eq, h]

variable {e : TlbEnt} (ok : AddressOk (addressOf (dwordOf o.a) n size) size)

include ok

theorem loadG_ok (hit : tlbHit s.xl.coreTlb s.ctxNo (addressOf (dwordOf o.a) n size).toNat .read = some e) :
    loadG i n size signed o s
      = loadFrom i o (addressOf (dwordOf o.a) n size) size signed (memOrd i.p) (e.home (addressOf (dwordOf o.a) n size).toNat) s := by
  simp only [loadG, globalAddr_eq, globalFail_ok ok, withHome_core hit]

theorem storeG_ok (hit : tlbHit s.xl.coreTlb s.ctxNo (addressOf (dwordOf o.a) n size).toNat .write = some e) :
    let h := e.home (addressOf (dwordOf o.a) n size).toNat
    let q := queuedOf s (memOrd i.p) (atAddr h (leBytes o.d.toNat size))
    storeG i n size o s = steps i (if (memOrd i.p).rel || lineHeld s (spaceOf h) h then enqueue q s else putStore q s) := by
  simp only [storeG, globalAddr_eq, globalFail_ok ok, withHome_core hit, finish_eq]

end

/-! ## Accesses of streams (R278, R279) -/

section

variable {i : Ins} {n : BitVec 7} {size : Nat} {signed : Bool} {o : Opnds} {s : State}

theorem withHomeS_cluster {va : DWord} {acc : Acc} {e : TlbEnt} (h : tlbHit s.xl.clusterTlb s.ctxNo va.toNat acc = some e)
    (k : Nat → State → State) : withHomeS va acc k s = k (e.home va.toNat) s := by
  simp only [withHomeS, translateCl, h]

theorem isEmpty_append_singleton {α : Type} (l : List α) (x : α) : (l ++ [x]).isEmpty = false := by
  cases l <;> rfl

/-- A stream whose result waits for a message goes on. -/
theorem finishS_sent (regs : List (Nat × DWord)) (lo : Nat) (hi : Option Nat) (ready : Bool) (b : MsgBody) :
    finishS i (netSend b (addResultS regs lo hi ready s).2).2 = { finishWithS i regs lo hi ready s with
      nextId := s.nextId + 2, pl := { s.pl with net := s.pl.net ++ [{ id := s.nextId + 1, body := b }] } } := by
  simp only [finishS_eq, onlyGoesS, finishWithS, addResultS, netSend, State.fresh, isEmpty_append_singleton, Bool.not_false, Bool.and_true]

theorem loadGS_canon (h : canonical (addressOf (dwordOf o.a) n size) = false) : loadGS i n size signed o s = stopStream 4 s := by
  simp only [loadGS, globalAddr_eq, h, Bool.not_false, if_true]

theorem storeGS_canon (h : canonical (addressOf (dwordOf o.a) n size) = false) : storeGS i n size o s = stopStream 4 s := by
  simp only [storeGS, globalAddr_eq, h, Bool.not_false, if_true]

theorem loadGS_align (h : canonical (addressOf (dwordOf o.a) n size) = true) (h' : (addressOf (dwordOf o.a) n size).toNat % size ≠ 0) :
    loadGS i n size signed o s = stopStream 3 s := by
  simp only [loadGS, globalAddr_eq, h, Bool.not_true, Bool.false_eq_true, if_false, if_pos h']

theorem storeGS_align (h : canonical (addressOf (dwordOf o.a) n size) = true) (h' : (addressOf (dwordOf o.a) n size).toNat % size ≠ 0) :
    storeGS i n size o s = stopStream 3 s := by
  simp only [storeGS, globalAddr_eq, h, Bool.not_true, Bool.false_eq_true, if_false, if_pos h']

variable {e : TlbEnt} (ok : AddressOk (addressOf (dwordOf o.a) n size) size)

include ok

/-- A stream's load leaves for the home, its c register outstanding. -/
theorem loadGS_ok (hit : tlbHit s.xl.clusterTlb s.ctxNo (addressOf (dwordOf o.a) n size).toNat .read = some e)
    (clean : isX (e.home (addressOf (dwordOf o.a) n size).toNat) = true ∨ isPoisoned s (e.home (addressOf (dwordOf o.a) n size).toNat) size = false) :
    let a := addressOf (dwordOf o.a) n size
    let h := e.home a.toNat
    let w : LoadWait :=
      { stream := some s.sq.n, slot := 0, lane := 0, pc := s.sq.pc, tag := s.nextId, va := a, pa := h, size := size, signed := signed }
    let t := finishWithS i (o.pd.toList.map (fun p => (p, 0))) 40 none false s
    loadGS i n size signed o s = { t with
      nextId := s.nextId + 2
      pl := { s.pl with net := s.pl.net ++ [{ id := s.nextId + 1, body := .fill { line := lineOf h, sec := h % 128 / 64, lease := 0, ctx := s.ctxNo, alloc := false, waits := [w] } }] } } := by
  obtain ⟨canon, aligned⟩ := ok
  have clean' : (!isX (e.home (addressOf (dwordOf o.a) n size).toNat) && isPoisoned s (e.home (addressOf (dwordOf o.a) n size).toNat) size) = false := by
    rcases clean with x | x <;> simp [x]
  simp only [loadGS, globalAddr_eq, canon, aligned, Bool.not_true, Bool.false_eq_true, if_false, ne_eq, not_true_eq_false, withHomeS_cluster hit, clean',
    finishS_sent]
  rfl

/-- A stream's store leaves for the home. -/
theorem storeGS_ok (hit : tlbHit s.xl.clusterTlb s.ctxNo (addressOf (dwordOf o.a) n size).toNat .write = some e) :
    storeGS i n size o s = onlyGoesS i (s.sq.pc + if i.p.isSome then 8 else 4) { s with
      nextId := s.nextId + 1
      pl := { s.pl with net := s.pl.net ++ [{ id := s.nextId, body := (.write (
        { ws := atAddr (e.home (addressOf (dwordOf o.a) n size).toNat) (leBytes o.d.toNat size)
          writer := .stream s.sq.n s.sq.block (((s.block? s.sq.block).map (·.tree)).getD 0)
          depth := ((s.block? s.sq.block).map (·.depth)).getD 0, ctx := s.ctxNo } : WriteMsg)) }] } } := by
  obtain ⟨canon, aligned⟩ := ok
  simp only [storeGS, globalAddr_eq, canon, aligned, Bool.not_true, Bool.false_eq_true, if_false, ne_eq, not_true_eq_false, withHomeS_cluster hit]
  rfl

end

end Sys2Proof.Laws
end

section
/-! PROOF. Accesses of streams, and addresses that may not be used (R24, R94, R95, R278, R279, R344). -/

namespace Sys2Proof.Laws

open Sys2Proof Sys2Proof.Machine Sys2Proof.Rules

/-- Settles O21, by the checks of R95 in their order. -/
theorem streamAccessesAndBadAddresses : Obligations.StreamAccessesAndBadAddresses := by
  refine ⟨⟨fun i size signed n s e form hx ok hit clean => ?load, fun i size n s e form hx ok hit => ?store, fun i size n s form hx => ?stops⟩,
    fun i size n s form hx => ?traps⟩
  case load => exact (exec_load_stream form hx).trans (congrArg _ (loadGS_ok ok hit clean))
  case store => exact (exec_store_stream form hx).trans (congrArg _ (storeGS_ok ok hit))
  case stops =>
    rcases form with ⟨g, form⟩ | form
    · rw [exec_load_stream form hx]
      exact ⟨fun c => congrArg _ (loadGS_canon c), fun c a => congrArg _ (loadGS_align c a)⟩
    · rw [exec_store_stream form hx]
      exact ⟨fun c => congrArg _ (storeGS_canon c), fun c a => congrArg _ (storeGS_align c a)⟩
  case traps =>
    rcases form with ⟨g, form⟩ | form
    · rw [exec_load form hx]
      exact ⟨fun c => congrArg _ (loadG_fail (globalFail_canon size c)), fun c a => congrArg _ (loadG_fail (globalFail_align c a))⟩
    · rw [exec_store form hx]
      exact ⟨fun c => congrArg _ (storeG_fail (globalFail_canon size c)), fun c a => congrArg _ (storeG_fail (globalFail_align c a))⟩

end Sys2Proof.Laws
end

section
/-! PROOF. A plain store in the L1: the line it makes, and what it leaves (R22, R97, R215). -/

namespace Sys2Proof.Laws

open Sys2Proof Sys2Proof.Machine Sys2Proof.Rules

/-! ## Bytes at addresses -/

theorem atAddr_map_snd (a : Nat) (bs : List Byte) : (atAddr a bs).map (·.2) = bs := by
  induction bs generalizing a with
  | nil => rfl
  | cons b t ih => simp [atAddr, ih]

/-- Bit `k` of a span from `lo`. -/
theorem testBit_bitSpan {lo n k : Nat} (h : k < n) : (bitSpan lo n).testBit (lo + k) = true := by
  rw [bitSpan, Nat.testBit_mul_two_pow, Nat.add_sub_cancel_left, Nat.testBit_two_pow_sub_one]
  simp [h]

/-! ## Lines -/

theorem l1Find_l1Put {l : L1Line} {line : Nat} (h : l.line = line) (s : State) : l1Find (l1Put l s) line = some l := by
  simp [l1Find, l1Put, h]

theorem l1Find_line {s : State} {line : Nat} {l : L1Line} (h : l1Find s line = some l) : l.line = line := by
  simpa using List.find?_some h

section

variable (line : Nat) (s : State)

theorem l1Ensure_line : (l1Ensure line s).1.line = line := by
  unfold l1Ensure
  dsimp only
  split
  · next h => exact (l1Find_line h :)
  · split
    · rfl
    · split <;> rfl

/-- A line that was not in the L1 comes without bytes. -/
theorem l1Ensure_bytes : (l1Ensure line s).1.bytes = ((l1Find s line).map (·.bytes)).getD [] := by
  have find : l1Find s.fresh.2 line = l1Find s line := rfl
  unfold l1Ensure
  dsimp only
  rw [find]
  split
  · next h => rw [h]; rfl
  · next h =>
    rw [h]
    split
    · rfl
    · split <;> rfl

end

/-- What a line's copy holds after a store of bytes in it: they are its bytes there, each dirty. -/
structure Stored (h : Nat) (bs : List Byte) (s : State) (l : L1Line) : Prop where
  dirty : ∀ k < bs.length, l.dirty.testBit (h % 128 + k) = true
  bytes : l.bytes = stSetAll 0 (((l1Find s (lineOf h)).map (·.bytes)).getD []) (atAddr (h % 128) bs)

/-- A store of a thread in the L1, where its bundle has not lost the line. -/
theorem l1Find_l1Write {h : Nat} {bs : List Byte} {scope depth uid bundle : Nat} {keep : Bool} {s : State}
    (kept : bundleEvict s bundle (lineOf h) = none) :
    ∃ l, l1Find (l1Write h bs scope depth uid bundle keep s) (lineOf h) = some l ∧ Stored h bs s l := by
  unfold l1Write
  rw [kept, ite_self]
  dsimp only
  refine ⟨_, l1Find_l1Put ?line _, ⟨fun k hk => ?dirty, ?bytes⟩⟩
  case line => exact l1Ensure_line (lineOf h) s
  case dirty => rw [Nat.testBit_or, testBit_bitSpan hk, Bool.or_true]
  case bytes => rw [l1Ensure_bytes]

/-! ## Stores of threads -/

/-- The loads on their way are no writes. -/
theorem bundleEvict_updReads (f : List LoadWait → List LoadWait) (bundle line : Nat) (s : State) (h : bundleEvict s bundle line = none) :
    bundleEvict (updReads f s) bundle line = none := by
  unfold bundleEvict at h ⊢
  rw [List.find?_eq_none] at h ⊢
  intro m hm
  obtain ⟨m', hm', rfl⟩ := List.mem_map.1 hm
  have old := h m' hm'
  cases hb : m'.body with
  | write w => simpa [hb] using old
  | fill | atomic | mcast => simp

theorem bundleEvict_holdLoads (who : List (Nat × Nat)) (bundle line : Nat) (s : State) (h : bundleEvict s bundle line = none) :
    bundleEvict (holdLoads who line s) bundle line = none := by
  unfold holdLoads
  exact bundleEvict_updReads _ _ _ s h

/-- A store of the acting thread to the L1. -/
theorem putStore_eq {h : Nat} {bs : List Byte} {s : State} {ord : MemOrd} (some_ : bs ≠ []) (here : isX h = false) (scope : ord.scope < 3) (hint : ord.hint ≠ 1) :
    putStore (queuedOf s ord (atAddr h bs)) s = l1Write h bs ord.scope s.th.depth s.th.uid s.bundleNo (ord.hint == 2)
      (holdLoads ((s.th.slot, s.th.lane) :: s.bundle) (lineOf h) s.fresh.2) := by
  cases bs with
  | nil => exact absurd rfl some_
  | cons b t =>
    have hint' : (ord.hint != 1) = true := by simpa using hint
    simp only [putStore, queuedOf, atAddr, here, scope, hint', Bool.not_false, decide_true, Bool.and_self, if_true, fresh_bundleNo, beq_self_eq_true, fresh_bundle, List.map_cons, atAddr_map_snd]

/-- A plain store of the acting thread leaves its bytes dirty in the L1. -/
theorem l1Find_putStore {h : Nat} {bs : List Byte} {s : State} {ord : MemOrd} (some_ : bs ≠ []) (here : isX h = false) (scope : ord.scope < 3)
    (hint : ord.hint ≠ 1) (kept : bundleEvict s s.bundleNo (lineOf h) = none) :
    ∃ l, l1Find (putStore (queuedOf s ord (atAddr h bs)) s) (lineOf h) = some l ∧ Stored h bs s l := by
  rw [putStore_eq some_ here scope hint]
  obtain ⟨l, find, stored⟩ := l1Find_l1Write (bundleEvict_holdLoads _ _ _ s.fresh.2 kept)
  exact ⟨l, find, stored.dirty, stored.bytes⟩

end Sys2Proof.Laws
end

section
/-! PROOF. A plain store is in the L1, and device memory is as it was (R22, R215). -/

namespace Sys2Proof.Laws

open Sys2Proof Sys2Proof.Machine Sys2Proof.Rules

theorem leBytes_ne_nil (v : Nat) {n : Nat} (h : 0 < n) : leBytes v n ≠ [] := by
  rw [← List.length_pos_iff, leBytes_length]
  exact h

/-- A store of a thread that is not held goes to the core at once. -/
theorem exec_store_plain {i : Instr} {size : Nat} {n : BitVec 7} {s : State} {e : TlbEnt} (form : storeForm i = some (size, n)) (hx : Executes i s)
    (ok : AddressOk (addressOf (dwordOf (operands i.ins s).a) n size) size)
    (hit : tlbHit s.xl.coreTlb s.ctxNo (addressOf (dwordOf (operands i.ins s).a) n size).toNat .write = some e)
    (here : isX (e.home (addressOf (dwordOf (operands i.ins s).a) n size).toNat) = false)
    (free : lineHeld s 1 (e.home (addressOf (dwordOf (operands i.ins s).a) n size).toNat) = false) (rel : (memOrd i.payload).rel = false) :
    exec i s = .next (steps i.ins (putStore (queuedOf s (memOrd i.payload)
      (atAddr (e.home (addressOf (dwordOf (operands i.ins s).a) n size).toNat) (leBytes (operands i.ins s).d.toNat size))) s)) := by
  have space : spaceOf (e.home (addressOf (dwordOf (operands i.ins s).a) n size).toNat) = 1 := by simp [spaceOf, here]
  have rel' : (memOrd i.ins.p).rel = false := rel
  rw [exec_store form hx, storeG_ok ok hit, space, free, rel']
  rfl

/-- Settles O20, by what a store of a thread does to its line. -/
theorem storedBytesAreInTheCore : Obligations.StoredBytesAreInTheCore := by
  intro i size n s e o a h form hx ok hit free kept rel scope hint here fits
  have pos : 0 < size := (store_of_form form).2
  obtain ⟨l, find, dirty, bytes⟩ := l1Find_putStore (bs := leBytes o.d.toNat size) (leBytes_ne_nil _ pos) here scope hint kept
  rw [leBytes_length] at dirty
  refine ⟨_, l, exec_store_plain form hx ok hit here free rel, find, dirty, bytes, fun x => ?_⟩
  have mem := (cacheStep_putStore s (queuedOf s (memOrd i.payload) (atAddr h (leBytes o.d.toNat size)))).mem
  exact congrArg (getByte · x) mem

end Sys2Proof.Laws
end

section
/-! PROOF. Where a load of a thread gets its bytes (R22, R97, R210, R215, R224). -/

namespace Sys2Proof.Laws

open Sys2Proof Sys2Proof.Machine Sys2Proof.Rules

/-! ## The latest byte of an address among writes -/

section

variable (ws vs : List (Nat × Byte)) (a : Nat)

theorem lastAt_eq_find : lastAt ws a = (ws.reverse.find? (·.1 == a)).map (·.2) := by
  rw [lastAt, List.getLast?_map, List.getLast?_eq_head?_reverse, ← List.filter_reverse, List.head?_filter]

theorem lastAt_append : lastAt (ws ++ vs) a = (lastAt vs a).or (lastAt ws a) := by
  simp only [lastAt, List.filter_append, List.map_append, List.getLast?_append]

variable {ws a}

theorem lastAt_eq_none_iff : lastAt ws a = none ↔ ∀ w ∈ ws, w.1 ≠ a := by
  simp [lastAt]

theorem mem_of_lastAt {v : Byte} (h : lastAt ws a = some v) : (a, v) ∈ ws := by
  obtain ⟨w, hw, e⟩ := List.mem_map.1 (List.mem_of_getLast? h)
  obtain ⟨hw, at_⟩ := List.mem_filter.1 hw
  rw [← e, ← (beq_iff_eq.1 at_ : w.1 = a)]
  exact hw

/-- Where one write alone names an address, its byte is the latest. -/
theorem lastAt_of_unique {v : Byte} (h : (a, v) ∈ ws) (one : ∀ w ∈ ws, w.1 = a → w.2 = v) : lastAt ws a = some v := by
  cases e : lastAt ws a with
  | none => exact absurd rfl (lastAt_eq_none_iff.1 e _ h)
  | some u => exact congrArg some (one _ (mem_of_lastAt e) rfl)

end

section

variable {ws : List (Nat × Byte)} {h n : Nat}

theorem ownBytes_eq (ws : List (Nat × Byte)) (h n : Nat) : ownBytes ws h n =
    if (List.range n).all (fun k => (lastAt ws (h + k)).isSome) then some ((List.range n).map (fun k => (lastAt ws (h + k)).getD 0)) else none := by
  simp only [ownBytes, lastAt_eq_find]

theorem ownBytes_of_lastAt {bs : List Byte} (len : bs.length = n) (own : ∀ k < n, lastAt ws (h + k) = some (bs.getD k 0)) :
    ownBytes ws h n = some bs := by
  have all : (List.range n).all (fun k => (lastAt ws (h + k)).isSome) = true := by
    rw [List.all_eq_true]
    intro k hk
    rw [own k (List.mem_range.1 hk)]
    rfl
  rw [ownBytes_eq, if_pos all]
  refine congrArg some (List.ext_getElem (by simp [len]) fun k hk hk' => ?_)
  rw [List.getElem_map, List.getElem_range, own k (len ▸ hk'), Option.getD_some, List.getD_eq_getElem _ _ hk']

theorem ownBytes_eq_none {k : Nat} (hk : k < n) (none_ : lastAt ws (h + k) = none) : ownBytes ws h n = none := by
  have not_all : ¬ (List.range n).all (fun k => (lastAt ws (h + k)).isSome) = true := by
    rw [List.all_eq_true]
    intro all
    have some_ := all k (List.mem_range.2 hk)
    rw [none_] at some_
    cases some_
  rw [ownBytes_eq, if_neg not_all]

theorem overlapsSpan_eq_false_iff : overlapsSpan ws h n = false ↔ ∀ k < n, lastAt ws (h + k) = none := by
  simp only [overlapsSpan, List.any_eq_false, decide_eq_true_eq, lastAt_eq_none_iff]
  constructor
  · intro out k hk w hw e
    exact out w hw (by omega)
  · intro none_ w hw inside
    exact none_ (w.1 - h) (by omega) w hw (by omega)

end

/-! ## The dirty bytes of a line -/

theorem spanAll_iff (mask lo n : Nat) : spanAll mask lo n = true ↔ ∀ k < n, mask.testBit (lo + k) = true := by
  have span (k : Nat) (hk : k < n) : (mask / 2 ^ lo % 2 ^ n).testBit k = mask.testBit (lo + k) := by
    rw [Nat.testBit_mod_two_pow, Nat.testBit_div_two_pow, Nat.add_comm]
    simp [hk]
  rw [spanAll, decide_eq_true_eq]
  constructor
  · intro e k hk
    rw [← span k hk, e, Nat.testBit_two_pow_sub_one, decide_eq_true hk]
  · intro all
    apply Nat.eq_of_testBit_eq
    intro k
    rw [Nat.testBit_two_pow_sub_one]
    by_cases hk : k < n
    · rw [span k hk, all k hk, decide_eq_true hk]
    · rw [Nat.testBit_mod_two_pow]
      simp [hk]

theorem mem_dirtyBytes_iff {l : L1Line} {w : Nat × Byte} :
    w ∈ dirtyBytes l ↔ ∃ k < 128, l.dirty.testBit k = true ∧ w = (l.line * 128 + k, stGet 0 l.bytes k) := by
  simp only [dirtyBytes, List.mem_map, List.mem_filter, List.mem_range]
  constructor
  · rintro ⟨k, ⟨hk, dirty⟩, rfl⟩
    exact ⟨k, hk, dirty, rfl⟩
  · rintro ⟨k, hk, dirty, rfl⟩
    exact ⟨k, ⟨hk, dirty⟩, rfl⟩

theorem lastAt_dirtyBytes {s : State} {a : Nat} {l : L1Line} (find : l1Find s (lineOf a) = some l) : lastAt (dirtyBytes l) a = dirtyAt s a := by
  have line : l.line = lineOf a := l1Find_line find
  have place : lineOf a * 128 + a % 128 = a := Nat.div_add_mod' a 128
  have dirty : dirtyAt s a = if l.dirty.testBit (a % 128) then some (stGet 0 l.bytes (a % 128)) else none := by simp only [dirtyAt, find, Option.bind_some]
  rw [dirty]
  split
  · next bit =>
    refine lastAt_of_unique (mem_dirtyBytes_iff.2 ⟨a % 128, Nat.mod_lt _ (by decide), bit, by rw [line, place]⟩) fun w hw e => ?_
    obtain ⟨k, hk, -, rfl⟩ := mem_dirtyBytes_iff.1 hw
    rw [show k = a % 128 by simp only at e; omega]
  · next bit =>
    refine lastAt_eq_none_iff.2 fun w hw e => bit ?_
    obtain ⟨k, hk, on, rfl⟩ := mem_dirtyBytes_iff.1 hw
    rwa [show k = a % 128 by simp only at e; omega] at on

/-- The bytes that a store put into a line are what the line holds there. -/
theorem stGet_stSetAll_atAddr (z : Byte) {l : List (Nat × Byte)} (wf : stWf z l = true) (a : Nat) (bs : List Byte) {k : Nat} (hk : k < bs.length) :
    stGet z (stSetAll z l (atAddr a bs)) (a + k) = bs.getD k z := by
  induction bs generalizing a l k with
  | nil => exact absurd hk (Nat.not_lt_zero k)
  | cons b t ih =>
    have wf' : stWf z (stSet z l a b) = true := stWf_stSet z l a b wf
    cases k with
    | zero =>
      refine (stGet_stSetAll_other z (atAddr (a + 1) t) (stSet z l a b) a wf' fun w hw e => ?_).trans (stGet_stSet_same z l a b wf)
      have bounds := atAddr_bounds (a + 1) t w hw
      omega
    | succ k =>
      have rest := ih wf' (a + 1) (Nat.lt_of_succ_lt_succ hk)
      rwa [Nat.add_assoc, Nat.add_comm 1 k] at rest

end Sys2Proof.Laws
end

section
/-! PROOF. Loads that the core serves (R22, R94, R95, R97, R210, R214, R215, R224). -/

namespace Sys2Proof.Laws

open Sys2Proof Sys2Proof.Machine Sys2Proof.Rules

/-! ## The instruction -/

/-- A result of known or awaited words, and the next instruction. -/
theorem finish_addResult (i : Ins) (regs : List (Nat × Word)) (lo : Nat) (hi : Option Nat) (ready : Bool) (s : State) :
    finish i (addResult regs lo hi .none ready s).2 = finishWith i regs lo hi ready s := by
  unfold finish goto
  rw [capture_eq]
  simp [finishWith, outstanding, goesOn, leaveTo, addResult, State.fresh, State.updTh, captures, nextPc, Ins.s, Nat.add_assoc, Nat.add_comm]

/-- A byte or half-word is extended to a word; wider loads give one word each 4 bytes. -/
theorem loadWords_eq {size : Nat} (h : size = 1 ∨ size = 2 ∨ 4 ≤ size) (signed : Bool) (bs : List Byte) :
    loadWords size signed bs = loaded size signed bs := by
  unfold loadWords loaded
  rcases h with rfl | rfl | h
  · rfl
  · rfl
  · rw [if_neg (by omega)]
    split
    · omega
    · omega
    · rfl

/-- A load that its core serves. -/
theorem loadFrom_value {i : Ins} {o : Opnds} {addr : DWord} {size h : Nat} {signed : Bool} {ord : MemOrd} {s : State} {bs : List Byte} {vt : Option Nat}
    (sizes : size = 1 ∨ size = 2 ∨ 4 ≤ size) (path : bundlePath i (immOf i.word) size (servedAtHome ord) h s = .value bs vt) :
    loadFrom i o addr size signed ord h s = finishWith i (targets o (loaded size signed bs)) 40 none true (sees vt (l1Touch (lineOf h) s)) := by
  unfold servedAtHome at path
  simp only [loadFrom, path, finish_addResult, destRegs_eq, loadWords_eq sizes]
  rfl

theorem exec_load_value {i : Instr} {size : Nat} {signed : Bool} {n : BitVec 7} {s : State} {e : TlbEnt} {bs : List Byte} {vt : Option Nat}
    (form : loadForm i = some (size, signed, n)) (hx : Executes i s) (ok : AddressOk (addressOf (dwordOf (operands i.ins s).a) n size) size)
    (hit : tlbHit s.xl.coreTlb s.ctxNo (addressOf (dwordOf (operands i.ins s).a) n size).toNat .read = some e)
    (path : bundlePath i.ins n size (servedAtHome (memOrd i.payload)) (e.home (addressOf (dwordOf (operands i.ins s).a) n size).toNat) s = .value bs vt) :
    exec i s = .next (finishWith i.ins (targets (operands i.ins s) (loaded size signed bs)) 40 none true
      (sees vt (l1Touch (lineOf (e.home (addressOf (dwordOf (operands i.ins s).a) n size).toNat)) s))) := by
  obtain ⟨-, imm, sizes⟩ := load_of_form form
  rw [exec_load form hx, loadG_ok ok hit, loadFrom_value sizes (by rw [imm]; exact path)]

/-! ## The path of a load -/

section

variable {s : State} {h size : Nat}

/-- The last thread of a bundle, with no fill of the bundle on its way to the line, is served on its own (R97). -/
theorem bundleAsks_eq_false {i : Ins} {n : BitVec 7} {home : Bool} {line : Nat} (alone : AloneAt line s) : bundleAsks i n size home line s = false := by
  obtain ⟨last, fills⟩ := alone
  have rest : (bundleRest s).drop 1 = [] := by simp [bundleRest, last]
  simp only [bundleAsks, rest, List.any_nil, Bool.or_false, List.any_eq_false]
  intro m hm
  split
  · next f hf =>
    simp only [Bool.and_eq_true, beq_iff_eq, Option.isNone_iff_eq_none, not_and]
    intro asks
    obtain ⟨⟨bundle, at_⟩, reply⟩ := asks
    have served := fills m hm f hf bundle at_
    simp [reply] at served
  · simp

theorem bundlePath_alone {i : Ins} {n : BitVec 7} {home : Bool} (alone : AloneAt (lineOf h) s) : bundlePath i n size home h s = loadPath s h size home := by
  unfold bundlePath
  rw [bundleAsks_eq_false alone]
  split
  · next path => simp [path]
  · rfl

section

variable (here : isX h = false) (plain : ∀ q ∈ ownQueue s s.th.uid, q.atom = none)

include here plain

/-- With no atomic of the thread waiting, its waiting stores that cover the bytes give them. -/
theorem loadPath_waiting {bs : List Byte} (waiting : ownBytes (waitingBytes s) h size = some bs) : loadPath s h size false = .value bs none := by
  unfold waitingBytes at waiting
  unfold loadPath
  dsimp only
  rw [if_neg ?goes, waiting]
  case goes =>
    rw [Bool.or_eq_true, List.any_eq_true]
    rintro (⟨q, hq, atom⟩ | held)
    · simp [plain q hq] at atom
    · simp [waiting, here] at held

/-- With no write of the thread waiting for the bytes, they are those of its write-throughs on their way and of the dirty bytes after these,
or, with none of the former, those of the core's copy. -/
theorem loadPath_core {bs : List Byte} {vt : Option Nat} (none_ : ∀ k < size, lastAt (waitingBytes s) (h + k) = none) (pos : 0 < size)
    (core : (overlapsSpan (ownSent s s.th.uid) h size = true ∧ (∀ k < size, dirtyBad s (h + k) = false)
        ∧ forwarded s (ownSent s s.th.uid) h size = some bs ∧ vt = none)
      ∨ (overlapsSpan (ownSent s s.th.uid) h size = false ∧ l1Read s h size = .hit bs vt)) : loadPath s h size false = .value bs vt := by
  have out : overlapsSpan (waitingBytes s) h size = false := overlapsSpan_eq_false_iff.2 none_
  have own : ownBytes (waitingBytes s) h size = none := ownBytes_eq_none pos (none_ 0 pos)
  unfold waitingBytes at out own
  unfold loadPath
  dsimp only
  rw [if_neg ?goes, own]
  case goes =>
    rw [Bool.or_eq_true, List.any_eq_true]
    rintro (⟨q, hq, atom⟩ | held)
    · simp [plain q hq] at atom
    · simp [out] at held
  rcases core with ⟨sent, clean, given, rfl⟩ | ⟨sent, hit⟩
  · have good : (List.range size).any (fun k => dirtyBad s (h + k)) = false := by
      rw [List.any_eq_false]
      intro k hk
      simp [clean k (List.mem_range.1 hk)]
    simp only [here, sent, good, given, Bool.or_self, Bool.false_eq_true, if_false, if_true]
  · simp only [here, sent, hit, Bool.or_self, Bool.false_eq_true, if_false]

end

/-! ## The bytes of a load -/

section

variable (fits : h % 128 + size ≤ 128)

include fits

theorem lineOf_add {k : Nat} (hk : k < size) : lineOf (h + k) = lineOf h := by
  unfold lineOf
  omega

theorem mod_add {k : Nat} (hk : k < size) : (h + k) % 128 = h % 128 + k := by omega

/-- Dirty bytes of one line. -/
theorem line_of_dirtyAt {bs : List Byte} (pos : 0 < size) (dirty : ∀ k < size, dirtyAt s (h + k) = some (bs.getD k 0)) :
    ∃ l, l1Find s (lineOf h) = some l ∧ ∀ k < size, l.dirty.testBit (h % 128 + k) = true ∧ stGet 0 l.bytes (h % 128 + k) = bs.getD k 0 := by
  cases find : l1Find s (lineOf h) with
  | none =>
    have first := dirty 0 pos
    rw [dirtyAt, lineOf_add fits pos, find] at first
    cases first
  | some l =>
    refine ⟨l, rfl, fun k hk => ?_⟩
    have byte := dirty k hk
    rw [dirtyAt, lineOf_add fits hk, find, mod_add fits hk, Option.bind_some, Option.ite_none_right_eq_some, Option.some_inj] at byte
    exact byte

/-- A read of dirty bytes hits, without a value time. -/
theorem l1Read_dirty {bs : List Byte} (len : bs.length = size) (pos : 0 < size) (here : isX h = false)
    (dirty : ∀ k < size, dirtyAt s (h + k) = some (bs.getD k 0)) (clean : dirtyBad s h = false) : l1Read s h size = .hit bs none := by
  obtain ⟨l, find, held⟩ := line_of_dirtyAt fits pos dirty
  have good : (if h % 128 / 64 = 0 then l.poison0 else l.poison1) = false := by
    have bit := (held 0 pos).1
    simp only [dirtyBad, find, here, Nat.add_zero] at clean bit
    rw [bit] at clean
    have half : h % 128 / 64 = 0 ↔ h % 128 < 64 := by omega
    simpa [half] using clean
  have bytes : (List.range size).map (fun k => stGet 0 l.bytes (h % 128 + k)) = bs := by
    refine List.ext_getElem (by simp [len]) fun k hk hk' => ?_
    rw [List.getElem_map, List.getElem_range, (held k (len ▸ hk')).2, List.getD_eq_getElem _ _ hk']
  have all : spanAll l.dirty (h % 128) size = true := (spanAll_iff ..).2 fun k hk => (held k hk).1
  simp only [l1Read, find, all, good, bytes, if_true, Bool.false_eq_true, if_false]

/-- Dirty bytes are later than the write-throughs of the thread on their way (R215). -/
theorem forwarded_eq {bs : List Byte} {sent : List (Nat × Byte)} (len : bs.length = size)
    (byte : ∀ k < size, (dirtyAt s (h + k)).or (lastAt sent (h + k)) = some (bs.getD k 0)) : forwarded s sent h size = some bs := by
  cases find : l1Find s (lineOf h) with
  | none =>
    simp only [forwarded, find, List.append_nil]
    refine ownBytes_of_lastAt len fun k hk => ?_
    rw [← byte k hk, dirtyAt, lineOf_add fits hk, find, Option.bind_none, Option.none_or]
  | some l =>
    simp only [forwarded, find]
    refine ownBytes_of_lastAt len fun k hk => ?_
    have at_ : l1Find s (lineOf (h + k)) = some l := by rw [lineOf_add fits hk, find]
    rw [← byte k hk, lastAt_append, lastAt_dirtyBytes at_]

end

/-- The bytes of the thread's own stores are what its load gets (R22, R215). -/
theorem loadPath_own {bs : List Byte} (here : isX h = false) (fits : h % 128 + size ≤ 128) (len : bs.length = size)
    (plain : ∀ q ∈ ownQueue s s.th.uid, q.atom = none)
    (allOrNone : (∀ k < size, (lastAt (waitingBytes s) (h + k)).isSome = true) ∨ ∀ k < size, lastAt (waitingBytes s) (h + k) = none)
    (own : ∀ k < size, ownByteAt s (h + k) = some (bs.getD k 0) ∧ dirtyBad s (h + k) = false) : loadPath s h size false = .value bs none := by
  rcases allOrNone with all | none_
  case inl =>
    refine loadPath_waiting here plain (ownBytes_of_lastAt len fun k hk => ?_)
    obtain ⟨v, at_⟩ := Option.isSome_iff_exists.1 (all k hk)
    have byte := (own k hk).1
    rw [ownByteAt, at_] at byte
    exact at_.trans byte
  case inr =>
    rcases Nat.eq_zero_or_pos size with rfl | pos
    · exact loadPath_waiting here plain (ownBytes_of_lastAt len fun k hk => absurd hk (Nat.not_lt_zero k))
    · have byte (k : Nat) (hk : k < size) : (dirtyAt s (h + k)).or (lastAt (ownSent s s.th.uid) (h + k)) = some (bs.getD k 0) := by
        have byte := (own k hk).1
        rw [ownByteAt, none_ k hk] at byte
        cases dirty : dirtyAt s (h + k) <;> rw [dirty] at byte <;> exact byte
      refine loadPath_core here plain none_ pos ?_
      by_cases sent : overlapsSpan (ownSent s s.th.uid) h size = true
      · exact .inl ⟨sent, fun k hk => (own k hk).2, forwarded_eq fits len byte, rfl⟩
      · have sent' := Bool.eq_false_iff.2 sent
        refine .inr ⟨sent', l1Read_dirty fits len pos here (fun k hk => ?_) (own 0 pos).2⟩
        rw [← byte k hk, overlapsSpan_eq_false_iff.1 sent' k hk, Option.or_none]

/-- A valid sector whose lease is not over gives its bytes and its value time, where not every one of them is dirty (R210, R214, R224). -/
theorem l1Read_copy {l : L1Line} (find : l1Find s (lineOf h) = some l) (notDirty : ∃ k < size, l.dirty.testBit (h % 128 + k) = false)
    (valid : (if h % 128 < 64 then l.valid0 else l.valid1) = true) (lease : s.clock.tbase < if h % 128 < 64 then l.exp0 else l.exp1)
    (away : inWriteBack s h size = false) (good : (if h % 128 < 64 then l.poison0 else l.poison1) = false) :
    l1Read s h size = .hit ((List.range size).map (fun k => stGet 0 l.bytes (h % 128 + k))) (some (if h % 128 < 64 then l.vt0 else l.vt1)) := by
  have half : (h % 128 / 64 = 0) = (h % 128 < 64) := by
    rw [eq_iff_iff]
    omega
  have mixed : spanAll l.dirty (h % 128) size = false := by
    obtain ⟨k, hk, off⟩ := notDirty
    exact Bool.eq_false_iff.2 fun all => by simp [(spanAll_iff ..).1 all k hk] at off
  have ok : sectorOk s l (h % 128 / 64) = true := by
    simp only [sectorOk, half]
    by_cases first : h % 128 < 64
    · rw [if_pos first] at valid lease ⊢
      rw [valid, decide_eq_true lease, Bool.and_self]
    · rw [if_neg first] at valid lease ⊢
      rw [valid, decide_eq_true lease, Bool.and_self]
  simp only [l1Read, find, mixed, ok, away, half, good, Bool.not_false, Bool.and_self, Bool.false_eq_true, if_true, if_false]

/-! ## A load after a store -/

/-- Without a value time nothing is seen. -/
theorem sees_none (s : State) : sees none s = s := by
  simp [sees]

/-- After a store of the acting thread to the L1, its bytes are the core's dirty ones. -/
theorem dirtyAt_putStore {bs : List Byte} {ord : MemOrd} (fits : h % 128 + bs.length ≤ 128) (some_ : bs ≠ []) (here : isX h = false)
    (scope : ord.scope < 3) (hint : ord.hint ≠ 1) (kept : bundleEvict s s.bundleNo (lineOf h) = none)
    (wf : ∀ l, l1Find s (lineOf h) = some l → stWf 0 l.bytes = true) {k : Nat} (hk : k < bs.length) :
    dirtyAt (putStore (queuedOf s ord (atAddr h bs)) s) (h + k) = some (bs.getD k 0) := by
  obtain ⟨l, find, dirty, bytes⟩ := l1Find_putStore some_ here scope hint kept
  have wf' : stWf 0 (((l1Find s (lineOf h)).map (·.bytes)).getD []) = true := by
    cases old : l1Find s (lineOf h) with
    | none => rfl
    | some l' => exact wf l' old
  rw [dirtyAt, lineOf_add fits hk, find, mod_add fits hk, Option.bind_some, if_pos (dirty k hk), bytes, stGet_stSetAll_atAddr 0 wf' _ _ hk]

/-- The load of the bytes that a store has left in the L1 (R22, R215). -/
theorem loadPath_afterStore {i : Ins} {bs : List Byte} {ord : MemOrd} {t : State} (len : bs.length = size) (fits : h % 128 + size ≤ 128) (some_ : bs ≠ [])
    (here : isX h = false) (scope : ord.scope < 3) (hint : ord.hint ≠ 1) (kept : bundleEvict s s.bundleNo (lineOf h) = none)
    (empty : ownQueue s s.th.uid = []) (wf : ∀ l, l1Find s (lineOf h) = some l → stWf 0 l.bytes = true)
    (stored : t = steps i (putStore (queuedOf s ord (atAddr h bs)) s)) (clean : ∀ k < size, dirtyBad t (h + k) = false) :
    loadPath t h size false = .value bs none := by
  have step := cacheStep_putStore s (queuedOf s ord (atAddr h bs))
  have uid : t.th.uid = s.th.uid := by
    rw [stored, ← step.th]
    rfl
  have queue : t.pl.storeQ = s.pl.storeQ := by
    rw [stored, ← step.storeQ]
    rfl
  have empty' : ownQueue t t.th.uid = [] := by rw [ownQueue, queue, uid, ← ownQueue, empty]
  have none_ (k : Nat) (_ : k < size) : lastAt (waitingBytes t) (h + k) = none := by rw [waitingBytes, empty']; rfl
  refine loadPath_own here fits len (by simp [empty']) (.inr none_) fun k hk => ⟨?_, clean k hk⟩
  have dirty : dirtyAt t (h + k) = some (bs.getD k 0) := by
    rw [stored, ← dirtyAt_putStore (len ▸ fits) some_ here scope hint kept wf (len ▸ hk)]
    rfl
  rw [ownByteAt, none_ k hk, dirty]

theorem aloneAt_afterStore {i : Ins} {q : Queued} {line : Nat} {t : State} (alone : AloneAt line s) (stored : t = steps i (putStore q s)) : AloneAt line t := by
  have after := aloneAt_of_cacheStep (cacheStep_putStore s q) alone
  rw [stored]
  exact ⟨after.1, after.2⟩

end

/-- Settles O17, by where each byte of a load is found. -/
theorem loadsFromTheCore : Obligations.LoadsFromTheCore := by
  refine ⟨fun i size signed n s e bs vt form hx ok hit path => ?served, fun i n size h s alone home => bundlePath_alone alone,
    fun s h size bs here fits len plain allOrNone own => loadPath_own here fits len plain allOrNone own,
    fun s h size l here pos fits empty sent find => ?copy,
    fun i j size n m signed s t e e' form hx ok hit empty free kept rel scope hint here fits alone wf run form' hx' ok' hit' same home clean => ?after⟩
  case served => exact exec_load_value form hx ok hit path
  case copy =>
    intro first bs notDirty valid lease away good
    have none_ (k : Nat) (_ : k < size) : lastAt (waitingBytes s) (h + k) = none := by rw [waitingBytes, empty]; rfl
    have plain : ∀ q ∈ ownQueue s s.th.uid, q.atom = none := by simp [empty]
    simp only [first, decide_eq_true_eq] at valid lease good ⊢
    exact loadPath_core here plain none_ pos (.inr ⟨overlapsSpan_eq_false_iff.2 sent, l1Read_copy find notDirty valid lease away good⟩)
  case after =>
    have stored := Host.Outcome.next.inj (run.symm.trans (exec_store_plain form hx ok hit here free rel))
    have path := loadPath_afterStore (leBytes_length _ _) fits (leBytes_ne_nil _ (store_of_form form).2) here scope hint kept empty wf stored clean
    have loads := exec_load_value form' hx' ok' hit' (by rw [home, same, bundlePath_alone (aloneAt_afterStore alone stored), path])
    rw [loads, same, sees_none]

end Sys2Proof.Laws
end

section
/-! PROOF. Results that are written, ages and held traps (R26, R27, R28, R30, R123, R346). -/

namespace Sys2Proof.Laws

open Sys2Proof Sys2Proof.Machine Sys2Proof.Rules

/-! ## Events of a thread or stream -/

/-- An event of a thread of the active plane acts on that thread, and what is around it is put back. -/
theorem asThread_eq {s : State} {slot lane : Nat} (h : s.lives slot lane = true) (f : State → State) :
    s.asThread slot lane f = s.putBack slot lane (f (s.bring slot lane)) := by
  unfold State.asThread State.putBack State.bring
  unfold State.lives at h
  split
  · rfl
  · next other =>
    rw [if_pos (by simpa [other] using h)]

theorem atThread_eq {s : State} {slot lane : Nat} (h : Concerns s slot lane) (f : State → State) :
    s.atThread (.thread slot lane) f = s.putBack slot lane (f (s.bring slot lane)) := by
  obtain ⟨near, lives⟩ := h
  rw [State.atThread, if_pos near, asThread_eq lives]

theorem asSeq_eq {s : State} {n : Nat} (h : s.holds n = true) (f : State → State) :
    s.asSeq n f = s.putBackStream n (f (s.bringStream n)) := by
  unfold State.asSeq State.putBackStream State.bringStream
  unfold State.holds at h
  split
  · rfl
  · next other =>
    rw [if_pos (by simpa [other] using h)]

/-! ## Results (R26 to R28, R30) -/

section

variable {w : Nat} {p : Result w → Bool} {r : Result w}

/-- The results ahead of one that may be written are left. -/
theorem takeResult_of_mayWrite {ahead before rest : List (Result w)} (others : ∀ q ∈ before, p q = false) (mine : p r = true) (ready : r.ready = true)
    (free : overlaps r (ahead ++ before) = false) : takeResult p ahead (before ++ r :: rest) = some (r, ahead ++ (before ++ rest)) := by
  induction before generalizing ahead with
  | nil =>
    rw [List.append_nil] at free
    simp [takeResult, mine, ready, free]
  | cons q t ih =>
    obtain ⟨skip, others⟩ := List.forall_mem_cons.1 others
    have free' : overlaps r (ahead ++ [q] ++ t) = false := by simpa using free
    simp [takeResult, skip, ih others free']

theorem overlaps_eq_false {before : List (Result w)} (h : ∀ q ∈ before, ∀ x ∈ q.regs, ∀ y ∈ r.regs, x.1 ≠ y.1) : overlaps r before = false := by
  simp only [overlaps, List.any_eq_false, Bool.not_eq_true, beq_eq_false_iff_ne]
  exact h

/-- A result that may be written is the one that its write takes. -/
theorem takeResult_tag {s : State} {before rest : List (Result w)} (h : MayWrite r before s) :
    takeResult (fun q => q.tag == r.tag && minPassed s.clock.cycle q) [] (before ++ r :: rest) = some (r, before ++ rest) := by
  obtain ⟨ready, due, free⟩ := h
  have others : ∀ q ∈ before, (q.tag == r.tag && minPassed s.clock.cycle q) = false := fun q hq => by simp [(free q hq).1]
  have mine : (r.tag == r.tag && minPassed s.clock.cycle r) = true := by simp [minPassed, due]
  exact takeResult_of_mayWrite others mine ready (overlaps_eq_false fun q hq => (free q hq).2)

end

/-- A thread that waits for its results goes on with the last of them. -/
theorem settle_eq (t : Thread) : t.settle = { t with park := if t.park = .switch ∧ t.pend.isEmpty = true then .none else t.park } := by
  unfold Thread.settle
  split
  · next e =>
    split
    · next empty => simp [e, empty]
    · next more => simp [more]
  · next e => rw [if_neg (fun x => e x.1)]

theorem settleS_eq (q : SeqCtx) : q.settle = { q with park := if q.park = .switch ∧ q.pend.isEmpty = true then .none else q.park } := by
  unfold SeqCtx.settle
  split
  · next e =>
    split
    · next empty => simp [e, empty]
    · next more => simp [more]
  · next e => rw [if_neg (fun x => e x.1)]

theorem complete_eq {t : Thread} {s : State} {r : Result 32} {before rest : List (Result 32)} (pend : t.pend = before ++ r :: rest)
    (may : MayWrite r before s) : t.complete (fun q => q.tag == r.tag && minPassed s.clock.cycle q) = wrote t r (before ++ rest) := by
  unfold Thread.complete
  rw [pend, takeResult_tag may]
  exact settle_eq _

theorem completeS_eq {q : SeqCtx} {s : State} {r : Result 64} {before rest : List (Result 64)} (pend : q.pend = before ++ r :: rest)
    (may : MayWrite r before s) : q.complete (fun x => x.tag == r.tag && minPassed s.clock.cycle x) = wroteS q r (before ++ rest) := by
  unfold SeqCtx.complete
  rw [pend, takeResult_tag may]
  exact settleS_eq _

theorem markAge_eq (t : Thread) : t.markAge = { t with marked := t.marked || decide (t.age ≥ 1024) } := by
  unfold Thread.markAge
  split
  · next old => simp [old]
  · next young => simp [young]

/-! ## Traps (R346) -/

/-- What the completion of results leaves of a thread. -/
theorem completeAll_keeps {α : Type} (f : Thread → α) (kept : ∀ (t : Thread) r rest, f ({ t.write r with pend := rest }).settle = f t) (t : Thread) :
    f t.completeAll = f t := by
  have one (p : Result 32 → Bool) (t : Thread) : f (t.complete p) = f t := by
    unfold Thread.complete
    split
    · rfl
    · exact kept ..
  have many (p : Result 32 → Bool) (n : Nat) (t : Thread) : f (t.completeN p n) = f t := by
    induction n generalizing t with
    | zero => rfl
    | succ n ih => exact (ih _).trans (one p t)
  exact many ..

@[simp] theorem completeAll_inh (t : Thread) : t.completeAll.inh = t.inh :=
  completeAll_keeps (·.inh) (fun _ _ _ => by simp only [settle_eq, Thread.write]) t

@[simp] theorem completeAll_slot (t : Thread) : t.completeAll.slot = t.slot :=
  completeAll_keeps (·.slot) (fun _ _ _ => by simp only [settle_eq, Thread.write]) t

theorem handlerPc_of_ok {v : DWord} (canon : canonical v = true) (aligned : v.toNat % 4 = 0) (s : State) : handlerPc v s = (v.truncate 57, s) := by
  have low : ¬ v.extractLsb' 0 2 ≠ 0 := fun x => (low2_ne_zero v).1 x aligned
  simp [handlerPc, canon, not_not.1 low]

/-- A trap that can be taken enters the handler. -/
theorem enterTrap_eq {t : Trap} {pc : DWord} {d : Bool} {s : State} (h : CanTrap s) :
    enterTrap t pc d s = inHandler (causeCode t.cause + if d then 256 else 0) pc t.addr t.info s := by
  obtain ⟨-, out, vector, canon, aligned⟩ := h
  have ctx : (s.updTh Thread.completeAll).curCtx = s.curCtx := rfl
  have inh : (s.updTh Thread.completeAll).th.inh = false := (completeAll_inh s.th).trans out
  have warp : (s.updTh Thread.completeAll).warp = s.warp := congrArg s.warpAt (completeAll_slot s.th)
  unfold enterTrap
  simp only [inh, ctx, vector, handlerPc_of_ok canon aligned, warp, Bool.false_eq_true, if_false]
  rfl

/-- Settles O35, by the events of a thread that acts. -/
theorem resultsAgesAndTraps : Obligations.ResultsAgesAndTraps := by
  refine ⟨fun slot lane s before rest r lives pend may => ?result, fun n s before rest r held pend may => ?resultS, fun slot lane s lives => ?age,
    fun slot lane s t pc d lives park can => ?trap⟩
  case result =>
    refine congrArg _ ((atThread_eq lives _).trans (congrArg (s.putBack slot lane) ?_))
    exact congrArg (fun th => { s.bring slot lane with th := th }) (complete_eq pend may)
  case resultS =>
    refine congrArg _ ((asSeq_eq held _).trans (congrArg (s.putBackStream n) ?_))
    exact congrArg (fun sq => { s.bringStream n with sq := sq }) (completeS_eq pend may)
  case age =>
    refine congrArg _ ((atThread_eq lives _).trans (congrArg (s.putBack slot lane) ?_))
    exact congrArg (fun th => { s.bring slot lane with th := th }) (markAge_eq _)
  case trap =>
    refine congrArg _ ((atThread_eq lives _).trans (congrArg (s.putBack slot lane) ?_))
    simp only [park, can.1, if_true]
    exact enterTrap_eq can

end Sys2Proof.Laws
end

section
/-! PROOF. Reads that a parked thread waits for (R25, R122, R247 to R249, R328). -/

namespace Sys2Proof.Laws

open Sys2Proof Sys2Proof.Machine Sys2Proof.Rules

/-! ## The memory side -/

/-- A master that reaches the bytes goes on. -/
theorem gate_of_reaches {m c pa n : Nat} {s : State} (h : Reaches s m c pa n) (k : State → State) : gate m c pa n k s = k s := by
  obtain ⟨here, free, grant⟩ := h
  simp only [gate, here, free, grant, Bool.false_eq_true, if_false, if_true]

theorem flitBad_here {s : State} {h : Nat} (here : isX h = false) : flitBad s h = false := by
  simp [flitBad, here]

theorem readPoisoned_here {s : State} {h n : Nat} (here : isX h = false) (clean : isPoisoned s h n = false) : readPoisoned s h n = false := by
  rw [readPoisoned, clean, flitBad_here here, Bool.or_self]

/-- A line with no dirty byte is not written back. -/
theorem writeBack_clean {line : Nat} {w : Writer} {s : State} (clean : ∀ l, l1Find s line = some l → l.dirty = 0) : writeBack line w s = (none, s) := by
  unfold writeBack
  split
  · rfl
  · next l find => rw [if_pos (clean l find)]

/-! ## `fwait` (R247 to R249) -/

section

variable {s : State} {va : DWord} {pa : Nat} {e : Word} {d : Option Nat}

/-- A wait reads its word at the home. -/
theorem fwaitStep_eq (park : s.th.park = .fwait va pa e d false) (clean : ∀ l, l1Find s (lineOf pa) = some l → l.dirty = 0)
    (clear : lineClear s pa = true) (open_ : windowHolds s (lineOf pa) = false) (reach : Reaches s (masterCore s) s.ctxNo pa 4)
    (good : isPoisoned s pa 4 = false) :
    let w : Word := BitVec.ofNat 32 (leNat (homeBytes s pa 4))
    let c := sees (some (lineRec s (lineOf pa)).vl) s
    fwaitStep s = if w ≠ e ∨ waitRoom s pa = false then overWith (d.toList.map (fun p => (p, w))) 40 (l1Forget pa c)
      else (waitJoin pa s.th.slot s.th.lane c).updTh (fun t => { t with park := .fwait va pa e d true }) := by
  have here := reach.1
  simp only [fwaitStep, park, here, writeBack_clean clean, clear, open_, gate_of_reaches reach, readPoisoned_here here good, Bool.not_true, Bool.not_false,
    Bool.false_and, Bool.or_self, Bool.false_eq_true, if_false, resumeWith, resumeWith_eq]
  rfl

end

/-! ## `fget` (R328) -/

section

variable {s u0 u1 : State} {df : BitVec 7} {dst : Option Nat} {handle : DWord} {row col word : Word} {h : BitVec 512} {vt0 vt v : Nat}
  {bs : List (Nat × Byte)}

/-- An element that the unit has or can read is the result. -/
theorem fgetStep_eq (park : s.th.park = .fget df dst handle row col word)
    (found : fetchHandle { ctx := s.ctxNo, thread := true, fresh := false } handle.toNat s = (.ok (h, vt0), u0))
    (regs : fgetRegs (fhElem h) df dst word u0.warp.regsPer = none) (ok : handleOk h = true) (inG : arraysInG u0 s.ctxNo h = .ok true)
    (inRows : row.toNat < fhRows h) (inCols : col.toNat < fhCols h)
    (units : fetchUnits { ctx := s.ctxNo, thread := true, fresh := false } h (rowUnits h row.toNat col.toNat 1) u0 = (.ok (bs, vt), u1))
    (elem : (fetchElem (unitReader bs) h row.toNat col.toNat).go.1 = .ok v) :
    fgetStep s = goesAgain (withKnown (targets { pd := dst } (if fhElem h = 1 then dwordWords (BitVec.ofNat 64 v) else [BitVec.ofNat 32 v])) 40
      (sees (some (max vt0 vt)) u1)) := by
  have inside : ¬ (row.toNat ≥ fhRows h ∨ col.toNat ≥ fhCols h) := by omega
  simp only [fgetStep, park, found, regs, ok, inG, if_neg inside, units, elem, Bool.not_true, Bool.false_eq_true, if_false]
  rw [← destRegs_eq]
  cases dst <;> rfl

end

/-! ## Instruction fetch (R25, R122) -/

theorem isX_of_line {h : Nat} (here : isX (h / 128 * 128) = false) : isX h = false := by
  simp only [isX, decide_eq_false_iff_not] at here ⊢
  omega

/-- A line that is translated, reachable and not poisoned goes into the instruction cache. -/
theorem fetchFill_eq {s : State} {va : Nat} {e : TlbEnt} (park : s.th.park = .ifetch va) (hit : tlbHit s.xl.coreTlb s.ctxNo va .fetch = some e)
    (reach : Reaches s (masterCore s) s.ctxNo (e.home va / 128 * 128) 128) (good : isPoisoned s (e.home va) 4 = false) :
    fetchFill s = wakeFetch va (learnCode s.ctxNo (BitVec.ofNat 57 va) (e.home va / 128 * 128) (homeBytes s (e.home va / 128 * 128) 128) s) := by
  have here : isX (e.home va) = false := isX_of_line reach.1
  simp only [fetchFill, park, translate_core hit, lostRead, here, gate_of_reaches reach, readPoisoned_here here good, Bool.and_false, Bool.false_and,
    Bool.false_eq_true, if_false]

/-! ## The statement -/

/-- Settles O37, by the step of each wait. -/
theorem readsOfParkedInstructions : Obligations.ReadsOfParkedInstructions := by
  intro slot lane s lives
  refine ⟨fun va pa e d park clean clear open_ reach good => ?fwait,
    fun df dst handle row col word h vt0 u0 bs vt u1 v park => ?fget, fun va e park hit => ?ifetch⟩
  case fwait =>
    have step := fwaitStep_eq park clean clear open_ reach good
    refine ⟨fun goes => ?_, fun same room => ?_⟩
    · exact congrArg _ ((atThread_eq lives _).trans (congrArg _ (step.trans (if_pos goes))))
    · exact congrArg _ ((atThread_eq lives _).trans (congrArg _ (step.trans (if_neg (by simp [same, room])))))
  case fget =>
    intro f found regs ok inG inRows inCols units elem
    exact congrArg _ ((atThread_eq lives _).trans (congrArg _ (fgetStep_eq park found regs ok inG inRows inCols units elem)))
  case ifetch =>
    intro base reach good
    exact congrArg _ ((atThread_eq lives _).trans (congrArg _ (fetchFill_eq park hit reach good)))

end Sys2Proof.Laws
end

section
/-! PROOF. How a thread's instruction reads its operands (R15, R18, R61, R130, R140). -/

namespace Sys2Proof.Laws

open Sys2Proof Sys2Proof.Machine Sys2Proof.Rules

/-! ## Registers as one number -/

/-- Word `j` of the registers from `k` on is register `k + j`. -/
theorem wordAt_readRegs (t : Thread) (k : Nat) {n j : Nat} (hj : j < n) (fits : n ≤ 8) : wordAt (readRegs t k n) j = stGet 0 t.regs (k + j) := by
  induction n generalizing k j with
  | zero => exact absurd hj (Nat.not_lt_zero j)
  | succ n ih =>
    apply BitVec.eq_of_getLsbD_eq
    intro b hb
    have place : 32 * j + b < 256 := by omega
    cases j with
    | zero =>
      have low : b < 32 ∧ b < 256 := by omega
      simp [wordAt, readRegs, hb, low]
    | succ j =>
      have high : ¬ 32 * (j + 1) + b < 32 := by omega
      have down : 32 * (j + 1) + b - 32 = 32 * j + b := by omega
      have rest := congrArg (·.getLsbD b) (ih (k + 1) (Nat.lt_of_succ_lt_succ hj) (by omega))
      simp only [wordAt, BitVec.getLsbD_extractLsb', hb, decide_true, Bool.true_and] at rest
      have zero : (stGet 0 t.regs k).getLsbD (32 * (j + 1) + b) = false := BitVec.getLsbD_of_ge _ _ (by omega)
      simp only [wordAt, readRegs, BitVec.getLsbD_extractLsb', BitVec.getLsbD_or, BitVec.getLsbD_shiftLeft, BitVec.getLsbD_setWidth, hb, high, down, place,
        zero, rest, decide_true, decide_false, Bool.true_and, Bool.false_or, Bool.and_false, Bool.not_false]
      rw [Nat.add_assoc, Nat.add_comm 1 j]

/-! ## Special sources (R18) -/

/-- The value of each special register of Table 1-3. -/
theorem special_eq (s : State) (t : Thread) (f : Nat) : special s t f = specialOf s t f := by
  unfold special specialOf
  by_cases const : f ≤ 111
  · rw [if_pos (by omega), if_pos const]
  · rw [if_neg (by omega), if_neg const]
    dsimp only
    split
    case h_10 => cases t.tcap <;> simp
    all_goals rfl

/-! ## Lanes (R140) -/

theorem patternAt_a (p : BitVec 25) : patternAt p .a = (bitsFrom p 22 3, bitsFrom p 17 5) := by
  simp [patternAt, pbits, bitsFrom, BitVec.extractLsb'_toNat, Nat.shiftRight_eq_div_pow]

theorem patternAt_b (p : BitVec 25) : patternAt p .b = (bitsFrom p 14 3, bitsFrom p 9 5) := by
  simp [patternAt, pbits, bitsFrom, BitVec.extractLsb'_toNat, Nat.shiftRight_eq_div_pow]

/-- A pattern other than 0 reads the lane of Table 7-1. -/
theorem sourceLane_eq {pat : Nat} (amt l : Nat) (pos : pat ≠ 0) (lt : pat < 7) : sourceLane pat amt l = laneFrom pat amt l := by
  interval_cases pat
  · exact absurd rfl pos
  all_goals rfl

/-- The acting thread or another living one of its warp. -/
theorem thread?_of_ne {s : State} {l : Nat} (h : l ≠ s.th.lane) : s.thread? s.th.slot l = s.pl.threads.find? (fun t => t.live && t.is s.th.slot l) := by
  have other : s.th.is s.th.slot l = false := by simp [Thread.is, Ne.symm h]
  rw [State.thread?, other, Bool.and_false, if_neg Bool.false_ne_true]

/-- The thread that a pattern reads, of those that R140 gives. -/
theorem sourceThread_of_pattern {s : State} {p : BitVec 25} {sl : Slot} {pat amt : Nat} (h : patternAt p sl = (pat, amt)) (lt : pat < 7) :
    sourceThread s p sl = if pat = 0 then some s.th else (laneFrom pat amt s.th.lane).bind (fun l =>
      if l = s.th.lane then some s.th else s.pl.threads.find? (fun t => t.live && t.is s.th.slot l)) := by
  unfold sourceThread
  rw [h]
  cases pat with
  | zero => rfl
  | succ k =>
    rw [if_neg (Nat.succ_ne_zero k), ← sourceLane_eq amt _ (Nat.succ_ne_zero k) lt]
    refine congrArg (Option.bind _) (funext fun l => ?_)
    split
    · rfl
    · next other => exact thread?_of_ne other

theorem bitsFrom_lt (p : BitVec 25) (lo n : Nat) : bitsFrom p lo n < 2 ^ n := Nat.mod_lt _ (Nat.two_pow_pos n)

/-- The thread whose registers a field reads (R61, R130, R140). -/
theorem sourceThread_eq {s : State} {i : Ins} (u : Use) (ha : bitsFrom i.alu 22 3 ≠ 7) (hb : bitsFrom i.alu 14 3 ≠ 7) :
    sourceThread s i.alu u.slot = readFrom s i u := by
  have la := bitsFrom_lt i.alu 22 3
  have lb := bitsFrom_lt i.alu 14 3
  unfold readFrom
  cases u.slot with
  | a => exact sourceThread_of_pattern (patternAt_a _) (by omega)
  | b => exact sourceThread_of_pattern (patternAt_b _) (by omega)
  | d => rfl
  | x => rfl

/-! ## Operands (R15, R23) -/

/-- A use changes the value of its own position. -/
theorem valueAt_addUse (s : State) (p : BitVec 25) (o : Opnds) (u : Use) (sl : Slot) :
    valueAt (addUse s p o u) sl = if u.slot = sl then (if u.role = .dst then 0 else readUse s p u) else valueAt o sl := by
  unfold addUse
  cases hs : u.slot <;> cases sl <;> rfl

theorem valueAt_foldl_other {s : State} {p : BitVec 25} {us : List Use} {sl : Slot} (h : ∀ u ∈ us, u.slot ≠ sl) (o : Opnds) :
    valueAt (us.foldl (addUse s p) o) sl = valueAt o sl := by
  induction us generalizing o with
  | nil => rfl
  | cons u t ih =>
    obtain ⟨first, rest⟩ := List.forall_mem_cons.1 h
    rw [List.foldl_cons, ih rest, valueAt_addUse, if_neg first]

theorem valueAt_foldl {s : State} {p : BitVec 25} {us : List Use} (nodup : (us.map (·.slot)).Nodup) {u : Use} (hu : u ∈ us) (o : Opnds) :
    valueAt (us.foldl (addUse s p) o) u.slot = if u.role = .dst then 0 else readUse s p u := by
  induction us generalizing o with
  | nil => cases hu
  | cons v t ih =>
    rw [List.map_cons, List.nodup_cons] at nodup
    obtain ⟨fresh, nodup⟩ := nodup
    rw [List.foldl_cons]
    rcases List.mem_cons.1 hu with rfl | hu
    · have others : ∀ w ∈ t, w.slot ≠ u.slot := fun w hw e => fresh (e ▸ List.mem_map_of_mem hw)
      rw [valueAt_foldl_other others, valueAt_addUse, if_pos rfl]
    · exact ih nodup hu _

/-- With one use per position, the value at a position is what its field reads. -/
theorem valueAt_operands {i : Ins} {s : State} {u : Use} (nodup : (i.sh.uses.map (·.slot)).Nodup) (hu : u ∈ i.sh.uses) (src : u.role ≠ .dst) :
    valueAt (operands i s) u.slot = readUse s i.alu u := by
  rw [operands, valueAt_foldl nodup hu, if_neg src]

theorem physOf_eq (s : State) (i : Ins) (u : Use) : physOf s.th.wb s.warp.wi i.alu u = indexOf s i u := rfl

end Sys2Proof.Laws
end

section
/-! PROOF. Reads of registers and of the machine's state (R15, R18, R93, R101, R140, R151, R201 to R203, R318, R320). -/

namespace Sys2Proof.Laws

open Sys2Proof Sys2Proof.Machine Sys2Proof.Rules

/-! ## Sources -/

theorem readUse_reg {s : State} {i : Ins} {u : Use} {t : Thread} (from_ : sourceThread s i.alu u.slot = some t) (reg : u.f.toNat ≤ 95) :
    readUse s i.alu u = readRegs t (indexOf s i u) u.n := by
  have lt : u.f.toNat < 96 := by omega
  simp only [readUse, from_, if_pos lt, physOf_eq]

theorem readUse_special {s : State} {i : Ins} {u : Use} {t : Thread} (from_ : sourceThread s i.alu u.slot = some t) (spec : 96 ≤ u.f.toNat) :
    readUse s i.alu u = (specialOf s t u.f.toNat).zeroExtend 256 := by
  have ge : ¬ u.f.toNat < 96 := by omega
  simp only [readUse, from_, if_neg ge, special_eq]

theorem readUse_none {s : State} {i : Ins} {u : Use} (from_ : sourceThread s i.alu u.slot = none) : readUse s i.alu u = 0 := by
  simp only [readUse, from_]

theorem wordOf_zeroExtend (v : Word) : wordOf (v.zeroExtend 256) = v := by
  apply BitVec.eq_of_toNat_eq
  simp [wordOf]

/-! ## Status reads of threads -/

section

variable {i : Instr} {s : State}

theorem runQuiet_of_executes (h : Executes i s) (bad : State → State) (f : Opnds → State → State) :
    runQuiet i.ins bad f s = .next (f (operands i.ins s) s) := by
  obtain ⟨actor, checks⟩ := h
  unfold runQuiet
  split
  · next e => exact absurd e actor
  · simp only [simtQuiet, checks]

theorem barOp_some {n : BitVec 4} {k : Block → State → State} {b : Block} (h : s.thBlock = some b) : barOp n k s = k b s := by
  simp only [barOp, h]

theorem afterDeferred_of_not {k : State → State} (h : (s.th.deferred.isSome && !s.th.inh) = false) : afterDeferred k s = k s := by
  unfold afterDeferred
  split
  · next d held =>
    have inh : s.th.inh = true := by simpa [held] using h
    rw [if_pos inh]
  · rfl

end

theorem pmapWord_eq (b : Bank) : pmapWord b = BitVec.ofNat 32 (b.tag % 64 + 2 ^ 8 * roleCode b.role + (if b.busy then 2 ^ 11 else 0)) := by
  unfold pmapWord
  congr 1
  split <;> omega

theorem tileWord_eq (t : Tile) : codeWord (t.readers % 64 * 1024 + t.bank * 32 + tileStCode t.st)
    = BitVec.ofNat 32 ((match t.st with | .empty => 0 | .filling => 1 | .ready => 2 | .draining => 3) + 2 ^ 5 * t.bank + 2 ^ 10 * (t.readers % 64)) := by
  unfold codeWord
  congr 1
  cases t.st <;> simp only [tileStCode] <;> omega

theorem indexed_of_inside {s : State} {i : Word} (h : i.toNat ≤ 511) (h' : s.th.wb + i.toNat < s.warp.regsPer) :
    indexed s i = some (s.th.wb + i.toNat) := by
  rw [indexed, if_neg (by omega)]

theorem elim_ite {α : Type} {c : Prop} [Decidable c] {v : α} {P : α → Prop} (h : c → P v) : (if c then some v else none).elim True P := by
  split
  · next hc => exact h hc
  · trivial

theorem elim_map {α β : Type} {x : Option α} {f : α → β} {P : β → Prop} (h : ∀ a, x = some a → P (f a)) : (x.map f).elim True P := by
  cases x with
  | none => trivial
  | some a => exact h a rfl

theorem elim_bind {α β : Type} {x : Option α} {f : α → Option β} {P : β → Prop} (h : ∀ a, x = some a → (f a).elim True P) : (x.bind f).elim True P := by
  cases x with
  | none => trivial
  | some a => exact h a rfl

theorem elim_unless {α : Type} {c : Prop} [Decidable c] {x : Option α} {P : α → Prop} (h : ¬ c → x.elim True P) :
    (if c then none else x).elim True P := by
  split
  · trivial
  · next hc => exact h hc

section

variable {i : Instr} {s : State} (h : Executes i s)

include h

/-- A read of the barriers of a thread's block. -/
theorem runThread_bar {n : BitVec 4} {k : Opnds → Block → State → State} {b : Block} (block : s.thBlock = some b) :
    runThread i.ins (fun o => barOp n (k o)) s = .next (k (operands i.ins s) b s) :=
  (runThread_of_executes h _).trans (congrArg _ (barOp_some block))

end

/-- What a status read of a thread gives is its result. -/
theorem status_thread (i : Instr) (s : State) (h : Executes i s) : (statusRule (wordOf (operands i.ins s).a).toNat s i).elim True
    (fun v => exec i s = .next (result i.ins (operands i.ins s) [v] 4 4 s)) := by
  cases i with
  | poolMap sw d a =>
    refine (runQuiet_of_executes h _ _).trans (congrArg _ ?_)
    rw [poolMapOp, pmapWord_eq]
    rfl
  | tstate sw d a =>
    refine (runQuiet_of_executes h _ _).trans (congrArg _ ?_)
    unfold tstateOp localTile
    cases s.warp.block.bind (fun h => tileAt s h (wordOf (operands (Instr.tstate sw d a).ins s).a).toNat) with
    | none => rfl
    | some t => exact congrArg (fun w => result _ _ [w] 4 4 s) (tileWord_eq t)
  | csrr sw d n => exact elim_ite fun ok => csrRun_of_executes h ok _
  | nbTest sw d a n =>
    refine elim_map fun b block => (runThread_bar h block).trans ?_
    rw [flag_eq_truth_of_iff bne_iff_ne]
    rfl
  | nbStat sw d e n => exact elim_map fun b block => runThread_bar h block
  | nbWait sw d a n =>
    refine elim_unless fun calm => elim_bind fun b block => elim_ite fun past => (runThread_of_executes h _).trans (congrArg _ ?_)
    rw [nbWaitOp, afterDeferred_of_not (Bool.eq_false_iff.2 calm), barOp_some block]
    exact if_pos past
  | vrgat sw d a =>
    refine elim_ite fun inside => (runThread_of_executes h _).trans (congrArg _ ?_)
    obtain ⟨small, within, clean⟩ := inside
    rw [vrgatOp, indexed_of_inside small within]
    exact if_neg (by simpa using clean)
  | _ => exact trivial

/-! ## Status reads of streams -/

theorem resultS_eq (i : Ins) (o : Opnds) (v : DWord) (lo hi : Nat) (s : State) :
    resultS i o v lo hi s = finishWithS i (o.pd.toList.map (fun p => (p, v))) lo (some hi) true s := by
  simp only [resultS, finishS_eq, onlyGoesS, finishWithS, addResultS, State.fresh, isEmpty_append_singleton, Bool.not_false, Bool.and_true]

theorem xrdReady_iff (seq e : Nat) : xrdReady seq e = true ↔ e = 0 ∨ (seq + 2 ^ 32 - e) % 2 ^ 32 < 2 ^ 31 := by
  simp [xrdReady]

theorem status_stream (i : Instr) (s : State) (h : Streams i s) : (statusRuleS (statusArg s i) s i).elim True
    (fun v => exec i s = .next (resultS i.ins (operandsC i.ins s) v 4 4 s)) := by
  cases i with
  | sbarWait sw d a n =>
    refine elim_bind fun b block => elim_ite fun past => (runStream_of_streams h _).trans (congrArg _ ?_)
    rw [sbarWaitOp, block]
    exact if_pos past
  | xrd sw d k e => exact elim_ite fun ready => (runStream_of_streams h _).trans (congrArg _ (if_pos ((xrdReady_iff ..).2 ready)))
  | sstat sw d e =>
    have rule : statusRuleS (statusArg s (.sstat sw d e)) s (.sstat sw d e) = some (sstatValue s e.toNat) := by
      dsimp only [statusRuleS, sstatValue]
      split <;> rfl
    rw [rule]
    exact runStream_of_streams h _
  | _ => exact trivial

/-! ## Counts of the pool (R202) -/

/-- A result with a capture, and the next instruction. -/
theorem finish_addResult_cap (i : Ins) (regs : List (Nat × Word)) (lo : Nat) (hi : Option Nat) (cap : Capture) (ready : Bool) (s : State) :
    finish i (addResult regs lo hi cap ready s).2
      = goesOn i ({ outstanding regs lo hi ready s with cap := cap } :: captures i s (s.nextId + 1)) (s.th.pc + if i.p.isSome then 8 else 4) s := by
  unfold finish goto
  rw [capture_eq]
  simp [outstanding, goesOn, leaveTo, addResult, State.fresh, State.updTh, captures, nextPc, Ins.s, Nat.add_assoc, Nat.add_comm]

theorem codeWord_mod (n : Nat) : codeWord (n % 2 ^ 32) = BitVec.ofNat 32 n := by
  apply BitVec.eq_of_toNat_eq
  simp [codeWord]

theorem codeWord_toNat (v : DWord) : codeWord (v.toNat % 2 ^ 32) = v.truncate 32 := codeWord_mod v.toNat

section

variable (i : Ins) (o : Opnds) {s : State}

/-- A selector of Table 9-9 but for the cycle counters and the extent base. -/
theorem occValue_count {k : Nat} (cycles : ¬ (0x20 ≤ k ∧ k ≤ 0x24)) (base : k ≠ 0x14) : occValue k s = (poolCount s k, s) := by
  by_cases banks : k ≤ 4
  · interval_cases k <;> rfl
  · unfold occValue poolCount
    dsimp only
    rw [if_neg banks, if_neg cycles]
    split
    case h_6 => exact absurd rfl base
    case h_9 =>
      refine Prod.ext ?_ rfl
      dsimp only
      split
      case h_1 | h_2 | h_3 | h_4 | h_5 => exact absurd (by decide) banks
      case h_13 => rfl
      all_goals contradiction
    all_goals rfl

theorem occValue_cycles {k : Nat} (lo : 0x20 ≤ k) (hi : k ≤ 0x24) : occValue k s = (stGet 0 s.bankCycles (k - 0x20) % 2 ^ 32, s) := by
  unfold occValue
  dsimp only
  rw [if_neg (by omega), if_pos ⟨lo, hi⟩]

theorem poolOccOp_plain (cycles : ¬ (0x20 ≤ (wordOf o.a).toNat ∧ (wordOf o.a).toNat ≤ 0x24)) {v : Nat} {t : State}
    (value : occValue (wordOf o.a).toNat s = (v, t)) : poolOccOp i o s = finishWith i (targets o [BitVec.ofNat 32 v]) 4 (some 4) true t := by
  simp only [poolOccOp, value, if_neg cycles, finish_addResult, destRegs_eq]
  rfl

theorem occValue_noExtent {b : Block} (block : s.thBlock = some b) (none_ : b.scratch = 0) :
    occValue 0x14 s = ((Config.freeWord s.freeCtr).toNat % 2 ^ 32, { s with freeCtr := s.freeCtr + 1 }) := by
  simp [occValue, block, none_, State.draw]

theorem occValue_base {b : Block} (block : s.thBlock = some b) (some_ : b.scratch ≠ 0) : occValue 0x14 s = (b.sbase, s) := by
  simp [occValue, block, some_]

theorem occValue_noBlock (block : s.thBlock = none) : occValue 0x14 s = (0, s) := by
  simp [occValue, block]

/-- A cycle counter: its low bits are the result, its high bits are captured. -/
theorem poolOccOp_cycles (prefix_ : i.p = none) (lo : 0x20 ≤ (wordOf o.a).toNat) (hi : (wordOf o.a).toNat ≤ 0x24) :
    let n := stGet 0 s.bankCycles ((wordOf o.a).toNat - 0x20)
    poolOccOp i o s = goesOn i ({ outstanding (targets o [BitVec.ofNat 32 n]) 4 (some 4) true s with cap := .occ (BitVec.ofNat 32 (n / 2 ^ 32)) }
      :: captures i s (s.nextId + 1)) (s.th.pc + 4) s := by
  simp only [poolOccOp, occValue_cycles lo hi, if_pos (And.intro lo hi), finish_addResult_cap, destRegs_eq, codeWord_mod, prefix_]
  rfl

end

/-! ## The statement -/

/-- Settles O13, by what a field reads and what each status read gives. -/
theorem statusReads : Obligations.StatusReads := by
  refine ⟨fun i s u nodup hu src fits pa pb => ?reads, ⟨fun i v s h rule => ?thread, fun i v s h rule => ?stream⟩,
    fun sw d a s h => ?counts, fun sw d a s h base => ?base, fun sw d a s h lo hi => ?cycles⟩
  case reads =>
    rw [valueAt_operands nodup hu src]
    have same := sourceThread_eq (s := s) u pa pb
    refine ⟨fun none_ => readUse_none (same.trans none_), fun t from_ => ⟨fun reg k hk => ?_, fun spec => ?_⟩⟩
    · rw [readUse_reg (same.trans from_) reg, wordAt_readRegs t _ hk fits]
    · rw [readUse_special (same.trans from_) spec, wordOf_zeroExtend]
  case thread =>
    have e := status_thread i s h
    rw [rule] at e
    exact e.trans (congrArg _ (result_eq_finishWith ..))
  case stream =>
    have e := status_stream i s h
    rw [rule] at e
    exact e.trans (congrArg _ (resultS_eq ..))
  case counts =>
    intro cycles base
    exact (runQuiet_of_executes h _ _).trans (congrArg _ (poolOccOp_plain _ _ cycles (occValue_count cycles base)))
  case base =>
    refine (runQuiet_of_executes h _ _).trans (congrArg _ ?_)
    have at_ : (wordOf (operands (Instr.poolOcc sw d a).ins s).a).toNat = 0x14 := congrArg BitVec.toNat base
    have plain {v : Nat} {t : State} (value : occValue 0x14 s = (v, t)) :=
      poolOccOp_plain (Instr.poolOcc sw d a).ins (operands (Instr.poolOcc sw d a).ins s) (by omega) (at_ ▸ value)
    cases block : s.thBlock with
    | none => exact plain (occValue_noBlock block)
    | some b =>
      dsimp only
      split
      · next empty =>
        rw [← codeWord_toNat]
        exact plain (occValue_noExtent block empty)
      · next extent => exact plain (occValue_base block extent)
  case cycles => exact (runQuiet_of_executes h _ _).trans (congrArg _ (poolOccOp_cycles _ _ rfl lo hi))

end Sys2Proof.Laws
end

section
/-! PROOF. What each floating-point instruction and conversion computes, as its rule says it (R102 to R115). -/

namespace Sys2Proof.Laws

open Sys2Proof Sys2Proof.Machine Sys2Proof.Rules

/-- A floating-point instruction of a thread runs as its rule says. -/
def FloatGives (i : Instr) (r : ResultRule) : Prop :=
  ∀ s, exec i s = runFloat i.ins (fun o s => result i.ins o (r.thread i.ins s o) r.lo r.hi s) s

theorem floatGives_of_run {i : Instr} {r : ResultRule} {f : Opnds → State → List Word}
    (h : ∀ s, exec i s = runFloat i.ins (fun o s => result i.ins o (f o s) r.lo r.hi s) s) (e : ∀ o s, f o s = r.thread i.ins s o) : FloatGives i r := by
  intro s
  rw [h, funext fun o => funext fun s => congrArg (result i.ins o · r.lo r.hi s) (e o s)]

/-! ## Halves of words (R32, R102) -/

theorem halfOf_zero (v : BitVec 256) : halfOf v 0 = Rules.half v 0 := by
  simp only [halfOf, Rules.half, wordOf, BitVec.truncate_eq_setWidth, BitVec.toNat_setWidth]
  omega

theorem halfOf_one (v : BitVec 256) : halfOf v 1 = Rules.half v 1 := by
  simp only [halfOf, Rules.half, wordOf, BitVec.truncate_eq_setWidth, BitVec.toNat_setWidth]
  omega

/-- A sign change flips the bit of the sign (R105). -/
theorem fneg_eq (t : Fmt) (a : Nat) : fneg t a = (a % 2 ^ (t.signPos + 1)) ^^^ 2 ^ t.signPos := by
  apply Nat.eq_of_testBit_eq
  intro k
  have low : a % 2 ^ t.signPos + 2 ^ t.signPos = a % 2 ^ t.signPos ||| 2 ^ t.signPos := by
    have or := Nat.two_pow_add_eq_or_of_lt (Nat.mod_lt a (Nat.two_pow_pos t.signPos)) 1
    rwa [Nat.mul_one, Nat.add_comm, Nat.or_comm] at or
  rw [fneg, low, Nat.testBit_xor, Nat.testBit_mod_two_pow, Nat.testBit_two_pow]
  rcases Nat.lt_trichotomy k t.signPos with lt | rfl | gt
  · split <;> simp [Nat.testBit_or, Nat.testBit_mod_two_pow, lt, Nat.lt_succ_of_lt lt, Nat.ne_of_gt lt]
  · split <;> simp_all [Nat.testBit_or, Nat.testBit_mod_two_pow]
  · have above : ¬ k < t.signPos + 1 := by omega
    split <;> simp [Nat.testBit_or, Nat.testBit_mod_two_pow, Nat.not_lt_of_gt gt, above, Nat.ne_of_lt gt]

/-! ## Forms (R102) -/

section

variable {i : Instr} {lo hi : Nat} {e e' : Element}

theorem floatGives_word (same : ∀ t r d a b, e' t r d a b = e t r d a b := by intros; rfl)
    (h : ∀ s, exec i s = floatS i.ins lo hi e' s := by intro _; rfl) : FloatGives i (floatWord e lo hi) :=
  floatGives_of_run h fun _ _ => congrArg (fun v => [BitVec.ofNat 32 v]) (same ..)

theorem floatGives_pair (same : ∀ t r d a b, e' t r d a b = e t r d a b := by intros; rfl)
    (h : ∀ s, exec i s = floatD i.ins lo hi e' s := by intro _; rfl) : FloatGives i (floatPair e lo hi) :=
  floatGives_of_run h fun _ _ => congrArg (fun v => dwordWords (BitVec.ofNat 64 v)) (same ..)

/-- Two halves as one word. -/
theorem fold_halves (f : Nat → Nat) : (List.range 2).foldl (fun w h => w + f h * 2 ^ (16 * h)) 0 = f 0 + 65536 * f 1 := by
  change 0 + f 0 * 2 ^ (16 * 0) + f 1 * 2 ^ (16 * 1) = _
  omega

theorem floatGives_halves {t : Fmt} (same : ∀ t r d a b, e' t r d a b = e t r d a b := by intros; rfl)
    (h : ∀ s, exec i s = floatP t i.ins lo hi e' s := by intro _; rfl) : FloatGives i (floatHalves t e lo hi) :=
  floatGives_of_run h fun o s => congrArg (fun v => [BitVec.ofNat 32 v]) (by
    simp only [halfOf_zero, halfOf_one, same, fold_halves (fun h => e t (rounding i.ins (2 * s.th.lane + h)) (Rules.half o.d h) (Rules.half o.a h) (Rules.half o.b h))]
    rfl)

variable {p : Fmt → Nat → Nat → Bool}

theorem floatGives_compareWord (h : ∀ s, exec i s = cmpS i.ins p s := by intro _; rfl) : FloatGives i (compares .f32 p) := h

theorem floatGives_comparePair (h : ∀ s, exec i s = cmpD i.ins p s := by intro _; rfl) : FloatGives i (compares .f64 p) := h

theorem floatGives_compareF16 (h : ∀ s, exec i s = cmpP .f16 i.ins p s := by intro _; rfl) : FloatGives i (compares .f16 p) :=
  floatGives_of_run h fun o _ => congrArg (fun v => [BitVec.ofNat 32 v]) (by simp only [halfOf_zero, halfOf_one]; rfl)

theorem floatGives_compareBf16 (h : ∀ s, exec i s = cmpP .bf16 i.ins p s := by intro _; rfl) : FloatGives i (compares .bf16 p) :=
  floatGives_of_run h fun o _ => congrArg (fun v => [BitVec.ofNat 32 v]) (by simp only [halfOf_zero, halfOf_one]; rfl)

end

/-! ## The instructions -/

/-- Each floating-point instruction runs as its rule of Table 5-2 says. -/
theorem floatGives_floatRule (i : Instr) : (floatRule i).elim True (FloatGives i) := by
  cases i with
  | fnegS => exact floatGives_word (e' := fun t _ _ a _ => fneg t a) fun t _ _ a _ => fneg_eq t a
  | fnegD => exact floatGives_pair (e' := fun t _ _ a _ => fneg t a) fun t _ _ a _ => fneg_eq t a
  | fnegH2 | fnegB2 => exact floatGives_halves (e' := fun t _ _ a _ => fneg t a) fun t _ _ a _ => fneg_eq t a
  | faddS | fsubS | fmulS | fminS | fmaxS | fdivS | fsqrtS | frcpS | fabsS | fmaS | fnmaS | fexp2 | flog2 | fsin | fcos | frsq | ftanh | fscl =>
    exact floatGives_word
  | faddD | fsubD | fmulD | fminD | fmaxD | fdivD | fsqrtD | frcpD | fabsD | fmaD | fnmaD => exact floatGives_pair
  | faddH2 | fsubH2 | fmulH2 | fminH2 | fmaxH2 | fdivH2 | fsqrtH2 | frcpH2 | fabsH2 | fmaH2 | fnmaH2
  | faddB2 | fsubB2 | fmulB2 | fminB2 | fmaxB2 | fdivB2 | fsqrtB2 | frcpB2 | fabsB2 | fmaB2 | fnmaB2 => exact floatGives_halves
  | feqS | fltS | fleS | funS => exact floatGives_compareWord
  | feqD | fltD | fleD | funD => exact floatGives_comparePair
  | feqH2 | fltH2 | fleH2 | funH2 => exact floatGives_compareF16
  | feqB2 | fltB2 | fleB2 | funB2 => exact floatGives_compareBf16
  | _ => exact trivial

/-- The codes of 64-bit values (R104). -/
theorem wideCode_eq (c : Nat) :
    (c / 16 == 1 || c / 16 == 6 || c / 16 == 7 || c % 16 == 1 || c % 16 == 14 || c % 16 == 15) = wideCode c := by
  simp [wideCode, Bool.or_assoc, Bool.beq_eq_decide_eq]

theorem runFloat_ite {i : Ins} {c : Prop} [Decidable c] {f g : Opnds → State → List Word} {s : State} :
    runFloat i (fun o s => if c then result i o (f o s) 6 6 s else result i o (g o s) 6 6 s) s
      = runFloat i (fun o s => result i o (if c then f o s else g o s) 6 6 s) s := by
  split <;> rfl

/-- Each conversion runs as its rule says (R111 to R114). -/
theorem floatGives_convertRule (i : Instr) : (convertRule i).elim True (FloatGives i) := by
  cases i with
  | cvt sw d a c p =>
    intro s
    dsimp only [Option.elim]
    rw [← wideCode_eq]
    rfl
  | cvtp sw d a c p => exact fun s => runFloat_ite
  | cvtq sw d a c p => exact fun s => runFloat_ite
  | fclass sw d a k p =>
    have same : cvtLat (k == 1) = if k = 1 then 8 else 6 := if_congr beq_iff_eq rfl rfl
    dsimp only [convertRule, Option.elim]
    rw [← same]
    exact fun _ => rfl
  | _ => exact trivial

theorem floatGives_of_rule {i : Instr} {r : ResultRule} (h : floatRule i = some r ∨ convertRule i = some r) : FloatGives i r := by
  rcases h with h | h
  · have g := floatGives_floatRule i
    rwa [h] at g
  · have g := floatGives_convertRule i
    rwa [h] at g

end Sys2Proof.Laws
end

section
/-! PROOF. What is checked before the effect of an instruction: its payload, its fields, its bounds and its poison (R15, R16, R57 to R64, R140, R357). -/

namespace Sys2Proof.Laws

open Sys2Proof Sys2Proof.Machine Sys2Proof.Rules

/-! ## Payload fields -/

theorem pbits_eq (p : BitVec 25) (lo n : Nat) : pbits p lo n = bitsFrom p lo n := by
  simp [pbits, bitsFrom, BitVec.extractLsb'_toNat, Nat.shiftRight_eq_div_pow]

/-- A field is zero where both its parts are. -/
theorem bitsFrom_add_eq_zero (p : BitVec 25) (lo m n : Nat) : bitsFrom p lo (m + n) = 0 ↔ bitsFrom p lo m = 0 ∧ bitsFrom p (lo + m) n = 0 := by
  unfold bitsFrom
  rw [Nat.pow_add, Nat.mod_mul, Nat.add_eq_zero_iff, Nat.mul_eq_zero, Nat.div_div_eq_div_mul, ← Nat.pow_add,
    or_iff_right (Nat.two_pow_pos m).ne']

theorem bit_ne_zero_iff (p : BitVec 25) (lo : Nat) : bitsFrom p lo 1 ≠ 0 ↔ bitsFrom p lo 1 = 1 := by
  have lt := bitsFrom_lt p lo 1
  omega

theorem bit_ne_one_iff (p : BitVec 25) (lo : Nat) : bitsFrom p lo 1 ≠ 1 ↔ bitsFrom p lo 1 = 0 := by
  have lt := bitsFrom_lt p lo 1
  omega

theorem patternOk_iff (pat amt : Nat) : patternOk pat amt = true ↔ PatternLegal pat amt := by
  unfold patternOk PatternLegal
  split <;> simp_all

theorem orderOk_iff (p : BitVec 25) : orderOk p = true ↔ OrderLegal p := by
  have acqRel : pbits p 23 2 = 0 ↔ bitsFrom p 24 1 = 0 ∧ bitsFrom p 23 1 = 0 := by
    rw [pbits_eq, bitsFrom_add_eq_zero p 23 1 1, and_comm]
  have scope : pbits p 17 6 = 0 ↔ bitsFrom p 20 3 = 0 ∧ bitsFrom p 17 3 = 0 := by
    rw [pbits_eq, bitsFrom_add_eq_zero p 17 3 3, and_comm]
  unfold orderOk OrderLegal
  rw [if_congr acqRel rfl rfl]
  split
  · rw [beq_iff_eq, scope]
  · rw [bne_iff_ne, pbits_eq]

/-- No bit of a field is set but those of a mask. -/
theorem and_not_eq_zero_iff {n : Nat} (x m : BitVec n) : x &&& ~~~m = 0 ↔ ∀ k < n, m.getLsbD k = false → x.getLsbD k = false := by
  rw [BitVec.eq_of_getLsbD_eq_iff]
  refine forall_congr' fun k => forall_congr' fun hk => ?_
  rw [BitVec.getLsbD_and, BitVec.getLsbD_not, decide_eq_true hk, BitVec.ofNat_eq_ofNat, BitVec.getLsbD_zero]
  cases m.getLsbD k <;> simp

theorem tilePayloadOk_iff (mods : BitVec 12) (p : BitVec 25) : tilePayloadOk mods p = true ↔
    OrderLegal p ∧ (bitsFrom p 12 1 = 0 → bitsFrom p 13 4 = 0) ∧ ∀ k < 12, mods.getLsbD k = false → p.getLsbD k = false := by
  have field (k : Nat) (hk : k < 12) : (p.extractLsb' 0 12).getLsbD k = p.getLsbD k := by simp [hk]
  have mask : (p.extractLsb' 0 12 &&& ~~~mods) = 0 ↔ ∀ k < 12, mods.getLsbD k = false → p.getLsbD k = false :=
    (and_not_eq_zero_iff ..).trans (forall_congr' fun k => forall_congr' fun hk => by rw [field k hk])
  simp only [tilePayloadOk, Bool.and_eq_true, Bool.or_eq_true, beq_iff_eq, orderOk_iff, mask, pbits_eq, ← bit_ne_zero_iff, and_assoc, Ne]
  tauto

/-- No `wi` is added to a special register. -/
theorem wiOk_iff (uses : List Use) (sl : Slot) (p : BitVec 25) (lo : Nat) :
    wiOk uses sl (bitsFrom p lo 1) = true ↔ ∀ u ∈ uses, u.slot = sl → bitsFrom p lo 1 = 1 → u.f.toNat ≤ 95 := by
  simp only [wiOk, Bool.or_eq_true, beq_iff_eq, List.all_eq_true, bne_iff_ne, decide_eq_true_eq, ← bit_ne_zero_iff]
  constructor
  · rintro (zero | rest) u hu rfl set_
    · exact absurd zero set_
    · exact (rest u hu).resolve_left (fun ne => ne rfl)
  · intro rest
    refine or_iff_not_imp_left.2 fun set_ u hu => or_iff_not_imp_left.2 fun same => rest u hu (not_not.1 same) set_

theorem wiAll_iff (uses : List Use) (p : BitVec 25) :
    (wiOk uses .d (bitsFrom p 4 1) = true ∧ wiOk uses .a (bitsFrom p 3 1) = true ∧ wiOk uses .b (bitsFrom p 2 1) = true)
      ↔ ∀ u ∈ uses, u.slot ≠ .x → AddsWi p u.slot → u.f.toNat ≤ 95 := by
  simp only [wiOk_iff]
  constructor
  · rintro ⟨d, a, b⟩ u hu notx adds
    cases hs : u.slot with
    | d => exact d u hu hs (by rwa [hs] at adds)
    | a => exact a u hu hs (by rwa [hs] at adds)
    | b => exact b u hu hs (by rwa [hs] at adds)
    | x => exact absurd hs notx
  · intro all
    exact ⟨fun u hu hs set_ => all u hu (by simp [hs]) (hs ▸ set_), fun u hu hs set_ => all u hu (by simp [hs]) (hs ▸ set_),
      fun u hu hs set_ => all u hu (by simp [hs]) (hs ▸ set_)⟩

theorem quadOk_iff (uses : List Use) (n : Nat) : uses.all (fun u => u.slot != .a || u.n != 4 || n == 0) = true
    ↔ ∀ u ∈ uses, u.slot = .a → u.n = 4 → n = 0 := by
  simp only [List.all_eq_true, Bool.or_eq_true, bne_iff_ne, beq_iff_eq, or_assoc]
  exact forall_congr' fun u => forall_congr' fun _ => by tauto

theorem or_eq_true_iff_imp (b : Bool) {c : Bool} {q : Prop} (h : c = true ↔ q) : (b || c) = true ↔ (b = false → q) := by
  cases b <;> simp [h]

theorem aluPayloadOk_iff {sh : Shape} {rounds useA useB : Bool} (k : sh.pk = .alu rounds useA useB) (p : BitVec 25) :
    aluPayloadOk sh.uses rounds useA useB p = true ↔ PayloadLegal sh (some p) := by
  have three (lo n lo' n' lo'' n'' : Nat) : (bitsFrom p lo n == 0 && bitsFrom p lo' n' == 0 && bitsFrom p lo'' n'' == 0) = true
      ↔ bitsFrom p lo n = 0 ∧ bitsFrom p lo' n' = 0 ∧ bitsFrom p lo'' n'' = 0 := by simp [and_assoc]
  have two (lo n lo' n' : Nat) : (bitsFrom p lo n == 0 && bitsFrom p lo' n' == 0) = true ↔ bitsFrom p lo n = 0 ∧ bitsFrom p lo' n' = 0 := by simp
  simp only [PayloadLegal, k, ← wiAll_iff, ← quadOk_iff, ← patternOk_iff]
  simp only [aluPayloadOk, pbits_eq, Bool.and_eq_true (_ && _), Bool.and_eq_true, or_eq_true_iff_imp _ (three ..), or_eq_true_iff_imp _ (two ..), decide_eq_true_eq,
    beq_iff_eq, and_assoc]

theorem memPayloadOk_iff {sh : Shape} {m : MemKind} (k : sh.pk = .mem m) (p : BitVec 25) : memPayloadOk m p = true ↔ PayloadLegal sh (some p) := by
  have atomic : bitsFrom p 8 9 = 0 ↔ bitsFrom p 15 2 = 0 ∧ bitsFrom p 8 7 = 0 := by rw [bitsFrom_add_eq_zero p 8 7 2, and_comm]
  simp only [PayloadLegal, k, memPayloadOk, Bool.and_eq_true, orderOk_iff, pbits_eq, beq_iff_eq, and_assoc]
  refine and_congr_right fun _ => and_congr_right fun _ => ?_
  cases m <;> simp [← bit_ne_zero_iff, atomic, or_iff_not_imp_left, and_assoc]

/-- A payload is accepted where Table 3-3 and its rules say. -/
theorem payloadOk_iff (sh : Shape) (p : Payload) : payloadOk sh p = true ↔ PayloadLegal sh p := by
  cases p with
  | none =>
    rcases hk : sh.pk with _ | _ | (_ | _ | _ | _ | _ | _) | _ | _ | _ <;> simp [payloadOk, PayloadLegal, hk]
  | some p =>
    cases hk : sh.pk with
    | none => simp [payloadOk, PayloadLegal, hk]
    | alu r a b => rw [← aluPayloadOk_iff hk, payloadOk, hk]
    | mem m => rw [← memPayloadOk_iff hk, payloadOk, hk]
    | coll => simp [payloadOk, PayloadLegal, hk, pbits_eq]
    | tile mods => simp only [payloadOk, PayloadLegal, hk, tilePayloadOk_iff]
    | zero => simp [payloadOk, PayloadLegal, hk]

/-- Under a legal payload no pattern is the reserved one. -/
theorem patterns_of_payloadLegal {i : Ins} (h : PayloadLegal i.sh i.p) : bitsFrom i.alu 22 3 ≠ 7 ∧ bitsFrom i.alu 14 3 ≠ 7 := by
  have zero : bitsFrom 0 22 3 ≠ 7 ∧ bitsFrom 0 14 3 ≠ 7 := by decide
  unfold Ins.alu
  split
  · next r a b hk =>
    cases hp : i.p with
    | none => exact zero
    | some p =>
      rw [hp] at h
      simp only [PayloadLegal, hk] at h
      obtain ⟨pa, pb, -⟩ := h
      unfold PatternLegal at pa pb
      exact ⟨by simp only [Option.getD]; omega, by simp only [Option.getD]; omega⟩
  · exact zero

/-! ## Fields, bounds and poison -/

theorem okSimt_iff (u : Use) : u.okSimt = true ↔ FieldLegal u := by
  unfold Use.okSimt FieldLegal
  split
  · next one => rw [if_neg (not_not.2 one)]; split <;> simp_all
  · next other => rw [if_pos other, decide_eq_true_eq]

/-- The index that the check of a register's bounds shows. -/
theorem boundsFail_eq (s : State) (i : Ins) {u : Use} (reg : u.f.toNat ≤ 95) : boundsFail s.th.wb s.warp.wi s.warp.regsPer i.alu u
    = if s.warp.regsPer ≤ indexOf s i u ∨ (wiAt i.alu u.slot = true ∧ indexOf s i u % u.n ≠ 0) then some (indexOf s i u)
      else if s.warp.regsPer < indexOf s i u + u.n then some (indexOf s i u + u.n - 1) else none := by
  have field : ¬ u.f.toNat ≥ 96 := by omega
  rw [boundsFail, if_neg field]
  rfl

theorem boundsFail_iff (s : State) (i : Ins) (u : Use) (p : Nat) :
    boundsFail s.th.wb s.warp.wi s.warp.regsPer i.alu u = some p ↔ FailsBounds s i u p := by
  unfold FailsBounds
  by_cases reg : u.f.toNat ≤ 95
  · rw [boundsFail_eq s i reg]
    by_cases first : s.warp.regsPer ≤ indexOf s i u ∨ (wiAt i.alu u.slot = true ∧ indexOf s i u % u.n ≠ 0)
    · simp only [if_true, reg, first, not_true, false_and, or_false, true_and, Option.some.injEq, eq_comm (a := p)]
    · by_cases last : s.warp.regsPer < indexOf s i u + u.n
      · simp only [if_true, if_false, reg, first, last, not_false_iff, false_and, false_or, true_and, Option.some.injEq, eq_comm (a := p)]
      · simp only [if_false, first, last, false_and, and_false, or_false, reduceCtorEq]
  · have special : u.f.toNat ≥ 96 := by omega
    simp only [boundsFail, if_pos special, reg, false_and, reduceCtorEq]

section

variable {s : State} {i : Ins}

/-- The register that the check of poison finds, where the field reads registers at all. -/
theorem poisonUse_eq (h : PayloadLegal i.sh i.p) (u : Use) (reads : u.role ≠ .dst) (reg : u.f.toNat ≤ 95) : poisonUse s i.alu u
    = (readFrom s i u).bind (fun t => t.poisoned.find? (fun p => decide (indexOf s i u ≤ p ∧ p < indexOf s i u + u.n))) := by
  obtain ⟨pa, pb⟩ := patterns_of_payloadLegal h
  have field : ¬ (u.role = .dst ∨ u.f.toNat ≥ 96) := by simp [reads]; omega
  rw [poisonUse, if_neg field, sourceThread_eq u pa pb]
  rfl

theorem readsPoison_of_poisonUse (h : PayloadLegal i.sh i.p) {u : Use} {p : Nat} (found : poisonUse s i.alu u = some p) : ReadsPoison s i u p := by
  by_cases field : u.role ≠ .dst ∧ u.f.toNat ≤ 95
  · obtain ⟨reads, reg⟩ := field
    rw [poisonUse_eq h u reads reg, Option.bind_eq_some_iff] at found
    obtain ⟨t, from_, found⟩ := found
    have inside := List.find?_some found
    obtain ⟨lo, hi⟩ := of_decide_eq_true inside
    exact ⟨reads, reg, lo, hi, t, from_, List.mem_of_find?_eq_some found⟩
  · have skipped : u.role = .dst ∨ u.f.toNat ≥ 96 := by
      by_contra no
      simp only [not_or] at no
      exact field ⟨no.1, by omega⟩
    rw [poisonUse, if_pos skipped] at found
    cases found

theorem not_readsPoison_of_poisonUse (h : PayloadLegal i.sh i.p) {u : Use} (none_ : poisonUse s i.alu u = none) (p : Nat) : ¬ ReadsPoison s i u p := by
  rintro ⟨reads, reg, lo, hi, t, from_, bad⟩
  rw [poisonUse_eq h u reads reg, from_, Option.bind_some, List.find?_eq_none] at none_
  exact none_ p bad (decide_eq_true ⟨lo, hi⟩)

/-! ## The order of the checks (R23, R24) -/

theorem fields_iff : (i.sh.uses.all Use.okSimt && i.sh.extra && i.sh.simt) = true
    ↔ (∀ u ∈ i.sh.uses, FieldLegal u) ∧ i.sh.extra = true ∧ i.sh.simt = true := by
  simp only [Bool.and_eq_true, List.all_eq_true, okSimt_iff, and_assoc]

theorem payloadWord_eq (p : BitVec 25) : payloadWord p = 0x7E000000 + p.zeroExtend 32 := by
  apply BitVec.eq_of_toNat_eq
  have lt := p.isLt
  have sum : (payloadWord p).toNat = 0x7E000000 + p.toNat := by
    rw [payloadWord, packPayload, packJ, BitVec.toNat_append, ← Nat.shiftLeft_add_eq_or_of_lt lt]
    rfl
  have word : (p.zeroExtend 32).toNat = p.toNat := BitVec.toNat_setWidth_of_le (by decide)
  rw [sum, BitVec.toNat_add, word]
  exact (Nat.mod_eq_of_lt (show 0x7E000000 + p.toNat < 2 ^ 32 by omega)).symm

/-- What is found first in a list, with the member it is found for. -/
theorem exists_of_findSome? {α β : Type} {f : α → Option β} {l : List α} {P : α → β → Prop} (sound : ∀ a b, f a = some b → P a b)
    (complete : ∀ a, f a = none → ∀ b, ¬ P a b) :
    (∃ a ∈ l, ∃ b, P a b ∧ l.findSome? f = some b) ∨ (l.findSome? f = none ∧ ∀ a ∈ l, ∀ b, ¬ P a b) := by
  cases found : l.findSome? f with
  | some b =>
    obtain ⟨a, ha, e⟩ := List.exists_of_findSome?_eq_some found
    exact .inl ⟨a, ha, b, sound a b e, rfl⟩
  | none => exact .inr ⟨rfl, fun a ha => complete a (List.findSome?_eq_none_iff.1 found a ha)⟩

theorem checkFail_of_payload (bad : ¬ PayloadLegal i.sh i.p) : checkFail i s = some { cause := .illegal, info := match i.p with
    | some p => 0x7E000000 + p.zeroExtend 32
    | none => i.word } := by
  have refused : (!payloadOk i.sh i.p) = true := by rwa [Bool.not_eq_true', ← Bool.not_eq_true, payloadOk_iff]
  unfold checkFail
  rw [if_pos refused]
  cases i.p with
  | none => rfl
  | some p => exact congrArg (fun w => some ({ cause := .illegal, info := w } : Trap)) (payloadWord_eq p)

variable (legal : PayloadLegal i.sh i.p)

include legal

theorem checkFail_of_fields (bad : ¬ ((∀ u ∈ i.sh.uses, FieldLegal u) ∧ i.sh.extra = true ∧ i.sh.simt = true)) :
    checkFail i s = some { cause := .illegal, info := i.word } := by
  have taken : ¬ (!payloadOk i.sh i.p) = true := by simp [(payloadOk_iff ..).2 legal]
  have refused : (!(i.sh.uses.all Use.okSimt && i.sh.extra && i.sh.simt)) = true := by rwa [Bool.not_eq_true', ← Bool.not_eq_true, fields_iff]
  rw [checkFail, if_neg taken, if_pos refused]

variable (fields : (∀ u ∈ i.sh.uses, FieldLegal u) ∧ i.sh.extra = true ∧ i.sh.simt = true)

include fields

theorem checkFail_of_bounds {p : Nat} (bad : i.sh.uses.findSome? (boundsFail s.th.wb s.warp.wi s.warp.regsPer i.alu) = some p) :
    checkFail i s = some { cause := .regBounds, info := BitVec.ofNat 32 p } := by
  have taken : ¬ (!payloadOk i.sh i.p) = true := by simp [(payloadOk_iff ..).2 legal]
  have allowed : ¬ (!(i.sh.uses.all Use.okSimt && i.sh.extra && i.sh.simt)) = true := by simp [fields_iff.2 fields]
  rw [checkFail, if_neg taken, if_neg allowed, bad]

theorem checkFail_of_inBounds (inside : i.sh.uses.findSome? (boundsFail s.th.wb s.warp.wi s.warp.regsPer i.alu) = none) :
    checkFail i s = (i.sh.uses.findSome? (poisonUse s i.alu)).map (fun p => { cause := .poison, info := BitVec.ofNat 32 p }) := by
  have taken : ¬ (!payloadOk i.sh i.p) = true := by simp [(payloadOk_iff ..).2 legal]
  have allowed : ¬ (!(i.sh.uses.all Use.okSimt && i.sh.extra && i.sh.simt)) = true := by simp [fields_iff.2 fields]
  rw [checkFail, if_neg taken, if_neg allowed, inside]
  cases i.sh.uses.findSome? (poisonUse s i.alu) <;> rfl

end

/-- What is checked of the registers of an instruction with a legal payload and legal fields. -/
theorem checkFail_of_legal {i : Ins} {s : State} (legal : PayloadLegal i.sh i.p)
    (fields : (∀ u ∈ i.sh.uses, FieldLegal u) ∧ i.sh.extra = true ∧ i.sh.simt = true) :
    (∃ u ∈ i.sh.uses, ∃ p, FailsBounds s i u p ∧ checkFail i s = some { cause := .regBounds, info := BitVec.ofNat 32 p })
    ∨ (∀ u ∈ i.sh.uses, ∀ p, ¬ FailsBounds s i u p)
      ∧ ((∃ u ∈ i.sh.uses, ∃ p, ReadsPoison s i u p ∧ checkFail i s = some { cause := .poison, info := BitVec.ofNat 32 p })
        ∨ (∀ u ∈ i.sh.uses, ∀ p, ¬ ReadsPoison s i u p) ∧ checkFail i s = none) := by
  rcases exists_of_findSome? (l := i.sh.uses) (fun u p => (boundsFail_iff s i u p).1) (fun u none_ p bad => by
    rw [(boundsFail_iff s i u p).2 bad] at none_
    cases none_) with ⟨u, hu, p, bad, e⟩ | ⟨e, inBounds⟩
  · exact .inl ⟨u, hu, p, bad, checkFail_of_bounds legal fields e⟩
  · refine .inr ⟨inBounds, ?_⟩
    rw [checkFail_of_inBounds legal fields e]
    rcases exists_of_findSome? (l := i.sh.uses) (fun u p => readsPoison_of_poisonUse (s := s) legal (u := u) (p := p))
      (fun u => not_readsPoison_of_poisonUse legal) with ⟨u, hu, p, bad, e⟩ | ⟨e, clean⟩
    · exact .inl ⟨u, hu, p, bad, by rw [e]; rfl⟩
    · exact .inr ⟨clean, by rw [e]; rfl⟩

end Sys2Proof.Laws
end

section
/-! PROOF. Checks come before the effect of an instruction, and a check that fails is a trap in its place (R23, R24, R101, R104, R195, R247, R257). -/

namespace Sys2Proof.Laws

open Sys2Proof Sys2Proof.Machine Sys2Proof.Rules

/-! ## Instructions that take no POISON trap -/

section

variable {i : Ins} {s : State} {t : Trap} (ha : s.actor ≠ .stream) (ht : checkFail i s = some t)

include ha ht

theorem runQuiet_trap (hc : t.cause ≠ .poison) (bad : State → State) (f : Opnds → State → State) : runQuiet i bad f s = .next (raise t s) := by
  unfold runQuiet
  split
  · next e => exact absurd e ha
  · simp only [simtQuiet, ht, if_neg hc]

theorem runQuiet_poison (hc : t.cause = .poison) (bad : State → State) (f : Opnds → State → State) : runQuiet i bad f s = .next (bad s) := by
  unfold runQuiet
  split
  · next e => exact absurd e ha
  · simp only [simtQuiet, ht, if_pos hc]

theorem runFloat_trap (hc : t.cause ≠ .poison) (f : Opnds → State → State) : runFloat i f s = .next (raise t s) := by
  unfold runFloat
  split
  · next e => exact absurd e ha
  · simp only [simtFloat, simtQuiet, ht, if_neg hc]

/-- A floating-point instruction computes with free values in place of the poisoned ones. -/
theorem runFloat_poison (hc : t.cause = .poison) (f : Opnds → State → State) :
    runFloat i f s = .next (f (operands i (withFreedAll s)) { s with freeCtr := s.freeCtr + 1 }) := by
  unfold runFloat
  split
  · next e => exact absurd e ha
  · simp only [simtFloat, simtQuiet, ht, if_pos hc]
    rfl

end

/-! ## A check that fails -/

/-- A failed check is a trap in the place of every instruction, but for POISON where its rule admits none. -/
theorem exec_trap (i : Instr) {s : State} {t : Trap} (core : i.onCore = true) (notRead : ∀ sw d n, i ≠ .csrr sw d n) (notWrite : ∀ sw n a, i ≠ .csrw sw n a)
    (hc : (quietRule i).isSome = true ∨ (floatRule i).isSome = true ∨ (convertRule i).isSome = true → t.cause ≠ .poison) (ha : s.actor ≠ .stream)
    (ht : checkFail i.ins s = some t) : exec i s = .next (raise t s) := by
  cases i with
  | add | sub | and | or | xor | andn | shl | shr | sar | rot | min | max | minn | maxn | mul | mulh | mulhn | div | divn | rem | remn
  | clz | popc | brev | abs | neg | sel | mla | adds | subs | addsn | subsn | eq | ne | lt | le | ltn | len | add64 | sub64 | mul64
  | shl64 | shr64 | sar64 | eq64 | lt64 | ltn64 | mov64 | addx | addxn | addi | andi | ori | xori | shli | shri | sari | roti | slti
  | sltni | addxi | movh | movl | bz | bnz | bltz | bgez | jmp | call | jr | callr | ret | exit | nop | yield | trap | brk | rett | brxZ
  | brxNz | brxLtz | brxGez | cont | qput | wbase | wiset | vrgat | vrsca | ldB | ldBs | ldH | ldHs | ldW | ldD | ldQ | ldO | ldmcQ
  | stB | stH | stW | stD | stQ | stO | ldsW | ldsD | ldsQ | stsW | stsD | stsQ | amoAdd | amoAnd | amoOr | amoXor | amoMin | amoMax
  | amoMinn | amoMaxn | amoSwap | amoCas | amoFadd | amoAddb2 | amoAddh2 | amoAdd64 | amoCas64 | amoInc | samoAdd | samoAnd | samoOr
  | samoXor | samoMin | samoMax | samoMinn | samoMaxn | samoSwap | samoCas | samoFadd | samoAddb2 | samoAddh2 | samoAdd64 | samoCas64
  | samoInc | fence | fenceAcq | fenceRel | wct | flush | icinv | fwait | wvoteAny | wvoteAll | wballot | wredAdd | wredFadd | wredMin
  | wredMax | wscanAdd | wscanFadd | wsegscanAdd | wsegscanFadd | wisect | wnz | wmm | wsync | wperm | nbInit | nbArrive | nbWait
  | nbMeet | nbTest | nbStat | xredAdd | xredFadd | xredMax | xredOr | cpy | mcpy | fget | fgetb | tld | tst | tstc | tzero | tmov
  | tfree | tcvt | tlay | mma | mman | mms | tlu | tchol | tqr | ttrsl | ttrsu | ttrsn | tperm | tqapp | tqappt | svmv | svmm | sbarInit
  | sbarArrive | sbarWait | xrd | sfence | send | sstat | setfmt => exact run_thread_trap ha ht
  | faddS | fsubS | fmulS | fminS | fmaxS | fdivS | fsqrtS | frcpS | fabsS | fnegS | feqS | fltS | fleS | funS | fmaS | fnmaS | faddD
  | fsubD | fmulD | fminD | fmaxD | fdivD | fsqrtD | frcpD | fabsD | fnegD | feqD | fltD | fleD | funD | fmaD | fnmaD | faddH2 | fsubH2
  | fmulH2 | fminH2 | fmaxH2 | fdivH2 | fsqrtH2 | frcpH2 | fabsH2 | fnegH2 | feqH2 | fltH2 | fleH2 | funH2 | fmaH2 | fnmaH2 | faddB2
  | fsubB2 | fmulB2 | fminB2 | fmaxB2 | fdivB2 | fsqrtB2 | frcpB2 | fabsB2 | fnegB2 | feqB2 | fltB2 | fleB2 | funB2 | fmaB2 | fnmaB2
  | fexp2 | flog2 | fsin | fcos | frsq | ftanh | fscl => exact runFloat_trap ha ht (hc (.inr (.inl rfl))) _
  | cvt | cvtp | cvtq | fclass => exact runFloat_trap ha ht (hc (.inr (.inr rfl))) _
  | watch | unwatch | wgrow | wshrink | poolReq | poolRel | poolMap | poolOcc | tstate | tmark | pref =>
    exact runQuiet_trap ha ht (hc (.inl rfl)) _ _
  | csrr sw d n => exact absurd rfl (notRead sw d n)
  | csrw sw n a => exact absurd rfl (notWrite sw n a)
  | _ => exact absurd core Bool.false_ne_true

/-! ## A poisoned operand where no trap is admitted -/

/-- What an instruction of `quietRule` leaves for a poisoned operand (log entry 81). -/
def afterPoison (i : Instr) (q : Option Nat × Bool) (s : State) : State :=
  match q.1 with
  | none => steps i.ins s
  | some n =>
    let u := finishWith i.ins (targets (operands i.ins s) [(Config.freeWord s.freeCtr).truncate 32]) n (some n) true { s with freeCtr := s.freeCtr + 1 }
    if q.2 then awaits u else u

theorem poolPoisoned_eq (i : Instr) (lat : Nat) (parks : Bool) (s : State) : poolPoisoned i.ins lat parks s = afterPoison i (some lat, parks) s := by
  simp only [poolPoisoned, afterPoison, State.draw, result_eq_finishWith]
  rfl

theorem watchPoisoned_eq (i : Instr) (s : State) : watchPoisoned i.ins (operands i.ins s) s = afterPoison i (some 4, true) s := by
  simp only [watchPoisoned, watchDone, afterPoison, State.draw, result_eq_finishWith]
  rfl

section

variable {i : Instr} {s : State} {t : Trap} (ha : s.actor ≠ .stream) (ht : checkFail i.ins s = some t) (hc : t.cause = .poison)

include ha ht hc

theorem exec_poolPoisoned {lat : Nat} {parks : Bool} {f : Opnds → State → State} (runs : exec i s = runQuiet i.ins (poolPoisoned i.ins lat parks) f s) :
    exec i s = .next (afterPoison i (some lat, parks) s) := by
  rw [runs, runQuiet_poison ha ht hc, poolPoisoned_eq]

theorem exec_watchPoisoned {f : Opnds → State → State} (runs : exec i s = runQuiet i.ins (fun s => watchPoisoned i.ins (operands i.ins s) s) f s) :
    exec i s = .next (afterPoison i (some 4, true) s) := by
  rw [runs, runQuiet_poison ha ht hc, watchPoisoned_eq]

end

theorem exec_quiet (i : Instr) {s : State} {t : Trap} (ha : s.actor ≠ .stream) (ht : checkFail i.ins s = some t) (hc : t.cause = .poison) :
    (quietRule i).elim True (fun q => exec i s = .next (afterPoison i q s)) := by
  cases i with
  | pref => exact (runQuiet_poison ha ht hc _ _).trans (congrArg _ (finish_eq ..))
  | watch | unwatch => exact exec_watchPoisoned ha ht hc rfl
  | wgrow | wshrink | poolReq | poolRel | poolMap | poolOcc | tstate | tmark => exact exec_poolPoisoned ha ht hc rfl
  | _ => exact trivial

/-! ## Special registers (R101) -/

theorem csrRun_trap {i : Ins} {s : State} {t : Trap} {n : BitVec 14} {isWrite : Bool} (ha : s.actor ≠ .stream) (ok : csrOk s n.toNat isWrite = true)
    (ht : checkFail i s = some t) (f : Opnds → State → State) : csrRun i n isWrite f s = .next (raise t s) := by
  rw [csrRun, ok, Bool.or_true, if_pos rfl]
  exact run_thread_trap ha ht

theorem csrRun_illegal {i : Ins} {s : State} {n : BitVec 14} {isWrite : Bool} (ha : s.actor ≠ .stream) (no : csrOk s n.toNat isWrite = false)
    (f : Opnds → State → State) : csrRun i n isWrite f s = .next (raise { cause := .illegal, info := i.word } s) := by
  rw [csrRun, no, Bool.or_false, decide_eq_false ha, if_neg Bool.false_ne_true]

/-! ## The statement -/

/-- Settles O4, from the order of the checks and from how each kind of instruction takes a failed one. -/
theorem checksComeFirst : Obligations.ChecksComeFirst := by
  refine ⟨fun i s => ⟨checkFail_of_payload, checkFail_of_fields, ?bounds, ?poison, ?none_⟩,
    fun i s t core notRead notWrite hc ha ht => exec_trap i core notRead notWrite hc ha ht, fun i lat parks s t rule ha ht hc => ?quiet,
    fun i r s t rule ha ht hc => ?float, fun sw d n s t ha ok ht => csrRun_trap ha ok ht _, fun sw a n s t ha ok ht => csrRun_trap ha ok ht _,
    fun sw d n s ha no => csrRun_illegal ha no _, fun sw a n s ha no => csrRun_illegal ha no _⟩
  case bounds =>
    intro legal fields beyond
    rcases checkFail_of_legal legal fields with found | ⟨inBounds, -⟩
    · exact found
    · exact absurd inBounds beyond
  case poison =>
    rintro legal fields inBounds ⟨u, hu, p, bad⟩
    rcases checkFail_of_legal legal fields with ⟨v, hv, q, beyond, -⟩ | ⟨-, found | ⟨clean, -⟩⟩
    · exact absurd beyond (inBounds v hv q)
    · exact found
    · exact absurd bad (clean u hu p)
  case none_ =>
    intro legal fields inBounds clean
    rcases checkFail_of_legal legal fields with ⟨v, hv, q, beyond, -⟩ | ⟨-, ⟨u, hu, p, bad, -⟩ | ⟨-, passed⟩⟩
    · exact absurd beyond (inBounds v hv q)
    · exact absurd bad (clean u hu p)
    · exact passed
  case quiet =>
    have e := exec_quiet i ha ht hc
    rw [rule] at e
    exact e
  case float => exact (floatGives_of_rule rule s).trans ((runFloat_poison ha ht hc _).trans (congrArg _ (result_eq ..)))

end Sys2Proof.Laws
end

section
/-! PROOF. What a block that starts leaves of its warps and threads (R14, R20, R157, R160, R275). -/

namespace Sys2Proof.Laws

open Sys2Proof Sys2Proof.Machine Sys2Proof.Rules

/-! ## The threads of a plane -/

theorem mem_insThread_self (t : Thread) (l : List Thread) : t ∈ insThread t l := by
  induction l with
  | nil => exact List.mem_singleton_self t
  | cons u l ih =>
    unfold insThread
    split
    · exact List.mem_cons_self
    · split
      · exact List.mem_cons_self
      · exact List.mem_cons_of_mem _ ih

/-- A thread of another place stays. -/
theorem mem_insThread_of_mem {t x : Thread} {l : List Thread} (hx : x ∈ l) (ne : x.key ≠ t.key) : x ∈ insThread t l := by
  induction l with
  | nil => cases hx
  | cons u l ih =>
    unfold insThread
    split
    · exact List.mem_cons_of_mem _ hx
    · split
      · next same =>
        rcases List.mem_cons.1 hx with rfl | hx
        · exact absurd same.symm ne
        · exact List.mem_cons_of_mem _ hx
      · rcases List.mem_cons.1 hx with rfl | hx
        · exact List.mem_cons_self
        · exact List.mem_cons_of_mem _ (ih hx)

/-- Threads of places that differ are all there in the end. -/
theorem mem_foldl_insThread {ts l : List Thread} (places : ts.Pairwise (fun x y => x.key ≠ y.key)) {t : Thread} (ht : t ∈ ts) :
    t ∈ ts.foldl (fun l t => insThread t l) l := by
  have keeps {ts : List Thread} {x : Thread} (others : ∀ y ∈ ts, x.key ≠ y.key) {l : List Thread} (hx : x ∈ l) : x ∈ ts.foldl (fun l t => insThread t l) l := by
    induction ts generalizing l with
    | nil => exact hx
    | cons y ts ih =>
      obtain ⟨first, rest⟩ := List.forall_mem_cons.1 others
      exact ih rest (mem_insThread_of_mem hx first)
  induction ts generalizing l with
  | nil => cases ht
  | cons y ts ih =>
    obtain ⟨first, rest⟩ := List.pairwise_cons.1 places
    rcases List.mem_cons.1 ht with rfl | ht
    · exact keeps first (mem_insThread_self ..)
    · exact ih rest ht

/-! ## The parts of a start -/

/-- More banks in the arena change nothing but its banks. -/
theorem growArena_eq {n : Nat} {s t : State} (h : growArena n s = some t) : ∃ ar pm, t = { s with pl := { s.pl with arena := ar, pmap := pm } } := by
  unfold growArena at h
  dsimp only at h
  split at h
  · cases h
  · cases h
    exact ⟨_, _, rfl⟩

/-- New tiles change nothing but tiles and banks. -/
theorem foldl_addTile_eq (ks : List Nat) (h : Nat) (s : State) :
    ∃ n ts pm, ks.foldl (fun s k => addTile k h s) s = { s with nextId := n, pl := { s.pl with tiles := ts, pmap := pm } } := by
  induction ks generalizing s with
  | nil => exact ⟨_, _, _, rfl⟩
  | cons k ks ih =>
    obtain ⟨n, ts, pm, e⟩ := ih (addTile k h s)
    exact ⟨n, ts, pm, e.trans rfl⟩

/-- The slots that a block's warps take. -/
def startSlots (l : BitVec 1024) (s : State) : List Nat := (freeSlots s).take (warpPlan l).length

/-- The block that a start makes, with its frames, its stream and the place of its scratch. -/
def startedBlock (e : QEntry) (l : BitVec 1024) (a : StartArgs) (s : State) (base : Nat) (frames : List Nat) (seq : Option Nat) : Block :=
  { handle := s.nextId, slot0 := (startSlots l s).headD 0, ctx := e.ctx, tree := e.tree, hdr := a.hdr, args := a.args, bid := a.bid, gsz := a.bcount
    nthr := 32 * (warpPlan l).length, prio := e.prio, depth := e.depth, scratch := lbScratch l, sbase := base, frames := frames, stream := seq
    argsWait := a.args != 0 }

/-- Its warp of number `i`. -/
def startedWarp (e : QEntry) (l : BitVec 1024) (a : StartArgs) (s : State) (pages : List (List (Nat × Nat))) (i : Nat) (p : WarpPlan) : Warp :=
  { slot := (startSlots l s).getD i 0, regsPer := p.regs, wid := i, bid := a.bid, gsz := a.bcount, nthr := 32 * (warpPlan l).length, role := p.role
    block := some s.nextId, tree := e.tree, prio := e.prio, pages := pages.getD i [] }

/-- The threads of all its warps, in a state with the plane given to its context. -/
def startedThreads (e : QEntry) (l : BitVec 1024) (a : StartArgs) (s v : State) : List Thread :=
  ((warpPlan l).mapIdx (fun i p => warpThreads v (s.nextId + 1 + 32 * i) ((startSlots l s).getD i 0) i p a e.depth)).flatten

/-- Its stream. -/
def startedStream (l : BitVec 1024) (a : StartArgs) (s : State) (n : Nat) : SeqCtx :=
  { n := n, held := true, block := s.nextId, pc := (lbStream l).truncate 57, npc := (lbStream l).truncate 57
    regs := stSetAll 0 [] [(1, a.args), (2, BitVec.ofNat 64 a.bid), (3, BitVec.ofNat 64 a.bcount)] }

/-- The plane with the block and its warps. -/
def startedPlane (e : QEntry) (l : BitVec 1024) (a : StartArgs) (s : State) (pages : List (List (Nat × Nat))) (base : Nat) (frames : List Nat)
    (seq : Option Nat) (t : State) : State :=
  { t with pl := { t.pl with
    ctx := some e.ctx
    blocks := t.pl.blocks ++ [startedBlock e l a s base frames seq]
    warps := t.pl.warps ++ (warpPlan l).mapIdx (startedWarp e l a s pages) } }

/-- The same with the threads. -/
def startedLanes (e : QEntry) (l : BitVec 1024) (a : StartArgs) (s v : State) : State :=
  { v with pl := { v.pl with threads := (startedThreads e l a s v).foldl (fun l t => insThread t l) v.pl.threads } }

/-- The same with its tiles in `banks` and its frames. -/
def startedState (e : QEntry) (l : BitVec 1024) (a : StartArgs) (s : State) (pages : List (List (Nat × Nat))) (base : Nat) (banks frames : List Nat)
    (seq : Option Nat) (t : State) : State :=
  let v := banks.foldl (fun v k => addTile k s.nextId v) (startedLanes e l a s (startedPlane e l a s pages base frames seq t))
  { v with cl := { v.cl with frameOwner := v.cl.frameOwner ++ frames.map (fun f => (f, s.nextId)) } }

/-- The rest of a start whose warps have their pages and whose scratch has its place: none where a part is missing. -/
def startRest (e : QEntry) (l : BitVec 1024) (a : StartArgs) (s : State) (pages : List (List (Nat × Nat))) (base : Nat) (t : State) : Option State :=
  let banks := (freeBanks t.pl.pmap).take (lbTiles l)
  let nframes := if lbStream l = 0 then 0 else lbFrames l
  let frames := (freeFrames t).take nframes
  let seq := if lbStream l = 0 then none else freeSeq t
  let v := startedState e l a s pages base banks frames seq t
  if (startSlots l s).length < (warpPlan l).length ∨ banks.length < lbTiles l ∨ t.pl.tiles.length + lbTiles l > 32 ∨ frames.length < nframes
    ∨ (lbStream l ≠ 0 ∧ seq.isNone) then none
  else match seq with
    | none => some v
    | some n => some { v with cl := { v.cl with seqs := v.cl.seqs ++ [startedStream l a s n] } }

theorem ite_some_bind {α β : Type} (c : Prop) [Decidable c] (x : α) (y : Option α) (f : α → Option β) :
    (if c then some x else y).bind f = if c then f x else y.bind f := by
  split <;> rfl

/-- A start takes the pages of its warps, the place of its scratch and the rest. -/
theorem allocBlock_eq (e : QEntry) (l : BitVec 1024) (a : StartArgs) (s : State) :
    allocBlock e l a s = (planPages (warpPlan l) s.pl.pmap (usedPages s)).bind (fun x =>
      let t := { s.withPmap x.2 with nextId := s.nextId + 1 + 32 * (warpPlan l).length }
      let base := if lbScratch l = 0 then 0 else placeExtent (extents t.pl.blocks ++ moveTargets t) (lbScratch l)
      (if lbScratch l = 0 then some t else growArena (base + lbScratch l) t).bind (startRest e l a s x.1 base)) := by
  simp only [ite_some_bind]
  rfl

section

variable {e : QEntry} {l : BitVec 1024} {a : StartArgs} {s : State} {pages : List (List (Nat × Nat))} {base : Nat} {banks frames : List Nat}
  {seq : Option Nat} {t : State}

/-- What the started state holds of blocks, warps, threads and streams. -/
theorem startedState_fields : ∃ v : State, v.coreNo = t.coreNo ∧ v.curCtx = (startedState e l a s pages base banks frames seq t).curCtx
    ∧ (startedState e l a s pages base banks frames seq t).pl.threads = (startedThreads e l a s v).foldl (fun l t => insThread t l) t.pl.threads
    ∧ (startedState e l a s pages base banks frames seq t).pl.blocks = t.pl.blocks ++ [startedBlock e l a s base frames seq]
    ∧ (startedState e l a s pages base banks frames seq t).pl.warps = t.pl.warps ++ (warpPlan l).mapIdx (startedWarp e l a s pages) := by
  obtain ⟨n, ts, pm, tiles⟩ := foldl_addTile_eq banks s.nextId (startedLanes e l a s (startedPlane e l a s pages base frames seq t))
  unfold startedState
  rw [tiles]
  exact ⟨startedPlane e l a s pages base frames seq t, rfl, rfl, rfl, rfl, rfl⟩

/-- A start whose parts are all there. -/
theorem startRest_eq_some {u : State} (h : startRest e l a s pages base t = some u) : ∃ (frames : List Nat) (seq : Option Nat) (v : State),
    (warpPlan l).length ≤ (startSlots l s).length ∧ frames.length = (if lbStream l = 0 then 0 else lbFrames l) ∧ (seq = none ↔ lbStream l = 0)
    ∧ v.coreNo = t.coreNo ∧ v.curCtx = u.curCtx
    ∧ u.pl.threads = (startedThreads e l a s v).foldl (fun l t => insThread t l) t.pl.threads
    ∧ u.pl.blocks = t.pl.blocks ++ [startedBlock e l a s base frames seq]
    ∧ u.pl.warps = t.pl.warps ++ (warpPlan l).mapIdx (startedWarp e l a s pages)
    ∧ ∀ n, seq = some n → startedStream l a s n ∈ u.cl.seqs := by
  unfold startRest at h
  dsimp only at h
  generalize hf : (freeFrames t).take (if lbStream l = 0 then 0 else lbFrames l) = frames at h
  generalize hq : (if lbStream l = 0 then none else freeSeq t) = seq at h
  rw [Option.ite_none_left_eq_some] at h
  obtain ⟨whole, h⟩ := h
  simp only [not_or, not_lt, not_and, Bool.not_eq_true, Option.isNone_eq_false_iff] at whole
  obtain ⟨slots, -, -, enough, stream⟩ := whole
  obtain ⟨v, core, ctx, threads, blocks, warps⟩ := startedState_fields (e := e) (l := l) (a := a) (s := s) (pages := pages) (base := base)
    (banks := (freeBanks t.pl.pmap).take (lbTiles l)) (frames := frames) (seq := seq) (t := t)
  have count : frames.length = (if lbStream l = 0 then 0 else lbFrames l) := Nat.le_antisymm (hf ▸ List.length_take_le ..) enough
  have streams : seq = none ↔ lbStream l = 0 := by
    constructor
    · intro none_
      by_contra some_
      have is := stream some_
      rw [none_] at is
      cases is
    · intro none_
      rw [← hq, if_pos none_]
  refine ⟨frames, seq, v, slots, count, streams, core, ?_⟩
  cases seq with
  | none =>
    cases h
    exact ⟨ctx, threads, blocks, warps, fun n hn => by cases hn⟩
  | some n =>
    cases h
    refine ⟨ctx, threads, blocks, warps, fun m hm => ?_⟩
    cases hm
    exact List.mem_append_right _ (List.mem_singleton_self _)

end

/-- What a start leaves of blocks, warps, threads and streams. -/
theorem allocBlock_eq_some {e : QEntry} {l : BitVec 1024} {a : StartArgs} {s u : State} (h : allocBlock e l a s = some u) :
    ∃ (pages : List (List (Nat × Nat))) (base : Nat) (frames : List Nat) (seq : Option Nat) (v : State),
    (warpPlan l).length ≤ (startSlots l s).length ∧ frames.length = (if lbStream l = 0 then 0 else lbFrames l) ∧ (seq = none ↔ lbStream l = 0)
    ∧ v.coreNo = s.coreNo ∧ v.curCtx = u.curCtx
    ∧ u.pl.threads = (startedThreads e l a s v).foldl (fun l t => insThread t l) s.pl.threads
    ∧ u.pl.blocks = s.pl.blocks ++ [startedBlock e l a s base frames seq]
    ∧ u.pl.warps = s.pl.warps ++ (warpPlan l).mapIdx (startedWarp e l a s pages)
    ∧ ∀ n, seq = some n → startedStream l a s n ∈ u.cl.seqs := by
  rw [allocBlock_eq, Option.bind_eq_some_iff] at h
  obtain ⟨⟨pages, pm⟩, -, h⟩ := h
  dsimp only at h
  rw [Option.bind_eq_some_iff] at h
  obtain ⟨t, grown, h⟩ := h
  obtain ⟨core, threads, blocks, warps⟩ : t.coreNo = s.coreNo ∧ t.pl.threads = s.pl.threads ∧ t.pl.blocks = s.pl.blocks ∧ t.pl.warps = s.pl.warps := by
    rcases eq_or_ne (lbScratch l) 0 with none_ | some_
    · rw [if_pos none_] at grown
      cases grown
      exact ⟨rfl, rfl, rfl, rfl⟩
    · rw [if_neg some_] at grown
      obtain ⟨ar, pm', e⟩ := growArena_eq grown
      exact ⟨by rw [e]; rfl, by rw [e]; rfl, by rw [e]; rfl, by rw [e]; rfl⟩
  rw [← core, ← threads, ← blocks, ← warps]
  exact ⟨pages, _, startRest_eq_some h⟩

/-! ## The start in the words of the tables -/

/-- The plan of a launch block as Table 8-2 lists its warps. -/
theorem blockWarps_eq (l : BitVec 1024) : blockWarps l.toNat = (warpPlan l).map (fun p => (p.role, p.regs, p.entry.toNat)) := by
  have entry (k : Nat) : (lbEntry l k).toNat = bitsAt l.toNat (256 + 128 * k) 64 :=
    (BitVec.toNat_ofNat ..).trans (Nat.mod_eq_of_lt (Nat.mod_lt _ (Nat.two_pow_pos 64)))
  simp only [blockWarps, warpPlan, List.map_flatMap, List.map_replicate, entry]
  rfl

theorem lbStream_eq_zero_iff (l : BitVec 1024) : lbStream l = 0 ↔ bitsAt l.toNat 192 64 = 0 := by
  have value : (lbStream l).toNat = bitsAt l.toNat 192 64 :=
    (BitVec.toNat_ofNat ..).trans (Nat.mod_eq_of_lt (Nat.mod_lt _ (Nat.two_pow_pos 64)))
  rw [← value, ← BitVec.toNat_inj]
  rfl

/-- Warp `k` takes the `k`-th free slot. -/
theorem startSlots_getElem? {l : BitVec 1024} {s : State} {k : Nat} (hk : k < (warpPlan l).length) : (startSlots l s)[k]?
    = ((List.range 64).filter (fun n => s.pl.warps.all (fun w => w.slot != n)))[k]? := by
  rw [startSlots, List.getElem?_take_of_lt hk, freeSlots]
  congr 2
  funext n
  simp [List.all_eq_not_any_not, bne]

theorem nodup_startSlots (l : BitVec 1024) (s : State) : (startSlots l s).Nodup :=
  ((List.nodup_range (n := 64)).filter _).sublist (List.take_sublist ..)

/-! ## Warps and threads -/

theorem truncate_ofNat_64 (n : Nat) : (BitVec.ofNat 64 n).truncate 57 = BitVec.ofNat 57 n := by
  apply BitVec.eq_of_toNat_eq
  simp only [BitVec.truncate_eq_setWidth, BitVec.toNat_setWidth, BitVec.toNat_ofNat]
  exact Nat.mod_mod_of_dvd n (Nat.pow_dvd_pow 2 (by decide))

/-- The stack of a thread (R14, R20). -/
theorem startStack_eq {s u v : State} {x k lane : Nat} (core : v.coreNo = s.coreNo) (ctx : v.curCtx = u.curCtx) (slot : x = k) :
    v.curCtx.stkBase + BitVec.ofNat 64 ((v.coreNo * 2048 + x * 32 + lane + 1) * v.curCtx.stkSize)
      = BitVec.ofNat 64 (u.curCtx.stkBase + (s.coreNo * 2048 + k * 32 + lane + 1) * u.curCtx.stkSize) := by
  rw [core, ctx, slot, BitVec.ofNat_add]
  rfl

theorem startedThreads_places {e : QEntry} {l : BitVec 1024} {a : StartArgs} {s v : State} (slots : (warpPlan l).length ≤ (startSlots l s).length) :
    (startedThreads e l a s v).Pairwise (fun x y => x.key ≠ y.key) := by
  refine List.pairwise_flatten.2 ⟨fun ts hts => ?within, List.pairwise_iff_getElem.2 fun i j hi hj lt x hx y hy => ?across⟩
  case within =>
    obtain ⟨k, lt, rfl⟩ := List.mem_mapIdx.1 hts
    refine List.pairwise_map.2 (List.nodup_range.imp fun ne same => ne ?_)
    exact Nat.add_left_cancel same
  case across =>
    rw [List.length_mapIdx] at hi hj
    rw [List.getElem_mapIdx] at hx hy
    obtain ⟨m, hm, rfl⟩ := List.mem_map.1 hx
    obtain ⟨n, hn, rfl⟩ := List.mem_map.1 hy
    have other : (startSlots l s).getD i 0 ≠ (startSlots l s).getD j 0 := by
      rw [List.getD_eq_getElem _ _ (hi.trans_le slots), List.getD_eq_getElem _ _ (hj.trans_le slots)]
      exact fun same => lt.ne ((nodup_startSlots l s).getElem_inj_iff.1 same)
    intro same
    have place : (startSlots l s).getD i 0 * 32 + m = (startSlots l s).getD j 0 * 32 + n := same
    rw [List.mem_range] at hm hn
    omega

/-- Warp `k` of a start. -/
theorem startedWarp_mem {e : QEntry} {l : BitVec 1024} {a : StartArgs} {s : State} {pages : List (List (Nat × Nat))} {k : Nat} {p : WarpPlan}
    (hk : (warpPlan l)[k]? = some p) : startedWarp e l a s pages k p ∈ (warpPlan l).mapIdx (startedWarp e l a s pages) := by
  obtain ⟨lt, rfl⟩ := List.getElem?_eq_some_iff.1 hk
  exact List.mem_mapIdx.2 ⟨k, lt, rfl⟩

/-- Lane `n` of warp `k` of a start. -/
def startedThread (e : QEntry) (l : BitVec 1024) (a : StartArgs) (s v : State) (k : Nat) (p : WarpPlan) (n : Nat) : Thread :=
  let entry := match a.entry with
    | some x => if p.role = 0 then x else p.entry
    | none => p.entry
  newThread v (s.nextId + 1 + 32 * k + n) ((startSlots l s).getD k 0) n (k * 32 + n) (entry.truncate 57) a.regs e.depth .none

theorem startedThread_mem {e : QEntry} {l : BitVec 1024} {a : StartArgs} {s v : State} {k n : Nat} {p : WarpPlan} (hk : (warpPlan l)[k]? = some p)
    (hn : n < 32) : startedThread e l a s v k p n ∈ startedThreads e l a s v := by
  obtain ⟨lt, rfl⟩ := List.getElem?_eq_some_iff.1 hk
  exact List.mem_flatten.2 ⟨_, List.mem_mapIdx.2 ⟨k, lt, rfl⟩, List.mem_map.2 ⟨n, List.mem_range.2 hn, rfl⟩⟩

/-- The entry of a role, or the one that a trigger record gives role 0 (R266). -/
theorem startedThread_pc (e : QEntry) (l : BitVec 1024) (a : StartArgs) (s v : State) (k : Nat) (p : WarpPlan) (n : Nat) :
    (startedThread e l a s v k p n).pc
      = if p.role = 0 then (a.entry.map (·.truncate 57)).getD (BitVec.ofNat 57 p.entry.toNat) else BitVec.ofNat 57 p.entry.toNat := by
  unfold startedThread newThread
  cases a.entry with
  | none => exact (ite_self _).symm
  | some x => exact apply_ite (BitVec.truncate 57) (p.role = 0) x p.entry

/-- A block that starts leaves its block, its warps and its threads as the tables say. -/
theorem blockStarts_of_allocBlock {e : QEntry} {l : BitVec 1024} {a : StartArgs} {s u : State} (h : allocBlock e l a s = some u) : BlockStarts e l a s u := by
  obtain ⟨pages, base, frames, seq, v, slots, count, streams, core, ctx, threads, blocks, warps, stream⟩ := allocBlock_eq_some h
  have planLength : (blockWarps l.toNat).length = (warpPlan l).length := by rw [blockWarps_eq, List.length_map]
  refine ⟨⟨startedBlock e l a s base frames seq, by rw [blocks]; exact List.mem_append_right _ (List.mem_singleton_self _), rfl, rfl, rfl, rfl, rfl, rfl, rfl,
    congrArg (32 * ·) planLength.symm, rfl, rfl, rfl, rfl, rfl, ?frames, bne_iff_ne, rfl, streams.trans (lbStream_eq_zero_iff l), fun n hn => ?stream⟩,
    fun k x hx => ?warps⟩
  case frames =>
    exact count.trans (if_congr (lbStream_eq_zero_iff l) rfl rfl)
  case stream =>
    exact ⟨startedStream l a s n, stream n hn, rfl, rfl, rfl, truncate_ofNat_64 _, rfl⟩
  case warps =>
    rw [blockWarps_eq, List.getElem?_map, Option.map_eq_some_iff] at hx
    obtain ⟨p, hp, rfl⟩ := hx
    have slot : (startSlots l s).getD k 0 = (((List.range 64).filter (fun n => s.pl.warps.all (fun w => w.slot != n)))[k]?).getD 0 := by
      rw [List.getD_eq_getElem?_getD, startSlots_getElem? (List.getElem?_eq_some_iff.1 hp).1]
    refine ⟨⟨startedWarp e l a s pages k p, by rw [warps]; exact List.mem_append_right _ (startedWarp_mem hp), slot, rfl, rfl, rfl, rfl, rfl,
      congrArg (32 * ·) planLength.symm, rfl, rfl, rfl, rfl, rfl⟩, fun lane hl =>
      ⟨startedThread e l a s v k p lane, ?member, slot, rfl, rfl, ?tid, rfl, ?pc, rfl, rfl, rfl, rfl, rfl, ?kp⟩⟩
    case member =>
      rw [threads]
      exact mem_foldl_insThread (startedThreads_places slots) (startedThread_mem hp hl)
    case tid => exact congrArg (· + lane) (Nat.mul_comm k 32)
    case pc => exact startedThread_pc ..
    case kp => exact startStack_eq core ctx slot

end Sys2Proof.Laws
end

section
/-! PROOF. Starts of blocks and free warps, the end of trees, and what the pool manager ends (R134, R136, R160, R163, R190, R192, R196, R266). -/

namespace Sys2Proof.Laws

open Sys2Proof Sys2Proof.Machine Sys2Proof.Rules

/-! ## Blocks (R160, R168, R266) -/

theorem serveArgs_of_none {s : State} (none_ : ∀ b ∈ s.pl.blocks, b.argsWait = false) : serveArgs s = s := by
  have empty : s.pl.blocks.filter (·.argsWait) = [] := List.filter_eq_nil_iff.2 fun b hb => by rw [none_ b hb]; exact Bool.false_ne_true
  rw [serveArgs, empty]
  rfl

theorem startMay_of_gap {s : State} (gap : ∀ c, s.sched.lastStart = some c → c + 4 ≤ s.clock.cycle) : startMay s = true := by
  unfold startMay
  split
  · next c last => exact decide_eq_true (gap c last)
  · rfl

theorem examine1_start {s u : State} {e : QEntry} {hdr lb args : DWord} {n bid : Nat} {l : BitVec 1024} (work : e.work = .block hdr lb args n bid)
    (runs : ctxRuns s e.ctx = true) (passed : timePassed s e = true) (read : lbAt s e.ctx lb = .ok (some l)) (valid : lbFail l = none)
    (parts : allocBlock e l (startArgs e hdr args n bid) { s with pl := { s.pl with ctx := some e.ctx } } = some u) : examine1 e s = .start u := by
  simp only [examine1, work, runs, passed, read, valid, parts, Bool.not_true, Bool.or_self, Bool.false_eq_true, if_false]

theorem blockStartStep_first {s u : State} {e : QEntry} {rest : List QEntry} (served : ∀ b ∈ s.pl.blocks, b.argsWait = false)
    (gap : ∀ c, s.sched.lastStart = some c → c + 4 ≤ s.clock.cycle) (queue : inOrder s.clock.cycle s.sched.coreQ = e :: rest) (starts : examine1 e s = .start u) :
    blockStartStep s = serveArgs (dropEntry e { u with sched := { u.sched with lastStart := some s.clock.cycle } }) := by
  simp only [blockStartStep, serveArgs_of_none served, queue, examineAll, starts, startMay_of_gap gap, if_true]

/-- An instruction that reads a record goes on with its bytes. -/
theorem readRecord_of_hasRecord {va : DWord} {h : Nat} {bs : List Byte} {s u : State} (has : HasRecord h bs s u) (bad : State → State)
    (k : List Byte → State → State) : readRecord va h bad k s = k bs u := by
  unfold readRecord
  rcases has with ⟨fresh, vt, path, rfl⟩ | ⟨kept, rfl⟩
  · simp only [fresh, path]
    cases vt <;> rfl
  · simp only [kept, and_self, if_true]
    rfl

/-- The 16 words at ARGS, and the block no longer waits for them. -/
theorem giveConsts_eq (h : Nat) (f : Nat → Word) (s : State) : giveConsts h ((List.range 16).map f) s = { s with pl := { s.pl with
    warps := s.pl.warps.map (fun w => if w.block = some h then { w with consts := stSetAll 0 [] ((List.range 16).map (fun k => (k, f k))) } else w)
    blocks := s.pl.blocks.map (fun x => if x.handle = h then { x with argsWait := false } else x) } } := by
  have words : ((List.range 16).map f).mapIdx (fun i w => (i, w)) = (List.range 16).map (fun k => (k, f k)) :=
    List.ext_getElem (by simp) fun i _ _ => by simp
  simp only [giveConsts, State.updBlock, updIf, words, beq_iff_eq]

/-! ## The former (R134, R136) -/

section

variable {ok : List (QEntry × ContRec) → Bool} {s u : State} {e : QEntry} {rest l : List QEntry}
  (records : s.sched.coreQ.filter (fun e => isCont e && ctxRuns s e.ctx) = l) (queue : l = e :: rest)

include records queue

/-- The group of the first record is released first, where it may be. -/
theorem formWarps_first (n : Nat) (may : ok (gather e l) = true) (released : releaseWarp (gather e l) s = some u) :
    formWarps ok (n + 1) s = formWarps ok n u := by
  subst queue
  simp only [formWarps, records, List.map_cons, List.filter_cons, may, if_true, List.findSome?_cons, released]

theorem formWarp_first (may : ok (gather e l) = true) (released : releaseWarp (gather e l) s = some u) :
    formWarp ok s = formWarps ok (s.sched.coreQ.length - 1) u := by
  have some_ : 0 < s.sched.coreQ.length := by
    have within := List.length_filter_le (fun e => isCont e && ctxRuns s e.ctx) s.sched.coreQ
    rw [records, queue, List.length_cons] at within
    omega
  rw [formWarp, ← formWarps_first records queue _ may released, Nat.sub_add_cancel some_]

end

/-! ## Trees (R163) -/

/-- Whether something keeps a tree from its end: its count, its completion time, a stop of the command processor, or what a plane still holds of it. -/
def treeHeld (t : Nat) (tr : Tree) (s : State) : Bool :=
  tr.detached || tr.count != 0 || decide (s.clock.tbase < tr.tct) || s.cp.stopped || isFrozen s masterCp
  || planeHasTree s.pl t || planeHasTree s.standby.plane t || s.slots.any (fun x => planeHasTree x.standby.plane t)

section

variable {t : Nat} {s u : State} {tr : Tree}

theorem treeHeld_eq_false (kept : tr.detached = false) (empty : tr.count = 0) (past : tr.tct ≤ s.clock.tbase) (runs : s.cp.stopped = false)
    (free : isFrozen s masterCp = false) (here : planeHasTree s.pl t = false) (standby : planeHasTree s.standby.plane t = false)
    (slots : ∀ x ∈ s.slots, planeHasTree x.standby.plane t = false) : treeHeld t tr s = false := by
  have none_ : s.slots.any (fun x => planeHasTree x.standby.plane t) = false := List.any_eq_false.2 fun x hx => by
    rw [slots x hx]
    exact Bool.false_ne_true
  rw [treeHeld, kept, empty, decide_eq_false (Nat.not_lt.2 past), runs, free, here, standby, none_]
  rfl

variable (found : s.sched.trees.find? (·.n == t) = some tr) (over_ : treeHeld t tr s = false)

include found over_

theorem treeCompleteStep_signalled {w : Nat} (at_ : tr.sigAt = some w) (past : w ≤ s.clock.tbase) :
    treeCompleteStep t s = dropTree tr (setIrq (69 + tr.ctx) s) := by
  unfold treeHeld at over_
  simp only [treeCompleteStep, found, over_, at_, if_neg (Nat.not_lt.2 past), Bool.false_eq_true, if_false]

theorem treeCompleteStep_plain (at_ : tr.sigAt = none) (released : treeReleased tr.ctx s = (true, u)) (no : tr.sigAddr = 0) :
    treeCompleteStep t s = dropTree tr u := by
  unfold treeHeld at over_
  simp only [treeCompleteStep, found, over_, at_, released, no, Bool.not_true, Bool.false_eq_true, if_false, if_true]

theorem treeCompleteStep_signals {h : Nat} (at_ : tr.sigAt = none) (released : treeReleased tr.ctx s = (true, u)) (some_ : tr.sigAddr ≠ 0)
    (home : engHome u masterCp tr.ctx tr.sigAddr.toNat .write 8 = .ok h) :
    let v := cpStore tr.ctx h (leBytes tr.sigVal.toNat 8) (treeUpd t (fun r => { r with isOpen := false }) u)
    treeCompleteStep t s = treeUpd t (fun r => { r with sigAt := some v.1 }) v.2 := by
  unfold treeHeld at over_
  simp only [treeCompleteStep, found, over_, at_, released, if_neg some_, home, Bool.not_true, Bool.false_eq_true, if_false]

end

/-! ## The pool manager (R190, R192, R196) -/

theorem cWritebackDone_over {s : State} {ks ids : List Nat} {use : BankUse} {w : Option Nat} (shake : s.pl.shake = some (.writeback ks ids use w))
    (acked : ∀ m ∈ s.pl.net, ids.contains m.id = false) (clean : ∀ x ∈ s.pl.l1, ks.contains x.bank = true → x.dirty = 0) :
    let u := answerReq w pOk (giveBanks ks use { s with pl := { s.pl with shake := none } })
    execCWritebackDone s = .next (nextShakes u.pl.shakeQ.length u) := by
  have open_ : s.pl.net.any (fun m => ids.contains m.id) = false := List.any_eq_false.2 fun m hm => by
    rw [acked m hm]
    exact Bool.false_ne_true
  have dirty : dirtyIn s ks = false := List.any_eq_false.2 fun x hx both => by
    obtain ⟨in_, bad⟩ := Bool.and_eq_true_iff.1 both
    exact bne_iff_ne.1 bad (clean x hx in_)
  simp only [execCWritebackDone, shake, open_, dirty, Bool.false_eq_true, if_false]

theorem relocationComplete_over {s : State} {k : Nat} {moves : List (Nat × Nat × Nat)} {w : Option Nat} (shake : s.pl.shake = some (.reloc k moves w))
    (idle : ∀ m ∈ moves, scratchIssued s m.1 = false) :
    let moved := moves.foldl (fun s m => s.updBlock m.1 (fun b => if b.scratch = 0 then b else { b with sbase := m.2.2 })) s
    let v := answerReq w pOk (trimArena (setBusy false moved.pl.arena { moved with pl := { moved.pl with shake := none } }))
    let u := wakeStores (unqueued v) v
    execRelocationComplete s = .next (nextShakes u.pl.shakeQ.length u) := by
  have open_ : moves.any (fun m => scratchIssued s m.1) = false := List.any_eq_false.2 fun m hm => by
    rw [idle m hm]
    exact Bool.false_ne_true
  simp only [execRelocationComplete, shake, open_, Bool.false_eq_true, if_false]

theorem serveGrow_oldest {s : State} {x : Nat × Nat × Nat} {rest : List (Nat × Nat × Nat)} (asks : growAsks s = x :: rest)
    (covers : pagesCover s x.1 x.2.1 = true) : serveGrow s = some (wakeGrow x.1 pOk (grantRegs x.1 x.2.1 s)) := by
  simp only [serveGrow, asks, covers, if_true]

/-! ## The statement -/

/-- Settles O41, from the meaning of each event. -/
theorem blocksWarpsAndTheirEnds : Obligations.BlocksWarpsAndTheirEnds := by
  refine ⟨fun s u e rest hdr lb args n bid l served gap queue work runs passed read valid parts => ?block, fun e l a s u parts _ => blockStarts_of_allocBlock parts,
    fun e hdr args n bid => ⟨fun none_ => ?task, fun r entry some_ => ?triggered⟩, fun b s u e bs hit has => ?args,
    fun s u e rest queue released => ⟨fun due => ?full, fun short due => ?partial_⟩,
    fun t s tr found kept empty past runs free here standby slots =>
      ⟨fun w signalled due => ?signalled, fun u none_ released => ⟨fun no => ?plain, fun h some_ home => ?signal⟩⟩,
    fun s ks ids use w shake acked clean => ?writeback, fun s k moves w shake idle => ?reloc, fun s x rest asks covers => ?grow⟩
  case block => exact congrArg _ (blockStartStep_first served gap queue (examine1_start work runs passed read valid parts))
  case task => simp only [startArgs, none_]
  case triggered => simp only [startArgs, some_]
  case args =>
    rw [loadArgs, withHome_core hit, readRecord_of_hasRecord has, giveConsts_eq]
  case full =>
    refine congrArg _ (formWarp_first rfl queue ?_ released)
    simp only [Bool.or_eq_true, beq_iff_eq]
    rcases due with size | old | quiet
    · exact .inl (.inl size)
    · exact .inl (.inr old)
    · exact .inr quiet
  case partial_ => exact congrArg _ (formWarp_first rfl queue (by rw [decide_eq_true short, due]; rfl) released)
  case signalled =>
    exact congrArg _ (treeCompleteStep_signalled found (treeHeld_eq_false kept empty past runs free here standby slots) signalled due)
  case plain =>
    exact congrArg _ (treeCompleteStep_plain found (treeHeld_eq_false kept empty past runs free here standby slots) none_ released no)
  case signal =>
    exact congrArg _ (treeCompleteStep_signals found (treeHeld_eq_false kept empty past runs free here standby slots) none_ released some_ home)
  case writeback => exact cWritebackDone_over shake acked clean
  case reloc => exact relocationComplete_over shake idle
  case grow =>
    refine congrArg Host.Outcome.next ?_
    rw [serveGrow_oldest asks covers]
    rfl

end Sys2Proof.Laws
end

section
/-! PROOF. The tree and the scan of a collective over the lanes (R142), and the members in lane order. -/

namespace Sys2Proof.Laws

open Sys2Proof Sys2Proof.Machine Sys2Proof.Rules

/-! ## Levels of the tree and of the scan -/

theorem treeRed_lanes {α : Type} (op : α → α → α) (x : Nat → Option α) : treeRed op ((List.range 32).map x) = laneTree op x 5 0 := rfl

/-- A level of the scan takes the sums over `2 ^ k` lanes to those over `2 ^ (k + 1)`. -/
theorem scanStep_lanes {α : Type} (op : α → α → α) (x : Nat → Option α) (k : Nat) :
    scanStep op (2 ^ k) ((List.range 32).map (laneScan op x k)) = (List.range 32).map (laneScan op x (k + 1)) := by
  refine List.ext_getElem (by simp [scanStep]) fun l in_ _ => ?_
  have lane : l < 32 := by simpa [scanStep] using in_
  by_cases near : l < 2 ^ k
  · simp [scanStep, laneScan, near]
  · simp [scanStep, laneScan, near, Nat.not_lt.1 near, (Nat.sub_le l (2 ^ k)).trans_lt lane]

theorem scan32_lanes {α : Type} (op : α → α → α) (x : Nat → Option α) :
    scan32 op ((List.range 32).map x) = (List.range 32).map (laneScan op x 5) := by
  have level1 : scanStep op 1 ((List.range 32).map x) = _ := scanStep_lanes op x 0
  have level2 : scanStep op 2 ((List.range 32).map (laneScan op x 1)) = _ := scanStep_lanes op x 1
  have level3 : scanStep op 4 ((List.range 32).map (laneScan op x 2)) = _ := scanStep_lanes op x 2
  have level4 : scanStep op 8 ((List.range 32).map (laneScan op x 3)) = _ := scanStep_lanes op x 3
  have level5 : scanStep op 16 ((List.range 32).map (laneScan op x 4)) = _ := scanStep_lanes op x 4
  rw [scan32, level1, level2, level3, level4, level5]

theorem scan32_at {α : Type} (op : α → α → α) (x : Nat → Option α) {l : Nat} (lane : l < 32) :
    (scan32 op ((List.range 32).map x)).getD l none = laneScan op x 5 l := by
  simp [scan32_lanes, lane]

/-! ## Combining in lane order: all an associative operation needs to know of the tree and the scan -/

/-- The present values of a list, combined in their order. -/
def joined {α : Type} (op : α → α → α) (xs : List (Option α)) : Option α := xs.foldr (comb op) none

@[simp] theorem comb_none {α : Type} (op : α → α → α) (p : Option α) : comb op p none = p := by cases p <;> rfl

@[simp] theorem joined_nil {α : Type} (op : α → α → α) : joined op [] = none := rfl

@[simp] theorem joined_cons {α : Type} (op : α → α → α) (p : Option α) (t : List (Option α)) : joined op (p :: t) = comb op p (joined op t) := rfl

theorem comb_assoc {α : Type} {op : α → α → α} (assoc : ∀ a b c, op (op a b) c = op a (op b c)) (p q r : Option α) :
    comb op (comb op p q) r = comb op p (comb op q r) := by
  cases p <;> cases q <;> cases r <;> simp [comb, assoc]

theorem joined_append {α : Type} {op : α → α → α} (assoc : ∀ a b c, op (op a b) c = op a (op b c)) (xs ys : List (Option α)) :
    joined op (xs ++ ys) = comb op (joined op xs) (joined op ys) := by
  induction xs with
  | nil => rfl
  | cons p t ih => rw [List.cons_append, joined_cons, joined_cons, ih, comb_assoc assoc]

theorem laneTree_eq_joined {α : Type} {op : α → α → α} (assoc : ∀ a b c, op (op a b) c = op a (op b c)) (x : Nat → Option α) (k l : Nat) :
    laneTree op x k l = joined op ((List.range' l (2 ^ k)).map x) := by
  induction k generalizing l with
  | zero => simp [laneTree]
  | succ k ih => rw [laneTree, ih, ih, ← joined_append assoc, ← List.map_append, List.range'_append_1, pow_succ, mul_two]

/-- After `k` levels, lane `l` has what the `2 ^ k` lanes up to it hold. -/
theorem laneScan_eq_joined {α : Type} {op : α → α → α} (assoc : ∀ a b c, op (op a b) c = op a (op b c)) (x : Nat → Option α) (k l : Nat) :
    laneScan op x k l = joined op ((List.range' (l + 1 - 2 ^ k) (min (l + 1) (2 ^ k))).map x) := by
  induction k generalizing l with
  | zero => simp [laneScan]
  | succ k ih =>
    have twice : 2 ^ (k + 1) = 2 ^ k + 2 ^ k := by omega
    by_cases far : 2 ^ k ≤ l
    · have next : l + 1 - 2 ^ k = l - 2 ^ k + 1 - 2 ^ k + min (l - 2 ^ k + 1) (2 ^ k) := by omega
      rw [laneScan, if_pos far, ih, ih, ← joined_append assoc, ← List.map_append, next, List.range'_append_1]
      congr 3 <;> omega
    · rw [laneScan, if_neg far, ih]
      congr 3 <;> omega

/-- An absent value adds nothing. -/
theorem joined_present {ι α β : Type} (op : α → α → α) (find : ι → Option β) (f : β → α) (ls : List ι) :
    joined op (ls.map (fun l => (find l).map f)) = joined op ((ls.filterMap find).map (fun g => some (f g))) := by
  induction ls with
  | nil => rfl
  | cons l t ih => cases e : find l <;> simp [e, ih, comb]

/-! ## Members in lane order -/

/-- The members at the lanes below `n`, in lane order. -/
def inLaneOrder (got : List CollArrival) (n : Nat) : List CollArrival := (List.range n).filterMap (fun l => got.find? (·.lane == l))

theorem laneTree_brought {α : Type} {op : α → α → α} (assoc : ∀ a b c, op (op a b) c = op a (op b c)) (got : List CollArrival)
    (f : CollArrival → α) : laneTree op (broughtAt got f) 5 0 = joined op ((inLaneOrder got 32).map (fun g => some (f g))) := by
  rw [laneTree_eq_joined assoc, ← List.range_eq_range']
  exact joined_present op _ f _

theorem laneScan_brought {α : Type} {op : α → α → α} (assoc : ∀ a b c, op (op a b) c = op a (op b c)) (got : List CollArrival)
    (f : CollArrival → α) {l : Nat} (lane : l < 32) :
    laneScan op (broughtAt got f) 5 l = joined op ((inLaneOrder got (l + 1)).map (fun g => some (f g))) := by
  rw [laneScan_eq_joined assoc, show l + 1 - 2 ^ 5 = 0 by omega, show min (l + 1) (2 ^ 5) = l + 1 by omega, ← List.range_eq_range']
  exact joined_present op _ f _

theorem find_lane_iff {got : List CollArrival} (distinct : (got.map (·.lane)).Nodup) {l : Nat} {g : CollArrival} :
    got.find? (·.lane == l) = some g ↔ g ∈ got ∧ g.lane = l := by
  constructor
  · intro found
    exact ⟨List.mem_of_find?_eq_some found, by simpa using List.find?_some found⟩
  · rintro ⟨mem, rfl⟩
    obtain ⟨h, found⟩ := Option.isSome_iff_exists.1 (List.find?_isSome (p := (·.lane == g.lane)).2 ⟨g, mem, beq_iff_eq.2 rfl⟩)
    have same : h.lane = g.lane := by simpa using List.find?_some found
    rw [found, List.inj_on_of_nodup_map distinct (List.mem_of_find?_eq_some found) mem same]

theorem mem_inLaneOrder {got : List CollArrival} (distinct : (got.map (·.lane)).Nodup) {n : Nat} {g : CollArrival} :
    g ∈ inLaneOrder got n ↔ g ∈ got ∧ g.lane < n := by
  simp only [inLaneOrder, List.mem_filterMap, List.mem_range, find_lane_iff distinct]
  constructor
  · rintro ⟨l, below, mem, rfl⟩
    exact ⟨mem, below⟩
  · rintro ⟨mem, below⟩
    exact ⟨g.lane, below, mem, rfl⟩

theorem inLaneOrder_sorted (got : List CollArrival) (n : Nat) : (inLaneOrder got n).Pairwise (fun g h => g.lane < h.lane) := by
  refine List.pairwise_filterMap.2 (List.pairwise_lt_range.imp fun {k l} less g found h found' => ?_)
  have atK : g.lane = k := by simpa using List.find?_some found
  have atL : h.lane = l := by simpa using List.find?_some found'
  omega

theorem inLaneOrder_nodup (got : List CollArrival) (n : Nat) : (inLaneOrder got n).Nodup :=
  (inLaneOrder_sorted got n).imp fun {g h} less (same : g = h) => by rw [same] at less; omega

/-- Sorting by lane loses no member and adds none. -/
theorem filter_inLaneOrder_perm {got : List CollArrival} (distinct : (got.map (·.lane)).Nodup) {n : Nat} {p q : CollArrival → Bool}
    (agree : ∀ g ∈ got, q g = true ↔ g.lane < n ∧ p g = true) : ((inLaneOrder got n).filter p).Perm (got.filter q) := by
  refine (List.perm_ext_iff_of_nodup ((inLaneOrder_nodup got n).filter p) ((List.Nodup.of_map _ distinct).filter q)).2 fun g => ?_
  rw [List.mem_filter, List.mem_filter, mem_inLaneOrder distinct, and_assoc]
  exact and_congr_right fun mem => (agree g mem).symm

end Sys2Proof.Laws
end

section
/-! PROOF. What each collective delivers to its members (R34, R51, R141 to R146). -/

namespace Sys2Proof.Laws

open Sys2Proof Sys2Proof.Machine Sys2Proof.Rules

/-! ## Operations that combine values -/

@[simp] theorem sminW_toInt {n : Nat} (a b : BitVec n) : (sminW a b).toInt = min a.toInt b.toInt := by
  unfold sminW
  split <;> omega

@[simp] theorem smaxW_toInt {n : Nat} (a b : BitVec n) : (smaxW a b).toInt = max a.toInt b.toInt := by
  unfold smaxW
  split <;> omega

theorem sminW_assoc {n : Nat} (a b c : BitVec n) : sminW (sminW a b) c = sminW a (sminW b c) :=
  BitVec.eq_of_toInt_eq (by simp [min_assoc])

theorem smaxW_assoc {n : Nat} (a b c : BitVec n) : smaxW (smaxW a b) c = smaxW a (smaxW b c) :=
  BitVec.eq_of_toInt_eq (by simp [max_assoc])

theorem segOp_assoc {α : Type} {op : α → α → α} (assoc : ∀ a b c, op (op a b) c = op a (op b c)) (p q r : Bool × α) :
    segOp op (segOp op p q) r = segOp op p (segOp op q r) := by
  obtain ⟨s, a⟩ := p
  obtain ⟨t, b⟩ := q
  obtain ⟨u, c⟩ := r
  cases u <;> cases t <;> simp [segOp, assoc]

theorem faddW_eq : faddW = wordSum := rfl

theorem segOp_eq (op : Word → Word → Word) : segOp op = segment op := rfl

theorem canonW_eq (v : Word) : canonW v = noPayload v := by
  unfold canonW noPayload Fmt.canon
  split
  · rfl
  · simp

/-! ## Sums and choices over members -/

/-- The sum of the members' values, modulo 2 ^ 32. -/
def valueSum (gs : List CollArrival) : Word := BitVec.ofNat 32 (gs.map (fun g => g.av.toNat)).sum

theorem valueSum_perm {gs hs : List CollArrival} (perm : gs.Perm hs) : valueSum gs = valueSum hs :=
  congrArg (BitVec.ofNat 32) (perm.map _).sum_eq

@[simp] theorem valueSum_singleton (g : CollArrival) : valueSum [g] = g.av := by simp [valueSum]

theorem valueSum_append (gs hs : List CollArrival) : valueSum (gs ++ hs) = valueSum gs + valueSum hs := by
  simp [valueSum, BitVec.ofNat_add]

theorem comb_add_getD (p q : Option Word) : (comb (· + ·) p q).getD 0 = p.getD 0 + q.getD 0 := by
  cases p <;> cases q <;> simp [comb]

theorem joined_add (gs : List CollArrival) : (joined (· + ·) (gs.map (fun g => some g.av))).getD 0 = valueSum gs := by
  induction gs with
  | nil => rfl
  | cons g t ih =>
    rw [List.map_cons, joined_cons, comb_add_getD, ih, Option.getD_some, ← List.singleton_append, valueSum_append, valueSum_singleton]

/-- An operation that passes on one of its two values, the one that `r` ranks first, passes on the first of all. -/
theorem joined_first {op : Word → Word → Word} {r : Word → Word → Prop} (refl : ∀ a, r a a) (trans : ∀ a b c, r a b → r b c → r a c)
    (picks : ∀ a b, op a b = a ∧ r a b ∨ op a b = b ∧ r b a) {gs : List CollArrival} (some_ : gs ≠ []) :
    ∃ g ∈ gs, joined op (gs.map (fun g => some g.av)) = some g.av ∧ ∀ h ∈ gs, r g.av h.av := by
  induction gs with
  | nil => exact absurd rfl some_
  | cons a t ih =>
    by_cases last : t = []
    · subst last
      exact ⟨a, by simp, by simp, by simp [refl]⟩
    · obtain ⟨g, mem, first, rank⟩ := ih last
      simp only [List.map_cons, joined_cons, first, comb, List.forall_mem_cons]
      rcases picks a.av g.av with ⟨left, le⟩ | ⟨right, le⟩
      · exact ⟨a, by simp, by rw [left], refl _, fun h mem => trans _ _ _ le (rank h mem)⟩
      · exact ⟨g, by simp [mem], by rw [right], le, rank⟩

/-! ## The segmented sum (R142) -/

/-- Whether no later member of the list starts a segment. -/
def sinceLastStart (gs : List CollArrival) (g : CollArrival) : Bool := gs.all (fun h => !startsSegment h || decide (h.lane ≤ g.lane))

theorem sinceLastStart_iff {gs : List CollArrival} {g : CollArrival} :
    sinceLastStart gs g = true ↔ ∀ h ∈ gs, startsSegment h = true → h.lane ≤ g.lane := by
  simp [sinceLastStart, or_iff_not_imp_left]

/-- The pair of a member in a segmented scan. -/
def flagged (g : CollArrival) : Bool × Word := (startsSegment g, g.av)

theorem comb_segment_getD (p : Option (Bool × Word)) (g : CollArrival) :
    ((comb (segOp (· + ·)) p (some (flagged g))).map (·.2)).getD 0 = if startsSegment g = true then g.av else (p.map (·.2)).getD 0 + g.av := by
  cases p <;> cases starts : startsSegment g <;> simp [comb, segOp, flagged, starts]

/-- By the last member: it starts a segment, or it adds to the segment before it. -/
theorem joined_segment {gs : List CollArrival} (sorted : gs.Pairwise (fun g h => g.lane < h.lane)) :
    ((joined (segOp (· + ·)) (gs.map (fun g => some (flagged g)))).map (·.2)).getD 0 = valueSum (gs.filter (sinceLastStart gs)) := by
  induction gs using List.reverseRecOn with
  | nil => rfl
  | append_singleton gs a ih =>
    obtain ⟨before, -, last⟩ := List.pairwise_append.1 sorted
    have below : ∀ g ∈ gs, g.lane < a.lane := fun g mem => last g mem a (by simp)
    have own : sinceLastStart (gs ++ [a]) a = true := sinceLastStart_iff.2 fun h mem _ => by
      rcases List.mem_append.1 mem with mem | mem
      · exact (below h mem).le
      · rw [List.mem_singleton.1 mem]
    rw [List.map_append, joined_append (segOp_assoc BitVec.add_assoc), List.map_singleton, joined_cons, joined_nil, comb_none,
      comb_segment_getD, ih before, List.filter_append, valueSum_append, List.filter_singleton, own, cond_true, valueSum_singleton]
    by_cases starts : startsSegment a = true
    · have none_ : gs.filter (sinceLastStart (gs ++ [a])) = [] := List.filter_eq_nil_iff.2 fun g mem all => by
        have := sinceLastStart_iff.1 all a (by simp) starts
        have := below g mem
        omega
      rw [if_pos starts, none_]
      simp [valueSum]
    · have same : gs.filter (sinceLastStart (gs ++ [a])) = gs.filter (sinceLastStart gs) := List.filter_congr fun g _ => by
        simp [sinceLastStart, starts]
      rw [if_neg starts, same]

/-! ## Words of the reductions and scans -/

theorem perLane_eq {α : Type} (got : List CollArrival) (f : CollArrival → α) : perLane got f = (List.range 32).map (broughtAt got f) := rfl

theorem flag_eq (g : CollArrival) : (g.dv.truncate 32 != (0 : Word), g.av) = flagged g := by
  refine Prod.ext ?_ rfl
  rw [Bool.eq_iff_iff, bne_iff_ne, ne_eq, ← BitVec.toNat_inj]
  simp [flagged, startsSegment]

theorem collWord_redAdd (got : List CollArrival) (me : CollArrival) : collWord 3 got me = (laneTree (· + ·) (broughtAt got (·.av)) 5 0).getD 0 := by
  simp only [collWord]
  rw [perLane_eq, treeRed_lanes]

theorem collWord_redFadd (got : List CollArrival) (me : CollArrival) :
    collWord 4 got me = noPayload ((laneTree wordSum (broughtAt got (·.av)) 5 0).getD 0) := by
  simp only [collWord, canonW_eq]
  rw [perLane_eq, treeRed_lanes, faddW_eq]

theorem collWord_redMin (got : List CollArrival) (me : CollArrival) : collWord 5 got me = (laneTree sminW (broughtAt got (·.av)) 5 0).getD 0 := by
  simp only [collWord]
  rw [perLane_eq, treeRed_lanes]

theorem collWord_redMax (got : List CollArrival) (me : CollArrival) : collWord 6 got me = (laneTree smaxW (broughtAt got (·.av)) 5 0).getD 0 := by
  simp only [collWord]
  rw [perLane_eq, treeRed_lanes]

theorem collWord_scanAdd (got : List CollArrival) {me : CollArrival} (lane : me.lane < 32) :
    collWord 7 got me = (laneScan (· + ·) (broughtAt got (·.av)) 5 me.lane).getD 0 := by
  simp only [collWord]
  rw [perLane_eq, scan32_at _ _ lane]

theorem collWord_scanFadd (got : List CollArrival) {me : CollArrival} (lane : me.lane < 32) :
    collWord 8 got me = noPayload ((laneScan wordSum (broughtAt got (·.av)) 5 me.lane).getD 0) := by
  simp only [collWord, canonW_eq]
  rw [perLane_eq, scan32_at _ _ lane, faddW_eq]

theorem perLane_flagged (got : List CollArrival) :
    perLane got (fun g => (g.dv.truncate 32 != (0 : Word), g.av)) = (List.range 32).map (broughtAt got flagged) := by
  rw [funext flag_eq, perLane_eq]

theorem collWord_segscanAdd (got : List CollArrival) {me : CollArrival} (lane : me.lane < 32) :
    collWord 9 got me = ((laneScan (segOp (· + ·)) (broughtAt got flagged) 5 me.lane).map (·.2)).getD 0 := by
  simp only [collWord]
  rw [perLane_flagged, scan32_at _ _ lane]

theorem collWord_segscanFadd (got : List CollArrival) {me : CollArrival} (lane : me.lane < 32) :
    collWord 10 got me = noPayload (((laneScan (segment wordSum) (broughtAt got flagged) 5 me.lane).map (·.2)).getD 0) := by
  simp only [collWord, canonW_eq]
  rw [perLane_flagged, scan32_at _ _ lane, segOp_eq, faddW_eq]

section
variable {got : List CollArrival} (distinct : (got.map (·.lane)).Nodup)
include distinct

theorem redAdd_sum (lanes : ∀ g ∈ got, g.lane < 32) : (laneTree (· + ·) (broughtAt got (·.av)) 5 0).getD 0 = valueSum got := by
  have perm := filter_inLaneOrder_perm distinct (n := 32) (p := fun _ => true) (q := fun _ => true) (by simpa using lanes)
  rw [laneTree_brought BitVec.add_assoc, joined_add]
  exact valueSum_perm (by simpa using perm)

theorem scanAdd_sum {l : Nat} (lane : l < 32) :
    (laneScan (· + ·) (broughtAt got (·.av)) 5 l).getD 0 = valueSum (got.filter (fun g => decide (g.lane ≤ l))) := by
  have perm := filter_inLaneOrder_perm distinct (n := l + 1) (p := fun _ => true) (q := fun g => decide (g.lane ≤ l)) (by simp)
  rw [laneScan_brought BitVec.add_assoc _ _ lane, joined_add]
  exact valueSum_perm (by simpa using perm)

/-- The members that the segmented scan adds at `me` are those since the last start at its lane or below. -/
theorem inSegment_iff {me g : CollArrival} :
    inSegment got me g = true ↔ g.lane < me.lane + 1 ∧ sinceLastStart (inLaneOrder got (me.lane + 1)) g = true := by
  simp only [inSegment, sinceLastStart_iff, mem_inLaneOrder distinct, Bool.and_eq_true, decide_eq_true_eq, List.all_eq_true, Bool.or_eq_true,
    Bool.not_eq_true', Bool.and_eq_false_imp, decide_eq_false_iff_not, Nat.lt_succ_iff]
  refine and_congr_right fun _ => forall_congr' fun h => ?_
  tauto

theorem segscanAdd_sum {me : CollArrival} (lane : me.lane < 32) :
    ((laneScan (segOp (· + ·)) (broughtAt got flagged) 5 me.lane).map (·.2)).getD 0 = valueSum (got.filter (inSegment got me)) := by
  rw [laneScan_brought (segOp_assoc BitVec.add_assoc) _ _ lane, joined_segment (inLaneOrder_sorted _ _)]
  exact valueSum_perm (filter_inLaneOrder_perm distinct fun _ _ => inSegment_iff distinct)

/-- A reduction that passes on one of two values gives a member's value that `r` ranks before every member's. -/
theorem laneTree_first {op : Word → Word → Word} {r : Word → Word → Prop} (assoc : ∀ a b c, op (op a b) c = op a (op b c)) (refl : ∀ a, r a a)
    (trans : ∀ a b c, r a b → r b c → r a c) (picks : ∀ a b, op a b = a ∧ r a b ∨ op a b = b ∧ r b a)
    (lanes : ∀ g ∈ got, g.lane < 32) {me : CollArrival} (mem : me ∈ got) :
    (∃ g ∈ got, (laneTree op (broughtAt got (·.av)) 5 0).getD 0 = g.av) ∧ ∀ g ∈ got, r ((laneTree op (broughtAt got (·.av)) 5 0).getD 0) g.av := by
  have all : ∀ g, g ∈ inLaneOrder got 32 ↔ g ∈ got := fun g => (mem_inLaneOrder distinct).trans (and_iff_left_of_imp (lanes g))
  obtain ⟨g, in_, first, rank⟩ := joined_first refl trans picks (List.ne_nil_of_mem ((all me).2 mem))
  rw [laneTree_brought assoc, first, Option.getD_some]
  exact ⟨⟨g, (all g).1 in_, rfl⟩, fun h mem => rank h ((all h).2 mem)⟩

theorem redMin_least (lanes : ∀ g ∈ got, g.lane < 32) {me : CollArrival} (mem : me ∈ got) :
    (∃ g ∈ got, collWord 5 got me = g.av) ∧ ∀ g ∈ got, (collWord 5 got me).toInt ≤ g.av.toInt := by
  rw [collWord_redMin]
  refine laneTree_first (r := fun a b => a.toInt ≤ b.toInt) distinct sminW_assoc (fun _ => le_rfl) (fun _ _ _ => le_trans) (fun a b => ?_) lanes mem
  unfold sminW
  split
  · next le => exact .inl ⟨rfl, le⟩
  · next gt => exact .inr ⟨rfl, (not_le.1 gt).le⟩

theorem redMax_greatest (lanes : ∀ g ∈ got, g.lane < 32) {me : CollArrival} (mem : me ∈ got) :
    (∃ g ∈ got, collWord 6 got me = g.av) ∧ ∀ g ∈ got, g.av.toInt ≤ (collWord 6 got me).toInt := by
  rw [collWord_redMax]
  refine laneTree_first (r := fun a b => b.toInt ≤ a.toInt) distinct smaxW_assoc (fun _ => le_rfl) (fun _ _ _ h k => le_trans k h) (fun a b => ?_)
    lanes mem
  unfold smaxW
  split
  · next ge => exact .inl ⟨rfl, ge⟩
  · next lt => exact .inr ⟨rfl, (not_le.1 lt).le⟩

end

/-! ## Votes, ballots and intersections (R141, R144, R145) -/

theorem voteAny_eq (got : List CollArrival) (me : CollArrival) : collWord 0 got me = truth (∃ g ∈ got, g.av ≠ 0) :=
  if_congr (by simp) rfl rfl

theorem voteAll_eq (got : List CollArrival) (me : CollArrival) : collWord 1 got me = truth (∀ g ∈ got, g.av ≠ 0) :=
  if_congr (by simp) rfl rfl

theorem laneBit_getLsbD (lane : Nat) {l : Nat} (hl : l < 32) : (1#32 <<< lane).getLsbD l = (lane == l) := by
  rw [Bool.eq_iff_iff]
  simp [hl]
  omega

theorem ballot_getLsbD (got : List CollArrival) (p : CollArrival → Bool) {l : Nat} (hl : l < 32) :
    (ballot got p).getLsbD l = got.any (fun g => g.lane == l && p g) := by
  suffices onto : ∀ w : Word, (got.foldl (fun w g => if p g then w ||| (1#32 <<< g.lane) else w) w).getLsbD l
      = (w.getLsbD l || got.any (fun g => g.lane == l && p g)) by simpa [ballot] using onto 0
  induction got with
  | nil => simp
  | cons a t ih =>
    intro w
    rw [List.foldl_cons, ih, List.any_cons]
    cases p a
    · simp
    · simp only [if_true, BitVec.getLsbD_or, laneBit_getLsbD _ hl, Bool.and_true, Bool.or_assoc]

theorem nonZeroKind_eq (g : CollArrival) : nonZeroKind g = countsNonZero g := by
  rw [Bool.eq_iff_iff]
  unfold nonZeroKind countsNonZero
  split
  · simp
  · simp
  · simp [← BitVec.toNat_inj]

theorem foldl_max_eq {α : Type} (f : α → Nat) (xs : List α) : xs.foldl (fun m g => max m (f g)) 0 = (xs.map f).foldr max 0 := by
  rw [← List.foldl_eq_foldr, List.foldl_map]

theorem isect_eq (got : List CollArrival) (me : CollArrival) : isect got me = BitVec.ofNat 32 (intersects got me) := by
  unfold isect intersects
  simp only [foldl_max_eq, List.countP_eq_length_filter, List.any_eq_true, beq_iff_eq]
  congr 1
  ring_nf

/-! ## The matrix collective (R51, R146) -/

theorem wmmFmtOk_iff (f : Nat) : wmmFmtOk f = true ↔ WmmFormat f := by
  simp only [wmmFmtOk, WmmFormat, Bool.and_eq_true, bne_iff_ne, beq_iff_eq, and_assoc]
  rfl

/-- An absent member brings zeros. -/
theorem elemAt_brought (got : List CollArrival) (f : CollArrival → Word) (w j l : Nat) :
    ((got.find? (·.lane == l)).map (fun g => elemAt (f g) w j)).getD 0 = elemAt ((broughtAt got f l).getD 0) w j := by
  unfold broughtAt
  cases got.find? (·.lane == l)
  · simp [elemAt]
  · rfl

theorem wmmElem_eq (f : Nat) (got : List CollArrival) (r c old : Nat) : BitVec.ofNat 32 (wmmElem f got r c old) = wmmSum f got r c old := by
  simp only [wmmElem, wmmSum, groupAcc, elemAt_brought, mul_comm 4 r, mul_comm 4 c]
  rfl

theorem wmmPair_eq (f : Nat) (got : List CollArrival) (me : CollArrival) :
    wmmPair f got me = [wmmSum f got (me.lane / 4) (2 * (me.lane % 4)) (me.dv.toNat % 2 ^ 32),
      wmmSum f got (me.lane / 4) (2 * (me.lane % 4) + 1) (me.dv.toNat / 2 ^ 32)] := by
  simp only [wmmPair, wmmElem_eq]

theorem collEnd_wmm_diverge {got : List CollArrival} {me : CollArrival} (mem : me ∈ got) (differ : ∃ g ∈ got, g.fv ≠ me.fv) :
    collEnd 13 got = .diverge := by
  obtain ⟨g, gmem, ne⟩ := differ
  cases got with
  | nil => cases mem
  | cons g0 t =>
    have some_ : (g0 :: t).any (·.fv != g0.fv) = true := by
      by_contra none_
      have same : ∀ h ∈ g0 :: t, h.fv = g0.fv := by simpa using none_
      exact ne ((same g gmem).trans (same me mem).symm)
    simp only [collEnd, some_, if_true, if_neg (show (13 : Nat) ≠ 14 by decide)]

theorem collEnd_wmm_same {got : List CollArrival} {me : CollArrival} (mem : me ∈ got) (same : ∀ g ∈ got, g.fv = me.fv) :
    collEnd 13 got = if wmmFmtOk me.fv.toNat = true then .results (got.map (fun g => (g.lane, wmmPair me.fv.toNat got g))) else .badFormat := by
  cases got with
  | nil => cases mem
  | cons g0 t =>
    have head : g0.fv = me.fv := same g0 (by simp)
    have none_ : (g0 :: t).any (·.fv != me.fv) = false := by simpa using same
    cases ok : wmmFmtOk me.fv.toNat <;> simp [collEnd, head, none_, ok]

/-! ## The statement -/

/-- Settles O30, from what the tree and the scan give over the members in lane order. -/
theorem collectiveSums : Obligations.CollectiveSums := by
  intro got me distinct lanes mem
  have lane : me.lane < 32 := lanes me mem
  refine ⟨voteAny_eq got me, voteAll_eq got me, fun l hl => ballot_getLsbD got _ hl, (collWord_redAdd got me).trans (redAdd_sum distinct lanes),
    (collWord_scanAdd got lane).trans (scanAdd_sum distinct lane), redMin_least distinct lanes mem, redMax_greatest distinct lanes mem,
    (collWord_segscanAdd got lane).trans (segscanAdd_sum distinct lane), collWord_redFadd got me, collWord_scanFadd got lane,
    collWord_segscanFadd got lane, isect_eq got me, fun l hl => ?ballot, rfl, collEnd_wmm_diverge mem, fun same bad => ?refused, fun same ok => ?pairs⟩
  case ballot =>
    rw [show collWord 12 got me = ballot got nonZeroKind from rfl, ballot_getLsbD got _ hl, funext nonZeroKind_eq]
  case refused => rw [collEnd_wmm_same mem same, if_neg (mt (wmmFmtOk_iff _).1 bad)]
  case pairs =>
    rw [collEnd_wmm_same mem same, if_pos ((wmmFmtOk_iff _).2 ok)]
    simp only [wmmPair_eq]

end Sys2Proof.Laws
end

section
/-! PROOF. Words that a stream may not run, words that the specification writes out, and the entry of traps (R59, R66, R67, R89, R279,
R343 to R346, R349, R350). -/

namespace Sys2Proof.Laws

open Sys2Proof Sys2Proof.Machine Sys2Proof.Rules

/-! ## Words a stream may not run (R59, R67, R279) -/

theorem runQuiet_stream_stop {i : Ins} {s : State} (ha : s.actor = .stream) (h : streamOk i = false) (bad : State → State)
    (f : Opnds → State → State) : runQuiet i bad f s = .next (stopStream 2 s) := by
  simp only [runQuiet, ha, streamStep, h, Bool.false_eq_true, if_false, stopIllegal]

theorem runFloat_stream_stop {i : Ins} {s : State} (ha : s.actor = .stream) (h : streamOk i = false) (f : Opnds → State → State) :
    runFloat i f s = .next (stopStream 2 s) := by
  simp only [runFloat, ha, streamStep, h, Bool.false_eq_true, if_false, stopIllegal]

theorem csrRun_stream_stop {i : Ins} {s : State} (ha : s.actor = .stream) (h : streamOk i = false) (n : BitVec 14) (isWrite : Bool)
    (f : Opnds → State → State) : csrRun i n isWrite f s = .next (stopStream 2 s) := by
  rw [csrRun, decide_eq_true ha, Bool.true_or, if_pos rfl]
  exact run_stream_stop ha h

/-- The cases are grouped by the operation that runs the instruction: the floating-point words, those that take no POISON, those of special
registers, the steps of other units, which are no words of the core, and in the last group the other words, which `run` runs. -/
theorem exec_stream_stop (i : Instr) {s : State} (core : i.onCore = true) (ha : s.actor = .stream) (h : streamOk i.ins = false) :
    exec i s = .next (stopStream 2 s) := by
  cases i with
  | faddS | fsubS | fmulS | fminS | fmaxS | fdivS | fsqrtS | frcpS | fabsS | fnegS | feqS | fltS | fleS | funS | fmaS | fnmaS | faddD
  | fsubD | fmulD | fminD | fmaxD | fdivD | fsqrtD | frcpD | fabsD | fnegD | feqD | fltD | fleD | funD | fmaD | fnmaD | faddH2 | fsubH2
  | fmulH2 | fminH2 | fmaxH2 | fdivH2 | fsqrtH2 | frcpH2 | fabsH2 | fnegH2 | feqH2 | fltH2 | fleH2 | funH2 | fmaH2 | fnmaH2 | faddB2
  | fsubB2 | fmulB2 | fminB2 | fmaxB2 | fdivB2 | fsqrtB2 | frcpB2 | fabsB2 | fnegB2 | feqB2 | fltB2 | fleB2 | funB2 | fmaB2 | fnmaB2
  | fexp2 | flog2 | fsin | fcos | frsq | ftanh | cvt | cvtp | cvtq | fclass | fscl => exact runFloat_stream_stop ha h _
  | watch | unwatch | wgrow | wshrink | poolReq | poolRel | poolMap | poolOcc | tstate | tmark | pref =>
    exact runQuiet_stream_stop ha h _ _
  | csrr | csrw => exact csrRun_stream_stop ha h _ _ _
  | pfxWord | kwaitEq | kwaitNe | kwaitGeu | kwaitReread | registerResultWrite | yieldExpiry | readyAgeMark | trapEntry | formerWarpRelease
  | formerPartialTimeout | blockStart | queuePull | queueMoveComplete | wqRingRefill | treeComplete | launch | wait | signal | join | cond
  | patch | doorbell | kick | mapQueue | unmapCtx | clearError | preempt | resume | regGraph | inval | copy | checkpoint | restore | badcmd
  | irqmask | pwrcap | registerWrite | hostApertureRead | hostApertureWrite | attest | cert | timeSet | domainSet | grantRange | revokeRange
  | setExportWindow | unfreezeResume | unfreezeReset | fwLoad | mailboxBadop | fwVerify | moduleReset | trainComplete | thermalPreempt
  | thermalPowerOff | powerCapAdjust | timeMessage | timeSyncLoss | heartbeat | heartbeatTimeout | flitCrcFail | unreachableCompletion
  | remoteRequest | writeCommit | fwaitRetry | writeAck | fillRequest | fillReply | atomicAtHome | mcastRequest | mcastWindowClose
  | mcastSlotFree | releasePoint | icinvComplete | flushComplete | csrwInForce | watchComplete | unwatchComplete | triggerRefill | trigOverflow
  | triggerDispatch | cWritebackDone | relocationComplete | wgrowGrant | wshrinkComplete | poolRelComplete | passGrant | passEnd | engineRelease
  | tileFetch | copyOpStart | copyOpComplete | fgetDecode | fgetbComplete | faultRecordWrite | faultResponse | faultQueueReread | eccRetry
  | walkerGrant | walkComplete | planeSwap | swapEnd | saveComplete | restoreStart | restoreComplete | engineImageRestore | checkpointQuiesce
  | quiesced | checkpointAbandon | checkpointClose | restoreReadbackDone | instructionFetchFill | reservedMajor | irqstatClear | ctxerrClear
  | bringUpStart | pldmRequest => exact absurd core Bool.false_ne_true
  | _ => exact run_stream_stop ha h

/-- Settles O5, by the operation that runs each word. -/
theorem streamsStopOnOtherWords : Obligations.StreamsStopOnOtherWords := fun i _ core ha h => exec_stream_stop i core ha h

/-! ## Words that the specification writes out -/

theorem decode_of_encode {i : Instr} {ws : List Word} (words : encode i = ws) (legal : i.wf = true) : decode ws = some i :=
  words ▸ decodeEncodeAgree i legal

/-- Settles O54: each word written out is the encoding of its instruction, which decoding gives back; 0 has a reserved major. -/
theorem encodedWords : Obligations.EncodedWords :=
  ⟨decode_of_encode rfl rfl, decode_of_encode rfl rfl, decode_of_encode rfl rfl, decode_of_encode rfl rfl, decode_of_encode rfl rfl,
    decode_of_encode rfl rfl, decode_of_encode rfl rfl, decode_of_encode rfl rfl, decode_of_encode rfl rfl, decode_of_encode rfl rfl,
    decode_of_encode rfl rfl, decode_of_encode rfl rfl, decode_of_encode rfl rfl, decode_of_encode rfl rfl, decode_of_encode rfl rfl,
    decode_of_encode rfl rfl, decode_of_encode rfl rfl, decode_of_encode rfl rfl, decode_of_encode rfl rfl, decode_of_encode rfl rfl,
    decode_of_encode rfl rfl, rfl⟩

/-! ## Results that are written at a trap (R29, R346) -/

/-- A thread whose first outstanding result is ready completes it. -/
theorem complete_first {t : Thread} {r : Result 32} {rest : List (Result 32)} (pend : t.pend = r :: rest) (ready : r.ready = true) :
    t.complete (fun _ => true) = wrote t r rest := by
  have first : takeResult (fun _ => true) [] (r :: rest) = some (r, rest) :=
    takeResult_of_mayWrite (before := []) (fun _ h => nomatch h) rfl ready rfl
  unfold Thread.complete
  rw [pend, first]
  exact settle_eq _

/-- A thread that has written the results `l` and has none outstanding; what its captures and its wait under S become is that of `u`. -/
def wroteAll (t : Thread) (l : List (Result 32)) (u : Thread) : Thread :=
  { t with
    pend := [], regs := l.foldl (fun r x => stSetAll 0 r x.regs) t.regs
    poisoned := t.poisoned.filter (fun p => !l.any (fun r => r.regs.any (·.1 == p))), tcap := u.tcap, occCap := u.occCap, park := u.park }

theorem wroteAll_nil {t : Thread} (pend : t.pend = []) : wroteAll t [] t = t := by
  cases t
  simp only at pend
  simp [wroteAll, pend]

theorem wroteAll_cons (t u : Thread) (r : Result 32) (rest : List (Result 32)) : wroteAll (wrote t r rest) rest u = wroteAll t (r :: rest) u := by
  simp [wroteAll, wrote, List.filter_filter, Bool.and_comm]

theorem completeN_wroteAll (l : List (Result 32)) (ready : ∀ r ∈ l, r.ready = true) (t : Thread) (pend : t.pend = l) :
    let u := t.completeN (fun _ => true) l.length
    u = wroteAll t l u := by
  induction l generalizing t with
  | nil => exact (wroteAll_nil pend).symm
  | cons r rest ih =>
    obtain ⟨first, others⟩ := List.forall_mem_cons.1 ready
    simp only [List.length_cons, Thread.completeN, complete_first pend first]
    exact (ih others (wrote t r rest) rfl).trans (wroteAll_cons ..)

theorem completeAll_wroteAll {t : Thread} (ready : t.allReady = true) : t.completeAll = wroteAll t t.pend t.completeAll :=
  completeN_wroteAll t.pend (List.all_eq_true.1 ready) t rfl

/-! ## Traps that cannot enter a handler (R343, R349, R350) -/

@[simp] theorem completeAll_pc (t : Thread) : t.completeAll.pc = t.pc :=
  completeAll_keeps (·.pc) (fun _ _ _ => by simp only [settle_eq, Thread.write]) t

/-- A thread in its handler is killed at its instruction. -/
theorem raise_of_inside {t : Trap} {s : State} (ready : s.th.allReady = true) (inside : s.th.inh = true) :
    raise t s = killThread 32 (pc64 s.th.pc) { s with th := s.th.completeAll } := by
  have at_ : causePc t (trapPc t s) (s.updTh Thread.completeAll) = pc64 s.th.pc := by
    unfold causePc trapPc
    split
    · exact congrArg pc64 (completeAll_pc s.th)
    · rfl
  have inside' : (s.updTh Thread.completeAll).th.inh = true := (completeAll_inh s.th).trans inside
  rw [raise, raiseAt, if_pos ready, enterTrap]
  simp only [inside', at_, if_true]
  rfl

/-- A thread with no handler is killed with the address that the trap would save. -/
theorem raise_of_noVector {t : Trap} {s : State} (ready : s.th.allReady = true) (out : s.th.inh = false) (none_ : s.curCtx.hvec = 0) :
    raise t s = killThread 33 (trapPc t s) { s with th := s.th.completeAll } := by
  have out' : (s.updTh Thread.completeAll).th.inh = false := (completeAll_inh s.th).trans out
  have none' : (s.updTh Thread.completeAll).curCtx.hvec = 0 := none_
  rw [raise, raiseAt, if_pos ready, enterTrap]
  simp only [out', none', Bool.false_eq_true, if_false, if_true]
  rfl

theorem raise_of_canTrap {t : Trap} {s : State} (can : CanTrap s) :
    raise t s = inHandler (causeCode t.cause) (trapPc t s) t.addr t.info s := by
  rw [raise, raiseAt, if_pos can.1]
  exact enterTrap_eq can

theorem raise_of_waiting {t : Trap} {s : State} (waits : s.th.allReady = false) :
    raise t s = { s with th := { s.th with park := .trap t (trapPc t s) false, smark := false } } := by
  rw [raise, raiseAt, if_neg (by simp [waits])]
  rfl

theorem trapPc_of_ne {t : Trap} (h : t.cause ≠ .swTrap) (s : State) : trapPc t s = pc64 s.th.pc := if_neg h

/-- The table of the statements is that of the model. -/
theorem causeCode_of_mem {c : Cause} {n : Nat} (h : (c, n) ∈ causeTable) : causeCode c = n := by
  have all : ∀ x ∈ causeTable, causeCode x.1 = x.2 := by decide
  exact all _ h

/-! ## Software traps and illegal words (R60, R66, R89) -/

/-- The words that trap raise the trap of their rule. -/
theorem exec_of_trapRule {i : Instr} {c : Nat} {info : Word} {d : PC} {s : State} (h : TrapsNow i s) (rule : trapRule i = some (c, info, d)) :
    ∃ t : Trap, exec i s = .next (raise t s) ∧ causeCode t.cause = c ∧ t.addr = 0 ∧ t.info = info ∧ trapPc t s = pc64 (s.th.pc + d) := by
  obtain ⟨ha, passes⟩ := h
  have here : pc64 s.th.pc = pc64 (s.th.pc + 0) := by simp
  cases i with
  | trap sw n =>
    obtain ⟨rfl, rfl, rfl⟩ : 11 = c ∧ n.zeroExtend 32 = info ∧ 4 = d := by simpa [trapRule] using rule
    exact ⟨_, run_thread ha (passes rfl), rfl, rfl, rfl, rfl⟩
  | brk sw n =>
    obtain ⟨rfl, rfl, rfl⟩ : 12 = c ∧ n.zeroExtend 32 = info ∧ 0 = d := by simpa [trapRule] using rule
    exact ⟨_, run_thread ha (passes rfl), rfl, rfl, rfl, here⟩
  | reservedMajor w =>
    obtain ⟨rfl, rfl, rfl⟩ : 1 = c ∧ w = info ∧ 0 = d := by simpa [trapRule] using rule
    exact ⟨_, run_thread ha rfl, rfl, rfl, rfl, here⟩
  | pfxWord p w =>
    obtain ⟨rfl, rfl, rfl⟩ : 1 = c ∧ pairFault p w = info ∧ 0 = d := by simpa [trapRule] using rule
    exact ⟨_, run_thread ha rfl, rfl, rfl, rfl, here⟩
  | _ => nomatch rule

/-- Settles O8, from what `raise` does in each state and from the trap of each word. -/
theorem trapsEnterTheHandler : Obligations.TrapsEnterTheHandler := by
  refine ⟨fun i c info d s traps rule can => ?enters, fun i c info d s traps rule ready => ?kills, fun t s other => ⟨fun n code can => ?raises,
    fun ready inside => raise_of_inside ready inside, fun ready out none_ => ?noVector, fun waits => ?held⟩,
    fun t ready => completeAll_wroteAll ready, fun code c detail s ctx pending => ?kill⟩
  case enters =>
    obtain ⟨t, runs, rfl, addr, rfl, saved⟩ := exec_of_trapRule traps rule
    rw [runs, raise_of_canTrap can, saved, addr]
  case kills =>
    obtain ⟨t, runs, -, -, -, saved⟩ := exec_of_trapRule traps rule
    rw [runs, ← saved]
    exact ⟨fun inside => congrArg _ (raise_of_inside ready inside), fun out none_ => congrArg _ (raise_of_noVector ready out none_)⟩
  case raises => rw [raise_of_canTrap can, causeCode_of_mem code, trapPc_of_ne other]
  case noVector => rw [raise_of_noVector ready out none_, trapPc_of_ne other]
  case held => rw [raise_of_waiting waits, trapPc_of_ne other]
  case kill => simp only [killThread, ctx, pending, reportDeferred]

end Sys2Proof.Laws
end

section
/-! PROOF. Integer results of streams, comparisons and the window base (R79, R82, R83, R91, R277). -/

namespace Sys2Proof.Laws

open Sys2Proof Sys2Proof.Machine Sys2Proof.Rules

/-! ## Integer results of streams (R79, R277) -/

/-- A stream that may run the word gets the result of its rule. -/
theorem exec_stream_of_gives {i : Instr} {r : ResultRule} {s : State} (g : Gives i r) (h : Streams i s) :
    exec i s = .next (afterResultS r i.ins s) :=
  (g s).trans ((run_stream h.1 h.2).trans (congrArg _ (resultS_eq ..)))

/-- Settles O2, by the rule of each instruction. -/
theorem integerResultsOfStreams : Obligations.IntegerResultsOfStreams := by
  rintro i r s (rule | rule) h
  · exact exec_stream_of_gives (gives_of_integerRule rule) h
  · exact exec_stream_of_gives (gives_of_pairRule rule) h

/-! ## Comparisons (R82) -/

theorem exec_comparison {i : Instr} {rel : (n : Nat) → BitVec n → BitVec n → Prop} [∀ n x y, Decidable (rel n x y)] {s : State}
    (rule : integerRule i = some (single fun n _ x y => truth (rel n x y))) (h : Executes i s) :
    exec i s = .next (finishWith i.ins (targets (operands i.ins s)
      [if decide (rel 32 (wordOf (operands i.ins s).a) (wordOf (operands i.ins s).b)) = true then 1 else 0]) 4 (some 4) true s) := by
  rw [exec_thread_of_gives (gives_of_integerRule rule) h]
  simp only [decide_eq_true_eq]
  rfl

/-- Settles O51, by the rule of each comparison. -/
theorem comparisonsWriteOneOrZero : Obligations.ComparisonsWriteOneOrZero := by
  intro i sw d a b p f rel mem
  simp only [List.mem_cons, Prod.mk.injEq, List.not_mem_nil, or_false] at mem
  rcases mem with ⟨rfl, rfl, rfl⟩ | ⟨rfl, rfl, rfl⟩ | ⟨rfl, rfl, rfl⟩ | ⟨rfl, rfl, rfl⟩ | ⟨rfl, rfl, rfl⟩ | ⟨rfl, rfl, rfl⟩
  case inl => exact ⟨rfl, fun s h => exec_comparison (rel := fun _ x y => x = y) rfl h⟩
  case inr.inl => exact ⟨rfl, fun s h => exec_comparison (rel := fun _ x y => x ≠ y) rfl h⟩
  case inr.inr.inl => exact ⟨rfl, fun s h => exec_comparison (rel := fun _ x y => x.toInt < y.toInt) rfl h⟩
  case inr.inr.inr.inl => exact ⟨rfl, fun s h => exec_comparison (rel := fun _ x y => x.toInt ≤ y.toInt) rfl h⟩
  case inr.inr.inr.inr.inl => exact ⟨rfl, fun s h => exec_comparison (rel := fun _ x y => x.toNat < y.toNat) rfl h⟩
  case inr.inr.inr.inr.inr => exact ⟨rfl, fun s h => exec_comparison (rel := fun _ x y => x.toNat ≤ y.toNat) rfl h⟩

/-! ## The window base (R91) -/

theorem encodeWord_wbase (a : BitVec 7) : encodeWord (.wbase false a) = 0x2C000002 + (a.zeroExtend 32 <<< 11) := by
  revert a
  decide

theorem exec_wbase {sw : Bool} {a : BitVec 7} {s : State} (h : Executes (.wbase sw a) s) :
    exec (.wbase sw a) s = .next (wbaseOp (Instr.wbase sw a).ins (operands (Instr.wbase sw a).ins s) s) :=
  runThread_of_executes h _

theorem getLsbD_zero_eq_false_iff (v : Word) : v.getLsbD 0 = false ↔ v.toNat % 2 = 0 := by
  simp only [BitVec.getLsbD, Nat.testBit_zero, decide_eq_false_iff_not]
  omega

/-- A capture writes no register. -/
theorem captures_regs {i : Ins} {s : State} {tag : Nat} : ∀ r ∈ captures i s tag, r.regs = [] := by
  unfold captures
  split
  · simp
  · simp

/-- The register that a destination field names, or none for the discard register and for a source. -/
theorem addUse_pd {s : State} {p : BitVec 25} {o : Opnds} {u : Use} (slot : u.slot = .d) (reg : u.f.toNat ≤ 95) :
    (addUse s p o u).pd = if u.role = .src then none else some (physOf s.th.wb s.warp.wi p u) := by
  have lt : ¬ u.f.toNat ≥ 96 := by omega
  simp only [addUse, slot, lt, or_false]

/-- Settles O52, from the meaning of `wbase` and from the index that a register field names. -/
theorem windowBase : Obligations.WindowBase := by
  refine fun sw a => ⟨encodeWord_wbase a, fun s h => ⟨fun bad => ?refused, fun even small => ⟨?sets, rfl, ?results, fun w j u o wb mem reg => ?used⟩⟩⟩
  case refused =>
    rw [exec_wbase h, wbaseOp_eq, if_neg]
    rintro ⟨even, small⟩
    rcases bad with odd | big
    · rw [(getLsbD_zero_eq_false_iff _).2 even] at odd
      cases odd
    · omega
  case sets => rw [exec_wbase h, wbaseOp_eq, if_pos ⟨(getLsbD_zero_eq_false_iff _).1 even, small⟩]
  case results => exact ⟨_, rfl, captures_regs⟩
  case used =>
    dsimp only
    rw [← wb]
    exact ⟨fun x from_ => readUse_reg from_ reg, fun slot => addUse_pd slot reg⟩

end Sys2Proof.Laws
end

section
/-! PROOF. The state after module reset (R99, R181, R211, R386, R393, R394, R408, R409). -/

namespace Sys2Proof.Laws

open Sys2Proof Sys2Proof.Machine Sys2Proof.Rules

/-- Banks 30 and 31 are the floor of the cache; the others are free. -/
theorem reset_bankRole : ∀ k < 32, (bankOf State.reset.pl.pmap k).role = if k = 30 ∨ k = 31 then .cache else .free := by decide

/-- Settles O56: each field is the one that the state after reset was given. -/
theorem resetHolds : Obligations.ResetHolds :=
  ⟨rfl, rfl, rfl, rfl, rfl, rfl, rfl, reset_bankRole, rfl, fun _ => rfl, rfl, rfl, rfl, rfl, rfl, rfl, rfl, rfl, rfl, rfl, rfl, fun _ => rfl⟩

end Sys2Proof.Laws
end

section
/-! PROOF. Stores and atomics that leave for the L1 or the home, and ranges (R94, R95, R97, R98, R215, R216, R219, R232, R234 to R238, R246). -/

namespace Sys2Proof.Laws

open Sys2Proof Sys2Proof.Machine Sys2Proof.Rules

/-! ## Stores (R94, R215, R219) -/

/-- Settles O19, by the path of a store past its checks. -/
theorem storesLeaveTheThread : Obligations.StoresLeaveTheThread := fun _ _ _ _ _ form hx ok hit =>
  (exec_store form hx).trans (congrArg _ (storeG_ok ok hit))

/-! ## Global atomics (R234 to R238) -/

theorem atomicForm_elim (i : Instr) : (atomicForm i).elim True (fun f => ∀ s, exec i s = runThread i.ins (atomicG i.ins f) s) := by
  cases i with
  | amoAdd | amoAnd | amoOr | amoXor | amoMin | amoMax | amoMinn | amoMaxn | amoSwap | amoCas | amoFadd | amoAddb2 | amoAddh2 | amoAdd64
  | amoCas64 | amoInc => exact fun _ => rfl
  | _ => exact trivial

theorem exec_atomic {i : Instr} {f : Nat} {s : State} (form : atomicForm i = some f) (hx : Executes i s) :
    exec i s = .next (atomicG i.ins f (operands i.ins s) s) := by
  have e := atomicForm_elim i
  rw [form] at e
  exact (e s).trans (runThread_of_executes hx _)

/-- The result that an atomic waits for, and the step that leaves or waits. -/
theorem amoStep_eq (f : Nat) (va : DWord) (h : Nat) (o : Opnds) (lat : Nat) (s : State) :
    amoStep f va h o lat s = (atomicStep f va h o s, withBlank (blanks o (if atomicBytes f = 8 then 2 else 1)) lat s) := by
  rw [amoStep, destRegs_eq]
  rfl

/-- An atomic past its checks that the core translates, at a location that is not poisoned. -/
theorem atomicG_ok {i : Ins} {f : Nat} {o : Opnds} {s : State} {e : TlbEnt} (ok : AddressOk (dwordOf o.a) (atomicBytes f))
    (hit : tlbHit s.xl.coreTlb s.ctxNo (dwordOf o.a).toNat .atomic = some e)
    (clean : isX (e.home (dwordOf o.a).toNat) = false → isPoisoned s (e.home (dwordOf o.a).toNat) (atomicBytes f) = false) :
    let h := e.home (dwordOf o.a).toNat
    let k := atomicStep f (dwordOf o.a) h o s
    let u := withBlank (blanks o (if atomicBytes f = 8 then 2 else 1)) 40 s
    atomicG i f o s = goesOrWaits (memOrd i.p) i s.nextId
      (if (memOrd i.p).rel || lineHeld s (spaceOf h) h then queues { queuedOf s (memOrd i.p) [] with atom := some k } u
        else sendAtomic k s.th.depth s.bundleNo s.ctxNo u) := by
  have good : ¬ (!isX (e.home (dwordOf o.a).toNat) && isPoisoned s (e.home (dwordOf o.a).toNat) (amoSize f)) = true := by
    rw [Bool.and_eq_true, Bool.not_eq_true']
    exact fun bad => absurd bad.2 (by rw [show isPoisoned s _ (amoSize f) = false from clean bad.1]; decide)
  have pass : globalFail (dwordOf o.a) (amoSize f) = none := globalFail_ok ok
  simp only [atomicG, pass, withHome_core hit, if_neg good, amoStep_eq, goOrAcquire_eq]
  rfl

/-- Settles O23, by the path of an atomic past its checks. -/
theorem atomicsLeaveForTheHome : Obligations.AtomicsLeaveForTheHome := fun _ _ _ _ form hx ok hit clean =>
  (exec_atomic form hx).trans (congrArg _ (atomicG_ok ok hit clean))

/-! ## Ranges (R98, R246) -/

theorem exec_flush {sw : Bool} {a b : BitVec 7} {s : State} (h : Executes (.flush sw a b) s) :
    exec (.flush sw a b) s = .next (flushRange (Instr.flush sw a b).ins (operands (Instr.flush sw a b).ins s) s) :=
  runThread_of_executes h _

theorem exec_icinv {sw : Bool} {a b : BitVec 7} {s : State} (h : Executes (.icinv sw a b) s) :
    exec (.icinv sw a b) s = .next (icinvRange (Instr.icinv sw a b).ins (operands (Instr.icinv sw a b).ins s) s) :=
  runThread_of_executes h _

theorem lastByte_eq (base : DWord) (len : Nat) : base + BitVec.ofNat 64 len - 1 = lastByte base len := by
  apply BitVec.eq_of_toInt_eq
  rw [lastByte, BitVec.toInt_sub, BitVec.toInt_add, BitVec.toInt_ofInt, ← BitVec.ofInt_natCast, BitVec.toInt_ofInt, Int.add_bmod_bmod,
    Int.bmod_sub_bmod]
  rfl

section

variable {i : Ins} {o : Opnds} {s : State} (k : Nat → Nat → State → State)

theorem rangeOp_empty (none_ : (wordOf o.b).toNat = 0) : rangeOp i o k s = steps i s := by
  simp only [rangeOp, none_, if_true, finish_eq]

theorem rangeOp_base (some_ : (wordOf o.b).toNat ≠ 0) (bad : canonical (dwordOf o.a) = false) :
    rangeOp i o k s = raise { cause := .addrCanon, addr := dwordOf o.a } s := by
  simp only [rangeOp, if_neg some_, bad, Bool.not_false, if_true]

theorem rangeOp_last (some_ : (wordOf o.b).toNat ≠ 0) (canon : canonical (dwordOf o.a) = true)
    (bad : canonical (lastByte (dwordOf o.a) (wordOf o.b).toNat) = false) :
    rangeOp i o k s = raise { cause := .addrCanon, addr := lastByte (dwordOf o.a) (wordOf o.b).toNat } s := by
  simp only [rangeOp, lastByte_eq, if_neg some_, canon, bad, Bool.not_false, Bool.not_true, Bool.false_eq_true, if_true, if_false]

theorem rangeOp_ok (some_ : (wordOf o.b).toNat ≠ 0) (canon : canonical (dwordOf o.a) = true)
    (canon' : canonical (lastByte (dwordOf o.a) (wordOf o.b).toNat) = true) : rangeOp i o k s = k (dwordOf o.a).toNat (wordOf o.b).toNat s := by
  simp only [rangeOp, lastByte_eq, if_neg some_, canon, canon', Bool.not_true, Bool.false_eq_true, if_false]

end

theorem afterOwn_waits {k : State → State} {s : State} (own : ownQueue s s.th.uid ≠ []) :
    afterOwn k s = { s with th := { s.th with park := .storeWait } } := by
  rw [afterOwn, if_neg (by simpa using own)]
  rfl

theorem afterOwn_goes {k : State → State} {s : State} (own : ownQueue s s.th.uid = []) : afterOwn k s = k s := by
  rw [afterOwn, own]
  rfl

theorem withPages_found {pages : List Nat} {k : List (Nat × Option Nat) → State → State} {s : State} (found : (findPages s.ctxNo pages s).1 = none) :
    withPages pages k s = k (findPages s.ctxNo pages s).2.th.found (findPages s.ctxNo pages s).2 := by
  unfold withPages
  split
  · next e => rw [e]
  · next e => simp [e] at found

theorem findPages_ctxNo (c : Nat) (pages : List Nat) (s : State) : (findPages c pages s).2.ctxNo = s.ctxNo := by
  induction pages generalizing s with
  | nil => rfl
  | cons p t ih =>
    have found : (pageFound c p s).2.ctxNo = s.ctxNo := by
      unfold pageFound
      split
      · rfl
      · split
        · rfl
        · split <;> rfl
    rw [findPages]
    split
    · exact ih s
    · split
      · next e => exact (ih _).trans (by rw [← found, e]; rfl)
      · next e => rw [← found, e]

theorem withPages_walks {pages : List Nat} {k : List (Nat × Option Nat) → State → State} {s u : State} {p : Nat}
    (miss : findPages s.ctxNo pages s = (some p, u)) :
    withPages pages k s = { wantWalk s.ctxNo (p * 4096) .read u with th := { u.th with park := .pages p } } := by
  have same : u.ctxNo = s.ctxNo := by rw [← findPages_ctxNo s.ctxNo pages s, miss]
  simp only [withPages, miss, same, State.updTh, wantWalk_th]

/-- What both range instructions run on a thread: the range's checks, then the wait for its own stores and for its pages. -/
def RangeRuns (i : Instr) (s : State) (k : Nat → Nat → List (Nat × Option Nat) → State → State) : Prop :=
  exec i s = .next (rangeOp i.ins (operands i.ins s) (fun base len => afterOwn (withPages (rangePages base len) (k base len))) s)

/-- Where a range instruction waits or traps before its pages are found. -/
theorem range_before {i : Instr} {s : State} {k : Nat → Nat → List (Nat × Option Nat) → State → State} (runs : RangeRuns i s k) :
    let o := operands i.ins s
    let base := dwordOf o.a
    let len := (wordOf o.b).toNat
    let last := lastByte base len
    let own := ownQueue s s.th.uid
    (len = 0 → exec i s = .next (steps i.ins s))
    ∧ (len ≠ 0 → canonical base = true → canonical last = true → own ≠ [] → exec i s = .next { s with th := { s.th with park := .storeWait } })
    ∧ (len ≠ 0 → canonical base = false → exec i s = .next (raise { cause := .addrCanon, addr := base } s))
    ∧ (len ≠ 0 → canonical base = true → canonical last = false → exec i s = .next (raise { cause := .addrCanon, addr := last } s))
    ∧ (len ≠ 0 → canonical base = true → canonical last = true → own = [] → (findPages s.ctxNo (rangePages base.toNat len) s).1 = none →
      exec i s = .next (k base.toNat len (findPages s.ctxNo (rangePages base.toNat len) s).2.th.found (findPages s.ctxNo (rangePages base.toNat len) s).2))
    ∧ (len ≠ 0 → canonical base = true → canonical last = true → own = [] → ∀ p u, findPages s.ctxNo (rangePages base.toNat len) s = (some p, u) →
      exec i s = .next { wantWalk s.ctxNo (p * 4096) .read u with th := { u.th with park := .pages p } }) := by
  unfold RangeRuns at runs
  rw [runs]
  refine ⟨fun none_ => ?_, fun some_ c c' own => ?_, fun some_ c => ?_, fun some_ c c' => ?_, fun some_ c c' own found => ?_, fun some_ c c' own p u miss => ?_⟩
  · rw [rangeOp_empty _ none_]
  · rw [rangeOp_ok _ some_ c c', afterOwn_waits own]
  · rw [rangeOp_base _ some_ c]
  · rw [rangeOp_last _ some_ c c']
  · rw [rangeOp_ok _ some_ c c', afterOwn_goes own, withPages_found found]
  · rw [rangeOp_ok _ some_ c c', afterOwn_goes own, withPages_walks miss]

/-- Settles O26, by the checks of a range and the pages found. -/
theorem rangesFlushAndInvalidate : Obligations.RangesFlushAndInvalidate := by
  rintro i sw a b s (rfl | rfl) hx
  case inl =>
    obtain ⟨empty, waits, base, last, found, walks⟩ := range_before (exec_flush hx)
    refine ⟨empty, waits, base, last, fun some_ c c' own _ none_ => (found some_ c c' own none_).trans (congrArg _ (hold_eq ..)), fun _ _ _ _ other => (nomatch other), walks⟩
  case inr =>
    obtain ⟨empty, waits, base, last, found, walks⟩ := range_before (exec_icinv hx)
    refine ⟨empty, waits, base, last, fun _ _ _ _ other => (nomatch other), fun some_ c c' own _ none_ => (found some_ c c' own none_).trans (congrArg _ (hold_eq ..)),
      walks⟩

end Sys2Proof.Laws
end

section
/-! PROOF. Scratch accesses and what an atomic writes (R94, R95, R184, R219, R234 to R237, Table 11-2). -/

namespace Sys2Proof.Laws

open Sys2Proof Sys2Proof.Machine Sys2Proof.Rules

/-! ## What an atomic writes (Table 11-2) -/

theorem leBytes_mod (v n : Nat) : leBytes (v % 256 ^ n) n = leBytes v n := by
  induction n generalizing v with
  | zero => rfl
  | succ n ih =>
    have low : v % 256 ^ (n + 1) % 256 = v % 256 := by rw [Nat.pow_succ, Nat.mod_mul_left_mod]
    have high : v % 256 ^ (n + 1) / 256 = v / 256 % 256 ^ n := by rw [Nat.pow_succ, Nat.mul_comm, Nat.mod_mul_right_div_self]
    have byte : BitVec.ofNat 8 (v % 256 ^ (n + 1)) = BitVec.ofNat 8 v := BitVec.eq_of_toNat_eq (by rw [BitVec.toNat_ofNat, BitVec.toNat_ofNat]; exact low)
    rw [leBytes, leBytes, byte, high, ih]

/-- The model's table and that of the statements write the same bytes. -/
def WritesAs (f : Nat) (x : Option DWord) (y : Option Nat) : Prop :=
  x.map (fun v => leBytes v.toNat (atomicBytes f)) = y.map (fun v => leBytes v (atomicBytes f))

theorem writesAs_word {f : Nat} (four : atomicBytes f = 4) {w : Word} {v : Nat} (h : w.toNat = v % 2 ^ 32) :
    WritesAs f (some (w.zeroExtend 64)) (some v) := by
  rw [WritesAs, Option.map_some, Option.map_some, four, toNat_zeroExtend, h]
  exact congrArg some (leBytes_mod v 4)

theorem low_toNat (v : DWord) : (v.truncate 32).toNat = v.toNat % 2 ^ 32 := BitVec.toNat_setWidth ..

theorem writesAs_low {f : Nat} (four : atomicBytes f = 4) (v : DWord) : WritesAs f (some ((v.truncate 32).zeroExtend 64)) (some (v.toNat % 2 ^ 32)) :=
  writesAs_word four (by rw [low_toNat, Nat.mod_mod])

/-- One of two words, by conditions that agree. -/
theorem writesAs_choice {f : Nat} (four : atomicBytes f = 4) {x y : DWord} {c c' : Prop} [Decidable c] [Decidable c'] (h : c ↔ c') :
    WritesAs f (some ((if c then x.truncate 32 else y.truncate 32).zeroExtend 64)) (some (if c' then x.toNat % 2 ^ 32 else y.toNat % 2 ^ 32)) := by
  by_cases hc : c
  · rw [if_pos hc, if_pos (h.1 hc)]
    exact writesAs_low four x
  · rw [if_neg hc, if_neg (mt h.2 hc)]
    exact writesAs_low four y

/-- A write that a compare makes. -/
theorem writesAs_ite {f : Nat} {x : DWord} {y : Nat} {c c' : Prop} [Decidable c] [Decidable c'] (h : c ↔ c') (w : WritesAs f (some x) (some y)) :
    WritesAs f (if c then some x else none) (if c' then some y else none) := by
  by_cases hc : c
  · rwa [if_pos hc, if_pos (h.1 hc)]
  · rw [if_neg hc, if_neg (mt h.2 hc)]
    rfl

theorem toNat_ofNat_32 (n : Nat) : (BitVec.ofNat 32 n).toNat = n % 2 ^ 32 := BitVec.toNat_ofNat ..

/-- The rows of Table 11-2. -/
theorem amoNew_writes {f : Nat} (row : f ≤ 15) (old b d : DWord) : WritesAs f (amoNew f old b d) (atomicNew f old b d) := by
  match f, row with
  | 0, _ => exact writesAs_word rfl (by rw [BitVec.toNat_add, low_toNat, low_toNat, Nat.mod_mod])
  | 1, _ => exact writesAs_word rfl (by rw [BitVec.toNat_and, low_toNat, low_toNat, Nat.and_mod_two_pow, Nat.mod_mod, Nat.mod_mod])
  | 2, _ => exact writesAs_word rfl (by rw [BitVec.toNat_or, low_toNat, low_toNat, Nat.or_mod_two_pow, Nat.mod_mod, Nat.mod_mod])
  | 3, _ => exact writesAs_word rfl (by rw [BitVec.toNat_xor, low_toNat, low_toNat, Nat.xor_mod_two_pow, Nat.mod_mod, Nat.mod_mod])
  | 4, _ => exact writesAs_choice rfl (by rfl)
  | 5, _ => exact writesAs_choice rfl (by rfl)
  | 6, _ =>
    rw [atomicNew, Nat.min_def]
    exact writesAs_choice rfl (by rw [low_toNat, low_toNat])
  | 7, _ =>
    rw [atomicNew, Nat.max_comm, Nat.max_def]
    exact writesAs_choice rfl (by rw [low_toNat, low_toNat])
  | 8, _ => exact writesAs_low rfl b
  | 9, _ =>
    have same : old.truncate 32 = d.truncate 32 ↔ old.toNat % 2 ^ 32 = d.toNat % 2 ^ 32 := by rw [← BitVec.toNat_inj, low_toNat, low_toNat]
    exact writesAs_ite same (writesAs_low rfl b)
  | 10, _ => exact writesAs_word rfl (toNat_ofNat_32 _)
  | 11, _ => exact writesAs_word rfl (toNat_ofNat_32 _)
  | 12, _ => exact writesAs_word rfl (toNat_ofNat_32 _)
  | 13, _ => exact congrArg (fun v => some (leBytes v 8)) (BitVec.toNat_add ..)
  | 14, _ => exact writesAs_ite Iff.rfl rfl
  | 15, _ =>
    refine writesAs_word rfl ?_
    rw [low_toNat, low_toNat]
    split
    · rfl
    · rw [BitVec.toNat_add, low_toNat]
      rfl

/-! ## Scratch (R94, R95, R184) -/

theorem scratchSize_eq {s : State} {h : Nat} (block : s.warp.block = some h) : scratchSize s = ((s.block? h).map (·.scratch)).getD 0 := by
  rw [scratchSize, State.thBlock, block]
  rfl

/-- An access inside the scratch of its block, which stands still, goes ahead. -/
theorem scratchAccess_ok {off : Int} {size h : Nat} {s : State} (ok : ScratchOk off size h s) (k : Nat → Nat → State → State) :
    scratchAccess off size k s = k h off.toNat s := by
  obtain ⟨block, low, aligned, high, still⟩ := ok
  have inside : ¬ (off < 0 ∨ off + size > scratchSize s) := by rw [scratchSize_eq block]; omega
  simp only [scratchAccess, scratchFail, aligned, ne_eq, not_true_eq_false, if_false, if_neg inside, still, Bool.false_eq_true, block]

theorem scratchLoadForm_elim (i : Instr) : (scratchLoadForm i).elim True
    (fun x => (∀ s, exec i s = runThread i.ins (loadS i.ins x.2 x.1) s) ∧ 4 ≤ x.1) := by
  cases i with
  | ldsW | ldsD | ldsQ => exact ⟨fun _ => rfl, by simp⟩
  | _ => exact trivial

theorem scratchStoreForm_elim (i : Instr) : (scratchStoreForm i).elim True (fun x => ∀ s, exec i s = runThread i.ins (storeS i.ins x.2 x.1) s) := by
  cases i with
  | stsW | stsD | stsQ => exact fun _ => rfl
  | _ => exact trivial

theorem scratchAtomicForm_elim (i : Instr) : (scratchAtomicForm i).elim True
    (fun f => (∀ s, exec i s = runThread i.ins (atomicS i.ins f) s) ∧ f ≤ 15) := by
  cases i with
  | samoAdd | samoAnd | samoOr | samoXor | samoMin | samoMax | samoMinn | samoMaxn | samoSwap | samoCas | samoFadd | samoAddb2 | samoAddh2
  | samoAdd64 | samoCas64 | samoInc => exact ⟨fun _ => rfl, by decide⟩
  | _ => exact trivial

section

variable {i : Ins} {o : Opnds} {s : State} {size h f : Nat} {n : BitVec 7}

theorem scratchOff_eq (base : Word) (n : BitVec 7) (size : Nat) : scratchOff base n size = offsetOf base n size := rfl

/-- A load gets the bytes that it finds. -/
theorem loadS_ok (ok : ScratchOk (offsetOf (wordOf o.a) n size) size h s) (wide : 4 ≤ size) {bs : List Byte}
    (bytes : scratchBytes s h (offsetOf (wordOf o.a) n size).toNat size = some bs) :
    loadS i n size o s = finishWith i (targets o (loaded size false bs)) 18 none true s := by
  rw [loadS, scratchOff_eq, scratchAccess_ok ok]
  simp only [bytes, finish_addResult, destRegs_eq, loadWords_eq (.inr (.inr wide))]

/-- With no write of the thread to scratch waiting, the bytes are those of the block. -/
theorem scratchBytes_block (free : ∀ q ∈ s.pl.storeQ, q.uid = s.th.uid → q.scratch = none) (h off n : Nat) :
    scratchBytes s h off n = some (sramBytes s.pl.sram h off n) := by
  have mine : (ownQueue s s.th.uid).filter (fun q => q.scratch.isSome) = [] := by
    rw [List.filter_eq_nil_iff]
    intro q hq
    obtain ⟨hq, own⟩ := List.mem_filter.1 hq
    simp [free q hq (beq_iff_eq.1 own)]
  simp only [scratchBytes, mine]
  rfl

theorem storeS_waits (ok : ScratchOk (offsetOf (wordOf o.a) n size) size h s)
    (held : (memOrd i.p).rel = true ∨ lineHeld s 0 (offsetOf (wordOf o.a) n size).toNat = true) :
    storeS i n size o s = steps i
      (queues { queuedOf s (memOrd i.p) (atAddr (offsetOf (wordOf o.a) n size).toNat (leBytes o.d.toNat size)) with scratch := some h } s) := by
  rw [storeS, scratchOff_eq, scratchAccess_ok ok]
  simp only [if_pos (Bool.or_eq_true_iff.2 held), finish_eq]
  rfl

theorem storeS_now (ok : ScratchOk (offsetOf (wordOf o.a) n size) size h s) (free : lineHeld s 0 (offsetOf (wordOf o.a) n size).toNat = false)
    (rel : (memOrd i.p).rel = false) :
    storeS i n size o s = steps i (sramWrite h (offsetOf (wordOf o.a) n size).toNat (leBytes o.d.toNat size) s) := by
  rw [storeS, scratchOff_eq, scratchAccess_ok ok]
  simp only [rel, free, Bool.or_self, Bool.false_eq_true, if_false, finish_eq]

/-- An atomic on scratch performed at once: the old value, and the state with what Table 11-2 gives. -/
theorem scratchAmo_eq (row : f ≤ 15) (h off : Nat) (b d : DWord) (s : State) :
    let old : DWord := BitVec.ofNat 64 (leNat (sramBytes s.pl.sram h off (atomicBytes f)))
    scratchAmo h off f b d s = (old, match atomicNew f old b d with
      | none => s
      | some v => { s with pl := { s.pl with sram := soSetAll s.pl.sram (atAddr (h * 2 ^ 20 + off) (leBytes v (atomicBytes f))) } }) := by
  intro old
  have bytes : WritesAs f (amoNew f old b d) (atomicNew f old b d) := amoNew_writes row ..
  have size : amoSize f = atomicBytes f := rfl
  unfold scratchAmo
  rw [size]
  dsimp only
  change (match amoNew f old b d with | none => (old, s) | some v => (old, sramWrite h off (leBytes v.toNat (atomicBytes f)) s)) = _
  unfold WritesAs at bytes
  cases new : amoNew f old b d with
  | none =>
    cases new' : atomicNew f old b d with
    | none => rfl
    | some v => simp [new, new'] at bytes
  | some v =>
    cases new' : atomicNew f old b d with
    | none => simp [new, new'] at bytes
    | some w =>
      rw [new, new', Option.map_some, Option.map_some, Option.some_inj] at bytes
      simp only [sramWrite, bytes]

theorem atomicS_waits (ok : ScratchOk (wordOf o.a).toNat (atomicBytes f) h s) (held : (memOrd i.p).rel = true ∨ lineHeld s 0 (wordOf o.a).toNat = true) :
    let off := (wordOf o.a).toNat
    atomicS i f o s = goesOrWaits (memOrd i.p) i s.nextId
      (queues { queuedOf s (memOrd i.p) [] with atom := some (atomicStep f 0 off o s), scratch := some h }
        (withBlank (blanks o (if atomicBytes f = 8 then 2 else 1)) 18 s)) := by
  rw [atomicS, show amoSize f = atomicBytes f from rfl, scratchAccess_ok ok]
  simp only [Int.toNat_natCast, if_pos (Bool.or_eq_true_iff.2 held), amoStep_eq, goOrAcquire_eq]
  rfl

theorem atomicS_now (row : f ≤ 15) (ok : ScratchOk (wordOf o.a).toNat (atomicBytes f) h s) (free : lineHeld s 0 (wordOf o.a).toNat = false)
    (rel : (memOrd i.p).rel = false) :
    let off := (wordOf o.a).toNat
    let old : DWord := BitVec.ofNat 64 (leNat (sramBytes s.pl.sram h off (atomicBytes f)))
    atomicS i f o s = finishWith i (targets o (oldWords f old)) 18 none true (match atomicNew f old (dwordOf o.b) (dwordOf o.d) with
      | none => s
      | some v => { s with pl := { s.pl with sram := soSetAll s.pl.sram (atAddr (h * 2 ^ 20 + off) (leBytes v (atomicBytes f))) } }) := by
  rw [atomicS, show amoSize f = atomicBytes f from rfl, scratchAccess_ok ok]
  simp only [Int.toNat_natCast, rel, free, Bool.or_self, Bool.false_eq_true, if_false, scratchAmo_eq row, finish_addResult, destRegs_eq]
  rfl

end

/-! ## The instructions -/

section

variable {i : Instr} {s : State} {size f : Nat} {n : BitVec 7}

theorem exec_scratchLoad (form : scratchLoadForm i = some (size, n)) (hx : Executes i s) :
    exec i s = .next (loadS i.ins n size (operands i.ins s) s) ∧ 4 ≤ size := by
  have e := scratchLoadForm_elim i
  rw [form] at e
  obtain ⟨runs, wide⟩ := e
  exact ⟨(runs s).trans (runThread_of_executes hx _), wide⟩

theorem exec_scratchStore (form : scratchStoreForm i = some (size, n)) (hx : Executes i s) :
    exec i s = .next (storeS i.ins n size (operands i.ins s) s) := by
  have e := scratchStoreForm_elim i
  rw [form] at e
  exact (e s).trans (runThread_of_executes hx _)

theorem exec_scratchAtomic (form : scratchAtomicForm i = some f) (hx : Executes i s) :
    exec i s = .next (atomicS i.ins f (operands i.ins s) s) ∧ f ≤ 15 := by
  have e := scratchAtomicForm_elim i
  rw [form] at e
  obtain ⟨runs, row⟩ := e
  exact ⟨(runs s).trans (runThread_of_executes hx _), row⟩

end

/-- Settles O22, by the checks of R95 and the row of Table 11-2. -/
theorem scratchAccesses : Obligations.ScratchAccesses := by
  refine ⟨⟨fun i size n s h bs form hx ok bytes => ?load, fun i size n s h form hx ok held => ?storeWaits, fun i size n s h form hx ok free rel => ?store⟩,
    fun i f s h form hx ok held => ?atomicWaits, fun i f s h form hx ok free rel => ?atomic⟩
  case load =>
    obtain ⟨runs, wide⟩ := exec_scratchLoad form hx
    refine runs.trans (congrArg _ (loadS_ok ok wide ?_))
    rcases bytes with ⟨none_, rfl⟩ | own
    · exact scratchBytes_block none_ ..
    · exact own
  case storeWaits => exact (exec_scratchStore form hx).trans (congrArg _ (storeS_waits ok held))
  case store => exact (exec_scratchStore form hx).trans (congrArg _ (storeS_now ok free rel))
  case atomicWaits => exact (exec_scratchAtomic form hx).1.trans (congrArg _ (atomicS_waits ok held))
  case atomic =>
    obtain ⟨runs, row⟩ := exec_scratchAtomic form hx
    exact runs.trans (congrArg _ (atomicS_now row ok free rel))

end Sys2Proof.Laws
end

section
/-! PROOF. A multicast load's request names the context of its thread, which the statement leaves out of it (R240, R241). -/

namespace Sys2Proof.Laws

open Sys2Proof Sys2Proof.Machine Sys2Proof.Rules

/-- One page of context 1, mapped onto itself. -/
def multicastPages : TlbEnt := { ctx := 1, vpage := 0, pages := 16, ppage := 0, remote := none, r := true, w := true, x := true }

/-- A thread of context 1 with the address 0x8000 in register 6 and the mask of its own core in register 12; nothing is on its way. -/
def multicastLoader : State :=
  { State.reset with
    th := { live := true, uid := 1, regs := [(6, 0x8000), (12, 1)] }
    pl := { ctx := some 1, warps := [{ slot := 0, regsPer := 64 }] }
    ctxs := [{ n := 1 }]
    xl := { coreTlb := [multicastPages] } }

/-- The contexts of the multicast requests that an answer leaves on their way. -/
def multicastContexts : Answer → List Nat
  | .next t => t.pl.net.filterMap (fun m => match m.body with | .mcast x => some x.ctx | _ => none)
  | _ => []

/-- The model's request carries context 1. -/
theorem multicastContexts_loader : multicastContexts (exec (.ldmcQ false 8 6 0 (some 0xC00)) multicastLoader) = [1] := by decide

/-- Refutes O18: the request that the statement gives for `ldmc.q` has no context, so its context is 0, where the thread's is 1. -/
theorem not_loadsAskTheHome : ¬ Obligations.LoadsAskTheHome := by
  rintro ⟨-, multicast⟩
  have quiet : (beforeAsking (memOrd (some 0xC00)) 0x8000 multicastLoader).pl.net = [] := by decide
  have claim := multicast false 8 6 0 (some 0xC00) multicastLoader multicastPages ⟨by decide, by decide⟩ ⟨by decide, by decide⟩ (by decide) (by decide)
    (fun _ => by decide) (fun m hm => absurd (quiet ▸ hm) List.not_mem_nil) (fun m hm => absurd (quiet ▸ hm) List.not_mem_nil)
  have contexts := congrArg multicastContexts claim
  rw [multicastContexts_loader] at contexts
  exact absurd contexts (by decide)

end Sys2Proof.Laws
end

section
/-! PROOF. Messages between a core and the homes (R97, R209, R210, R213 to R215, R224, R235, R237, R238, R242, R243, R267). -/

namespace Sys2Proof.Laws

open Sys2Proof Sys2Proof.Machine Sys2Proof.Rules

/-! ## A message that is found -/

section

variable {id : Nat} {m : Msg} {s : State}

theorem mem_of_isMsg (is : IsMsg id m s) : m ∈ s.pl.net := List.mem_of_find?_eq_some is

theorem atMsg_eq (is : IsMsg id m s) (f : State → State) : s.atMsg id f = f s := by
  have found : s.pl.net.any (·.id == id) = true := by
    rw [List.any_eq_true]
    exact ⟨m, mem_of_isMsg is, List.find?_some (p := fun (x : Msg) => x.id == id) is⟩
  rw [State.atMsg, if_pos found]

theorem id_of_isMsg (is : IsMsg id m s) : m.id = id := eq_of_beq (List.find?_some (p := fun (x : Msg) => x.id == id) is)

/-! ## Completion times -/

theorem joins_eq (uid n t : Nat) (s : State) : ownTime uid n t s = joins uid n t s := by
  have same (x : Carried) : (if (x.uid == uid && (match x.seq with | some k => decide (n < k) | none => true)) = true then { x with pct := max x.pct t } else x)
      = if x.uid = uid ∧ x.seq.all (fun k => decide (n < k)) = true then { x with pct := max x.pct t } else x := by
    cases x.seq <;> simp
  have all := funext same
  unfold ownTime joins updIf timed
  simp only [updThreads_sched]
  exact congrArg (fun f => ({ (s.updThreads (·.uid == uid) (timed t)) with sched := { s.sched with carried := s.sched.carried.map f } } : State)) all

theorem joinsTree_eq (n t : Nat) (s : State) : treeTime n t s = joinsTree n t s := by
  simp [treeTime, treeUpd, updIf, joinsTree]

theorem stamped_eq (ws : List (Nat × Byte)) (t : Nat) (s : State) : l1Stamp ws t s = inCopy ws (stamped ws t) s := by
  have low (n : Nat) : n / 64 = 0 ↔ n < 64 := by omega
  have high (x : Nat × Byte) : x.1 % 128 / 64 = 1 ↔ 64 ≤ x.1 % 128 := by omega
  cases ws with
  | nil => rfl
  | cons x ws =>
    unfold l1Stamp inCopy stamped
    simp only [List.any_eq_true, beq_iff_eq, low, high]

theorem takes_eq (ws : List (Nat × Byte)) (s : State) : l1Take ws s = inCopy ws (takes ws) s := by
  cases ws <;> rfl

/-! ## Refusals and waits for completion times -/

theorem refusals_eq (c : Nat) (who : Refused → Thread → Bool) (rf : List Refused) (s : State) :
    refuseAll c who rf s = rf.foldl (fun s r => refusal c (who r) r s) s := rfl

/-- The acting thread goes on where it waits in `wct` and no write of it is open (R245). -/
def endWct (s : State) : State :=
  match s.th.park with
  | .wct p => if writesOpen s s.th.uid = true ∨ ownQueue s s.th.uid ≠ [] then s
    else overWith [(p, BitVec.ofNat 32 s.th.wctMax), (p + 1, BitVec.ofNat 32 (s.th.wctMax / 2 ^ 32))] 4 s
  | _ => s

theorem settleWct_eq (s : State) : settleWct s = endWct s := by
  unfold settleWct endWct
  cases s.th.park with
  | wct p =>
    have high : (BitVec.ofNat 64 s.th.wctMax).extractLsb' 32 32 = BitVec.ofNat 32 (s.th.wctMax / 2 ^ 32) := by
      apply BitVec.eq_of_toNat_eq
      simp only [BitVec.extractLsb'_toNat, BitVec.toNat_ofNat, Nat.shiftRight_eq_div_pow]
      omega
    have low : (BitVec.ofNat 64 s.th.wctMax).truncate 32 = BitVec.ofNat 32 s.th.wctMax := by
      apply BitVec.eq_of_toNat_eq
      simp only [BitVec.truncate_eq_setWidth, BitVec.toNat_setWidth, BitVec.toNat_ofNat]
      omega
    have waits : (writesOpen s s.th.uid || !(ownQueue s s.th.uid).isEmpty) = true ↔ (writesOpen s s.th.uid = true ∨ ownQueue s s.th.uid ≠ []) := by simp
    simp only [low, high, resumeWith_eq, waits]
  | _ => rfl

theorem wctsEnd_eq (s : State) : wakeWct s = wctsEnd s := by
  rw [wakeWct, show settleWct = endWct from funext settleWct_eq]
  rfl

theorem ackOf_eq (id : Nat) (w : WriteMsg) (t : Nat) (rf : List Refused) (s : State) : acknowledged id w t rf s = ackOf id w t rf s := by
  unfold acknowledged ackOf
  simp only [refusals_eq, wctsEnd_eq, stamped_eq, takes_eq, joins_eq, joinsTree_eq, reportRefused]
  cases w.writer with
  | threads who => rfl
  | forced uid =>
    simp only [joinNo, joinTrees, updIf, Bool.and_eq_true, beq_iff_eq, Bool.not_eq_true', Option.isNone_iff_eq_none, and_assoc]
  | stream n h tr => rfl
  | engine unit op => simp only [engineTime, updIf, beq_iff_eq]
  | _ => rfl

/-! ## Writes and their acknowledgements (R213, R214) -/

theorem commitMsg_here {w : WriteMsg} {x : Nat × Byte} {ws : List (Nat × Byte)} (bytes : w.ws = x :: ws) (here : isX x.1 = false) :
    commitMsg w s = ({ w with ack := some (commit w.ws w.depth (.die (writerDie s w.writer)) s).2 },
      keepPoison w.poison (commit w.ws w.depth (.die (writerDie s w.writer)) s).1) := by
  simp only [commitMsg, bytes, here, Bool.false_eq_true, if_false]

theorem exec_writeCommit {w : WriteMsg} {x : Nat × Byte} {ws : List (Nat × Byte)} (is : IsMsg id m s) (body : m.body = .write w) (bytes : w.ws = x :: ws)
    (serves : Serves m s) (here : isX x.1 = false) (reach : Reaches s (writerMaster s w.writer) w.ctx (spanLo w.ws) (spanLen w.ws)) :
    exec (.writeCommit id) s = .next (let c := commit w.ws w.depth (.die (writerDie s w.writer)) s
      netUpd id (fun _ => .write { w with ack := some c.2 }) (keepPoison w.poison c.1)) := by
  obtain ⟨turn, free⟩ := serves
  refine congrArg Host.Outcome.next ((atMsg_eq is _).trans ?_)
  unfold IsMsg at is
  simp only [writeCommitStep, is, body, turn, body ▸ free, Bool.not_true, Bool.or_self, Bool.false_eq_true, if_false, gate_of_reaches reach,
    commitMsg_here bytes here]

theorem exec_writeAck {w : WriteMsg} {t : Nat} {rf : List Refused} (is : IsMsg id m s) (body : m.body = .write w) (ack : w.ack = some (t, rf))
    (returns : mayReturn s m = true) : exec (.writeAck id) s = .next (ackOf id w t rf (netDrop id s)) := by
  refine congrArg Host.Outcome.next ((atMsg_eq is _).trans ?_)
  unfold IsMsg at is
  simp only [writeAckStep, is, body, ack, returns, Bool.not_true, Bool.false_eq_true, if_false, ackOf_eq]

theorem exec_atomicAck {a : AtomicMsg} {t : Nat} {rf : List Refused} (is : IsMsg id m s) (body : m.body = .atomic a) (ack : a.ack = some (t, rf))
    (returns : mayReturn s m = true) :
    exec (.writeAck id) s = .next (wctsEnd (rf.foldl (fun s r => refusal a.ctx (brought (atomicShares a) r) r s)
      ((atomicShares a).foldl (fun s x => joinsTree x.tree t (joins x.uid x.seq t s)) (netDrop id s)))) := by
  refine congrArg Host.Outcome.next ((atMsg_eq is _).trans ?_)
  unfold IsMsg at is
  simp only [writeAckStep, is, body, ack, returns, Bool.not_true, Bool.false_eq_true, if_false, refusals_eq, wctsEnd_eq, joins_eq, joinsTree_eq]
  rfl

/-! ## Reads served (R210, R214, R278) -/

theorem fromCore_eq (s : State) (w : LoadWait) (a : Nat) : coreByte s w a = fromCore s w a := by
  unfold coreByte fromCore
  cases w.known.find? (·.1 == a) with
  | some x => rfl
  | none => cases l1Find s (lineOf a) <;> simp

theorem mergeDirty_eq (s : State) (w : LoadWait) (bs : List Byte) :
    mergeDirty s w bs = ((List.range w.size).map (fun k => (fromCore s w (w.pa + k)).getD (bs.getD k 0)), takesAny s w) := by
  simp only [mergeDirty, fromCore_eq, takesAny]

theorem timesReads_eq (l : List LoadWait) (vt : Nat) (s : State) : joinVt l vt s = timesReads l vt s := by
  unfold joinVt timesReads
  simp only [mergeDirty_eq]
  rfl

/-! ## Fills (R97, R210) -/

theorem setLineRec_pl (l : Nat) (r : LineRec) (s : State) : (setLineRec l r s).pl = s.pl := by
  unfold setLineRec
  dsimp only
  repeat' split
  all_goals rfl

theorem timesReads_net (l : List LoadWait) (vt : Nat) (s : State) : (timesReads l vt s).pl.net = s.pl.net := by
  unfold timesReads
  induction l generalizing s with
  | nil => rfl
  | cons w t ih =>
    rw [List.foldl_cons, ih]
    split
    · rfl
    · split <;> rfl

theorem fillAnswer_net (f : Fill) (s : State) : (fillAnswer f s).2.pl.net = s.pl.net := by
  unfold fillAnswer
  simp only [timesReads_eq]
  split
  · rfl
  · split
    · exact timesReads_net _ _ _
    · split
      · exact (timesReads_net _ _ _).trans (congrArg (·.net) (setLineRec_pl _ _ s))
      · exact timesReads_net _ _ _

theorem fillAnswer_served (f : Fill) (s : State) : (fillAnswer f s).1.reply.isSome = true := by
  unfold fillAnswer
  dsimp only
  split
  · rfl
  · split
    · rfl
    · split <;> rfl

theorem fillAnswer_poisoned {f : Fill} (bad : isPoisoned s (f.line * 128 + f.sec * 64) 64 = true) :
    fillAnswer f s = ({ f with reply := some ([], 0, 0, true) }, s) := by
  simp only [fillAnswer, bad, if_true]

theorem fillAnswer_lease {f : Fill} (here : isX (f.line * 128 + f.sec * 64) = false) (good : isPoisoned s (f.line * 128 + f.sec * 64) 64 = false)
    (alloc : f.alloc = true) : fillAnswer f s = (let g := grantLease f.line f.lease s.did s
      ({ f with reply := some (getBytes s.mem (f.line * 128 + f.sec * 64) 64, g.2.1, g.2.2, false) }, timesReads f.waits g.2.2 g.1)) := by
  have memory : (grantLease f.line f.lease s.did s).1.mem = s.mem := (sameMemory_setLineRec _ _ s).1
  simp only [fillAnswer, here, good, alloc, Bool.false_eq_true, if_false, if_true, timesReads_eq, homeRead, memory]

theorem fillAnswer_plain {f : Fill} (here : isX (f.line * 128 + f.sec * 64) = false) (good : isPoisoned s (f.line * 128 + f.sec * 64) 64 = false)
    (alloc : f.alloc = false) : fillAnswer f s = (({ f with reply := some (getBytes s.mem (f.line * 128 + f.sec * 64) 64, 0, (lineRec s f.line).vl, false) } : Fill),
      timesReads f.waits (lineRec s f.line).vl s) := by
  simp only [fillAnswer, here, good, alloc, Bool.false_eq_true, if_false, timesReads_eq]
  rfl

/-- The fills that one read of a bundle's fill serves, as `serveFills` takes them. -/
def readTogether (id : Nat) (f : Fill) (m : Msg) : Bool :=
  match m.body with
  | .fill g => m.id == id || (g.bundle == f.bundle && g.line == f.line && g.reply.isNone && !f.waits.any (·.stream.isSome) && !g.waits.any (·.stream.isSome))
  | _ => false

def joinsRead (id : Nat) (f : Fill) (s : State) (m : Msg) : Bool :=
  readTogether id f m && (netBefore s m.id).all (fun x => bodyLine x.body != f.line || bodyServed x.body || readTogether id f x) && !otherBefore s m.id f.line

/-- The reply to one fill. -/
def answersFill (s : State) (m : Msg) : State :=
  match m.body with
  | .fill g => netUpd m.id (fun _ => .fill (fillAnswer g s).1) (fillAnswer g s).2
  | _ => s

theorem serveFills_eq (id : Nat) (f : Fill) (s : State) : serveFills id f s = (s.pl.net.filter (joinsRead id f s)).foldl answersFill s := rfl

/-- A message that may be served joins the read of its bundle's fill. -/
theorem joinsRead_of_mayServe {f g : Fill} {y : Msg} (body : y.body = .fill g) (line : g.line = f.line) (turn : mayServe s y = true)
    (same : readTogether id f y = true) : joinsRead id f s y = true := by
  simp only [mayServe, body, bodyLine, Bool.and_eq_true, List.all_eq_true, Bool.or_eq_true] at turn
  obtain ⟨⟨-, before⟩, other⟩ := turn
  rw [line] at before other
  simp only [joinsRead, same, other, Bool.and_true, Bool.true_and, List.all_eq_true, Bool.or_eq_true]
  exact fun x hx => .inl (before x hx)

theorem exec_fillRequest {f : Fill} (is : IsMsg id m s) (body : m.body = .fill f) (serves : Serves m s)
    (reach : Reaches s (fillMaster s f) f.ctx (f.line * 128 + f.sec * 64) 64) :
    exec (.fillRequest id) s = .next ((s.pl.net.filter (joinsRead id f s)).foldl answersFill s) := by
  obtain ⟨turn, free⟩ := serves
  rw [body] at free
  refine congrArg Host.Outcome.next ((atMsg_eq is _).trans ?_)
  unfold IsMsg at is
  simp only [fillRequestStep, is, body, turn, show windowHolds s f.line = false from free, Bool.not_false, Bool.and_self, if_true, gate_of_reaches reach,
    serveFills_eq]

/-- Of messages with numbers of their own, one that alone satisfies a predicate. -/
theorem filter_eq_singleton {l : List Msg} {p : Msg → Bool} (mem : m ∈ l) (distinct : (l.map (·.id)).Nodup) (only : ∀ y ∈ l, p y = true ↔ y.id = m.id) :
    l.filter p = [m] := by
  induction l with
  | nil => exact absurd mem List.not_mem_nil
  | cons a t ih =>
    rw [List.map_cons, List.nodup_cons] at distinct
    obtain ⟨fresh, distinct⟩ := distinct
    have ne (y : Msg) (hy : y ∈ t) : y.id ≠ a.id := fun e => fresh (e ▸ List.mem_map_of_mem hy)
    rcases List.mem_cons.1 mem with rfl | tail
    · rw [List.filter_cons_of_pos ((only m (by simp)).2 rfl), List.filter_eq_nil_iff.2]
      exact fun y hy h => ne y hy ((only y (by simp [hy])).1 h)
    · rw [List.filter_cons_of_neg, ih tail distinct fun y hy => only y (by simp [hy])]
      exact fun h => ne m tail ((only a (by simp)).1 h).symm

theorem fills_alone {f : Fill} (is : IsMsg id m s) (body : m.body = .fill f) (serves : Serves m s) (distinct : (s.pl.net.map (·.id)).Nodup)
    (alone : ∀ y ∈ s.pl.net, ∀ g, y.body = .fill g → y.id ≠ id → g.bundle = f.bundle → g.line = f.line → g.reply.isSome = true) :
    s.pl.net.filter (joinsRead id f s) = [m] := by
  have mem : m ∈ s.pl.net := (mem_of_isMsg is)
  have num : m.id = id := id_of_isMsg is
  refine filter_eq_singleton mem distinct fun y hy => ⟨fun h => ?_, fun e => ?_⟩
  · by_contra other
    simp only [joinsRead, Bool.and_eq_true] at h
    obtain ⟨⟨same, -⟩, -⟩ := h
    unfold readTogether at same
    split at same
    · next g fill =>
      have served := alone y hy g fill (num ▸ other)
      simp only [Bool.or_eq_true, Bool.and_eq_true, beq_iff_eq, Bool.not_eq_true', num ▸ other, false_or] at same
      obtain ⟨⟨⟨⟨bundle, line⟩, waits⟩, -⟩, -⟩ := same
      simp [Option.isNone_iff_eq_none.1 waits] at served
      exact absurd (served bundle) (by simp [line])
    · exact absurd same Bool.false_ne_true
  · have : y = m := List.inj_on_of_nodup_map distinct hy mem e
    subst this
    exact joinsRead_of_mayServe body rfl serves.1 (by simp [readTogether, body, num])

/-! ### The fills of a bundle -/

/-- Every message with the number has been served. -/
def ServedAt (k : Nat) (s : State) : Prop := ∀ z ∈ s.pl.net, z.id = k → bodyServed z.body = true

theorem answersFill_net {a : Msg} {g : Fill} (body : a.body = .fill g) (s : State) :
    (answersFill s a).pl.net = updIf (·.id == a.id) (fun m => { m with body := .fill (fillAnswer g s).1 }) s.pl.net := by
  simp only [answersFill, body, netUpd, fillAnswer_net]

theorem servedAt_answersFill {k : Nat} (a : Msg) (h : ServedAt k s) : ServedAt k (answersFill s a) := by
  cases body : a.body with
  | fill g =>
    intro z hz num
    rw [answersFill_net body, updIf, List.mem_map] at hz
    obtain ⟨x, hx, rfl⟩ := hz
    split at num
    · next hit => rw [if_pos hit]; exact fillAnswer_served g s
    · next miss => rw [if_neg miss]; exact h x hx num
  | _ => simpa only [answersFill, body] using h

theorem servedAt_answersFill_self {a : Msg} {g : Fill} (body : a.body = .fill g) (s : State) : ServedAt a.id (answersFill s a) := by
  intro z hz num
  rw [answersFill_net body, updIf, List.mem_map] at hz
  obtain ⟨x, -, rfl⟩ := hz
  split at num
  · next hit => rw [if_pos hit]; exact fillAnswer_served g s
  · next miss => exact absurd (beq_iff_eq.2 num) miss

theorem servedAt_foldl {k : Nat} (l : List Msg) (h : ServedAt k s) : ServedAt k (l.foldl answersFill s) := by
  induction l generalizing s with
  | nil => exact h
  | cons a t ih => exact ih (servedAt_answersFill a h)

theorem servedAt_of_mem {y : Msg} {g : Fill} (body : y.body = .fill g) {l : List Msg} (mem : y ∈ l) (s : State) : ServedAt y.id (l.foldl answersFill s) := by
  induction l generalizing s with
  | nil => exact absurd mem List.not_mem_nil
  | cons a t ih =>
    rcases List.mem_cons.1 mem with rfl | tail
    · exact servedAt_foldl t (servedAt_answersFill_self body s)
    · exact ih tail _

/-! ### Replies to fills -/

theorem exec_fillReply {f : Fill} {bs : List Byte} {e vt : Nat} {bad : Bool} (is : IsMsg id m s) (body : m.body = .fill f)
    (reply : f.reply = some (bs, e, vt, bad)) (returns : mayReturn s m = true) :
    exec (.fillReply id) s = .next (f.waits.foldl (fun s w => deliver w (partOf (f.line * 128 + f.sec * 64) bs w) vt bad s)
      (if f.alloc = true ∧ bad = false then l1Install f.line f.sec bs e vt f.keep (netDrop id s)
        else if f.waits.any (·.stream.isNone) then l1Invalidate f.line f.sec (netDrop id s) else netDrop id s)) := by
  refine congrArg Host.Outcome.next ((atMsg_eq is _).trans ?_)
  unfold IsMsg at is
  simp only [fillReplyStep, is, body, reply, returns, Bool.not_true, Bool.false_eq_true, if_false, Bool.and_eq_true, Bool.not_eq_true']

/-! ### Sectors installed -/

/-- The bytes written at the keys that a predicate admits are what a read there gives. -/
theorem stGet_stSetAll_filter (z : Byte) (q : Nat → Bool) {l : List (Nat × Byte)} (wf : stWf z l = true) (a : Nat) (bs : List Byte) {k : Nat}
    (hk : k < bs.length) (on : q (a + k) = true) : stGet z (stSetAll z l ((atAddr a bs).filter (fun w => q w.1))) (a + k) = bs.getD k z := by
  induction bs generalizing a l k with
  | nil => exact absurd hk (Nat.not_lt_zero k)
  | cons b t ih =>
    rw [atAddr, List.filter_cons]
    cases k with
    | zero =>
      rw [Nat.add_zero] at on ⊢
      rw [if_pos on]
      refine (stGet_stSetAll_other z _ _ a (stWf_stSet z l a b wf) fun w hw e => ?_).trans (stGet_stSet_same z l a b wf)
      have bounds := atAddr_bounds (a + 1) t w (List.mem_filter.1 hw).1
      omega
    | succ k =>
      rw [show a + (k + 1) = a + 1 + k by omega] at on ⊢
      split
      · exact ih (stWf_stSet z l a b wf) (a + 1) (Nat.lt_of_succ_lt_succ hk) on
      · exact ih wf (a + 1) (Nat.lt_of_succ_lt_succ hk) on

theorem l1Install_find {line sec : Nat} {bs : List Byte} {e vt : Nat} {keep : Bool} (len : bs.length = 64) (sector : sec < 2)
    (wf : ∀ l, l1Find s line = some l → stWf 0 l.bytes = true) :
    ∃ l, l1Find (l1Install line sec bs e vt keep s) line = some l
      ∧ (if sec = 0 then l.valid0 = true ∧ l.exp0 = e ∧ l.vt0 = vt else l.valid1 = true ∧ l.exp1 = e ∧ l.vt1 = vt)
      ∧ ∀ k < 64, l.dirty.testBit (64 * sec + k) = false → stGet 0 l.bytes (64 * sec + k) = bs.getD k 0 := by
  have old : stWf 0 (l1Ensure line s).1.bytes = true := by
    rw [l1Ensure_bytes]
    cases h : l1Find s line with
    | none => rfl
    | some l => exact wf l h
  have bytes (k : Nat) (hk : k < 64) (clean : (l1Ensure line s).1.dirty.testBit (64 * sec + k) = false) :
      stGet 0 (stSetAll 0 (l1Ensure line s).1.bytes ((atAddr (sec * 64) bs).filter (fun w => !(l1Ensure line s).1.dirty.testBit w.1))) (64 * sec + k)
        = bs.getD k 0 := by
    rw [Nat.mul_comm 64] at clean ⊢
    exact stGet_stSetAll_filter 0 (fun n => !(l1Ensure line s).1.dirty.testBit n) old (sec * 64) bs (len ▸ hk) (by simp [clean])
  unfold l1Install
  dsimp only
  match sec, sector with
  | 0, _ =>
    refine ⟨_, l1Find_l1Put ?_ _, ⟨rfl, rfl, rfl⟩, bytes⟩
    exact l1Ensure_line line s
  | 1, _ =>
    refine ⟨_, l1Find_l1Put ?_ _, ⟨rfl, rfl, rfl⟩, bytes⟩
    exact l1Ensure_line line s

/-! ## Loads that get their bytes (R94, R210, R214, R224) -/

theorem served_eq (t : Thread) (tag : Nat) : t.served tag = if t.park = .acquire tag then resumed t else t := by
  unfold Thread.served
  split
  · next k park => simp only [park, Park.acquire.injEq]; rfl
  · next other => rw [if_neg fun e => other _ e]

theorem gets_eq (t : Thread) (tag vt : Nat) (c : Bool) (ws : List Word) :
    ((t.arrive tag ws).sawVt (if c then some vt else none)).served tag = gets tag ws (if c = true then timed vt t else t) := by
  rw [served_eq, gets]
  cases c <;> simp [Thread.sawVt, Thread.arrive, updIf, timed]

theorem deliver_thread {w : LoadWait} {bs : List Byte} {vt : Nat} {bad : Bool} (thread : w.stream = none) (ok : Concerns s w.slot w.lane) :
    deliver w bs vt bad s = s.putBack w.slot w.lane (let b := s.bring w.slot w.lane
      let all := (List.range w.size).map (fun k => (fromCore b w (w.pa + k)).getD (bs.getD k 0))
      let any := takesAny b w
      let bad := (bad && any) || w.bad || (List.range w.size).any (fun k => !w.known.any (·.1 == w.pa + k) && dirtyBad b (w.pa + k))
      if b.th.park = .record w.tag then
        b.updTh (fun t => { t.sawVt (if any then some vt else none) with park := .none, got := some (t.pc, w.pa, if bad then none else some all) })
      else if b.th.park = .ret w.tag then
        if bad then raise { cause := .poison, addr := w.va } b
        else finishRet (BitVec.ofNat 64 (leNat all)) (b.updTh (·.sawVt (if any then some vt else none)))
      else if !b.th.pend.any (·.tag == w.tag) then b
      else if bad then loadPoisoned w.tag w.pc w.va b
      else b.updTh (fun t => ((t.arrive w.tag (loadWords w.size w.signed all)).sawVt (if any then some vt else none)).served w.tag)) := by
  obtain ⟨-, lives⟩ := ok
  unfold deliver
  simp only [thread, asThread_eq lives, mergeDirty_eq]

section

variable {w : LoadWait} {bs : List Byte} {vt : Nat} (thread : w.stream = none) (ok : Concerns s w.slot w.lane)
  (waits : (s.bring w.slot w.lane).th.pend.any (·.tag == w.tag) = true) (load : (s.bring w.slot w.lane).th.park ≠ .record w.tag)
  (plain : (s.bring w.slot w.lane).th.park ≠ .ret w.tag) (good : w.bad = false)
  (clean : ∀ k < w.size, w.known.any (·.1 == w.pa + k) = true ∨ dirtyBad (s.bring w.slot w.lane) (w.pa + k) = false)

include clean in
theorem noDirtyBad : (List.range w.size).any (fun k => !w.known.any (·.1 == w.pa + k) && dirtyBad (s.bring w.slot w.lane) (w.pa + k)) = false := by
  rw [List.any_eq_false]
  intro k hk
  rcases clean k (List.mem_range.1 hk) with h | h <;> simp [h]

include thread ok waits load plain

theorem deliver_poison (takes : takesAny (s.bring w.slot w.lane) w = true) :
    deliver w bs vt true s = s.putBack w.slot w.lane (loadPoisoned w.tag w.pc w.va (s.bring w.slot w.lane)) := by
  rw [deliver_thread thread ok]
  simp only [load, plain, if_false, waits, takes, Bool.and_self, Bool.true_or, Bool.not_true, Bool.false_eq_true, if_true]

include good clean

theorem deliver_gets (size : w.size ∈ [1, 2, 4, 8, 16, 32]) :
    deliver w bs vt false s = s.putBack w.slot w.lane (loadGets w bs vt (s.bring w.slot w.lane)) := by
  have sizes : w.size = 1 ∨ w.size = 2 ∨ 4 ≤ w.size := by
    simp only [List.mem_cons, List.not_mem_nil, or_false] at size
    omega
  rw [deliver_thread thread ok]
  simp only [load, plain, if_false, waits, good, noDirtyBad clean, Bool.false_and, Bool.or_self, Bool.not_true, Bool.false_eq_true, loadWords_eq sizes,
    gets_eq, State.updTh, loadGets]

end

/-! ## Atomics (R235 to R238) -/

theorem oldArrives_eq (x : AtomicStep) (old : DWord) (vt : Nat) (s : State) : amoArrive x old vt false s = oldArrives vt s (x, old) := by
  have same (s : State) : (if (!s.th.pend.any (·.tag == x.tag)) = true then s
      else if false = true then loadPoisoned x.tag x.pc x.va s
      else s.updTh (fun t => ((t.arrive x.tag (amoWords x.f old)).sawVt (some vt)).served x.tag))
      = if s.th.pend.any (·.tag == x.tag) then { s with th := gets x.tag (oldWords x.f old) (timed vt s.th) } else s := by
    have gets := gets_eq s.th x.tag vt true (amoWords x.f old)
    simp only [if_true] at gets
    simp only [State.updTh, gets, Bool.false_eq_true, if_false]
    cases s.th.pend.any (·.tag == x.tag) <;> rfl
  exact congrArg (s.asThread x.slot x.lane) (funext same)

/-- One step of a request, as `serveAtomic` runs it. -/
def runsStep (s : State) (acc : List (AtomicStep × DWord) × List (Nat × Byte)) (x : AtomicStep) : List (AtomicStep × DWord) × List (Nat × Byte) :=
  if isPoisoned s x.pa 1 then acc else (acc.1 ++ [(x, (amoApply s acc.2 x).1)], (amoApply s acc.2 x).2)

theorem not_isX_add {pa n k : Nat} (here : isX pa = false) (aligned : pa % n = 0) (row : n = 4 ∨ n = 8) (hk : k < n) : isX (pa + k) = false := by
  simp only [isX, decide_eq_false_iff_not, Nat.not_le] at here ⊢
  rcases row with rfl | rfl <;> omega

theorem atomicBytes_cases (f : Nat) : atomicBytes f = 4 ∨ atomicBytes f = 8 := by
  unfold atomicBytes
  split <;> simp

theorem elim_writesAs {α : Type} {f : Nat} {x : Option DWord} {y : Option Nat} (h : WritesAs f x y) (n : α) (k : List Byte → α) :
    x.elim n (fun v => k (leBytes v.toNat (atomicBytes f))) = y.elim n (fun v => k (leBytes v (atomicBytes f))) := by
  have mapped := congrArg (fun o : Option (List Byte) => o.elim n k) h
  simpa only [Option.elim_map, Function.comp_def] using mapped

/-- The old value of a step: the bytes that the request has written so far, else those of memory. -/
def oldAtHome (s : State) (w : List (Nat × Byte)) (x : AtomicStep) : DWord :=
  BitVec.ofNat 64 (leNat ((List.range (atomicBytes x.f)).map (fun k => (soGet w (x.pa + k)).getD (getByte s.mem (x.pa + k)))))

/-- The bytes written after a step. -/
def writtenAtHome (s : State) (w : List (Nat × Byte)) (x : AtomicStep) : List (Nat × Byte) :=
  (atomicNew x.f (oldAtHome s w x) x.b x.expect).elim w (fun v => soSetAll w (atAddr x.pa (leBytes v (atomicBytes x.f))))

theorem amoRun_cons (s : State) (w : List (Nat × Byte)) (x : AtomicStep) (t : List AtomicStep) :
    amoRun s w (x :: t) = ((x, oldAtHome s w x) :: (amoRun s (writtenAtHome s w x) t).1, (amoRun s (writtenAtHome s w x) t).2) := by
  rw [amoRun, writtenAtHome]
  change (let r := amoRun s (match atomicNew x.f (oldAtHome s w x) x.b x.expect with | none => w | some v => soSetAll w (atAddr x.pa (leBytes v (atomicBytes x.f)))) t
    ((x, oldAtHome s w x) :: r.1, r.2)) = _
  cases atomicNew x.f (oldAtHome s w x) x.b x.expect <;> rfl

theorem amoApply_eq {x : AtomicStep} (row : x.f ≤ 15) (here : isX x.pa = false) (aligned : x.pa % atomicBytes x.f = 0) (w : List (Nat × Byte)) :
    amoApply s w x = (oldAtHome s w x, writtenAtHome s w x) := by
  have old : BitVec.ofNat 64 (leNat ((List.range (amoSize x.f)).map (fun k => stepByte s w (x.pa + k)))) = oldAtHome s w x := by
    refine congrArg (fun l => BitVec.ofNat 64 (leNat l)) (List.map_congr_left fun k hk => ?_)
    rw [stepByte, homeByte, if_neg (by simp [not_isX_add here aligned (atomicBytes_cases x.f) (List.mem_range.1 hk)])]
  have writes := elim_writesAs (amoNew_writes row (oldAtHome s w x) x.b x.expect) w (fun bs => soSetAll w (atAddr x.pa bs))
  unfold amoApply
  dsimp only
  rw [old, writtenAtHome, ← writes]
  cases amoNew x.f (oldAtHome s w x) x.b x.expect <;> rfl

theorem runSteps_eq (l : List AtomicStep) (acc : List (AtomicStep × DWord)) (w : List (Nat × Byte))
    (ok : ∀ x ∈ l, x.f ≤ 15 ∧ x.pa % atomicBytes x.f = 0 ∧ isX x.pa = false ∧ isPoisoned s x.pa 1 = false) :
    l.foldl (runsStep s) (acc, w) = (acc ++ (amoRun s w l).1, (amoRun s w l).2) := by
  induction l generalizing acc w with
  | nil => simp [amoRun]
  | cons x t ih =>
    obtain ⟨row, aligned, here, good⟩ := ok x (by simp)
    rw [List.foldl_cons, runsStep, good, if_neg Bool.false_ne_true, ih _ _ fun y hy => ok y (by simp [hy]), amoApply_eq row here aligned, amoRun_cons, List.append_assoc]
    rfl

theorem soSet_keys {m : List (Nat × Byte)} {n : Nat} {v : Byte} : ∀ x ∈ soSet m n v, x ∈ m ∨ x = (n, v) := by
  induction m with
  | nil => simp [soSet]
  | cons y t ih =>
    obtain ⟨k, u⟩ := y
    unfold soSet
    intro x hx
    split at hx
    · simpa [or_comm] using hx
    · split at hx
      · simp only [List.mem_cons] at hx ⊢
        tauto
      · simp only [List.mem_cons] at hx ⊢
        rcases hx with rfl | hx
        · exact .inl (.inl rfl)
        · exact (ih x hx).imp_left .inr

theorem soSetAll_keys (ws : List (Nat × Byte)) {m : List (Nat × Byte)} : ∀ x ∈ soSetAll m ws, x ∈ m ∨ x ∈ ws := by
  induction ws generalizing m with
  | nil => exact fun x hx => .inl hx
  | cons w t ih =>
    intro x hx
    rcases ih x hx with h | h
    · rcases soSet_keys x h with h | rfl
      · exact .inl h
      · exact .inr List.mem_cons_self
    · exact .inr (List.mem_cons_of_mem _ h)

/-- A request to this module writes in this module. -/
theorem amoRun_here (l : List AtomicStep) (w : List (Nat × Byte)) (ok : ∀ x ∈ l, x.pa % atomicBytes x.f = 0 ∧ isX x.pa = false)
    (start : ∀ y ∈ w, isX y.1 = false) : ∀ y ∈ (amoRun s w l).2, isX y.1 = false := by
  induction l generalizing w with
  | nil => exact start
  | cons x t ih =>
    rw [amoRun_cons]
    refine ih _ (fun y hy => ok y (by simp [hy])) fun y hy => ?_
    obtain ⟨aligned, here⟩ := ok x (by simp)
    unfold writtenAtHome at hy
    cases new : atomicNew x.f (oldAtHome s w x) x.b x.expect with
    | none => exact start y (by simpa [new] using hy)
    | some v =>
      rw [new, Option.elim_some] at hy
      rcases soSetAll_keys _ y hy with h | h
      · exact start y h
      · obtain ⟨lo, hi⟩ := atAddr_bounds _ _ y h
        rw [leBytes_length] at hi
        rw [show y.1 = x.pa + (y.1 - x.pa) by omega]
        exact not_isX_add here aligned (atomicBytes_cases x.f) (by omega)

/-- What a request writes commits as one write. -/
def commitRun (a : AtomicMsg) (ws : List (Nat × Byte)) (s : State) : State × Nat × List Refused :=
  match ws with
  | [] => (s, 0, [])
  | ws => commit ws a.depth (.die s.did) s

theorem serveAtomic_eq {a : AtomicMsg} {line : Nat} (lineEq : bodyLine (.atomic a) = line) (some_ : a.steps ≠ [])
    (ok : ∀ x ∈ a.steps, x.f ≤ 15 ∧ x.pa % atomicBytes x.f = 0 ∧ isX x.pa = false ∧ isPoisoned s x.pa 1 = false) :
    serveAtomic a s = (let r := amoRun s [] a.steps
      let c := commitRun a r.2 s
      ({ a with ack := some c.2 }, r.1.foldl (oldArrives (lineRec s line).vl) c.1)) := by
  have run := runSteps_eq a.steps [] [] ok
  have writes := amoRun_here (s := s) a.steps [] (fun x hx => ⟨(ok x hx).2.1, (ok x hx).2.2.1⟩) (by simp)
  have bad : a.steps.filter (fun x => isPoisoned s x.pa 1) = [] := List.filter_eq_nil_iff.2 fun x hx => by simp [(ok x hx).2.2.2]
  obtain ⟨x, t, steps⟩ := List.exists_cons_of_ne_nil some_
  obtain ⟨-, -, here, -⟩ := ok x (by simp [steps])
  have first : lineOf x.pa = line := by simpa [bodyLine, steps] using lineEq
  have step : (fun (acc : List (AtomicStep × DWord) × List (Nat × Byte)) (x : AtomicStep) => if isPoisoned s x.pa 1 then acc else
      let (old, w) := amoApply s acc.2 x
      (acc.1 ++ [(x, old)], w)) = runsStep s := rfl
  unfold serveAtomic
  dsimp only
  rw [step, run, bad]
  simp only [steps, here, Bool.false_eq_true, if_false, first, oldArrives_eq]
  rw [← steps]
  cases ws : (amoRun s [] a.steps).2 with
  | nil => rfl
  | cons y l =>
    have away : isX y.1 = false := writes y (by rw [ws]; exact List.mem_cons_self)
    simp only [away, Bool.false_eq_true, if_false]
    rfl

theorem exec_atomicAtHome {a : AtomicMsg} (is : IsMsg id m s) (body : m.body = .atomic a) (serves : Serves m s)
    (reach : Reaches s (masterCore s) a.ctx (bodyLine m.body * 128) 128) (some_ : a.steps ≠ [])
    (ok : ∀ x ∈ a.steps, x.f ≤ 15 ∧ x.pa % atomicBytes x.f = 0 ∧ isX x.pa = false ∧ isPoisoned s x.pa 1 = false) :
    exec (.atomicAtHome id) s = .next (let r := amoRun s [] a.steps
      let c := commitRun a r.2 s
      netUpd id (fun _ => .atomic { a with ack := some c.2 }) (r.1.foldl (oldArrives (lineRec s (bodyLine m.body)).vl) c.1)) := by
  obtain ⟨turn, free⟩ := serves
  refine congrArg Host.Outcome.next ((atMsg_eq is _).trans ?_)
  unfold IsMsg at is
  rw [body] at free reach
  simp only [atomicStep1, is, body, turn, free, Bool.not_true, Bool.or_self, Bool.false_eq_true, if_false, gate_of_reaches reach,
    serveAtomic_eq rfl some_ ok]

/-! ## Multicast windows (R242, R243) -/

theorem sameKey_eq (w : Window) (x : McastMsg) : sameKey w x = sameWindow x w := by
  simp [sameKey, sameWindow, Bool.and_assoc, Bool.decide_and, beq_eq_decide]

/-- The state with other windows. -/
def withWindows (l : List Window) (s : State) : State := { s with sl := { s.sl with windows := l } }

/-- The window's cores that have not asked for the reply, and the reply still kept for them (R242). -/
def isLate (x : McastMsg) (now : Nat) (w : Window) : Bool :=
  sameWindow x w && w.closed.any (fun k => decide (now < k + w.len)) && w.asked &&& (1#64 <<< x.bit) == 0

/-- A window that a request has joined. -/
def joinWindow (x : McastMsg) (w : Window) : Window :=
  { w with joined := w.joined ||| (1#64 <<< x.bit), asked := w.asked ||| (1#64 <<< x.bit), reqs := w.reqs ++ [x] }

/-- The window that a request opens. -/
def newWindow (x : McastMsg) (s : State) : Window :=
  { slice := homeSlice (x.line * 128), line := x.line, n0 := x.n0, mask := x.mask, joined := 1#64 <<< x.bit, asked := 1#64 <<< x.bit, reqs := [x]
    opened := s.clock.cycle, len := s.curCtx.mcwin.toNat }

theorem closeWindow_eq {i : Nat} {w : Window} (at_ : s.sl.windows[i]? = some w) (opened : w.closed = none) :
    closeWindow i s = w.reqs.foldl (fun s x => mcastReply x s) (setWindow i { w with closed := some s.clock.cycle, reqs := [] } s) := by
  simp only [closeWindow, at_, opened, Option.isSome_none, Bool.false_eq_true, if_false]

theorem settleWindow_waits {i : Nat} {w : Window} (at_ : s.sl.windows[i]? = some w) (waits : w.mask &&& ~~~w.asked ≠ 0) : settleWindow i s = s := by
  simp only [settleWindow, at_, waits, if_false]

theorem settleWindow_closes {i : Nat} {w : Window} (at_ : s.sl.windows[i]? = some w) (opened : w.closed = none) (all : w.mask &&& ~~~w.asked = 0) :
    settleWindow i s = w.reqs.foldl (fun s x => mcastReply x s) (setWindow i { w with closed := some s.clock.cycle, reqs := [] } s) := by
  simp only [settleWindow, at_, all, if_true, closeWindow_eq at_ opened]

theorem exec_mcastRequest {x : McastMsg} (is : IsMsg id m s) (body : m.body = .mcast x) (turn : mayServe s m = true) (free : otherWindow s x = false)
    (reach : Reaches s (masterCore s) x.ctx (x.line * 128) 128) : exec (.mcastRequest id) s = .next (serveMcast id x s) := by
  refine congrArg Host.Outcome.next ((atMsg_eq is _).trans ?_)
  unfold IsMsg at is
  simp only [mcastStep, is, body, turn, free, Bool.not_false, Bool.and_self, if_true, gate_of_reaches reach]

/-- A request at its slice, by which windows are open to it and which keep its reply (`serveMcast`). -/
def serveBy (id : Nat) (x : McastMsg) (isOpen late : Window → Bool) (s : State) : State :=
  let v := netDrop id s
  match s.sl.windows.findIdx? isOpen with
  | some i => match s.sl.windows[i]? with
    | some w => settleWindow i (setWindow i (joinWindow x w) v)
    | none => v
  | none => match s.sl.windows.findIdx? late with
    | some i => match s.sl.windows[i]? with
      | some w => mcastReply x (setWindow i { w with asked := w.asked ||| (1#64 <<< x.bit) } v)
      | none => v
    | none =>
      if (s.sl.windows.filter (·.slice == homeSlice (x.line * 128))).length < 16 then
        settleWindow s.sl.windows.length (withWindows (s.sl.windows ++ [newWindow x s]) v)
      else mcastReply x v

theorem late_eq (x : McastMsg) (now : Nat) :
    (fun w => sameKey w x && (match w.closed with | some k => decide (now < k + w.len) && w.asked &&& (1#64 <<< x.bit) == 0 | none => false)) = isLate x now := by
  funext w
  rw [isLate, ← sameKey_eq]
  cases w.closed <;> simp [Bool.and_assoc]

theorem serveMcast_eq (x : McastMsg) : serveMcast id x s = serveBy id x (fun w => sameWindow x w && w.closed.isNone) (isLate x s.clock.cycle) s := by
  have isOpen : (fun w => sameKey w x && w.closed.isNone) = fun w => sameWindow x w && w.closed.isNone := funext fun w => by rw [sameKey_eq]
  rw [← isOpen, ← late_eq]
  rfl

section

variable {x : McastMsg} {i : Nat} {w : Window}

theorem windows_setWindow (u : State) : setWindow i w u = withWindows (u.sl.windows.set i w) u := rfl

theorem serveMcast_joins (found : s.sl.windows.findIdx? (fun w => sameWindow x w && w.closed.isNone) = some i) (at_ : s.sl.windows[i]? = some w) :
    ((joinWindow x w).mask &&& ~~~(joinWindow x w).asked ≠ 0 → serveMcast id x s = withWindows (s.sl.windows.set i (joinWindow x w)) (netDrop id s))
    ∧ ((joinWindow x w).mask &&& ~~~(joinWindow x w).asked = 0 → serveMcast id x s = (joinWindow x w).reqs.foldl (fun s x => mcastReply x s)
      (withWindows (s.sl.windows.set i { joinWindow x w with closed := some s.clock.cycle, reqs := [] }) (netDrop id s))) := by
  obtain ⟨inside, same, -⟩ := List.findIdx?_eq_some_iff_getElem.1 found
  have closed : (joinWindow x w).closed = none := by
    rw [List.getElem?_eq_getElem inside, Option.some_inj] at at_
    simp only [at_, Bool.and_eq_true, Option.isNone_iff_eq_none] at same
    exact same.2
  have now : (setWindow i (joinWindow x w) (netDrop id s)).sl.windows[i]? = some (joinWindow x w) := List.getElem?_set_self inside
  have serves : serveMcast id x s = settleWindow i (setWindow i (joinWindow x w) (netDrop id s)) := by
    simp only [serveMcast_eq, serveBy, found, at_]
  refine ⟨fun waits => serves.trans (settleWindow_waits now waits), fun all => (serves.trans (settleWindow_closes now closed all)).trans ?_⟩
  rw [windows_setWindow, windows_setWindow]
  simp only [withWindows, netDrop, List.set_set]

theorem serveMcast_late (none_ : s.sl.windows.findIdx? (fun w => sameWindow x w && w.closed.isNone) = none)
    (found : s.sl.windows.findIdx? (isLate x s.clock.cycle) = some i) (at_ : s.sl.windows[i]? = some w) :
    serveMcast id x s = mcastReply x (withWindows (s.sl.windows.set i { w with asked := w.asked ||| (1#64 <<< x.bit) }) (netDrop id s)) := by
  simp only [serveMcast_eq, serveBy, none_, found, at_]
  rfl

theorem serveMcast_full (none_ : s.sl.windows.findIdx? (fun w => sameWindow x w && w.closed.isNone) = none)
    (noLate : s.sl.windows.findIdx? (isLate x s.clock.cycle) = none)
    (full : 16 ≤ (s.sl.windows.filter (fun w => w.slice == homeSlice (x.line * 128))).length) : serveMcast id x s = mcastReply x (netDrop id s) := by
  simp only [serveMcast_eq, serveBy, none_, noLate, if_neg (Nat.not_lt.2 full)]

theorem serveMcast_opens (none_ : s.sl.windows.findIdx? (fun w => sameWindow x w && w.closed.isNone) = none)
    (noLate : s.sl.windows.findIdx? (isLate x s.clock.cycle) = none)
    (room : (s.sl.windows.filter (fun w => w.slice == homeSlice (x.line * 128))).length < 16) :
    ((newWindow x s).mask &&& ~~~(newWindow x s).asked ≠ 0 → serveMcast id x s = withWindows (s.sl.windows ++ [newWindow x s]) (netDrop id s))
    ∧ ((newWindow x s).mask &&& ~~~(newWindow x s).asked = 0 → serveMcast id x s
      = mcastReply x (withWindows (s.sl.windows ++ [{ newWindow x s with closed := some s.clock.cycle, reqs := [] }]) (netDrop id s))) := by
  have now : (withWindows (s.sl.windows ++ [newWindow x s]) (netDrop id s)).sl.windows[s.sl.windows.length]? = some (newWindow x s) :=
    List.getElem?_concat_length
  have serves : serveMcast id x s = settleWindow s.sl.windows.length (withWindows (s.sl.windows ++ [newWindow x s]) (netDrop id s)) := by
    simp only [serveMcast_eq, serveBy, none_, noLate, if_pos room]
  refine ⟨fun waits => serves.trans (settleWindow_waits now waits), fun all => (serves.trans (settleWindow_closes now rfl all)).trans ?_⟩
  rw [windows_setWindow]
  simp only [withWindows, netDrop, newWindow, List.foldl_cons, List.foldl_nil, List.set_append_right _ _ (Nat.le_refl _), Nat.sub_self, List.set_cons_zero]

end

theorem closeWindow_step {k : Nat} {w : Window} (at_ : s.sl.windows[k]? = some w) (opened : w.closed = none) (due : w.opened + w.len ≤ s.clock.cycle) :
    exec (.mcastWindowClose k) s = .next (w.reqs.foldl (fun s x => mcastReply x s)
      (withWindows (s.sl.windows.set k { w with closed := some s.clock.cycle, reqs := [] }) s)) := by
  refine congrArg Host.Outcome.next ?_
  simp only [at_, opened, Option.isNone_none, decide_eq_true due, Bool.and_self, if_true, ge_iff_le, closeWindow_eq at_ opened]
  rfl

theorem slotFree_step {k c : Nat} {w : Window} (at_ : s.sl.windows[k]? = some w) (closed : w.closed = some c)
    (done : c + w.len ≤ s.clock.cycle ∨ w.mask &&& ~~~w.asked = 0) :
    exec (.mcastSlotFree k) s = .next (withWindows (s.sl.windows.eraseIdx k) s) := by
  have free : slotDone s w = true := by simpa [slotDone, closed] using done
  refine congrArg Host.Outcome.next ?_
  simp only [at_, free, if_true]
  rfl

theorem leaveTaken_eq (line : Nat) (s : State) : leaveTaken line s = servedPast line s := by
  simp [leaveTaken, servedPast]

theorem getBytes_length (mem : List (Nat × Byte)) (a n : Nat) : (getBytes mem a n).length = n := by
  induction n generalizing a with
  | zero => rfl
  | succ n ih => rw [getBytes, List.length_cons, ih]

/-- A sector of a multicast reply is installed where the core keeps it. -/
def installsHalf (line k e vt : Nat) (bs : List Byte) (s : State) : State :=
  if mayInstall s line k = true then l1Install line k ((bs.drop (64 * k)).take 64) e vt false s else s

theorem mcastReply_eq {x : McastMsg} (here : mcastHere s x = true) (low : isPoisoned s (x.line * 128) 1 = false)
    (high : isPoisoned s (x.line * 128 + 64) 1 = false) (inLine : ∀ w ∈ x.waits, lineOf w.pa = x.line) :
    mcastReply x s = (let g := grantLease x.line x.lease s.did s
      let bs := getBytes s.mem (x.line * 128) 128
      x.waits.foldl (fun s w => deliver w ((bs.drop (w.pa - x.line * 128)).take w.size) g.2.2 false s)
        (servedPast x.line (installsHalf x.line 1 g.2.1 g.2.2 bs (installsHalf x.line 0 g.2.1 g.2.2 bs g.1)))) := by
  have len : ((getBytes s.mem (x.line * 128) 128).drop 64).take 64 = (getBytes s.mem (x.line * 128) 128).drop 64 :=
    List.take_of_length_le (by simp [getBytes_length])
  have install (line k e vt : Nat) (bs : List Byte) (s : State) :
      (if !mayInstall s line k then s else l1Install line k ((bs.drop (64 * k)).take 64) e vt false s) = installsHalf line k e vt bs s := by
    unfold installsHalf
    cases mayInstall s line k <;> rfl
  have good (w : LoadWait) (hw : w ∈ x.waits) : isPoisoned s w.pa 1 = false := by
    have line := inLine w hw
    unfold lineOf at line
    have half : w.pa / 64 = x.line * 128 / 64 ∨ w.pa / 64 = (x.line * 128 + 64) / 64 := by omega
    simp only [isPoisoned, Nat.add_sub_cancel, Bool.or_self] at low high ⊢
    rcases half with h | h <;> rw [h] <;> assumption
  have first := install x.line 0 (grantLease x.line x.lease s.did s).2.1 (grantLease x.line x.lease s.did s).2.2 (getBytes s.mem (x.line * 128) 128)
  have second := install x.line 1 (grantLease x.line x.lease s.did s).2.1 (grantLease x.line x.lease s.did s).2.2 (getBytes s.mem (x.line * 128) 128)
  simp only [Nat.mul_zero, List.drop_zero, Nat.mul_one, len] at first second
  unfold mcastReply
  simp only [here, if_true, low, high, Bool.false_or, homeRead, leaveTaken_eq, first, second]
  exact foldl_congr _ _ _ _ fun w hw s => by rw [good w hw]; rfl

/-! ## Turns (R209) -/

theorem not_mayReturn {a : Msg} (is : IsMsg id m s) (ahead : a ∈ s.pl.net.takeWhile (·.id != id)) (line : bodyLine a.body = bodyLine m.body) :
    mayReturn s m = false := by
  rw [mayReturn, netBefore, id_of_isMsg is, Bool.and_eq_false_iff]
  exact .inr (List.all_eq_false.2 ⟨a, ahead, by simp [line]⟩)

theorem not_mayServe {a : Msg} (is : IsMsg id m s) (ahead : a ∈ s.pl.net.takeWhile (·.id != id)) (line : bodyLine a.body = bodyLine m.body)
    (open_ : bodyServed a.body = false) : mayServe s m = false := by
  have held : (netBefore s m.id).all (fun x => bodyLine x.body != bodyLine m.body || bodyServed x.body) = false := by
    rw [netBefore, id_of_isMsg is]
    exact List.all_eq_false.2 ⟨a, ahead, by simp [line, open_]⟩
  simp [mayServe, held]

theorem exec_notReturned (is : IsMsg id m s) (held : mayReturn s m = false) :
    exec (.writeAck id) s = .next s ∧ exec (.fillReply id) s = .next s := by
  refine ⟨congrArg Host.Outcome.next ((atMsg_eq is _).trans ?_), congrArg Host.Outcome.next ((atMsg_eq is _).trans ?_)⟩
  · unfold IsMsg at is
    simp only [writeAckStep, is, held, Bool.not_false, if_true]
  · unfold IsMsg at is
    simp only [fillReplyStep, is, held, Bool.not_false, if_true]
    cases m.body with
    | fill f => dsimp only; split <;> rfl
    | _ => rfl

theorem exec_notServed (is : IsMsg id m s) (held : mayServe s m = false) :
    exec (.writeCommit id) s = .next s ∧ exec (.fillRequest id) s = .next s ∧ exec (.atomicAtHome id) s = .next s
      ∧ exec (.mcastRequest id) s = .next s := by
  refine ⟨congrArg Host.Outcome.next ((atMsg_eq is _).trans ?_), congrArg Host.Outcome.next ((atMsg_eq is _).trans ?_),
    congrArg Host.Outcome.next ((atMsg_eq is _).trans ?_), congrArg Host.Outcome.next ((atMsg_eq is _).trans ?_)⟩
  all_goals unfold IsMsg at is
  · simp only [writeCommitStep, is, held, Bool.not_false, Bool.true_or, if_true]
    cases m.body <;> rfl
  · simp only [fillRequestStep, is, held, Bool.false_and, Bool.false_eq_true, if_false]
    cases m.body <;> rfl
  · simp only [atomicStep1, is, held, Bool.not_false, Bool.true_or, if_true]
    cases m.body <;> rfl
  · simp only [mcastStep, is, held, Bool.false_and, Bool.false_eq_true, if_false]
    cases m.body <;> rfl

end

/-- Settles O38, message by message. -/
theorem messagesAtTheHome : Obligations.MessagesAtTheHome := by
  refine ⟨fun id s m w x ws is body bytes serves here reach => exec_writeCommit is body bytes serves here reach,
    fun id s m w t rf is body ack returns => exec_writeAck is body ack returns,
    fun id s m a t rf is body ack returns => exec_atomicAck is body ack returns,
    fun id s m f is body serves distinct reach alone => ?fills,
    fun id s m f is body serves reach threads => ?together,
    fun id s m f bs e vt bad is body reply returns => exec_fillReply is body reply returns,
    fun line sec bs e vt keep s len sector wf => l1Install_find len sector wf,
    fun w bs vt s thread size ok waits load plain good clean => ⟨deliver_gets thread ok waits load plain good clean size,
      fun takes => ⟨_, deliver_poison thread ok waits load plain takes, rfl⟩⟩,
    fun id s m a is body serves reach some_ ok => exec_atomicAtHome is body serves reach some_ ok,
    fun id s m x is body turn free reach => ?mcast,
    fun x s here low high inLine => mcastReply_eq here low high inLine,
    fun k s w at_ opened due => closeWindow_step at_ opened due,
    fun k c s w at_ closed done => slotFree_step at_ closed done,
    fun id s m a is ahead line => ⟨exec_notReturned is (not_mayReturn is ahead line), fun open_ => exec_notServed is (not_mayServe is ahead line open_)⟩⟩
  case fills =>
    have run := exec_fillRequest is body serves reach
    rw [fills_alone is body serves distinct alone] at run
    have answer : exec (.fillRequest id) s = .next (netUpd id (fun _ => .fill (fillAnswer f s).1) (fillAnswer f s).2) := by
      rw [run, List.foldl_cons, List.foldl_nil, answersFill, body, id_of_isMsg is]
    refine ⟨fun bad => ?_, fun good alloc => ?_, fun good alloc => ?_⟩
    · rw [answer, fillAnswer_poisoned bad]
    · rw [answer, fillAnswer_lease reach.1 good alloc]
    · rw [answer, fillAnswer_plain reach.1 good alloc]
  case together =>
    refine ⟨_, exec_fillRequest is body serves reach, fun y hy g fill bundle line others turn => ?_⟩
    have noStream (l : List LoadWait) (h : ∀ w ∈ l, w.stream = none) : l.any (·.stream.isSome) = false := List.any_eq_false.2 fun w hw => by simp [h w hw]
    have unserved : g.reply.isNone = true := by
      simp only [mayServe, fill, bodyServed, Bool.and_eq_true, Bool.not_eq_true'] at turn
      simpa using turn.1.1
    have same : readTogether id f y = true := by
      simp [readTogether, fill, bundle, line, unserved, noStream _ threads, noStream _ others]
    exact servedAt_of_mem fill (List.mem_filter.2 ⟨hy, joinsRead_of_mayServe fill line turn same⟩) s
  case mcast =>
    have run := exec_mcastRequest is body turn free reach
    rw [run]
    refine ⟨fun i w found at_ => ?_, fun i w none_ found at_ => ?_, fun none_ noLate full => ?_, fun none_ noLate room => ?_⟩
    · exact (serveMcast_joins found at_).imp (fun h e => congrArg _ (h e)) fun h e => congrArg _ (h e)
    · exact congrArg _ (serveMcast_late none_ found at_)
    · exact congrArg _ (serveMcast_full none_ noLate full)
    · exact (serveMcast_opens none_ noLate room).imp (fun h e => congrArg _ (h e)) fun h e => congrArg _ (h e)

end Sys2Proof.Laws
end

section
/-! PROOF. The ends of waits, release points, barriers and crossings (R88, R98, R101, R149, R152, R198, R200, R214, R219, R220, R246, R255, R256). -/

namespace Sys2Proof.Laws

open Sys2Proof Sys2Proof.Machine Sys2Proof.Rules

/-! ## Reads that a release waits for (R219) -/

section

variable {s : State}

theorem readsOpen_iff (tags : List Nat) (mask : BitVec 3) (own : Option Nat) : readsOpen s tags mask own = false ↔ ReadsServed s tags mask own := by
  unfold readsOpen ReadsServed
  rw [Bool.or_eq_false_iff, Bool.or_eq_false_iff, List.any_eq_false, List.any_eq_false, and_assoc]
  refine and_congr (forall₂_congr fun m _ => ?_) (and_congr ?_ (forall₂_congr fun q _ => ?_))
  · cases m.body with
    | mcast x => cases mask.getLsbD 1 <;> simp
    | _ => simp [Option.isSome_iff_ne_none, or_iff_not_imp_left]
  · simp
  · cases q.atom <;> simp

theorem noEvicts_iff : evictsOpen s = false ↔ ∀ m ∈ s.pl.net, ∀ w, m.body = .write w → w.writer ≠ .evict := by
  unfold evictsOpen
  rw [List.any_eq_false]
  refine forall₂_congr fun m _ => ?_
  cases m.body <;> simp

theorem notQueued_iff (uid seq : Nat) (p : Nat → Bool) :
    queuedBefore s uid seq p = false ↔ ∀ q ∈ s.pl.storeQ, q.uid = uid → q.seq < seq → p q.space = false := by
  simp [queuedBefore, ownQueue]

theorem backsMet_iff (scope : Nat) : backsMet s scope = true ↔
    (∀ m ∈ s.pl.net, ∀ w u, m.body = .write w → w.writer = .forced u → scope ≤ w.tag) ∧ ∀ x ∈ s.backs, scope ≤ x.1 ∨ x.2 ≤ s.clock.tbase := by
  unfold backsMet
  rw [Bool.and_eq_true, Bool.not_eq_true', List.any_eq_false, List.all_eq_true]
  refine and_congr (forall₂_congr fun m _ => ?_) (forall₂_congr fun x _ => decide_eq_true_iff)
  cases m.body with
  | write w =>
    have only : (∀ w' u, MsgBody.write w = .write w' → w'.writer = .forced u → scope ≤ w'.tag) ↔ ∀ u, w.writer = .forced u → scope ≤ w.tag :=
      ⟨fun h u => h w u rfl, by rintro h _ u ⟨⟩; exact h u⟩
    rw [only]
    dsimp only
    cases w.writer <;> simp
  | _ => simp

theorem upperBits (mask : BitVec 3) : (mask.extractLsb' 1 2 == 0) = (!mask.getLsbD 1 && !mask.getLsbD 2) := by
  revert mask
  decide

theorem released_iff (uid seq scope : Nat) (mask : BitVec 3) (own : Option Nat) :
    (releaseMet s uid seq mask own && (!mask.getLsbD 1 || backsMet s scope)) = true ↔ Released uid seq scope mask own s := by
  have tags : readTags s uid = ((s.living.find? (·.uid == uid)).map (fun t => t.pend.map (·.tag))).getD [] := by
    unfold readTags
    cases s.living.find? (·.uid == uid) <;> rfl
  unfold releaseMet Released
  rw [tags, upperBits]
  simp only [Bool.and_eq_true, Bool.or_eq_true, Bool.not_eq_true', readsOpen_iff, noEvicts_iff, notQueued_iff, backsMet_iff, Bool.and_eq_false_iff,
    decide_eq_true_eq, beq_eq_false_iff_ne, bne_eq_false_iff_eq, ge_iff_le, max_le_iff, and_assoc]
  cases mask.getLsbD 0 <;> cases mask.getLsbD 1 <;> cases mask.getLsbD 2 <;> simp [and_assoc]

/-! ## Write-backs of a release (R216, R219) -/

theorem joinsBacks_eq (uid scope : Nat) (s : State) : joinBacks uid scope s = joinsBacks uid scope s := by
  have same (m : Msg) : (match m.body with
      | .write w => (match w.writer with
        | .forced u => if u ≠ uid ∧ w.tag < scope then { m with body := .write { w with who := joinNo w.who uid } } else m
        | _ => m)
      | _ => m) = (match m.body with
      | .write w => (match w.writer with
        | .forced u => if u ≠ uid ∧ w.tag < scope ∧ uid ∉ w.who then { m with body := .write { w with who := w.who ++ [uid] } } else m
        | _ => m)
      | _ => m) := by
    cases body : m.body with
    | write w =>
      dsimp only
      cases writer : w.writer with
      | forced u =>
        by_cases joined : uid ∈ w.who
        · have kept : ({ m with body := .write { w with writer := .forced u, who := joinNo w.who uid } } : Msg) = m := by
            rw [joinNo, if_pos (by simpa using joined), ← writer, ← body]
          simp [joined, kept]
        · simp [joinNo, joined]
      | _ => rfl
    | _ => rfl
  exact congrArg (fun f => ({ s with pl := { s.pl with net := s.pl.net.map f } } : State)) (funext same)

theorem l1Find_of_mem {l : L1Line} (distinct : (s.pl.l1.map (·.line)).Nodup) (mem : l ∈ s.pl.l1) : l1Find s l.line = some l := by
  cases found : l1Find s l.line with
  | none => exact absurd (beq_self_eq_true l.line) (by simpa using List.find?_eq_none.1 found l mem)
  | some c => rw [List.inj_on_of_nodup_map distinct (List.mem_of_find?_eq_some found) mem (l1Find_line found)]

/-- Every write on its way stays on its way. -/
def KeepsWrites (s t : State) : Prop := ∀ m ∈ s.pl.net, ∀ w, m.body = .write w → m ∈ t.pl.net

theorem KeepsWrites.trans {s t u : State} (a : KeepsWrites s t) (b : KeepsWrites t u) : KeepsWrites s u := fun m hm w hw => b m (a m hm w hw) w hw

theorem keepsWrites_cancelFills (p : Fill → Bool) (line sec : Nat) (s : State) : KeepsWrites s (cancelFills p line sec s) :=
  fun m hm w hw => List.mem_map.2 ⟨m, hm, by rw [hw]⟩

theorem keepsWrites_updReads (f : List LoadWait → List LoadWait) (s : State) : KeepsWrites s (updReads f s) :=
  fun m hm w hw => List.mem_map.2 ⟨m, hm, by obtain ⟨k, body⟩ := m; cases (hw : body = _); rfl⟩

theorem keepsWrites_cancelIf (c : Prop) [Decidable c] (line sec : Nat) (s : State) :
    KeepsWrites s (if c then cancelFills (fun _ => true) line sec s else s) := by
  split
  · exact keepsWrites_cancelFills _ _ _ _
  · exact fun m hm _ _ => hm

/-- The message of a write-back (R216). -/
def backOf (l : L1Line) (w : Writer) : WriteMsg :=
  { ws := dirtyBytes l, writer := w, depth := l.depth, tag := l.scope, who := l.who, bundle := l.bundle, poison := dirtyPoison l, ctx := l.ctx }

/-- The line that a write-back leaves. -/
def cleaned (l : L1Line) : L1Line := { l with dirty := 0, scope := 0, depth := 0, who := [], bundle := 0 }

/-- The state before a write-back's message leaves: the reads on their way know its bytes, and no fill of its sectors installs a copy. -/
def beforeBack (line : Nat) (l : L1Line) (s : State) : State :=
  let s := updReads (learnAll ((dirtyBytes l).map (fun x => (x.1, some x.2))) (dirtyPoison l)) s
  let s := if spanAny l.dirty 0 64 then cancelFills (fun _ => true) line 0 s else s
  if spanAny l.dirty 64 64 then cancelFills (fun _ => true) line 1 s else s

theorem writeBack_dirty {line : Nat} {w : Writer} {l : L1Line} (find : l1Find s line = some l) (dirty : l.dirty ≠ 0) :
    writeBack line w s = (let u := netSend (.write (backOf l w)) (l1Put (cleaned l) (beforeBack line l s)); (some u.1, u.2)) := by
  simp only [writeBack, find, if_neg dirty]
  rfl

theorem beforeBack_l1 (line : Nat) (l : L1Line) (s : State) : (beforeBack line l s).pl.l1 = s.pl.l1 := by
  unfold beforeBack
  dsimp only
  split <;> split <;> rfl

theorem keepsWrites_beforeBack (line : Nat) (l : L1Line) (s : State) : KeepsWrites s (beforeBack line l s) :=
  ((keepsWrites_updReads _ _).trans (keepsWrites_cancelIf _ _ _ _)).trans (keepsWrites_cancelIf _ _ _ _)

theorem keepsWrites_writeBack (line : Nat) (w : Writer) (s : State) : KeepsWrites s (writeBack line w s).2 := by
  cases find : l1Find s line with
  | none => rw [writeBack_clean (by simp [find])]; exact fun m hm _ _ => hm
  | some l =>
    by_cases dirty : l.dirty = 0
    · rw [writeBack_clean (by simp [find, dirty])]
      exact fun m hm _ _ => hm
    · rw [writeBack_dirty find dirty]
      exact fun m hm x hx => List.mem_append_left _ (keepsWrites_beforeBack line l s m hm x hx)

theorem l1Find_l1Put_other {l : L1Line} {k : Nat} (other : k ≠ l.line) (s : State) : l1Find (l1Put l s) k = l1Find s k := by
  have miss : (l.line == k) = false := by simpa using Ne.symm other
  unfold l1Find l1Put
  rw [List.find?_cons_of_neg (by simp [miss]), List.find?_filter]
  congr 1
  funext x
  by_cases e : x.line = k
  · simp [e, other]
  · simp [e]

theorem l1Find_writeBack_other {line k : Nat} (other : k ≠ line) (w : Writer) (s : State) : l1Find (writeBack line w s).2 k = l1Find s k := by
  cases find : l1Find s line with
  | none => rw [writeBack_clean (by simp [find])]
  | some l =>
    by_cases dirty : l.dirty = 0
    · rw [writeBack_clean (by simp [find, dirty])]
    · rw [writeBack_dirty find dirty]
      exact (l1Find_l1Put_other (by rwa [cleaned, l1Find_line find]) _).trans (by rw [l1Find, beforeBack_l1]; rfl)

theorem l1Find_writeBack_self {line : Nat} {w : Writer} {l : L1Line} (find : l1Find s line = some l) (dirty : l.dirty ≠ 0) :
    l1Find (writeBack line w s).2 line = some (cleaned l) := by
  rw [writeBack_dirty find dirty]
  have place : l.line = line := l1Find_line find
  exact l1Find_l1Put (l := cleaned l) place _

/-- One line of `writeBackAll`. -/
def backStep (w : Writer) (x : List Nat × State) (line : Nat) : List Nat × State := (x.1 ++ (writeBack line w x.2).1.toList, (writeBack line w x.2).2)

theorem writeBackAll_eq (p : L1Line → Bool) (w : Writer) (s : State) :
    writeBackAll p w s = ((s.pl.l1.filter (fun l => l.dirty != 0 && p l)).map (·.line)).foldl (backStep w) ([], s) := rfl

theorem keepsWrites_backs (w : Writer) (ls : List Nat) (x : List Nat × State) : KeepsWrites x.2 (ls.foldl (backStep w) x).2 := by
  induction ls generalizing x with
  | nil => exact fun m hm _ _ => hm
  | cons a t ih => exact (keepsWrites_writeBack a w x.2).trans (ih (backStep w x a))

theorem backs_ne_nil (w : Writer) (ls : List Nat) {x : List Nat × State} (some_ : x.1 ≠ []) : (ls.foldl (backStep w) x).1 ≠ [] := by
  induction ls generalizing x with
  | nil => exact some_
  | cons a t ih => exact ih (by simp [backStep, some_])

theorem backs_clean {w : Writer} {k : Nat} {c : L1Line} (clean : c.dirty = 0) (ls : List Nat) {x : List Nat × State} (find : l1Find x.2 k = some c) :
    l1Find (ls.foldl (backStep w) x).2 k = some c := by
  induction ls generalizing x with
  | nil => exact find
  | cons a t ih =>
    refine ih ?_
    by_cases e : k = a
    · rw [backStep, writeBack_clean (by rw [← e, find]; simp [clean])]
      exact find
    · rw [backStep, l1Find_writeBack_other e]
      exact find

/-- What write-backs of lines leave of one that was dirty: the line clean with its bytes, and its message on its way. -/
theorem backs_dirty {w : Writer} {k : Nat} {l : L1Line} (dirty : l.dirty ≠ 0) {ls : List Nat} (mem : k ∈ ls) {x : List Nat × State}
    (find : l1Find x.2 k = some l) :
    (ls.foldl (backStep w) x).1 ≠ [] ∧ l1Find (ls.foldl (backStep w) x).2 k = some (cleaned l)
      ∧ ∃ m ∈ (ls.foldl (backStep w) x).2.pl.net, m.body = .write (backOf l w) := by
  induction ls generalizing x with
  | nil => exact absurd mem List.not_mem_nil
  | cons a t ih =>
    rw [List.foldl_cons]
    by_cases e : k = a
    · subst e
      refine ⟨backs_ne_nil w t (by rw [backStep, writeBack_dirty find dirty]; simp),
        backs_clean (c := cleaned l) rfl t (by rw [backStep]; exact l1Find_writeBack_self find dirty), ?_⟩
      have sent : ∃ m ∈ (backStep w x k).2.pl.net, m.body = .write (backOf l w) := by
        rw [backStep, writeBack_dirty find dirty]
        exact ⟨_, List.mem_append_right _ List.mem_cons_self, rfl⟩
      obtain ⟨m, hm, body⟩ := sent
      exact ⟨m, keepsWrites_backs w t _ m hm _ body, body⟩
    · exact ih ((List.mem_cons.1 mem).resolve_left e) (by rw [backStep, l1Find_writeBack_other e]; exact find)

/-! ## The release step (R214, R219) -/

theorem releaseStep_global {uid seq scope : Nat} {mask : BitVec 3} {own : Option Nat} (g : mask.getLsbD 1 = true) :
    releaseStep uid seq scope mask own s = (let w := writeBackAll (fun l => decide (l.scope < scope)) (.forced uid) (joinsBacks uid scope s)
      (w.1.isEmpty && (releaseMet w.2 uid seq mask own && (!mask.getLsbD 1 || backsMet w.2 scope)), w.2)) := by
  unfold releaseStep
  rw [if_pos g, joinsBacks_eq]
  simp only [Bool.and_assoc]

theorem releaseStep_local {uid seq scope : Nat} {mask : BitVec 3} {own : Option Nat} (g : mask.getLsbD 1 = false) :
    releaseStep uid seq scope mask own s = (releaseMet s uid seq mask own && (!mask.getLsbD 1 || backsMet s scope), s) := by
  unfold releaseStep
  rw [if_neg (by rw [g]; exact Bool.false_ne_true)]
  simp only [List.isEmpty_nil, Bool.true_and]

theorem releaseStep_dirty {uid seq scope : Nat} {mask : BitVec 3} {own : Option Nat} {l : L1Line} (g : mask.getLsbD 1 = true)
    (distinct : (s.pl.l1.map (·.line)).Nodup) (mem : l ∈ s.pl.l1) (dirty : l.dirty ≠ 0) (below : l.scope < scope) :
    (releaseStep uid seq scope mask own s).1 = false
    ∧ l1Find (releaseStep uid seq scope mask own s).2 l.line = some (cleaned l)
    ∧ ∃ m ∈ (releaseStep uid seq scope mask own s).2.pl.net, m.body = .write (backOf l (.forced uid)) := by
  have listed : l.line ∈ ((joinsBacks uid scope s).pl.l1.filter (fun l => l.dirty != 0 && decide (l.scope < scope))).map (·.line) :=
    List.mem_map_of_mem (List.mem_filter.2 ⟨mem, by simp [dirty, below]⟩)
  obtain ⟨some_, find, sent⟩ := backs_dirty (w := .forced uid) (x := ([], joinsBacks uid scope s)) dirty listed (l1Find_of_mem distinct mem)
  rw [releaseStep_global g, writeBackAll_eq]
  exact ⟨by simp [some_], find, sent⟩

theorem releaseStep_clean {uid seq scope : Nat} {mask : BitVec 3} {own : Option Nat} (g : mask.getLsbD 1 = true)
    (clean : ∀ l ∈ s.pl.l1, l.dirty = 0 ∨ scope ≤ l.scope) :
    releaseStep uid seq scope mask own s = (releaseMet (joinsBacks uid scope s) uid seq mask own
      && (!mask.getLsbD 1 || backsMet (joinsBacks uid scope s) scope), joinsBacks uid scope s) := by
  have none_ : (joinsBacks uid scope s).pl.l1.filter (fun l => l.dirty != 0 && decide (l.scope < scope)) = [] :=
    List.filter_eq_nil_iff.2 fun l hl => by rcases clean l hl with h | h <;> simp [h]
  rw [releaseStep_global g, writeBackAll_eq, none_]
  rfl

end

/-! ## The ends of waits -/

section

variable {slot lane : Nat} {s : State} (ok : Concerns s slot lane)

include ok

/-- A step of a thread that concerns it acts on it alone. -/
theorem next_atThread {f : State → State} {u : State} (run : f (s.bring slot lane) = u) :
    Host.Outcome.next (s.atThread (.thread slot lane) f) = (.next (s.putBack slot lane u) : Answer) := by
  rw [atThread_eq ok, run]

theorem exec_yieldExpiry {till : Nat} (park : (s.bring slot lane).th.park = .yield till) (due : till < (s.bring slot lane).clock.cycle) :
    exec (.yieldExpiry (.thread slot lane)) s = .next (s.putBack slot lane (goesAgain (s.bring slot lane))) :=
  next_atThread ok (by simp only [park, gt_iff_lt, due, if_true]; rfl)

theorem exec_csrwInForce {n : Nat} {v : Word} (park : (s.bring slot lane).th.park = .csrw n v) :
    exec (.csrwInForce (.thread slot lane)) s
      = .next (s.putBack slot lane (goesAgain (csrForce (s.bring slot lane).ctxNo n v (s.bring slot lane)))) :=
  next_atThread ok (by simp only [park]; rfl)

omit ok in
theorem noneInNet {ids : List Nat} (gone : ∀ m ∈ s.pl.net, ids.contains m.id = false) : anyInNet s ids = false :=
  List.any_eq_false.2 fun m hm => by rw [gone m hm]; exact Bool.false_ne_true

theorem exec_flushComplete {ids : List Nat} (park : (s.bring slot lane).th.park = .flush ids)
    (gone : ∀ m ∈ (s.bring slot lane).pl.net, ids.contains m.id = false) :
    exec (.flushComplete (.thread slot lane)) s = .next (s.putBack slot lane (goesAgain (s.bring slot lane))) :=
  next_atThread ok (by simp only [park, noneInNet gone, Bool.false_eq_true, if_false]; rfl)

theorem exec_icinvComplete {lo hi : Nat} {ids : List Nat} (park : (s.bring slot lane).th.park = .icinv lo hi ids)
    (gone : ∀ m ∈ (s.bring slot lane).pl.net, ids.contains m.id = false)
    (done : writesOpen (s.bring slot lane) (s.bring slot lane).th.uid = false) (past : (s.bring slot lane).th.pct ≤ (s.bring slot lane).clock.tbase) :
    exec (.icinvComplete (.thread slot lane)) s = .next (s.putBack slot lane (let b := s.bring slot lane
      goesAgain { dropCode b.ctxNo lo hi b.th.found b with th := { b.th with found := [] } })) :=
  next_atThread ok (by simp only [park, noneInNet gone, done, Nat.not_lt.2 past, decide_false, Bool.or_self, Bool.false_eq_true, if_false]; rfl)

theorem exec_wshrinkComplete {tag n : Nat} (park : (s.bring slot lane).th.park = .wshrink tag n)
    (other : otherReq (s.bring slot lane) (s.bring slot lane).th.slot = false) (older : olderShrink (s.bring slot lane) (s.bring slot lane).th.slot tag = false)
    (free : shrinkWaits (s.bring slot lane) (s.bring slot lane).th.slot n = false) :
    exec (.wshrinkComplete (.thread slot lane)) s = .next (s.putBack slot lane (let b := s.bring slot lane
      shrinkTo b.th.slot n { b with th := resumed (b.th.arrive tag [0]) })) :=
  next_atThread ok (by simp only [park, other, older, free, Bool.or_self, Bool.false_eq_true, if_false]; rfl)

theorem exec_poolRelComplete {tag h : Nat} (park : (s.bring slot lane).th.park = .poolRel tag) (block : (s.bring slot lane).warp.block = some h)
    (free : scratchOpen (s.bring slot lane) h = false) :
    exec (.poolRelComplete (.thread slot lane)) s = .next (s.putBack slot lane (let b := s.bring slot lane
      releaseScratch h b.th.slot { b with th := resumed (b.th.arrive tag [0]) })) :=
  next_atThread ok (by simp only [park, block, free, Bool.false_eq_true, if_false]; rfl)

theorem exec_watchComplete {d : Option Nat} {k : Att} (park : (s.bring slot lane).th.park = .watch d k) :
    exec (.watchComplete (.thread slot lane)) s = .next (s.putBack slot lane (let b := s.bring slot lane
      overWith (d.toList.map (fun p => (p, BitVec.ofNat 32 k.id))) 4 { b with sl := { b.sl with atts := b.sl.atts ++ [k] } })) :=
  next_atThread ok (by simp only [park, resumeWith, resumeWith_eq])

theorem exec_unwatchComplete {d : Option Nat} {id : Nat} {discard : Bool} (park : (s.bring slot lane).th.park = .unwatch d id discard) {u : State}
    (stops : u = let b := s.bring slot lane
      if discard then discardRecords b.ctxNo id (stopAtt b.ctxNo id b) else stopAtt b.ctxNo id b) (none_ : hasRecords u u.ctxNo id = false) :
    exec (.unwatchComplete (.thread slot lane)) s
      = .next (s.putBack slot lane (overWith (d.toList.map (fun p => (p, 0))) 4 (freeAtt u.ctxNo id u))) :=
  next_atThread ok (by
    simp only [park]
    change (let t := if discard then discardRecords (s.bring slot lane).ctxNo id (stopAtt (s.bring slot lane).ctxNo id (s.bring slot lane))
        else stopAtt (s.bring slot lane).ctxNo id (s.bring slot lane)
      if hasRecords t t.ctxNo id then t else resumeWith d 0 4 (freeAtt t.ctxNo id t)) = _
    rw [← stops]
    simp only [none_, Bool.false_eq_true, if_false, resumeWith, resumeWith_eq])

end

/-! ## Release points of parked threads (R219, R244) -/

section

variable {slot lane : Nat} {s : State}

theorem exec_releasePoint (ok : Concerns (queuedPoint slot lane s) slot lane) :
    exec (.releasePoint (.thread slot lane)) s
      = .next ((queuedPoint slot lane s).putBack slot lane (threadPoint ((queuedPoint slot lane s).bring slot lane))) := by
  obtain ⟨near, lives⟩ := ok
  refine congrArg Host.Outcome.next ?_
  unfold pointStep
  dsimp only
  rw [if_pos near, asThread_eq lives]

theorem threadPoint_fence {acq rel : Bool} {scope : Nat} {mask : BitVec 3} (park : s.th.park = .fence acq rel scope mask) :
    threadPoint s = (let r := if rel then releaseStep s.th.uid s.nextId scope mask none s else (!readsOpen s (s.th.pend.map (·.tag)) mask, s)
      if r.1 then goesAgain r.2 else r.2) := by
  unfold threadPoint
  simp only [park]
  rfl

theorem threadPoint_arrive {n : Nat} {d : Option Nat} {meet : Bool} (park : s.th.park = .arrive n d meet) :
    threadPoint s = (let r := releaseStep s.th.uid s.nextId 2 0b011 none s
      if r.1 then applyArrive n d meet r.2 else r.2) := by
  unfold threadPoint
  simp only [park]

theorem threadPoint_xred {op k : Nat} {v : DWord} {mask : Word} (park : s.th.park = .xredRel op k v mask) :
    threadPoint s = (let r := releaseStep s.th.uid s.nextId 4 0b011 none s
      if r.1 then applyXred op k v mask r.2 else r.2) := by
  unfold threadPoint
  simp only [park]

/-! ## Stores at the head of their queue (R219, R232) -/

/-- The release of a waiting write. -/
def releaseOf (q : Queued) (s : State) : Bool × State :=
  match q.rel with
  | none => (true, s)
  | some (scope, mask) => releaseStep q.uid q.seq scope mask (q.atom.map (fun (x : AtomicStep) => x.tag)) s

theorem cacheStep_joinsBacks (uid scope : Nat) (s : State) : CacheStep s (joinsBacks uid scope s) := by
  refine cacheStep_mapNet s _ fun m g fill => ?_
  cases body : m.body with
  | write w =>
    rw [body] at fill
    dsimp only at fill
    split at fill
    · split at fill
      · exact MsgBody.noConfusion fill
      · exact MsgBody.noConfusion (body.symm.trans fill)
    · exact MsgBody.noConfusion (body.symm.trans fill)
  | _ =>
    rw [body] at fill
    exact ⟨g, body.symm.trans fill, rfl, rfl, rfl, rfl⟩

theorem cacheStep_backs (w : Writer) (ls : List Nat) (x : List Nat × State) : CacheStep x.2 (ls.foldl (backStep w) x).2 := by
  induction ls generalizing x with
  | nil => exact .refl _
  | cons a t ih => exact (cacheStep_writeBack x.2 a w).trans (ih (backStep w x a))

theorem cacheStep_releaseStep (uid seq scope : Nat) (mask : BitVec 3) (own : Option Nat) (s : State) : CacheStep s (releaseStep uid seq scope mask own s).2 := by
  cases g : mask.getLsbD 1 with
  | false => rw [releaseStep_local g]; exact .refl s
  | true =>
    rw [releaseStep_global g, writeBackAll_eq]
    exact (cacheStep_joinsBacks uid scope s).trans (cacheStep_backs _ _ ([], joinsBacks uid scope s))

theorem cacheStep_releaseOf (q : Queued) (s : State) : CacheStep s (releaseOf q s).2 := by
  unfold releaseOf
  split
  · exact .refl s
  · exact cacheStep_releaseStep ..

theorem CacheStep.puts {s t : State} (h : CacheStep s t) : t.pl.puts = s.pl.puts := by obtain ⟨⟨_, _, _, _, rfl⟩, -⟩ := h; rfl

theorem sendAtomic_puts (x : AtomicStep) (depth bundle ctx : Nat) (s : State) : (sendAtomic x depth bundle ctx s).pl.puts = s.pl.puts := by
  have ahead : CacheStep s (if isX x.pa then s else l1Lose (lineOf x.pa) (x.pa % 128 / 64) (writeBack (lineOf x.pa) (.forced x.uid) s).2) :=
    cacheStep_ite (.refl s) ((cacheStep_writeBack s _ _).trans (cacheStep_l1Lose _ _ _))
  unfold sendAtomic
  dsimp only
  split <;> exact ahead.puts

theorem performQueued_puts (q : Queued) (s : State) : (performQueued q s).pl.puts = s.pl.puts := by
  unfold performQueued
  split
  · split <;> rfl
  · unfold scratchAmo
    dsimp only
    split <;> rfl
  · exact sendAtomic_puts ..
  · exact (cacheStep_putStore s q).puts

/-- The state in which one waiting write of a thread has left its queue: its thread's loads are held from it. -/
def leavesQueue (slot lane : Nat) (q : Queued) (s : State) : State :=
  let u : State := { s with pl := { s.pl with storeQ := [] } }
  if q.scratch.isNone then holdLoads [(slot, lane)] (queuedLine q) u else u

/-- The threads that waited for their own stores go on. -/
def endsWait (q : Queued) (s : State) : State :=
  s.updThreads (fun v => decide (v.park = .storeWait) && v.uid == q.uid) (fun v => { v with park := .none })

theorem leavesQueue_puts (slot lane : Nat) (q : Queued) (s : State) : (leavesQueue slot lane q s).pl.puts = s.pl.puts := by
  unfold leavesQueue
  dsimp only
  split
  · exact (cacheStep_holdLoads _ _ _).puts
  · rfl

/-- One waiting write on its way to its point, as `stepQueued` steps it. -/
def releasesNext (x : Bool × State) (g : Queued) : Bool × State :=
  match g.rel with
  | none => (x.1 && !queuedHeld x.2 g, x.2)
  | some (sc, m) =>
    let (k, s) := releaseStep g.uid g.seq sc m (g.atom.map (·.tag)) x.2
    (x.1 && k && !queuedHeld s g, s)

theorem queuedPoint_none (puts : s.pl.puts = []) (other : ∀ q ∈ s.pl.storeQ, ¬ (q.slot = slot ∧ q.lane = lane)) : queuedPoint slot lane s = s := by
  have none_ : s.pl.storeQ.find? (fun q => q.slot == slot && q.lane == lane) = none := List.find?_eq_none.2 fun q hq => by simpa using other q hq
  simp [queuedPoint, none_, puts]

section

variable {q : Queued} (puts : s.pl.puts = []) (alone : s.pl.storeQ = [q])

include puts alone

theorem notHeld_alone : queuedHeld s q = false := by
  simp [queuedHeld, ownQueue, alone, puts]

omit puts alone in
theorem stepQueued_eq (q : Queued) (s : State) : stepQueued q s =
    (let group := s.pl.storeQ.filter (fun x => x.bundle == q.bundle && queuedLine x == queuedLine q && x.scratch == q.scratch)
    let r := group.foldl releasesNext (true, s)
    if !r.1 then r.2
    else
      let s : State := { r.2 with pl := { r.2.pl with storeQ := r.2.pl.storeQ.filter (fun x => !group.contains x) } }
      let s := if q.scratch.isNone then holdLoads (group.map (fun x => (x.slot, x.lane))) (queuedLine q) s else s
      wakeStores (group.map (·.uid)) (group.foldl (fun s g => performQueued g s) s)) := rfl

theorem releasesNext_alone : releasesNext (true, s) q = releaseOf q s := by
  have free : queuedHeld (releaseOf q s).2 q = false :=
    notHeld_alone ((cacheStep_releaseOf q s).puts.trans puts) ((cacheStep_releaseOf q s).storeQ.trans alone)
  unfold releasesNext
  unfold releaseOf at free ⊢
  cases rel : q.rel with
  | none => simp only [notHeld_alone puts alone, Bool.not_false, Bool.and_self]
  | some r =>
    simp only [rel] at free
    simp only [free, Bool.not_false, Bool.true_and, Bool.and_true]

theorem stepQueued_alone : stepQueued q s = if (releaseOf q s).1 then endsWait q (performQueued q (leavesQueue q.slot q.lane q (releaseOf q s).2)) else (releaseOf q s).2 := by
  have group : s.pl.storeQ.filter (fun x => x.bundle == q.bundle && queuedLine x == queuedLine q && x.scratch == q.scratch) = [q] := by simp [alone]
  have alone' : (releaseOf q s).2.pl.storeQ = [q] := (cacheStep_releaseOf q s).storeQ.trans alone
  have empty : (releaseOf q s).2.pl.storeQ.filter (fun x => !([q] : List Queued).contains x) = [] := by simp [alone']
  have wakes (t : State) : wakeStores [q.uid] t = endsWait q t := by
    simp only [wakeStores, endsWait, List.contains_cons, List.contains_nil, Bool.or_false]
  rw [stepQueued_eq, group]
  simp only [List.foldl_cons, List.foldl_nil, List.map_cons, List.map_nil, releasesNext_alone puts alone, empty, wakes]
  cases (releaseOf q s).1 <;> rfl

theorem queuedPoint_alone (slot_ : q.slot = slot) (lane_ : q.lane = lane) :
    queuedPoint slot lane s = if (releaseOf q s).1 then endsWait q (performQueued q (leavesQueue slot lane q (releaseOf q s).2)) else (releaseOf q s).2 := by
  have found : s.pl.storeQ.find? (fun q => q.slot == slot && q.lane == lane) = some q := by simp [alone, slot_, lane_]
  have step := stepQueued_alone puts alone
  rw [slot_, lane_] at step
  have kept : (releaseOf q s).2.pl.puts = [] := (cacheStep_releaseOf q s).puts.trans puts
  have puts' : (stepQueued q s).pl.puts = [] := by
    rw [step]
    split
    · exact (performQueued_puts ..).trans ((leavesQueue_puts ..).trans kept)
    · exact kept
  unfold queuedPoint
  simp only [found, puts', List.find?_nil]
  exact step

end

section

variable {q : Queued} {r : Bool × State} (puts : s.pl.puts = []) (alone : s.pl.storeQ = [q]) (slot_ : q.slot = slot) (lane_ : q.lane = lane)
  (release : r = releaseOf q s)

include puts alone slot_ lane_ release

theorem queuedPoint_waits (unmet : r.1 = false) : queuedPoint slot lane s = r.2 := by
  rw [queuedPoint_alone puts alone slot_ lane_, ← release, unmet, if_neg Bool.false_ne_true]

theorem queuedPoint_met (met : r.1 = true) : queuedPoint slot lane s = endsWait q (performQueued q (leavesQueue slot lane q r.2)) := by
  rw [queuedPoint_alone puts alone slot_ lane_, ← release, met, if_pos rfl]

theorem queuedPoint_store (met : r.1 = true) (global : q.scratch = none) (plain : q.atom = none) :
    queuedPoint slot lane s = endsWait q (putStore q (leavesQueue slot lane q r.2)) := by
  rw [queuedPoint_met puts alone slot_ lane_ release met, performQueued]
  simp only [global, plain]

theorem queuedPoint_atomic {x : AtomicStep} (met : r.1 = true) (global : q.scratch = none) (atom : q.atom = some x) :
    queuedPoint slot lane s = endsWait q (sendAtomic x q.depth q.bundle q.ctx (leavesQueue slot lane q r.2)) := by
  rw [queuedPoint_met puts alone slot_ lane_ release met, performQueued]
  simp only [global, atom]

theorem queuedPoint_scratch {h o : Nat} {b : Byte} {bs : List (Nat × Byte)} (met : r.1 = true) (scratch : q.scratch = some h) (plain : q.atom = none)
    (bytes : q.ws = (o, b) :: bs) : queuedPoint slot lane s = endsWait q (sramWrite h o (q.ws.map (·.2)) { r.2 with pl := { r.2.pl with storeQ := [] } }) := by
  rw [queuedPoint_met puts alone slot_ lane_ release met, performQueued, leavesQueue]
  simp only [scratch, plain, bytes]
  rfl

theorem queuedPoint_scratchAtomic {h : Nat} {x : AtomicStep} (met : r.1 = true) (scratch : q.scratch = some h) (atom : q.atom = some x) (row : x.f ≤ 15) :
    queuedPoint slot lane s = (let u : State := { r.2 with pl := { r.2.pl with storeQ := [] } }
      let old : DWord := BitVec.ofNat 64 (leNat (sramBytes u.pl.sram h x.pa (atomicBytes x.f)))
      endsWait q ((match atomicNew x.f old x.b x.expect with
        | none => u
        | some v => { u with pl := { u.pl with sram := soSetAll u.pl.sram (atAddr (h * 2 ^ 20 + x.pa) (leBytes v (atomicBytes x.f))) } }).updThreads
          (·.uid == q.uid) (gets x.tag (oldWords x.f old)))) := by
  have got (old : DWord) : (fun t : Thread => (t.arrive x.tag (amoWords x.f old)).served x.tag) = gets x.tag (oldWords x.f old) :=
    funext fun t => by
      rw [served_eq, gets]
      simp [Thread.arrive, updIf, amoWords, oldWords, show amoSize x.f = atomicBytes x.f from rfl]
  rw [queuedPoint_met puts alone slot_ lane_ release met, performQueued, leavesQueue]
  simp only [scratch, atom, Option.isNone_some, Bool.false_eq_true, if_false, scratchAmo_eq row, got] <;> rfl

end

/-! ## Arrivals at barriers (R149) -/

theorem block?_of_thBlock {b : Block} (block : s.thBlock = some b) : s.block? b.handle = some b := by
  obtain ⟨h, -, found⟩ := Option.bind_eq_some_iff.1 block
  have key : b.handle = h := by simpa using List.find?_some found
  rw [key]
  exact found

section

variable {b : Block} {n : Nat} {d : Option Nat} (block : s.thBlock = some b)

include block

theorem applyArrive_eq (meet : Bool) : applyArrive n d meet s = (match arriveBar b.handle n 0 (some s.th.tid)
      { s with th := { s.th with park := if meet then .barWait n (barOf b n).phase d else s.th.park } } with
    | none => trapAt s.th.slot s.th.lane { cause := .barArg, info := BitVec.ofNat 32 n } s
    | some u => if meet then u else resumeWith d (BitVec.ofNat 32 (barOf b n).phase) 4 u) := by
  unfold applyArrive
  simp only [block]
  rfl

theorem arriveBar_zero (zero : (barOf b n).count = 0) (st : Word) (tid : Option Nat) (t : Thread) :
    arriveBar b.handle n st tid { s with th := t } = none := by
  have found : ({ s with th := t } : State).block? b.handle = some b := (block?_of_thBlock block : s.block? b.handle = some b)
  simp only [arriveBar, found, zero, if_true]

theorem applyArrive_zero (meet : Bool) (zero : (barOf b n).count = 0) :
    applyArrive n d meet s = trapAt s.th.slot s.th.lane { cause := .barArg, info := BitVec.ofNat 32 n } s := by
  rw [applyArrive_eq block, arriveBar_zero block zero]

theorem applyArrive_goes {u : State} (arrives : arriveBar b.handle n 0 (some s.th.tid) s = some u) :
    applyArrive n d false s = overWith (d.toList.map (fun p => (p, BitVec.ofNat 32 (barOf b n).phase))) 4 u := by
  have same : ({ s with th := { s.th with park := if false = true then .barWait n (barOf b n).phase d else s.th.park } } : State) = s := rfl
  rw [applyArrive_eq block, same, arrives]
  simp only [Bool.false_eq_true, if_false, resumeWith, resumeWith_eq]

theorem applyArrive_meets {u : State}
    (arrives : arriveBar b.handle n 0 (some s.th.tid) { s with th := { s.th with park := .barWait n (barOf b n).phase d } } = some u) :
    applyArrive n d true s = u := by
  rw [applyArrive_eq block, if_pos rfl, arrives]
  rfl

end

/-! ## Control registers of a context (R101, R212, R242, R262) -/

theorem leaseFor_low {x : Nat} (low : x < 64) : leaseFor x = 64 := by
  have none_ : ((List.range 9).map (fun k => 2 ^ (6 + k))).filter (fun n => decide (n ≤ x)) = [] := by
    refine List.filter_eq_nil_iff.2 fun n hn => ?_
    have least : ∀ n ∈ (List.range 9).map (fun k => 2 ^ (6 + k)), 64 ≤ n := by decide
    have := least n hn
    simp only [decide_eq_true_eq]
    omega
  rw [leaseFor, none_, List.getLastD_nil]

theorem leaseFor_log {x : Nat} (lo : 64 ≤ x) : leaseFor x = 2 ^ (6 + min 8 (x.log2 - 6)) := by
  have six : 6 ≤ x.log2 := (Nat.le_log2 (by omega)).2 lo
  have admits : (List.range 9).filter ((fun n => decide (n ≤ x)) ∘ fun k => 2 ^ (6 + k)) = (List.range 9).filter (fun k => decide (k ≤ min 8 (x.log2 - 6))) := by
    refine List.filter_congr fun k hk => ?_
    have near := List.mem_range.1 hk
    rw [Function.comp_apply, decide_eq_decide, ← Nat.le_log2 (by omega)]
    omega
  have greatest : ∀ m < 9, (((List.range 9).filter (fun k => decide (k ≤ m))).map (fun k => 2 ^ (6 + k))).getLastD 64 = 2 ^ (6 + m) := by decide
  rw [leaseFor, List.filter_map, admits, greatest _ (by omega)]

theorem leaseOf_eq (v : Word) : leaseOf v = BitVec.ofNat 32 (leaseFor v.toNat) := by
  unfold leaseOf
  split
  · next high =>
    have top : 14 ≤ v.toNat.log2 := (Nat.le_log2 (by omega)).2 (by omega)
    rw [leaseFor_log (by omega), show 6 + min 8 (v.toNat.log2 - 6) = 14 by omega]
    rfl
  · split
    · next low => rw [leaseFor_low low]; rfl
    · next within low =>
      have six : 6 ≤ v.toNat.log2 := (Nat.le_log2 (by omega)).2 (by omega)
      have top : v.toNat.log2 < 15 := (Nat.log2_lt (by omega)).2 (by omega)
      rw [leaseFor_log (by omega), show 6 + min 8 (v.toNat.log2 - 6) = v.toNat.log2 by omega]

theorem ctxWritten_n (n : Nat) (v : Word) (x : Ctx) : (ctxWritten n v x).n = x.n := by
  unfold ctxWritten
  split <;> rfl

/-- The context that `csrForce` leaves. -/
def ctxForced (n : Nat) (v : Word) (x : Ctx) : Ctx :=
  match n with
  | 0x100 => { x with hvec := setLow x.hvec v }
  | 0x101 => { x with hvec := setHigh x.hvec v }
  | 0x102 => { x with lease := leaseOf v }
  | 0x103 => { x with mcwin := clampWord v 32 2048 }
  | _ => { x with tqlim := clampWord v 8 256 }

theorem ctxForced_eq {n : Nat} (listed : n ∈ [0x100, 0x101, 0x102, 0x103, 0x104]) (v : Word) : ctxForced n v = ctxWritten n v := by
  funext x
  simp only [List.mem_cons, List.not_mem_nil, or_false] at listed
  rcases listed with rfl | rfl | rfl | rfl | rfl
  · rfl
  · rfl
  · exact congrArg (fun l => ({ x with lease := l } : Ctx)) (leaseOf_eq v)
  · rfl
  · rfl

theorem csrForce_eq {n : Nat} (listed : n ∈ [0x100, 0x101, 0x102, 0x103, 0x104]) (c : Nat) (v : Word) (s : State) :
    csrForce c n v s = if n = 0x104 then spillAll c (s.updCtx c (ctxWritten n v)) else s.updCtx c (ctxWritten n v) := by
  rw [← ctxForced_eq listed]
  rfl

theorem spillAll_within {c : Nat} {limit : Nat} (lim : ((s.ctx? c).map (·.tqlim.toNat)).getD 256 = limit) (within : ∀ q, onChip s q c ≤ limit) :
    spillAll c s = s := by
  have none_ (l : List Nat) : l.foldl (fun s q => if onChip s q c > ((s.ctx? c).map (·.tqlim.toNat)).getD 256 then spillTrigs q c s else s) s = s := by
    induction l with
    | nil => rfl
    | cons q t ih => rw [List.foldl_cons, if_neg (by rw [lim]; exact Nat.not_lt.2 (within q)), ih]
  exact none_ _

/-- A change of the entries with a key is found at the key. -/
theorem find?_updIf_key {α : Type} (key : α → Nat) (k : Nat) {f : α → α} (keeps : ∀ x, key (f x) = key x) (l : List α) :
    (updIf (fun x => key x == k) f l).find? (fun x => key x == k) = (l.find? (fun x => key x == k)).map f := by
  have stays : (fun x => key x == k) ∘ (fun x => if key x == k then f x else x) = fun x => key x == k := by
    funext x
    rw [Function.comp_apply]
    split <;> simp [keeps]
  rw [updIf, List.find?_map, stays]
  cases found : l.find? (fun x => key x == k) with
  | none => rfl
  | some x => rw [Option.map_some, Option.map_some, if_pos (List.find?_some found)]

theorem tqlim_written {c : Nat} {v : Word} {x : Ctx} (ctx : s.ctx? c = some x) :
    (((s.updCtx c (ctxWritten 0x104 v)).ctx? c).map (·.tqlim.toNat)).getD 256 = max 8 (min 256 v.toNat) := by
  have found : (s.updCtx c (ctxWritten 0x104 v)).ctx? c = (s.ctx? c).map (ctxWritten 0x104 v) :=
    find?_updIf_key Ctx.n c (ctxWritten_n 0x104 v) s.ctxs
  rw [found, ctx]
  exact Nat.mod_eq_of_lt (by omega)

/-! ## Crossings (R152) -/

/-- Entries with keys of their own are found by them. -/
theorem find?_of_nodup {α : Type} {key : α → Nat} {l : List α} (distinct : (l.map key).Nodup) {x : α} (mem : x ∈ l) :
    l.find? (fun y => key y == key x) = some x := by
  cases found : l.find? (fun y => key y == key x) with
  | none => exact absurd (beq_self_eq_true (key x)) (List.find?_eq_none.1 found x mem)
  | some y => rw [List.inj_on_of_nodup_map distinct (List.mem_of_find?_eq_some found) mem (eq_of_beq (List.find?_some (p := fun y => key y == key x) found))]

theorem insThread_map {f : Thread → Thread} (keeps : ∀ t, (f t).key = t.key) (t : Thread) (l : List Thread) :
    insThread (f t) (l.map f) = (insThread t l).map f := by
  induction l with
  | nil => rfl
  | cons a l ih =>
    unfold insThread
    simp only [List.map_cons, keeps, ih]
    split
    · rfl
    · split <;> rfl

theorem living_updThreads {p : Thread → Bool} {f : Thread → Thread} (keeps : ∀ t, (f t).key = t.key) (live : ∀ t, (f t).live = t.live) (s : State) :
    (s.updThreads p f).living = updIf p f s.living := by
  have keeps' (t : Thread) : (if p t = true then f t else t).key = t.key := by split <;> simp [keeps]
  unfold State.living State.updThreads updIf
  cases alive : s.th.live with
  | false => simp [alive]
  | true =>
    have same : (if (true && p s.th) = true then f s.th else s.th) = (fun t => if p t = true then f t else t) s.th := by simp
    have alive' : ((fun t => if p t = true then f t else t) s.th).live = true := by dsimp only; split <;> simp [live, alive]
    simp only [same, alive', if_true]
    exact insThread_map keeps' s.th s.pl.threads

theorem allSeqs_updSeqs {p : SeqCtx → Bool} {f : SeqCtx → SeqCtx} (held : ∀ q, (f q).held = q.held) (s : State) :
    (s.updSeqs p f).allSeqs = updIf p f s.allSeqs := by
  unfold State.allSeqs State.updSeqs updIf
  cases h : s.sq.held with
  | false => simp [h]
  | true =>
    have same : (if (true && p s.sq) = true then f s.sq else s.sq) = (if p s.sq = true then f s.sq else s.sq) := by simp
    have held' : (if p s.sq = true then f s.sq else s.sq).held = true := by split <;> simp [held, h]
    simp only [same, held', if_true, List.map_cons]

/-- The contexts of `s` are all held in `t`, under numbers of their own, and the plane and the acting thread are as they were. -/
structure KeepsSeqs (s t : State) : Prop where
  kept : ∀ q ∈ s.allSeqs, q ∈ t.allSeqs
  distinct : (t.allSeqs.map (·.n)).Nodup
  pl : t.pl = s.pl
  th : t.th = s.th

theorem KeepsSeqs.trans {s t u : State} (a : KeepsSeqs s t) (b : KeepsSeqs t u) : KeepsSeqs s u :=
  ⟨fun q hq => b.kept q (a.kept q hq), b.distinct, b.pl.trans a.pl, b.th.trans a.th⟩

theorem stowSeq_held (s : State) : s.stowSeq.sq.held = false := by
  unfold State.stowSeq
  cases h : s.sq.held with
  | false => exact h
  | true => rfl

theorem allSeqs_of_free {s : State} (free : s.sq.held = false) : s.allSeqs = s.cl.seqs := by
  rw [State.allSeqs, free, if_neg Bool.false_ne_true]

theorem keepsSeqs_stowSeq (distinct : (s.allSeqs.map (·.n)).Nodup) : KeepsSeqs s s.stowSeq := by
  cases h : s.sq.held with
  | false =>
    have same : s.stowSeq = s := by rw [State.stowSeq, h, if_neg Bool.false_ne_true]
    rw [same]
    exact ⟨fun _ hq => hq, distinct, rfl, rfl⟩
  | true =>
    have all : s.allSeqs = s.sq :: s.cl.seqs := by rw [State.allSeqs, h, if_pos rfl]
    have stowed : s.stowSeq = { s with sq := {}, cl := { s.cl with seqs := s.cl.seqs.filter (·.n != s.sq.n) ++ [s.sq] } } := by
      rw [State.stowSeq, h, if_pos rfl]
    rw [all, List.map_cons, List.nodup_cons] at distinct
    obtain ⟨fresh, distinct⟩ := distinct
    have others : s.cl.seqs.filter (·.n != s.sq.n) = s.cl.seqs :=
      List.filter_eq_self.2 fun z hz => bne_iff_ne.2 fun e => fresh (e ▸ List.mem_map_of_mem hz)
    have now : s.stowSeq.allSeqs = s.cl.seqs ++ [s.sq] := by
      rw [allSeqs_of_free (stowSeq_held s), stowed]
      exact congrArg (· ++ [s.sq]) others
    refine ⟨fun q hq => ?_, ?_, by rw [stowed], by rw [stowed]⟩
    · rw [now]
      simpa [all, or_comm] using hq
    · rw [now, List.map_append, List.nodup_append_comm]
      exact List.nodup_cons.2 ⟨fresh, distinct⟩

/-- A held context that is fetched acts. -/
theorem fetchSeq_held {q : SeqCtx} (mem : q ∈ s.allSeqs) (held : q.held = true) (distinct : (s.allSeqs.map (·.n)).Nodup) :
    (s.fetchSeq q.n).sq = q ∧ KeepsSeqs s (s.fetchSeq q.n) := by
  have stowed := keepsSeqs_stowSeq distinct
  have inside := stowed.kept q mem
  have apart := stowed.distinct
  rw [allSeqs_of_free (stowSeq_held s)] at inside apart
  have found : s.stowSeq.cl.seqs.find? (·.n == q.n) = some q := find?_of_nodup (key := SeqCtx.n) apart inside
  have fetched : s.fetchSeq q.n = { s.stowSeq with sq := q, cl := { s.stowSeq.cl with seqs := s.stowSeq.cl.seqs.filter (·.n != q.n) } } := by
    unfold State.fetchSeq
    simp only [found]
  have now : (s.fetchSeq q.n).allSeqs = q :: s.stowSeq.cl.seqs.filter (·.n != q.n) := by rw [fetched, State.allSeqs, if_pos held]
  refine ⟨by rw [fetched], stowed.trans ⟨fun z hz => ?_, ?_, by rw [fetched], by rw [fetched]⟩⟩
  · rw [allSeqs_of_free (stowSeq_held s)] at hz
    rw [now, List.mem_cons, List.mem_filter]
    by_cases e : z.n = q.n
    · exact .inl (List.inj_on_of_nodup_map apart hz inside e)
    · exact .inr ⟨hz, bne_iff_ne.2 e⟩
  · rw [now, List.map_cons, List.nodup_cons]
    refine ⟨fun h => ?_, apart.sublist (List.filter_sublist.map _)⟩
    obtain ⟨z, hz, e⟩ := List.mem_map.1 h
    exact bne_iff_ne.1 (List.mem_filter.1 hz).2 e

/-- The acting stream goes on where it waits for a crossing that is complete (`wakeXrd`). -/
def wakesXrd (s : State) : State :=
  match s.sq.park with
  | .xrd k e d => if xrdReady (stGet 0 s.sq.xseq k) e then resumeWithS d (stGet 0 s.sq.xval k) 4 s else s
  | _ => s

theorem wakesXrd_idle (idle : s.sq.park = .none) : wakesXrd s = s := by
  unfold wakesXrd
  rw [idle]

theorem wakeXrd_eq (n : Nat) (s : State) : wakeXrd n s = s.asSeq n wakesXrd := rfl

/-- A stream that waits for no crossing is not woken: the context is still held, and the threads are as they were. -/
theorem wakeXrd_idle {q : SeqCtx} (mem : q ∈ s.allSeqs) (held : q.held = true) (distinct : (s.allSeqs.map (·.n)).Nodup) (idle : q.park = .none) :
    q ∈ (wakeXrd q.n s).allSeqs ∧ (wakeXrd q.n s).pl = s.pl ∧ (wakeXrd q.n s).th = s.th := by
  have acts (t : State) (ht : t.sq = q) : wakesXrd t = t := wakesXrd_idle (by rw [ht, idle])
  rw [wakeXrd_eq, State.asSeq]
  split
  · next same =>
    simp only [Bool.and_eq_true, beq_iff_eq] at same
    have first : s.sq ∈ s.allSeqs := by simp [State.allSeqs, same.1]
    rw [acts s (List.inj_on_of_nodup_map distinct first mem same.2)]
    exact ⟨mem, rfl, rfl⟩
  · split
    · have fetch := fetchSeq_held mem held distinct
      have stowed := fetch.2.trans (keepsSeqs_stowSeq fetch.2.distinct)
      simp only [acts (s.fetchSeq q.n) fetch.1]
      split
      · next me =>
        have first : s.sq ∈ s.allSeqs := by simp [State.allSeqs, me]
        have back := stowed.trans (fetchSeq_held (stowed.kept _ first) me stowed.distinct).2
        exact ⟨back.kept q mem, back.pl, back.th⟩
      · next me =>
        have free : s.sq.held = false := by simpa using me
        refine ⟨?_, stowed.pl, stowed.th⟩
        have inside := stowed.kept q mem
        rw [allSeqs_of_free (stowSeq_held _)] at inside
        rw [allSeqs_of_free (show ({ (s.fetchSeq q.n).stowSeq with sq := s.sq } : State).sq.held = false from free)]
        exact inside
    · exact ⟨mem, rfl, rfl⟩

/-- The crossing that register `k` has open in a block, or a new one. -/
def openCrossing (b : Block) (op k : Nat) (mask : Word) : Crossing := (b.crossings.find? (·.k == k)).getD { k := k, op := op, mask := mask }

/-- The crossing with the acting thread's arrival. -/
def withArrival (op : Nat) (v : DWord) (s : State) (x : Crossing) : Crossing :=
  { x with got := x.got ++ [(s.th.slot, s.th.lane, v)], mixed := x.mixed || x.op != op }

/-- A block without its crossing of register `k`. -/
def dropsCrossing (k : Nat) (b : Block) : Block := { b with crossings := b.crossings.filter (·.k != k) }

/-- A block with the crossing that its register `k` now has open. -/
def putsCrossing (k : Nat) (y : Crossing) (b : Block) : Block := { b with crossings := b.crossings.filter (·.k != k) ++ [y] }

/-- The state in which the acting thread has arrived and waits. -/
def arrivedAt (b : Block) (k : Nat) (y : Crossing) (s : State) : State :=
  ({ s with th := { s.th with park := .xred k } } : State).updBlock b.handle (putsCrossing k y)

/-- A thread of a named warp has not arrived. -/
def Awaits (h : Nat) (y : Crossing) (u : State) : Prop :=
  ∃ t ∈ u.living, (u.warpAt t.slot).block = some h ∧ y.mask.getLsbD (u.warpAt t.slot).wid = true ∧ ∀ g ∈ y.got, ¬ (g.1 = t.slot ∧ g.2.1 = t.lane)

/-- The arrivals of a crossing by warp and lane. -/
def gotBy (y : Crossing) (u : State) : List (Nat × Nat × DWord) := y.got.map (fun g => ((u.warpAt g.1).wid, g.2.1, g.2.2))

/-- A context that takes the value of a crossing. -/
def takesCrossing (k : Nat) (v : DWord) (q : SeqCtx) : SeqCtx :=
  { q with xval := stSet 0 q.xval k v, xseq := stSet 0 q.xseq k ((stGet 0 q.xseq k + 1) % 2 ^ 32) }

/-- A complete crossing with one operation: the streams of its block take the value, and its threads go on. -/
def endsCrossing (h k n : Nat) (y : Crossing) (u : State) : State :=
  let s := u.updBlock h (dropsCrossing k)
  let s := s.updSeqs (fun q => q.held && q.block == h && some n == some q.n) (takesCrossing k (xredValue y.op (gotBy y u)))
  let s : State := { s with standby := { s.standby with
    seqs := updIf (fun q => q.block == h) (takesCrossing k (xredValue y.op (gotBy y u))) s.standby.seqs } }
  s.updThreads (fun t => y.got.any (fun g => t.is g.1 g.2.1)) Thread.resume

section

variable {h k : Nat} {c : Block} {y : Crossing} {u : State} (block : u.block? h = some c) (crossing : c.crossings.find? (·.k == k) = some y) (some_ : y.got ≠ [])

theorem awaits_iff (h : Nat) (y : Crossing) (u : State) : (u.living.filter (fun t => ofBlock u h t && y.mask.getLsbD (u.warpAt t.slot).wid)).any
    (fun t => !y.got.any (fun g => g.1 == t.slot && g.2.1 == t.lane)) = true ↔ Awaits h y u := by
  simp [Awaits, ofBlock, List.any_eq_true, and_assoc]

include block crossing some_

theorem settleCrossing_awaits (waits : Awaits h y u) : settleCrossing h k u = u := by
  have empty : y.got.isEmpty = false := by simpa using some_
  simp only [settleCrossing, block, crossing, empty, (awaits_iff h y u).2 waits, Bool.false_or, if_true]

theorem settleCrossing_ends (all : ¬ Awaits h y u) (single : y.mixed = false) {n : Nat} (stream : c.stream = some n) :
    settleCrossing h k u = if (endsCrossing h k n y u).allSeqs.any (fun q => q.n == n && q.block == h) then wakeXrd n (endsCrossing h k n y u)
      else endsCrossing h k n y u := by
  have empty : y.got.isEmpty = false := by simpa using some_
  have none_ := Bool.eq_false_iff.2 (mt (awaits_iff h y u).1 all)
  simp only [settleCrossing, block, crossing, empty, none_, single, Bool.or_self, Bool.false_eq_true, if_false, stream]
  rfl

end

theorem arrivedAt_block {b : Block} (block : s.thBlock = some b) (k : Nat) (y : Crossing) :
    (arrivedAt b k y s).block? b.handle = some (putsCrossing k y b) := by
  have found : (arrivedAt b k y s).block? b.handle = (s.block? b.handle).map (putsCrossing k y) :=
    find?_updIf_key Block.handle b.handle (f := putsCrossing k y) (fun _ => rfl) s.pl.blocks
  rw [found, block?_of_thBlock block]
  rfl

theorem openCrossing_k (b : Block) (op k : Nat) (mask : Word) : (openCrossing b op k mask).k = k := by
  unfold openCrossing
  cases found : b.crossings.find? (·.k == k) with
  | none => rfl
  | some x => simpa using List.find?_some found

theorem find_arrival {l : List Crossing} {y : Crossing} {k : Nat} (key : y.k = k) : (l.filter (·.k != k) ++ [y]).find? (·.k == k) = some y := by
  have none_ : (l.filter (·.k != k)).find? (·.k == k) = none := List.find?_eq_none.2 fun x hx => by simpa using (List.mem_filter.1 hx).2
  rw [List.find?_append, none_, Option.none_or]
  simp [key]

theorem dropsCrossing_puts {y : Crossing} {k : Nat} (key : y.k = k) (b : Block) :
    (dropsCrossing k (putsCrossing k y b)).crossings = b.crossings.filter (·.k != k) := by
  simp [dropsCrossing, putsCrossing, List.filter_append, key]

theorem applyXred_mismatch {b : Block} (block : s.thBlock = some b) (op k : Nat) (v : DWord) (mask : Word) (other : (openCrossing b op k mask).mask ≠ mask) :
    applyXred op k v mask s = ((openCrossing b op k mask).got.map (fun g => (g.1, g.2.1)) ++ [(s.th.slot, s.th.lane)]).foldl
      (fun s g => trapAt g.1 g.2 { cause := .collMismatch, info := (openCrossing b op k mask).mask } s)
      (s.updBlock b.handle (fun b => { b with crossings := b.crossings.filter (·.k != k) })) := by
  unfold applyXred
  simp only [block]
  exact if_pos other

theorem applyXred_match {b : Block} (block : s.thBlock = some b) (op k : Nat) (v : DWord) (mask : Word) (same : (openCrossing b op k mask).mask = mask) :
    applyXred op k v mask s = settleCrossing b.handle k (arrivedAt b k (withArrival op v s (openCrossing b op k mask)) s) := by
  unfold applyXred
  simp only [block]
  exact if_neg (not_not.2 same)

/-! ### What a complete crossing leaves -/

section

variable {h k n : Nat} {y : Crossing} {u : State}

theorem endsCrossing_block {c : Block} (block : u.block? h = some c) :
    (endsCrossing h k n y u).block? h = some (dropsCrossing k c) := by
  have found : (endsCrossing h k n y u).block? h = (u.block? h).map (dropsCrossing k) :=
    find?_updIf_key Block.handle h (f := dropsCrossing k) (fun _ => rfl) u.pl.blocks
  rw [found, block]
  rfl

theorem endsCrossing_living : (endsCrossing h k n y u).living = updIf (fun t => y.got.any (fun g => t.is g.1 g.2.1)) resumed u.living :=
  living_updThreads (p := fun t => y.got.any (fun g => t.is g.1 g.2.1)) (f := resumed) (fun _ => rfl) (fun _ => rfl) _

theorem endsCrossing_seqs : (endsCrossing h k n y u).allSeqs
    = updIf (fun q => q.held && q.block == h && some n == some q.n) (takesCrossing k (xredValue y.op (gotBy y u))) u.allSeqs :=
  allSeqs_updSeqs (p := fun q => q.held && q.block == h && some n == some q.n) (f := takesCrossing k (xredValue y.op (gotBy y u))) (fun _ => rfl) (u.updBlock h (dropsCrossing k))

theorem endsCrossing_distinct (distinct : (u.allSeqs.map (·.n)).Nodup) : ((endsCrossing h k n y u).allSeqs.map (·.n)).Nodup := by
  have numbers : (endsCrossing h k n y u).allSeqs.map (·.n) = u.allSeqs.map (·.n) := by
    rw [endsCrossing_seqs, updIf, List.map_map]
    refine List.map_congr_left fun q _ => ?_
    rw [Function.comp_apply]
    split <;> rfl
  rwa [numbers]

variable {c : Block} {q : SeqCtx} (block : u.block? h = some c) (crossing : c.crossings.find? (·.k == k) = some y) (some_ : y.got ≠ [])
  (all : ¬ Awaits h y u) (single : y.mixed = false) (stream : c.stream = some q.n) (mem : q ∈ u.allSeqs) (held : q.held = true) (own : q.block = h)
  (distinct : (u.allSeqs.map (·.n)).Nodup) (idle : q.park = .none)

include block crossing some_ all single stream mem held own distinct idle

/-- The block's stream has the value, its crossings are those that are still open, and the threads that had arrived go on. -/
theorem settleCrossing_leaves : let t := settleCrossing h k u
    takesCrossing k (xredValue y.op (gotBy y u)) q ∈ t.allSeqs
    ∧ t.block? h = some (dropsCrossing k c)
    ∧ t.living = updIf (fun t => y.got.any (fun g => t.is g.1 g.2.1)) resumed u.living := by
  have takes : takesCrossing k (xredValue y.op (gotBy y u)) q ∈ (endsCrossing h k q.n y u).allSeqs := by
    rw [endsCrossing_seqs, updIf, List.mem_map]
    exact ⟨q, mem, by simp [held, own]⟩
  intro t
  have run : t = _ := settleCrossing_ends block crossing some_ all single stream
  split at run
  · obtain ⟨kept, pl, th⟩ := wakeXrd_idle (q := takesCrossing k (xredValue y.op (gotBy y u)) q) takes held (endsCrossing_distinct distinct) idle
    rw [run]
    refine ⟨kept, ?_, ?_⟩
    · exact (congrArg (fun p : Plane => p.blocks.find? (fun b : Block => b.handle == h)) pl).trans (endsCrossing_block block)
    · rw [← endsCrossing_living (h := h) (k := k) (n := q.n)]
      unfold State.living
      exact th ▸ pl ▸ rfl
  · rw [run]
    exact ⟨takes, endsCrossing_block block, endsCrossing_living⟩

end

theorem xredValue_tree (op : Nat) (got : List (Nat × Nat × DWord)) {val : DWord}
    (tree : val = (laneTree (xredOp op) (fun w => laneTree (xredOp op) (fun l => (got.find? (fun g => g.1 == w && g.2.1 == l)).map (·.2.2)) 5 0) 5 0).getD 0) :
    (op ≠ 7 → xredValue op got = val) ∧ (op = 7 → (Fmt.f64.decode val.toNat).isNan = false → xredValue op got = val)
      ∧ (op = 7 → (Fmt.f64.decode val.toNat).isNan = true → xredValue op got = 0x7FF8000000000000) := by
  have value : xredValue op got = if op = 7 then BitVec.ofNat 64 (Fmt.f64.canon val.toNat) else val := by rw [tree]; rfl
  rw [value]
  refine ⟨fun other => if_neg other, fun add number => ?_, fun add nan => ?_⟩
  · rw [if_pos add, Fmt.canon, number, if_neg Bool.false_ne_true, BitVec.ofNat_toNat, BitVec.setWidth_eq]
  · rw [if_pos add, Fmt.canon, nan, if_pos rfl]
    rfl

end

/-- Settles O36, instruction by instruction and then by what a release step, a queue, a barrier, a crossing and a context do. -/
theorem parkedInstructionsEnd : Obligations.ParkedInstructionsEnd := by
  refine ⟨fun slot lane s ok => ?waits, fun slot lane s ok => ?points, fun uid seq scope mask own s => ?release, fun slot lane s puts => ?queue,
    fun n d s b block => ?arrive, fun op k v mask s b block => ?cross, fun c n v s x ctx listed => ?csr⟩
  case waits =>
    exact ⟨fun till park due => exec_yieldExpiry ok park due, fun n v park => exec_csrwInForce ok park, fun ids park gone => exec_flushComplete ok park gone,
      fun lo hi ids park gone done past => exec_icinvComplete ok park gone done past,
      fun tag n park other older free => exec_wshrinkComplete ok park other older free,
      fun tag h park block free => exec_poolRelComplete ok park block free, fun d k park => exec_watchComplete ok park,
      fun d id discard park none_ => exec_unwatchComplete ok park rfl none_⟩
  case points =>
    have run := exec_releasePoint ok
    refine ⟨fun acq scope mask park => ?_, fun acq scope mask park => ?_, fun n d meet park => ?_, fun op k x mask park => ?_⟩
    · exact run.trans (congrArg _ (congrArg _ (threadPoint_fence park)))
    · rw [threadPoint_fence park] at run
      refine ⟨fun served => run.trans ?_, fun unserved => run.trans ?_⟩
      · simp only [Bool.false_eq_true, if_false, (readsOpen_iff ..).2 served, Bool.not_false, if_true]
      · simp only [Bool.false_eq_true, if_false, Bool.eq_true_of_not_eq_false (mt (readsOpen_iff ..).1 unserved), Bool.not_true]
    · exact run.trans (congrArg _ (congrArg _ (threadPoint_arrive park)))
    · exact run.trans (congrArg _ (congrArg _ (threadPoint_xred park)))
  case release =>
    refine ⟨fun g distinct below => ?_, fun g distinct l mem dirty below => ?_, fun g clean => ?_, fun g => ?_⟩
    · obtain ⟨l, mem, dirty, below⟩ := below
      exact (releaseStep_dirty g distinct mem dirty below).1
    · obtain ⟨-, find, m, sent, body⟩ := releaseStep_dirty (uid := uid) (seq := seq) (own := own) g distinct mem dirty below
      exact ⟨⟨_, find, rfl, rfl⟩, m, sent, _, body, rfl, rfl, fun k hk bit => mem_dirtyBytes_iff.2 ⟨k, hk, bit, rfl⟩⟩
    · have step := releaseStep_clean (uid := uid) (seq := seq) (own := own) g clean
      exact ⟨congrArg Prod.snd step, by rw [step]; exact released_iff ..⟩
    · have step := releaseStep_local (s := s) (uid := uid) (seq := seq) (scope := scope) (own := own) g
      exact ⟨congrArg Prod.snd step, by rw [step]; exact released_iff ..⟩
  case queue =>
    refine ⟨queuedPoint_none puts, fun q alone slot_ lane_ => ?_⟩
    have release := (rfl : releaseOf q s = releaseOf q s)
    exact ⟨fun unmet => queuedPoint_waits puts alone slot_ lane_ release unmet,
      fun met global plain => queuedPoint_store puts alone slot_ lane_ release met global plain,
      fun met global x atom => queuedPoint_atomic puts alone slot_ lane_ release met global atom,
      fun h o byte bs met scratch plain bytes => queuedPoint_scratch puts alone slot_ lane_ release met scratch plain bytes,
      fun h x met scratch atom row => queuedPoint_scratchAtomic puts alone slot_ lane_ release met scratch atom row⟩
  case arrive =>
    exact ⟨fun meet zero => applyArrive_zero block meet zero, fun u arrives => applyArrive_goes block arrives, fun u arrives => applyArrive_meets block arrives⟩
  case cross =>
    refine ⟨applyXred_mismatch block op k v mask, fun same => ?_⟩
    have run := applyXred_match block op k v mask same
    have open_ := arrivedAt_block block k (withArrival op v s (openCrossing b op k mask))
    have crossing : (putsCrossing k (withArrival op v s (openCrossing b op k mask)) b).crossings.find? (·.k == k)
        = some (withArrival op v s (openCrossing b op k mask)) := find_arrival (openCrossing_k b op k mask)
    have some_ : (withArrival op v s (openCrossing b op k mask)).got ≠ [] := by simp [withArrival]
    have waits_iff (u : State) : Awaits b.handle (withArrival op v s (openCrossing b op k mask)) u ↔ ∃ t ∈ u.living, (u.warpAt t.slot).block = some b.handle
        ∧ mask.getLsbD (u.warpAt t.slot).wid = true ∧ ∀ g ∈ (withArrival op v s (openCrossing b op k mask)).got, ¬ (g.1 = t.slot ∧ g.2.1 = t.lane) := by
      rw [Awaits, show (withArrival op v s (openCrossing b op k mask)).mask = mask from same]
    refine ⟨fun waits => run.trans (settleCrossing_awaits open_ crossing some_ ((waits_iff _).2 waits)),
      fun all single q stream mem held own distinct idle wfSeq wfVal => ?_⟩
    obtain ⟨takes, block', living⟩ := settleCrossing_leaves open_ crossing some_ (mt (waits_iff _).1 all) single stream mem held own distinct idle
    obtain ⟨plain, number, nan⟩ := xredValue_tree (openCrossing b op k mask).op
      (gotBy (withArrival op v s (openCrossing b op k mask)) (arrivedAt b k (withArrival op v s (openCrossing b op k mask)) s)) rfl
    rw [← run] at takes block' living
    have value {w : DWord} (h : xredValue (openCrossing b op k mask).op
        (gotBy (withArrival op v s (openCrossing b op k mask)) (arrivedAt b k (withArrival op v s (openCrossing b op k mask)) s)) = w) :
        stGet 0 (takesCrossing k (xredValue (openCrossing b op k mask).op
          (gotBy (withArrival op v s (openCrossing b op k mask)) (arrivedAt b k (withArrival op v s (openCrossing b op k mask)) s))) q).xval k = w :=
      (stGet_stSet_same 0 q.xval k _ wfVal).trans h
    refine ⟨fun z hz => ?_, ⟨_, takes, rfl, stGet_stSet_same 0 q.xseq k _ wfSeq, fun o => value (plain o), fun o h => value (number o h), fun o h => value (nan o h)⟩,
      fun z hz arrived => ?_⟩
    · obtain rfl := Option.some_inj.1 (block'.symm.trans hz)
      exact dropsCrossing_puts (y := withArrival op v s (openCrossing b op k mask)) (openCrossing_k b op k mask) b
    · rw [living, updIf, List.mem_map]
      obtain ⟨g, hg, place⟩ := arrived
      exact ⟨z, hz, if_pos (List.any_eq_true.2 ⟨g, hg, place⟩)⟩
  case csr =>
    refine ⟨fun other => (csrForce_eq listed c v s).trans (if_neg other), fun limit within => ?_⟩
    rw [csrForce_eq listed, if_pos limit]
    subst limit
    exact spillAll_within (tqlim_written ctx) within

end Sys2Proof.Laws
end

section
/-! PROOF. Returns from handlers, `yield`, and the ends of threads with their barriers, collectives, warps and blocks (R87, R88, R90, R117, R118, R129,
R149 to R152, R163, R348 to R351). -/

namespace Sys2Proof.Laws

open Sys2Proof Sys2Proof.Machine Sys2Proof.Rules

/-! ## The places of threads -/

/-- Where a thread is: its warp slot and its lane. -/
def place (t : Thread) : Nat × Nat := (t.slot, t.lane)

theorem is_iff {t : Thread} {slot lane : Nat} : t.is slot lane = true ↔ place t = (slot, lane) := by
  simp [Thread.is, place]

/-- Threads that live, in lanes 0 to 31, once each, in the order of slot and lane: what a plane's threads are. -/
def InOrder (l : List Thread) : Prop := l.Pairwise (fun t u => t.key < u.key) ∧ ∀ t ∈ l, t.live = true ∧ t.lane < 32

theorem inOrder_of_planeOk {p : Plane} (h : PlaneOk p) : InOrder p.threads := h

/-- Every thread of `l'` is where one of `l` was, and of threads in order all are left. -/
def SamePlaces (l l' : List Thread) : Prop :=
  (∀ u ∈ l', ∃ v ∈ l, place v = place u) ∧ (InOrder l → InOrder l' ∧ l'.map place = l.map place)

theorem samePlaces_refl (l : List Thread) : SamePlaces l l := ⟨fun u hu => ⟨u, hu, rfl⟩, fun h => ⟨h, rfl⟩⟩

theorem SamePlaces.trans {a b c : List Thread} (x : SamePlaces a b) (y : SamePlaces b c) : SamePlaces a c := by
  obtain ⟨fromA, keepA⟩ := x
  obtain ⟨fromB, keepB⟩ := y
  refine ⟨fun u hu => ?_, fun h => ?_⟩
  · obtain ⟨v, hv, e⟩ := fromB u hu
    obtain ⟨w, hw, e'⟩ := fromA v hv
    exact ⟨w, hw, e'.trans e⟩
  · obtain ⟨hb, eb⟩ := keepA h
    obtain ⟨hc, ec⟩ := keepB hb
    exact ⟨hc, ec.trans eb⟩

/-- A change of a thread that leaves it living where it is. -/
def StaysPut (t u : Thread) : Prop := u.live = t.live ∧ u.slot = t.slot ∧ u.lane = t.lane

theorem StaysPut.place {t u : Thread} (h : StaysPut t u) : place u = place t := Prod.ext h.2.1 h.2.2

theorem StaysPut.key {t u : Thread} (h : StaysPut t u) : u.key = t.key := by rw [Thread.key, Thread.key, h.2.1, h.2.2]

theorem StaysPut.refl (t : Thread) : StaysPut t t := ⟨rfl, rfl, rfl⟩

theorem StaysPut.trans {t u v : Thread} (a : StaysPut t u) (b : StaysPut u v) : StaysPut t v :=
  ⟨b.1.trans a.1, b.2.1.trans a.2.1, b.2.2.trans a.2.2⟩

theorem samePlaces_map {f : Thread → Thread} {l : List Thread} (h : ∀ t ∈ l, StaysPut t (f t)) : SamePlaces l (l.map f) := by
  refine ⟨fun u hu => ?_, fun ⟨sorted, each⟩ => ⟨⟨?_, ?_⟩, ?_⟩⟩
  · obtain ⟨v, hv, rfl⟩ := List.mem_map.1 hu
    exact ⟨v, hv, (h v hv).place.symm⟩
  · rw [List.pairwise_map]
    exact sorted.imp_of_mem fun ha hb lt => by rwa [(h _ ha).key, (h _ hb).key]
  · intro u hu
    obtain ⟨v, hv, rfl⟩ := List.mem_map.1 hu
    rw [(h v hv).1, (h v hv).2.2]
    exact each v hv
  · rw [List.map_map]
    exact List.map_congr_left fun t ht => (h t ht).place

theorem staysPut_ite {c : Prop} [Decidable c] {t u : Thread} (h : StaysPut t u) : StaysPut t (if c then u else t) := by
  split
  · exact h
  · exact .refl t

theorem samePlaces_updIf (p : Thread → Bool) {f : Thread → Thread} (h : ∀ t, StaysPut t (f t)) (l : List Thread) : SamePlaces l (updIf p f l) :=
  samePlaces_map fun t _ => staysPut_ite (h t)

theorem mem_of_insThread {t u : Thread} {l : List Thread} (h : u ∈ insThread t l) : u = t ∨ u ∈ l := by
  induction l with
  | nil => exact .inl (List.mem_singleton.1 h)
  | cons x l ih =>
    unfold insThread at h
    split at h
    · exact List.mem_cons.1 h
    · split at h
      · rcases List.mem_cons.1 h with e | h
        · exact .inl e
        · exact .inr (List.mem_cons_of_mem _ h)
      · rcases List.mem_cons.1 h with rfl | h
        · exact .inr List.mem_cons_self
        · exact (ih h).imp_right (List.mem_cons_of_mem _)

theorem key_of_place {t u : Thread} (h : place t = place u) : t.key = u.key := by
  simp only [place, Prod.mk.injEq] at h
  rw [Thread.key, Thread.key, h.1, h.2]

/-- A thread that is taken out of its order, changed where it is and put back: the others are as they were. -/
theorem insThread_filter {x y : Thread} {l : List Thread} (sorted : InOrder l) (mem : x ∈ l) (put : StaysPut x y) :
    insThread y (l.filter (fun u => !u.is x.slot x.lane)) = l.map (fun u => if u.is x.slot x.lane then y else u) := by
  induction l with
  | nil => cases mem
  | cons u l ih =>
    obtain ⟨pairs, each⟩ := sorted
    obtain ⟨first, rest⟩ := List.pairwise_cons.1 pairs
    obtain ⟨ulive, each'⟩ := List.forall_mem_cons.1 each
    rcases List.mem_cons.1 mem with rfl | mem'
    case inl =>
      have here : x.is x.slot x.lane = true := is_iff.2 rfl
      have away : ∀ v ∈ l, v.is x.slot x.lane = false := fun v hv => by
        rw [Bool.eq_false_iff]
        intro at_
        have lt := first v hv
        rw [key_of_place (is_iff.1 at_ : place v = place x)] at lt
        exact Nat.lt_irrefl _ lt
      have all : l.filter (fun u => !u.is x.slot x.lane) = l := List.filter_eq_self.2 fun v hv => by rw [away v hv]; rfl
      have same : l.map (fun u => if u.is x.slot x.lane then y else u) = l :=
        (List.map_congr_left fun v hv => by rw [away v hv]; rfl).trans (List.map_id' l)
      rw [List.filter_cons_of_neg (by simp [here]), all, List.map_cons, same, if_pos here]
      cases l with
      | nil => rfl
      | cons v l => rw [insThread, if_pos (by rw [put.key]; exact first v List.mem_cons_self)]
    case inr =>
      have lt : u.key < x.key := first x mem'
      have away : u.is x.slot x.lane = false := by
        rw [Bool.eq_false_iff]
        intro at_
        rw [key_of_place (is_iff.1 at_ : place u = place x)] at lt
        exact Nat.lt_irrefl _ lt
      have lt' : u.key < y.key := by rwa [put.key]
      rw [List.filter_cons_of_pos (by simp [away]), List.map_cons, away, insThread, if_neg (by omega), if_neg (by omega), ih ⟨rest, each'⟩ mem']
      rfl

/-! ## The instructions -/

section

variable {sw : Bool} {s : State}

theorem exec_rett (ha : s.actor ≠ .stream) : exec (.rett sw) s = .next (rettOp (Instr.rett sw).ins s) := run_thread ha rfl

theorem exec_yield (ha : s.actor ≠ .stream) : exec (.yield sw) s = .next (yieldOp (Instr.yield sw).ins s) := run_thread ha rfl

theorem exec_exit (ha : s.actor ≠ .stream) : exec (.exit sw) s = .next (exitOp s) := run_thread ha rfl

theorem rettOp_inside (inside : s.th.inh = true) {t : Trap} (fail : pcFail s.th.frame.trpc = some t) (i : Ins) : rettOp i s = raise t s := by
  simp only [rettOp, inside, fail, Bool.not_true, Bool.false_eq_true, if_false]

theorem pcFail_some {v : DWord} (bad : canonical v = false ∨ v.toNat % 4 ≠ 0) : ∃ t, pcFail v = some t := by
  rw [pcFail_eq]
  cases c : canonical v with
  | false => exact ⟨_, rfl⟩
  | true => exact ⟨_, (if_neg (by simp)).trans (if_pos (bad.resolve_left (by simp [c])))⟩

theorem exec_rett_returns (ha : s.actor ≠ .stream) (inside : s.th.inh = true) (canon : canonical s.th.frame.trpc = true)
    (aligned : s.th.frame.trpc.toNat % 4 = 0) :
    exec (.rett sw) s = .next { s with th := { s.th with
      pc := s.th.frame.trpc.truncate 57, wb := s.th.swb, inh := false, held := none, park := if sw && !s.th.pend.isEmpty then .switch else .none } } := by
  have fine : pcFail s.th.frame.trpc = none := by rw [pcFail_eq, canon, if_neg (by simp), if_neg (by simp [aligned])]
  have mark : (Instr.rett sw).ins.word.msb = sw := by cases sw <;> rfl
  rw [exec_rett ha]
  simp only [rettOp, inside, fine, Bool.not_true, Bool.false_eq_true, if_false, goto_eq, onlyGoes, goesOn, mark,
    show captures (Instr.rett sw).ins s s.nextId = [] from rfl, List.append_nil]
  rfl

theorem exec_rett_fails (ha : s.actor ≠ .stream) (inside : s.th.inh = true) {t : Trap} (fail : pcFail s.th.frame.trpc = some t) :
    exec (.rett sw) s = .next (raise t s) := by rw [exec_rett ha, rettOp_inside inside fail]

theorem exec_rett_outside (ha : s.actor ≠ .stream) (out : s.th.inh = false) :
    exec (.rett sw) s = .next (raise { cause := .illegal, info := encodeWord (.rett sw) } s) := by
  rw [exec_rett ha]
  simp only [rettOp, out, Bool.not_false, if_true]
  rfl

theorem exec_yield_eq (ha : s.actor ≠ .stream) :
    exec (.yield sw) s = .next { s with th := { s.th with npc := s.th.pc + 4, smark := sw, held := none, park := .yield (s.clock.cycle + 16), age := 0 } } := by
  have mark : (Instr.yield sw).ins.word.msb = sw := by cases sw <;> rfl
  rw [exec_yield ha, yieldOp, hold_eq]
  simp only [waitsIn, waitsAt, mark, State.updTh, show captures (Instr.yield sw).ins s s.nextId = [] from rfl]
  rfl

theorem afterDeferred_none {k : State → State} (none_ : s.th.deferred = none) : afterDeferred k s = k s :=
  afterDeferred_of_not (by simp [none_])

theorem afterDeferred_inside {k : State → State} (inside : s.th.inh = true) : afterDeferred k s = k s :=
  afterDeferred_of_not (by simp [inside])

/-- The state without the deferred trap of its acting thread. -/
def undeferred (s : State) : State := { s with th := { s.th with deferred := none } }

theorem afterDeferred_takes {k : State → State} {d : Deferred} (deferred : s.th.deferred = some d) (out : s.th.inh = false) :
    afterDeferred k s = if s.th.allReady then enterTrap (cascadeTrap d) (pc64 s.th.pc) true (undeferred s)
      else { s with th := { s.th with park := .switch, smark := false } } := by
  unfold afterDeferred
  rw [out]
  split
  · next found => rw [Option.some.inj (found.symm.trans deferred)]; rfl
  · next none_ => exact nomatch none_.symm.trans deferred

theorem enterTrap_noHandler {t : Trap} {pc : DWord} {d : Bool} (out : s.th.inh = false) (none_ : s.curCtx.hvec = 0) :
    enterTrap t pc d s = killThread 33 pc { s with th := s.th.completeAll } := by
  have out' : (s.updTh Thread.completeAll).th.inh = false := (completeAll_inh s.th).trans out
  have none' : (s.updTh Thread.completeAll).curCtx.hvec = 0 := none_
  rw [enterTrap]
  simp only [out', none', Bool.false_eq_true, if_false, if_true]
  rfl

theorem cascadeTrap_info (d : Deferred) :
    (cascadeTrap d).info = BitVec.ofNat 32 (d.aid % 512 + 512 * (d.depth % 16) + 65536 * min d.more 65535) :=
  congrArg (BitVec.ofNat 32) (by omega)

theorem exec_exit_deferred (ha : s.actor ≠ .stream) (d : Deferred) : TakesDeferred (.exit sw) d s := by
  refine fun deferred out => ?_
  have run : exec (.exit sw) s = _ := (exec_exit ha).trans (congrArg _ (afterDeferred_takes deferred out))
  refine ⟨fun can => ?_, fun ready none_ => ?_, fun waits => ?_⟩
  · have can' : CanTrap (undeferred s) := can
    rw [run, if_pos can.1, enterTrap_eq can', cascadeTrap_info]
    rfl
  · have out' : (undeferred s).th.inh = false := out
    rw [run, if_pos ready, enterTrap_noHandler out' none_]
    rfl
  · rw [run, waits, if_neg Bool.false_ne_true]

theorem exec_exit_ends (ha : s.actor ≠ .stream) (calm : s.th.deferred = none ∨ s.th.inh = true) :
    exec (.exit sw) s = .next (endThread (reportDeferred s.th.deferred s)) := by
  rw [exec_exit ha, exitOp]
  rcases calm with none_ | inside
  · rw [afterDeferred_none none_]
  · rw [afterDeferred_inside inside]

end

end Sys2Proof.Laws
end

section
/-! PROOF. What the end of a thread leaves of the other threads, and of the blocks and collectives of its core (R117, R118, R129, R149 to R152). -/

namespace Sys2Proof.Laws

open Sys2Proof Sys2Proof.Machine Sys2Proof.Rules

/-! ## Effects with another thread or stream acting -/

/-- `t` is `s` with the blocks `bs` and the collectives `cs`, other threads where those of `s` are, and no other change to the plane, to the acting
thread or to the scheduler. -/
structure Settles (bs : List Block) (cs : List Coll) (s t : State) : Prop where
  th : t.th = s.th
  sched : t.sched = s.sched
  pl : t.pl = { s.pl with threads := t.pl.threads, blocks := bs, colls := cs }
  places : SamePlaces s.pl.threads t.pl.threads

section

variable {s t u : State} {bs bs' : List Block} {cs cs' : List Coll}

theorem Settles.refl (s : State) : Settles s.pl.blocks s.pl.colls s s := ⟨rfl, rfl, rfl, samePlaces_refl _⟩

theorem Settles.trans (a : Settles bs cs s t) (b : Settles bs' cs' t u) : Settles bs' cs' s u :=
  ⟨b.th.trans a.th, b.sched.trans a.sched, by rw [b.pl, a.pl], a.places.trans b.places⟩

/-- What follows changes no block and no collective. -/
theorem Settles.andThen (a : Settles bs cs s t) (b : Settles t.pl.blocks t.pl.colls t u) : Settles bs cs s u := by
  have same : t.pl.blocks = bs ∧ t.pl.colls = cs := by rw [a.pl]; exact ⟨rfl, rfl⟩
  rw [same.1, same.2] at b
  exact a.trans b

theorem Settles.blocks (h : Settles bs cs s t) : t.pl.blocks = bs := by rw [h.pl]

theorem Settles.colls (h : Settles bs cs s t) : t.pl.colls = cs := by rw [h.pl]

theorem Settles.foldl {α : Type} {f : State → α → State} (h : ∀ s a, s.th = {} → Settles s.pl.blocks s.pl.colls s (f s a)) (l : List α) (s : State)
    (dead : s.th = {}) : Settles s.pl.blocks s.pl.colls s (l.foldl f s) := by
  induction l generalizing s with
  | nil => exact .refl s
  | cons a l ih =>
    have first := h s a dead
    exact first.andThen (ih (f s a) (first.th.trans dead))

/-- Only the acting thread has changed, and it is where it was. -/
structure OnlyThread (s t : State) : Prop where
  stays : StaysPut s.th t.th
  sched : t.sched = s.sched
  pl : t.pl = s.pl

theorem stow_of_dead (dead : s.th = {}) : s.stow = s := by
  unfold State.stow
  rw [dead]
  exact congrArg (fun t => ({ s with th := t } : State)) dead.symm

theorem fetchThread_found {slot lane : Nat} {x : Thread} (dead : s.th = {}) (found : s.pl.threads.find? (·.is slot lane) = some x) :
    s.fetchThread slot lane = { s with th := x, pl := { s.pl with threads := s.pl.threads.filter (fun u => !u.is slot lane) } } := by
  unfold State.fetchThread
  rw [stow_of_dead dead]
  dsimp only
  rw [found]

theorem stow_threads (v : State) : v.stow.pl = { v.pl with threads := if v.th.live then insThread v.th v.pl.threads else v.pl.threads } := by
  unfold State.stow
  split <;> rfl

theorem stow_sched (v : State) : v.stow.sched = v.sched := by
  unfold State.stow
  split <;> rfl

/-- A thread that is taken out, changed where it is and put back. -/
theorem samePlaces_putBack {x y : Thread} {l : List Thread} (mem : x ∈ l) (put : StaysPut x y) :
    SamePlaces l (if y.live then insThread y (l.filter (fun u => !u.is x.slot x.lane)) else l.filter (fun u => !u.is x.slot x.lane)) := by
  refine ⟨fun u hu => ?_, fun sorted => ?_⟩
  · have from_ : u = y ∨ u ∈ l.filter (fun u => !u.is x.slot x.lane) := by
      split at hu
      · exact mem_of_insThread hu
      · exact .inr hu
    rcases from_ with rfl | hu
    · exact ⟨x, mem, put.place.symm⟩
    · exact ⟨u, List.mem_of_mem_filter hu, rfl⟩
  · have live : y.live = true := put.1.trans (sorted.2 x mem).1
    rw [if_pos live, insThread_filter sorted mem put]
    exact (samePlaces_map fun u hu => by
      split
      · next here =>
        obtain ⟨slot_, lane_⟩ := Prod.ext_iff.1 (is_iff.1 here)
        exact ⟨live.trans (sorted.2 u hu).1.symm, put.2.1.trans slot_.symm, put.2.2.trans lane_.symm⟩
      · exact .refl u).2 sorted

theorem asThread_settles {f : State → State} (only : ∀ v, OnlyThread v (f v)) (slot lane : Nat) (s : State) (dead : s.th = {}) :
    Settles s.pl.blocks s.pl.colls s (s.asThread slot lane f) := by
  unfold State.asThread
  rw [if_neg (by simp [dead])]
  split
  · next any =>
    obtain ⟨x, found⟩ := Option.isSome_iff_exists.1 (List.find?_isSome.2 (by simpa using any))
    have mem := List.mem_of_find?_eq_some found
    have here : x.is slot lane = true := List.find?_some (p := fun (u : Thread) => u.is slot lane) found
    obtain ⟨rfl, rfl⟩ : x.slot = slot ∧ x.lane = lane := by simpa [Thread.is] using here
    rw [fetchThread_found dead found]
    simp only [dead, show (({} : Thread).live) = false from rfl, Bool.false_eq_true, if_false]
    refine ⟨dead.symm, ?_, ?_, ?_⟩
    · exact (stow_sched _).trans ((only _).sched)
    · show State.pl (State.stow _) = _
      rw [stow_threads, (only _).pl]
    · show SamePlaces _ (State.pl (State.stow _)).threads
      rw [stow_threads, (only _).pl]
      exact samePlaces_putBack mem ((only _).stays)
  · exact .refl s

/-- The same threads, blocks, collectives and scheduler: a stream or a number has changed. -/
structure SameCore (s t : State) : Prop where
  th : t.th = s.th
  sched : t.sched = s.sched
  pl : t.pl = s.pl

theorem SameCore.trans (a : SameCore s t) (b : SameCore t u) : SameCore s u :=
  ⟨b.th.trans a.th, b.sched.trans a.sched, b.pl.trans a.pl⟩

theorem SameCore.settles (h : SameCore s t) : Settles s.pl.blocks s.pl.colls s t := by
  refine ⟨h.th, h.sched, ?_, ?_⟩
  · rw [h.pl]
  · rw [h.pl]
    exact samePlaces_refl _

theorem sameCore_stowSeq (s : State) : SameCore s s.stowSeq := by
  unfold State.stowSeq
  split <;> exact ⟨rfl, rfl, rfl⟩

theorem sameCore_fetchSeq (n : Nat) (s : State) : SameCore s (s.fetchSeq n) := by
  refine (sameCore_stowSeq s).trans ?_
  unfold State.fetchSeq
  dsimp only
  split <;> exact ⟨rfl, rfl, rfl⟩

theorem sameCore_asSeq {f : State → State} (only : ∀ v, SameCore v (f v)) (n : Nat) (s : State) : SameCore s (s.asSeq n f) := by
  have around : SameCore s (f (s.fetchSeq n)).stowSeq := (sameCore_fetchSeq n s).trans ((only _).trans (sameCore_stowSeq _))
  unfold State.asSeq
  split
  · exact only s
  · split
    · dsimp only
      split
      · exact around.trans (sameCore_fetchSeq _ _)
      · exact around.trans ⟨rfl, rfl, rfl⟩
    · exact ⟨rfl, rfl, rfl⟩

theorem updBlock_settles (h : Nat) (f : Block → Block) (s : State) : Settles (s.updBlock h f).pl.blocks s.pl.colls s (s.updBlock h f) :=
  ⟨rfl, rfl, rfl, samePlaces_refl _⟩

theorem updThreads_settles (p : Thread → Bool) {f : Thread → Thread} (stays : ∀ x, StaysPut x (f x)) (dead : s.th = {}) :
    Settles s.pl.blocks s.pl.colls s (s.updThreads p f) := by
  refine ⟨?_, rfl, rfl, samePlaces_updIf p stays _⟩
  show (if s.th.live && p s.th then f s.th else s.th) = s.th
  rw [dead]
  rfl

/-! ## Barriers (R149, R150) -/

theorem onlyThread_barWait (v : Word) (s : State) : OnlyThread s (match s.th.park with
    | .barWait _ _ d => resumeWith d v 4 s
    | _ => s) := by
  split <;> exact ⟨.refl _, rfl, rfl⟩

theorem sameCore_barWait (v : Word) (s : State) : SameCore s (match s.sq.park with
    | .barWait _ _ d => resumeWithS d (v.zeroExtend 64) 4 s
    | _ => s) := by
  split <;> exact ⟨rfl, rfl, rfl⟩

theorem wakeBar_settles (h n : Nat) (dead : s.th = {}) : Settles s.pl.blocks s.pl.colls s (wakeBar h n s) := by
  unfold wakeBar
  split
  · exact .refl s
  · dsimp only
    refine Settles.andThen (Settles.foldl (fun s t dead => ?_) _ _ dead) (Settles.foldl (fun s q dead => ?_) _ _ ?_)
    · exact asThread_settles (onlyThread_barWait _) _ _ s dead
    · exact (sameCore_asSeq (sameCore_barWait _) _ s).settles
    · exact (Settles.foldl (fun s t dead => asThread_settles (onlyThread_barWait _) _ _ s dead) _ _ dead).th.trans dead

/-- A barrier with one participant less. -/
def departed (tid : Nat) (r : Barrier) : Barrier :=
  { r with count := r.count - 1, part := r.part ^^^ 2 ^ tid, pending := if r.arrived.testBit tid then r.pending else r.pending - 1 }

/-- A barrier in its next phase. -/
def flipped (r : Barrier) : Barrier :=
  { r with last := r.status, status := 0, pending := r.count, phase := (r.phase + 1) % 2 ^ 16, arrived := 0 }

/-- A barrier that a thread has left: the phase flips where nobody else is awaited. -/
def leftBarrier (tid : Nat) (r : Barrier) : Barrier :=
  if !r.part.testBit tid || r.count = 0 then r
  else if !r.arrived.testBit tid && (departed tid r).pending = 0 then flipped (departed tid r) else departed tid r

/-- A block with barrier `n` set. -/
def withBar (n : Nat) (r : Barrier) (b : Block) : Block := { b with bars := (n, r) :: b.bars.filter (·.1 != n) }

/-- A block whose barrier `n` a thread has left. -/
def leavesBar (tid n : Nat) (b : Block) : Block :=
  if !(barOf b n).part.testBit tid || (barOf b n).count = 0 then b else withBar n (leftBarrier tid (barOf b n)) b

theorem leaveBar_eq {h tid n : Nat} {b : Block} (block : s.block? h = some b) :
    leaveBar h tid n s = if !(barOf b n).part.testBit tid || (barOf b n).count = 0 then s
      else if !(barOf b n).arrived.testBit tid && (departed tid (barOf b n)).pending = 0 then flipBar h n (departed tid (barOf b n)) s
      else setBar h n (departed tid (barOf b n)) s := by
  unfold leaveBar
  rw [block]
  rfl

theorem setBar_settles (h n : Nat) (r : Barrier) (s : State) : Settles (setBar h n r s).pl.blocks s.pl.colls s (setBar h n r s) :=
  updBlock_settles h (withBar n r) s

theorem flipBar_settles (h n : Nat) (r : Barrier) (dead : s.th = {}) :
    Settles (setBar h n (flipped r) s).pl.blocks s.pl.colls s (flipBar h n r s) :=
  (setBar_settles h n (flipped r) s).andThen (wakeBar_settles h n dead)

theorem setBar_block {h n : Nat} {r : Barrier} {b : Block} (block : s.block? h = some b) : (setBar h n r s).block? h = some (withBar n r b) :=
  (find?_updIf_key Block.handle h (f := withBar n r) (fun _ => rfl) s.pl.blocks).trans (congrArg _ block)

/-- The blocks that a leave settles hold what the thread has left. -/
theorem leaveBar_settles (h tid n : Nat) (dead : s.th = {}) :
    ∃ bs, Settles bs s.pl.colls s (leaveBar h tid n s)
      ∧ ∀ b, s.block? h = some b → bs.find? (·.handle == h) = some (leavesBar tid n b) := by
  cases block : s.block? h with
  | none => exact ⟨_, by unfold leaveBar; rw [block]; exact .refl s, nofun⟩
  | some b =>
    rw [leaveBar_eq block]
    simp only [leavesBar, leftBarrier, Option.some.injEq, forall_eq']
    split
    · exact ⟨_, .refl s, block⟩
    · split
      · exact ⟨_, flipBar_settles h n _ dead, setBar_block block⟩
      · exact ⟨_, setBar_settles h n _ s, setBar_block block⟩

/-! ## Crossings (R152) -/

/-- The block `b` and its contexts as a crossing of register `k` ends with the value `v`. -/
def contextsTake (h k : Nat) (b : Block) (v : DWord) (u : State) : State :=
  let s := (u.updBlock h (dropsCrossing k)).updSeqs (fun q => q.held && q.block == h && b.stream == some q.n) (takesCrossing k v)
  { s with standby := { s.standby with seqs := updIf (fun q => q.block == h) (takesCrossing k v) s.standby.seqs } }

/-- The crossing ends, and its threads go on. -/
def closesCrossing (h k : Nat) (b : Block) (y : Crossing) (v : DWord) (u : State) : State :=
  (contextsTake h k b v u).updThreads (fun t => y.got.any (fun g => t.is g.1 g.2.1)) Thread.resume

/-- A stream of the block that waits for the crossing goes on. -/
def streamGoes (h : Nat) (b : Block) (s : State) : State :=
  match b.stream with
  | some q => if s.allSeqs.any (fun c => c.n == q && c.block == h) then wakeXrd q s else s
  | none => s

theorem settleCrossing_cases (h k : Nat) (s : State) :
    settleCrossing h k s = s ∨ ∃ b y v i, settleCrossing h k s = streamGoes h b (closesCrossing h k b y v { s with freeCtr := i }) := by
  unfold settleCrossing
  split
  · exact .inl rfl
  · split
    · exact .inl rfl
    · next c _ _ y _ =>
      dsimp only
      split
      · exact .inl rfl
      · cases y.mixed with
        | false => exact .inr ⟨c, y, _, s.freeCtr, rfl⟩
        | true => exact .inr ⟨c, y, _, s.freeCtr + 1, rfl⟩

theorem sameCore_wakesXrd (s : State) : SameCore s (wakesXrd s) := by
  unfold wakesXrd
  split
  · split <;> exact ⟨rfl, rfl, rfl⟩
  · exact ⟨rfl, rfl, rfl⟩

theorem sameCore_streamGoes (h : Nat) (b : Block) (s : State) : SameCore s (streamGoes h b s) := by
  unfold streamGoes
  split
  · split
    · exact sameCore_asSeq sameCore_wakesXrd _ s
    · exact ⟨rfl, rfl, rfl⟩
  · exact ⟨rfl, rfl, rfl⟩

theorem closesCrossing_settles (h k : Nat) (b : Block) (y : Crossing) (v : DWord) (dead : s.th = {}) :
    Settles (s.updBlock h (dropsCrossing k)).pl.blocks s.pl.colls s (closesCrossing h k b y v s) := by
  have streams : SameCore (s.updBlock h (dropsCrossing k)) (contextsTake h k b v s) := ⟨rfl, rfl, rfl⟩
  have dead' : (contextsTake h k b v s).th = {} := dead
  exact ((updBlock_settles h (dropsCrossing k) s).andThen streams.settles).andThen
    (updThreads_settles _ (f := Thread.resume) (fun _ => ⟨rfl, rfl, rfl⟩) dead')

/-- A settled crossing leaves a block its barriers. -/
theorem settleCrossing_settles (h k : Nat) (dead : s.th = {}) :
    ∃ bs, Settles bs s.pl.colls s (settleCrossing h k s)
      ∧ ∀ b, s.block? h = some b → ∃ l, bs.find? (·.handle == h) = some { b with crossings := l } := by
  rcases settleCrossing_cases h k s with e | ⟨b, y, v, i, e⟩ <;> rw [e]
  · exact ⟨_, .refl s, fun b block => ⟨b.crossings, block⟩⟩
  · have drawn : SameCore s { s with freeCtr := i } := ⟨rfl, rfl, rfl⟩
    refine ⟨_, (drawn.settles.trans (closesCrossing_settles h k b y v dead)).andThen (sameCore_streamGoes h b _).settles, fun c block => ⟨(dropsCrossing k c).crossings, ?_⟩⟩
    exact (find?_updIf_key Block.handle h (f := dropsCrossing k) (fun _ => rfl) s.pl.blocks).trans (congrArg _ block)

/-! ## Collectives (R129) -/

theorem trapAt_settles (slot lane : Nat) (t : Trap) (dead : s.th = {}) : Settles s.pl.blocks s.pl.colls s (trapAt slot lane t s) :=
  updThreads_settles _ (fun _ => ⟨rfl, rfl, rfl⟩) dead

theorem dropColl_settles (slot : Nat) (pc : PC) (s : State) :
    Settles s.pl.blocks (dropColl slot pc s).pl.colls s (dropColl slot pc s) := ⟨rfl, rfl, rfl, samePlaces_refl _⟩

theorem failColl_settles (c : Coll) (t : CollArrival → Trap) (dead : s.th = {}) :
    Settles s.pl.blocks (dropColl c.slot c.pc s).pl.colls s (failColl c t s) :=
  (dropColl_settles c.slot c.pc s).andThen (Settles.foldl (fun _ g dead => trapAt_settles c.slot g.lane (t g) dead) _ _ dead)

theorem completeColl_settles (c : Coll) (dead : s.th = {}) :
    Settles s.pl.blocks (dropColl c.slot c.pc s).pl.colls s (completeColl c s) := by
  unfold completeColl
  split
  · exact failColl_settles c _ dead
  · exact failColl_settles c _ dead
  · dsimp only
    refine (dropColl_settles c.slot c.pc s).andThen (Settles.foldl (fun s g dead => asThread_settles (fun v => ?_) _ _ s dead) _ _ dead)
    split <;> exact ⟨⟨rfl, rfl, rfl⟩, rfl, rfl⟩

theorem settleColl_settles (slot : Nat) (pc : PC) (dead : s.th = {}) : ∃ cs, Settles s.pl.blocks cs s (settleColl slot pc s) := by
  unfold settleColl
  split
  · exact ⟨_, .refl s⟩
  · next c _ =>
    dsimp only
    split
    · exact ⟨_, dropColl_settles slot pc s⟩
    · split
      · exact ⟨_, .refl s⟩
      · split
        · exact ⟨_, failColl_settles c _ dead⟩
        · exact ⟨_, completeColl_settles c dead⟩

/-! ## What the end of a thread settles (R87, R118, R150) -/

/-- The acting thread is gone, with what waits for it in collectives and fence registers; its PCT is kept for its writes. -/
def leavesCore (s : State) : State :=
  let u := leaveWaits s.th.slot s.th.lane (leaveColl s.th.slot s.th.lane { s with th := {} })
  if u.pl.net.isEmpty && u.pl.storeQ.isEmpty && u.pl.puts.isEmpty then u else carryPct s.th.uid none s.th.pct u

/-- A thread's PCT joins the completion time of its block or free warp. -/
def countsTime (t : Thread) (w : Warp) (s : State) : State :=
  match w.block with
  | none => s.updWarp t.slot (fun w => { w with bct := max w.bct t.pct })
  | some h => s.updBlock h (fun b => { b with bct := max b.bct t.pct })

/-- Barriers and crossings of its block go on without a thread. -/
def leavesBlock (t : Thread) (w : Warp) (s : State) : State :=
  match w.block with
  | none => s
  | some h => (List.range 8).foldl (fun s k => settleCrossing h k s) ((List.range 16).foldl (fun s n => leaveBar h t.tid n s) s)

/-- Collectives that wait for a thread go on without it. -/
def leavesColls (t : Thread) (s : State) : State :=
  ((s.pl.colls.filter (fun c => c.slot == t.slot && c.mask.getLsbD t.lane)).map (·.pc)).foldl (fun s pc => settleColl t.slot pc s) s

/-- All that a thread's end settles before its warp ends. -/
def afterThread (s : State) : State :=
  leavesColls s.th (leavesBlock s.th s.warp (countsTime s.th s.warp (leavesCore s)))

theorem endThread_eq (s : State) :
    endThread s = if (afterThread s).pl.threads.any (·.slot == s.th.slot) then afterThread s else endWarp s.th.slot (afterThread s) := rfl

/-- A block whose barriers a thread has left. -/
def leavesBars (tid : Nat) (b : Block) : Block := (List.range 16).foldl (fun b n => leavesBar tid n b) b

theorem leaveBars_settles (h tid : Nat) (l : List Nat) (dead : s.th = {}) :
    ∃ bs, Settles bs s.pl.colls s (l.foldl (fun s n => leaveBar h tid n s) s)
      ∧ ∀ b, s.block? h = some b → bs.find? (·.handle == h) = some (l.foldl (fun b n => leavesBar tid n b) b) := by
  induction l generalizing s with
  | nil => exact ⟨_, .refl s, fun _ block => block⟩
  | cons n l ih =>
    obtain ⟨bs, first, each⟩ := leaveBar_settles h tid n dead
    obtain ⟨bs', rest, each'⟩ := ih (first.th.trans dead)
    rw [first.colls] at rest
    refine ⟨bs', first.trans rest, fun b block => each' _ ?_⟩
    rw [State.block?, first.blocks]
    exact each b block

theorem settleCrossings_settles (h : Nat) (l : List Nat) (dead : s.th = {}) :
    ∃ bs, Settles bs s.pl.colls s (l.foldl (fun s k => settleCrossing h k s) s)
      ∧ ∀ b, s.block? h = some b → ∃ x, bs.find? (·.handle == h) = some { b with crossings := x } := by
  induction l generalizing s with
  | nil => exact ⟨_, .refl s, fun b block => ⟨b.crossings, block⟩⟩
  | cons k l ih =>
    obtain ⟨bs, first, each⟩ := settleCrossing_settles h k dead
    obtain ⟨bs', rest, each'⟩ := ih (first.th.trans dead)
    rw [first.colls] at rest
    refine ⟨bs', first.trans rest, fun b block => ?_⟩
    obtain ⟨x, found⟩ := each b block
    exact each' { b with crossings := x } (by rw [State.block?, first.blocks, found])

theorem leavesBlock_settles (t : Thread) (w : Warp) (dead : s.th = {}) :
    ∃ bs, Settles bs s.pl.colls s (leavesBlock t w s)
      ∧ ∀ h b, w.block = some h → s.block? h = some b → ∃ x, bs.find? (·.handle == h) = some { leavesBars t.tid b with crossings := x } := by
  unfold leavesBlock
  split
  · next none_ => exact ⟨_, .refl s, fun h b some_ => nomatch none_.symm.trans some_⟩
  · next h some_ =>
    obtain ⟨bs, first, each⟩ := leaveBars_settles h t.tid (List.range 16) dead
    obtain ⟨bs', rest, each'⟩ := settleCrossings_settles h (List.range 8) (first.th.trans dead)
    rw [first.colls] at rest
    refine ⟨bs', first.trans rest, fun k b other block => ?_⟩
    obtain rfl : h = k := Option.some.inj (some_.symm.trans other)
    exact each' (leavesBars t.tid b) (by rw [State.block?, first.blocks]; exact each b block)

theorem leavesColls_settles (t : Thread) (dead : s.th = {}) : ∃ cs, Settles s.pl.blocks cs s (leavesColls t s) := by
  unfold leavesColls
  generalize (s.pl.colls.filter (fun c => c.slot == t.slot && c.mask.getLsbD t.lane)).map (·.pc) = l
  induction l generalizing s with
  | nil => exact ⟨_, .refl s⟩
  | cons pc l ih =>
    obtain ⟨cs, first⟩ := settleColl_settles t.slot pc dead
    obtain ⟨cs', rest⟩ := ih (first.th.trans dead)
    rw [first.blocks] at rest
    exact ⟨cs', first.trans rest⟩

/-- The plane of a thread that has left, its waits in collectives aside. -/
theorem leavesCore_pl (s : State) : (leavesCore s).pl = (leaveColl s.th.slot s.th.lane s).pl := by
  unfold leavesCore
  dsimp only
  split <;> rfl

theorem leavesCore_th (s : State) : (leavesCore s).th = {} := by
  unfold leavesCore
  dsimp only
  split <;> rfl

theorem leavesCore_trees (s : State) : (leavesCore s).sched.trees = s.sched.trees := by
  unfold leavesCore
  dsimp only
  split <;> rfl

theorem leavesCore_carried (some_ : s.pl.net ≠ []) :
    ∃ x ∈ (leavesCore s).sched.carried, x.uid = s.th.uid ∧ x.seq = none ∧ x.pct = s.th.pct := by
  have writes : s.pl.net.isEmpty = false := by simpa using some_
  have kept : leavesCore s = carryPct s.th.uid none s.th.pct (leaveWaits s.th.slot s.th.lane (leaveColl s.th.slot s.th.lane { s with th := {} })) :=
    if_neg (by simp [leaveWaits, leaveColl, writes])
  rw [kept]
  exact ⟨_, List.mem_cons_self, rfl, rfl, rfl⟩

theorem countsTime_th (t : Thread) (w : Warp) (s : State) : (countsTime t w s).th = s.th := by
  unfold countsTime
  split <;> rfl

theorem countsTime_sched (t : Thread) (w : Warp) (s : State) : (countsTime t w s).sched = s.sched := by
  unfold countsTime
  split <;> rfl

/-- Of the plane, what is in neither its warps nor its blocks stays. -/
theorem countsTime_pl (t : Thread) (w : Warp) (s : State) :
    (countsTime t w s).pl = { s.pl with warps := (countsTime t w s).pl.warps, blocks := (countsTime t w s).pl.blocks } := by
  unfold countsTime
  split <;> rfl

end

end Sys2Proof.Laws
end

section
/-! PROOF. The ends of threads, warps and blocks, `rett`, `yield` and `exit` (R87, R88, R90, R129, R150, R163, R348 to R351). -/

namespace Sys2Proof.Laws

open Sys2Proof Sys2Proof.Machine Sys2Proof.Rules

/-! ## Ends of warps and blocks (R118, R162, R163, R185, R194) -/

/-- The threads, the warps, the acting thread and the completion times kept of ended threads are as they were. -/
structure Quiet (s t : State) : Prop where
  th : t.th = s.th
  threads : t.pl.threads = s.pl.threads
  warps : t.pl.warps = s.pl.warps
  carried : t.sched.carried = s.sched.carried

section

variable {s t u : State}

theorem Quiet.refl (s : State) : Quiet s s := ⟨rfl, rfl, rfl, rfl⟩

theorem Quiet.trans (a : Quiet s t) (b : Quiet t u) : Quiet s u :=
  ⟨b.th.trans a.th, b.threads.trans a.threads, b.warps.trans a.warps, b.carried.trans a.carried⟩

/-- The idle tiles of a block are freed. -/
def freesTiles (l : List Tile) (s : State) : State := l.foldl (fun s t => freeTile t (sramDrop t.key s)) s

theorem freesTiles_keeps (l : List Tile) (s : State) :
    Quiet s (freesTiles l s) ∧ (freesTiles l s).pl.blocks = s.pl.blocks ∧ (freesTiles l s).sched = s.sched := by
  induction l generalizing s with
  | nil => exact ⟨.refl s, rfl, rfl⟩
  | cons t l ih =>
    obtain ⟨quiet, blocks, sched⟩ := ih (freeTile t (sramDrop t.key s))
    exact ⟨(Quiet.mk rfl rfl rfl rfl : Quiet s (freeTile t (sramDrop t.key s))).trans quiet, blocks, sched⟩

/-- An ended block without a stream or a tile leaves the core. -/
def goesWithoutTiles (h : Nat) (s : State) : State :=
  match s.block? h with
  | none => s
  | some b =>
    if b.stream.isNone && (tilesOf s h).isEmpty then sramDrop h { s with pl := { s.pl with blocks := s.pl.blocks.filter (·.handle != h) } } else s

theorem dropBlock_eq (h : Nat) (s : State) : dropBlock h s = goesWithoutTiles h (freesTiles ((tilesOf s h).filter tileIdle) s) := rfl

theorem goesWithoutTiles_keeps (h : Nat) (s : State) : Quiet s (goesWithoutTiles h s) ∧ (goesWithoutTiles h s).sched = s.sched
    ∧ ∀ b, (goesWithoutTiles h s).block? h = some b → s.block? h = some b := by
  unfold goesWithoutTiles
  split
  · exact ⟨.refl s, rfl, fun _ block => block⟩
  · split
    · refine ⟨⟨rfl, rfl, rfl, rfl⟩, rfl, fun b block => ?_⟩
      have away := List.mem_of_find?_eq_some block
      have here : (b.handle == h) = true := List.find?_some (p := fun (b : Block) => b.handle == h) block
      simp [sramDrop, beq_iff_eq.1 here] at away
    · exact ⟨.refl s, rfl, fun _ block => block⟩

theorem dropBlock_keeps (h : Nat) (s : State) : Quiet s (dropBlock h s) ∧ (dropBlock h s).sched = s.sched
    ∧ ∀ b, (dropBlock h s).block? h = some b → s.block? h = some b := by
  rw [dropBlock_eq]
  obtain ⟨quiet, blocks, sched⟩ := freesTiles_keeps ((tilesOf s h).filter tileIdle) s
  obtain ⟨quiet', sched', block⟩ := goesWithoutTiles_keeps h (freesTiles ((tilesOf s h).filter tileIdle) s)
  refine ⟨quiet.trans quiet', sched'.trans sched, fun b found => ?_⟩
  have before := block b found
  rwa [State.block?, blocks] at before

theorem dropBlock_gone {h : Nat} {b : Block} (block : s.block? h = some b) (stream : b.stream = none) (tiles : tilesOf s h = []) :
    (dropBlock h s).block? h = none := by
  have goes : dropBlock h s = sramDrop h { s with pl := { s.pl with blocks := s.pl.blocks.filter (·.handle != h) } } := by
    rw [dropBlock_eq, tiles]
    show goesWithoutTiles h s = _
    rw [goesWithoutTiles, block]
    dsimp only
    rw [stream, tiles]
    rfl
  rw [goes]
  refine List.find?_eq_none.2 fun b mem => ?_
  have away := (List.mem_filter.1 mem).2
  simpa using away

theorem quiet_treeTime (n t : Nat) (s : State) : Quiet s (treeTime n t s) := ⟨rfl, rfl, rfl, rfl⟩

/-- A stream's context that is released. -/
def releasesSeq (n : Nat) (q : SeqCtx) (s : State) : State :=
  let mine := (s.cl.frameOwner.filter (·.2 == q.block)).map (·.1)
  let s := { s with
    sq := if s.sq.held && s.sq.n == n then {} else s.sq
    cl := { s.cl with
      seqs := s.cl.seqs.filter (·.n != n)
      frameOwner := s.cl.frameOwner.filter (·.2 != q.block)
      frames := s.cl.frames.filter (fun x => !mine.contains (x.1 / 65536))
      vectors := s.cl.vectors.filter (fun x => !mine.contains (x.1 / 128)) } }
  s.updBlock q.block (fun b => { b with stream := none, bct := max b.bct q.spct })

/-- The completion time of a block joins its tree's. -/
def timesBlock (h : Nat) (s : State) : State :=
  match s.block? h with
  | some b => treeTime b.tree b.bct s
  | none => s

theorem settleSeq_cases (n : Nat) (s : State) :
    settleSeq n s = s ∨ ∃ q, settleSeq n s = dropBlock q.block (timesBlock q.block (releasesSeq n q s)) := by
  unfold settleSeq
  split
  · exact .inl rfl
  · next q _ =>
    dsimp only
    split
    · split
      · exact .inl rfl
      · exact .inr ⟨q, rfl⟩
    · split
      · exact .inl rfl
      · exact .inr ⟨q, rfl⟩

theorem timesBlock_quiet (h : Nat) (s : State) : Quiet s (timesBlock h s) := by
  unfold timesBlock
  split
  · exact quiet_treeTime _ _ s
  · exact .refl s

theorem settleSeq_quiet (n : Nat) (s : State) : Quiet s (settleSeq n s) := by
  rcases settleSeq_cases n s with e | ⟨q, e⟩ <;> rw [e]
  · exact .refl s
  · have released : Quiet s (releasesSeq n q s) := ⟨rfl, rfl, rfl, rfl⟩
    exact (released.trans (timesBlock_quiet _ _)).trans (dropBlock_keeps q.block _).1

/-- What the last warp of a block leaves: its scratch is gone, and its tree counts one less. -/
def blockEnds (h : Nat) (b : Block) (s : State) : State :=
  treeTime b.tree b.bct (treeSub b.tree 1 (trimArena (s.updBlock h (fun b => { b with ended := true, scratch := 0 }))))

theorem endBlock_eq {h : Nat} {b : Block} (block : s.block? h = some b) : endBlock h s = match b.stream with
    | some q => settleSeq q (dropBlock h (blockEnds h b s))
    | none => dropBlock h (blockEnds h b s) := by
  unfold endBlock
  rw [block]
  rfl

theorem quiet_updBlock (h : Nat) (f : Block → Block) (s : State) : Quiet s (s.updBlock h f) := ⟨rfl, rfl, rfl, rfl⟩

theorem quiet_trimArena (s : State) : Quiet s (trimArena s) := ⟨rfl, rfl, rfl, rfl⟩

theorem quiet_treeSub (n k : Nat) (s : State) : Quiet s (treeSub n k s) := ⟨rfl, rfl, rfl, rfl⟩

theorem blockEnds_quiet (h : Nat) (b : Block) (s : State) : Quiet s (blockEnds h b s) :=
  (((quiet_updBlock h _ s).trans (quiet_trimArena _)).trans (quiet_treeSub _ _ _)).trans (quiet_treeTime _ _ _)

theorem blockEnds_block {h : Nat} {b : Block} (block : s.block? h = some b) :
    (blockEnds h b s).block? h = some { b with ended := true, scratch := 0 } := by
  have same : (blockEnds h b s).pl.blocks = (s.updBlock h (fun b => { b with ended := true, scratch := 0 })).pl.blocks := rfl
  rw [State.block?, same]
  exact (find?_updIf_key Block.handle h (f := fun b : Block => { b with ended := true, scratch := 0 }) (fun _ => rfl) s.pl.blocks).trans (congrArg _ block)

theorem blockEnds_tiles (h : Nat) (b : Block) (s : State) : (blockEnds h b s).pl.tiles = s.pl.tiles := rfl

theorem endBlock_quiet (h : Nat) (s : State) : Quiet s (endBlock h s) := by
  cases block : s.block? h with
  | none => unfold endBlock; rw [block]; exact .refl s
  | some b =>
    have dropped := (blockEnds_quiet h b s).trans (dropBlock_keeps h _).1
    rw [endBlock_eq block]
    split
    · exact dropped.trans (settleSeq_quiet _ _)
    · exact dropped

/-- A warp is gone from its slot, with its pages, handshakes and collectives. -/
def withoutWarp (slot : Nat) (s : State) : State :=
  let s := { s with pl := { s.pl with shake := s.pl.shake.map (forgetWarp slot), shakeQ := s.pl.shakeQ.map (forgetWarp slot) } }
  settleRegs { s with pl := { s.pl with warps := s.pl.warps.filter (·.slot != slot), colls := s.pl.colls.filter (·.slot != slot) } }

theorem endWarp_eq (slot : Nat) (s : State) : endWarp slot s = match (s.warpAt slot).block with
    | none => treeTime (s.warpAt slot).tree (s.warpAt slot).bct (treeSub (s.warpAt slot).tree 1 (withoutWarp slot s))
    | some h => if (withoutWarp slot s).pl.warps.any (·.block == some h) then withoutWarp slot s else endBlock h (withoutWarp slot s) := rfl

theorem endWarp_quiet (slot : Nat) (s : State) : Quiet (withoutWarp slot s) (endWarp slot s) := by
  rw [endWarp_eq]
  split
  · exact ⟨rfl, rfl, rfl, rfl⟩
  · split
    · exact .refl _
    · exact endBlock_quiet _ _

theorem endWarp_gone (slot : Nat) (s : State) : (endWarp slot s).warpAt? slot = none := by
  rw [State.warpAt?, (endWarp_quiet slot s).warps]
  refine List.find?_eq_none.2 fun w mem => ?_
  have away := (List.mem_filter.1 mem).2
  simpa using away

/-- A tree that counts one less and takes a completion time. -/
def treeLess (t : Nat) (r : Tree) : Tree := { r with count := r.count - 1, tct := max r.tct t }

theorem tree_find {n t : Nat} {r : Tree} (tree : s.sched.trees.find? (·.n == n) = some r) :
    (treeTime n t (treeSub n 1 s)).sched.trees.find? (·.n == n) = some (treeLess t r) := by
  have less := find?_updIf_key Tree.n n (f := fun r : Tree => { r with count := r.count - 1 }) (fun _ => rfl) s.sched.trees
  have later := find?_updIf_key Tree.n n (f := fun r : Tree => { r with tct := max r.tct t }) (fun _ => rfl) (treeSub n 1 s).sched.trees
  exact later.trans (congrArg _ (less.trans (congrArg _ tree)))

theorem endWarp_free {slot : Nat} {r : Tree} (free : (s.warpAt slot).block = none)
    (tree : s.sched.trees.find? (·.n == (s.warpAt slot).tree) = some r) :
    (endWarp slot s).sched.trees.find? (·.n == (s.warpAt slot).tree) = some (treeLess (s.warpAt slot).bct r) := by
  rw [endWarp_eq, free]
  exact tree_find (s := withoutWarp slot s) tree

/-- The last warp of a block without a stream. -/
theorem endWarp_last {slot h : Nat} {b : Block} {r : Tree} (of : (s.warpAt slot).block = some h) (block : s.block? h = some b) (stream : b.stream = none)
    (last : ∀ w ∈ s.pl.warps, w.slot ≠ slot → w.block ≠ some h) (tree : s.sched.trees.find? (·.n == b.tree) = some r) :
    (endWarp slot s).sched.trees.find? (·.n == b.tree) = some (treeLess b.bct r)
    ∧ (∀ y, (endWarp slot s).block? h = some y → y.ended = true ∧ y.scratch = 0)
    ∧ (tilesOf s h = [] → (endWarp slot s).block? h = none) := by
  have nobody : (withoutWarp slot s).pl.warps.any (·.block == some h) = false := by
    rw [Bool.eq_false_iff]
    intro any
    obtain ⟨w, mem, at_⟩ := List.any_eq_true.1 any
    obtain ⟨mem, away⟩ := List.mem_filter.1 mem
    exact last w mem (by simpa using away) (by simpa using at_)
  have block' : (withoutWarp slot s).block? h = some b := block
  have ends : endWarp slot s = dropBlock h (blockEnds h b (withoutWarp slot s)) := by
    rw [endWarp_eq, of]
    dsimp only
    rw [nobody, if_neg Bool.false_ne_true, endBlock_eq block', stream]
  have ended := blockEnds_block block'
  obtain ⟨-, sched, kept⟩ := dropBlock_keeps h (blockEnds h b (withoutWarp slot s))
  rw [ends]
  refine ⟨?_, fun y found => ?_, fun tiles => ?_⟩
  · rw [sched]
    exact tree_find (s := trimArena ((withoutWarp slot s).updBlock h (fun b => { b with ended := true, scratch := 0 }))) tree
  · obtain rfl := Option.some.inj ((kept y found).symm.trans ended)
    exact ⟨rfl, rfl⟩
  · refine dropBlock_gone ended stream ?_
    rw [tilesOf, blockEnds_tiles]
    exact tiles

end

/-! ## Error records move no thread (R173, R213, R348) -/

/-- The acting thread and the others are where they were. -/
structure Unmoved (s t : State) : Prop where
  stays : StaysPut s.th t.th
  places : SamePlaces s.pl.threads t.pl.threads

section

variable {s t u : State}

theorem Unmoved.trans (a : Unmoved s t) (b : Unmoved t u) : Unmoved s u := ⟨a.stays.trans b.stays, a.places.trans b.places⟩

/-- The plane and the acting thread are the same. -/
theorem unmoved_of_same (th : t.th = s.th) (pl : t.pl = s.pl) : Unmoved s t := by
  constructor
  · rw [th]
    exact .refl _
  · rw [pl]
    exact samePlaces_refl _

/-- The state has the acting thread `x` and the plane `p`. -/
def Holds (x : Thread) (p : Plane) (s : State) : Prop := s.th = x ∧ s.pl = p

variable {x : Thread} {p : Plane}

theorem holds_foldl {α : Type} {f : State → α → State} (each : ∀ s a, Holds x p s → Holds x p (f s a)) (l : List α) (s : State) (h : Holds x p s) :
    Holds x p (l.foldl f s) := by
  induction l generalizing s with
  | nil => exact h
  | cons a l ih => exact ih _ (each s a h)

theorem holds_ringWrite (c : Ctx) (va : Nat) (bs : List Byte) (h : Holds x p s) : Holds x p (ringWrite c va bs s) := by
  unfold ringWrite
  split <;> exact h

theorem holds_setLineRec (l : Nat) (r : LineRec) (h : Holds x p s) : Holds x p (setLineRec l r s) := by
  unfold setLineRec
  dsimp only
  repeat' split
  all_goals exact h

theorem holds_spillTrigs (q c : Nat) (h : Holds x p s) : Holds x p (spillTrigs q c s) := by
  unfold spillTrigs
  split
  · exact h
  · dsimp only
    split
    · exact holds_foldl (f := fun s (r : TrigRec) => treeSub r.tree 1 s) (fun _ _ hs => hs) _ s h
    · exact holds_foldl (fun s _ hs => holds_ringWrite _ _ _ hs) _ _ h

theorem holds_makeRoom (q c : Nat) (h : Holds x p s) : Holds x p (makeRoom q c s) := by
  have first : Holds x p (if onChip s q c ≥ ((s.ctx? c).map (·.tqlim.toNat)).getD 256 then spillTrigs q c s else s) := by
    split
    · exact holds_spillTrigs q c h
    · exact h
  unfold makeRoom
  dsimp only
  generalize (if onChip s q c ≥ ((s.ctx? c).map (·.tqlim.toNat)).getD 256 then spillTrigs q c s else s) = u at first ⊢
  split
  · exact first
  · split
    · exact first
    · exact holds_spillTrigs _ _ first

theorem holds_trigEvent (k : Att) (g depth wct : Nat) (h : Holds x p s) : Holds x p (trigEvent k g depth wct s).1 := by
  unfold trigEvent
  dsimp only
  split
  · exact h
  · split
    · split
      · exact holds_ringWrite _ _ _ h
      · exact h
    · split
      · exact h
      · exact holds_makeRoom _ _ (s := treeAdd (attTree s k) 1 s) h

/-- The events of the granules that a write has changed. -/
theorem holds_trigEvents (depth wct : Nat) (l : List (Att × Nat)) (y : State × List Refused) (h : Holds x p y.1) :
    Holds x p (l.foldl (fun y e => ((trigEvent e.1 e.2 depth wct y.1).1, y.2 ++ (trigEvent e.1 e.2 depth wct y.1).2)) y).1 := by
  induction l generalizing y with
  | nil => exact h
  | cons e l ih => exact ih _ (holds_trigEvent _ _ _ _ h)

theorem unmoved_of_holds (h : Holds s.th s.pl t) : Unmoved s t := unmoved_of_same h.1 h.2

/-- A thread that waits at a word that a write has changed looks again. -/
theorem staysPut_woken (t : Thread) : StaysPut t (match t.park with
    | .fwait va pa e d _ => { t with park := .fwait va pa e d false }
    | _ => t) := by
  split <;> exact ⟨rfl, rfl, rfl⟩

theorem unmoved_wakeWaiters (changed : List Nat) (s : State) : Unmoved s (wakeWaiters changed s) :=
  ⟨staysPut_ite (staysPut_woken s.th), samePlaces_updIf _ staysPut_woken s.pl.threads⟩

theorem unmoved_commit (ws : List (Nat × Byte)) (depth : Nat) (f : From) (s : State) : Unmoved s (commit ws depth f s).1 := by
  unfold commit
  split
  · exact unmoved_of_same rfl rfl
  · dsimp only
    refine Unmoved.trans (unmoved_of_holds (holds_setLineRec _ _ ?_)) ((unmoved_wakeWaiters _ _).trans (unmoved_of_holds (holds_trigEvents _ _ _ _ ⟨rfl, rfl⟩)))
    exact ⟨rfl, rfl⟩

theorem unmoved_recorded (h : Unmoved s t) (till src c : Nat) (err : Option Nat) (f : Ctx → Ctx) : Unmoved s (notify till src err (t.updCtx c f)) :=
  h.trans (unmoved_of_same rfl rfl)

theorem unmoved_ctxError (c code : Nat) (detail : DWord) (s : State) : Unmoved s (ctxError c code detail s) := by
  unfold ctxError
  split
  · exact unmoved_of_same rfl rfl
  · refine unmoved_recorded ?_ _ _ _ _ _
    split
    · exact unmoved_of_same rfl rfl
    · exact unmoved_commit _ _ _ s

theorem unmoved_reportDeferred (d : Option Deferred) (s : State) : Unmoved s (reportDeferred d s) := by
  unfold reportDeferred
  split
  · exact unmoved_ctxError _ _ _ s
  · exact unmoved_of_same rfl rfl

end

/-! ## Barriers that a thread has left (R150) -/

section

variable {tid : Nat}

theorem barOf_withBar (n m : Nat) (r : Barrier) (b : Block) : barOf (withBar n r b) m = if m = n then r else barOf b m := by
  unfold barOf withBar
  by_cases same : m = n
  · subst same
    simp
  · have skip : (b.bars.filter (·.1 != n)).find? (·.1 == m) = b.bars.find? (·.1 == m) := by
      rw [List.find?_filter]
      refine congrArg (fun p => b.bars.find? p) (funext fun x => ?_)
      by_cases at_ : x.1 = m
      · simp [at_, same]
      · simp [at_]
    simp [same, Ne.symm same, skip]

theorem barOf_leavesBar (n m : Nat) (b : Block) : barOf (leavesBar tid n b) m = if m = n then leftBarrier tid (barOf b n) else barOf b m := by
  unfold leavesBar
  split
  · next stays =>
    split
    · next same =>
      rw [same, leftBarrier, if_pos stays]
    · rfl
  · exact barOf_withBar n m _ b

theorem barOf_leavesAll (m : Nat) (l : List Nat) (distinct : l.Nodup) (b : Block) :
    barOf (l.foldl (fun b n => leavesBar tid n b) b) m = if m ∈ l then leftBarrier tid (barOf b m) else barOf b m := by
  induction l generalizing b with
  | nil => rfl
  | cons n l ih =>
    obtain ⟨other, rest⟩ := List.nodup_cons.1 distinct
    rw [List.foldl_cons, ih rest, barOf_leavesBar]
    by_cases same : m = n
    · subst same
      simp [other]
    · simp [same]

theorem barOf_leavesBars {n : Nat} (small : n < 16) (b : Block) : barOf (leavesBars tid b) n = leftBarrier tid (barOf b n) :=
  (barOf_leavesAll n _ List.nodup_range b).trans (if_pos (List.mem_range.2 small))

/-- Leaving barriers changes nothing else of a block. -/
theorem leavesAll_keeps (l : List Nat) (b : Block) :
    l.foldl (fun b n => leavesBar tid n b) b = { b with bars := (l.foldl (fun b n => leavesBar tid n b) b).bars } := by
  induction l generalizing b with
  | nil => rfl
  | cons n l ih =>
    have one : leavesBar tid n b = { b with bars := (leavesBar tid n b).bars } := by
      unfold leavesBar
      split <;> rfl
    rw [List.foldl_cons, ih (leavesBar tid n b)]
    exact congrArg (fun c : Block => { c with bars := (l.foldl (fun b n => leavesBar tid n b) (leavesBar tid n b)).bars }) one

theorem leavesBars_keeps (b : Block) : leavesBars tid b = { b with bars := (leavesBars tid b).bars } := leavesAll_keeps _ b

variable {r : Barrier}

theorem leftBarrier_stays (h : ¬ (r.part.testBit tid = true ∧ r.count ≠ 0)) : leftBarrier tid r = r := by
  refine if_pos ?_
  by_cases part : r.part.testBit tid = true
  · simp [not_not.1 fun count => h ⟨part, count⟩]
  · simp [Bool.eq_false_iff.2 part]

theorem leftBarrier_taking (part : r.part.testBit tid = true) (count : r.count ≠ 0) : leftBarrier tid r =
    if !r.arrived.testBit tid && (departed tid r).pending = 0 then flipped (departed tid r) else departed tid r :=
  if_neg (by simp [part, count])

theorem leftBarrier_counts (part : r.part.testBit tid = true) (count : r.count ≠ 0) :
    (leftBarrier tid r).count = r.count - 1 ∧ (leftBarrier tid r).part.testBit tid = false := by
  have gone : (r.part ^^^ 2 ^ tid).testBit tid = false := by simp [Nat.testBit_xor, part]
  rw [leftBarrier_taking part count]
  split <;> exact ⟨rfl, gone⟩

theorem leftBarrier_arrived (part : r.part.testBit tid = true) (count : r.count ≠ 0) (arrived : r.arrived.testBit tid = true) :
    leftBarrier tid r = { r with count := r.count - 1, part := r.part ^^^ 2 ^ tid } := by
  rw [leftBarrier_taking part count, if_neg (by simp [arrived]), departed, arrived]
  rfl

theorem leftBarrier_awaited (part : r.part.testBit tid = true) (count : r.count ≠ 0) (awaited : r.arrived.testBit tid = false) (more : 2 ≤ r.pending) :
    leftBarrier tid r = { r with count := r.count - 1, part := r.part ^^^ 2 ^ tid, pending := r.pending - 1 } := by
  have pends : (departed tid r).pending = r.pending - 1 := by simp [departed, awaited]
  rw [leftBarrier_taking part count, if_neg (by simp [pends]; omega), departed, awaited]
  rfl

theorem leftBarrier_last (part : r.part.testBit tid = true) (count : r.count ≠ 0) (awaited : r.arrived.testBit tid = false) (one : r.pending = 1) :
    leftBarrier tid r = flipped (departed tid r) := by
  have pends : (departed tid r).pending = 0 := by simp [departed, awaited, one]
  rw [leftBarrier_taking part count, if_pos (by simp [pends, awaited])]

end

/-! ## What is left after a thread (R87, R129, R150) -/

section

variable {s : State}

/-- What is settled before the warp ends: other threads stay where they are, and the block's barriers are left. -/
theorem afterThread_settles (s : State) : ∃ bs cs, Settles bs cs (countsTime s.th s.warp (leavesCore s)) (afterThread s)
    ∧ ∀ h b, s.warp.block = some h → s.block? h = some b →
      ∃ x, bs.find? (·.handle == h) = some { leavesBars s.th.tid { b with bct := max b.bct s.th.pct } with crossings := x } := by
  have dead : (countsTime s.th s.warp (leavesCore s)).th = {} := (countsTime_th _ _ _).trans (leavesCore_th s)
  obtain ⟨bs, first, each⟩ := leavesBlock_settles s.th s.warp dead
  obtain ⟨cs, rest⟩ := leavesColls_settles s.th (first.th.trans dead)
  rw [first.blocks] at rest
  refine ⟨bs, cs, first.trans rest, fun h b of block => each h _ of ?_⟩
  have joined : countsTime s.th s.warp (leavesCore s) = (leavesCore s).updBlock h (fun b => { b with bct := max b.bct s.th.pct }) := by
    unfold countsTime
    rw [of]
  have before : (leavesCore s).block? h = some b := by rw [State.block?, leavesCore_pl]; exact block
  rw [joined]
  exact (find?_updIf_key Block.handle h (f := fun b : Block => { b with bct := max b.bct s.th.pct }) (fun _ => rfl) _).trans (congrArg _ before)

theorem afterThread_th (s : State) : (afterThread s).th = {} := by
  obtain ⟨bs, cs, settles, -⟩ := afterThread_settles s
  exact settles.th.trans ((countsTime_th _ _ _).trans (leavesCore_th s))

theorem afterThread_sched (s : State) : (afterThread s).sched = (leavesCore s).sched := by
  obtain ⟨bs, cs, settles, -⟩ := afterThread_settles s
  exact settles.sched.trans (countsTime_sched _ _ _)

theorem afterThread_places (s : State) : SamePlaces s.pl.threads (afterThread s).pl.threads := by
  obtain ⟨bs, cs, settles, -⟩ := afterThread_settles s
  have same : (countsTime s.th s.warp (leavesCore s)).pl.threads = s.pl.threads := by rw [countsTime_pl, leavesCore_pl]; rfl
  rw [← same]
  exact settles.places

theorem afterThread_tiles (s : State) : (afterThread s).pl.tiles = s.pl.tiles := by
  obtain ⟨bs, cs, settles, -⟩ := afterThread_settles s
  rw [settles.pl, countsTime_pl, leavesCore_pl]
  rfl

theorem afterThread_warps (s : State) : (afterThread s).pl.warps = (countsTime s.th s.warp (leavesCore s)).pl.warps := by
  obtain ⟨bs, cs, settles, -⟩ := afterThread_settles s
  rw [settles.pl]

theorem afterThread_block {h : Nat} {b : Block} (of : s.warp.block = some h) (block : s.block? h = some b) :
    ∃ x, (afterThread s).block? h = some { leavesBars s.th.tid { b with bct := max b.bct s.th.pct } with crossings := x } := by
  obtain ⟨bs, cs, settles, each⟩ := afterThread_settles s
  rw [State.block?, settles.blocks]
  exact each h b of block

/-- With another thread of its slot left, a thread's end leaves its warp. -/
theorem endThread_of_others (ok : PlaneOk s.pl) (others : ∃ u ∈ s.pl.threads, u.slot = s.th.slot) : endThread s = afterThread s := by
  obtain ⟨u, mem, slot_⟩ := others
  have same := ((afterThread_places s).2 (inOrder_of_planeOk ok)).2
  obtain ⟨v, memV, place_⟩ := List.mem_map.1 (same ▸ List.mem_map_of_mem (f := place) mem)
  have there : (afterThread s).pl.threads.any (fun x => x.slot == s.th.slot) = true :=
    List.any_eq_true.2 ⟨v, memV, beq_iff_eq.2 ((congrArg Prod.fst place_).trans slot_)⟩
  rw [endThread_eq, if_pos there]

theorem endThread_of_alone (alone : ∀ u ∈ s.pl.threads, u.slot ≠ s.th.slot) : endThread s = endWarp s.th.slot (afterThread s) := by
  rw [endThread_eq, if_neg]
  intro any
  obtain ⟨u, mem, slot_⟩ := List.any_eq_true.1 any
  obtain ⟨v, memV, place_⟩ := (afterThread_places s).1 u mem
  exact alone v memV ((congrArg Prod.fst place_).trans (beq_iff_eq.1 slot_))

/-- Whether or not the warp ends: no thread acts, and the others are where they were. -/
theorem endThread_keeps (s : State) :
    (endThread s).th = {} ∧ SamePlaces s.pl.threads (endThread s).pl.threads ∧ (endThread s).sched.carried = (leavesCore s).sched.carried := by
  rw [endThread_eq]
  split
  · exact ⟨afterThread_th s, afterThread_places s, congrArg _ (afterThread_sched s)⟩
  · have quiet := endWarp_quiet s.th.slot (afterThread s)
    refine ⟨quiet.th.trans (afterThread_th s), ?_, quiet.carried.trans (congrArg _ (afterThread_sched s))⟩
    rw [quiet.threads]
    exact afterThread_places s

/-! ## A collective that a thread has left (R129) -/

/-- The lanes of a warp in a list of places. -/
def lanesAt (slot : Nat) (l : List (Nat × Nat)) : Word := l.foldl (fun m x => if x.1 == slot then m ||| (1#32 <<< x.2) else m) 0

theorem livingMask_of_dead {u : State} (dead : u.th = {}) (slot : Nat) : livingMask u slot = lanesAt slot (u.pl.threads.map place) := by
  have all : u.living = u.pl.threads := by rw [State.living, dead]; rfl
  rw [livingMask, lanesAt, all, List.foldl_map]
  rfl

theorem arrivedMask_without {c : Coll} {lane : Nat} (others : ∀ g ∈ c.got, g.lane ≠ lane) : (arrivedMask c).getLsbD lane = false := by
  unfold arrivedMask
  have keeps (l : List CollArrival) (each : ∀ g ∈ l, g.lane ≠ lane) (m : Word) (clear : m.getLsbD lane = false) :
      (l.foldl (fun m g => m ||| (1#32 <<< g.lane)) m).getLsbD lane = false := by
    induction l generalizing m with
    | nil => exact clear
    | cons g l ih =>
      obtain ⟨first, rest⟩ := List.forall_mem_cons.1 each
      refine ih rest _ ?_
      simp [clear]
      omega
  exact keeps c.got others 0 (by simp)

/-- The lane of a thread that has left counts as gone once nobody else is awaited. -/
theorem gone_ne_zero {mask alive arrived : Word} {lane : Nat} (member : mask.getLsbD lane = true) (absent : arrived.getLsbD lane = false)
    (all : mask &&& alive &&& ~~~arrived = 0) : mask &&& ~~~alive ≠ 0 := by
  intro none_
  have waits := congrArg (fun w : Word => w.getLsbD lane) all
  have gone := congrArg (fun w : Word => w.getLsbD lane) none_
  have low : lane < 32 := BitVec.lt_of_getLsbD member
  have clear : arrived[lane] = false := absent
  simp [member, low] at waits gone
  simp [clear, gone] at waits

variable {c : Coll} {u : State}

theorem settleColl_waits (one : u.pl.colls = [c]) (some_ : c.got ≠ [])
    (waits : c.mask &&& livingMask u c.slot &&& ~~~arrivedMask c ≠ 0) : settleColl c.slot c.pc u = u := by
  have found : findColl u c.slot c.pc = some c := by simp [findColl, one]
  unfold settleColl
  rw [found]
  dsimp only
  rw [if_neg (by simpa using some_), if_pos (bne_iff_ne.2 waits)]

theorem settleColl_fails (one : u.pl.colls = [c]) (some_ : c.got ≠ []) (all : c.mask &&& livingMask u c.slot &&& ~~~arrivedMask c = 0)
    (gone : c.mask &&& ~~~livingMask u c.slot ≠ 0) : settleColl c.slot c.pc u =
      failColl c (fun _ => { cause := .collExited, info := c.mask &&& ~~~livingMask u c.slot }) u := by
  have found : findColl u c.slot c.pc = some c := by simp [findColl, one]
  unfold settleColl
  rw [found]
  dsimp only
  rw [if_neg (by simpa using some_), all, if_neg (by simp), if_pos (bne_iff_ne.2 gone)]

/-- A thread with a trap that it takes at its instruction. -/
def trapped (t : Trap) (x : Thread) : Thread := { x with park := .trap t (pc64 x.pc) false, held := none }

theorem trapAll_threads (slot : Nat) (t : Trap) (l : List CollArrival) (u : State) :
    (l.foldl (fun s g => trapAt slot g.lane t s) u).pl.threads
      = u.pl.threads.map (fun x => if l.any (fun g => x.is slot g.lane) then trapped t x else x) := by
  induction l generalizing u with
  | nil => exact (List.map_id' _).symm
  | cons g l ih =>
    have first : (trapAt slot g.lane t u).pl.threads = u.pl.threads.map (fun x => if x.is slot g.lane then trapped t x else x) := rfl
    rw [List.foldl_cons, ih, first, List.map_map]
    refine List.map_congr_left fun x _ => ?_
    rw [Function.comp_apply, List.any_cons]
    cases x.is slot g.lane with
    | false => rfl
    | true =>
      show (if l.any (fun g => x.is slot g.lane) then trapped t (trapped t x) else trapped t x) = trapped t x
      exact ite_self _

theorem failColl_traps (t : Trap) : ∀ g ∈ c.got, ∀ x ∈ (failColl c (fun _ => t) u).pl.threads, x.is c.slot g.lane = true → x.park = .trap t (pc64 x.pc) false := by
  intro g mem x memX here
  have all : (failColl c (fun _ => t) u).pl.threads = u.pl.threads.map (fun x => if c.got.any (fun g => x.is c.slot g.lane) then trapped t x else x) :=
    trapAll_threads c.slot t c.got (dropColl c.slot c.pc u)
  rw [all] at memX
  obtain ⟨y, -, rfl⟩ := List.mem_map.1 memX
  have same : y.is c.slot g.lane = true := by
    split at here <;> exact here
  rw [if_pos (List.any_eq_true.2 ⟨g, mem, same⟩)]
  rfl

/-- The one collective, which others have reached, is settled last. -/
theorem afterThread_coll (one : s.pl.colls = [c]) (slot_ : c.slot = s.th.slot) (member : c.mask.getLsbD s.th.lane = true) (some_ : c.got ≠ [])
    (others : ∀ g ∈ c.got, g.lane ≠ s.th.lane) :
    ∃ u, afterThread s = settleColl c.slot c.pc u ∧ u.th = {} ∧ u.pl.colls = [c] ∧ SamePlaces s.pl.threads u.pl.threads := by
  have left : (leavesCore s).pl.colls = [c] := by
    have got : c.got.filter (·.lane != s.th.lane) = c.got := List.filter_eq_self.2 fun g mem => by simpa using others g mem
    have kept : (if c.slot == s.th.slot then { c with got := c.got.filter (·.lane != s.th.lane) } else c) = c := by
      rw [got]
      exact ite_self c
    rw [leavesCore_pl, leaveColl]
    dsimp only
    rw [one, List.map_singleton, kept]
    simp [some_]
  have dead : (countsTime s.th s.warp (leavesCore s)).th = {} := (countsTime_th _ _ _).trans (leavesCore_th s)
  have counted : (countsTime s.th s.warp (leavesCore s)).pl.colls = [c] ∧ (countsTime s.th s.warp (leavesCore s)).pl.threads = s.pl.threads := by
    rw [countsTime_pl]
    refine ⟨left, ?_⟩
    rw [leavesCore_pl]
    rfl
  obtain ⟨bs, block, -⟩ := leavesBlock_settles s.th s.warp dead
  have colls := block.colls.trans counted.1
  refine ⟨leavesBlock s.th s.warp (countsTime s.th s.warp (leavesCore s)), ?_, block.th.trans dead, colls, ?_⟩
  · rw [afterThread, leavesColls, colls]
    simp [slot_, member]
  · rw [← counted.2]
    exact block.places

end

/-! ## The statement -/

theorem reportDeferred_some {s : State} {c : Nat} {d : Deferred} (ctx : s.pl.ctx = some c) : reportDeferred (some d) s = ctxError c 17 d.gran s := by
  simp only [reportDeferred, ctx]

/-- What `exit` ends is gone from its place. -/
theorem exit_leaves {sw : Bool} {s : State} (ha : s.actor ≠ .stream) (calm : s.th.deferred = none ∨ s.th.inh = true)
    (alone : ∀ u ∈ s.pl.threads, u.is s.th.slot s.th.lane = false) :
    ∃ t, exec (.exit sw) s = .next t ∧ t.th = {} ∧ ∀ u ∈ t.pl.threads, u.is s.th.slot s.th.lane = false := by
  obtain ⟨th, places, -⟩ := endThread_keeps (reportDeferred s.th.deferred s)
  refine ⟨_, exec_exit_ends ha calm, th, fun u mem => ?_⟩
  obtain ⟨v, memV, same⟩ := ((unmoved_reportDeferred s.th.deferred s).places.trans places).1 u mem
  rw [Bool.eq_false_iff]
  intro here
  exact absurd (is_iff.2 (same.trans (is_iff.1 here))) (Bool.eq_false_iff.1 (alone v memV))

/-- Where the thread's warp goes on, its block's barriers are as the thread left them. -/
theorem endThread_block {s : State} {h : Nat} {b : Block} (ok : PlaneOk s.pl) (of : s.warp.block = some h) (block : s.block? h = some b)
    (others : ∃ u ∈ s.pl.threads, u.slot = s.th.slot) :
    ∃ b', (endThread s).block? h = some b' ∧ b'.bct = max b.bct s.th.pct ∧ ∀ n < 16, barOf b' n = leftBarrier s.th.tid (barOf b n) := by
  obtain ⟨x, found⟩ := afterThread_block of block
  rw [endThread_of_others ok others]
  refine ⟨_, found, ?_, fun n small => ?_⟩
  · rw [leavesBars_keeps]
  · exact barOf_leavesBars small _

/-- A collective that waits for a thread goes on waiting for the others, or fails for all that have reached it. -/
theorem endThread_coll {s : State} {c : Coll} (ok : PlaneOk s.pl) (one : s.pl.colls = [c]) (slot_ : c.slot = s.th.slot)
    (member : c.mask.getLsbD s.th.lane = true) (some_ : c.got ≠ [])
    (each : ∀ g ∈ c.got, g.lane ≠ s.th.lane ∧ ∃ u ∈ s.pl.threads, u.live = true ∧ u.is c.slot g.lane = true) :
    let alive := livingMask { s with th := {} } c.slot
    (c.mask &&& alive &&& ~~~(arrivedMask c) ≠ 0 → (endThread s).pl.colls = [c])
    ∧ (c.mask &&& alive &&& ~~~(arrivedMask c) = 0 → (endThread s).pl.colls = [] ∧ ∀ g ∈ c.got, ∀ u ∈ (endThread s).pl.threads,
      u.is c.slot g.lane = true → u.park = .trap { cause := .collExited, info := c.mask &&& ~~~alive } (pc64 u.pc) false) := by
  obtain ⟨u, after, dead, colls, places⟩ := afterThread_coll one slot_ member some_ (fun g mem => (each g mem).1)
  obtain ⟨g, mem⟩ := List.exists_mem_of_ne_nil c.got some_
  obtain ⟨-, v, memV, -, here⟩ := each g mem
  have ends := endThread_of_others ok ⟨v, memV, (congrArg Prod.fst (is_iff.1 here)).trans slot_⟩
  have alive : livingMask { s with th := {} } c.slot = livingMask u c.slot := by
    rw [livingMask_of_dead dead, (places.2 (inOrder_of_planeOk ok)).2]
    exact livingMask_of_dead rfl c.slot
  rw [alive, ends, after]
  refine ⟨fun waits => ?_, fun all => ?_⟩
  · rw [settleColl_waits colls some_ waits]
    exact colls
  · have gone := gone_ne_zero member (arrivedMask_without fun g mem => (each g mem).1) all
    rw [settleColl_fails colls some_ all gone]
    refine ⟨?_, failColl_traps _⟩
    rw [(failColl_settles c _ dead).colls, dropColl]
    simp [colls]

theorem afterThread_freeWarp {s : State} {w : Warp} (warp : s.warpAt? s.th.slot = some w) (free : w.block = none) :
    (afterThread s).warpAt s.th.slot = { w with bct := max w.bct s.th.pct } := by
  have mine : s.warp = w := congrArg (Option.getD · _) warp
  have joined : (afterThread s).pl.warps = updIf (·.slot == s.th.slot) (fun w => { w with bct := max w.bct s.th.pct }) s.pl.warps := by
    rw [afterThread_warps, mine, countsTime, free]
    dsimp only [State.updWarp]
    rw [leavesCore_pl]
    rfl
  have found := find?_updIf_key Warp.slot s.th.slot (f := fun w : Warp => { w with bct := max w.bct s.th.pct }) (fun _ => rfl) s.pl.warps
  rw [State.warpAt, State.warpAt?, joined, found]
  exact congrArg (fun x => (x.map (fun w : Warp => { w with bct := max w.bct s.th.pct })).getD { slot := s.th.slot }) warp

theorem afterThread_blockWarps {s : State} {h : Nat} (of : s.warp.block = some h) : (afterThread s).pl.warps = s.pl.warps := by
  rw [afterThread_warps, countsTime, of]
  dsimp only [State.updBlock]
  rw [leavesCore_pl]
  rfl

/-- A thread that was alone in its warp ends it. -/
theorem endThread_warp {s : State} {w : Warp} {r : Tree} (alone : ∀ u ∈ s.pl.threads, u.slot ≠ s.th.slot) (warp : s.warpAt? s.th.slot = some w) :
    (endThread s).warpAt? s.th.slot = none
    ∧ (w.block = none → s.sched.trees.find? (·.n == w.tree) = some r →
      (endThread s).sched.trees.find? (·.n == w.tree) = some (treeLess (max w.bct s.th.pct) r))
    ∧ ∀ h b, w.block = some h → s.block? h = some b → b.stream = none → (∀ y ∈ s.pl.warps, y.slot ≠ s.th.slot → y.block ≠ some h) →
      s.sched.trees.find? (·.n == b.tree) = some r →
      (endThread s).sched.trees.find? (·.n == b.tree) = some (treeLess (max b.bct s.th.pct) r)
      ∧ (∀ y, (endThread s).block? h = some y → y.ended = true ∧ y.scratch = 0) ∧ (tilesOf s h = [] → (endThread s).block? h = none) := by
  have mine : s.warp = w := congrArg (Option.getD · _) warp
  have trees : (afterThread s).sched.trees = s.sched.trees := (congrArg _ (afterThread_sched s)).trans (leavesCore_trees s)
  have warps : (leavesCore s).pl.warps = s.pl.warps := by rw [leavesCore_pl]; rfl
  rw [endThread_of_alone alone]
  refine ⟨endWarp_gone _ _, fun free tree => ?_, fun h b of block stream last tree => ?_⟩
  · have joined := afterThread_freeWarp warp free
    have less := endWarp_free (s := afterThread s) (slot := s.th.slot) (r := r) (by rw [joined]; exact free) (by rw [joined, trees]; exact tree)
    rw [joined] at less
    exact less
  · have kept := afterThread_blockWarps (mine ▸ of)
    have warp' : (afterThread s).warpAt s.th.slot = w := by
      rw [State.warpAt, State.warpAt?, kept]
      exact congrArg (Option.getD · _) warp
    obtain ⟨x, found⟩ := afterThread_block (mine ▸ of) block
    rw [leavesBars_keeps] at found
    have ends := endWarp_last (s := afterThread s) (r := r) (by rw [warp']; exact of) found stream (by rw [kept]; exact last) (by rw [trees]; exact tree)
    rwa [tilesOf, afterThread_tiles] at ends

/-- Settles O9, by what each instruction does, and what a thread's end settles before and with its warp. -/
theorem returnYieldAndExit : Obligations.ReturnYieldAndExit := by
  refine ⟨⟨fun sw s ha inside canon aligned => exec_rett_returns ha inside canon aligned, fun sw s ha out => exec_rett_outside ha out⟩,
    fun sw s ha inside => ⟨fun bad => ?notCanonical, fun canon bad => ?notAligned, fun ready bad => ?kills⟩,
    ⟨fun sw s ha => exec_yield_eq ha, fun sw s ha calm alone => exit_leaves ha calm alone⟩,
    fun sw s ha => ⟨fun none_ => ?plain, fun d => ⟨exec_exit_deferred ha d, fun c deferred inside ctx => ?reports⟩⟩,
    fun s h n b ok of block small others => ?bars,
    fun s c ok one slot_ member some_ each => endThread_coll ok one slot_ member some_ each,
    fun s w tr alone warp => ?warps,
    fun s writes => ?times⟩
  case notCanonical =>
    exact exec_rett_fails ha inside ((pcFail_eq _).trans (if_pos bad))
  case notAligned =>
    exact exec_rett_fails ha inside ((pcFail_eq _).trans ((if_neg (by simp [canon])).trans (if_pos bad)))
  case kills =>
    obtain ⟨t, fail⟩ := pcFail_some bad
    rw [exec_rett_fails ha inside fail, raise_of_inside ready inside]
  case plain =>
    rw [exec_exit_ends ha (.inl none_), none_]
    rfl
  case reports =>
    rw [exec_exit_ends ha (.inr inside), deferred, reportDeferred_some ctx]
  case bars =>
    obtain ⟨b', found, time, bars⟩ := endThread_block ok of block others
    refine ⟨b', found, time, ?_⟩
    dsimp only
    rw [bars n small]
    refine ⟨leftBarrier_stays, fun ⟨part, count⟩ => ?_⟩
    obtain ⟨fewer, out⟩ := leftBarrier_counts part count
    refine ⟨fewer, out, fun arrived => ?_, fun awaited more => ?_, fun awaited last => ?_⟩
    · rw [leftBarrier_arrived part count arrived]
      exact ⟨rfl, rfl, rfl⟩
    · rw [leftBarrier_awaited part count awaited more]
      exact ⟨rfl, rfl, rfl⟩
    · rw [leftBarrier_last part count awaited last]
      exact ⟨rfl, rfl, rfl, rfl, rfl⟩
  case warps =>
    obtain ⟨gone, free, last⟩ := endThread_warp (r := tr) alone warp
    refine ⟨gone, fun none_ tree => ⟨_, free none_ tree, rfl, rfl⟩, fun h b of block stream only tree => ?_⟩
    obtain ⟨less, left⟩ := last h b of block stream only tree
    exact ⟨⟨_, less, rfl, rfl⟩, left⟩
  case times =>
    rw [(endThread_keeps s).2.2]
    exact leavesCore_carried writes

end Sys2Proof.Laws
end

section
/-! PROOF. Floating-point results and conversions of threads (R102 to R115). -/

namespace Sys2Proof.Laws

open Sys2Proof Sys2Proof.Machine Sys2Proof.Rules

/-- A floating-point instruction is one that takes no POISON trap: it computes with free values in place of the poisoned ones (R104, log entry 81). -/
theorem runFloat_eq_runQuiet (i : Ins) (f : Opnds → State → State) (s : State) :
    runFloat i f s = runQuiet i (fun s => f (freedOperands i s.freeCtr s) { s with freeCtr := s.freeCtr + 1 }) f s := rfl

theorem runFloat_of_executes {i : Instr} {s : State} (h : Executes i s) (f : Opnds → State → State) :
    runFloat i.ins f s = .next (f (operands i.ins s) s) :=
  (runFloat_eq_runQuiet ..).trans (runQuiet_of_executes h ..)

/-- A thread that has passed its checks gets the floating-point result of its rule. -/
theorem exec_thread_of_floatGives {i : Instr} {r : ResultRule} {s : State} (g : FloatGives i r) (h : Executes i s) :
    exec i s = .next (afterResult r i.ins s) :=
  calc exec i s
    _ = .next (result i.ins (operands i.ins s) (r.thread i.ins s (operands i.ins s)) r.lo r.hi s) := (g s).trans (runFloat_of_executes h _)
    _ = .next (afterResult r i.ins s) := congrArg _ (result_eq ..)

/-- Settles O3, by the rule of each instruction. -/
theorem floatResults : Obligations.FloatResults := by
  refine ⟨fun i r s rule h => ?float, fun i r s rule h => ?convert⟩
  case float => exact exec_thread_of_floatGives (floatGives_of_rule (.inl rule)) h
  case convert => exact exec_thread_of_floatGives (floatGives_of_rule (.inr rule)) h

end Sys2Proof.Laws
end

section
/-! PROOF. `brx`: which side of a bundle is exiled, and what becomes of a thread on either side (R131, R132, R153). -/

namespace Sys2Proof.Laws

open Sys2Proof Sys2Proof.Machine Sys2Proof.Rules

/-! ## The instruction -/

/-- A `brx` of offset `off` that is taken where `p` holds of its operand. -/
def IsBrx (i : Instr) (off : Int) (p : Int → Bool) : Prop :=
  ∃ o : BitVec 16, off = o.toInt ∧ i.ins.p = none ∧ ∀ s, exec i s = runThread i.ins (brxOp i.ins o (fun w => p w.toInt)) s

theorem isBrx_of_cond {i : Instr} {o : BitVec 16} {c : Word → Bool} {p : Int → Prop} [DecidablePred p] (hc : ∀ w, c w = true ↔ p w.toInt)
    (hp : i.ins.p = none) (e : ∀ s, exec i s = runThread i.ins (brxOp i.ins o c) s) : IsBrx i o.toInt (fun a => decide (p a)) := by
  have same : c = fun w => decide (p w.toInt) := funext fun w => Bool.eq_iff_iff.2 ((hc w).trans decide_eq_true_iff.symm)
  exact ⟨o, rfl, hp, same ▸ e⟩

theorem isBrx_of_exileRule {i : Instr} {off : Int} {p : Int → Bool} (h : exileRule i = some (off, p)) : IsBrx i off p := by
  unfold exileRule at h
  split at h
  · obtain ⟨rfl, rfl⟩ := Prod.mk.inj (Option.some.inj h)
    exact isBrx_of_cond (p := (· = 0)) condZ_iff rfl fun _ => rfl
  · obtain ⟨rfl, rfl⟩ := Prod.mk.inj (Option.some.inj h)
    exact isBrx_of_cond (p := (· ≠ 0)) condNz_iff rfl fun _ => rfl
  · obtain ⟨rfl, rfl⟩ := Prod.mk.inj (Option.some.inj h)
    exact isBrx_of_cond (p := (· < 0)) condLtz_iff rfl fun _ => rfl
  · obtain ⟨rfl, rfl⟩ := Prod.mk.inj (Option.some.inj h)
    exact isBrx_of_cond (p := (· ≥ 0)) condGez_iff rfl fun _ => rfl
  · exact nomatch h

/-! ## The sides of a bundle -/

section

variable {i : Instr} {off : Int} {p : Int → Bool} {s : State}

/-- The threads of the bundle that go one way. -/
def going (i : Ins) (cond : Word → Bool) (b : Bool) (s : State) : List Thread := (bundleMates s).filter (fun t => Machine.takes i cond s t == some b)

theorem votes_eq_going (i : Ins) (cond : Word → Bool) (b : Bool) (s : State) :
    (((bundleMates s).map (fun t => (t, Machine.takes i cond s t))).filter (fun v => v.2 == some b)).map (·.1) = going i cond b s := by
  simp [going, List.filter_map, Function.comp_def]

theorem takes_beq (i : Ins) (cond : Word → Bool) (b : Bool) (s : State) (t : Thread) :
    (Machine.takes i cond s t == some b)
      = ((checkFail i { s with th := t }).isNone && cond (wordOf (operands i { s with th := t }).a) == b) := by
  unfold Machine.takes
  dsimp only
  split
  · next e => simp [e]
  · next e => simp [e]

theorem going_of_inBundle (i : Instr) (p : Int → Bool) (b : Bool) (h : inBundle s = true) :
    going i.ins (fun w => p w.toInt) b s = voters i p b s := by
  unfold inBundle at h
  simp only [going, bundleMates, h, ↓reduceIte, List.filter_filter, voters, takes_beq]
  exact List.filter_congr fun t _ => by ac_rfl

/-- The side of `exiledSide`, in the words of the model. -/
theorem exileSide_eq (i : Ins) (cond : Word → Bool) (target next : PC) (s : State) :
    exileSide i cond target next s =
      if (going i cond true s).isEmpty || (going i cond false s).isEmpty then 0
      else
        let takers := decide ((going i cond true s).length ≤ (going i cond false s).length)
        let entry := if takers then target else next
        let out := (going i cond takers s).filter (fun t => (recFail entry { s with th := t }).isNone)
        if canExile s out (fun _ => entry) then (if takers then 1 else 2) else 0 := by
  unfold exileSide
  simp only [votes_eq_going]
  split
  · rfl
  · by_cases few : (going i cond true s).length ≤ (going i cond false s).length <;> simp [few]

theorem exileSide_of_split (h : inBundle s = true) (yes : voters i p true s ≠ []) (no : voters i p false s ≠ []) :
    exileSide i.ins (fun w => p w.toInt) ((branchTo s.th.pc off).truncate 57) (s.th.pc + 4) s = exiledSide i p off s := by
  rw [exileSide_eq]
  simp only [going_of_inBundle i p _ h]
  rw [if_neg (by simp [yes, no])]
  rfl

theorem exileSide_of_oneWay {cond : Word → Bool} {target next : PC} (i : Ins) (b : Bool) (none : going i cond b s = []) :
    exileSide i cond target next s = 0 := by
  rw [exileSide_eq, if_pos]
  cases b <;> simp [none]

/-- A thread outside the bundle goes one way alone. -/
theorem going_of_outside {i : Ins} {cond : Word → Bool} (h : inBundle s = false) :
    going i cond (!cond (wordOf (operands i s).a)) s = [] := by
  unfold inBundle at h
  simp [going, bundleMates, h, takes_beq]

end

/-! ## The instruction on its side -/

/-- An exiled thread traps on an entry that no record can name. -/
theorem exileAt_of_trap {i : Ins} {v : DWord} {stay : State → State} {s : State} {t : Trap} (h : recTrap v s = some t) :
    exileAt i v stay s = raise t s := by
  unfold exileAt
  rw [h]

/-- A thread that is parked in its instruction goes on elsewhere than at the next word. -/
theorem captureHeld_waitsAt (i : Ins) (pc : PC) (pk : Park) (s : State) :
    (captureHeld i s).updTh (fun t => { t with npc := pc, smark := i.s, park := pk }) = waitsAt i pc pk s := by
  unfold captureHeld waitsAt captures capturesNow
  split <;> rfl

/-- It waits for its results, with its record's place kept. -/
theorem exileAt_of_waiting {i : Ins} {v : DWord} {stay : State → State} {s : State} (h : recTrap v s = none) (waiting : s.th.allReady = false) :
    exileAt i v stay s = match keptPlace s with
      | some t => waitsAt i (v.truncate 57) (.exile (v.truncate 57)) t
      | none => stay s := by
  unfold exileAt
  rw [h, waiting]
  change (match keptPlace s with
    | some t => (captureHeld i t).updTh _
    | none => stay s) = _
  cases keptPlace s with
  | none => rfl
  | some t => exact captureHeld_waitsAt i _ _ t

/-- It ends once they are written and its record is placed. -/
theorem exileAt_of_ready {i : Ins} {v : DWord} {stay : State → State} {s : State} (h : recTrap v s = none) (ready : s.th.allReady = true) :
    exileAt i v stay s = match placeRecord (v.truncate 57) { s with th := s.th.completeAll } with
      | some t => endThread t
      | none => stay s := by
  unfold exileAt
  rw [h, ready]
  rfl

/-- Whether the acting thread takes the branch. -/
def taken (i : Instr) (p : Int → Bool) (s : State) : Bool := p (wordOf (operands i.ins s).a).toInt

/-- The side that is exiled when the acting thread issues: the one that its bundle has settled, else what its votes say. -/
def sideNow (i : Instr) (off : Int) (p : Int → Bool) (s : State) : Nat :=
  let side := exileSide i.ins (fun w => p w.toInt) ((branchTo s.th.pc off).truncate 57) (s.th.pc + 4) s
  match s.split with
  | some (n, c) => if n = s.bundleNo && inBundle s then c else side
  | none => side

/-- What becomes of the acting thread where `side` is exiled. -/
def onSide (i : Instr) (off : Int) (p : Int → Bool) (side : Nat) (s : State) : State :=
  if side = (if taken i p s then 1 else 2) then
    exileAt i.ins (if taken i p s then branchTo s.th.pc off else pc64 (s.th.pc + 4)) (branches i off (taken i p s)) s
  else branches i off (taken i p s) s

section

variable {i : Instr} {off : Int} {p : Int → Bool} {s : State}

theorem onSide_of_others {side : Nat} (h : side ≠ if taken i p s then 1 else 2) : onSide i off p side s = branches i off (taken i p s) s :=
  if_neg h

theorem onSide_of_exiled : onSide i off p (if taken i p s then 1 else 2) s =
    exileAt i.ins (if taken i p s then branchTo s.th.pc off else pc64 (s.th.pc + 4)) (branches i off (taken i p s)) s :=
  if_pos rfl

/-- The last step of the instruction, which the model takes with what it has computed before. -/
theorem onSide_eq {o : BitVec 16} (noPayload : i.ins.p = none) (side : Nat) :
    (let go := fun u => if taken i p s then jumpTo i.ins (branchTarget s.th.pc (o.signExtend 64)) u else finish i.ins u
     if (side = 1 && taken i p s) || (side = 2 && !taken i p s) then
       exileAt i.ins (if taken i p s then branchTarget s.th.pc (o.signExtend 64) else pc64 (nextPc i.ins s)) go s
     else go s) = onSide i o.toInt p side s := by
  have next : nextPc i.ins s = s.th.pc + 4 := by rw [nextPc, noPayload]; rfl
  unfold onSide branches exileAt
  simp only [branchTarget_eq, jumpTo_eq, finish_eq, next]
  cases taken i p s <;> simp

theorem exec_brx (b : IsBrx i off p) (h : Executes i s) :
    exec i s = .next (onSide i off p (sideNow i off p s) { s with split := some (s.bundleNo, sideNow i off p s) }) := by
  obtain ⟨o, rfl, noPayload, e⟩ := b
  have next : nextPc i.ins s = s.th.pc + 4 := by rw [nextPc, noPayload]; rfl
  have side : sideNow i o.toInt p s = (match s.split with
      | some (n, c) => if n = s.bundleNo && inBundle s then c
        else exileSide i.ins (fun w => p w.toInt) ((branchTarget s.th.pc (o.signExtend 64)).truncate 57) (nextPc i.ins s) s
      | none => exileSide i.ins (fun w => p w.toInt) ((branchTarget s.th.pc (o.signExtend 64)).truncate 57) (nextPc i.ins s) s) := by
    rw [branchTarget_eq, next]; rfl
  rw [e, runThread, run_thread h.1 h.2, ← onSide_eq noPayload, side]
  rfl

/-! ## The statement -/

theorem sideNow_of_split {c : Nat} (inside : inBundle s = true) (settled : s.split = some (s.bundleNo, c)) : sideNow i off p s = c := by
  simp [sideNow, settled, inside]

theorem sideNow_of_unsettled (h : inBundle s = false ∨ s.split.map (·.1) ≠ some s.bundleNo) : sideNow i off p s =
    exileSide i.ins (fun w => p w.toInt) ((branchTo s.th.pc off).truncate 57) (s.th.pc + 4) s := by
  unfold sideNow
  split
  · next n c e =>
    rw [if_neg]
    rcases h with h | h
    · simp [h]
    · simp_all
  · rfl

/-- A thread outside the bundle, or of a bundle that goes one way, has no other side. -/
theorem sideNow_of_oneWay (h : inBundle s = false ∨ (s.split.map (·.1) ≠ some s.bundleNo ∧ voters i p (!taken i p s) s = [])) :
    sideNow i off p s = 0 := by
  rw [sideNow_of_unsettled (h.imp_right And.left)]
  cases inside : inBundle s with
  | false => exact exileSide_of_oneWay _ _ (going_of_outside inside)
  | true =>
    obtain h | ⟨-, none⟩ := h
    · exact nomatch inside.symm.trans h
    · exact exileSide_of_oneWay _ _ ((going_of_inBundle i p _ inside).trans none)

theorem exec_brx_of_settled {c : Nat} (b : IsBrx i off p) (h : Executes i s) (inside : inBundle s = true)
    (settled : s.split = some (s.bundleNo, c)) : exec i s = .next (onSide i off p c s) := by
  rw [exec_brx b h, sideNow_of_split inside settled, ← settled]

theorem exec_brx_exiled (b : IsBrx i off p) (h : Executes i s) (inside : inBundle s = true)
    (settled : s.split = some (s.bundleNo, if taken i p s then 1 else 2)) :
    exec i s = .next (exileAt i.ins (if taken i p s then branchTo s.th.pc off else pc64 (s.th.pc + 4)) (branches i off (taken i p s)) s) := by
  rw [exec_brx_of_settled b h inside settled, onSide_of_exiled]

theorem exec_brx_of_oneWay (b : IsBrx i off p) (h : Executes i s)
    (oneWay : inBundle s = false ∨ (s.split.map (·.1) ≠ some s.bundleNo ∧ voters i p (!taken i p s) s = [])) :
    exec i s = .next (branches i off (taken i p s) { s with split := some (s.bundleNo, 0) }) := by
  rw [exec_brx b h, sideNow_of_oneWay oneWay, onSide_of_others]
  · rfl
  · split <;> decide

/-- The first thread of a bundle that splits settles the side; it goes on as one for which it is settled. -/
theorem exec_brx_of_split (b : IsBrx i off p) (h : Executes i s) (inside : inBundle s = true) (unsettled : s.split.map (·.1) ≠ some s.bundleNo)
    (yes : voters i p true s ≠ []) (no : voters i p false s ≠ []) :
    exec i s = exec i { s with split := some (s.bundleNo, exiledSide i p off s) } := by
  rw [exec_brx b h, sideNow_of_unsettled (.inr unsettled), exileSide_of_split inside yes no]
  exact (exec_brx_of_settled (s := { s with split := some (s.bundleNo, exiledSide i p off s) }) b h inside rfl).symm

end

/-- Settles O10, by the side that is exiled when the thread issues. -/
theorem exileBranches : Obligations.ExileBranches := by
  refine ⟨fun _ _ _ _ rule h oneWay => exec_brx_of_oneWay (isBrx_of_exileRule rule) h oneWay,
    fun _ _ _ _ rule h inside unsettled yes no => exec_brx_of_split (isBrx_of_exileRule rule) h inside unsettled yes no,
    fun _ _ _ _ _ rule h inside settled others => (exec_brx_of_settled (isBrx_of_exileRule rule) h inside settled).trans
      (congrArg _ (onSide_of_others others)),
    fun i off p s rule h inside settled => ?_⟩
  have e := exec_brx_exiled (isBrx_of_exileRule rule) h inside settled
  exact ⟨fun t trap => e.trans (congrArg _ (exileAt_of_trap trap)),
    fun named waiting => e.trans (congrArg _ (exileAt_of_waiting named waiting)),
    fun named ready => e.trans (congrArg _ (exileAt_of_ready named ready))⟩

end Sys2Proof.Laws
end

section
/-! PROOF. Warp collectives: how a thread arrives, and how an open collective ends for its members (R128, R129, R141, R146, R147). -/

namespace Sys2Proof.Laws

open Sys2Proof Sys2Proof.Machine Sys2Proof.Rules

/-! ## The ends of an open collective -/

theorem failColl_eq (c : Coll) (t : CollArrival → Trap) (s : State) : failColl c t s = membersTrap c t s := rfl

theorem findColl_putColl (c : Coll) (s : State) : findColl (putColl c s) c.slot c.pc = some c := by
  unfold findColl putColl dropColl
  rw [List.find?_append, List.find?_eq_none.2 (by simp; tauto)]
  simp

/-- A collective that has just been put down ends, or waits for its members (Table 6-2). -/
theorem settleColl_putColl {c : Coll} (brought : c.got ≠ []) (s : State) :
    settleColl c.slot c.pc (putColl c s) =
      if c.mask &&& livingMask (putColl c s) c.slot &&& ~~~(arrivedMask c) ≠ 0 then putColl c s
      else if c.mask &&& ~~~(livingMask (putColl c s) c.slot) ≠ 0 then
        collFails c .collExited (c.mask &&& ~~~(livingMask (putColl c s) c.slot)) (putColl c s)
      else completeColl c (putColl c s) := by
  unfold settleColl
  rw [findColl_putColl]
  simp only [List.isEmpty_iff, brought, if_false, bne_iff_ne]
  rfl

/-- The matrix collective gives each member its pair of elements. -/
theorem completeColl_pairs {c : Coll} {s : State} {pair : CollArrival → List Word} (distinct : (c.got.map (·.lane)).Nodup) (wmm : c.f = 13)
    (some_ : ∀ g, pair g ≠ []) (ends : collEnd 13 c.got = .results (c.got.map (fun g => (g.lane, pair g)))) :
    completeColl c s = membersEnd c (fun g => overWith (targets { pd := g.dst } (pair g)) 16) s := by
  unfold completeColl membersEnd
  rw [wmm, ends]
  refine foldl_congr _ _ _ _ fun g mem s => ?_
  congr 1
  funext s
  dsimp only
  rw [find_lane distinct mem, ← resumeWith_eq, ← mapIdx_targets]
  simp only [Option.map_some, Option.getD_some, List.isEmpty_iff, some_ g, if_false]
  rfl

/-- The ends of the matrix collective, by the format words that its members bring. -/
theorem completeColl_wmm {c : Coll} {s : State} (distinct : (c.got.map (·.lane)).Nodup) (wmm : c.f = 13) {me : CollArrival} (mem : me ∈ c.got) :
    ((∃ g ∈ c.got, g.fv ≠ me.fv) → completeColl c s = membersTrap c (fun g => { cause := .fmtDiverge, info := g.fv }) s)
    ∧ ((∀ g ∈ c.got, g.fv = me.fv) → ¬ WmmFormat me.fv.toNat →
      completeColl c s = membersTrap c (fun g => { cause := .fmtInvalid, info := g.fv }) s)
    ∧ ((∀ g ∈ c.got, g.fv = me.fv) → WmmFormat me.fv.toNat →
      completeColl c s = membersEnd c (fun g => overWith (targets { pd := g.dst }
        [wmmSum me.fv.toNat c.got (g.lane / 4) (2 * (g.lane % 4)) (g.dv.toNat % 2 ^ 32),
          wmmSum me.fv.toNat c.got (g.lane / 4) (2 * (g.lane % 4) + 1) (g.dv.toNat / 2 ^ 32)]) 16) s) := by
  refine ⟨fun differ => ?_, fun same bad => ?_, fun same ok => ?_⟩
  · unfold completeColl
    rw [wmm, collEnd_wmm_diverge mem differ]
    rfl
  · unfold completeColl
    rw [wmm, collEnd_wmm_same mem same, if_neg (mt (wmmFmtOk_iff _).1 bad)]
    rfl
  · refine completeColl_pairs distinct wmm (fun _ => List.cons_ne_nil _ _) ?_
    rw [collEnd_wmm_same mem same, if_pos ((wmmFmtOk_iff _).2 ok)]
    simp only [wmmPair_eq]

/-! ## Arrivals -/

section

variable {i : Ins} {f : Nat} {o : Opnds} {s : State}

theorem instanceWith_got (i : Ins) (f : Nat) (o : Opnds) (s : State) : (instanceWith i f o s).got ≠ [] := by simp [instanceWith]

theorem collOp_outside (out : (memberMask f o).getLsbD s.th.lane = false) :
    collOp i f o s = raise { cause := .collSelf, info := memberMask f o } s := by
  unfold collOp
  exact if_pos (by rw [show collMask f o = memberMask f o from rfl, out]; rfl)

/-- A member joins its collective, and waits. -/
theorem collOp_member (member : (memberMask f o).getLsbD s.th.lane = true) :
    collOp i f o s =
      let c := instanceWith i f o s
      if c.mask ≠ memberMask f o ∨ c.inh ≠ s.th.inh then collFails c .collMismatch c.mask (waitsIn i .coll s)
      else match collCycle (arrivedIn i f o s) c with
        | [] => settleColl c.slot c.pc (arrivedIn i f o s)
        | ring => ring.foldl (fun v y => collFails y .collMismatch y.mask v) (arrivedIn i f o s) := by
  unfold collOp
  rw [if_neg (by rw [show collMask f o = memberMask f o from rfl, member]; decide)]
  unfold joinColl
  rw [hold_eq]
  simp only [Bool.or_eq_true, bne_iff_ne]
  rfl

/-- Where nothing closes a cycle, it waits, or the collective ends. -/
theorem collOp_settles (member : (memberMask f o).getLsbD s.th.lane = true) (mask : (instanceWith i f o s).mask = memberMask f o)
    (inh : (instanceWith i f o s).inh = s.th.inh) (open_ : collCycle (arrivedIn i f o s) (instanceWith i f o s) = []) :
    collOp i f o s = settleColl (instanceWith i f o s).slot (instanceWith i f o s).pc (arrivedIn i f o s) := by
  rw [collOp_member member]
  dsimp only
  rw [if_neg (by simp [mask, inh]), open_]

theorem collOp_closes (member : (memberMask f o).getLsbD s.th.lane = true) (mask : (instanceWith i f o s).mask = memberMask f o)
    (inh : (instanceWith i f o s).inh = s.th.inh) {x : Coll} {ring : List Coll}
    (closed : collCycle (arrivedIn i f o s) (instanceWith i f o s) = x :: ring) :
    collOp i f o s = (x :: ring).foldl (fun v y => collFails y .collMismatch y.mask v) (arrivedIn i f o s) := by
  rw [collOp_member member]
  dsimp only
  rw [if_neg (by simp [mask, inh]), closed]

theorem collOp_mismatch (member : (memberMask f o).getLsbD s.th.lane = true)
    (other : (instanceWith i f o s).mask ≠ memberMask f o ∨ (instanceWith i f o s).inh ≠ s.th.inh) :
    collOp i f o s = collFails (instanceWith i f o s) .collMismatch (instanceWith i f o s).mask (waitsIn i .coll s) := by
  rw [collOp_member member]
  exact if_pos other

end

/-! ## The statement -/

theorem exec_collective {i : Instr} {f : Nat} {s : State} (form : collectiveForm i = some f) (h : Executes i s) :
    exec i s = .next (collOp i.ins f (operands i.ins s) s) := by
  have run : exec i s = runThread i.ins (collOp i.ins f) s := by
    unfold collectiveForm at form
    split at form
    all_goals cases form
    all_goals rfl
  exact run.trans (run_thread h.1 h.2)

/-- Settles O29, by what an arrival finds at its warp and pc. -/
theorem collectivesMeet : Obligations.CollectivesMeet := by
  refine ⟨fun i f s form h => ?arrives, fun c s distinct => ?ends⟩
  case arrives =>
    have run := exec_collective form h
    refine ⟨fun out => run.trans (congrArg _ (collOp_outside out)), fun member mask inh open_ => ?settles,
      fun member other => run.trans (congrArg _ (collOp_mismatch member other)),
      fun x t member mask inh closed => run.trans (congrArg _ (collOp_closes member mask inh closed))⟩
    have settles := run.trans (congrArg _ ((collOp_settles member mask inh open_).trans (settleColl_putColl (instanceWith_got _ _ _ _) _)))
    exact ⟨fun waits => settles.trans (congrArg _ (if_pos waits)),
      fun all gone => settles.trans (congrArg _ ((if_neg (not_not.2 all)).trans (if_neg (not_not.2 gone)))),
      fun all gone => settles.trans (congrArg _ ((if_neg (not_not.2 all)).trans (if_pos gone)))⟩
  case ends =>
    refine ⟨completeColl_wsync distinct, completeColl_eq distinct, fun wmm me mem => ?_⟩
    obtain ⟨differ, bad, ok⟩ := completeColl_wmm distinct wmm mem
    exact ⟨differ, bad, fun same format _ => ok same format⟩

end Sys2Proof.Laws
end

section
/-! PROOF. The threads of the planes: what changes of the state keep them living, in lanes 0 to 31 and once each (R117 to R119, R361). -/

namespace Sys2Proof.Laws

open Sys2Proof Sys2Proof.Machine

set_option Elab.async false

/-! ## Threads in order -/

theorem inOrder_filter {p : Thread → Bool} {l : List Thread} (h : InOrder l) : InOrder (l.filter p) :=
  ⟨h.1.filter p, fun t ht => h.2 t (List.mem_of_mem_filter ht)⟩

theorem inOrder_map {f : Thread → Thread} {l : List Thread} (h : InOrder l) (stays : ∀ t, StaysPut t (f t)) : InOrder (l.map f) :=
  ((samePlaces_map fun t _ => stays t).2 h).1

theorem inOrder_updIf {p : Thread → Bool} {f : Thread → Thread} {l : List Thread} (h : InOrder l) (stays : ∀ t, StaysPut t (f t)) :
    InOrder (updIf p f l) :=
  inOrder_map h fun t => staysPut_ite (stays t)

/-- A living thread takes its place among the others, or that of the one that was there. -/
theorem inOrder_insThread {t : Thread} {l : List Thread} (h : InOrder l) (live : t.live = true) (lane : t.lane < 32) : InOrder (insThread t l) := by
  obtain ⟨sorted, each⟩ := h
  refine ⟨?_, fun u hu => ?_⟩
  · induction l with
    | nil => exact List.pairwise_singleton ..
    | cons u l ih =>
      obtain ⟨first, rest⟩ := List.pairwise_cons.1 sorted
      unfold insThread
      split
      · next before =>
        exact List.pairwise_cons.2 ⟨List.forall_mem_cons.2 ⟨before, fun v hv => before.trans (first v hv)⟩, sorted⟩
      · split
        · next same => exact List.pairwise_cons.2 ⟨fun v hv => same ▸ first v hv, rest⟩
        · next behind other =>
          refine List.pairwise_cons.2 ⟨fun v hv => ?_, ih rest (List.forall_mem_cons.1 each).2⟩
          rcases mem_of_insThread hv with rfl | hv
          · omega
          · exact first v hv
  · rcases mem_of_insThread hu with rfl | hu
    · exact ⟨live, lane⟩
    · exact each u hu

theorem inOrder_foldl_insThread {ts l : List Thread} (h : InOrder l) (each : ∀ t ∈ ts, t.live = true ∧ t.lane < 32) :
    InOrder (ts.foldl (fun l t => insThread t l) l) := by
  induction ts generalizing l with
  | nil => exact h
  | cons t ts ih =>
    obtain ⟨⟨live, lane⟩, rest⟩ := List.forall_mem_cons.1 each
    exact ih (inOrder_insThread h live lane) rest

/-! ## Changes of a thread -/

theorem staysPut_complete (p : Result 32 → Bool) (t : Thread) : StaysPut t (t.complete p) := by
  unfold Thread.complete
  split
  · exact .refl t
  · rw [settle_eq]
    exact ⟨rfl, rfl, rfl⟩

theorem staysPut_completeN (p : Result 32 → Bool) (n : Nat) (t : Thread) : StaysPut t (t.completeN p n) := by
  induction n generalizing t with
  | zero => exact .refl t
  | succ n ih => exact (staysPut_complete p t).trans (ih _)

theorem staysPut_completeAll (t : Thread) : StaysPut t t.completeAll := staysPut_completeN ..

/-- A thread that waited for the value of its access goes on. -/
theorem staysPut_served {t u : Thread} {tag : Nat} (stays : StaysPut t u) : StaysPut t (u.served tag) := by
  refine stays.trans ?_
  unfold Thread.served
  split
  · exact staysPut_ite ⟨rfl, rfl, rfl⟩
  · exact .refl u

/-! ## Changes of the state -/

section

variable {s t : State} {f : State → State}

/-- The threads of every plane are the same, and the acting one is where it was. -/
def SameThreads (s t : State) : Prop :=
  t.pl.threads = s.pl.threads ∧ t.standby.plane.threads = s.standby.plane.threads ∧ t.th.live = s.th.live ∧ t.th.lane = s.th.lane
    ∧ t.slots = s.slots ∧ t.images = s.images

/-- A change of other parts of the state. Such a change keeps the threads by definition, so where the new state is plain from the goal its
proof is that of the old state. -/
theorem threadsOk_with (h : ThreadsOk s) (same : SameThreads s t := by exact ⟨rfl, rfl, rfl, rfl, rfl, rfl⟩) : ThreadsOk t := by
  obtain ⟨pl, standby, live, lane, slots, images⟩ := same
  unfold ThreadsOk PlaneOk at *
  rwa [pl, standby, live, lane, slots, images]

/-- The acting thread changes where it is. -/
theorem threadsOk_updTh {f : Thread → Thread} (stays : StaysPut s.th (f s.th)) (h : ThreadsOk s) : ThreadsOk (s.updTh f) :=
  threadsOk_with h ⟨rfl, rfl, stays.1, stays.2.2, rfl, rfl⟩

theorem threadsOk_updThreads {p : Thread → Bool} {f : Thread → Thread} (stays : ∀ t, StaysPut t (f t)) (h : ThreadsOk s) :
    ThreadsOk (s.updThreads p f) := by
  obtain ⟨pl, standby, th, slots, images⟩ := h
  obtain ⟨live, -, lane⟩ := staysPut_ite (c := s.th.live && p s.th) (stays s.th)
  exact ⟨inOrder_updIf pl stays, standby, fun acts => lane ▸ th (live ▸ acts), slots, images⟩

theorem threadsOk_stow (h : ThreadsOk s) : ThreadsOk s.stow := by
  obtain ⟨pl, standby, th, slots, images⟩ := h
  have dead : ¬ ({} : Thread).live = true := by decide
  unfold State.stow
  split
  · next live => exact ⟨inOrder_insThread pl live (th live), standby, fun x => absurd x dead, slots, images⟩
  · exact ⟨pl, standby, fun x => absurd x dead, slots, images⟩

theorem threadsOk_fetchThread {slot lane : Nat} (h : ThreadsOk s) : ThreadsOk (s.fetchThread slot lane) := by
  obtain ⟨pl, standby, th, slots, images⟩ := threadsOk_stow h
  unfold State.fetchThread
  dsimp only
  split
  · exact ⟨pl, standby, th, slots, images⟩
  · next t found => exact ⟨inOrder_filter pl, standby, fun _ => (pl.2 t (List.mem_of_find?_eq_some found)).2, slots, images⟩

/-- What keeps the threads with one of them acting keeps them with another. -/
theorem threadsOk_asThread {slot lane : Nat} (hf : ∀ s, ThreadsOk s → ThreadsOk (f s)) (h : ThreadsOk s) : ThreadsOk (s.asThread slot lane f) := by
  unfold State.asThread
  split
  · exact hf s h
  · split
    · obtain ⟨pl, standby, -, slots, images⟩ := threadsOk_stow (hf _ (threadsOk_fetchThread (slot := slot) (lane := lane) h))
      dsimp only
      split
      · exact threadsOk_fetchThread (threadsOk_stow (hf _ (threadsOk_fetchThread h)))
      · next dead => exact ⟨pl, standby, fun live => absurd live dead, slots, images⟩
    · exact h

theorem threadsOk_foldl {α : Type} {f : State → α → State} {l : List α} (hf : ∀ s a, ThreadsOk s → ThreadsOk (f s a)) (h : ThreadsOk s) :
    ThreadsOk (l.foldl f s) := by
  induction l generalizing s with
  | nil => exact h
  | cons a l ih => exact ih (hf s a h)

theorem threadsOk_ite {c : Prop} [Decidable c] (hs : ThreadsOk s) (ht : ThreadsOk t) : ThreadsOk (if c then s else t) := by
  split
  · exact hs
  · exact ht

/-- A state found beside another result, by steps of which each keeps the threads. -/
theorem threadsOk_foldl_fst {α β : Type} {f : State × β → α → State × β} {x : State × β} {l : List α}
    (hf : ∀ y a, ThreadsOk y.1 → ThreadsOk (f y a).1) (h : ThreadsOk x.1) : ThreadsOk (l.foldl f x).1 := by
  induction l generalizing x with
  | nil => exact h
  | cons a l ih => exact ih (hf x a h)

theorem threadsOk_foldl_snd {α β : Type} {f : β × State → α → β × State} {x : β × State} {l : List α}
    (hf : ∀ y a, ThreadsOk y.2 → ThreadsOk (f y a).2) (h : ThreadsOk x.2) : ThreadsOk (l.foldl f x).2 := by
  induction l generalizing x with
  | nil => exact h
  | cons a l ih => exact ih (hf x a h)

/-- A state that is one part of an answer that is known in its parts. -/
theorem threadsOk_part {α : Type} {x y : α} (part : α → State) (e : x = y) (h : ThreadsOk (part x)) : ThreadsOk (part y) := e ▸ h

theorem threadsOk_iteFst {α : Type} {x y : State × α} {c : Prop} [Decidable c] (hx : ThreadsOk x.1) (hy : ThreadsOk y.1) :
    ThreadsOk (if c then x else y).1 := by
  split
  · exact hx
  · exact hy

theorem threadsOk_iteSnd {α : Type} {x y : α × State} {c : Prop} [Decidable c] (hx : ThreadsOk x.2) (hy : ThreadsOk y.2) :
    ThreadsOk (if c then x else y).2 := by
  split
  · exact hx
  · exact hy

/-- An operation that may find no place leaves the threads so where it does. -/
def ThreadsOkIf (o : Option State) : Prop := ∀ t, o = some t → ThreadsOk t

theorem ThreadsOkIf.found {o : Option State} (ho : ThreadsOkIf o) (e : o = some t) : ThreadsOk t := ho t e

theorem threadsOkIf_none : ThreadsOkIf none := fun _ e => nomatch e

theorem threadsOkIf_some (h : ThreadsOk s) : ThreadsOkIf (some s) := fun _ e => Option.some.inj e ▸ h

theorem threadsOkIf_ite {c : Prop} [Decidable c] {o o' : Option State} (ho : ThreadsOkIf o) (ho' : ThreadsOkIf o') :
    ThreadsOkIf (if c then o else o') := by
  split
  · exact ho
  · exact ho'

theorem threadsOkIf_map {o : Option State} (hf : ∀ s, ThreadsOk s → ThreadsOk (f s)) (ho : ThreadsOkIf o) : ThreadsOkIf (o.map f) := by
  cases o with
  | none => exact threadsOkIf_none
  | some t => exact threadsOkIf_some (hf t (ho t rfl))

theorem threadsOkIf_bind {o : Option State} {k : State → Option State} (hk : ∀ s, ThreadsOk s → ThreadsOkIf (k s)) (ho : ThreadsOkIf o) :
    ThreadsOkIf (o.bind k) := by
  cases o with
  | none => exact threadsOkIf_none
  | some t => exact hk t (ho t rfl)

theorem threadsOkIf_bindOther {α : Type} {o : Option α} {k : α → Option State} (hk : ∀ a, ThreadsOkIf (k a)) : ThreadsOkIf (o.bind k) := by
  cases o with
  | none => exact threadsOkIf_none
  | some a => exact hk a

theorem threadsOkIf_findSome {α : Type} {l : List α} {k : α → Option State} (hk : ∀ a, ThreadsOkIf (k a)) : ThreadsOkIf (l.findSome? k) := by
  intro t found
  obtain ⟨-, a, -, -, here, -⟩ := List.findSome?_eq_some_iff.1 found
  exact hk a t here

theorem threadsOk_getD {o : Option State} (ho : ThreadsOkIf o) (h : ThreadsOk s) : ThreadsOk (o.getD s) := by
  cases o with
  | none => exact h
  | some t => exact ho t rfl

theorem threadsOk_stowSeq (h : ThreadsOk s) : ThreadsOk s.stowSeq := by
  unfold State.stowSeq
  split <;> exact h

theorem threadsOk_fetchSeq {n : Nat} (h : ThreadsOk s) : ThreadsOk (s.fetchSeq n) := by
  unfold State.fetchSeq
  dsimp only
  split <;> exact threadsOk_stowSeq h

theorem threadsOk_asSeq {n : Nat} (hf : ∀ s, ThreadsOk s → ThreadsOk (f s)) (h : ThreadsOk s) : ThreadsOk (s.asSeq n f) := by
  have acts := threadsOk_stowSeq (hf _ (threadsOk_fetchSeq (n := n) h))
  unfold State.asSeq
  split
  · exact hf s h
  · split
    · exact threadsOk_ite (threadsOk_fetchSeq acts) acts
    · exact h

/-- The two planes change places. -/
theorem threadsOk_otherWay (h : ThreadsOk s) : ThreadsOk s.otherWay := by
  obtain ⟨pl, standby, th, slots, images⟩ := threadsOk_stow h
  exact ⟨standby, pl, th, slots, images⟩

theorem threadsOk_inOther (hf : ∀ s, ThreadsOk s → ThreadsOk (f s)) (h : ThreadsOk s) : ThreadsOk (s.inOther f) := by
  obtain ⟨pl, standby, th, slots, images⟩ := threadsOk_stow (hf _ (threadsOk_otherWay h))
  exact ⟨standby, pl, th, slots, images⟩

end

section

variable {s t : State}

/-! ## Planes -/

theorem inOrder_nil : InOrder [] := ⟨List.Pairwise.nil, List.forall_mem_nil _⟩

theorem planeOk_fresh : PlaneOk freshPlane := inOrder_nil

theorem planeOk_cleared (p : Plane) : PlaneOk p.cleared := inOrder_nil

theorem planeOk_tidy (p : Plane) : PlaneOk p.tidy :=
  inOrder_foldl_insThread inOrder_nil fun t kept => by simpa using (List.mem_filter.1 kept).2

theorem planeOk_setCell {p : Plane} {v : Byte} {c : BankCell} (h : PlaneOk p) : PlaneOk (setCell p v c) := by
  cases c with
  | reg => exact inOrder_updIf h fun _ => ⟨rfl, rfl, rfl⟩
  | _ => exact h

theorem planeOk_foldl {α : Type} {f : Plane → α → Plane} {l : List α} {p : Plane} (hf : ∀ p a, PlaneOk p → PlaneOk (f p a)) (h : PlaneOk p) :
    PlaneOk (l.foldl f p) := by
  induction l generalizing p with
  | nil => exact h
  | cons a l ih => exact ih (hf p a h)

theorem planeOk_readBanks {m : List (Nat × Byte)} {base : Nat} {p : Plane} (h : PlaneOk p) : PlaneOk (readBanks m base p) := by
  refine planeOk_foldl (fun p k h => planeOk_foldl (fun p o h => ?_) h) h
  dsimp only
  split
  · exact h
  · exact planeOk_setCell h

theorem planeOk_without {b : Standby} {c : Nat} {here : Bool} (h : PlaneOk b.plane) : PlaneOk (b.without c here).plane := by
  unfold Standby.without
  extract_lets incoming u
  have same : u.plane = b.plane := by
    dsimp only [u]
    exact (apply_ite Standby.plane ..).trans (ite_self _)
  split
  · exact planeOk_fresh
  · exact same ▸ h

theorem staysPut_swapThread (t : Thread) : StaysPut t (swapThread t) := by
  unfold swapThread
  split <;> exact ⟨rfl, rfl, rfl⟩

theorem planeOk_pl (h : ThreadsOk s) : PlaneOk s.pl := h.1

theorem planeOk_standby (h : ThreadsOk s) : PlaneOk s.standby.plane := h.2.1

theorem planeOk_slot {x : SaveSlot} (h : ThreadsOk s) (mem : x ∈ s.slots) : PlaneOk x.standby.plane := h.2.2.2.1 x mem

/-- The acting thread has ended, or is none. -/
theorem threadsOk_dead (h : ThreadsOk s) : ThreadsOk { s with th := {} } := by
  obtain ⟨pl, standby, -, slots, images⟩ := h
  exact ⟨pl, standby, nofun, slots, images⟩

theorem threadsOk_planes {p : Plane} {b : Standby} (hp : PlaneOk p) (hb : PlaneOk b.plane) (h : ThreadsOk s) :
    ThreadsOk { s with pl := p, standby := b } := by
  obtain ⟨-, -, th, slots, images⟩ := h
  exact ⟨hp, hb, th, slots, images⟩

theorem threadsOk_standby {b : Standby} (hb : PlaneOk b.plane) (h : ThreadsOk s) : ThreadsOk { s with standby := b } :=
  threadsOk_planes (planeOk_pl h) hb h

theorem threadsOk_slots {l : List SaveSlot} (hl : ∀ x ∈ l, PlaneOk x.standby.plane) (h : ThreadsOk s) : ThreadsOk { s with slots := l } := by
  obtain ⟨pl, standby, th, -, images⟩ := h
  exact ⟨pl, standby, th, hl, images⟩

theorem threadsOk_images {l : List CkptImage} (hl : ∀ x ∈ l, x ∈ s.images) (h : ThreadsOk s) : ThreadsOk { s with images := l } := by
  obtain ⟨pl, standby, th, slots, images⟩ := h
  exact ⟨pl, standby, th, slots, fun x mem => images x (hl x mem)⟩

end

end Sys2Proof.Laws
end

section
/-! PROOF. The threads of the planes, through commits, the ends of waits, threads and blocks, and the operations of one instruction (R26 to R30, R87,
R117 to R119, R149 to R152, R343 to R351). -/

namespace Sys2Proof.Laws

open Sys2Proof Sys2Proof.Machine

set_option Elab.async false

section

variable {s t : State}

/-! ## Updates of records -/

theorem threadsOk_updBlock {n : Nat} {f : Block → Block} (h : ThreadsOk s) : ThreadsOk (s.updBlock n f) := threadsOk_with h

theorem threadsOk_draw (h : ThreadsOk s) : ThreadsOk s.draw.2 := threadsOk_with h

/-! ## The banks of the active plane -/

theorem threadsOk_settleRegs (h : ThreadsOk s) : ThreadsOk (settleRegs s) := threadsOk_with h

theorem threadsOk_trimArena (h : ThreadsOk s) : ThreadsOk (trimArena s) := threadsOk_with h

theorem threadsOkIf_growArena {upto} (h : ThreadsOk s) : ThreadsOkIf (growArena upto s) := threadsOkIf_ite threadsOkIf_none (threadsOkIf_some h)

theorem threadsOk_freeTile {x} (h : ThreadsOk s) : ThreadsOk (freeTile x s) := threadsOk_with h

theorem threadsOk_addTile {k n} (h : ThreadsOk s) : ThreadsOk (addTile k n s) := threadsOk_with h

theorem threadsOk_sramWrite {key o bs} (h : ThreadsOk s) : ThreadsOk (sramWrite key o bs s) := threadsOk_with h

theorem threadsOk_sramDrop {k} (h : ThreadsOk s) : ThreadsOk (sramDrop k s) := threadsOk_with h

/-! ## At a home slice -/

theorem threadsOk_setIrq {v} (h : ThreadsOk s) : ThreadsOk (setIrq v s) := threadsOk_ite h h

theorem threadsOk_setLineRec {l r} (h : ThreadsOk s) : ThreadsOk (setLineRec l r s) := by
  unfold setLineRec
  extract_lets +onlyGivenNames _ _ _ _
  refine threadsOk_ite h ?_
  split <;> exact h

theorem threadsOk_treeAdd {n k} (h : ThreadsOk s) : ThreadsOk (treeAdd n k s) := threadsOk_with h

theorem threadsOk_treeSub {n k} (h : ThreadsOk s) : ThreadsOk (treeSub n k s) := threadsOk_with h

theorem threadsOk_ringWrite {c va bs} (h : ThreadsOk s) : ThreadsOk (ringWrite c va bs s) := by
  unfold ringWrite
  split <;> exact h

theorem threadsOk_spillTrigs {q c} (h : ThreadsOk s) : ThreadsOk (spillTrigs q c s) := by
  unfold spillTrigs
  split
  · exact h
  · exact threadsOk_ite (threadsOk_foldl (fun _ _ h1 => h1) h) (threadsOk_foldl (fun _ _ h1 => threadsOk_ringWrite h1) h)

theorem threadsOk_makeRoom {q c} (h : ThreadsOk s) : ThreadsOk (makeRoom q c s) := by
  unfold makeRoom
  extract_lets +onlyGivenNames _ w1 _
  have hw1 : ThreadsOk w1 := threadsOk_ite (threadsOk_spillTrigs h) h
  refine threadsOk_ite hw1 ?_
  extract_lets +onlyGivenNames _
  split
  · exact hw1
  · exact threadsOk_spillTrigs hw1

theorem threadsOk_trigEvent {k g depth wct} (h : ThreadsOk s) : ThreadsOk (trigEvent k g depth wct s).1 := by
  unfold trigEvent
  extract_lets +onlyGivenNames _ _
  refine threadsOk_iteFst h ?_
  extract_lets +onlyGivenNames _
  split
  · extract_lets +onlyGivenNames _ _ _
    split
    · exact threadsOk_ringWrite h
    · exact h
  · exact threadsOk_iteFst h (threadsOk_makeRoom h)

theorem threadsOk_wakeWaiters {changed} (h : ThreadsOk s) : ThreadsOk (wakeWaiters changed s) := by
  unfold wakeWaiters
  extract_lets _ _ _ _ _ wake _ v
  have stays : ∀ t, StaysPut t (wake t) := fun t => by
    dsimp only [wake]
    split <;> exact ⟨rfl, rfl, rfl⟩
  obtain ⟨pl, standby, th, slots, images⟩ : ThreadsOk v := threadsOk_updThreads stays (threadsOk_with h)
  exact ⟨pl, inOrder_updIf standby stays, th, slots, images⟩

theorem threadsOk_commit {ws depth f} (h : ThreadsOk s) : ThreadsOk (commit ws depth f s).1 := by
  unfold commit
  split
  · exact h
  · exact threadsOk_foldl_fst (fun _ _ h1 => threadsOk_trigEvent h1) (threadsOk_wakeWaiters (threadsOk_setLineRec h))

theorem threadsOk_grantLease {l len die} (h : ThreadsOk s) : ThreadsOk (grantLease l len die s).1 := threadsOk_setLineRec h

theorem threadsOk_giveNotice {n} (h : ThreadsOk s) : ThreadsOk (giveNotice s n) := by
  unfold giveNotice
  extract_lets +onlyGivenNames _ w1
  have hw1 : ThreadsOk w1 := by
    dsimp only [w1]
    split <;> exact h
  exact threadsOk_setIrq hw1

theorem threadsOk_settleNotices (h : ThreadsOk s) : ThreadsOk (settleNotices s) := threadsOk_foldl (fun _ _ h1 => threadsOk_giveNotice h1) h

theorem threadsOk_ctxError {c code detail} (h : ThreadsOk s) : ThreadsOk (ctxError c code detail s) := by
  unfold ctxError
  split
  · exact h
  · split
    next e1 =>
      have h1 := threadsOk_part (·.1) e1 <| by
        split
        · exact h
        · exact threadsOk_commit h
      exact threadsOk_with h1

theorem threadsOk_reportRefused {c rf} (h : ThreadsOk s) : ThreadsOk (reportRefused c rf s) :=
  threadsOk_foldl (fun _ _ h1 => threadsOk_ctxError h1) h

theorem threadsOk_commitQuiet {c ws depth f} (h : ThreadsOk s) : ThreadsOk (commitQuiet c ws depth f s).1 :=
  threadsOk_reportRefused (threadsOk_commit h)

theorem threadsOk_commitLines {c ws depth f} (h : ThreadsOk s) : ThreadsOk (commitLines c ws depth f s).1 :=
  threadsOk_foldl_fst (fun _ _ h1 => threadsOk_commitQuiet h1) h

/-! ## Register results -/

theorem staysPut_resume (t : Thread) : StaysPut t t.resume := ⟨rfl, rfl, rfl⟩

/-! ## How waits, threads, warps and blocks end -/

theorem threadsOk_wakeBar {blk n} (h : ThreadsOk s) : ThreadsOk (wakeBar blk n s) := by
  unfold wakeBar
  split
  · exact h
  · extract_lets +onlyGivenNames _ _ w2 _
    have hw2 : ThreadsOk w2 := by
      dsimp only [w2]
      refine threadsOk_foldl (fun _ _ h1 => ?_) h
      refine threadsOk_asThread (fun _ h2 => ?_) h1
      split <;> exact h2
    refine threadsOk_foldl (fun _ _ h1 => ?_) hw2
    refine threadsOk_asSeq (fun _ h2 => ?_) h1
    split <;> exact h2

theorem threadsOk_flipBar {blk n r} (h : ThreadsOk s) : ThreadsOk (flipBar blk n r s) := threadsOk_wakeBar h

theorem threadsOkIf_arriveBar {blk n st tid} (h : ThreadsOk s) : ThreadsOkIf (arriveBar blk n st tid s) := by
  unfold arriveBar
  split
  · exact threadsOkIf_none
  · exact threadsOkIf_ite threadsOkIf_none (threadsOkIf_some (threadsOk_ite (threadsOk_flipBar h) h))

theorem threadsOk_engineArrive {blk n st} (h : ThreadsOk s) : ThreadsOk (engineArrive blk n st s) := threadsOk_getD (threadsOkIf_arriveBar h) h

theorem threadsOk_leaveBar {blk tid n} (h : ThreadsOk s) : ThreadsOk (leaveBar blk tid n s) := by
  unfold leaveBar
  split
  · exact h
  · exact threadsOk_ite h (threadsOk_ite (threadsOk_flipBar h) h)

theorem threadsOk_wakeXrd {q} (h : ThreadsOk s) : ThreadsOk (wakeXrd q s) := by
  unfold wakeXrd
  refine threadsOk_asSeq (fun _ h1 => ?_) h
  split
  · exact threadsOk_ite h1 h1
  · exact h1

theorem threadsOk_settleCrossing {blk k} (h : ThreadsOk s) : ThreadsOk (settleCrossing blk k s) := by
  unfold settleCrossing
  split
  · exact h
  · split
    · exact h
    · extract_lets +onlyGivenNames _
      refine threadsOk_ite h ?_
      split
      next e1 =>
        have h1 := threadsOk_part (·.2) e1 (threadsOk_iteSnd (threadsOk_with h) h)
        extract_lets +onlyGivenNames _ _ _ _ _ _ w7
        have hw7 : ThreadsOk w7 := threadsOk_updThreads (fun _ => ⟨rfl, rfl, rfl⟩) (threadsOk_with (threadsOk_with h1))
        split
        · exact threadsOk_ite (threadsOk_wakeXrd hw7) hw7
        · exact hw7

theorem threadsOk_trapAt {slot lane trap} (h : ThreadsOk s) : ThreadsOk (trapAt slot lane trap s) :=
  threadsOk_updThreads (fun _ => ⟨rfl, rfl, rfl⟩) h

theorem threadsOk_failColl {c trap} (h : ThreadsOk s) : ThreadsOk (failColl c trap s) := threadsOk_foldl (fun _ _ h1 => threadsOk_trapAt h1) h

theorem threadsOk_completeColl {c} (h : ThreadsOk s) : ThreadsOk (completeColl c s) := by
  unfold completeColl
  split
  · exact threadsOk_failColl h
  · exact threadsOk_failColl h
  · exact threadsOk_foldl (fun _ _ h1 => threadsOk_asThread (fun _ h2 => threadsOk_ite h2 h2) h1) h

theorem threadsOk_settleColl {slot pc} (h : ThreadsOk s) : ThreadsOk (settleColl slot pc s) := by
  unfold settleColl
  split
  · exact h
  · exact threadsOk_ite h (threadsOk_ite h (threadsOk_ite (threadsOk_failColl h) (threadsOk_completeColl h)))

theorem threadsOk_reportDeferred {d} (h : ThreadsOk s) : ThreadsOk (reportDeferred d s) := by
  unfold reportDeferred
  split
  · exact threadsOk_ctxError h
  · exact h

theorem threadsOk_treeTime {n w} (h : ThreadsOk s) : ThreadsOk (treeTime n w s) := threadsOk_with h

theorem threadsOk_dropBlock {blk} (h : ThreadsOk s) : ThreadsOk (dropBlock blk s) := by
  unfold dropBlock
  extract_lets +onlyGivenNames w
  have hw : ThreadsOk w := threadsOk_foldl (fun _ _ h1 => h1) h
  split
  · exact hw
  · exact threadsOk_ite hw hw

theorem threadsOk_settleSeq {n} (h : ThreadsOk s) : ThreadsOk (settleSeq n s) := by
  unfold settleSeq
  split
  · exact h
  · extract_lets +onlyGivenNames _
    refine threadsOk_ite h ?_
    extract_lets +onlyGivenNames _ _ _ _ w5
    have hw5 : ThreadsOk w5 := by
      dsimp only [w5]
      split <;> exact h
    exact threadsOk_dropBlock hw5

theorem threadsOk_settleStop {n} (h : ThreadsOk s) : ThreadsOk (settleStop n s) := by
  unfold settleStop
  split
  · exact h
  · split
    · refine threadsOk_ite h ?_
      extract_lets +onlyGivenNames _ _ w2
      have hw2 : ThreadsOk w2 := by
        dsimp only [w2]
        split
        · exact threadsOk_ctxError h
        · exact h
      exact threadsOk_settleSeq hw2
    · exact threadsOk_settleSeq h

theorem threadsOk_endBlock {b} (h : ThreadsOk s) : ThreadsOk (endBlock b s) := by
  unfold endBlock
  split
  · exact h
  · extract_lets _ v
    have hv : ThreadsOk v := threadsOk_treeTime (threadsOk_treeSub (threadsOk_trimArena (threadsOk_updBlock h)))
    split
    · exact threadsOk_settleSeq (threadsOk_dropBlock hv)
    · exact threadsOk_dropBlock hv

theorem threadsOk_endWarp {slot} (h : ThreadsOk s) : ThreadsOk (endWarp slot s) := by
  unfold endWarp
  extract_lets +onlyGivenNames _ _ _ _ _
  split
  · exact h
  · exact threadsOk_ite h (threadsOk_endBlock h)

theorem threadsOk_leavesCore (h : ThreadsOk s) : ThreadsOk (leavesCore s) := by
  unfold leavesCore
  extract_lets u
  have hu : ThreadsOk u := threadsOk_with (threadsOk_dead h)
  exact threadsOk_ite hu (threadsOk_with hu)

theorem threadsOk_countsTime {x w} (h : ThreadsOk s) : ThreadsOk (countsTime x w s) := by
  unfold countsTime
  split <;> exact threadsOk_with h

theorem threadsOk_leavesBlock {x w} (h : ThreadsOk s) : ThreadsOk (leavesBlock x w s) := by
  unfold leavesBlock
  split
  · exact h
  · exact threadsOk_foldl (fun _ _ h => threadsOk_settleCrossing h) (threadsOk_foldl (fun _ _ h => threadsOk_leaveBar h) h)

theorem threadsOk_leavesColls {x} (h : ThreadsOk s) : ThreadsOk (leavesColls x s) := threadsOk_foldl (fun _ _ h => threadsOk_settleColl h) h

theorem threadsOk_endThread (h : ThreadsOk s) : ThreadsOk (endThread s) := by
  have after : ThreadsOk (afterThread s) := threadsOk_leavesColls (threadsOk_leavesBlock (threadsOk_countsTime (threadsOk_leavesCore h)))
  rw [endThread_eq]
  exact threadsOk_ite after (threadsOk_endWarp after)

theorem threadsOk_killThread {code detail} (h : ThreadsOk s) : ThreadsOk (killThread code detail s) := by
  unfold killThread
  extract_lets +onlyGivenNames _ w1
  have hw1 : ThreadsOk w1 := by
    dsimp only [w1]
    split
    · exact threadsOk_ctxError h
    · exact h
  exact threadsOk_endThread (threadsOk_reportDeferred hw1)

/-! ## The operations of one instruction -/

theorem threadsOk_handlerPc {hvec} (h : ThreadsOk s) : ThreadsOk (handlerPc hvec s).2 := threadsOk_iteSnd h h

theorem threadsOk_enterTrap {trap trpc deferred} (h : ThreadsOk s) : ThreadsOk (enterTrap trap trpc deferred s) := by
  unfold enterTrap
  extract_lets +onlyGivenNames w
  have hw : ThreadsOk w := threadsOk_updTh (staysPut_completeAll ..) h
  exact threadsOk_ite (threadsOk_killThread hw) (threadsOk_ite (threadsOk_killThread hw) (threadsOk_with (threadsOk_handlerPc hw)))

theorem threadsOk_raiseAt {trap trpc deferred} (h : ThreadsOk s) : ThreadsOk (raiseAt trap trpc deferred s) :=
  threadsOk_ite (threadsOk_enterTrap h) h

theorem threadsOk_raise {trap} (h : ThreadsOk s) : ThreadsOk (raise trap s) := threadsOk_raiseAt h

theorem threadsOk_leaveHandler (h : ThreadsOk s) : ThreadsOk (leaveHandler s) := threadsOk_updTh ⟨rfl, rfl, rfl⟩ h

theorem threadsOk_capture {i} (h : ThreadsOk s) : ThreadsOk (capture i s) := threadsOk_ite h h

theorem threadsOk_captureHeld {i} (h : ThreadsOk s) : ThreadsOk (captureHeld i s) := threadsOk_ite h h

theorem threadsOk_captureAs {i tag} (h : ThreadsOk s) : ThreadsOk (captureAs i tag s) := threadsOk_ite h h

theorem threadsOk_goto {i pc} (h : ThreadsOk s) : ThreadsOk (goto i pc s) := threadsOk_with (threadsOk_capture h)

theorem threadsOk_finish {i} (h : ThreadsOk s) : ThreadsOk (finish i s) := threadsOk_goto h

theorem threadsOk_hold {i pk} (h : ThreadsOk s) : ThreadsOk (hold i pk s) := threadsOk_with (threadsOk_captureHeld h)

theorem threadsOk_goOrAcquire {i acq tag} (h : ThreadsOk s) : ThreadsOk (goOrAcquire i acq tag s) :=
  threadsOk_ite (threadsOk_captureAs h) (threadsOk_captureAs h)

theorem threadsOk_result {i o ws lo hi} (h : ThreadsOk s) : ThreadsOk (result i o ws lo hi s) := threadsOk_finish h

theorem threadsOk_simtStep {i body} (hbody : ∀ x s, ThreadsOk s → ThreadsOk (body x s)) (h : ThreadsOk s) : ThreadsOk (simtStep i body s) := by
  unfold simtStep
  split
  · exact threadsOk_raise h
  · exact hbody _ _ h

theorem threadsOk_simtQuiet {i bad body} (hbad : ∀ s, ThreadsOk s → ThreadsOk (bad s)) (hbody : ∀ x s, ThreadsOk s → ThreadsOk (body x s))
    (h : ThreadsOk s) : ThreadsOk (simtQuiet i bad body s) := by
  unfold simtQuiet
  split
  · exact threadsOk_ite (hbad _ h) (threadsOk_raise h)
  · exact hbody _ _ h

theorem threadsOk_simtFloat {i body} (hbody : ∀ x s, ThreadsOk s → ThreadsOk (body x s)) (h : ThreadsOk s) : ThreadsOk (simtFloat i body s) :=
  threadsOk_simtQuiet (fun _ h1 => hbody _ _ h1) (fun _ _ h1 => hbody _ _ h1) h

theorem threadsOk_stopStreamAt {at_ cause} (h : ThreadsOk s) : ThreadsOk (stopStreamAt at_ cause s) := by
  unfold stopStreamAt
  split
  · exact h
  · exact threadsOk_settleStop h

theorem threadsOk_stopStream {cause} (h : ThreadsOk s) : ThreadsOk (stopStream cause s) := threadsOk_stopStreamAt h

theorem threadsOk_finishS {i} (h : ThreadsOk s) : ThreadsOk (finishS i s) := threadsOk_with h

theorem threadsOk_streamStep {i body} (hbody : ∀ x s, ThreadsOk s → ThreadsOk (body x s)) (h : ThreadsOk s) : ThreadsOk (streamStep i body s) :=
  threadsOk_ite (hbody _ _ h) (threadsOk_stopStream h)

theorem threadsOk_afterDeferred {k} (hk : ∀ s, ThreadsOk s → ThreadsOk (k s)) (h : ThreadsOk s) : ThreadsOk (afterDeferred k s) := by
  unfold afterDeferred
  split
  · exact threadsOk_ite (hk _ h) (threadsOk_ite (threadsOk_enterTrap h) h)
  · exact hk _ h

end

end Sys2Proof.Laws
end

section
/-! PROOF. The threads of the planes, through translation, the L1, and what instructions and homes do with memory (R94 to R98, R148, R209 to R249,
R358 to R362, R371 to R376). -/

namespace Sys2Proof.Laws

open Sys2Proof Sys2Proof.Machine

set_option Elab.async false

section

variable {s t : State}

/-! ## Address translation -/

theorem threadsOk_translate {c va acc} (h : ThreadsOk s) : ThreadsOk (Machine.translate c va acc s).2 := by
  unfold Machine.translate
  split
  · exact h
  · split
    · exact h
    · split <;> exact h

theorem threadsOk_translateCl {c va acc} (h : ThreadsOk s) : ThreadsOk (translateCl c va acc s).2 := by
  unfold translateCl
  split
  · exact h
  · split <;> exact h

theorem threadsOk_wantWalk {c va acc} (h : ThreadsOk s) : ThreadsOk (wantWalk c va acc s) := threadsOk_ite h h

theorem threadsOk_engMiss {m c va acc} (h : ThreadsOk s) : ThreadsOk (engMiss m c va acc s) := by
  unfold engMiss
  split
  · next e1 =>
      have h1 := threadsOk_part (·.2) e1 (threadsOk_iteSnd (threadsOk_translate h) (threadsOk_translateCl h))
      exact h1
  · next e1 =>
      have h1 := threadsOk_part (·.2) e1 (threadsOk_iteSnd (threadsOk_translate h) (threadsOk_translateCl h))
      exact threadsOk_wantWalk h1

theorem threadsOk_leafTaken {c va lvl e} (h : ThreadsOk s) : ThreadsOk (leafTaken c va lvl e s).2 := threadsOk_iteSnd h h

theorem threadsOk_dropTranslations {c lo hi} (h : ThreadsOk s) : ThreadsOk (dropTranslations c lo hi s) := by
  unfold dropTranslations
  extract_lets _ _ _ forget v
  have stays : ∀ t, StaysPut t (forget t) := fun t => by
    dsimp only [forget]
    split <;> exact ⟨rfl, rfl, rfl⟩
  have hv : ThreadsOk v := threadsOk_ite (threadsOk_updThreads stays h) h
  exact threadsOk_with hv

theorem threadsOk_pageFound {c page} (h : ThreadsOk s) : ThreadsOk (pageFound c page s).2 := by
  unfold pageFound
  split
  · exact h
  · split
    · exact h
    · split <;> exact h

theorem threadsOk_findPages {c l} (h : ThreadsOk s) : ThreadsOk (findPages c l s).2 := by
  induction l generalizing s with
  | nil => exact h
  | cons p t ih =>
    unfold findPages
    refine threadsOk_iteSnd (ih h) ?_
    split
    · next e => exact ih (threadsOk_updTh ⟨rfl, rfl, rfl⟩ (threadsOk_part (·.2) e (threadsOk_pageFound h)))
    · next e => exact threadsOk_part (·.2) e (threadsOk_pageFound h)

theorem threadsOk_withPages {pages k} (hk : ∀ x s, ThreadsOk s → ThreadsOk (k x s)) (h : ThreadsOk s) : ThreadsOk (withPages pages k s) := by
  unfold withPages
  split
  · next e1 =>
      have h1 := threadsOk_part (·.2) e1 (threadsOk_findPages h)
      exact hk _ _ h1
  · next e1 =>
      have h1 := threadsOk_part (·.2) e1 (threadsOk_findPages h)
      exact threadsOk_with (threadsOk_wantWalk h1)

theorem threadsOk_withHome {va acc k} (hk : ∀ x s, ThreadsOk s → ThreadsOk (k x s)) (h : ThreadsOk s) : ThreadsOk (withHome va acc k s) := by
  unfold withHome
  split
  · next e1 =>
      have h1 := threadsOk_part (·.2) e1 (threadsOk_translate h)
      exact hk _ _ h1
  · next e1 =>
      have h1 := threadsOk_part (·.2) e1 (threadsOk_translate h)
      exact threadsOk_with (threadsOk_wantWalk h1)

theorem threadsOk_withHomeS {va acc k} (hk : ∀ x s, ThreadsOk s → ThreadsOk (k x s)) (h : ThreadsOk s) : ThreadsOk (withHomeS va acc k s) := by
  unfold withHomeS
  split
  · next e1 =>
      have h1 := threadsOk_part (·.2) e1 (threadsOk_translateCl h)
      exact hk _ _ h1
  · next e1 =>
      have h1 := threadsOk_part (·.2) e1 (threadsOk_translateCl h)
      exact threadsOk_wantWalk h1

/-! ## The core's L1 -/

theorem threadsOk_netDrop {id} (h : ThreadsOk s) : ThreadsOk (netDrop id s) := threadsOk_with h

theorem threadsOk_l1Put {l} (h : ThreadsOk s) : ThreadsOk (l1Put l s) := threadsOk_with h

theorem threadsOk_l1Invalidate {line sec} (h : ThreadsOk s) : ThreadsOk (l1Invalidate line sec s) := by
  unfold l1Invalidate
  split <;> exact h

theorem threadsOk_l1Lose {line sec} (h : ThreadsOk s) : ThreadsOk (l1Lose line sec s) := threadsOk_l1Invalidate h

theorem threadsOk_l1Forget {home} (h : ThreadsOk s) : ThreadsOk (l1Forget home s) := threadsOk_ite h (threadsOk_l1Lose h)

theorem threadsOk_l1Renew {home} (h : ThreadsOk s) : ThreadsOk (l1Renew home s) := threadsOk_ite h (threadsOk_l1Invalidate h)

theorem threadsOk_writeBack {line w} (h : ThreadsOk s) : ThreadsOk (writeBack line w s).2 := by
  unfold writeBack
  split
  · exact h
  · exact threadsOk_iteSnd h (threadsOk_ite (threadsOk_ite h h) (threadsOk_ite h h))

theorem threadsOk_writeBackAll {p w} (h : ThreadsOk s) : ThreadsOk (writeBackAll p w s).2 :=
  threadsOk_foldl_snd (fun _ _ h1 => threadsOk_writeBack h1) h

theorem threadsOk_evict {line} (h : ThreadsOk s) : ThreadsOk (evict line s).2 := threadsOk_with (threadsOk_writeBack h)

theorem threadsOk_l1Ensure {line} (h : ThreadsOk s) : ThreadsOk (l1Ensure line s).2 := by
  unfold l1Ensure
  split
  next e1 =>
    have h1 := threadsOk_part (·.2) e1 (threadsOk_with h)
    split
    · exact h1
    · extract_lets +onlyGivenNames _ _
      split
      · exact h1
      · split
        · exact threadsOk_evict h1
        · exact h1

theorem threadsOk_l1Write {home bs scope depth uid bundle keep} (h : ThreadsOk s) : ThreadsOk (l1Write home bs scope depth uid bundle keep s) := by
  unfold l1Write
  split
  · exact h
  · exact threadsOk_with (threadsOk_l1Ensure h)

theorem threadsOk_l1Touch {line} (h : ThreadsOk s) : ThreadsOk (l1Touch line s) := by
  unfold l1Touch
  split <;> exact h

theorem threadsOk_l1Install {line sec bs exp vt keep} (h : ThreadsOk s) : ThreadsOk (l1Install line sec bs exp vt keep s) :=
  threadsOk_with (threadsOk_l1Ensure h)

theorem threadsOk_l1Stamp {ws wct} (h : ThreadsOk s) : ThreadsOk (l1Stamp ws wct s) := by
  unfold l1Stamp
  split
  · exact h
  · split <;> exact h

theorem threadsOk_l1Take {ws} (h : ThreadsOk s) : ThreadsOk (l1Take ws s) := by
  unfold l1Take
  split
  · exact h
  · split <;> exact h

/-! ## Memory accesses at issue -/

theorem threadsOk_releaseStep {uid seq scope mask own} (h : ThreadsOk s) : ThreadsOk (releaseStep uid seq scope mask own s).2 :=
  threadsOk_iteSnd (threadsOk_writeBackAll h) h

theorem threadsOk_askFill {w hint} (h : ThreadsOk s) : ThreadsOk (askFill w hint s) := by
  unfold askFill
  extract_lets +onlyGivenNames _ _ _
  split <;> exact h

theorem threadsOk_requestFill {va home size signed o ord} (h : ThreadsOk s) : ThreadsOk (requestFill va home size signed o ord s).2 :=
  threadsOk_askFill h

theorem threadsOk_loadFrom {i o addr size signed ord home} (h : ThreadsOk s) : ThreadsOk (loadFrom i o addr size signed ord home s) := by
  unfold loadFrom
  extract_lets +onlyGivenNames _
  split
  · exact h
  · exact threadsOk_raise h
  · exact threadsOk_finish (threadsOk_with (threadsOk_l1Touch h))
  · extract_lets +onlyGivenNames w1
    have hw1 : ThreadsOk w1 := threadsOk_ite (threadsOk_writeBack h) h
    exact threadsOk_ite (threadsOk_hold (threadsOk_requestFill (threadsOk_l1Renew hw1)))
      (threadsOk_finish (threadsOk_requestFill (threadsOk_l1Renew hw1)))

theorem threadsOk_readRecord {va n bad k} (hbad : ∀ s, ThreadsOk s → ThreadsOk (bad s)) (hk : ∀ bs s, ThreadsOk s → ThreadsOk (k bs s))
    (h : ThreadsOk s) : ThreadsOk (readRecord va n bad k s) := by
  unfold readRecord
  extract_lets +onlyGivenNames give ask
  have gives : ∀ bs s, ThreadsOk s → ThreadsOk (give bs s) := fun bs s h => by
    cases bs with
    | none => exact hbad s h
    | some bs => exact hk bs s h
  have asks : ThreadsOk (ask s) := threadsOk_updTh ⟨rfl, rfl, rfl⟩ (threadsOk_askFill (threadsOk_l1Renew (threadsOk_with h)))
  split
  · exact threadsOk_ite (gives _ _ (threadsOk_updTh ⟨rfl, rfl, rfl⟩ h)) asks
  · split
    · exact threadsOk_updTh ⟨rfl, rfl, rfl⟩ h
    · exact hbad s h
    · exact hk _ _ (threadsOk_updTh ⟨rfl, rfl, rfl⟩ (threadsOk_l1Touch h))
    · exact asks

theorem threadsOk_loadG {i imm size signed o} (h : ThreadsOk s) : ThreadsOk (loadG i imm size signed o s) := by
  unfold loadG
  extract_lets +onlyGivenNames _
  split
  · exact threadsOk_raise h
  · exact threadsOk_withHome (fun _ _ h1 => threadsOk_loadFrom h1) h

theorem threadsOk_sendStore {uid seq tree depth bundle hint ctx ws} (h : ThreadsOk s) :
    ThreadsOk (sendStore uid seq tree depth bundle hint ctx ws s) := by
  unfold sendStore
  split
  · exact h
  · extract_lets +onlyGivenNames _ _ _ w3
    have hw3 : ThreadsOk w3 := threadsOk_ite (threadsOk_l1Lose h) h
    split
    · exact hw3
    · exact threadsOk_ite hw3 (threadsOk_writeBack hw3)

theorem threadsOk_putStore {q} (h : ThreadsOk s) : ThreadsOk (putStore q s) := by
  unfold putStore
  split
  · exact h
  · exact threadsOk_ite (threadsOk_l1Write h) (threadsOk_sendStore h)

theorem threadsOk_storeG {i imm size o} (h : ThreadsOk s) : ThreadsOk (storeG i imm size o s) := by
  unfold storeG
  extract_lets +onlyGivenNames _ _
  split
  · exact threadsOk_raise h
  · exact threadsOk_withHome (fun _ _ h1 => threadsOk_finish (threadsOk_ite h1 (threadsOk_putStore h1))) h

theorem threadsOk_loadGS {i imm size signed o} (h : ThreadsOk s) : ThreadsOk (loadGS i imm size signed o s) := by
  unfold loadGS
  extract_lets +onlyGivenNames _
  refine threadsOk_ite (threadsOk_stopStream h) ?_
  exact threadsOk_ite (threadsOk_stopStream h) (threadsOk_withHomeS (fun _ _ h1 => threadsOk_ite (threadsOk_stopStream h1) h1) h)

theorem threadsOk_storeGS {i imm size o} (h : ThreadsOk s) : ThreadsOk (storeGS i imm size o s) :=
  threadsOk_ite (threadsOk_stopStream h) (threadsOk_ite (threadsOk_stopStream h) (threadsOk_withHomeS (fun _ _ h1 => h1) h))

theorem threadsOk_scratchAccess {off size k} (hk : ∀ x y s, ThreadsOk s → ThreadsOk (k x y s)) (h : ThreadsOk s) :
    ThreadsOk (scratchAccess off size k s) := by
  unfold scratchAccess
  split
  · exact threadsOk_raise h
  · refine threadsOk_ite h ?_
    split
    · exact h
    · exact hk _ _ _ h

theorem threadsOk_loadS {i imm size o} (h : ThreadsOk s) : ThreadsOk (loadS i imm size o s) := by
  unfold loadS
  refine threadsOk_scratchAccess (fun _ _ _ h1 => ?_) h
  split
  · exact h1
  · exact threadsOk_finish h1

theorem threadsOk_storeS {i imm size o} (h : ThreadsOk s) : ThreadsOk (storeS i imm size o s) :=
  threadsOk_scratchAccess (fun _ _ _ h1 => threadsOk_finish (threadsOk_ite h1 h1)) h

theorem threadsOk_sendAtomic {st depth bundle ctx} (h : ThreadsOk s) : ThreadsOk (sendAtomic st depth bundle ctx s) := by
  unfold sendAtomic
  extract_lets +onlyGivenNames _ _ w2
  have hw2 : ThreadsOk w2 := threadsOk_ite h (threadsOk_l1Lose (threadsOk_writeBack h))
  split <;> exact hw2

theorem threadsOk_atomicG {i f o} (h : ThreadsOk s) : ThreadsOk (atomicG i f o s) := by
  unfold atomicG
  extract_lets +onlyGivenNames _ _
  split
  · exact threadsOk_raise h
  · exact threadsOk_withHome (fun _ _ h1 => threadsOk_ite (threadsOk_raise h1) (threadsOk_goOrAcquire (threadsOk_ite h1 (threadsOk_sendAtomic h1)))) h

theorem threadsOk_scratchAmo {key off f b expect} (h : ThreadsOk s) : ThreadsOk (scratchAmo key off f b expect s).2 := by
  unfold scratchAmo
  extract_lets +onlyGivenNames _
  split <;> exact h

theorem threadsOk_atomicS {i f o} (h : ThreadsOk s) : ThreadsOk (atomicS i f o s) := by
  unfold atomicS
  exact threadsOk_scratchAccess (fun _ _ _ h1 => threadsOk_ite (threadsOk_goOrAcquire h1)
    (threadsOk_finish (threadsOk_with (threadsOk_scratchAmo h1)))) h

theorem threadsOk_performQueued {q} (h : ThreadsOk s) : ThreadsOk (performQueued q s) := by
  unfold performQueued
  split
  · split <;> exact h
  · exact threadsOk_updThreads (fun _ => staysPut_served (⟨rfl, rfl, rfl⟩)) (threadsOk_scratchAmo h)
  · exact threadsOk_sendAtomic h
  · exact threadsOk_putStore h

theorem threadsOk_wakeStores {who} (h : ThreadsOk s) : ThreadsOk (wakeStores who s) := threadsOk_updThreads (fun _ => ⟨rfl, rfl, rfl⟩) h

theorem threadsOk_stepQueued {q} (h : ThreadsOk s) : ThreadsOk (stepQueued q s) := by
  unfold stepQueued
  extract_lets +onlyGivenNames _
  split
  next e1 =>
    have h1 := threadsOk_part (·.2) e1 <| by
      refine threadsOk_foldl_snd (fun _ _ h1 => ?_) h
      split
      · exact h1
      · split
        next e2 =>
          have h2 := threadsOk_part (·.2) e2 (threadsOk_releaseStep h1)
          exact h2
    exact threadsOk_ite h1 (threadsOk_wakeStores (threadsOk_foldl (fun _ _ h2 => threadsOk_performQueued h2) (threadsOk_ite (threadsOk_with h1) h1)))

/-! ## Numbered barriers and crossing reductions -/

theorem threadsOk_barOp {n k} (hk : ∀ x s, ThreadsOk s → ThreadsOk (k x s)) (h : ThreadsOk s) : ThreadsOk (barOp n k s) := by
  unfold barOp
  split
  · exact threadsOk_raise h
  · exact hk _ _ h

theorem threadsOk_nbInitOp {i n} (h : ThreadsOk s) : ThreadsOk (nbInitOp i n s) := by
  unfold nbInitOp
  refine threadsOk_barOp (fun _ _ h1 => ?_) h
  extract_lets +onlyGivenNames _
  split
  · exact threadsOk_raise h1
  · exact threadsOk_finish h1

theorem threadsOk_nbArriveOp {i n meet o} (h : ThreadsOk s) : ThreadsOk (nbArriveOp i n meet o s) :=
  threadsOk_afterDeferred (fun _ h1 => threadsOk_barOp (fun _ _ h2 => threadsOk_hold h2) h1) h

theorem threadsOk_applyArrive {n dst meet} (h : ThreadsOk s) : ThreadsOk (applyArrive n dst meet s) := by
  unfold applyArrive
  extract_lets trap
  split
  · exact h
  · extract_lets token u
    have hu : ThreadsOk u := threadsOk_with h
    split
    · exact threadsOk_trapAt h
    · next e =>
      have h1 := (threadsOkIf_arriveBar hu).found e
      exact threadsOk_ite h1 (threadsOk_with h1)

theorem threadsOk_nbWaitOp {i n o} (h : ThreadsOk s) : ThreadsOk (nbWaitOp i n o s) :=
  threadsOk_afterDeferred (fun _ h1 => threadsOk_barOp (fun _ _ h2 => threadsOk_ite (threadsOk_result h2) (threadsOk_hold h2)) h1) h

theorem threadsOk_nbTestOp {i n o} (h : ThreadsOk s) : ThreadsOk (nbTestOp i n o s) := threadsOk_barOp (fun _ _ h1 => threadsOk_result h1) h

theorem threadsOk_nbStatOp {i n e o} (h : ThreadsOk s) : ThreadsOk (nbStatOp i n e o s) := threadsOk_barOp (fun _ _ h1 => threadsOk_result h1) h

theorem threadsOk_xredOp1 {i op k o} (h : ThreadsOk s) : ThreadsOk (xredOp1 i op k o s) := by
  unfold xredOp1
  extract_lets +onlyGivenNames _
  split
  · exact threadsOk_raise h
  · exact threadsOk_ite (threadsOk_raise h) (threadsOk_hold h)

theorem threadsOk_applyXred {op k v mask} (h : ThreadsOk s) : ThreadsOk (applyXred op k v mask s) := by
  unfold applyXred
  split
  · exact h
  · exact threadsOk_ite (threadsOk_foldl (fun _ _ h1 => threadsOk_trapAt h1) h) (threadsOk_settleCrossing h)

/-! ## Fences, completion, ranges and futures -/

theorem threadsOk_rangeOp {i o k} (hk : ∀ x y s, ThreadsOk s → ThreadsOk (k x y s)) (h : ThreadsOk s) : ThreadsOk (rangeOp i o k s) :=
  threadsOk_ite (threadsOk_finish h) (threadsOk_ite (threadsOk_raise h) (threadsOk_ite (threadsOk_raise h) (hk _ _ _ h)))

theorem threadsOk_afterOwn {k} (hk : ∀ s, ThreadsOk s → ThreadsOk (k s)) (h : ThreadsOk s) : ThreadsOk (afterOwn k s) := threadsOk_ite (hk _ h) h

theorem threadsOk_flushRange {i o} (h : ThreadsOk s) : ThreadsOk (flushRange i o s) := by
  unfold flushRange
  refine threadsOk_rangeOp (fun _ _ _ h1 => ?_) h
  exact threadsOk_afterOwn (fun _ h2 => threadsOk_withPages (fun _ _ h3 => threadsOk_hold (threadsOk_writeBackAll h3)) h2) h1

theorem threadsOk_icinvRange {i o} (h : ThreadsOk s) : ThreadsOk (icinvRange i o s) := by
  unfold icinvRange
  refine threadsOk_rangeOp (fun _ _ _ h1 => ?_) h
  exact threadsOk_afterOwn (fun _ h2 => threadsOk_withPages (fun _ _ h3 => threadsOk_hold (threadsOk_writeBackAll h3)) h2) h1

theorem threadsOk_settleWct (h : ThreadsOk s) : ThreadsOk (settleWct s) := by
  unfold settleWct
  split
  · exact threadsOk_ite h h
  · exact h

theorem threadsOk_wctOp {i o} (h : ThreadsOk s) : ThreadsOk (wctOp i o s) := threadsOk_settleWct (threadsOk_hold h)

theorem threadsOk_fwaitOp {i o} (h : ThreadsOk s) : ThreadsOk (fwaitOp i o s) := by
  unfold fwaitOp
  extract_lets +onlyGivenNames _
  split
  · exact threadsOk_raise h
  · refine threadsOk_withHome (fun _ _ h1 => ?_) h
    exact threadsOk_ite h1 (threadsOk_ite (threadsOk_raise h1) (threadsOk_hold (threadsOk_ite h1 (threadsOk_writeBack h1))))

theorem threadsOk_prefOp {i o} (h : ThreadsOk s) : ThreadsOk (prefOp i o s) := by
  unfold prefOp
  extract_lets +onlyGivenNames _ _
  refine threadsOk_ite (threadsOk_finish h) ?_
  refine threadsOk_ite (threadsOk_finish h) ?_
  split
  · next e1 =>
      have h1 := threadsOk_part (·.2) e1 (threadsOk_translate h)
      exact threadsOk_with (threadsOk_wantWalk h1)
  · next e1 =>
      have h1 := threadsOk_part (·.2) e1 (threadsOk_translate h)
      exact threadsOk_ite (threadsOk_finish h1) (threadsOk_finish h1)

/-! ## Control transfer -/

theorem threadsOk_jumpTo {i v} (h : ThreadsOk s) : ThreadsOk (jumpTo i v s) := by
  unfold jumpTo
  split
  · exact threadsOk_raise h
  · exact threadsOk_goto h

theorem threadsOk_jumpToS {i v} (h : ThreadsOk s) : ThreadsOk (jumpToS i v s) := by
  unfold jumpToS
  split
  · exact threadsOk_stopStream h
  · exact h

theorem threadsOk_callTo {i target} (h : ThreadsOk s) : ThreadsOk (callTo i target s) := by
  unfold callTo
  split
  · exact threadsOk_raise h
  · exact threadsOk_withHome (fun _ _ h1 => threadsOk_ite h1 (threadsOk_goto (threadsOk_putStore h1))) h

theorem threadsOk_callToS {i target} (h : ThreadsOk s) : ThreadsOk (callToS i target s) := by
  unfold callToS
  split
  · exact threadsOk_stopStream h
  · exact threadsOk_ite (threadsOk_stopStream h) h

theorem threadsOk_finishRet {v} (h : ThreadsOk s) : ThreadsOk (finishRet v s) := by
  unfold finishRet
  split
  · exact threadsOk_raise h
  · exact h

theorem threadsOk_retOp {i} (h : ThreadsOk s) : ThreadsOk (retOp i s) := by
  unfold retOp
  extract_lets +onlyGivenNames _
  split
  · exact threadsOk_raise h
  · refine threadsOk_withHome (fun _ _ h1 => ?_) h
    split
    · exact h1
    · exact threadsOk_raise h1
    · exact threadsOk_finishRet (threadsOk_hold (threadsOk_with (threadsOk_l1Touch h1)))
    · exact threadsOk_hold (threadsOk_askFill (threadsOk_l1Renew h1))

theorem threadsOk_retOpS {i} (h : ThreadsOk s) : ThreadsOk (retOpS i s) := by
  unfold retOpS
  split
  · exact threadsOk_stopStream h
  · exact h

theorem threadsOk_exitOp (h : ThreadsOk s) : ThreadsOk (exitOp s) :=
  threadsOk_afterDeferred (fun _ h1 => threadsOk_endThread (threadsOk_reportDeferred h1)) h

theorem threadsOk_yieldOp {i} (h : ThreadsOk s) : ThreadsOk (yieldOp i s) := threadsOk_updTh ⟨rfl, rfl, rfl⟩ (threadsOk_hold h)

theorem threadsOk_rettOp {i} (h : ThreadsOk s) : ThreadsOk (rettOp i s) := by
  unfold rettOp
  refine threadsOk_ite (threadsOk_raise h) ?_
  split
  · exact threadsOk_raise h
  · exact threadsOk_leaveHandler (threadsOk_goto h)

/-! ## Events of either plane -/

theorem threadsOk_atThread {who f} (hf : ∀ s, ThreadsOk s → ThreadsOk (f s)) (h : ThreadsOk s) : ThreadsOk (State.atThread s who f) := by
  unfold State.atThread
  split
  · exact threadsOk_ite (threadsOk_asThread (fun _ h1 => hf _ h1) h) (threadsOk_inOther (fun _ h1 => threadsOk_asThread (fun _ h2 => hf _ h2) h1) h)
  · exact h

theorem threadsOk_atMsg {id f} (hf : ∀ s, ThreadsOk s → ThreadsOk (f s)) (h : ThreadsOk s) : ThreadsOk (State.atMsg s id f) :=
  threadsOk_ite (hf _ h) (threadsOk_ite (threadsOk_inOther (fun _ h1 => hf _ h1) h) h)

theorem threadsOk_nackMcasts (h : ThreadsOk s) : ThreadsOk (nackMcasts s) := threadsOk_ite h h

theorem threadsOk_freeze {m c pa} (h : ThreadsOk s) : ThreadsOk (freeze m c pa s) := threadsOk_ite h (threadsOk_ite (threadsOk_nackMcasts h) h)

theorem threadsOk_drift {pa n} (h : ThreadsOk s) : ThreadsOk (drift pa n s) := threadsOk_ite (threadsOk_foldl (fun _ _ h1 => h1) h) h

theorem threadsOk_gate {m c pa n k} (hk : ∀ s, ThreadsOk s → ThreadsOk (k s)) (h : ThreadsOk s) : ThreadsOk (gate m c pa n k s) := by
  unfold gate
  refine threadsOk_ite h ?_
  exact threadsOk_ite (threadsOk_ite h (threadsOk_ite (threadsOk_freeze h) (hk _ (threadsOk_drift h)))) (threadsOk_ite (hk _ h) (threadsOk_freeze h))

theorem threadsOk_hostFlit {k} (hk : ∀ s, ThreadsOk s → ThreadsOk (k s)) (h : ThreadsOk s) : ThreadsOk (hostFlit k s) := threadsOk_ite (hk _ h) h

theorem threadsOk_portGate {m pa n rq k} (hk : ∀ s, ThreadsOk s → ThreadsOk (k s)) (h : ThreadsOk s) : ThreadsOk (portGate m pa n rq k s) :=
  threadsOk_ite h (threadsOk_ite (hk _ h) (threadsOk_freeze h))

/-! ## The memory side -/

theorem threadsOk_linkLost {c m} (h : ThreadsOk s) : ThreadsOk (linkLost c m s) := by
  unfold linkLost
  split
  · exact threadsOk_ite h (threadsOk_ctxError h)
  · exact threadsOk_ctxError h

theorem threadsOk_ownTime {uid n wct} (h : ThreadsOk s) : ThreadsOk (ownTime uid n wct s) := threadsOk_updThreads (fun _ => ⟨rfl, rfl, rfl⟩) h

theorem threadsOk_wakeWct (h : ThreadsOk s) : ThreadsOk (wakeWct s) :=
  threadsOk_foldl (fun _ _ h1 => threadsOk_asThread (fun _ h2 => threadsOk_settleWct h2) h1) h

theorem threadsOk_refuseOne {c p r} (h : ThreadsOk s) : ThreadsOk (refuseOne c p r s) :=
  threadsOk_ite (threadsOk_updThreads (fun _ => ⟨rfl, rfl, rfl⟩) h) (threadsOk_ctxError h)

theorem threadsOk_refuseAll {c who rf} (h : ThreadsOk s) : ThreadsOk (refuseAll c who rf s) :=
  threadsOk_foldl (fun _ _ h1 => threadsOk_refuseOne h1) h

theorem threadsOk_joinVt {l vt} (h : ThreadsOk s) : ThreadsOk (joinVt l vt s) := by
  unfold joinVt
  refine threadsOk_foldl (fun _ _ h1 => ?_) h
  split
  · exact h1
  · exact threadsOk_ite (threadsOk_updThreads (fun _ => ⟨rfl, rfl, rfl⟩) h1) h1

theorem threadsOk_deliver {w bs vt bad} (h : ThreadsOk s) : ThreadsOk (deliver w bs vt bad s) := by
  unfold deliver
  split
  · exact threadsOk_asSeq (fun _ h1 => threadsOk_ite h1 (threadsOk_ite (threadsOk_ite (threadsOk_stopStreamAt h1) (threadsOk_settleSeq h1)) h1)) h
  · refine threadsOk_asThread (fun _ h1 => ?_) h
    refine threadsOk_ite h1 ?_
    refine threadsOk_ite ?_ ?_
    · exact threadsOk_ite (threadsOk_raise h1) (threadsOk_finishRet h1)
    · exact threadsOk_ite h1 (threadsOk_ite h1 (threadsOk_updTh (staysPut_served (⟨rfl, rfl, rfl⟩)) h1))

theorem threadsOk_fillAnswer {f} (h : ThreadsOk s) : ThreadsOk (fillAnswer f s).2 := by
  unfold fillAnswer
  exact threadsOk_iteSnd h (threadsOk_iteSnd (threadsOk_joinVt h) (threadsOk_iteSnd (threadsOk_joinVt (threadsOk_grantLease h)) (threadsOk_joinVt h)))

theorem threadsOk_serveFills {id f} (h : ThreadsOk s) : ThreadsOk (serveFills id f s) := by
  unfold serveFills
  extract_lets +onlyGivenNames _ _
  refine threadsOk_foldl (fun _ _ h1 => ?_) h
  split
  · exact threadsOk_with (threadsOk_fillAnswer h1)
  · exact h1

theorem threadsOk_fillRequestStep {id} (h : ThreadsOk s) : ThreadsOk (fillRequestStep id s) := by
  unfold fillRequestStep
  split
  · split
    · exact threadsOk_ite (threadsOk_gate (fun _ h1 => threadsOk_serveFills h1) h) h
    · exact h
  · exact h

theorem threadsOk_fillReplyStep {id} (h : ThreadsOk s) : ThreadsOk (fillReplyStep id s) := by
  unfold fillReplyStep
  split
  · split
    · split
      · refine threadsOk_ite h ?_
        exact threadsOk_foldl (fun _ _ h1 => threadsOk_deliver h1)
          (threadsOk_ite (threadsOk_l1Install h) (threadsOk_ite (threadsOk_l1Invalidate h) h))
      · exact h
    · exact h
  · exact h

theorem threadsOk_maybeRemote {ws} (h : ThreadsOk s) : ThreadsOk (maybeRemote ws s) := threadsOk_ite h h

theorem threadsOk_commitMsg {w} (h : ThreadsOk s) : ThreadsOk (commitMsg w s).2 := by
  unfold commitMsg
  split
  · exact h
  · exact threadsOk_iteSnd h (threadsOk_with (threadsOk_commit h))

theorem threadsOk_writeCommitStep {id} (h : ThreadsOk s) : ThreadsOk (writeCommitStep id s) := by
  unfold writeCommitStep
  split
  · split
    · exact threadsOk_ite h (threadsOk_gate (fun _ h1 => threadsOk_with (threadsOk_commitMsg h1)) h)
    · exact h
  · exact h

theorem threadsOk_engineTime {u op wct} (h : ThreadsOk s) : ThreadsOk (engineTime u op wct s) := threadsOk_ite h h

theorem threadsOk_joinTrees {w} (h : ThreadsOk s) : ThreadsOk (joinTrees w s) := threadsOk_with h

theorem threadsOk_acknowledged {id w wct rf} (h : ThreadsOk s) : ThreadsOk (acknowledged id w wct rf s) := by
  unfold acknowledged
  split
  · extract_lets +onlyGivenNames u
    have hu : ThreadsOk u := threadsOk_foldl (fun _ _ h => threadsOk_treeTime (threadsOk_ownTime h)) h
    exact threadsOk_wakeWct (threadsOk_refuseAll (threadsOk_l1Stamp (threadsOk_ite (threadsOk_l1Take hu) hu)))
  · exact threadsOk_wakeWct <| threadsOk_refuseAll <| threadsOk_foldl (fun _ _ h => threadsOk_ownTime h) <| threadsOk_l1Stamp <|
      threadsOk_joinTrees <| threadsOk_with h
  · extract_lets +onlyGivenNames u
    have hu : ThreadsOk u := threadsOk_with h
    exact threadsOk_reportRefused (threadsOk_with hu)
  · exact threadsOk_wakeWct <| threadsOk_reportRefused <| threadsOk_foldl (fun _ _ h => threadsOk_ownTime h) <| threadsOk_l1Stamp <|
      threadsOk_with h
  · exact threadsOk_reportRefused (threadsOk_engineTime h)
  · exact threadsOk_reportRefused h

theorem threadsOk_writeAckStep {id} (h : ThreadsOk s) : ThreadsOk (writeAckStep id s) := by
  unfold writeAckStep
  split
  · refine threadsOk_ite h ?_
    split
    · split
      · exact threadsOk_acknowledged (threadsOk_netDrop h)
      · exact h
    · split
      · exact threadsOk_wakeWct <| threadsOk_refuseAll <| threadsOk_foldl (fun _ _ h => threadsOk_treeTime (threadsOk_ownTime h)) <|
          threadsOk_netDrop h
      · exact h
    · exact h
  · exact h

theorem threadsOk_amoArrive {x old vt bad} (h : ThreadsOk s) : ThreadsOk (amoArrive x old vt bad s) :=
  threadsOk_asThread (fun _ h1 => threadsOk_ite h1 (threadsOk_ite h1 (threadsOk_updTh (staysPut_served (⟨rfl, rfl, rfl⟩)) h1))) h

theorem threadsOk_serveAtomic {a} (h : ThreadsOk s) : ThreadsOk (serveAtomic a s).2 := by
  unfold serveAtomic
  extract_lets +onlyGivenNames _ _
  split
  next e1 =>
    have h1 := threadsOk_part (·.2) e1 <| by
      split
      · refine threadsOk_iteSnd ?_ ?_
        · split
          next e1 =>
            have h1 := threadsOk_part (·.2) e1 (threadsOk_with h)
            exact h1
        · exact h
      · exact h
    split
    next e2 =>
      have h2 := threadsOk_part (·.1) e2 <| by
        split
        · exact h1
        · refine threadsOk_iteFst ?_ ?_
          · split
            next e2 =>
              have h2 := threadsOk_part (·.2.2) e2 (threadsOk_with h1)
              exact h2
          · exact threadsOk_commit h1
      exact threadsOk_foldl (fun _ _ h3 => threadsOk_amoArrive h3) (threadsOk_foldl (fun _ _ h3 => threadsOk_amoArrive h3) h2)

theorem threadsOk_atomicStep1 {id} (h : ThreadsOk s) : ThreadsOk (atomicStep1 id s) := by
  unfold atomicStep1
  split
  · split
    · exact threadsOk_ite h (threadsOk_gate (fun _ h1 => threadsOk_with (threadsOk_serveAtomic h1)) h)
    · exact h
  · exact h

theorem threadsOk_leaveTaken {l} (h : ThreadsOk s) : ThreadsOk (leaveTaken l s) := threadsOk_with h

theorem threadsOk_mcastReply {x} (h : ThreadsOk s) : ThreadsOk (mcastReply x s) := by
  unfold mcastReply
  extract_lets +onlyGivenNames line base reply
  have answered : ∀ s, ThreadsOk s → ThreadsOk (reply s) := by
    intro s h
    dsimp only [reply]
    have leased := threadsOk_grantLease (l := line) (len := x.lease) (die := s.did) h
    exact threadsOk_foldl (fun _ _ h => threadsOk_deliver h) <| threadsOk_leaveTaken <|
      threadsOk_ite (threadsOk_ite leased (threadsOk_l1Install leased)) (threadsOk_l1Install (threadsOk_ite leased (threadsOk_l1Install leased)))
  exact threadsOk_ite (answered _ h) (threadsOk_inOther answered h)

theorem threadsOk_closeWindow {i} (h : ThreadsOk s) : ThreadsOk (closeWindow i s) := by
  unfold closeWindow
  split
  · exact h
  · exact threadsOk_ite h (threadsOk_foldl (fun _ _ h1 => threadsOk_mcastReply h1) h)

theorem threadsOk_settleWindow {i} (h : ThreadsOk s) : ThreadsOk (settleWindow i s) := by
  unfold settleWindow
  split
  · exact h
  · exact threadsOk_ite (threadsOk_closeWindow h) h

theorem threadsOk_serveMcast {id x} (h : ThreadsOk s) : ThreadsOk (serveMcast id x s) := by
  unfold serveMcast
  extract_lets +onlyGivenNames _ _ _ _
  split
  · split
    · exact threadsOk_settleWindow h
    · exact h
  · split
    · split
      · exact threadsOk_mcastReply h
      · exact h
    · exact threadsOk_ite (threadsOk_settleWindow h) (threadsOk_mcastReply h)

theorem threadsOk_mcastStep {id} (h : ThreadsOk s) : ThreadsOk (mcastStep id s) := by
  unfold mcastStep
  split
  · split
    · exact threadsOk_ite (threadsOk_gate (fun _ h1 => threadsOk_serveMcast h1) h) h
    · exact h
  · exact h

theorem threadsOk_fwaitStep (h : ThreadsOk s) : ThreadsOk (fwaitStep s) := by
  unfold fwaitStep
  split
  · extract_lets +onlyGivenNames u
    have hu : ThreadsOk u := threadsOk_ite h (threadsOk_writeBack h)
    refine threadsOk_ite hu (threadsOk_ite hu (threadsOk_ite (threadsOk_raise (threadsOk_linkLost hu)) (threadsOk_gate (fun v hv => ?_) hu)))
    refine threadsOk_ite (threadsOk_raise hv) ?_
    extract_lets +onlyGivenNames w
    split
    next room vt x e =>
    have hx : ThreadsOk x := threadsOk_part (·.2.2) e (by split <;> exact threadsOk_with hv)
    extract_lets +onlyGivenNames y
    have hy : ThreadsOk y := threadsOk_updTh ⟨rfl, rfl, rfl⟩ hx
    exact threadsOk_ite (threadsOk_with (threadsOk_l1Forget hy)) (threadsOk_updTh ⟨rfl, rfl, rfl⟩ (threadsOk_ite hy (threadsOk_with hy)))
  · exact h

end

end Sys2Proof.Laws
end

section
/-! PROOF. The threads of the planes, through faults, the pool, the work queue, exile, and the start of blocks and warps, whose threads are living and
in lanes 0 to 31 (R131 to R136, R153 to R168, R188 to R204, R377 to R379). -/

namespace Sys2Proof.Laws

open Sys2Proof Sys2Proof.Machine

set_option Elab.async false

section

variable {s t : State}

/-! ## Page walks, faults and stored errors -/

theorem threadsOk_wakeWalk {c page acc} (h : ThreadsOk s) : ThreadsOk (wakeWalk c page acc s) :=
  threadsOk_ite (threadsOk_updThreads (fun _ => ⟨rfl, rfl, rfl⟩) h) h

theorem threadsOk_failPrefs {c page acc} (h : ThreadsOk s) : ThreadsOk (failPrefs c page acc s) :=
  threadsOk_ite (threadsOk_updThreads (fun _ => ⟨rfl, rfl, rfl⟩) h) h

theorem threadsOk_notePages {c page acc found} (h : ThreadsOk s) : ThreadsOk (notePages c page acc found s) :=
  threadsOk_ite (threadsOk_updThreads (fun _ => ⟨rfl, rfl, rfl⟩) h) h

theorem threadsOk_faultWalk {c page acc} (h : ThreadsOk s) : ThreadsOk (faultWalk c page acc s) :=
  threadsOk_ite (threadsOk_updThreads (fun _ => ⟨rfl, rfl, rfl⟩) h) h

theorem threadsOkIf_addFault {c page acc kind lvl e src} (h : ThreadsOk s) : ThreadsOkIf (addFault c page acc kind lvl e src s) :=
  threadsOkIf_ite (threadsOkIf_some h) (threadsOkIf_ite threadsOkIf_none (threadsOkIf_some h))

theorem threadsOk_walkOutcome {c page acc engs} (h : ThreadsOk s) : ThreadsOk (walkOutcome c page acc engs s).2 := by
  unfold walkOutcome
  refine threadsOk_iteSnd h ?_
  split
  · exact threadsOk_notePages (threadsOk_wakeWalk (threadsOk_with (threadsOk_leafTaken h)))
  · extract_lets +onlyGivenNames _ _ w2
    have hw2 : ThreadsOk w2 := threadsOk_failPrefs (threadsOk_notePages h)
    refine threadsOk_iteSnd hw2 ?_
    split
    · next e1 =>
        have h1 := ThreadsOkIf.found (threadsOkIf_addFault hw2) e1
        exact threadsOk_faultWalk h1
    · exact hw2

theorem threadsOk_walkEnd {i} (h : ThreadsOk s) : ThreadsOk (walkEnd i s) := by
  unfold walkEnd
  split
  · exact h
  · refine threadsOk_ite h ?_
    split
    · exact threadsOk_freeze h
    · split
      next e1 =>
        have h1 := threadsOk_part (·.2) e1 <| by
          refine threadsOk_foldl_snd (fun _ _ h1 => ?_) h
          split
          next e2 =>
            have h2 := threadsOk_part (·.2) e2 (threadsOk_walkOutcome h1)
            exact h2
        exact h1

theorem threadsOk_grantWalk (h : ThreadsOk s) : ThreadsOk (grantWalk s) := by
  unfold grantWalk
  split
  · exact threadsOk_ite h h
  · exact h

theorem threadsOk_writeFault {i} (h : ThreadsOk s) : ThreadsOk (writeFault i s) := by
  unfold writeFault
  split
  · exact h
  · split
    · refine threadsOk_ite h ?_
      refine threadsOk_ite (threadsOk_freeze h) ?_
      refine threadsOk_ite (threadsOk_freeze h) ?_
      split
      next e1 =>
        have h1 := threadsOk_part (·.1) e1 (threadsOk_commitQuiet h)
        extract_lets +onlyGivenNames _
        split
        next e2 =>
          have h2 := threadsOk_part (·.1) e2 (threadsOk_commitQuiet h1)
          exact threadsOk_with (threadsOk_with h2)
    · exact h

theorem threadsOk_answerEngines {f r} (h : ThreadsOk s) : ThreadsOk (answerEngines f r s) := by
  unfold answerEngines
  extract_lets +onlyGivenNames here mineE mineC endE endC saved
  refine threadsOk_with (threadsOk_slots (l := updIf (·.ctx == f.ctx) (fun x => { x with standby := saved x.standby }) s.slots) ?_ h)
  simp only [updIf, List.mem_map, forall_exists_index, and_imp, forall_apply_eq_imp_iff₂]
  intro x mem
  have slot := planeOk_slot h mem
  split <;> exact slot

theorem threadsOk_replayWaiters {f} (h : ThreadsOk s) : ThreadsOk (replayWaiters f s) :=
  threadsOk_ite (threadsOk_updThreads (fun _ => ⟨rfl, rfl, rfl⟩) (threadsOk_dropTranslations h)) (threadsOk_dropTranslations h)

theorem threadsOk_trapWaiters {f perm} (h : ThreadsOk s) : ThreadsOk (trapWaiters f perm s) := by
  unfold trapWaiters
  extract_lets +onlyGivenNames _ w1
  have hw1 : ThreadsOk w1 := by
    dsimp only [w1]
    refine threadsOk_ite ?_ ?_
    · refine threadsOk_foldl (fun _ _ h1 => ?_) h
      split
      · exact threadsOk_trapAt h1
      · exact h1
    · exact h
  exact threadsOk_foldl (fun _ _ h1 => threadsOk_asSeq (fun _ h2 => threadsOk_stopStream h2) h1) hw1

theorem threadsOk_answerFault {i} (h : ThreadsOk s) : ThreadsOk (answerFault i s) := by
  unfold answerFault
  split
  · exact h
  · extract_lets +onlyGivenNames _
    refine threadsOk_ite h ?_
    refine threadsOk_ite (threadsOk_freeze h) ?_
    exact threadsOk_ite h (threadsOk_ite (threadsOk_replayWaiters (threadsOk_answerEngines h)) (threadsOk_trapWaiters (threadsOk_answerEngines h)))

theorem threadsOk_rereadRidx {c} (h : ThreadsOk s) : ThreadsOk (rereadRidx c s) := by
  unfold rereadRidx
  split
  · exact h
  · exact threadsOk_ite h (threadsOk_ite (threadsOk_freeze h) h)

theorem threadsOk_rasLog {site lasting} (h : ThreadsOk s) : ThreadsOk (rasLog site lasting s) := threadsOk_setIrq h

theorem threadsOk_poisonSector {pa} (h : ThreadsOk s) : ThreadsOk (poisonSector pa s) := threadsOk_with h

theorem threadsOk_eccLasting {site} (h : ThreadsOk s) : ThreadsOk (eccLasting site s) := by
  unfold eccLasting
  split
  · exact threadsOk_poisonSector h
  · split
    · exact h
    · exact threadsOk_ite (threadsOk_l1Put h) (threadsOk_l1Invalidate h)
  · exact threadsOk_updThreads (fun _ => ⟨rfl, rfl, rfl⟩) h
  · exact threadsOk_sramWrite (threadsOk_draw h)
  · exact threadsOk_with (threadsOk_draw h)

theorem threadsOk_eccTransient {site} (h : ThreadsOk s) : ThreadsOk (eccTransient site s) := by
  unfold eccTransient
  split
  · split
    · exact threadsOk_ite h (threadsOk_l1Invalidate h)
    · exact h
  · exact h

/-! ## The pool -/

theorem threadsOk_reqDone {slot code} (h : ThreadsOk s) : ThreadsOk (reqDone slot code s) := threadsOk_with h

theorem threadsOk_reqAnswered {slot code} (h : ThreadsOk s) : ThreadsOk (reqAnswered slot code s) := threadsOk_ite h h

theorem threadsOk_reqOpen {slot} (h : ThreadsOk s) : ThreadsOk (reqOpen slot s) := threadsOk_with h

theorem threadsOk_writeBackBanks {ks} (h : ThreadsOk s) : ThreadsOk (writeBackBanks ks s).2 :=
  threadsOk_foldl_snd (fun _ _ h1 => threadsOk_evict h1) h

theorem threadsOk_grantRegs {slot n} (h : ThreadsOk s) : ThreadsOk (grantRegs slot n s) := by
  unfold grantRegs
  extract_lets +onlyGivenNames _
  split
  · exact h
  · exact threadsOk_updThreads (fun _ => ⟨rfl, rfl, rfl⟩) h

theorem threadsOk_wakeGrow {slot code} (h : ThreadsOk s) : ThreadsOk (wakeGrow slot code s) := by
  refine threadsOk_reqDone (threadsOk_updThreads (fun t => ?_) h)
  split <;> exact ⟨rfl, rfl, rfl⟩

theorem threadsOk_giveBanks {ks u} (h : ThreadsOk s) : ThreadsOk (giveBanks ks u s) := by
  cases u with
  | toFree => exact threadsOk_with h
  | toTile n =>
    unfold giveBanks
    extract_lets +onlyGivenNames ks' _ v
    have hv : ThreadsOk v := threadsOk_with h
    dsimp only
    split
    · exact threadsOk_ite hv (threadsOk_foldl (fun _ _ h => threadsOk_addTile h) hv)
    · exact hv
  | toRegs slot n pages =>
    unfold giveBanks
    extract_lets +onlyGivenNames ks' _ v
    have hv : ThreadsOk v := threadsOk_with h
    dsimp only
    split
    · exact threadsOk_ite (threadsOk_settleRegs (threadsOk_wakeGrow (threadsOk_grantRegs hv))) (threadsOk_settleRegs hv)
    · exact threadsOk_settleRegs (threadsOk_grantRegs hv)

theorem threadsOk_answerReq {w code} (h : ThreadsOk s) : ThreadsOk (answerReq w code s) := by
  unfold answerReq
  split <;> exact h

theorem threadsOk_beginShake {shake} (h : ThreadsOk s) : ThreadsOk (beginShake shake s) := by
  unfold beginShake
  split
  · exact threadsOk_ite (threadsOk_answerReq (threadsOk_giveBanks (threadsOk_writeBackBanks h))) (threadsOk_with (threadsOk_writeBackBanks h))
  · split
    · exact threadsOk_answerReq h
    · exact h

theorem threadsOk_nextShakes {n} (h : ThreadsOk s) : ThreadsOk (nextShakes n s) := by
  induction n generalizing s with
  | zero => exact h
  | succ n ih =>
    unfold nextShakes
    split
    · exact threadsOk_ite h (ih (threadsOk_beginShake (threadsOk_with h)))
    · exact h

theorem threadsOk_settleShakes (h : ThreadsOk s) : ThreadsOk (settleShakes s) := threadsOk_ite h (threadsOk_nextShakes h)

theorem threadsOk_askShake {shake} (h : ThreadsOk s) : ThreadsOk (askShake shake s) := threadsOk_nextShakes h

theorem threadsOk_changeBanks {ks u w} (h : ThreadsOk s) : ThreadsOk (changeBanks ks u w s).2 :=
  threadsOk_iteSnd (threadsOk_giveBanks h) (threadsOk_iteSnd h (threadsOk_askShake h))

theorem threadsOk_growNow {slot n} (h : ThreadsOk s) : ThreadsOk (growNow slot n s).2 := by
  unfold growNow
  refine threadsOk_iteSnd h ?_
  refine threadsOk_iteSnd (threadsOk_grantRegs h) ?_
  extract_lets +onlyGivenNames _
  split
  · exact h
  · exact threadsOk_changeBanks h

theorem threadsOk_noteReq {slot} {r : Nat × State} (h : ThreadsOk r.2) : ThreadsOk (noteReq slot r) :=
  threadsOk_ite (threadsOk_reqOpen h) (threadsOk_reqDone h)

theorem threadsOk_poolDone {i o code} (h : ThreadsOk s) : ThreadsOk (poolDone i o code s) := threadsOk_with (threadsOk_result h)

theorem threadsOk_poolHold {i o pk} (h : ThreadsOk s) : ThreadsOk (poolHold i o pk s) := by
  unfold poolHold
  split
  next e1 =>
    have h1 := threadsOk_part (·.2) e1 (threadsOk_with h)
    exact threadsOk_with (threadsOk_with (threadsOk_captureAs h1))

theorem threadsOk_wgrowOp {i o} (h : ThreadsOk s) : ThreadsOk (wgrowOp i o s) := by
  unfold wgrowOp
  extract_lets +onlyGivenNames v n slot
  refine threadsOk_ite (threadsOk_poolDone (threadsOk_reqAnswered h)) (threadsOk_ite (threadsOk_poolDone (threadsOk_reqAnswered h))
    (threadsOk_ite ?_ (threadsOk_ite (threadsOk_poolDone h) (threadsOk_poolDone (threadsOk_noteReq (threadsOk_growNow h))))))
  exact threadsOk_poolHold (threadsOk_reqOpen (threadsOk_with h))

theorem threadsOk_breakDeadlock {n} (h : ThreadsOk s) : ThreadsOk (breakDeadlock n s) := by
  induction n generalizing s with
  | zero => exact h
  | succ n ih =>
    unfold breakDeadlock
    split
    · exact h
    · split
      · exact threadsOk_wakeGrow (threadsOk_grantRegs h)
      · exact ih (threadsOk_wakeGrow h)

theorem threadsOkIf_serveGrow (h : ThreadsOk s) : ThreadsOkIf (serveGrow s) := by
  unfold serveGrow
  split
  · exact threadsOkIf_none
  · refine threadsOkIf_ite (threadsOkIf_some (threadsOk_wakeGrow (threadsOk_grantRegs h))) ?_
    extract_lets +onlyGivenNames _ _
    refine threadsOkIf_ite (threadsOkIf_ite (threadsOkIf_some (threadsOk_changeBanks h)) (threadsOkIf_some (threadsOk_changeBanks h))) ?_
    exact threadsOkIf_ite (threadsOkIf_some (threadsOk_breakDeadlock h)) threadsOkIf_none

theorem threadsOk_shrinkTo {slot n} (h : ThreadsOk s) : ThreadsOk (shrinkTo slot n s) :=
  threadsOk_ite h (threadsOk_updThreads (fun _ => ⟨rfl, rfl, rfl⟩) h)

theorem threadsOk_wshrinkOp {i o} (h : ThreadsOk s) : ThreadsOk (wshrinkOp i o s) := by
  unfold wshrinkOp
  extract_lets +onlyGivenNames _ _
  refine threadsOk_ite (threadsOk_poolDone (threadsOk_reqAnswered h)) ?_
  refine threadsOk_ite (threadsOk_poolDone (threadsOk_reqAnswered h)) ?_
  exact threadsOk_ite (threadsOk_poolDone (threadsOk_reqAnswered h))
    (threadsOk_ite (threadsOk_poolHold h) (threadsOk_poolDone (threadsOk_shrinkTo h)))

theorem threadsOk_growExact {blk k tile slot} (h : ThreadsOk s) : ThreadsOk (growExact blk k tile slot s).2 := by
  unfold growExact
  extract_lets +onlyGivenNames _
  refine threadsOk_iteSnd h ?_
  refine threadsOk_iteSnd h ?_
  split
  · exact threadsOk_ite (threadsOk_giveBanks h) h
  · exact threadsOk_iteSnd h (threadsOk_iteSnd h (threadsOk_changeBanks h))
  · exact h

theorem threadsOk_shrinkScratch {n reloc slot} (h : ThreadsOk s) : ThreadsOk (shrinkScratch n reloc slot s).2 := by
  unfold shrinkScratch
  refine threadsOk_iteSnd ?_ ?_
  · exact threadsOk_iteSnd h h
  · split
    · exact h
    · exact h
    · exact threadsOk_iteSnd h (threadsOk_askShake h)

theorem threadsOk_poolEffect {blk v slot} (h : ThreadsOk s) : ThreadsOk (poolEffect blk v slot s).2 := by
  unfold poolEffect
  extract_lets +onlyGivenNames _ _ _
  refine threadsOk_iteSnd ?_ ?_
  · refine threadsOk_iteSnd (threadsOk_growExact h) ?_
    refine threadsOk_iteSnd ?_ ?_
    · exact threadsOk_iteSnd h h
    · split
      · exact h
      · exact threadsOk_changeBanks h
  · refine threadsOk_iteSnd ?_ ?_
    · exact threadsOk_iteSnd h (threadsOk_changeBanks h)
    · exact threadsOk_iteSnd (threadsOk_iteSnd h (threadsOk_foldl (fun _ _ h1 => h1) h)) (threadsOk_shrinkScratch h)

theorem threadsOk_poolReqOp {i o} (h : ThreadsOk s) : ThreadsOk (poolReqOp i o s) := by
  unfold poolReqOp
  extract_lets +onlyGivenNames v slot
  split
  · exact threadsOk_result (threadsOk_reqAnswered h)
  · exact threadsOk_ite (threadsOk_result (threadsOk_reqAnswered h)) (threadsOk_ite (threadsOk_result h)
      (threadsOk_result (threadsOk_noteReq (threadsOk_poolEffect h))))

theorem threadsOk_releaseScratch {b slot} (h : ThreadsOk s) : ThreadsOk (releaseScratch b slot s) :=
  threadsOk_reqDone (threadsOk_trimArena (threadsOk_sramDrop (threadsOk_updBlock h)))

theorem threadsOk_poolRelOp {i o} (h : ThreadsOk s) : ThreadsOk (poolRelOp i o s) := by
  unfold poolRelOp
  extract_lets v slot
  split
  · exact threadsOk_poolDone (threadsOk_reqAnswered h)
  · refine threadsOk_ite (threadsOk_poolDone (threadsOk_reqAnswered h)) (threadsOk_ite (threadsOk_poolDone h) (threadsOk_ite ?_ ?_))
    · exact threadsOk_ite (threadsOk_poolDone (threadsOk_reqDone h)) (threadsOk_poolDone (threadsOk_reqDone
        (threadsOk_foldl (fun _ _ h => threadsOk_freeTile (threadsOk_sramDrop h)) h)))
    · exact threadsOk_ite (threadsOk_poolHold (threadsOk_reqOpen h)) (threadsOk_poolDone (threadsOk_releaseScratch h))

theorem threadsOk_poolMapOp {i o} (h : ThreadsOk s) : ThreadsOk (poolMapOp i o s) := threadsOk_result h

theorem threadsOk_occValue {a} (h : ThreadsOk s) : ThreadsOk (occValue a s).2 := by
  unfold occValue
  generalize s.thBlock = b
  extract_lets _ of
  refine threadsOk_iteSnd h (threadsOk_iteSnd h ?_)
  split
  case h_6 =>
    cases b with
    | none => exact h
    | some b => exact threadsOk_iteSnd (threadsOk_draw h) h
  all_goals exact h

theorem threadsOk_poolOccOp {i o} (h : ThreadsOk s) : ThreadsOk (poolOccOp i o s) := threadsOk_finish (threadsOk_with (threadsOk_occValue h))

theorem threadsOk_tstateOp {i o} (h : ThreadsOk s) : ThreadsOk (tstateOp i o s) := threadsOk_result h

theorem threadsOk_tmarkOp {i o} (h : ThreadsOk s) : ThreadsOk (tmarkOp i o s) := by
  unfold tmarkOp
  split
  · exact threadsOk_result h
  · exact threadsOk_ite (threadsOk_result h) (threadsOk_ite (threadsOk_result h) (threadsOk_result h))

theorem threadsOk_poolPoisoned {i lat parks} (h : ThreadsOk s) : ThreadsOk (poolPoisoned i lat parks s) :=
  threadsOk_ite (threadsOk_result h) (threadsOk_result h)

/-! ## What the cluster's engines share -/

theorem threadsOk_inCtx {c f} (hf : ∀ s, ThreadsOk s → ThreadsOk (f s)) (h : ThreadsOk s) : ThreadsOk (State.inCtx s c f) :=
  threadsOk_ite (hf _ h) (threadsOk_ite (threadsOk_inOther (fun _ h1 => hf _ h1) h) h)

theorem threadsOk_arriveEngine {block payload st} (h : ThreadsOk s) : ThreadsOk (arriveEngine block payload st s) := by
  unfold arriveEngine
  split
  · exact threadsOk_engineArrive h
  · exact h

theorem threadsOk_acquireWriteBack {payload uid} (h : ThreadsOk s) : ThreadsOk (acquireWriteBack payload uid s).2 :=
  threadsOk_iteSnd (threadsOk_writeBackAll h) h

theorem threadsOk_forgetMiss {m c va a} (h : ThreadsOk s) : ThreadsOk (forgetMiss m c va a s) := threadsOk_with h

theorem threadsOk_engFault {m c va acc} (h : ThreadsOk s) : ThreadsOk (engFault m c va acc s).2 := by
  unfold engFault
  extract_lets +onlyGivenNames w
  have hw : ThreadsOk w := threadsOk_with h
  split
  · exact hw
  · split
    · next e1 =>
        have h1 := ThreadsOkIf.found (threadsOkIf_addFault hw) e1
        exact h1
    · exact hw

theorem threadsOk_engWrite {u op c depth ws} (h : ThreadsOk s) : ThreadsOk (engWrite u op c depth ws s) := threadsOk_foldl (fun _ _ h1 => h1) h

theorem threadsOk_commandDone {res} (h : ThreadsOk s) : ThreadsOk (commandDone res s) := threadsOk_setIrq h

/-! ## The work queue -/

theorem threadsOk_setSeg {q l} (h : ThreadsOk s) : ThreadsOk (setSeg q l s) := threadsOk_with h

theorem threadsOk_setRing {r} (h : ThreadsOk s) : ThreadsOk (setRing r s) := threadsOk_with h

theorem threadsOk_drawBytes {n} (h : ThreadsOk s) : ThreadsOk (drawBytes n s).2 := by
  induction n generalizing s with
  | zero => exact h
  | succ n ih => exact ih (threadsOk_with h)

theorem threadsOk_spillBlock {r es} (h : ThreadsOk s) : ThreadsOk (spillBlock r es s) := by
  unfold spillBlock
  split
  · exact h
  · exact threadsOk_ringWrite (threadsOk_drawBytes h)

theorem threadsOkIf_segPush {q e} (h : ThreadsOk s) : ThreadsOkIf (segPush q e s) :=
  threadsOkIf_ite (threadsOkIf_some (threadsOk_setSeg h))
    (threadsOkIf_ite threadsOkIf_none (threadsOkIf_some (threadsOk_setRing (threadsOk_spillBlock (threadsOk_setSeg h)))))

theorem threadsOkIf_segTakeAll {l} (h : ThreadsOk s) : ThreadsOkIf (segTakeAll l s) := by
  induction l generalizing s with
  | nil => exact threadsOkIf_some h
  | cons e t ih =>
    unfold segTakeAll
    extract_lets home rest
    split
    · exact threadsOkIf_bind (fun _ h => ih h) (threadsOkIf_segPush h)
    · exact threadsOkIf_bind (fun _ h => ih h) (threadsOkIf_findSome fun _ => threadsOkIf_segPush h)

theorem threadsOkIf_dieTake {es} (h : ThreadsOk s) : ThreadsOkIf (dieTake es s) := threadsOkIf_ite (threadsOkIf_some h) (threadsOkIf_segTakeAll h)

theorem threadsOkIf_clusterTake {es} (h : ThreadsOk s) : ThreadsOkIf (clusterTake es s) :=
  threadsOkIf_ite (threadsOkIf_some h) (threadsOkIf_dieTake h)

theorem threadsOk_homeTake {es} (h : ThreadsOk s) : ThreadsOk (homeTake es s).2 := by
  unfold homeTake
  refine threadsOk_foldl_snd (fun _ _ h1 => ?_) h
  split
  · next e2 =>
      have h2 := ThreadsOkIf.found (threadsOkIf_segPush h1) e2
      exact h2
  · exact h1

theorem threadsOk_coreOverflow (h : ThreadsOk s) : ThreadsOk (coreOverflow s) :=
  threadsOk_getD (threadsOkIf_clusterTake (threadsOk_with (threadsOk_homeTake h))) (threadsOk_with (threadsOk_homeTake h))

theorem threadsOkIf_corePlace (h : ThreadsOk s) : ThreadsOkIf (corePlace s) :=
  threadsOkIf_ite (threadsOkIf_some (threadsOk_ite h (threadsOk_coreOverflow h))) threadsOkIf_none

theorem threadsOkIf_corePush {e} (h : ThreadsOk s) : ThreadsOkIf (corePush e s) := threadsOkIf_map (fun _ h1 => h1) (threadsOkIf_corePlace h)

theorem threadsOkIf_placeRecord {entry} (h : ThreadsOk s) : ThreadsOkIf (placeRecord entry s) :=
  threadsOkIf_ite threadsOkIf_none (threadsOkIf_map (fun _ h1 => h1) (threadsOkIf_corePush h))

/-! ## Exile, continuation records and enqueue -/

theorem threadsOk_exileAt {i v stay} (hstay : ∀ s, ThreadsOk s → ThreadsOk (stay s)) (h : ThreadsOk s) : ThreadsOk (exileAt i v stay s) := by
  unfold exileAt
  split
  · exact threadsOk_raise h
  · refine threadsOk_ite ?_ ?_
    · split
      · next e1 =>
          have h1 := ThreadsOkIf.found (threadsOkIf_ite (threadsOkIf_corePlace h) threadsOkIf_none) e1
          exact threadsOk_with (threadsOk_captureHeld h1)
      · exact hstay _ h
    · split
      · next e1 =>
          have h1 := ThreadsOkIf.found (threadsOkIf_placeRecord (threadsOk_updTh (staysPut_completeAll ..) h)) e1
          exact threadsOk_endThread h1
      · exact hstay _ h

theorem threadsOk_settleExiles (h : ThreadsOk s) : ThreadsOk (settleExiles s) := by
  refine threadsOk_foldl (fun _ _ h => threadsOk_asThread (fun s h => ?_) h) h
  split
  · have done : ThreadsOk (s.updTh fun t => { t.completeAll with park := .none }) :=
      threadsOk_updTh ((staysPut_completeAll s.th).trans ⟨rfl, rfl, rfl⟩) h
    split
    · next found => exact threadsOk_endThread ((threadsOkIf_placeRecord done).found found)
    · exact h
  · exact h

theorem threadsOk_brxOp {i o16 cond o} (h : ThreadsOk s) : ThreadsOk (brxOp i o16 cond o s) := by
  unfold brxOp
  extract_lets +onlyGivenNames _ _ _ _ _ _ w6
  have hw6 : ∀ s, ThreadsOk s → ThreadsOk (w6 s) := fun _ h1 => threadsOk_ite (threadsOk_jumpTo h1) (threadsOk_finish h1)
  exact threadsOk_ite (threadsOk_exileAt (fun _ h1 => hw6 _ h1) h) (hw6 _ h)

theorem threadsOk_contOp {i o} (h : ThreadsOk s) : ThreadsOk (contOp i o s) := by
  unfold contOp
  refine threadsOk_ite h ?_
  extract_lets +onlyGivenNames _
  split
  · exact threadsOk_raise h
  · extract_lets +onlyGivenNames w1
    have hw1 : ThreadsOk w1 := threadsOk_updTh (staysPut_completeAll ..) h
    refine threadsOk_finish ?_
    refine threadsOk_with ?_
    split
    · next e1 =>
        have h1 := ThreadsOkIf.found (threadsOkIf_placeRecord hw1) e1
        exact h1
    · exact hw1

theorem threadsOkIf_queueTask {hdrAddr header key ctx tree depth pct task uid} (h : ThreadsOk s) :
    ThreadsOkIf (queueTask hdrAddr header key ctx tree depth pct task uid s) :=
  threadsOkIf_ite threadsOkIf_none (threadsOkIf_map (fun _ h1 => h1) (threadsOkIf_segPush h))

theorem threadsOk_qputOp {i o} (h : ThreadsOk s) : ThreadsOk (qputOp i o s) := by
  unfold qputOp
  extract_lets +onlyGivenNames _
  split
  · exact threadsOk_raise h
  · exact threadsOk_withHome (fun _ _ h1 => threadsOk_readRecord (fun _ h2 => threadsOk_raise h2) (fun _ _ h2 => threadsOk_finish h2) h1) h

theorem threadsOk_stepPut {q} (h : ThreadsOk s) : ThreadsOk (stepPut q s) := by
  unfold stepPut
  split
  next e1 =>
    have h1 := threadsOk_part (·.2) e1 (threadsOk_releaseStep h)
    refine threadsOk_ite h1 ?_
    extract_lets +onlyGivenNames _ _
    split
    next e2 =>
      have h2 := threadsOk_part (·.2) e2 <| by
        refine threadsOk_iteSnd h1 ?_
        split
        · next e2 =>
            have h2 := ThreadsOkIf.found (threadsOkIf_queueTask h1) e2
            exact threadsOk_with h2
        · exact h1
      exact threadsOk_wakeStores (threadsOk_updThreads (fun _ => ⟨rfl, rfl, rfl⟩) h2)

/-! ## Instruction fetch -/

theorem threadsOk_wakeFetch {line} (h : ThreadsOk s) : ThreadsOk (wakeFetch line s) := threadsOk_updThreads (fun _ => ⟨rfl, rfl, rfl⟩) h

theorem threadsOk_fetchFill (h : ThreadsOk s) : ThreadsOk (fetchFill s) := by
  unfold fetchFill
  split
  · extract_lets +onlyGivenNames _
    split
    · next e1 =>
        have h1 := threadsOk_part (·.2) e1 (threadsOk_translate h)
        exact threadsOk_with (threadsOk_wantWalk h1)
    · next e1 =>
        have h1 := threadsOk_part (·.2) e1 (threadsOk_translate h)
        exact threadsOk_ite (threadsOk_with (threadsOk_linkLost h1)) (threadsOk_gate (fun _ h2 => threadsOk_ite h2 (threadsOk_wakeFetch h2)) h1)
  · exact h

theorem threadsOk_fetchFillS (h : ThreadsOk s) : ThreadsOk (fetchFillS s) := by
  unfold fetchFillS
  split
  · extract_lets +onlyGivenNames _
    split
    · next e1 =>
        have h1 := threadsOk_part (·.2) e1 (threadsOk_translateCl h)
        exact threadsOk_wantWalk h1
    · next e1 =>
        have h1 := threadsOk_part (·.2) e1 (threadsOk_translateCl h)
        exact threadsOk_ite (threadsOk_stopStream (threadsOk_linkLost h1))
          (threadsOk_gate (fun _ h2 => threadsOk_ite (threadsOk_stopStream h2) h2) h1)
  · exact h

/-! ## The dispatcher and the former -/

/-- `t` is `s` with the threads `ts` come to life in the active plane. -/
def Born (ts : List Thread) (s t : State) : Prop :=
  t.pl.threads = ts.foldl (fun l t => insThread t l) s.pl.threads ∧ t.standby.plane.threads = s.standby.plane.threads ∧ t.th.live = s.th.live
    ∧ t.th.lane = s.th.lane ∧ t.slots = s.slots ∧ t.images = s.images

theorem threadsOk_born {ts : List Thread} (h : ThreadsOk s) (born : Born ts s t) (each : ∀ t ∈ ts, t.live = true ∧ t.lane < 32) : ThreadsOk t := by
  obtain ⟨pl, standby, th, slots, images⟩ := h
  obtain ⟨ePl, eStandby, live, lane, eSlots, eImages⟩ := born
  unfold ThreadsOk PlaneOk at *
  rw [ePl, eStandby, live, lane, eSlots, eImages]
  exact ⟨inOrder_foldl_insThread pl each, standby, th, slots, images⟩

theorem warpThreads_lanes {uid slot wid : Nat} {p : WarpPlan} {a : StartArgs} {depth : Nat} :
    ∀ t ∈ warpThreads s uid slot wid p a depth, t.live = true ∧ t.lane < 32 := by
  intro t mem
  obtain ⟨l, lane, rfl⟩ := List.mem_map.1 mem
  exact ⟨rfl, List.mem_range.1 lane⟩

/-- The threads of a block's warps, each with its plan. -/
theorem startThreads_lanes {uid slot : Nat → Nat} {plan : List WarpPlan} {a : StartArgs} {depth : Nat} :
    ∀ t ∈ (plan.mapIdx fun i p => warpThreads s (uid i) (slot i) i p a depth).flatten, t.live = true ∧ t.lane < 32 := by
  intro t mem
  obtain ⟨ts, warp, mem⟩ := List.mem_flatten.1 mem
  obtain ⟨i, _, rfl⟩ := List.mem_mapIdx.1 warp
  exact warpThreads_lanes t mem

theorem threadsOkIf_allocBlock {e l a} (h : ThreadsOk s) : ThreadsOkIf (allocBlock e l a s) := by
  unfold allocBlock
  extract_lets +onlyGivenNames plan slots n uid
  refine threadsOkIf_bindOther fun x => ?_
  split
  extract_lets +onlyGivenNames _ u size base nframes ws go
  have hu : ThreadsOk u := threadsOk_with h
  have goes : ∀ s, ThreadsOk s → ThreadsOkIf (go s) := fun s h => by
    dsimp -zeta only [go]
    extract_lets +onlyGivenNames banks frames seq
    refine threadsOkIf_ite threadsOkIf_none ?_
    extract_lets +onlyGivenNames b _ v _ w ts _ x y _ z
    have hx : ThreadsOk x := threadsOk_born (ts := ts) h ⟨rfl, rfl, rfl, rfl, rfl, rfl⟩ startThreads_lanes
    have hy : ThreadsOk y := threadsOk_foldl (fun _ _ h => threadsOk_addTile h) hx
    have hz : ThreadsOk z := threadsOk_with hy
    clear_value z seq
    split
    · exact threadsOkIf_some hz
    · exact threadsOkIf_some (threadsOk_with hz)
  clear_value go
  split
  · exact goes u hu
  · exact threadsOkIf_bind goes (threadsOkIf_growArena hu)

theorem threadsOk_drawWords {n} (h : ThreadsOk s) : ThreadsOk (drawWords n s).2 := by
  induction n generalizing s with
  | zero => exact h
  | succ n ih => exact ih (threadsOk_with h)

theorem threadsOk_freeConsts {blk} (h : ThreadsOk s) : ThreadsOk (freeConsts blk s) := by
  unfold freeConsts
  split
  next e1 =>
    have h1 := threadsOk_part (·.2) e1 (threadsOk_drawWords h)
    exact threadsOk_with h1

theorem threadsOk_loadArgs {b} (h : ThreadsOk s) : ThreadsOk (loadArgs b s) :=
  threadsOk_withHome (fun _ _ h1 => threadsOk_readRecord (fun _ h2 => threadsOk_freeConsts h2) (fun _ _ h2 => h2) h1) h

theorem threadsOk_serveArgs (h : ThreadsOk s) : ThreadsOk (serveArgs s) := by
  unfold serveArgs
  refine threadsOk_foldl (fun _ _ h1 => ?_) h
  split
  · exact threadsOk_freeConsts h1
  · split
    · exact threadsOk_asThread (fun _ h2 => threadsOk_loadArgs h2) h1
    · exact h1
    · exact h1
    · exact h1
    · exact h1
    · exact threadsOk_freeConsts h1

theorem threadsOk_discardTask {e code} (h : ThreadsOk s) : ThreadsOk (discardTask e code s) := threadsOk_ctxError h

theorem threadsOk_shrinkForStart {l} (h : ThreadsOk s) : ThreadsOk (shrinkForStart l s) := threadsOk_ite h (threadsOk_changeBanks h)

/-- What an examination answers with a state keeps the threads. -/
def ExamOk : Exam → Prop
  | .seek s => ThreadsOk s
  | .start s => ThreadsOk s
  | _ => True

theorem examOk_examine1 {e} (h : ThreadsOk s) : ExamOk (examine1 e s) := by
  unfold examine1
  split
  · split
    · trivial
    · split
      · trivial
      · exact threadsOk_engMiss h
      · exact threadsOk_forgetMiss h
      · trivial
      · trivial
      · split
        · trivial
        · split
          · next found => exact (threadsOkIf_allocBlock (threadsOk_with h)).found found
          · trivial
  · trivial

theorem threadsOk_examineAll {may l} (h : ThreadsOk s) : ThreadsOk (examineAll may l s) := by
  induction l generalizing s with
  | nil => exact h
  | cons e t ih =>
    have seen := examOk_examine1 (e := e) h
    unfold examineAll
    split
    · exact ih h
    · next e => exact ih (e ▸ seen : ExamOk (.seek _))
    · exact threadsOk_freeze h
    · exact threadsOk_discardTask h
    · next u e =>
      have hu : ThreadsOk u := (e ▸ seen : ExamOk (.start u))
      exact threadsOk_ite (threadsOk_serveArgs (threadsOk_with hu)) h
    · extract_lets +onlyGivenNames _ u v
      have hv : ThreadsOk v := threadsOk_shrinkForStart (threadsOk_with h)
      exact threadsOk_ite hv (ih hv)

theorem threadsOk_blockStartStep (h : ThreadsOk s) : ThreadsOk (blockStartStep s) := threadsOk_examineAll (threadsOk_serveArgs h)

theorem threadsOkIf_releaseWarp {g} (h : ThreadsOk s) : ThreadsOkIf (releaseWarp g s) := by
  unfold releaseWarp
  refine threadsOkIf_bindOther fun x => threadsOkIf_bindOther fun slot => ?_
  extract_lets +onlyGivenNames a
  refine threadsOkIf_bindOther fun ⟨pages, pm⟩ => ?_
  refine threadsOkIf_some (threadsOk_treeSub (threadsOk_treeAdd (threadsOk_foldl (fun _ _ h => threadsOk_with h)
    (threadsOk_born h ⟨rfl, rfl, rfl, rfl, rfl, rfl⟩ fun t mem => ?_))))
  obtain ⟨i, at_, rfl⟩ := List.mem_mapIdx.1 mem
  exact ⟨rfl, Nat.mod_lt _ (by decide)⟩

theorem threadsOk_formWarps {ok n} (h : ThreadsOk s) : ThreadsOk (formWarps ok n s) := by
  induction n generalizing s with
  | zero => exact h
  | succ n ih =>
    unfold formWarps
    extract_lets l
    split
    · exact h
    · next e => exact ih ((threadsOkIf_findSome fun g => threadsOkIf_releaseWarp h).found e)

theorem threadsOk_formWarp {ok} (h : ThreadsOk s) : ThreadsOk (formWarp ok s) := threadsOk_formWarps h

theorem threadsOk_warpReleaseStep (h : ThreadsOk s) : ThreadsOk (warpReleaseStep s) := threadsOk_formWarp h

theorem threadsOk_partialTimeoutStep (h : ThreadsOk s) : ThreadsOk (partialTimeoutStep s) := threadsOk_formWarp h

end

end Sys2Proof.Laws
end

section
/-! PROOF. The threads of the planes, through the command processor's queues and contexts, watched regions and the copy engine (R155 to R174, R251 to
R262, R330 to R336). -/

namespace Sys2Proof.Laws

open Sys2Proof Sys2Proof.Machine

set_option Elab.async false

section

variable {s t : State}

/-! ## Launches, graphs and trees -/

theorem threadsOk_readTime {home} (h : ThreadsOk s) : ThreadsOk (readTime home s).2 := threadsOk_iteSnd h h

theorem threadsOk_cpStore {c home bs} (h : ThreadsOk s) : ThreadsOk (cpStore c home bs s).2 :=
  threadsOk_iteSnd (threadsOk_iteSnd (threadsOk_linkLost (threadsOk_maybeRemote h)) (threadsOk_reportRefused h)) (threadsOk_commitQuiet h)

theorem threadsOk_cpStop {c e} (h : ThreadsOk s) : ThreadsOk (cpStop c e s) := by
  unfold cpStop
  split
  · exact threadsOk_freeze h
  · exact threadsOk_linkLost h
  · exact h

theorem threadsOk_noteLost {c m} (h : ThreadsOk s) : ThreadsOk (noteLost c m s) := by
  unfold noteLost
  split
  · exact threadsOk_linkLost h
  · exact h

theorem threadsOkIf_launchSeed {c hdr header key pct tr} (h : ThreadsOk s) : ThreadsOkIf (launchSeed c hdr header key pct tr s) := by
  unfold launchSeed
  split
  · exact threadsOkIf_none
  · exact threadsOkIf_segPush h

theorem threadsOk_setGraph {g f} (h : ThreadsOk s) : ThreadsOk (setGraph g f s) := threadsOk_with h

theorem threadsOk_endReplay {g i} (h : ThreadsOk s) : ThreadsOk (endReplay g i s) :=
  threadsOk_foldl (fun _ _ h1 => threadsOk_ite h1 h1) (threadsOk_ctxError h)

theorem threadsOkIf_startNode {g nodes i n} (h : ThreadsOk s) : ThreadsOkIf (startNode g nodes i n s) := by
  unfold startNode
  refine threadsOkIf_ite (threadsOkIf_some h) ?_
  refine threadsOkIf_ite (threadsOkIf_some (threadsOk_endReplay h)) ?_
  refine threadsOkIf_ite ?_ ?_
  · refine threadsOkIf_ite threadsOkIf_none ?_
    split
    · exact threadsOkIf_some (threadsOk_freeze h)
    · exact threadsOkIf_none
    · exact threadsOkIf_some (threadsOk_endReplay (threadsOk_noteLost h))
    · exact threadsOkIf_map (fun _ h1 => h1) (threadsOkIf_launchSeed h)
  · split
    · exact threadsOkIf_some (threadsOk_freeze h)
    · exact threadsOkIf_some (threadsOk_linkLost h)
    · exact threadsOkIf_none
    · exact threadsOkIf_some (threadsOk_with (threadsOk_readTime h))

theorem threadsOk_endStuck {g} (h : ThreadsOk s) : ThreadsOk (endStuck g s) := threadsOk_ite h (threadsOk_endReplay h)

theorem threadsOk_runNodes {g n} (h : ThreadsOk s) : ThreadsOk (runNodes g n s) := by
  induction n generalizing s with
  | zero => exact h
  | succ n ih =>
    unfold runNodes
    split
    · exact h
    · refine threadsOk_ite h ?_
      split
      · exact threadsOk_cpStop h
      · split
        · exact threadsOk_endStuck h
        · split
          · exact h
          · split
            · exact h
            · next e => exact ih ((threadsOkIf_startNode h).found e)

theorem threadsOk_startReplay {g v} (h : ThreadsOk s) : ThreadsOk (startReplay g v s) := by
  unfold startReplay
  extract_lets +onlyGivenNames va go
  have goes : ∀ ws s, ThreadsOk s → ThreadsOk (go ws s) := by
    intro ws s h
    exact threadsOk_setGraph (threadsOk_foldl_snd (fun _ _ h => threadsOk_cpStore h) h)
  refine threadsOk_ite (goes [] s h) ?_
  split
  · exact threadsOk_setGraph (threadsOk_cpStop h)
  · exact threadsOk_setGraph (threadsOk_ctxError (threadsOk_noteLost h))
  · exact goes _ _ h

theorem threadsOk_endIfDone {g} (h : ThreadsOk s) : ThreadsOk (endIfDone g s) := by
  unfold endIfDone
  split
  · exact h
  · refine threadsOk_ite h ?_
    split
    · exact threadsOk_ite h (threadsOk_setIrq (threadsOk_with h))
    · refine threadsOk_ite h ?_
      refine threadsOk_ite (threadsOk_with h) ?_
      split
      · exact threadsOk_cpStop h
      · split
        next e1 =>
          have h1 := threadsOk_part (·.2) e1 (threadsOk_cpStore h)
          exact threadsOk_with h1

theorem threadsOk_startHeld {g} (h : ThreadsOk s) : ThreadsOk (startHeld g s) := by
  unfold startHeld
  split
  · exact h
  · split
    · exact threadsOk_ite h (threadsOk_startReplay h)
    · exact h

theorem threadsOk_driveGraph {g} (h : ThreadsOk s) : ThreadsOk (driveGraph g s) :=
  threadsOk_endIfDone (threadsOk_runNodes (threadsOk_startHeld (threadsOk_endIfDone h)))

theorem threadsOk_driveGraphs (h : ThreadsOk s) : ThreadsOk (driveGraphs s) := threadsOk_foldl (fun _ _ h1 => threadsOk_driveGraph h1) h

theorem threadsOk_ring {b act} (hact : ∀ s, ThreadsOk s → ThreadsOk (act s)) (h : ThreadsOk s) : ThreadsOk (ring b act s) :=
  threadsOk_ite h (hact _ h)

theorem threadsOk_kickAct {g v} (h : ThreadsOk s) : ThreadsOk (kickAct g v s) := by
  unfold kickAct
  refine threadsOk_ite h ?_
  split
  · exact h
  · exact threadsOk_ite (threadsOk_ctxError h) (threadsOk_driveGraph h)

theorem threadsOk_kickStep {g v} (h : ThreadsOk s) : ThreadsOk (kickStep g v s) := threadsOk_ring (fun _ h1 => threadsOk_kickAct h1) h

theorem threadsOk_releaseSlot {c} (h : ThreadsOk s) : ThreadsOk (releaseSlot c s) := by
  unfold releaseSlot
  extract_lets +onlyGivenNames lines u clean
  have hu : ThreadsOk u := threadsOk_foldl (fun _ _ h => threadsOk_with (threadsOk_commitQuiet h)) h
  refine threadsOk_slots ?_ hu
  simp only [List.mem_map, forall_exists_index, and_imp, forall_apply_eq_imp_iff₂]
  intro x mem
  have slot := planeOk_slot hu mem
  split <;> exact slot

theorem threadsOk_treeReleased {c} (h : ThreadsOk s) : ThreadsOk (treeReleased c s).2 := by
  unfold treeReleased
  extract_lets +onlyGivenNames w w1 _ _ _
  have hw : ∀ s, ThreadsOk s → ThreadsOk (w s) := fun _ h1 => threadsOk_writeBackAll h1
  have hw1 : ThreadsOk w1 := hw _ h
  exact threadsOk_releaseSlot (threadsOk_ite (threadsOk_inOther (fun _ h1 => hw _ h1) hw1) hw1)

theorem threadsOk_dropTree {tr} (h : ThreadsOk s) : ThreadsOk (dropTree tr s) := by
  unfold dropTree
  extract_lets +onlyGivenNames _ _ _
  split <;> exact threadsOk_driveGraphs h

theorem threadsOk_treeCompleteStep {n} (h : ThreadsOk s) : ThreadsOk (treeCompleteStep n s) := by
  unfold treeCompleteStep
  split
  · exact h
  · refine threadsOk_ite h ?_
    split
    · exact threadsOk_ite h (threadsOk_dropTree (threadsOk_setIrq h))
    · split
      next e1 =>
        have h1 := threadsOk_part (·.2) e1 (threadsOk_treeReleased h)
        refine threadsOk_ite h1 ?_
        refine threadsOk_ite (threadsOk_dropTree h1) ?_
        split
        · exact threadsOk_cpStop h1
        · split
          next e2 =>
            have h2 := threadsOk_part (·.2) e2 (threadsOk_cpStore (threadsOk_with h1))
            exact threadsOk_with h2

/-! ## Packets, doorbells and `kwait` -/

theorem threadsOk_retire {x n} (h : ThreadsOk s) : ThreadsOk (retire x n s) := by
  unfold retire
  extract_lets +onlyGivenNames _
  split
  next e1 =>
    have h1 := threadsOk_part (·.2) e1 <| by
      split
      · exact threadsOk_cpStore h
      · exact h
    exact threadsOk_with h1

theorem threadsOk_passOver {q} (h : ThreadsOk s) : ThreadsOk (passOver q s) := by
  unfold passOver
  split
  · exact h
  · exact threadsOk_ite h (threadsOk_retire h)

theorem threadsOk_queueError {x code detail} (h : ThreadsOk s) : ThreadsOk (queueError x code detail s) := by
  unfold queueError
  split
  next e1 =>
    have h1 := threadsOk_part (·.2) e1 <| by
      split
      · exact threadsOk_cpStore h
      · exact h
    exact threadsOk_with h1

theorem threadsOk_packetStep {ty q act} (hact : ∀ x y s, ThreadsOk s → ThreadsOk (act x y s)) (h : ThreadsOk s) :
    ThreadsOk (packetStep ty q act s) := by
  unfold packetStep
  extract_lets +onlyGivenNames w
  have hw : ThreadsOk w := threadsOk_ite (threadsOk_passOver h) h
  split
  · exact hw
  · refine threadsOk_ite hw ?_
    split
    · exact threadsOk_ite (hact _ _ _ hw) hw
    · split
      · exact hw
      · exact threadsOk_freeze hw
      · refine threadsOk_ite (threadsOk_queueError hw) ?_
        extract_lets +onlyGivenNames _
        split
        · exact threadsOk_cpStop hw
        · exact threadsOk_ite (threadsOk_queueError (threadsOk_noteLost hw)) hw
        · exact threadsOk_ite (hact _ _ _ hw) hw

theorem threadsOk_launchAct {x p} (h : ThreadsOk s) : ThreadsOk (launchAct x p s) := by
  unfold launchAct
  refine threadsOk_ite h ?_
  split
  · exact threadsOk_cpStop h
  · exact threadsOk_queueError (threadsOk_noteLost h)
  · extract_lets +onlyGivenNames _
    split
    · next e1 =>
        have h1 := ThreadsOkIf.found (threadsOkIf_launchSeed h) e1
        exact threadsOk_retire h1
    · exact h

theorem threadsOk_withWord {x p k} (hk : ∀ x s, ThreadsOk s → ThreadsOk (k x s)) (h : ThreadsOk s) : ThreadsOk (withWord x p k s) := by
  unfold withWord
  split
  · exact threadsOk_cpStop h
  · exact hk _ _ (threadsOk_with (threadsOk_readTime h))

theorem threadsOk_waitAct {x p} (h : ThreadsOk s) : ThreadsOk (waitAct x p s) :=
  threadsOk_withWord (fun _ _ h1 => threadsOk_ite (threadsOk_retire h1) h1) h

theorem threadsOk_condAct {x p} (h : ThreadsOk s) : ThreadsOk (condAct x p s) :=
  threadsOk_withWord (fun _ _ h1 => threadsOk_ite (threadsOk_retire h1) (threadsOk_passOver (threadsOk_retire h1))) h

theorem threadsOk_signalAct {x p} (h : ThreadsOk s) : ThreadsOk (signalAct x p s) := by
  unfold signalAct
  refine threadsOk_ite h ?_
  refine threadsOk_ite (threadsOk_retire (threadsOk_setIrq h)) ?_
  split
  · exact threadsOk_cpStop h
  · extract_lets +onlyGivenNames _
    refine threadsOk_ite h ?_
    extract_lets +onlyGivenNames _
    split
    next e1 =>
      have h1 := threadsOk_part (·.2) e1 (threadsOk_cpStore h)
      exact threadsOk_with h1

theorem threadsOk_joinAct {x p} (h : ThreadsOk s) : ThreadsOk (joinAct x p s) := threadsOk_ite h (threadsOk_retire h)

theorem threadsOk_patchAct {x p} (h : ThreadsOk s) : ThreadsOk (patchAct x p s) := by
  unfold patchAct
  refine threadsOk_ite ?_ ?_
  · exact threadsOk_ite (threadsOk_retire h) h
  · split
    · exact threadsOk_cpStop h
    · split
      next e1 =>
        have h1 := threadsOk_part (·.2) e1 <| by
          refine threadsOk_foldl_snd (fun _ _ h1 => ?_) h
          split
          next e2 =>
            have h2 := threadsOk_part (·.2) e2 (threadsOk_cpStore h1)
            exact h2
        exact threadsOk_with h1

theorem threadsOk_doorbellAct {q v} (h : ThreadsOk s) : ThreadsOk (doorbellAct q v s) := threadsOk_ite h (threadsOk_ite (threadsOk_passOver h) h)

theorem threadsOk_doorbellStep {q v} (h : ThreadsOk s) : ThreadsOk (doorbellStep q v s) := threadsOk_ring (fun _ h1 => threadsOk_doorbellAct h1) h

theorem threadsOk_settleBells (h : ThreadsOk s) : ThreadsOk (settleBells s) := by
  unfold settleBells
  refine threadsOk_ite h ?_
  refine threadsOk_foldl (fun _ _ h1 => ?_) h
  split
  · exact threadsOk_doorbellAct h1
  · exact threadsOk_kickAct h1

theorem threadsOk_hartAccess {code addr n k} (hk : ∀ s, ThreadsOk s → ThreadsOk (k s)) (h : ThreadsOk s) : ThreadsOk (hartAccess code addr n k s) :=
  threadsOk_ite h (threadsOk_ite h (threadsOk_ite h (threadsOk_ite (hk _ h) (threadsOk_freeze h))))

theorem threadsOk_hartRead {code addr n k} (hk : ∀ x s, ThreadsOk s → ThreadsOk (k x s)) (h : ThreadsOk s) : ThreadsOk (hartRead code addr n k s) :=
  threadsOk_hartAccess (fun _ h1 => threadsOk_ite h1 (hk _ _ h1)) h

theorem threadsOk_hartTry {cmp addr v d} (h : ThreadsOk s) : ThreadsOk (hartTry cmp addr v d s) :=
  threadsOk_hartRead (fun _ _ h1 => threadsOk_ite h1 h1) h

theorem threadsOk_kwaitOp {cmp b a d} (h : ThreadsOk s) : ThreadsOk (kwaitOp cmp b a d s) := threadsOk_hartTry h

theorem threadsOk_asHart {n f} (hf : ∀ s, ThreadsOk s → ThreadsOk (f s)) (h : ThreadsOk s) : ThreadsOk (State.asHart s n f) := by
  unfold State.asHart
  refine threadsOk_ite (hf _ h) ?_
  split
  · exact h
  · exact hf _ h

theorem threadsOk_rereadStep (h : ThreadsOk s) : ThreadsOk (rereadStep s) := by
  unfold rereadStep
  split
  · exact threadsOk_hartTry h
  · exact h

/-! ## Mapping and unmapping -/

theorem threadsOk_clusterClear {c} (h : ThreadsOk s) : ThreadsOk (clusterClear c s) := threadsOk_stowSeq h

theorem threadsOk_unmapContext {c} (h : ThreadsOk s) : ThreadsOk (unmapContext c s) := by
  unfold unmapContext
  extract_lets u here v w x y
  have hv : ThreadsOk v := threadsOk_ite (threadsOk_foldl (fun _ _ h => threadsOk_with h) (threadsOk_stow h)) (threadsOk_stow h)
  have hw : ThreadsOk w := threadsOk_ite (threadsOk_commandDone hv) hv
  obtain ⟨pl, standby, th, slots, images⟩ : ThreadsOk y := threadsOk_dropTranslations (threadsOk_clusterClear hw)
  refine ⟨?_, planeOk_without standby, th, fun x mem => slots x (List.mem_of_mem_filter mem), images⟩
  dsimp only
  split
  · exact planeOk_cleared _
  · exact pl

theorem threadsOkIf_adoptContext {c desc} (h : ThreadsOk s) : ThreadsOkIf (adoptContext c desc s) := by
  unfold adoptContext
  extract_lets +onlyGivenNames _ _ _ _ _
  refine threadsOkIf_ite ?_ ?_
  · exact threadsOkIf_bindOther (fun _ => threadsOkIf_bindOther
      (fun _ => threadsOkIf_bindOther (fun _ => threadsOkIf_some (threadsOk_commitQuiet h))))
  · exact threadsOkIf_bindOther (fun _ => threadsOkIf_bindOther (fun _ => threadsOkIf_some (threadsOk_commitQuiet h)))

theorem threadsOkIf_adoptQueue {q c d} (h : ThreadsOk s) : ThreadsOkIf (adoptQueue q c d s) := by
  unfold adoptQueue
  extract_lets +onlyGivenNames _ _ _ _
  refine threadsOkIf_ite (threadsOkIf_bindOther (fun _ => threadsOkIf_bindOther (fun _ => threadsOkIf_some h))) ?_
  exact threadsOkIf_bindOther (fun _ => threadsOkIf_some h)

theorem threadsOk_refuseMapping {q c desc d} (h : ThreadsOk s) : ThreadsOk (refuseMapping q c desc d s) := by
  unfold refuseMapping
  split
  · exact threadsOk_commitQuiet h
  · exact h

theorem threadsOk_mapQueue {q c desc qdesc} (h : ThreadsOk s) : ThreadsOk (mapQueue q c desc qdesc s).2 := by
  unfold mapQueue
  extract_lets +onlyGivenNames _ w1
  have hw1 : ThreadsOkIf w1 := by
    dsimp only [w1]
    split
    · exact threadsOkIf_ite (threadsOkIf_some h) threadsOkIf_none
    · exact threadsOkIf_adoptContext h
  split
  · next e1 =>
      have h1 := ThreadsOkIf.found (threadsOkIf_ite threadsOkIf_none (threadsOkIf_bind (fun _ h1 => threadsOkIf_adoptQueue h1) hw1)) e1
      exact h1
  · exact threadsOk_refuseMapping h

/-! ## Multicast loads -/

theorem threadsOk_requestMcast {va home mask o} (h : ThreadsOk s) : ThreadsOk (requestMcast va home mask o s).2 := by
  unfold requestMcast
  split
  next e1 =>
    have h1 := threadsOk_part (·.2) e1 (threadsOk_with h)
    extract_lets +onlyGivenNames _ _ _
    split <;> exact threadsOk_with h1

theorem threadsOk_loadMcast {i imm o} (h : ThreadsOk s) : ThreadsOk (loadMcast i imm o s) := by
  unfold loadMcast
  extract_lets +onlyGivenNames _ _ _
  split
  · exact threadsOk_raise h
  · refine threadsOk_withHome (fun _ _ h1 => ?_) h
    refine threadsOk_ite h1 ?_
    refine threadsOk_ite (threadsOk_raise h1) ?_
    extract_lets +onlyGivenNames _ w4
    have hw4 : ThreadsOk w4 := threadsOk_l1Renew (threadsOk_ite (threadsOk_writeBack h1) h1)
    refine threadsOk_ite (threadsOk_hold (threadsOk_iteSnd (threadsOk_requestMcast hw4) (threadsOk_requestFill hw4))) ?_
    exact threadsOk_finish (threadsOk_iteSnd (threadsOk_requestMcast hw4) (threadsOk_requestFill hw4))

/-! ## Watched regions -/

theorem threadsOk_watchDone {i o v} (h : ThreadsOk s) : ThreadsOk (watchDone i o v s) := threadsOk_with (threadsOk_result h)

theorem threadsOk_watchHold {i pk} (h : ThreadsOk s) : ThreadsOk (watchHold i pk s) := threadsOk_updTh ⟨rfl, rfl, rfl⟩ (threadsOk_hold h)

theorem threadsOk_attachRegion {i o d pages} (h : ThreadsOk s) : ThreadsOk (attachRegion i o d pages s) := by
  unfold attachRegion
  extract_lets +onlyGivenNames _ _
  split
  · exact threadsOk_watchDone h
  · exact threadsOk_watchDone h
  · refine threadsOk_ite (threadsOk_watchDone h) ?_
    extract_lets +onlyGivenNames _
    split
    · exact threadsOk_watchDone h
    · exact threadsOk_watchHold h

theorem threadsOk_attach {i o d} (h : ThreadsOk s) : ThreadsOk (attach i o d s) :=
  threadsOk_ite (threadsOk_watchDone h) (threadsOk_withPages (fun _ _ h1 => threadsOk_attachRegion h1) h)

theorem threadsOk_watchPoisoned {i o} (h : ThreadsOk s) : ThreadsOk (watchPoisoned i o s) := threadsOk_watchDone h

theorem threadsOk_watchOp {i o} (h : ThreadsOk s) : ThreadsOk (watchOp i o s) := by
  unfold watchOp
  extract_lets +onlyGivenNames _
  split
  · exact threadsOk_raise h
  · exact threadsOk_withHome (fun _ _ h1 => threadsOk_readRecord (fun _ h2 => threadsOk_watchPoisoned h2) (fun _ _ h2 => threadsOk_attach h2) h1) h

theorem threadsOk_unwatchOp {i o} (h : ThreadsOk s) : ThreadsOk (unwatchOp i o s) :=
  threadsOk_ite (threadsOk_watchDone h) (threadsOk_ite (threadsOk_watchDone h) (threadsOk_watchHold h))

theorem threadsOk_discardRecords {c id} (h : ThreadsOk s) : ThreadsOk (discardRecords c id s) := threadsOk_foldl (fun _ _ h1 => h1) h

/-! ## The copy engine -/

theorem threadsOk_newOp {i o kind} (h : ThreadsOk s) : ThreadsOk (newOp i o kind s).2 := threadsOk_acquireWriteBack h

theorem threadsOk_arrGate {i k} (hk : ∀ s, ThreadsOk s → ThreadsOk (k s)) (h : ThreadsOk s) : ThreadsOk (arrGate i k s) := by
  unfold arrGate
  split
  · exact threadsOk_raise h
  · exact hk _ h

theorem threadsOk_copyIssue {i kind o} (h : ThreadsOk s) : ThreadsOk (copyIssue i kind o s) := by
  unfold copyIssue
  extract_lets +onlyGivenNames addr
  split
  · exact threadsOk_raise h
  · refine threadsOk_ite (threadsOk_with h) (threadsOk_ite (threadsOk_with h) (threadsOk_withHome (fun n s h => ?_) h))
    extract_lets +onlyGivenNames accept
    have accepts : ∀ f s, ThreadsOk s → ThreadsOk (accept f s) := fun f s h => by
      refine threadsOk_arrGate (fun s h => ?_) h
      split
      next e =>
      have queued := threadsOk_part (·.2) e (threadsOk_newOp h)
      exact threadsOk_finish (threadsOk_with queued)
    clear_value accept
    exact threadsOk_readRecord (fun s h => accepts _ s h) (fun _ s h => accepts _ s h) h

theorem threadsOk_moveByte {x : State × List (Nat × Byte)} {m} (h : ThreadsOk x.1) : ThreadsOk (moveByte x m).1 := by
  unfold moveByte
  dsimp only
  split
  · exact h
  · exact threadsOk_with h
  · exact threadsOk_with h

theorem threadsOk_takeTiles {c} (h : ThreadsOk s) : ThreadsOk (takeTiles c s) := by
  unfold takeTiles
  extract_lets +onlyGivenNames w
  have hw : ThreadsOk w := by
    dsimp only [w]
    split <;> exact h
  split <;> exact hw

theorem threadsOk_leaveTiles {c ok} (h : ThreadsOk s) : ThreadsOk (leaveTiles c ok s) := by
  unfold leaveTiles
  extract_lets +onlyGivenNames w
  have hw : ThreadsOk w := by
    dsimp only [w]
    split <;> exact h
  split <;> exact hw

theorem threadsOk_coreAnswers {own code detail l} (h : ThreadsOk s) : ThreadsOk (coreAnswers own code detail s l).2.2 := by
  induction l generalizing s with
  | nil => exact h
  | cons k t ih =>
    unfold coreAnswers
    dsimp only
    refine ih ?_
    split
    · exact h
    · split <;> exact threadsOk_with h

theorem threadsOk_mcpyStatus {c own code detail} (h : ThreadsOk s) : ThreadsOk (mcpyStatus c own code detail s).2 := threadsOk_coreAnswers h

theorem threadsOk_finishCopy {c code detail} (h : ThreadsOk s) : ThreadsOk (finishCopy c code detail s) :=
  threadsOk_ite (threadsOk_with (threadsOk_mcpyStatus h)) h

theorem threadsOk_multicast {c moves} (h : ThreadsOk s) : ThreadsOk (multicast c moves s) := by
  unfold multicast
  extract_lets +onlyGivenNames _
  refine threadsOk_foldl (fun _ _ h1 => ?_) h
  refine threadsOk_foldl (fun _ _ h2 => ?_) h1
  split <;> exact h2

theorem threadsOk_runCopy {c} (h : ThreadsOk s) : ThreadsOk (runCopy c s) := by
  unfold runCopy
  split
  · extract_lets +onlyGivenNames u v
    have hu : ThreadsOk u := threadsOk_ite (threadsOk_multicast h) (threadsOk_engWrite (threadsOk_foldl_fst (fun _ _ h => threadsOk_moveByte h) h))
    have hv : ThreadsOk v := threadsOk_with hu
    exact threadsOk_ite (threadsOk_finishCopy hv) hv
  · exact threadsOk_engMiss h
  · split
    next e =>
    have h1 := threadsOk_part (·.2) e (threadsOk_engFault h)
    exact threadsOk_ite (threadsOk_with h1) h1
  · exact threadsOk_freeze h
  · exact threadsOk_finishCopy h
  · exact threadsOk_finishCopy h
  · exact threadsOk_finishCopy (threadsOk_linkLost h)
  · exact h

theorem threadsOk_describe {c} (h : ThreadsOk s) : ThreadsOk (describe c s) := by
  unfold describe
  extract_lets +onlyGivenNames _
  split
  · exact threadsOk_engMiss h
  · exact threadsOk_ite (threadsOk_with (threadsOk_engFault h)) (threadsOk_engFault h)
  · exact threadsOk_freeze h
  · exact threadsOk_finishCopy (threadsOk_linkLost h)
  · exact h
  · exact threadsOk_ite (threadsOk_finishCopy h) h

theorem threadsOk_serveCopy {c} (h : ThreadsOk s) : ThreadsOk (serveCopy c s) := by
  unfold serveCopy
  refine threadsOk_ite (threadsOk_finishCopy h) ?_
  refine threadsOk_ite (threadsOk_finishCopy h) ?_
  refine threadsOk_ite (threadsOk_describe h) ?_
  exact threadsOk_ite (threadsOk_finishCopy h) (threadsOk_runCopy (threadsOk_ite h (threadsOk_with (threadsOk_takeTiles h))))

theorem threadsOk_wakeQueue {u} (h : ThreadsOk s) : ThreadsOk (wakeQueue u s) := threadsOk_updThreads (fun _ => ⟨rfl, rfl, rfl⟩) h

theorem threadsOk_copyPosts {c} (h : ThreadsOk s) : ThreadsOk (copyPosts c s) := by
  unfold copyPosts
  extract_lets +onlyGivenNames w w1 w2
  have hw : ThreadsOk w := threadsOk_ite (threadsOk_leaveTiles h) h
  have hw1 : ThreadsOk w1 := by
    dsimp only [w1]
    split
    · exact threadsOk_foldl (fun _ _ h1 => threadsOk_arriveEngine h1) hw
    · exact threadsOk_arriveEngine hw
  have hw2 : ThreadsOk w2 := threadsOk_asThread (fun _ h1 => h1) hw1
  split
  · exact threadsOk_ite (threadsOk_dropBlock hw2) hw2
  · exact hw2

theorem threadsOk_completeCopy {id} (h : ThreadsOk s) : ThreadsOk (completeCopy id s) := by
  unfold completeCopy
  split
  · exact h
  · refine threadsOk_ite h ?_
    exact threadsOk_ite (threadsOk_commandDone (threadsOk_wakeQueue h)) (threadsOk_inCtx (fun _ h1 => threadsOk_copyPosts h1) (threadsOk_wakeQueue h))

end

end Sys2Proof.Laws
end

section
/-! PROOF. The threads of the planes, through the matrix engine, and the swap, save and restore, which move whole planes (R280 to R323,
R361 to R370). -/

namespace Sys2Proof.Laws

open Sys2Proof Sys2Proof.Machine

set_option Elab.async false

section

variable {s t : State}

/-! ## The reservation table and its passes -/

theorem threadsOk_atBlock {blk f} (hf : ∀ s, ThreadsOk s → ThreadsOk (f s)) (h : ThreadsOk s) : ThreadsOk (State.atBlock s blk f) :=
  threadsOk_ite (hf _ h) (threadsOk_ite (threadsOk_inOther (fun _ h1 => hf _ h1) h) h)

theorem threadsOk_closeEntry {undone e} (h : ThreadsOk s) : ThreadsOk (closeEntry undone e s) := by
  unfold closeEntry
  extract_lets +onlyGivenNames _ _ _ _ _ _ _ _ _ w9
  have hw9 : ThreadsOk w9 := threadsOk_settleStop (threadsOk_arriveEngine (threadsOk_foldl (fun _ _ h1 => h1) h))
  exact threadsOk_ite (threadsOk_dropBlock hw9) hw9

theorem threadsOk_acceptEntry {e} (h : ThreadsOk s) : ThreadsOk (acceptEntry e s) := by
  unfold acceptEntry
  refine threadsOk_foldl (fun _ _ h1 => ?_) h
  refine threadsOk_ite h1 ?_
  split <;> exact h1

theorem threadsOk_settleEntry {q} (h : ThreadsOk s) : ThreadsOk (settleEntry q s) := by
  unfold settleEntry
  split
  · exact h
  · refine threadsOk_ite h ?_
    refine threadsOk_ite h ?_
    extract_lets +onlyGivenNames w _
    have hw : ThreadsOk w := threadsOk_acceptEntry h
    split
    · exact hw
    · exact threadsOk_ite hw (threadsOk_ite hw (threadsOk_ite hw hw))

theorem threadsOk_settleTable (h : ThreadsOk s) : ThreadsOk (settleTable s) :=
  threadsOk_foldl (fun _ _ h1 => threadsOk_atBlock (fun _ h2 => threadsOk_settleEntry h2) h1) h

theorem threadsOk_issueEntry {i e} (h : ThreadsOk s) : ThreadsOk (issueEntry i e s) := by
  unfold issueEntry
  split
  next ids u e1 =>
  have hu : ThreadsOk u := threadsOk_part (·.2) e1 (threadsOk_acquireWriteBack h)
  split
  next tag v e2 =>
  have hv : ThreadsOk v := threadsOk_part (·.2) e2 (by split <;> exact threadsOk_with hu)
  extract_lets +onlyGivenNames e' dph _ _ w x
  have hw : ThreadsOk w := threadsOk_with hv
  exact threadsOk_finishS (threadsOk_ite (threadsOk_with hw) (threadsOk_ite (threadsOk_with hw) (threadsOk_settleEntry hw)))

theorem threadsOk_tileIssue {i maj f dnum d a b} (h : ThreadsOk s) : ThreadsOk (tileIssue i maj f dnum d a b s) := by
  unfold tileIssue
  extract_lets +onlyGivenNames _
  refine threadsOk_ite h ?_
  split
  · exact threadsOk_stopStream h
  · exact threadsOk_issueEntry h

theorem threadsOk_entryStop {e x} (h : ThreadsOk s) : ThreadsOk (entryStop e x s) := by
  unfold entryStop
  extract_lets +onlyGivenNames _
  split
  · exact threadsOk_ite (threadsOk_with (threadsOk_engFault h)) (threadsOk_with (threadsOk_engFault h))
  · exact threadsOk_freeze h
  · exact h
  · exact threadsOk_with (threadsOk_linkLost h)
  · exact threadsOk_engMiss h
  · exact h

theorem threadsOk_pinLine {q l} (h : ThreadsOk s) : ThreadsOk (pinLine q l s) :=
  threadsOk_ite h (threadsOk_ite (threadsOk_setLineRec h) (threadsOk_setLineRec h))

theorem threadsOk_fetchTile {e} (h : ThreadsOk s) : ThreadsOk (fetchTile e s) := by
  unfold fetchTile
  split
  · exact h
  · extract_lets +onlyGivenNames _
    split
    · exact threadsOk_entryStop h
    · exact threadsOk_ite (threadsOk_writeBackAll h)
        (threadsOk_with (threadsOk_foldl (fun _ _ h1 => threadsOk_pinLine h1) (threadsOk_writeBackAll h)))

theorem threadsOk_tileFetchStep {n} (h : ThreadsOk s) : ThreadsOk (tileFetchStep n s) := by
  unfold tileFetchStep
  split
  · exact h
  · exact threadsOk_ite h (threadsOk_atBlock (fun _ h1 => threadsOk_fetchTile h1) h)

theorem threadsOk_grantOn {port} (h : ThreadsOk s) : ThreadsOk (grantOn port s) := by
  unfold grantOn
  refine threadsOk_ite h ?_
  split
  · exact h
  · split <;> exact h

theorem threadsOk_grantStep (h : ThreadsOk s) : ThreadsOk (grantStep s) := threadsOk_grantOn (threadsOk_grantOn (threadsOk_settleTable h))

theorem threadsOk_applyLocal {w} (h : ThreadsOk s) : ThreadsOk (applyLocal w s) := by
  unfold applyLocal
  split <;> exact h

theorem threadsOk_countConflicts {e} (h : ThreadsOk s) : ThreadsOk (countConflicts e s) := threadsOk_ite h h

theorem threadsOk_applyPass {e u o ws later} (h : ThreadsOk s) : ThreadsOk (applyPass e u o ws later s) := by
  unfold applyPass
  extract_lets +onlyGivenNames _ _ _ w3 w4 _ _ w7
  have hw3 : ThreadsOk w3 := threadsOk_engWrite (threadsOk_foldl (fun _ _ h1 => threadsOk_applyLocal h1) h)
  have hw4 : ThreadsOk w4 := by
    dsimp only [w4]
    split <;> exact hw3
  have hw7 : ThreadsOk w7 := threadsOk_countConflicts hw4
  exact threadsOk_ite hw7 hw7

theorem threadsOk_endPass {e} (h : ThreadsOk s) : ThreadsOk (endPass e s) := by
  unfold endPass
  split
  · exact h
  · split
    · exact threadsOk_entryStop h
    · extract_lets +onlyGivenNames _
      split
      · exact threadsOk_applyPass h
      · exact threadsOk_entryStop h
      · exact threadsOk_entryStop h

theorem threadsOk_passEndStep (h : ThreadsOk s) : ThreadsOk (passEndStep s) :=
  threadsOk_foldl (fun _ _ h1 => threadsOk_atBlock (fun _ h2 => threadsOk_endPass h2) h1) h

theorem threadsOk_releaseEntry {e} (h : ThreadsOk s) : ThreadsOk (releaseEntry e s) := by
  unfold releaseEntry
  refine threadsOk_ite (threadsOk_closeEntry h) ?_
  exact threadsOk_ite h (threadsOk_ite (threadsOk_with (threadsOk_engWrite h)) (threadsOk_ite (threadsOk_closeEntry h) h))

theorem threadsOk_releaseStepE {n} (h : ThreadsOk s) : ThreadsOk (releaseStepE n s) := by
  unfold releaseStepE
  split
  · exact h
  · exact threadsOk_ite (threadsOk_atBlock (fun _ h1 => threadsOk_releaseEntry h1) h) h

theorem threadsOk_sbarInitOp {i n a} (h : ThreadsOk s) : ThreadsOk (sbarInitOp i n a s) := by
  unfold sbarInitOp
  split
  · exact threadsOk_stopStream h
  · extract_lets +onlyGivenNames _
    split
    · exact threadsOk_stopStream h
    · exact h

theorem threadsOk_sbarWaitOp {i n o a} (h : ThreadsOk s) : ThreadsOk (sbarWaitOp i n o a s) := by
  unfold sbarWaitOp
  split
  · exact threadsOk_stopStream h
  · exact threadsOk_ite h h

theorem threadsOk_xrdOp {i k o e} (h : ThreadsOk s) : ThreadsOk (xrdOp i k o e s) := threadsOk_ite h h

theorem threadsOk_sendOp (h : ThreadsOk s) : ThreadsOk (sendOp s) := threadsOk_settleSeq h

theorem threadsOk_streamArrive {n dst} (h : ThreadsOk s) : ThreadsOk (streamArrive n dst s) := by
  unfold streamArrive
  split
  · exact threadsOk_stopStream h
  · extract_lets +onlyGivenNames _
    split
    · exact threadsOk_stopStream h
    · next e1 =>
        have h1 := ThreadsOkIf.found (threadsOkIf_arriveBar h) e1
        exact h1

theorem threadsOk_streamRelease {scope mask} (h : ThreadsOk s) : ThreadsOk (streamRelease scope mask s).2 :=
  threadsOk_iteSnd (threadsOk_writeBackAll h) h

theorem threadsOk_streamPoint (h : ThreadsOk s) : ThreadsOk (streamPoint s) := by
  unfold streamPoint
  extract_lets +onlyGivenNames _
  split
  · refine threadsOk_ite ?_ ?_
    · split
      next e1 =>
        have h1 := threadsOk_part (·.2) e1 (threadsOk_streamRelease h)
        exact threadsOk_ite (threadsOk_streamArrive h1) h1
    · exact h
  · refine threadsOk_ite ?_ ?_
    · split
      next e1 =>
        have h1 := threadsOk_part (·.2) e1 (threadsOk_streamRelease h)
        exact threadsOk_ite h1 h1
    · exact h
  · exact h

theorem threadsOk_threadPoint (h : ThreadsOk s) : ThreadsOk (threadPoint s) := by
  unfold threadPoint
  extract_lets +onlyGivenNames _
  split
  · split
    next e1 =>
      have h1 := threadsOk_part (·.2) e1 (threadsOk_iteSnd (threadsOk_releaseStep h) h)
      exact threadsOk_ite h1 h1
  · split
    next e1 =>
      have h1 := threadsOk_part (·.2) e1 (threadsOk_releaseStep h)
      exact threadsOk_ite (threadsOk_applyArrive h1) h1
  · split
    next e1 =>
      have h1 := threadsOk_part (·.2) e1 (threadsOk_releaseStep h)
      exact threadsOk_ite (threadsOk_applyXred h1) h1
  · exact h

theorem threadsOk_queuedPoint {slot lane} (h : ThreadsOk s) : ThreadsOk (queuedPoint slot lane s) := by
  unfold queuedPoint
  extract_lets +onlyGivenNames w
  have hw : ThreadsOk w := by
    dsimp only [w]
    split
    · exact threadsOk_stepQueued h
    · exact h
  split
  · exact threadsOk_stepPut hw
  · exact hw

theorem threadsOk_pointStep {who} (h : ThreadsOk s) : ThreadsOk (pointStep who s) := by
  unfold pointStep
  split
  · exact threadsOk_asSeq (fun _ h1 => threadsOk_streamPoint h1) h
  · extract_lets +onlyGivenNames w
    have hw : ∀ x s, ThreadsOk s → ThreadsOk (w x s) := fun _ _ h1 => threadsOk_asThread (fun _ h2 => threadsOk_threadPoint h2)
      (threadsOk_queuedPoint h1)
    exact threadsOk_ite (hw _ _ h) (threadsOk_inOther (fun _ h1 => hw _ _ h1) h)

/-! ## The swap, the save and the restore of a context -/

theorem threadsOk_pollCommand (h : ThreadsOk s) : ThreadsOk (pollCommand s) := by
  unfold pollCommand
  extract_lets +onlyGivenNames w
  have hw : ThreadsOk w := threadsOk_commandDone h
  split
  · exact threadsOk_ite h hw
  · exact threadsOk_ite h hw
  · split
    · exact threadsOk_ite h hw
    · exact h
  · exact h

theorem threadsOk_planeSwapStep (h : ThreadsOk s) : ThreadsOk (planeSwapStep s) := by
  have held := threadsOk_stow h
  unfold planeSwapStep
  extract_lets +onlyGivenNames u
  refine threadsOk_ite held ?_
  extract_lets +onlyGivenNames mine v w
  have hv : ThreadsOk v := threadsOk_foldl (fun _ _ h => by split <;> exact threadsOk_with h) held
  obtain ⟨pl, standby, th, slots, images⟩ : ThreadsOk w := threadsOk_with hv
  exact ⟨inOrder_map pl staysPut_swapThread, standby, th, slots, images⟩

theorem threadsOk_swapEndStep (h : ThreadsOk s) : ThreadsOk (swapEndStep s) := by
  have held := threadsOk_stow h
  unfold swapEndStep
  extract_lets +onlyGivenNames u
  split
  · exact held
  · refine threadsOk_ite held ?_
    obtain ⟨pl, standby, th, slots, images⟩ := held
    exact threadsOk_pollCommand ⟨standby, pl, th, slots, images⟩

theorem threadsOk_slotReads {c rs k} (hk : ∀ s, ThreadsOk s → ThreadsOk (k s)) (h : ThreadsOk s) : ThreadsOk (slotReads c rs k s) := by
  unfold slotReads
  refine threadsOk_ite h ?_
  split
  · exact threadsOk_freeze h
  · exact hk _ h

theorem threadsOk_slotWrites {c ws k} (hk : ∀ s, ThreadsOk s → ThreadsOk (k s)) (h : ThreadsOk s) : ThreadsOk (slotWrites c ws k s) := by
  unfold slotWrites
  extract_lets +onlyGivenNames _
  refine threadsOk_ite h ?_
  split
  · exact threadsOk_freeze (threadsOk_commitLines h)
  · exact hk _ (threadsOk_commitLines h)

theorem threadsOk_clusterFreed {x} (h : ThreadsOk s) : ThreadsOk (clusterFreed s x) := threadsOk_stowSeq h

theorem threadsOk_saveStep (h : ThreadsOk s) : ThreadsOk (saveStep s) := by
  have held := threadsOk_stow h
  unfold saveStep
  extract_lets +onlyGivenNames u p
  split
  · exact held
  · refine threadsOk_ite held ?_
    extract_lets +onlyGivenNames base x b engine
    split
    next i v e =>
    extract_lets +onlyGivenNames _ _ _ _ _ _ _
    have slot : PlaneOk x.standby.plane := planeOk_standby held
    have hv : ThreadsOk v := threadsOk_part (·.2) e (threadsOk_with held)
    refine threadsOk_slotWrites (fun w hw => ?_) hv
    obtain ⟨pl, -, th, slots, images⟩ := threadsOk_clusterFreed (x := x) hw
    refine threadsOk_pollCommand ⟨pl, planeOk_fresh, th, fun y mem => ?_, images⟩
    rcases List.mem_append.1 mem with mem | mem
    · exact slots y (List.mem_of_mem_filter mem)
    · exact List.mem_singleton.1 mem ▸ slot

theorem threadsOk_standbyFree (h : ThreadsOk s) : ThreadsOk (standbyFree s).2 := threadsOk_inOther (fun _ h1 => threadsOk_writeBackAll h1) h

theorem threadsOk_restoreStartStep {c} (h : ThreadsOk s) : ThreadsOk (restoreStartStep c s) := by
  unfold restoreStartStep
  split
  · exact h
  · next x found =>
    have slot : PlaneOk x.standby.plane := planeOk_slot h (List.mem_of_find?_eq_some found)
    refine threadsOk_ite h (threadsOk_slotReads (fun v hv => threadsOk_ite hv ?_) h)
    split
    next ok w e =>
    have hw : ThreadsOk w := threadsOk_part (·.2) e (threadsOk_standbyFree hv)
    exact threadsOk_ite (threadsOk_standby slot hw) hw

theorem threadsOk_slotSpent {c} (h : ThreadsOk s) : ThreadsOk (slotSpent c s) := by
  unfold slotSpent
  extract_lets +onlyGivenNames _ u v
  have hv : ThreadsOk v := threadsOk_commitQuiet (threadsOk_commitQuiet h)
  exact threadsOk_slots (fun x mem => planeOk_slot hv (List.mem_of_mem_filter mem)) hv

theorem threadsOk_slotCorrupt {c} (h : ThreadsOk s) : ThreadsOk (slotCorrupt c s) :=
  threadsOk_pollCommand (threadsOk_unmapContext (threadsOk_ctxError h))

theorem threadsOk_restoreDoneStep (h : ThreadsOk s) : ThreadsOk (restoreDoneStep s) := by
  unfold restoreDoneStep
  split
  · refine threadsOk_slotReads (fun v hv => threadsOk_ite (threadsOk_slotCorrupt hv) ?_) h
    extract_lets +onlyGivenNames _ w
    have hw : ThreadsOk w := threadsOk_standby (planeOk_readBanks (planeOk_standby hv)) hv
    exact threadsOk_ite (threadsOk_standby (planeOk_standby hw) hw)
      (threadsOk_ite (threadsOk_standby (planeOk_standby hw) (threadsOk_slotSpent hw)) (threadsOk_slotCorrupt hw))
  · exact h

theorem threadsOk_settleAdopted (h : ThreadsOk s) : ThreadsOk (settleAdopted s) := threadsOk_foldl (fun _ _ h1 => threadsOk_settleStop h1) h

theorem threadsOk_engineImageStep (h : ThreadsOk s) : ThreadsOk (engineImageStep s) := by
  unfold engineImageStep
  extract_lets +onlyGivenNames _
  split
  · exact h
  · refine threadsOk_ite h ?_
    refine threadsOk_slotReads (fun _ h1 => ?_) h
    exact threadsOk_ite (threadsOk_slotCorrupt h1) (threadsOk_ite (threadsOk_slotSpent (threadsOk_settleAdopted h1)) (threadsOk_settleAdopted h1))

end

end Sys2Proof.Laws
end

section
/-! PROOF. The threads of the planes, through the host port, the root core, checkpoints, links, the harts and the end of a cycle (R2, R122,
R169, R386,
R393 to R410). -/

namespace Sys2Proof.Laws

open Sys2Proof Sys2Proof.Machine

set_option Elab.async false

section

variable {s t : State}

/-! ## The host port -/

theorem threadsOk_setCmd {c} (h : ThreadsOk s) : ThreadsOk (setCmd c s) := threadsOk_with h

theorem threadsOk_withHeld {f} (hf : ∀ s, ThreadsOk s → ThreadsOk (f s)) (h : ThreadsOk s) : ThreadsOk (withHeld f s) :=
  threadsOk_ite (hf _ h) (hf _ h)

theorem threadsOk_commandGo {ok body} (hbody : ∀ s, ThreadsOk s → ThreadsOk (body s)) (h : ThreadsOk s) : ThreadsOk (commandGo ok body s) :=
  threadsOk_withHeld (fun _ h1 => threadsOk_ite h1 (threadsOk_ite h1 (hbody _ h1))) h

theorem threadsOk_command {k body} (hbody : ∀ s, ThreadsOk s → ThreadsOk (body s)) (h : ThreadsOk s) : ThreadsOk (command k body s) :=
  threadsOk_commandGo (fun _ h1 => hbody _ h1) h

theorem threadsOk_commandReads {c rs body} (hbody : ∀ s, ThreadsOk s → ThreadsOk (body s)) (h : ThreadsOk s) :
    ThreadsOk (commandReads c rs body s) := by
  unfold commandReads
  split
  · exact threadsOk_with (threadsOk_freeze h)
  · exact hbody _ h

theorem threadsOk_mapCmd (h : ThreadsOk s) : ThreadsOk (mapCmd s) := by
  unfold mapCmd
  refine threadsOk_commandReads (fun _ h1 => ?_) h
  refine threadsOk_ite (threadsOk_with h1) ?_
  split
  · exact threadsOk_with (threadsOk_freeze h1)
  · split
    next e2 =>
      have h2 := threadsOk_part (·.2) e2 (threadsOk_mapQueue h1)
      split
      · exact threadsOk_commandDone h2
      · exact threadsOk_ite (threadsOk_with h2) (threadsOk_with (threadsOk_freeze h1))

theorem threadsOk_preemptCmd (h : ThreadsOk s) : ThreadsOk (preemptCmd s) := threadsOk_pollCommand h

theorem threadsOk_resumeCtx {c} (h : ThreadsOk s) : ThreadsOk (resumeCtx c s) := threadsOk_ite h h

theorem threadsOk_resumeCmd (h : ThreadsOk s) : ThreadsOk (resumeCmd s) :=
  threadsOk_pollCommand (threadsOk_setCmd (threadsOk_resumeCtx (threadsOk_ite (threadsOk_with h) h)))

theorem threadsOk_clearCmd (h : ThreadsOk s) : ThreadsOk (clearCmd s) := threadsOk_commandDone h

theorem threadsOk_regGraphCmd (h : ThreadsOk s) : ThreadsOk (regGraphCmd s) := by
  unfold regGraphCmd
  extract_lets +onlyGivenNames _ _ w2 w3
  have hw2 : ∀ x s, ThreadsOk s → ThreadsOk (w2 x s) := fun _ _ h1 => threadsOk_ctxError h1
  have hw3 : ∀ x s, ThreadsOk s → ThreadsOk (w3 x s) := by
    intro _ _ h1
    dsimp only [w3]
    split
    · exact threadsOk_with (threadsOk_freeze h1)
    · exact h1
    · exact hw2 _ _ (threadsOk_linkLost h1)
    · exact hw2 _ _ h1
  refine threadsOk_ite (hw2 _ _ h) ?_
  split
  · exact hw3 _ _ h
  · extract_lets +onlyGivenNames _ _
    refine threadsOk_ite (hw2 _ _ h) ?_
    refine threadsOk_ite (hw2 _ _ h) ?_
    split
    · exact hw3 _ _ h
    · split
      · exact hw2 _ _ h
      · exact threadsOk_commandDone h

theorem threadsOk_renewFwaits {c lo hi} (h : ThreadsOk s) : ThreadsOk (renewFwaits c lo hi s) :=
  threadsOk_ite (threadsOk_foldl (fun _ _ h1 => h1) (threadsOk_updThreads (fun _ => ⟨rfl, rfl, rfl⟩) h)) h

theorem threadsOk_invalCmd (h : ThreadsOk s) : ThreadsOk (invalCmd s) :=
  threadsOk_pollCommand (threadsOk_with (threadsOk_dropTranslations (threadsOk_renewFwaits h)))

theorem threadsOk_copyCmd (h : ThreadsOk s) : ThreadsOk (copyCmd s) := by
  unfold copyCmd
  extract_lets +onlyGivenNames _ _ _ w3
  have hw3 : ∀ s, ThreadsOk s → ThreadsOk (w3 s) := fun _ h1 => threadsOk_commandDone h1
  refine threadsOk_ite h ?_
  split
  · exact threadsOk_with (threadsOk_freeze h)
  · exact threadsOk_with (threadsOk_engMiss h)
  · exact threadsOk_ite (threadsOk_with (threadsOk_with (threadsOk_engFault h))) (threadsOk_with (threadsOk_engFault h))
  · exact hw3 _ (threadsOk_linkLost h)
  · exact h
  · exact threadsOk_ite (hw3 _ h) h

theorem threadsOk_setRead {body} (hbody : ∀ s, ThreadsOk s → ThreadsOk (body s)) (h : ThreadsOk s) : ThreadsOk (setRead body s) :=
  threadsOk_commandReads (fun _ h1 => hbody _ h1) h

theorem threadsOk_checkpointCmd (h : ThreadsOk s) : ThreadsOk (checkpointCmd s) := threadsOk_ite (threadsOk_commandDone h) h

theorem threadsOk_restoreCmd (h : ThreadsOk s) : ThreadsOk (restoreCmd s) := threadsOk_ite (threadsOk_commandDone h) h

theorem threadsOk_irqmaskStep {hi v} (h : ThreadsOk s) : ThreadsOk (irqmaskStep hi v s) := threadsOk_foldl (fun _ _ h1 => h1) h

theorem threadsOk_registerWriteStep {off v} (h : ThreadsOk s) : ThreadsOk (registerWriteStep off v s) :=
  threadsOk_ite h (threadsOk_ite h (threadsOk_ite (threadsOk_ite h h) (threadsOk_ite h h)))

theorem threadsOk_apertureRead {pa n} (h : ThreadsOk s) : ThreadsOk (apertureRead pa n s) :=
  threadsOk_ite (threadsOk_ite h h) (threadsOk_ite h (threadsOk_portGate (fun _ h1 => h1) h))

theorem threadsOk_hostCommit {pa bs bad} (h : ThreadsOk s) : ThreadsOk (hostCommit pa bs bad s) := threadsOk_with (threadsOk_commitLines h)

theorem threadsOk_hostWrite {pa bs bad} (h : ThreadsOk s) : ThreadsOk (hostWrite pa bs bad s) :=
  threadsOk_portGate (fun _ h1 => threadsOk_hostCommit h1) h

theorem threadsOk_apertureWrite {pa bs bad} (h : ThreadsOk s) : ThreadsOk (apertureWrite pa bs bad s) :=
  threadsOk_ite h (threadsOk_ite h (threadsOk_hostWrite h))

theorem threadsOk_thermalStep {temp} (h : ThreadsOk s) : ThreadsOk (thermalStep temp s) := threadsOk_ite h (threadsOk_ite h h)

/-! ## The root core -/

theorem threadsOk_mbReply {seq result data} (h : ThreadsOk s) : ThreadsOk (mbReply seq result data s) := threadsOk_setIrq h

theorem threadsOk_mbServe {op mine states lenOk body req} (hbody : ∀ x s, ThreadsOk s → ThreadsOk (body x s)) (h : ThreadsOk s) :
    ThreadsOk (mbServe op mine states lenOk body req s) :=
  threadsOk_ite h (threadsOk_ite (threadsOk_mbReply h) (threadsOk_ite (threadsOk_mbReply h) (hbody _ _ h)))

theorem threadsOk_attestBody {seq} (h : ThreadsOk s) : ThreadsOk (attestBody seq s) := threadsOk_mbReply h

theorem threadsOk_certBody {seq} (h : ThreadsOk s) : ThreadsOk (certBody seq s) := threadsOk_mbReply h

theorem threadsOk_timeSetBody {seq} (h : ThreadsOk s) : ThreadsOk (timeSetBody seq s) := threadsOk_mbReply h

theorem threadsOk_keepSync (h : ThreadsOk s) : ThreadsOk (keepSync s) := threadsOk_with h

theorem threadsOk_settleDomain (h : ThreadsOk s) : ThreadsOk (settleDomain s) := threadsOk_with h

theorem threadsOk_domainBody {seq} (h : ThreadsOk s) : ThreadsOk (domainBody seq s) := by
  unfold domainBody
  extract_lets +onlyGivenNames w ports m present kind self
  refine threadsOk_ite (threadsOk_mbReply h) (threadsOk_ite ?_ (threadsOk_ite (threadsOk_mbReply h) (threadsOk_mbReply (threadsOk_settleDomain ?_))))
  · exact threadsOk_ite (threadsOk_mbReply h) (threadsOk_ite (threadsOk_mbReply h) (threadsOk_mbReply (threadsOk_keepSync (threadsOk_with h))))
  · exact threadsOk_with h

theorem threadsOk_grantBody {seq} (h : ThreadsOk s) : ThreadsOk (grantBody seq s) :=
  threadsOk_ite (threadsOk_mbReply h) (threadsOk_ite (threadsOk_mbReply h) (threadsOk_mbReply h))

theorem threadsOk_revokeBody {seq} (h : ThreadsOk s) : ThreadsOk (revokeBody seq s) := threadsOk_ite (threadsOk_mbReply h) (threadsOk_mbReply h)

theorem threadsOk_exportBody {seq} (h : ThreadsOk s) : ThreadsOk (exportBody seq s) := threadsOk_ite (threadsOk_mbReply h) (threadsOk_mbReply h)

theorem threadsOk_portAgain {r k} (hk : ∀ s, ThreadsOk s → ThreadsOk (k s)) (h : ThreadsOk s) : ThreadsOk (portAgain r k s) :=
  threadsOk_ite h (hk _ h)

theorem threadsOk_dropMsgs {m} (h : ThreadsOk s) : ThreadsOk (dropMsgs m s) := threadsOk_with h

theorem threadsOk_resetMaster {m} (h : ThreadsOk s) : ThreadsOk (resetMaster m s) := by
  have held : ThreadsOk (dropMsgs m s.stow) := threadsOk_with (threadsOk_stow h)
  unfold resetMaster
  extract_lets +onlyGivenNames u
  refine threadsOk_ite (threadsOk_with (threadsOk_planes planeOk_fresh (b := { plane := freshPlane }) planeOk_fresh held)) ?_
  exact threadsOk_ite (threadsOk_with held) (threadsOk_ite (threadsOk_with held) (threadsOk_ite (threadsOk_with held)
    (threadsOk_ite (threadsOk_with held) held)))

theorem threadsOk_thaw {m} (h : ThreadsOk s) : ThreadsOk (thaw m s) := threadsOk_with h

theorem threadsOk_unfreezeBody {action seq} (haction : ∀ x y s, ThreadsOk s → ThreadsOk (action x y s)) (h : ThreadsOk s) :
    ThreadsOk (unfreezeBody action seq s) := by
  unfold unfreezeBody
  extract_lets +onlyGivenNames _
  refine threadsOk_ite (threadsOk_mbReply h) ?_
  split
  · exact threadsOk_mbReply h
  · exact threadsOk_mbReply (haction _ _ _ h)

theorem threadsOk_resetAction {m f} (h : ThreadsOk s) : ThreadsOk (resetAction m f s) :=
  threadsOk_pollCommand <| threadsOk_thaw <| threadsOk_resetMaster <|
    threadsOk_foldl (fun _ _ h => threadsOk_unmapContext (threadsOk_ctxError h)) <| threadsOk_dropMsgs <| threadsOk_stow h

theorem threadsOk_fwLoadBody {seq len} (h : ThreadsOk s) : ThreadsOk (fwLoadBody seq len s) := by
  unfold fwLoadBody
  exact threadsOk_ite (threadsOk_mbReply h) (threadsOk_ite (threadsOk_mbReply h) (threadsOk_ite h (threadsOk_mbReply h)))

theorem threadsOk_verifyStep (h : ThreadsOk s) : ThreadsOk (verifyStep s) :=
  threadsOk_ite h (threadsOk_ite (threadsOk_mbReply h) (threadsOk_mbReply h))

theorem threadsOk_resetStep (h : ThreadsOk s) : ThreadsOk (resetStep s) := by
  obtain ⟨-, -, -, -, images⟩ := h
  exact ⟨planeOk_fresh, planeOk_fresh, fun live => absurd live Bool.false_ne_true, List.forall_mem_nil _, images⟩

theorem threadsOk_portsOut {l} (h : ThreadsOk s) : ThreadsOk (portsOut l s) := threadsOk_ite h (threadsOk_setIrq h)

/-! ## Checkpoints -/

theorem threadsOk_writeHeader {x v} (h : ThreadsOk s) : ThreadsOk (writeHeader x v s) := by
  unfold writeHeader
  exact threadsOk_with h

theorem threadsOk_beginStream (h : ThreadsOk s) : ThreadsOk (beginStream s) := by
  obtain ⟨pl, standby, th, slots, images⟩ := h
  refine threadsOk_writeHeader ⟨pl, standby, th, slots, fun x mem => ?_⟩
  rcases List.mem_cons.1 mem with rfl | mem
  · exact slots
  · exact images x (List.mem_of_mem_filter mem)

theorem threadsOk_passBarrier (h : ThreadsOk s) : ThreadsOk (passBarrier s) := by
  unfold passBarrier
  split
  · exact threadsOk_ite (threadsOk_beginStream h) h
  · exact h

theorem threadsOk_quiesceStep (h : ThreadsOk s) : ThreadsOk (quiesceStep s) := by
  unfold quiesceStep
  split
  · exact threadsOk_ite h h
  · exact threadsOk_ite (threadsOk_passBarrier (threadsOk_stow h)) (threadsOk_stow h)
  · exact h

theorem threadsOk_quiescedStep {m} (h : ThreadsOk s) : ThreadsOk (quiescedStep m s) := threadsOk_passBarrier h

theorem threadsOk_releaseHeld (h : ThreadsOk s) : ThreadsOk (releaseHeld s) := by
  unfold releaseHeld
  extract_lets +onlyGivenNames _ _ _ w3
  have hw3 : ThreadsOk w3 := threadsOk_foldl (fun _ _ h1 => threadsOk_portAgain (fun _ h2 => threadsOk_hostWrite h2) h1) h
  exact threadsOk_ite (threadsOk_foldl (fun _ _ h1 => threadsOk_resumeCtx h1) hw3) hw3

theorem threadsOk_abandonStep (h : ThreadsOk s) : ThreadsOk (abandonStep s) := by
  unfold abandonStep
  split
  · exact threadsOk_ite h (threadsOk_commandDone (threadsOk_releaseHeld h))
  · exact h

theorem threadsOk_closeStep (h : ThreadsOk s) : ThreadsOk (closeStep s) := by
  unfold closeStep
  split
  · extract_lets u
    have hu : ThreadsOk u := by
      dsimp only [u]
      split
      · exact threadsOk_writeHeader h
      · exact h
    exact threadsOk_commandDone (threadsOk_setIrq (threadsOk_releaseHeld hu))
  · exact h

theorem threadsOk_emptied (h : ThreadsOk s) : ThreadsOk (emptied s) := by
  obtain ⟨-, -, -, slots, images⟩ := threadsOk_dead h
  exact ⟨planeOk_fresh, planeOk_fresh, fun live => absurd live Bool.false_ne_true, slots, images⟩

theorem threadsOk_adoptImage {x : CkptImage} (h : ThreadsOk s) : ThreadsOk (adoptImage x s) := by
  unfold adoptImage
  extract_lets u
  refine threadsOk_with (threadsOk_slots (l := x.slots.map fun y => { y with standby := { y.standby with plane := y.standby.plane.tidy } }) ?_
    (threadsOk_emptied h))
  simp only [List.mem_map, forall_exists_index, and_imp, forall_apply_eq_imp_iff₂]
  exact fun y _ => planeOk_tidy y.standby.plane

theorem threadsOk_readImage {home} (h : ThreadsOk s) : ThreadsOk (readImage home s).2.2.2 := by
  unfold readImage
  split
  next e1 =>
    have h1 := threadsOk_part (·.2) e1 (threadsOk_with h)
    split
    · split <;> exact h1
    · exact h1

theorem threadsOk_failRestore {m n} (h : ThreadsOk s) : ThreadsOk (failRestore m n s) := by
  unfold failRestore
  extract_lets u
  have hu : ThreadsOk u := threadsOk_foldl (fun _ _ h => threadsOk_unmapContext h) h
  exact threadsOk_with (threadsOk_slots (l := []) (List.forall_mem_nil _) hu)

theorem threadsOk_readBackStep (h : ThreadsOk s) : ThreadsOk (readBackStep s) := by
  unfold readBackStep
  split
  · extract_lets +onlyGivenNames _ w1
    have hw1 : ∀ x p s, ThreadsOk s → ThreadsOk (w1 x p s) := fun _ _ _ h1 => threadsOk_commandDone (threadsOk_setIrq (threadsOk_failRestore h1))
    refine threadsOk_ite (hw1 _ _ _ h) ?_
    split
    · next e1 =>
        have h1 := threadsOk_part (·.2.2.2) e1 (threadsOk_readImage h)
        exact hw1 _ _ _ h1
    · next e1 =>
        have h1 := threadsOk_part (·.2.2.2) e1 (threadsOk_readImage h)
        exact threadsOk_ite (threadsOk_commandDone (threadsOk_setIrq (threadsOk_adoptImage h1))) (hw1 _ _ _ h1)
  · exact h

/-! ## Warp collectives -/

theorem threadsOk_joinColl {c me mask inh} (h : ThreadsOk s) : ThreadsOk (joinColl c me mask inh s) := by
  unfold joinColl
  extract_lets +onlyGivenNames _
  refine threadsOk_ite (threadsOk_failColl h) ?_
  extract_lets +onlyGivenNames _
  split
  · exact threadsOk_settleColl h
  · exact threadsOk_foldl (fun _ _ h1 => threadsOk_failColl h1) h

theorem threadsOk_collOp {i f o} (h : ThreadsOk s) : ThreadsOk (collOp i f o s) :=
  threadsOk_ite (threadsOk_raise h) (threadsOk_joinColl (threadsOk_hold h))

/-! ## Control and status registers -/

theorem threadsOk_csrSet {n v} (h : ThreadsOk s) : ThreadsOk (csrSet n v s) := threadsOk_updTh (by split <;> exact ⟨rfl, rfl, rfl⟩) h

theorem threadsOk_spillAll {c} (h : ThreadsOk s) : ThreadsOk (spillAll c s) :=
  threadsOk_foldl (fun _ _ h1 => threadsOk_ite (threadsOk_spillTrigs h1) h1) h

theorem threadsOk_csrForce {c n v} (h : ThreadsOk s) : ThreadsOk (csrForce c n v s) := threadsOk_ite (threadsOk_spillAll h) h

theorem threadsOk_csrwOp {i n o} (h : ThreadsOk s) : ThreadsOk (csrwOp i n o s) := by
  unfold csrwOp
  extract_lets +onlyGivenNames _
  split
  · exact threadsOk_hold h
  · exact threadsOk_finish (threadsOk_csrSet h)

/-! ## The fetch unit -/

theorem threadsOk_forgetLines {f ls} (h : ThreadsOk s) : ThreadsOk (forgetLines f ls s) :=
  threadsOk_ite (threadsOk_foldl (fun _ _ h1 => threadsOk_l1Forget (threadsOk_l1Forget h1)) h) h

theorem threadsOk_leaseLines {c ls} (h : ThreadsOk s) : ThreadsOk (leaseLines c ls s).2.2 := by
  unfold leaseLines
  generalize e : ((2 ^ 64, 0, s) : Nat × Nat × State) = x
  have hx : ThreadsOk x.2.2 := e ▸ h
  clear e h
  induction ls generalizing x with
  | nil => exact hx
  | cons l ls ih => exact ih _ (threadsOk_grantLease hx)

theorem threadsOk_fetchUnit {f key build inX} (h : ThreadsOk s) : ThreadsOk (fetchUnit f key build inX s).2 := by
  unfold fetchUnit
  split
  · exact threadsOk_iteSnd h (threadsOk_forgetLines h)
  · split
    extract_lets +onlyGivenNames _ _
    split
    · exact h
    · refine threadsOk_iteSnd h ?_
      refine threadsOk_iteSnd ?_ ?_
      · split
        next e1 =>
          have h1 := threadsOk_part (·.2) e1 (threadsOk_with h)
          exact h1
      · extract_lets +onlyGivenNames _
        split
        next e1 =>
          have h1 := threadsOk_part (·.2.2) e1 (threadsOk_leaseLines (threadsOk_forgetLines h))
          exact h1

theorem threadsOk_fetchHandle {f va} (h : ThreadsOk s) : ThreadsOk (fetchHandle f va s).2 := by
  unfold fetchHandle
  exact threadsOk_fetchUnit h

theorem threadsOk_fetchUnits {f d l} (h : ThreadsOk s) : ThreadsOk (fetchUnits f d l s).2 := by
  induction l generalizing s with
  | nil => exact h
  | cons k t ih =>
    unfold fetchUnits
    split
    · next e => exact threadsOk_part (·.2) e (threadsOk_fetchUnit h)
    · next e => exact ih (threadsOk_part (·.2) e (threadsOk_fetchUnit h))

theorem threadsOk_fgetIssue {i df o} (h : ThreadsOk s) : ThreadsOk (fgetIssue i df o s) := by
  unfold fgetIssue
  extract_lets +onlyGivenNames _
  split
  · exact threadsOk_raise h
  · exact threadsOk_hold h

theorem threadsOk_fgetStop {handle e} (h : ThreadsOk s) : ThreadsOk (fgetStop handle e s) := by
  unfold fgetStop
  extract_lets +onlyGivenNames _
  split
  · exact threadsOk_ite (threadsOk_with (threadsOk_engFault h)) (threadsOk_engFault h)
  · exact threadsOk_engMiss h
  · exact threadsOk_freeze h
  · exact h
  · exact threadsOk_raise h
  · exact threadsOk_raise h
  · exact threadsOk_raise h
  · exact threadsOk_raise (threadsOk_linkLost h)

theorem threadsOk_fgetStep (h : ThreadsOk s) : ThreadsOk (fgetStep s) := by
  unfold fgetStep
  split
  · extract_lets +onlyGivenNames _ w1
    have hw1 : ∀ x s, ThreadsOk s → ThreadsOk (w1 x s) := fun _ _ h1 => threadsOk_raise h1
    split
    · next e1 =>
        have h1 := threadsOk_part (·.2) e1 (threadsOk_fetchHandle h)
        exact threadsOk_fgetStop h1
    · next e1 =>
        have h1 := threadsOk_part (·.2) e1 (threadsOk_fetchHandle h)
        split
        · exact threadsOk_raise h1
        · refine threadsOk_ite (hw1 _ _ h1) ?_
          split
          · exact threadsOk_fgetStop h1
          · exact hw1 _ _ h1
          · refine threadsOk_ite (hw1 _ _ h1) ?_
            split
            · next e2 =>
                have h2 := threadsOk_part (·.2) e2 (threadsOk_fetchUnits h1)
                exact threadsOk_fgetStop h2
            · next e2 =>
                have h2 := threadsOk_part (·.2) e2 (threadsOk_fetchUnits h1)
                split
                · exact threadsOk_fgetStop h2
                · exact h2
  · exact h

theorem threadsOk_fgetbIssue {i o} (h : ThreadsOk s) : ThreadsOk (fgetbIssue i o s) := by
  unfold fgetbIssue
  extract_lets +onlyGivenNames _
  split
  · exact threadsOk_raise h
  · refine threadsOk_ite h ?_
    refine threadsOk_ite h ?_
    refine threadsOk_arrGate (fun _ h1 => ?_) h
    split
    next e2 =>
      have h2 := threadsOk_part (·.2) e2 (threadsOk_newOp h1)
      exact threadsOk_finish h2

theorem threadsOk_postFetch {c code detail vt} (h : ThreadsOk s) : ThreadsOk (postFetch c code detail vt s) := by
  unfold postFetch
  exact threadsOk_asThread (fun _ h1 => threadsOk_updTh (staysPut_ite (⟨rfl, rfl, rfl⟩)) h1) <| threadsOk_arriveEngine <|
    threadsOk_wakeQueue h

theorem threadsOk_fetchStop {c e} (h : ThreadsOk s) : ThreadsOk (fetchStop c e s) := by
  unfold fetchStop
  split
  · exact threadsOk_ite (threadsOk_with (threadsOk_engFault h)) (threadsOk_engFault h)
  · exact threadsOk_engMiss h
  · exact threadsOk_freeze h
  · exact h
  · exact threadsOk_postFetch h
  · exact threadsOk_postFetch h
  · exact threadsOk_postFetch h
  · exact threadsOk_postFetch (threadsOk_linkLost h)

theorem threadsOk_fetchPiece {c rows} (h : ThreadsOk s) : ThreadsOk (fetchPiece c rows s) := by
  unfold fetchPiece
  extract_lets +onlyGivenNames _ w1 _ _
  have hw1 : ThreadsOk w1 := by
    dsimp only [w1]
    split <;> exact h
  exact threadsOk_ite (threadsOk_postFetch hw1) hw1

theorem threadsOk_fetchRow {c row0 col0 off rows cols} (h : ThreadsOk s) : ThreadsOk (fetchRow c row0 col0 off rows cols s) := by
  unfold fetchRow
  extract_lets +onlyGivenNames _ _ _
  refine threadsOk_ite (threadsOk_fetchPiece h) ?_
  split
  · next e1 =>
      have h1 := threadsOk_part (·.2) e1 (threadsOk_fetchUnits h)
      exact threadsOk_fetchStop h1
  · next e1 =>
      have h1 := threadsOk_part (·.2) e1 (threadsOk_fetchUnits h)
      split
      · exact threadsOk_fetchStop h1
      · exact threadsOk_fetchPiece h1

theorem threadsOk_fgetbStep {c} (h : ThreadsOk s) : ThreadsOk (fgetbStep c s) := by
  unfold fgetbStep
  extract_lets +onlyGivenNames _ _ _
  refine threadsOk_ite h ?_
  refine threadsOk_ite (threadsOk_postFetch h) ?_
  refine threadsOk_ite (threadsOk_fetchRow h) ?_
  split
  · next e1 =>
      have h1 := threadsOk_part (·.2) e1 (threadsOk_fetchHandle h)
      exact threadsOk_fetchStop h1
  · next e1 =>
      have h1 := threadsOk_part (·.2) e1 (threadsOk_fetchHandle h)
      extract_lets +onlyGivenNames _
      refine threadsOk_ite (threadsOk_postFetch h1) ?_
      split
      · exact threadsOk_fetchStop h1
      · exact threadsOk_ite (threadsOk_postFetch h1) (threadsOk_fetchRow h1)

/-! ## Links and the domain -/

theorem threadsOk_timeMessageStep {time} (h : ThreadsOk s) : ThreadsOk (timeMessageStep time s) :=
  threadsOk_ite (threadsOk_ite h h) (threadsOk_ite h (threadsOk_ite h (threadsOk_setIrq h)))

theorem threadsOk_sendBeats (h : ThreadsOk s) : ThreadsOk (sendBeats s) := threadsOk_ite h h

theorem threadsOk_isolate {m} (h : ThreadsOk s) : ThreadsOk (isolate m s) := threadsOk_ite h h

theorem threadsOk_heartbeatTimeoutStep {m} (h : ThreadsOk s) : ThreadsOk (heartbeatTimeoutStep m s) :=
  threadsOk_ite h (threadsOk_setIrq (threadsOk_isolate h))

theorem threadsOk_portFail {p} (h : ThreadsOk s) : ThreadsOk (portFail p s) := threadsOk_ite (threadsOk_portsOut h) h

theorem threadsOk_poisonMsg {p id} (h : ThreadsOk s) : ThreadsOk (poisonMsg p id s) := by
  unfold poisonMsg
  split
  · extract_lets +onlyGivenNames _
    refine threadsOk_ite h ?_
    split
    · exact h
    · exact threadsOk_ite h h
    · exact threadsOk_foldl (fun _ _ h1 => threadsOk_amoArrive h1) (threadsOk_maybeRemote h)
    · exact h
  · exact h

theorem threadsOk_flitPoison {p id} (h : ThreadsOk s) : ThreadsOk (flitPoison p id s) :=
  threadsOk_ite (threadsOk_atMsg (fun _ h1 => threadsOk_poisonMsg h1) h) h

theorem threadsOk_flitStep {p second id} (h : ThreadsOk s) : ThreadsOk (flitStep p second id s) :=
  threadsOk_ite h (threadsOk_ite (threadsOk_portFail (threadsOk_flitPoison (threadsOk_rasLog h))) (threadsOk_rasLog h))

theorem threadsOk_unreachableStep {id} (h : ThreadsOk s) : ThreadsOk (unreachableStep id s) := by
  unfold unreachableStep
  split
  · extract_lets +onlyGivenNames _
    refine threadsOk_ite h ?_
    split
    · exact threadsOk_linkLost h
    · exact threadsOk_linkLost (threadsOk_maybeRemote h)
    · exact threadsOk_linkLost (threadsOk_foldl (fun _ _ h1 => threadsOk_amoArrive h1) (threadsOk_maybeRemote h))
    · exact h
  · exact h

theorem threadsOk_serveRemote {rq} (h : ThreadsOk s) : ThreadsOk (serveRemote rq s) := by
  unfold serveRemote
  extract_lets +onlyGivenNames _
  split
  · exact threadsOk_ite (threadsOk_with h) (threadsOk_with h)
  · split
    next e1 =>
      have h1 := threadsOk_part (·.1) e1 <| by
        refine threadsOk_foldl_fst (fun _ _ h1 => ?_) h
        split
        next e2 =>
          have h2 := threadsOk_part (·.1) e2 (threadsOk_commit h1)
          exact h2
      exact threadsOk_with h1
  · refine threadsOk_ite (threadsOk_with h) ?_
    extract_lets +onlyGivenNames _
    split
    · exact threadsOk_with h
    · split
      next e1 =>
        have h1 := threadsOk_part (·.1) e1 (threadsOk_commit h)
        exact threadsOk_with h1
  · exact threadsOk_ite (threadsOk_with h) (threadsOk_ite (threadsOk_with h) (threadsOk_with h))

theorem threadsOk_remoteStep {rq} (h : ThreadsOk s) : ThreadsOk (remoteStep rq s) :=
  threadsOk_ite h (threadsOk_ite h (threadsOk_portGate (fun _ h1 => threadsOk_serveRemote h1) h))

theorem threadsOk_settlePorts (h : ThreadsOk s) : ThreadsOk (settlePorts s) := by
  unfold settlePorts
  extract_lets +onlyGivenNames _
  refine threadsOk_foldl (fun _ _ h1 => ?_) h
  refine threadsOk_portAgain (fun _ h2 => ?_) h1
  split
  · exact threadsOk_apertureRead h2
  · exact threadsOk_apertureWrite h2
  · exact threadsOk_remoteStep h2

/-! ## Moves of work -/

theorem threadsOk_addMove {l es} (h : ThreadsOk s) : ThreadsOk (addMove l es s) := threadsOk_ite h h

theorem threadsOk_pullDie (h : ThreadsOk s) : ThreadsOk (pullDie s) := by
  unfold pullDie
  refine threadsOk_ite h ?_
  split
  · exact h
  · exact threadsOk_addMove (threadsOk_ite h h)

theorem threadsOk_pullCluster (h : ThreadsOk s) : ThreadsOk (pullCluster s) := threadsOk_ite h (threadsOk_addMove h)

theorem threadsOk_pullCore (h : ThreadsOk s) : ThreadsOk (pullCore s) := threadsOk_ite h (threadsOk_ite (threadsOk_addMove h) (threadsOk_addMove h))

theorem threadsOk_pullStep {l} (h : ThreadsOk s) : ThreadsOk (pullStep l s) := by
  unfold pullStep
  split
  · exact threadsOk_pullDie h
  · exact threadsOk_pullCluster h
  · exact threadsOk_pullCore h

theorem threadsOk_coreTake {l} (h : ThreadsOk s) : ThreadsOk (coreTake l s).2 := by
  induction l generalizing s with
  | nil => exact h
  | cons e t ih =>
    unfold coreTake
    split
    · next e => exact ih ((threadsOkIf_corePush h).found e)
    · exact h

theorem threadsOk_moveDone (h : ThreadsOk s) : ThreadsOk (moveDone s) := by
  unfold moveDone
  split
  · exact h
  · extract_lets +onlyGivenNames w _ _
    have hw : ∀ x s, ThreadsOk s → ThreadsOk (w x s) := fun _ _ h1 => threadsOk_ite h1 h1
    split
    · exact threadsOk_getD (threadsOkIf_dieTake h) (hw _ _ h)
    · exact threadsOk_getD (threadsOkIf_clusterTake h) (hw _ _ h)
    · exact hw _ _ (threadsOk_coreTake h)

theorem threadsOk_ringRefill {q c} (h : ThreadsOk s) : ThreadsOk (ringRefill q c s) := by
  unfold ringRefill
  refine threadsOk_ite h ?_
  split
  · exact h
  · exact threadsOk_ite h h

theorem threadsOk_trigRefill {q c} (h : ThreadsOk s) : ThreadsOk (trigRefill q c s) := threadsOk_ite h h

theorem threadsOk_reportLost {q c} (h : ThreadsOk s) : ThreadsOk (reportLost q c s) := threadsOk_ite h (threadsOk_ctxError h)

theorem threadsOk_dispatchTrig {q} (h : ThreadsOk s) : ThreadsOk (dispatchTrig q s) := by
  unfold dispatchTrig
  refine threadsOk_ite h ?_
  split
  · exact h
  · split
    · exact h
    · extract_lets +onlyGivenNames _
      split
      · exact h
      · next e1 =>
          have h1 := ThreadsOkIf.found (threadsOkIf_segPush h) e1
          exact h1

/-! ## The register window -/

theorem threadsOk_wbaseOp {i o} (h : ThreadsOk s) : ThreadsOk (wbaseOp i o s) := threadsOk_ite (threadsOk_raise h) (threadsOk_finish h)

theorem threadsOk_wisetOp {i o} (h : ThreadsOk s) : ThreadsOk (wisetOp i o s) := threadsOk_ite (threadsOk_raise h) (threadsOk_finish h)

theorem threadsOk_vrgatOp {i o} (h : ThreadsOk s) : ThreadsOk (vrgatOp i o s) := by
  unfold vrgatOp
  split
  · exact threadsOk_raise h
  · exact threadsOk_ite (threadsOk_raise h) (threadsOk_result h)

theorem threadsOk_vrscaOp {i o} (h : ThreadsOk s) : ThreadsOk (vrscaOp i o s) := by
  unfold vrscaOp
  split
  · exact threadsOk_raise h
  · exact threadsOk_result h

/-! ## The harts -/

theorem threadsOk_csrWriteM {n v} (h : ThreadsOk s) : ThreadsOk (csrWriteM n v s) := threadsOk_with h

theorem threadsOk_rvPut {len rd v} (h : ThreadsOk s) : ThreadsOk (rvPut len rd v s) := threadsOk_with h

theorem threadsOk_rvStore {addr bs} (h : ThreadsOk s) : ThreadsOk (rvStore addr bs s) := threadsOk_with (threadsOk_commitQuiet h)

theorem threadsOk_rvAfter {k} (hk : ∀ s, ThreadsOk s → ThreadsOk (k s)) (h : ThreadsOk s) : ThreadsOk (rvAfter k s) := threadsOk_ite h (hk _ h)

theorem threadsOk_rvLoad {len w} (h : ThreadsOk s) : ThreadsOk (rvLoad len w s) := threadsOk_hartRead (fun _ _ h1 => h1) h

theorem threadsOk_rvAtomic {len w} (h : ThreadsOk s) : ThreadsOk (rvAtomic len w s) := by
  unfold rvAtomic
  extract_lets +onlyGivenNames n addr b ext me go
  have goes : ∀ s, ThreadsOk s → ThreadsOk (go s) := fun s h => by
    dsimp only [go]
    split
    · exact threadsOk_hartRead (fun _ _ h => threadsOk_rvPut (threadsOk_with h)) h
    · exact threadsOk_hartAccess (fun _ h => threadsOk_rvPut (threadsOk_ite (threadsOk_rvStore (threadsOk_with h)) (threadsOk_with h))) h
    · refine threadsOk_hartRead (fun _ _ h => threadsOk_rvPut ?_) h
      split
      · exact threadsOk_rvStore h
      · exact h
  exact threadsOk_ite (threadsOk_rvAfter goes h) (goes s h)

theorem threadsOk_rvCsr {len w bad} (hbad : ∀ s, ThreadsOk s → ThreadsOk (bad s)) (h : ThreadsOk s) : ThreadsOk (rvCsr len w bad s) := by
  unfold rvCsr
  extract_lets +onlyGivenNames n src writes
  split
  · exact hbad s h
  · exact threadsOk_ite (hbad s h) (threadsOk_rvPut (threadsOk_ite (threadsOk_csrWriteM h) h))

theorem threadsOk_rvSystem {len w bad} (hbad : ∀ s, ThreadsOk s → ThreadsOk (bad s)) (h : ThreadsOk s) : ThreadsOk (rvSystem len w bad s) :=
  threadsOk_ite h (threadsOk_ite h (threadsOk_ite h (threadsOk_ite h (hbad _ h))))

theorem threadsOk_rvExec {w len raw} (h : ThreadsOk s) : ThreadsOk (rvExec w len raw s) := by
  unfold rvExec
  extract_lets +onlyGivenNames _ _ _ _ _ _ _ _
  split
  · exact h
  · exact h
  · exact h
  · exact threadsOk_ite h h
  · split <;> exact h
  · exact threadsOk_ite h (threadsOk_rvLoad h)
  · exact threadsOk_ite h (threadsOk_hartAccess (fun _ h1 => threadsOk_with (threadsOk_rvStore h1)) h)
  · exact threadsOk_ite h h
  · exact threadsOk_ite h h
  · exact threadsOk_ite h (threadsOk_ite h h)
  · exact threadsOk_ite h (threadsOk_ite h h)
  · exact threadsOk_ite h (threadsOk_rvAfter (fun _ h1 => h1) h)
  · exact threadsOk_ite (threadsOk_rvSystem (fun _ h1 => h1) h) (threadsOk_ite h (threadsOk_rvCsr (fun _ h1 => h1) h))
  · exact threadsOk_ite (threadsOk_rvAtomic h) h
  · exact h

theorem threadsOk_hartStep (h : ThreadsOk s) : ThreadsOk (hartStep s) := by
  unfold hartStep
  extract_lets +onlyGivenNames _
  refine threadsOk_ite (threadsOk_rvExec h) ?_
  split
  · exact threadsOk_rvExec h
  · exact h

/-! ## What comes next -/

theorem staysPut_waitWord (t : Thread) : StaysPut t (waitWord s t) := by
  unfold waitWord
  split <;> exact ⟨rfl, rfl, rfl⟩

theorem threadsOk_pick (h : ThreadsOk s) : ThreadsOk (pick s) := by
  obtain ⟨pl, standby, th, slots, images⟩ := threadsOk_stow h
  refine ⟨inOrder_map pl fun t => ?_, standby, th, slots, images⟩
  split
  · exact ⟨rfl, rfl, rfl⟩
  · split
    · exact ⟨rfl, rfl, rfl⟩
    · exact staysPut_ite (staysPut_waitWord t)

theorem threadsOk_bringThread {who rest} (h : ThreadsOk s) : ThreadsOk (bringThread who rest s) := threadsOk_fetchThread h

theorem threadsOk_bringSeq {n} (h : ThreadsOk s) : ThreadsOk (bringSeq n s) := threadsOk_fetchSeq h

/-! ## Time -/

theorem threadsOk_wakeTimed (h : ThreadsOk s) : ThreadsOk (wakeTimed s) := threadsOk_updThreads (fun _ => ⟨rfl, rfl, rfl⟩) h

theorem threadsOk_holdAges (h : ThreadsOk s) : ThreadsOk (holdAges s) := threadsOk_with h

theorem threadsOk_driftAll (h : ThreadsOk s) : ThreadsOk (driftAll s) :=
  threadsOk_ite h (threadsOk_images (l := s.images.filter _) (fun _ mem => List.mem_of_mem_filter mem) (threadsOk_with h))

theorem threadsOk_passTime (h : ThreadsOk s) : ThreadsOk (passTime s) := by
  unfold passTime
  extract_lets +onlyGivenNames _ u v
  have hu : ThreadsOk u := threadsOk_with (threadsOk_stow h)
  have hv : ThreadsOk v := threadsOk_wakeTimed (threadsOk_holdAges (threadsOk_sendBeats (threadsOk_driftAll hu)))
  exact threadsOk_settleBells <| threadsOk_settleShakes <| threadsOk_settlePorts <| threadsOk_settleNotices <| threadsOk_settleExiles <|
    threadsOk_wakeWct <| threadsOk_wakeStores hv

theorem threadsOk_tick (h : ThreadsOk s) : ThreadsOk (tick s) := by
  unfold tick
  extract_lets u v
  have hv : ThreadsOk v := threadsOk_pollCommand (threadsOk_driveGraphs (threadsOk_settleDomain (threadsOk_passTime h)))
  clear_value v
  exact threadsOk_with hv

end

end Sys2Proof.Laws
end

section
/-! PROOF. The threads of the planes, through every instruction (R117 to R119, R361). -/

namespace Sys2Proof.Laws

open Sys2Proof Sys2Proof.Machine

set_option Elab.async false

section

variable {s t : State}

/-- What an instruction answers keeps the threads. -/
def ThreadsKeptBy (x : Answer) : Prop := ∀ t, x = .next t → ThreadsOk t

theorem threadsKeptBy_next (h : ThreadsOk s) : ThreadsKeptBy (.next s) := fun _ e => Host.Outcome.next.inj e ▸ h

theorem threadsKeptBy_ite {c : Prop} [Decidable c] {x y : Answer} (hx : ThreadsKeptBy x) (hy : ThreadsKeptBy y) :
    ThreadsKeptBy (if c then x else y) := by
  split
  · exact hx
  · exact hy

/-! ## The operations that run an instruction -/

section

variable {i : Ins} {thread stream : Opnds → State → State} {bad : State → State}

theorem threadsKeptBy_run (hThread : ∀ o s, ThreadsOk s → ThreadsOk (thread o s)) (hStream : ∀ o s, ThreadsOk s → ThreadsOk (stream o s))
    (h : ThreadsOk s) : ThreadsKeptBy (run i thread stream s) := by
  unfold run
  split
  · exact threadsKeptBy_next (threadsOk_streamStep hStream h)
  · exact threadsKeptBy_next (threadsOk_simtStep hThread h)

theorem threadsKeptBy_runThread (hThread : ∀ o s, ThreadsOk s → ThreadsOk (thread o s)) (h : ThreadsOk s) : ThreadsKeptBy (runThread i thread s) :=
  threadsKeptBy_run hThread (fun _ _ h => threadsOk_stopStream h) h

theorem threadsKeptBy_runStream (hStream : ∀ o s, ThreadsOk s → ThreadsOk (stream o s)) (h : ThreadsOk s) : ThreadsKeptBy (runStream i stream s) :=
  threadsKeptBy_run (fun _ _ h => threadsOk_raise h) hStream h

theorem threadsKeptBy_runQuiet (hBad : ∀ s, ThreadsOk s → ThreadsOk (bad s)) (hThread : ∀ o s, ThreadsOk s → ThreadsOk (thread o s))
    (h : ThreadsOk s) : ThreadsKeptBy (runQuiet i bad thread s) := by
  unfold runQuiet
  split
  · exact threadsKeptBy_next (threadsOk_streamStep (fun _ _ h => threadsOk_stopStream h) h)
  · exact threadsKeptBy_next (threadsOk_simtQuiet hBad hThread h)

theorem threadsKeptBy_runFloat (hThread : ∀ o s, ThreadsOk s → ThreadsOk (thread o s)) (h : ThreadsOk s) : ThreadsKeptBy (runFloat i thread s) := by
  unfold runFloat
  split
  · exact threadsKeptBy_next (threadsOk_streamStep (fun _ _ h => threadsOk_stopStream h) h)
  · exact threadsKeptBy_next (threadsOk_simtFloat hThread h)

theorem threadsKeptBy_csrRun {n : BitVec 14} {isWrite : Bool} (hThread : ∀ o s, ThreadsOk s → ThreadsOk (thread o s)) (h : ThreadsOk s) :
    ThreadsKeptBy (csrRun i n isWrite thread s) :=
  threadsKeptBy_ite (threadsKeptBy_runThread hThread h) (threadsKeptBy_next (threadsOk_raise h))

end

/-! ## Results and waits of streams -/

theorem threadsOk_resultS {i : Ins} {o : Opnds} {v : DWord} {lo hi : Nat} (h : ThreadsOk s) : ThreadsOk (resultS i o v lo hi s) := threadsOk_with h

theorem threadsOk_holdS {i : Ins} {pk : SPark} (h : ThreadsOk s) : ThreadsOk (holdS i pk s) := threadsOk_with h

theorem threadsOk_sfenceOp {i : Ins} {c m} (h : ThreadsOk s) : ThreadsOk (sfenceOp i c m s) := threadsOk_holdS h

/-! ## What other units do -/

theorem threadsOk_resumed (h : ThreadsOk s) : ThreadsOk (s.updTh Thread.resume) := threadsOk_updTh (staysPut_resume _) h

theorem threadsOk_resumeWith {dst v lat} (h : ThreadsOk s) : ThreadsOk (resumeWith dst v lat s) := threadsOk_resumed (threadsOk_with h)

theorem threadsOk_powerStep {w} (h : ThreadsOk s) : ThreadsOk (powerStep w s) := threadsOk_with h

theorem threadsOk_heartbeatStep {m} (h : ThreadsOk s) : ThreadsOk (heartbeatStep m s) := threadsOk_with h

theorem threadsKeptBy_atThread {who : Agent} {f : State → State} (hf : ∀ s, ThreadsOk s → ThreadsOk (f s)) (h : ThreadsOk s) :
    ThreadsKeptBy (.next (s.atThread who f)) :=
  threadsKeptBy_next (threadsOk_atThread hf h)

theorem threadsKeptBy_hostFlit {f : State → State} (hf : ∀ s, ThreadsOk s → ThreadsOk (f s)) (h : ThreadsOk s) :
    ThreadsKeptBy (.next (hostFlit f s)) :=
  threadsKeptBy_next (threadsOk_hostFlit hf h)

theorem threadsKeptBy_mbServe {op mine states lenOk body req} (hBody : ∀ seq s, ThreadsOk s → ThreadsOk (body seq s)) (h : ThreadsOk s) :
    ThreadsKeptBy (.next (mbServe op mine states lenOk body req s)) :=
  threadsKeptBy_next (threadsOk_mbServe hBody h)

theorem threadsKeptBy_registerResultWrite {who tag} (h : ThreadsOk s) : ThreadsKeptBy (execRegisterResultWrite who tag s) := by
  have thread : ∀ s, ThreadsOk s → ThreadsOk (s.updTh fun t => t.complete fun r => r.tag == tag && minPassed s.clock.cycle r) :=
    fun _ h => threadsOk_updTh (staysPut_complete ..) h
  cases who with
  | stream n => exact threadsKeptBy_next (threadsOk_asSeq (fun _ h => threadsOk_with h) h)
  | thread slot lane => exact threadsKeptBy_atThread thread h

theorem threadsKeptBy_instructionFetchFill {who} (h : ThreadsOk s) : ThreadsKeptBy (execInstructionFetchFill who s) := by
  cases who with
  | stream n => exact threadsKeptBy_next (threadsOk_asSeq (fun _ h => threadsOk_fetchFillS h) h)
  | thread slot lane => exact threadsKeptBy_atThread (fun _ h => threadsOk_fetchFill h) h

theorem threadsKeptBy_yieldExpiry {who} (h : ThreadsOk s) : ThreadsKeptBy (execYieldExpiry who s) := by
  refine threadsKeptBy_atThread (fun s h => ?_) h
  split
  · exact threadsOk_ite (threadsOk_resumed h) h
  · exact h

theorem threadsKeptBy_readyAgeMark {who} (h : ThreadsOk s) : ThreadsKeptBy (execReadyAgeMark who s) :=
  threadsKeptBy_atThread (fun _ h => threadsOk_updTh (staysPut_ite ⟨rfl, rfl, rfl⟩) h) h

theorem threadsKeptBy_trapEntry {who} (h : ThreadsOk s) : ThreadsKeptBy (execTrapEntry who s) := by
  refine threadsKeptBy_atThread (fun s h => ?_) h
  split
  · exact threadsOk_ite (threadsOk_enterTrap h) h
  · exact h

theorem threadsKeptBy_icinvComplete {who} (h : ThreadsOk s) : ThreadsKeptBy (execIcinvComplete who s) := by
  refine threadsKeptBy_atThread (fun s h => ?_) h
  split
  · exact threadsOk_ite h (threadsOk_updTh ⟨rfl, rfl, rfl⟩ (threadsOk_with h))
  · exact h

theorem threadsKeptBy_flushComplete {who} (h : ThreadsOk s) : ThreadsKeptBy (execFlushComplete who s) := by
  refine threadsKeptBy_atThread (fun s h => ?_) h
  split
  · exact threadsOk_ite h (threadsOk_resumed h)
  · exact h

theorem threadsKeptBy_csrwInForce {who} (h : ThreadsOk s) : ThreadsKeptBy (execCsrwInForce who s) := by
  refine threadsKeptBy_atThread (fun s h => ?_) h
  split
  · exact threadsOk_resumed (threadsOk_csrForce h)
  · exact h

theorem threadsKeptBy_watchComplete {who} (h : ThreadsOk s) : ThreadsKeptBy (execWatchComplete who s) := by
  refine threadsKeptBy_atThread (fun s h => ?_) h
  split
  · exact threadsOk_resumeWith (threadsOk_with h)
  · exact h

theorem threadsKeptBy_unwatchComplete {who} (h : ThreadsOk s) : ThreadsKeptBy (execUnwatchComplete who s) := by
  refine threadsKeptBy_atThread (fun s h => ?_) h
  split
  · next d id discard _ =>
    have stopped : ThreadsOk (stopAtt s.ctxNo id s) := threadsOk_with h
    have rest : ThreadsOk (if discard then discardRecords (stopAtt s.ctxNo id s).ctxNo id (stopAtt s.ctxNo id s) else stopAtt s.ctxNo id s) :=
      threadsOk_ite (threadsOk_discardRecords stopped) stopped
    exact threadsOk_ite rest (threadsOk_resumeWith (threadsOk_with rest))
  · exact h

theorem threadsKeptBy_wshrinkComplete {who} (h : ThreadsOk s) : ThreadsKeptBy (execWshrinkComplete who s) := by
  refine threadsKeptBy_atThread (fun s h => ?_) h
  split
  · exact threadsOk_ite h (threadsOk_shrinkTo (threadsOk_updTh ⟨rfl, rfl, rfl⟩ h))
  · exact h

theorem threadsKeptBy_poolRelComplete {who} (h : ThreadsOk s) : ThreadsKeptBy (execPoolRelComplete who s) := by
  refine threadsKeptBy_atThread (fun s h => ?_) h
  split
  · exact threadsOk_ite h (threadsOk_releaseScratch (threadsOk_updTh ⟨rfl, rfl, rfl⟩ h))
  · exact h

theorem threadsKeptBy_cWritebackDone (h : ThreadsOk s) : ThreadsKeptBy (execCWritebackDone s) := by
  unfold execCWritebackDone
  split
  · refine threadsKeptBy_ite (threadsKeptBy_next h) (threadsKeptBy_ite ?_ ?_)
    · exact threadsKeptBy_next (threadsOk_with (threadsOk_writeBackBanks h))
    · exact threadsKeptBy_next (threadsOk_nextShakes (threadsOk_answerReq (threadsOk_giveBanks (threadsOk_with h))))
  · exact threadsKeptBy_next h

theorem threadsKeptBy_relocationComplete (h : ThreadsOk s) : ThreadsKeptBy (execRelocationComplete s) := by
  unfold execRelocationComplete
  split
  · refine threadsKeptBy_ite (threadsKeptBy_next h) (threadsKeptBy_next ?_)
    exact threadsOk_nextShakes (threadsOk_wakeStores (threadsOk_answerReq (threadsOk_trimArena (threadsOk_with
      (threadsOk_with (threadsOk_foldl (fun _ _ h => threadsOk_updBlock h) h))))))
  · exact threadsKeptBy_next h

theorem threadsKeptBy_mcastWindowClose {w} (h : ThreadsOk s) : ThreadsKeptBy (execMcastWindowClose w s) := by
  refine threadsKeptBy_next ?_
  split
  · exact threadsOk_ite (threadsOk_closeWindow h) h
  · exact h

theorem threadsKeptBy_mcastSlotFree {w} (h : ThreadsOk s) : ThreadsKeptBy (execMcastSlotFree w s) := by
  refine threadsKeptBy_next ?_
  split
  · exact threadsOk_ite (threadsOk_with h) h
  · exact h

theorem threadsKeptBy_copyOpStart (h : ThreadsOk s) : ThreadsKeptBy (execCopyOpStart s) :=
  threadsKeptBy_next (threadsOk_foldl (fun _ _ h => threadsOk_ite (threadsOk_serveCopy h) (threadsOk_inCtx (fun _ h => threadsOk_serveCopy h) h)) h)

theorem threadsKeptBy_fgetbComplete {id} (h : ThreadsOk s) : ThreadsKeptBy (execFgetbComplete id s) := by
  refine threadsKeptBy_next ?_
  split
  · exact threadsOk_ite (threadsOk_inCtx (fun _ h => threadsOk_fgetbStep h) h) h
  · exact h

theorem threadsKeptBy_eccRetry {site how} (h : ThreadsOk s) : ThreadsKeptBy (execEccRetry site how s) := by
  refine threadsKeptBy_next ?_
  cases how with
  | corrected => exact threadsOk_with h
  | transient => exact threadsOk_rasLog (threadsOk_eccTransient h)
  | lasting => exact threadsOk_rasLog (threadsOk_eccLasting h)

theorem threadsKeptBy_trainComplete {t} (h : ThreadsOk s) : ThreadsKeptBy (execTrainComplete t s) :=
  threadsKeptBy_next (threadsOk_ite (threadsOk_portsOut (threadsOk_with h)) h)

theorem threadsKeptBy_pldmRequest {sel} (h : ThreadsOk s) : ThreadsKeptBy (execPldmRequest sel s) := by
  refine threadsKeptBy_next ?_
  split
  · exact threadsOk_with h
  · exact h

/-! ## Every instruction -/

/-- The cases are grouped by the operation that runs the instruction. -/
theorem threadsKeptBy_exec {i : Instr} (h : ThreadsOk s) : ThreadsKeptBy (exec i s) := by
  cases i with
  | add | sub | and | or | xor | andn | shl | shr | sar | rot | min | max | minn | maxn | mul | mulh | mulhn | div | divn | rem | remn | adds
  | subs | addsn | subsn | eq | ne | lt | le | ltn | len | clz | popc | brev | abs | neg | sel | mla | add64 | sub64 | mul64 | mov64 | shl64
  | shr64 | sar64 | addx | addxn | eq64 | lt64 | ltn64 | addi | andi | ori | xori | shli | shri | sari | roti | slti | sltni | addxi | movh
  | movl => exact threadsKeptBy_run (fun _ _ h => threadsOk_result h) (fun _ _ h => threadsOk_resultS h) h
  | bz | bnz | bltz | bgez =>
    exact threadsKeptBy_run (fun _ _ h => threadsOk_ite (threadsOk_jumpTo h) (threadsOk_finish h))
      (fun _ _ h => threadsOk_ite (threadsOk_jumpToS h) (threadsOk_finishS h)) h
  | faddS | fsubS | fmulS | fminS | fmaxS | fdivS | fsqrtS | frcpS | fabsS | fnegS | fmaS | fnmaS | fscl | feqS | fltS | fleS | funS | faddD
  | fsubD | fmulD | fminD | fmaxD | fdivD | fsqrtD | frcpD | fabsD | fnegD | fmaD | fnmaD | feqD | fltD | fleD | funD | faddH2 | fsubH2 | fmulH2
  | fminH2 | fmaxH2 | fdivH2 | fsqrtH2 | frcpH2 | fabsH2 | fnegH2 | fmaH2 | fnmaH2 | faddB2 | fsubB2 | fmulB2 | fminB2 | fmaxB2 | fdivB2
  | fsqrtB2 | frcpB2 | fabsB2 | fnegB2 | fmaB2 | fnmaB2 | feqH2 | fltH2 | fleH2 | funH2 | feqB2 | fltB2 | fleB2 | funB2 | fexp2 | flog2 | fsin
  | fcos | frsq | ftanh | cvt | fclass => exact threadsKeptBy_runFloat (fun _ _ h => threadsOk_result h) h
  | cvtp | cvtq => exact threadsKeptBy_runFloat (fun _ _ h => threadsOk_ite (threadsOk_result h) (threadsOk_result h)) h
  | ldB | ldBs | ldH | ldHs | ldW | ldD | ldQ | ldO => exact threadsKeptBy_run (fun _ _ h => threadsOk_loadG h) (fun _ _ h => threadsOk_loadGS h) h
  | stB | stH | stW | stD | stQ | stO => exact threadsKeptBy_run (fun _ _ h => threadsOk_storeG h) (fun _ _ h => threadsOk_storeGS h) h
  | amoAdd | amoAnd | amoOr | amoXor | amoMin | amoMax | amoMinn | amoMaxn | amoSwap | amoCas | amoFadd | amoAddb2 | amoAddh2 | amoAdd64
  | amoCas64 | amoInc => exact threadsKeptBy_runThread (fun _ _ h => threadsOk_atomicG h) h
  | samoAdd | samoAnd | samoOr | samoXor | samoMin | samoMax | samoMinn | samoMaxn | samoSwap | samoCas | samoFadd | samoAddb2 | samoAddh2
  | samoAdd64 | samoCas64 | samoInc => exact threadsKeptBy_runThread (fun _ _ h => threadsOk_atomicS h) h
  | fence | fenceAcq | fenceRel => exact threadsKeptBy_runThread (fun _ _ h => threadsOk_afterDeferred (fun _ h => threadsOk_hold h) h) h
  | wvoteAny | wvoteAll | wballot | wredAdd | wredFadd | wredMin | wredMax | wscanAdd | wscanFadd | wsegscanAdd | wsegscanFadd | wisect | wnz
  | wmm | wsync | wperm => exact threadsKeptBy_runThread (fun _ _ h => threadsOk_collOp h) h
  | jmp | jr => exact threadsKeptBy_run (fun _ _ h => threadsOk_jumpTo h) (fun _ _ h => threadsOk_jumpToS h) h
  | call | callr => exact threadsKeptBy_run (fun _ _ h => threadsOk_callTo h) (fun _ _ h => threadsOk_callToS h) h
  | ret => exact threadsKeptBy_run (fun _ _ h => threadsOk_retOp h) (fun _ _ h => threadsOk_retOpS h) h
  | exit => exact threadsKeptBy_runThread (fun _ _ h => threadsOk_exitOp h) h
  | nop => exact threadsKeptBy_run (fun _ _ h => threadsOk_finish h) (fun _ _ h => threadsOk_finishS h) h
  | yield => exact threadsKeptBy_runThread (fun _ _ h => threadsOk_yieldOp h) h
  | trap | brk | pfxWord | reservedMajor => exact threadsKeptBy_runThread (fun _ _ h => threadsOk_raise h) h
  | rett => exact threadsKeptBy_runThread (fun _ _ h => threadsOk_rettOp h) h
  | brxZ | brxNz | brxLtz | brxGez => exact threadsKeptBy_runThread (fun _ _ h => threadsOk_brxOp h) h
  | cont => exact threadsKeptBy_runThread (fun _ _ h => threadsOk_contOp h) h
  | qput => exact threadsKeptBy_runThread (fun _ _ h => threadsOk_qputOp h) h
  | watch => exact threadsKeptBy_runQuiet (fun _ h => threadsOk_watchPoisoned h) (fun _ _ h => threadsOk_watchOp h) h
  | unwatch => exact threadsKeptBy_runQuiet (fun _ h => threadsOk_watchPoisoned h) (fun _ _ h => threadsOk_unwatchOp h) h
  | wgrow => exact threadsKeptBy_runQuiet (fun _ h => threadsOk_poolPoisoned h) (fun _ _ h => threadsOk_wgrowOp h) h
  | wshrink => exact threadsKeptBy_runQuiet (fun _ h => threadsOk_poolPoisoned h) (fun _ _ h => threadsOk_wshrinkOp h) h
  | wbase => exact threadsKeptBy_runThread (fun _ _ h => threadsOk_wbaseOp h) h
  | wiset => exact threadsKeptBy_runThread (fun _ _ h => threadsOk_wisetOp h) h
  | vrgat => exact threadsKeptBy_runThread (fun _ _ h => threadsOk_vrgatOp h) h
  | vrsca => exact threadsKeptBy_runThread (fun _ _ h => threadsOk_vrscaOp h) h
  | poolReq => exact threadsKeptBy_runQuiet (fun _ h => threadsOk_poolPoisoned h) (fun _ _ h => threadsOk_poolReqOp h) h
  | poolRel => exact threadsKeptBy_runQuiet (fun _ h => threadsOk_poolPoisoned h) (fun _ _ h => threadsOk_poolRelOp h) h
  | poolMap => exact threadsKeptBy_runQuiet (fun _ h => threadsOk_poolPoisoned h) (fun _ _ h => threadsOk_poolMapOp h) h
  | poolOcc => exact threadsKeptBy_runQuiet (fun _ h => threadsOk_poolPoisoned h) (fun _ _ h => threadsOk_poolOccOp h) h
  | tstate => exact threadsKeptBy_runQuiet (fun _ h => threadsOk_poolPoisoned h) (fun _ _ h => threadsOk_tstateOp h) h
  | tmark => exact threadsKeptBy_runQuiet (fun _ h => threadsOk_poolPoisoned h) (fun _ _ h => threadsOk_tmarkOp h) h
  | ldmcQ => exact threadsKeptBy_runThread (fun _ _ h => threadsOk_loadMcast h) h
  | ldsW | ldsD | ldsQ => exact threadsKeptBy_runThread (fun _ _ h => threadsOk_loadS h) h
  | stsW | stsD | stsQ => exact threadsKeptBy_runThread (fun _ _ h => threadsOk_storeS h) h
  | wct => exact threadsKeptBy_runThread (fun _ _ h => threadsOk_wctOp h) h
  | flush => exact threadsKeptBy_runThread (fun _ _ h => threadsOk_flushRange h) h
  | icinv => exact threadsKeptBy_runThread (fun _ _ h => threadsOk_icinvRange h) h
  | fwait => exact threadsKeptBy_runThread (fun _ _ h => threadsOk_fwaitOp h) h
  | pref => exact threadsKeptBy_runQuiet (fun _ h => threadsOk_finish h) (fun _ _ h => threadsOk_prefOp h) h
  | nbInit => exact threadsKeptBy_runThread (fun _ _ h => threadsOk_nbInitOp h) h
  | nbArrive | nbMeet => exact threadsKeptBy_runThread (fun _ _ h => threadsOk_nbArriveOp h) h
  | nbWait => exact threadsKeptBy_runThread (fun _ _ h => threadsOk_nbWaitOp h) h
  | nbTest => exact threadsKeptBy_runThread (fun _ _ h => threadsOk_nbTestOp h) h
  | nbStat => exact threadsKeptBy_runThread (fun _ _ h => threadsOk_nbStatOp h) h
  | xredAdd | xredFadd | xredMax | xredOr => exact threadsKeptBy_runThread (fun _ _ h => threadsOk_xredOp1 h) h
  | cpy | mcpy => exact threadsKeptBy_runThread (fun _ _ h => threadsOk_copyIssue h) h
  | fget => exact threadsKeptBy_runThread (fun _ _ h => threadsOk_fgetIssue h) h
  | fgetb => exact threadsKeptBy_runThread (fun _ _ h => threadsOk_fgetbIssue h) h
  | tld | tst | tstc | tzero | tmov | tfree | tcvt | tlay | mma | mman | mms | tlu | tchol | tqr | ttrsl | ttrsu | ttrsn | tperm | tqapp
  | tqappt | svmv | svmm => exact threadsKeptBy_runStream (fun _ _ h => threadsOk_tileIssue h) h
  | sbarInit => exact threadsKeptBy_runStream (fun _ _ h => threadsOk_sbarInitOp h) h
  | sbarArrive => exact threadsKeptBy_runStream (fun _ _ h => threadsOk_holdS h) h
  | sbarWait => exact threadsKeptBy_runStream (fun _ _ h => threadsOk_sbarWaitOp h) h
  | xrd => exact threadsKeptBy_runStream (fun _ _ h => threadsOk_xrdOp h) h
  | sfence => exact threadsKeptBy_runStream (fun _ _ h => threadsOk_sfenceOp h) h
  | send => exact threadsKeptBy_runStream (fun _ _ h => threadsOk_sendOp h) h
  | sstat => exact threadsKeptBy_runStream (fun _ _ h => threadsOk_resultS h) h
  | setfmt => exact threadsKeptBy_runStream (fun _ _ h => threadsOk_finishS h) h
  | csrr => exact threadsKeptBy_csrRun (fun _ _ h => threadsOk_result h) h
  | csrw => exact threadsKeptBy_csrRun (fun _ _ h => threadsOk_csrwOp h) h
  | kwaitEq | kwaitNe | kwaitGeu => exact threadsKeptBy_next (threadsOk_kwaitOp h)
  | kwaitReread => exact threadsKeptBy_next (threadsOk_asHart (fun _ h => threadsOk_rereadStep h) h)
  | registerResultWrite => exact threadsKeptBy_registerResultWrite h
  | yieldExpiry => exact threadsKeptBy_yieldExpiry h
  | readyAgeMark => exact threadsKeptBy_readyAgeMark h
  | trapEntry => exact threadsKeptBy_trapEntry h
  | formerWarpRelease => exact threadsKeptBy_next (threadsOk_warpReleaseStep h)
  | formerPartialTimeout => exact threadsKeptBy_next (threadsOk_partialTimeoutStep h)
  | blockStart => exact threadsKeptBy_next (threadsOk_blockStartStep h)
  | queuePull => exact threadsKeptBy_next (threadsOk_pullStep h)
  | queueMoveComplete => exact threadsKeptBy_next (threadsOk_moveDone h)
  | wqRingRefill => exact threadsKeptBy_next (threadsOk_ringRefill h)
  | treeComplete => exact threadsKeptBy_next (threadsOk_treeCompleteStep h)
  | launch => exact threadsKeptBy_next (threadsOk_packetStep (fun _ _ _ h => threadsOk_launchAct h) h)
  | wait => exact threadsKeptBy_next (threadsOk_packetStep (fun _ _ _ h => threadsOk_waitAct h) h)
  | signal => exact threadsKeptBy_next (threadsOk_packetStep (fun _ _ _ h => threadsOk_signalAct h) h)
  | join => exact threadsKeptBy_next (threadsOk_packetStep (fun _ _ _ h => threadsOk_joinAct h) h)
  | cond => exact threadsKeptBy_next (threadsOk_packetStep (fun _ _ _ h => threadsOk_condAct h) h)
  | patch => exact threadsKeptBy_next (threadsOk_packetStep (fun _ _ _ h => threadsOk_patchAct h) h)
  | doorbell => exact threadsKeptBy_hostFlit (fun _ h => threadsOk_doorbellStep h) h
  | kick => exact threadsKeptBy_hostFlit (fun _ h => threadsOk_kickStep h) h
  | mapQueue => exact threadsKeptBy_next (threadsOk_command (fun _ h => threadsOk_mapCmd h) h)
  | unmapCtx => exact threadsKeptBy_next (threadsOk_command (fun _ h => threadsOk_commandDone (threadsOk_unmapContext h)) h)
  | clearError => exact threadsKeptBy_next (threadsOk_command (fun _ h => threadsOk_clearCmd h) h)
  | preempt => exact threadsKeptBy_next (threadsOk_command (fun _ h => threadsOk_preemptCmd h) h)
  | resume => exact threadsKeptBy_next (threadsOk_command (fun _ h => threadsOk_resumeCmd h) h)
  | regGraph => exact threadsKeptBy_next (threadsOk_command (fun _ h => threadsOk_regGraphCmd h) h)
  | inval => exact threadsKeptBy_next (threadsOk_command (fun _ h => threadsOk_invalCmd h) h)
  | copy => exact threadsKeptBy_next (threadsOk_command (fun _ h => threadsOk_copyCmd h) h)
  | checkpoint => exact threadsKeptBy_next (threadsOk_command (fun _ h => threadsOk_setRead (fun _ h => threadsOk_checkpointCmd h) h) h)
  | restore => exact threadsKeptBy_next (threadsOk_command (fun _ h => threadsOk_setRead (fun _ h => threadsOk_restoreCmd h) h) h)
  | badcmd => exact threadsKeptBy_next (threadsOk_commandGo (fun _ h => threadsOk_commandDone h) h)
  | irqmask => exact threadsKeptBy_hostFlit (fun _ h => threadsOk_irqmaskStep h) h
  | pwrcap | irqstatClear | ctxerrClear => exact threadsKeptBy_hostFlit (fun _ h => threadsOk_with h) h
  | registerWrite =>
    exact threadsKeptBy_next (threadsOk_ite (threadsOk_registerWriteStep h) (threadsOk_hostFlit (fun _ h => threadsOk_registerWriteStep h) h))
  | hostApertureRead => exact threadsKeptBy_next (threadsOk_apertureRead h)
  | hostApertureWrite => exact threadsKeptBy_next (threadsOk_apertureWrite h)
  | attest => exact threadsKeptBy_mbServe (fun _ _ h => threadsOk_attestBody h) h
  | cert => exact threadsKeptBy_mbServe (fun _ _ h => threadsOk_certBody h) h
  | timeSet => exact threadsKeptBy_mbServe (fun _ _ h => threadsOk_timeSetBody h) h
  | domainSet => exact threadsKeptBy_mbServe (fun _ _ h => threadsOk_domainBody h) h
  | grantRange => exact threadsKeptBy_mbServe (fun _ _ h => threadsOk_grantBody h) h
  | revokeRange => exact threadsKeptBy_mbServe (fun _ _ h => threadsOk_revokeBody h) h
  | setExportWindow => exact threadsKeptBy_mbServe (fun _ _ h => threadsOk_exportBody h) h
  | unfreezeResume => exact threadsKeptBy_mbServe (fun _ _ h => threadsOk_unfreezeBody (fun _ _ _ h => threadsOk_thaw h) h) h
  | unfreezeReset => exact threadsKeptBy_mbServe (fun _ _ h => threadsOk_unfreezeBody (fun _ _ _ h => threadsOk_resetAction h) h) h
  | fwLoad => exact threadsKeptBy_mbServe (fun _ _ h => threadsOk_fwLoadBody h) h
  | mailboxBadop => exact threadsKeptBy_next (threadsOk_ite h (threadsOk_mbReply (threadsOk_with h)))
  | fwVerify => exact threadsKeptBy_next (threadsOk_verifyStep h)
  | moduleReset => exact threadsKeptBy_next (threadsOk_resetStep h)
  | trainComplete => exact threadsKeptBy_trainComplete h
  | thermalPreempt | thermalPowerOff => exact threadsKeptBy_next (threadsOk_thermalStep h)
  | powerCapAdjust => exact threadsKeptBy_next (threadsOk_powerStep h)
  | timeMessage => exact threadsKeptBy_next (threadsOk_timeMessageStep h)
  | timeSyncLoss => exact threadsKeptBy_next (threadsOk_ite (threadsOk_setIrq (threadsOk_with h)) h)
  | heartbeat => exact threadsKeptBy_next (threadsOk_heartbeatStep h)
  | heartbeatTimeout => exact threadsKeptBy_next (threadsOk_heartbeatTimeoutStep h)
  | flitCrcFail => exact threadsKeptBy_next (threadsOk_flitStep h)
  | unreachableCompletion => exact threadsKeptBy_next (threadsOk_atMsg (fun _ h => threadsOk_unreachableStep h) h)
  | remoteRequest => exact threadsKeptBy_next (threadsOk_remoteStep h)
  | writeCommit => exact threadsKeptBy_next (threadsOk_atMsg (fun _ h => threadsOk_writeCommitStep h) h)
  | fwaitRetry => exact threadsKeptBy_atThread (fun _ h => threadsOk_fwaitStep h) h
  | writeAck => exact threadsKeptBy_next (threadsOk_atMsg (fun _ h => threadsOk_writeAckStep h) h)
  | fillRequest => exact threadsKeptBy_next (threadsOk_atMsg (fun _ h => threadsOk_fillRequestStep h) h)
  | fillReply => exact threadsKeptBy_next (threadsOk_atMsg (fun _ h => threadsOk_fillReplyStep h) h)
  | atomicAtHome => exact threadsKeptBy_next (threadsOk_atMsg (fun _ h => threadsOk_atomicStep1 h) h)
  | mcastRequest => exact threadsKeptBy_next (threadsOk_atMsg (fun _ h => threadsOk_mcastStep h) h)
  | mcastWindowClose => exact threadsKeptBy_mcastWindowClose h
  | mcastSlotFree => exact threadsKeptBy_mcastSlotFree h
  | releasePoint => exact threadsKeptBy_next (threadsOk_pointStep h)
  | icinvComplete => exact threadsKeptBy_icinvComplete h
  | flushComplete => exact threadsKeptBy_flushComplete h
  | csrwInForce => exact threadsKeptBy_csrwInForce h
  | watchComplete => exact threadsKeptBy_watchComplete h
  | unwatchComplete => exact threadsKeptBy_unwatchComplete h
  | triggerRefill => exact threadsKeptBy_next (threadsOk_trigRefill h)
  | trigOverflow => exact threadsKeptBy_next (threadsOk_reportLost h)
  | triggerDispatch => exact threadsKeptBy_next (threadsOk_dispatchTrig h)
  | cWritebackDone => exact threadsKeptBy_cWritebackDone h
  | relocationComplete => exact threadsKeptBy_relocationComplete h
  | wgrowGrant => exact threadsKeptBy_next (threadsOk_getD (threadsOkIf_serveGrow h) h)
  | wshrinkComplete => exact threadsKeptBy_wshrinkComplete h
  | poolRelComplete => exact threadsKeptBy_poolRelComplete h
  | passGrant => exact threadsKeptBy_next (threadsOk_grantStep h)
  | passEnd => exact threadsKeptBy_next (threadsOk_passEndStep h)
  | engineRelease => exact threadsKeptBy_next (threadsOk_releaseStepE h)
  | tileFetch => exact threadsKeptBy_next (threadsOk_tileFetchStep h)
  | copyOpStart => exact threadsKeptBy_copyOpStart h
  | copyOpComplete => exact threadsKeptBy_next (threadsOk_completeCopy h)
  | fgetDecode => exact threadsKeptBy_atThread (fun _ h => threadsOk_fgetStep h) h
  | fgetbComplete => exact threadsKeptBy_fgetbComplete h
  | faultRecordWrite => exact threadsKeptBy_next (threadsOk_writeFault h)
  | faultResponse => exact threadsKeptBy_next (threadsOk_answerFault h)
  | faultQueueReread => exact threadsKeptBy_next (threadsOk_rereadRidx h)
  | eccRetry => exact threadsKeptBy_eccRetry h
  | walkerGrant => exact threadsKeptBy_next (threadsOk_grantWalk h)
  | walkComplete => exact threadsKeptBy_next (threadsOk_walkEnd h)
  | planeSwap => exact threadsKeptBy_next (threadsOk_planeSwapStep h)
  | swapEnd => exact threadsKeptBy_next (threadsOk_swapEndStep h)
  | saveComplete => exact threadsKeptBy_next (threadsOk_saveStep h)
  | restoreStart => exact threadsKeptBy_next (threadsOk_restoreStartStep h)
  | restoreComplete => exact threadsKeptBy_next (threadsOk_restoreDoneStep h)
  | engineImageRestore => exact threadsKeptBy_next (threadsOk_engineImageStep h)
  | checkpointQuiesce => exact threadsKeptBy_next (threadsOk_quiesceStep h)
  | quiesced => exact threadsKeptBy_next (threadsOk_quiescedStep h)
  | checkpointAbandon => exact threadsKeptBy_next (threadsOk_abandonStep h)
  | checkpointClose => exact threadsKeptBy_next (threadsOk_closeStep h)
  | restoreReadbackDone => exact threadsKeptBy_next (threadsOk_readBackStep h)
  | instructionFetchFill => exact threadsKeptBy_instructionFetchFill h
  | bringUpStart => exact threadsKeptBy_next (threadsOk_ite (threadsOk_with h) h)
  | pldmRequest => exact threadsKeptBy_pldmRequest h

end

end Sys2Proof.Laws
end

section
/-! PROOF. Every step keeps the threads of every plane (R117 to R119, R361, R363, R364). -/

namespace Sys2Proof.Laws

open Sys2Proof Sys2Proof.Machine

set_option Elab.async false

section

variable {s t : State}

/-! ## What comes next -/

/-- The state that an action leaves the machine in, or runs its instruction from. -/
def actionState : Action → State
  | .silent t => t
  | .run _ t => t

theorem threadsOk_waitWordS (h : ThreadsOk s) : ThreadsOk (waitWordS s) := threadsOk_with h

theorem threadsOk_bringHart {n} (h : ThreadsOk s) : ThreadsOk (bringHart n s) := threadsOk_with h

theorem threadsOk_nextThread {who rest} (h : ThreadsOk s) : ThreadsOk (actionState (nextThread who rest s)) := by
  have brought : ThreadsOk (bringThread who rest s) := threadsOk_bringThread h
  unfold nextThread
  dsimp only
  split
  · exact brought
  · split
    · exact brought
    · exact threadsOk_updTh (f := fun t => { t with park := .ifetch t.pc.toNat }) ⟨rfl, rfl, rfl⟩ brought

theorem threadsOk_nextStream (h : ThreadsOk s) : ThreadsOk (actionState (nextStream s)) := by
  have waits : ThreadsOk (waitWordS s) := threadsOk_waitWordS h
  unfold nextStream
  split
  · exact threadsOk_with waits
  · next n _ =>
    have brought : ThreadsOk (bringSeq n (waitWordS s)) := threadsOk_bringSeq waits
    dsimp only
    split
    · exact brought
    · exact brought

theorem threadsOk_nextHart (h : ThreadsOk s) : ThreadsOk (actionState (nextHart s)) := by
  unfold nextHart
  split
  · exact threadsOk_with h
  · next n _ =>
    have brought : ThreadsOk (bringHart n s) := threadsOk_bringHart h
    dsimp only
    split
    · exact brought
    · exact threadsOk_hartStep brought

theorem threadsOk_nextAction (h : ThreadsOk s) : ThreadsOk (actionState (nextAction s)) := by
  unfold nextAction
  split
  · exact threadsOk_nextThread h
  · split
    · exact threadsOk_with h
    · split
      · exact threadsOk_pick h
      · exact threadsOk_nextStream h
      · exact threadsOk_with h
      · exact threadsOk_nextHart h
      · exact threadsOk_tick h

theorem threadsKeptBy_step (h : ThreadsOk s) : ThreadsKeptBy (step s) := by
  have next : ThreadsOk (actionState (nextAction s)) := threadsOk_nextAction h
  unfold step
  split
  · exact fun _ e => nomatch e
  · split
    · next e => exact threadsKeptBy_next (threadsOk_part actionState e next)
    · next e => exact threadsKeptBy_exec (threadsOk_part actionState e next)

end

/-- Settles O58: the machine's own changes and every instruction keep the threads. -/
theorem threadsKept : Obligations.ThreadsKept := fun _ t h steps => threadsKeptBy_step h t steps

end Sys2Proof.Laws
end

section
/-! PROOF. The instructions that make work: `cont`'s record and `qput`'s header (R131, R154, R161). -/

namespace Sys2Proof.Laws

open Sys2Proof Sys2Proof.Machine Sys2Proof.Rules

section

variable {i : Ins} {o : Opnds} {s u : State}

/-! ## `cont` (R154) -/

theorem contOp_of_waiting (waiting : s.th.allReady = false) : contOp i o s = awaits s := by
  unfold contOp
  rw [waiting]
  rfl

/-- An entry that a record can name: the record is placed, or refused, and its code is the result. -/
theorem contOp_of_ready (ready : s.th.allReady = true) (named : recTrap (dwordOf o.a) s = none) :
    contOp i o s = match placeRecord ((dwordOf o.a).truncate 57) { s with th := s.th.completeAll } with
      | some t => finishWith i (targets o [0]) 40 none true t
      | none => finishWith i (targets o [1]) 40 none true { s with th := s.th.completeAll } := by
  have completed : s.updTh Thread.completeAll = { s with th := s.th.completeAll } := rfl
  simp only [contOp, ready, named, completed, finish_addResult, destRegs_eq, Bool.not_true, Bool.false_eq_true, if_false]
  cases placeRecord ((dwordOf o.a).truncate 57) { s with th := s.th.completeAll } <;> rfl

/-! ## `qput` (R154, R161) -/

/-- The read of a record leaves the thread, but for the times it has seen and the record it waited for, and its warp. -/
theorem hasRecord_keeps {h : Nat} {bs : List Byte} (has : HasRecord h bs s u) :
    u.th.uid = s.th.uid ∧ u.th.slot = s.th.slot ∧ u.th.lane = s.th.lane ∧ u.th.depth = s.th.depth ∧ u.warp = s.warp := by
  rcases has with ⟨-, vt, -, rfl⟩ | ⟨-, rfl⟩
  · obtain ⟨⟨n, net, l1, ws, touched⟩, -⟩ := cacheStep_l1Touch s (lineOf h)
    rw [touched]
    exact ⟨rfl, rfl, rfl, rfl, rfl⟩
  · exact ⟨rfl, rfl, rfl, rfl, rfl⟩

/-- What a `qput` in `u` keeps for its release point, of the header `bs` at operand a. -/
def putOf (o : Opnds) (bs : List Byte) (u : State) : QPut :=
  { seq := u.nextId, uid := u.th.uid, slot := u.th.slot, lane := u.th.lane, tag := u.nextId, hdr := dwordOf o.a, key := wordOf o.b
    words := (List.range 8).map (fun k => BitVec.ofNat 64 (leNat ((bs.drop (8 * k)).take 8)))
    tree := u.warp.tree, depth := u.th.depth, prio := 0 }

/-- A header that the thread has is queued, and its result waits. -/
theorem qputOp_of_hasRecord {e : TlbEnt} {bs : List Byte} (ok : AddressOk (dwordOf o.a) 64)
    (hit : tlbHit s.xl.coreTlb s.ctxNo (dwordOf o.a).toNat .read = some e) (has : HasRecord (e.home (dwordOf o.a).toNat) bs s u) :
    qputOp i o s = finishWith i (targets o [0]) 40 none false { u with pl := { u.pl with puts := u.pl.puts ++ [putOf o bs u] } } := by
  unfold qputOp
  dsimp only
  rw [globalFail_ok ok]
  dsimp only
  rw [withHome_core hit, readRecord_of_hasRecord has, ← finish_addResult, destRegs_eq]
  rfl

end

/-- Settles O11, by what `cont` finds of its thread's results, and by the header that `qput` has. -/
theorem recordsAndTasks : Obligations.RecordsAndTasks := by
  refine ⟨fun sw d a s h waiting => ?waits, fun sw d a s h ready named => ?places, fun sw d a b s u e bs h ok hit has => ?queues⟩
  case waits => exact (runThread_of_executes h _).trans (congrArg _ (contOp_of_waiting waiting))
  case places => exact (runThread_of_executes h _).trans (congrArg _ (contOp_of_ready ready named))
  case queues =>
    have queued := (runThread_of_executes h _).trans (congrArg _ (qputOp_of_hasRecord (i := (Instr.qput sw d a b).ins) ok hit has))
    obtain ⟨uid, slot, lane, depth, warp⟩ := hasRecord_keeps has
    rw [putOf, uid, slot, lane, depth, warp] at queued
    exact queued

end Sys2Proof.Laws
end

section
/-! PROOF. Barriers and crossings: the instructions of threads, and what an arrival changes (R148 to R152, R348). -/

namespace Sys2Proof.Laws

open Sys2Proof Sys2Proof.Machine Sys2Proof.Rules

/-! ## The instructions -/

section

variable {i : Instr} {s : State}

theorem barOp_none {n : BitVec 4} {k : Block → State → State} (free : s.thBlock = none) :
    barOp n k s = raise { cause := .barNone, info := n.zeroExtend 32 } s := by
  simp only [barOp, free]

theorem afterDeferred_of_noDeferred {k : State → State} (calm : NoDeferred s) : afterDeferred k s = k s :=
  calm.elim afterDeferred_none afterDeferred_inside

/-- A deferred trap comes before every instruction that looks for one, as it does before `exit`. -/
theorem takesDeferred_of_afterDeferred {k : State → State} (ha : s.actor ≠ .stream) (run : exec i s = .next (afterDeferred k s)) (d : Deferred) :
    TakesDeferred i d s := by
  refine fun deferred out => ?_
  have same : exec i s = exec (.exit false) s := by
    rw [run, exec_exit ha, exitOp, afterDeferred_takes deferred out, afterDeferred_takes deferred out]
  rw [same]
  exact exec_exit_deferred ha d deferred out

/-- An instruction that names a barrier of its block looks for the block, and may look for a deferred trap first. -/
theorem exec_of_barNumber {w : Word} (number : barNumber i = some w) (h : Executes i s) :
    ∃ n k, w = n.zeroExtend 32 ∧ (exec i s = .next (barOp n k s) ∨ exec i s = .next (afterDeferred (barOp n k) s)) := by
  have run := runThread_of_executes h
  cases i with
  | nbInit | nbTest | nbStat => exact ⟨_, _, (Option.some.inj number).symm, .inl (run _)⟩
  | nbArrive | nbMeet | nbWait => exact ⟨_, _, (Option.some.inj number).symm, .inr (run _)⟩
  | _ => exact nomatch number

theorem exec_arrival {n : Nat} {d : Option Nat} {meet : Bool} (rule : arrivalRule (operands i.ins s) i = some (n, d, meet)) (h : Executes i s) :
    ∃ m, exec i s = .next (afterDeferred (barOp m fun _ => hold i.ins (.arrive n d meet)) s) := by
  have run := runThread_of_executes h
  cases i with
  | nbArrive | nbMeet => cases rule; exact ⟨_, run _⟩
  | _ => exact nomatch rule

theorem exec_crossing {op k : Nat} (rule : crossingRule i = some (op, k)) (h : Executes i s) :
    ∃ m : BitVec 3, k = m.toNat ∧ exec i s = .next (xredOp1 i.ins op m (operands i.ins s) s) := by
  have run := runThread_of_executes h
  cases i with
  | xredAdd | xredFadd | xredMax | xredOr => cases rule; exact ⟨_, rfl, run _⟩
  | _ => exact nomatch rule

theorem exec_nbWait {sw : Bool} {d a : BitVec 7} {n : BitVec 4} (h : Executes (.nbWait sw d a n) s) :
    exec (.nbWait sw d a n) s = .next (nbWaitOp (Instr.nbWait sw d a n).ins n (operands (Instr.nbWait sw d a n).ins s) s) :=
  runThread_of_executes h _

/-- A wait on the present phase waits. -/
theorem nbWaitOp_of_phase {i : Ins} {n : BitVec 4} {o : Opnds} {b : Block} (calm : NoDeferred s) (block : s.thBlock = some b)
    (phase : (barOf b n.toNat).phase = (wordOf o.a).toNat % 65536) :
    nbWaitOp i n o s = waitsIn i (.barWait n.toNat ((wordOf o.a).toNat % 65536) o.pd) s := by
  rw [nbWaitOp, afterDeferred_of_noDeferred calm, barOp_some block]
  exact (if_neg (not_not.2 phase)).trans (hold_eq ..)

/-! ## `nb.init` (R151) -/

section

variable {b : Block} {n : Nat} {v : Nat}

theorem initFail_of_count (bad : v = 0 ∨ 65535 < v) : initFail s b n v = some .barArg := if_pos bad

theorem initFail_of_busy (low : 1 ≤ v) (high : v ≤ 65535)
    (busy : (barOf b n).pending ≠ (barOf b n).count ∨ barWaited s b.handle n = true ∨ engineOwes s b.handle n = true) :
    initFail s b n v = some .barBusy :=
  (if_neg (by omega)).trans (if_pos busy)

theorem initFail_of_idle (low : 1 ≤ v) (high : v ≤ 65535) (pending : (barOf b n).pending = (barOf b n).count)
    (waited : barWaited s b.handle n = false) (owes : engineOwes s b.handle n = false) : initFail s b n v = none :=
  (if_neg (by omega)).trans (if_neg (by simp [pending, waited, owes]))

end

section

variable {i : Ins} {n : BitVec 4} {b : Block} (block : s.thBlock = some b)

include block

theorem nbInitOp_of_fail {c : Cause} (fail : initFail s b n.toNat (highestValue i s).toNat = some c) :
    nbInitOp i n s = raise { cause := c, info := n.zeroExtend 32 } s := by
  simp only [nbInitOp, barOp_some block, fail]

theorem nbInitOp_of_idle (idle : initFail s b n.toNat (highestValue i s).toNat = none) :
    nbInitOp i n s = steps i (initBar b n.toNat (highestValue i s).toNat s) := by
  simp only [nbInitOp, barOp_some block, idle, finish_eq]

end

/-! ## `xred` at issue (R152) -/

section

variable {i : Ins} {op : Nat} {m : BitVec 3} {o : Opnds}

theorem xredOp1_of_noStream (free : s.thBlock.bind (·.stream) = none) :
    xredOp1 i op m o s = raise { cause := .xredNone, info := BitVec.ofNat 32 m.toNat } s := by
  rw [BitVec.ofNat_toNat]
  simp only [xredOp1, free]

theorem xredOp1_of_stream {q : Nat} (stream : s.thBlock.bind (·.stream) = some q) :
    xredOp1 i op m o s = if (wordOf o.b).getLsbD s.warp.wid = true then waitsIn i (.xredRel op m.toNat (dwordOf o.a) (wordOf o.b)) s
      else raise { cause := .collSelf, info := wordOf o.b } s := by
  simp only [xredOp1, stream, hold_eq]
  cases (wordOf o.b).getLsbD s.warp.wid <;> rfl

end

end

/-! ## Arrivals (R149) -/

section

variable {s : State} {h n : Nat} {b : Block}

/-- The same change to the same elements of what a state holds. -/
theorem foldl_filter_congr {α σ : Type} (l : σ → List α) {p q : α → Bool} {f g : σ → α → σ} {x y : σ} (same : x = y) (ps : ∀ a, p a = q a)
    (fs : ∀ u a, f u a = g u a) : ((l x).filter p).foldl f x = ((l y).filter q).foldl g y := by
  rw [same, funext ps, funext₂ fs]

/-- The waiters that a barrier wakes are those that its state lets go on. -/
theorem wakeBar_eq_waitersGo (block : s.block? h = some b) : wakeBar h n s = waitersGo h n (barOf b n) s := by
  unfold wakeBar waitersGo
  rw [block]
  refine foldl_filter_congr State.allSeqs (foldl_filter_congr State.living rfl (fun t => ?_) fun u t => ?_) (fun q => ?_) fun u q => ?_
  · simp only [ofBlock, bne, beq_eq_decide, ← decide_not, ← Bool.decide_and, and_assoc] <;> rfl
  · simp only [resumeWith, resumeWith_eq] <;> rfl
  · simp only [bne, beq_eq_decide, ← decide_not, ← Bool.decide_and, and_assoc] <;> rfl
  · simp only [resumeWithS_eq] <;> rfl

theorem stow_blocks (v : State) : v.stow.pl.blocks = v.pl.blocks := by rw [stow_threads]

theorem fetchThread_blocks (slot lane : Nat) (v : State) : (v.fetchThread slot lane).pl.blocks = v.pl.blocks := by
  unfold State.fetchThread
  dsimp only
  split <;> exact stow_blocks v

/-- An event of another thread that leaves the blocks. -/
theorem asThread_blocks {f : State → State} (keeps : ∀ v, (f v).pl.blocks = v.pl.blocks) (slot lane : Nat) (s : State) :
    (s.asThread slot lane f).pl.blocks = s.pl.blocks := by
  have around : (f (s.fetchThread slot lane)).stow.pl.blocks = s.pl.blocks :=
    (stow_blocks _).trans ((keeps _).trans (fetchThread_blocks ..))
  unfold State.asThread
  dsimp only
  split
  · exact keeps s
  · split
    · split
      · exact (fetchThread_blocks ..).trans around
      · exact around
    · rfl

theorem foldl_blocks {α : Type} {f : State → α → State} (keeps : ∀ v a, (f v a).pl.blocks = v.pl.blocks) (l : List α) (s : State) :
    (l.foldl f s).pl.blocks = s.pl.blocks := by
  induction l generalizing s with
  | nil => rfl
  | cons a l ih => exact (ih _).trans (keeps s a)

/-- Waking waiters leaves the blocks. -/
theorem wakeBar_blocks (h n : Nat) (s : State) : (wakeBar h n s).pl.blocks = s.pl.blocks := by
  have thread (v : Word) (u : State) (t : Thread) :=
    asThread_blocks (fun u => congrArg Plane.blocks (onlyThread_barWait v u).pl) t.slot t.lane u
  have stream (v : Word) (u : State) (q : SeqCtx) := congrArg Plane.blocks (sameCore_asSeq (sameCore_barWait v) q.n u).pl
  unfold wakeBar
  split
  · rfl
  · exact (foldl_blocks (stream _) ..).trans (foldl_blocks (thread _) ..)

/-- The phase flips, and the waiters go on with what the barrier's state says (R149). -/
theorem flipBar_eq (block : s.block? h = some b) (r : Barrier) : flipBar h n r s = waitersGo h n (flipped r) (setBar h n (flipped r) s) := by
  have woken := wakeBar_eq_waitersGo (n := n) (setBar_block (n := n) (r := flipped r) block)
  rw [barOf_withBar, if_pos rfl] at woken
  exact woken

theorem flipBar_block (block : s.block? h = some b) (r : Barrier) : (flipBar h n r s).block? h = some (withBar n (flipped r) b) := by
  unfold flipBar State.block?
  rw [wakeBar_blocks]
  exact setBar_block block

/-- A barrier with one arrival more, of a thread or of an engine or stream. -/
def arrivedBy (st : Word) (tid : Option Nat) (r : Barrier) : Barrier :=
  { r with
    part := match tid with | some k => r.part ||| 2 ^ k | none => r.part
    arrived := match tid with | some k => r.arrived ||| 2 ^ k | none => r.arrived
    status := if r.status = 0 then st else r.status
    pending := r.pending - 1 }

theorem arriveBar_of_empty (block : s.block? h = some b) (empty : (barOf b n).count = 0) (st : Word) (tid : Option Nat) :
    arriveBar h n st tid s = none := by
  simp only [arriveBar, block, empty, if_true]

theorem arriveBar_eq (block : s.block? h = some b) (counted : (barOf b n).count ≠ 0) (st : Word) (tid : Option Nat) :
    arriveBar h n st tid s = some (if (barOf b n).pending - 1 = 0 then flipBar h n (arrivedBy st tid (barOf b n)) s
      else setBar h n (arrivedBy st tid (barOf b n)) s) := by
  simp only [arriveBar, block, counted, if_false]
  cases tid <;> rfl

end

/-! ## The statement -/

/-- Settles O28, by what each instruction finds, and by whether an arrival is the last of its phase. -/
theorem barriersOfThreads : Obligations.BarriersOfThreads := by
  refine ⟨⟨fun sw a n s b h block low high pending waited owes => ?init, fun sw a n s b h block => ⟨fun bad => ?arg, fun low high busy => ?busy⟩,
    fun i n d meet s b rule h calm block => ?arrive, fun i s d form h => ?deferred, fun sw d a n s b h calm block phase => ?wait,
    fun i w s number h calm free => ?free⟩, fun h n st tid s b block => ⟨fun empty => ?empty, fun counted => ?counted⟩,
    fun i op k s rule h => ?crossing⟩
  case init =>
    exact (runThread_of_executes h _).trans (congrArg _ (nbInitOp_of_idle block (initFail_of_idle low high pending waited owes)))
  case arg => exact (runThread_of_executes h _).trans (congrArg _ (nbInitOp_of_fail block (initFail_of_count bad)))
  case busy => exact (runThread_of_executes h _).trans (congrArg _ (nbInitOp_of_fail block (initFail_of_busy low high busy)))
  case arrive =>
    obtain ⟨m, run⟩ := exec_arrival rule h
    rw [run, afterDeferred_of_noDeferred calm, barOp_some block, hold_eq]
  case deferred =>
    rcases form with ⟨⟨n, dst, meet⟩, rule⟩ | ⟨sw, r, a, n, rfl⟩
    · obtain ⟨m, run⟩ := exec_arrival rule h
      exact takesDeferred_of_afterDeferred h.1 run d
    · exact takesDeferred_of_afterDeferred h.1 (exec_nbWait h) d
  case wait => exact (exec_nbWait h).trans (congrArg _ (nbWaitOp_of_phase calm block phase))
  case free =>
    obtain ⟨n, k, rfl, run | run⟩ := exec_of_barNumber number h
    · rw [run, barOp_none free]
    · rw [run, afterDeferred_of_noDeferred calm, barOp_none free]
  case empty => exact arriveBar_of_empty block empty st tid
  case counted =>
    by_cases last : (barOf b n).pending - 1 = 0
    · refine ⟨_, _, (arriveBar_eq block counted st tid).trans (congrArg some (if_pos last)), flipBar_block block _, ?_⟩
      rw [barOf_withBar, if_pos rfl]
      exact ⟨rfl, fun _ _ => by omega, fun _ => ⟨rfl, rfl, rfl, rfl, rfl⟩, fun _ => flipBar_eq block _⟩
    · refine ⟨_, _, (arriveBar_eq block counted st tid).trans (congrArg some (if_neg last)), setBar_block block, ?_⟩
      rw [barOf_withBar, if_pos rfl]
      exact ⟨rfl, fun _ _ => ⟨rfl, rfl, rfl, rfl⟩, fun one => by omega, fun one => by omega⟩
  case crossing =>
    obtain ⟨m, rfl, run⟩ := exec_crossing rule h
    exact ⟨fun free => run.trans (congrArg _ (xredOp1_of_noStream free)), fun q stream => run.trans (congrArg _ (xredOp1_of_stream stream))⟩

end Sys2Proof.Laws
end

section
/-! PROOF. Where a hart's read of a doubleword stops, and what it finds (R169). -/

namespace Sys2Proof.Laws

open Sys2Proof Sys2Proof.Machine Sys2Proof.Rules

/-! ## The read of a hart that waits for a relation (R169, R357 to R359) -/

section

variable {cmp addr d : Nat} {v : DWord} {s : State}

theorem hartTry_of_misaligned (misaligned : addr % 8 ≠ 0) : hartTry cmp addr v d s = { s with hart := hartTrap 4 addr s.hart } := by
  simp only [hartTry, hartRead, hartAccess, if_pos misaligned, hartRaise]

theorem hartTry_of_outside (aligned : addr % 8 = 0) (outside : addr ≥ Config.memBytes) :
    hartTry cmp addr v d s = { s with hart := hartTrap 5 addr s.hart } := by
  simp only [hartTry, hartRead, hartAccess, if_neg (not_not.2 aligned), if_pos outside, hartRaise]

variable (aligned : addr % 8 = 0) (inside : addr < Config.memBytes)

include aligned inside

theorem hartTry_of_frozen (frozen : isFrozen s masterCp = true) : hartTry cmp addr v d s = s := by
  simp only [hartTry, hartRead, hartAccess, if_neg (not_not.2 aligned), if_neg (Nat.not_le.2 inside), if_pos frozen]

variable (runs : isFrozen s masterCp = false)

include runs

theorem hartTry_of_ungranted (ungranted : reaches s masterCp addr 8 = false) : hartTry cmp addr v d s = freeze masterCp 0 addr s := by
  simp only [hartTry, hartRead, hartAccess, if_neg (not_not.2 aligned), if_neg (Nat.not_le.2 inside), runs, ungranted, Bool.false_eq_true, if_false]

variable (granted : reaches s masterCp addr 8 = true)

include granted

theorem hartTry_of_poisoned (poisoned : isPoisoned s addr 8 = true) : hartTry cmp addr v d s = { s with hart := hartTrap 5 addr s.hart } := by
  simp only [hartTry, hartRead, hartAccess, if_neg (not_not.2 aligned), if_neg (Nat.not_le.2 inside), runs, granted, poisoned, Bool.false_eq_true,
    if_false, if_true, hartRaise]

/-- The doubleword is read: its value time joins the hart's, and the hart goes on or blocks. -/
theorem hartTry_of_clean (clean : isPoisoned s addr 8 = false) :
    let m : DWord := BitVec.ofNat 64 (getLe s.mem addr 8)
    let h : Hart := { s.hart with pct := max s.hart.pct (lineRec s (lineOf addr)).vl }
    hartTry cmp addr v d s = { s with hart := if relHolds cmp m v = true
      then { h with x := if d = 0 then h.x else stSet 0 h.x d m, pc := (h.pc + 4) % 2 ^ 64, wait := none, minstret := h.minstret + 1 }
      else { h with wait := some (cmp, addr, v.toNat, d) } } := by
  simp only [hartTry, hartRead, hartAccess, if_neg (not_not.2 aligned), if_neg (Nat.not_le.2 inside), runs, granted, clean, Bool.false_eq_true,
    if_false, if_true, hartSet]
  by_cases holds : relHolds cmp (BitVec.ofNat 64 (getLe s.mem addr 8)) v = true <;> by_cases zero : d = 0 <;> simp only [holds, zero, if_true, if_false]
    <;> rfl

end

/-! ## `kwait` (R169) -/

/-- A `kwait` reads for the relation that its number stands for. -/
theorem exec_kwait {i : Instr} {rel : DWord → DWord → Bool} {b a d : BitVec 5} (rule : kwaitRule i = some (rel, b, a, d)) (s : State) :
    exec i s = .next (hartTry (kwaitCmp i) (hartGet s.hart a).toNat (hartGet s.hart b) d.toNat s) ∧ ∀ m v, rel m v = relHolds (kwaitCmp i) m v := by
  cases i with
  | kwaitEq | kwaitNe | kwaitGeu =>
    cases rule
    refine ⟨rfl, fun m v => ?_⟩
    simp [relHolds, kwaitCmp, BitVec.ule, bne, beq_eq_decide]
  | _ => cases rule

/-- Settles O34, by where the read of a hart stops. -/
theorem hartsWait : Obligations.HartsWait := by
  intro i rel b a d s rule
  obtain ⟨run, same⟩ := exec_kwait rule s
  have zero : d.toNat = 0 ↔ d = 0 := by rw [← BitVec.toNat_inj]; rfl
  refine ⟨fun misaligned => ?_, fun aligned outside => ?_, fun aligned inside frozen => ?_, fun aligned inside runs ungranted => ?_,
    fun aligned inside runs granted => ?_⟩ <;> rw [run]
  · rw [hartTry_of_misaligned misaligned]
  · rw [hartTry_of_outside aligned outside]
  · rw [hartTry_of_frozen aligned inside frozen]
  · rw [hartTry_of_ungranted aligned inside runs ungranted]
  · cases poison : isPoisoned s (hartGet s.hart a).toNat 8 with
    | true => rw [hartTry_of_poisoned aligned inside runs granted poison, if_pos rfl]
    | false =>
      rw [hartTry_of_clean aligned inside runs granted poison, if_neg Bool.false_ne_true]
      simp only [same, zero]

end Sys2Proof.Laws
end

section
/-! PROOF. The places that exiled threads keep in the core queue (R153), which the statement about moves between the queues leaves out. -/

namespace Sys2Proof.Laws

open Sys2Proof Sys2Proof.Machine

/-- One block on its way to the core queue, which is empty, while the 32 threads of a warp are in exile: their records are to have all its places. -/
def exiledWarp : State :=
  { State.reset with
    pl := { threads := (List.range 32).map (fun lane => { live := true, lane := lane, park := .exile 0 }) }
    sched := { moving := [{ toLvl := .core, entries := [{ ctx := 0, tree := 0, prio := 0, since := 0, work := .block 0 0 0 1 0 }] }] } }

/-- How many moves an answer leaves on their way. -/
def movesLeft : Answer → Nat
  | .next t => t.sched.moving.length
  | _ => 0

/-- The model's move finds no place and is on its way still. -/
theorem movesLeft_exiledWarp : movesLeft (exec .queueMoveComplete exiledWarp) = 1 := by decide

/-- Refutes O40: the core queue holds no entry, and yet the 32 places kept for the records of exiled threads let no block of a move in. -/
theorem not_queuesOfWork : ¬ Obligations.QueuesOfWork := by
  rintro ⟨-, -, -, -, moves, -⟩
  obtain ⟨-, -, toCore⟩ := moves exiledWarp _ _
  have left := congrArg movesLeft (toCore rfl (by decide))
  rw [movesLeft_exiledWarp] at left
  exact absurd left (by decide)

end Sys2Proof.Laws
end

section
/-! PROOF. The host port: the writes that it takes, the registers of its window, the aperture, power and management (R393, R394, R398, R409, R410). -/

namespace Sys2Proof.Laws

open Sys2Proof Sys2Proof.Machine Sys2Proof.Rules

/-! ## Writes of the window that the host port takes (R356, R359) -/

theorem hostFlit_of_accepts {s : State} (takes : Accepts s) (k : State → State) : hostFlit k s = k s := if_pos (hostTakes_iff.2 takes)

theorem hostFlit_of_refused {s : State} (refuses : ¬ Accepts s) (k : State → State) : hostFlit k s = s :=
  if_neg fun takes => refuses (hostTakes_iff.1 takes)

/-- A write that changes nothing changes nothing, whether the port takes it or not. -/
theorem hostFlit_of_same {k : State → State} {s : State} (same : k s = s) : hostFlit k s = s := by
  unfold hostFlit
  rw [same, ite_self]

theorem inMailbox_iff (off : Nat) : inMailbox off = true ↔ 0x5000 ≤ off ∧ off < 0x6000 := decide_eq_true_iff

/-! ## Halves of the registers of 128 bits (R398) -/

theorem getLsbD_half (hi : Bool) (v : BitVec 64) {k : Nat} (low : k < 128) :
    (Machine.half hi v).getLsbD k = if hi then decide (64 ≤ k) && v.getLsbD (k - 64) else v.getLsbD k := by
  cases hi with
  | true => simp only [Machine.half, if_true, BitVec.getLsbD_shiftLeft, BitVec.getLsbD_setWidth, low, show k - 64 < 128 by omega, decide_true,
      Bool.true_and, ← decide_not, Nat.not_lt]
  | false => simp only [Machine.half, Bool.false_eq_true, if_false, BitVec.getLsbD_setWidth, low, decide_true, Bool.true_and]

/-- What IRQMASK holds once one of its halves is written. -/
theorem withHalf_eq (hi : Bool) (v : BitVec 64) (old : BitVec 128) :
    (if hi then (old.truncate 64).zeroExtend 128 else old &&& Machine.half true (BitVec.allOnes 64)) ||| Machine.half hi v = withHalf hi v old := by
  refine BitVec.eq_of_getLsbD_eq fun k low => ?_
  rw [BitVec.getLsbD_or, getLsbD_half hi v low]
  cases hi with
  | true =>
    simp only [if_true, BitVec.getLsbD_setWidth, low, decide_true, Bool.true_and, withHalf, BitVec.getLsbD_append]
    by_cases upper : 64 ≤ k
    · simp only [upper, Nat.not_lt.2 upper, decide_true, decide_false, Bool.true_and, Bool.false_and, Bool.false_or, if_false]
    · simp only [upper, Nat.not_le.1 upper, decide_true, decide_false, Bool.true_and, Bool.false_and, Bool.or_false, if_true]
  | false =>
    simp only [Bool.false_eq_true, if_false, BitVec.getLsbD_and, getLsbD_half true _ low, if_true, withHalf, BitVec.getLsbD_append, BitVec.getLsbD_allOnes,
      BitVec.getLsbD_extractLsb']
    by_cases upper : 64 ≤ k
    · simp only [upper, Nat.not_lt.2 upper, BitVec.getLsbD_of_ge v k upper, show k - 64 < 64 by omega, Nat.add_sub_cancel' upper, decide_true, Bool.and_true,
        Bool.true_and, Bool.or_false, if_false]
    · simp only [upper, Nat.not_le.1 upper, decide_false, Bool.false_and, Bool.and_false, Bool.false_or, if_true]

theorem irqmaskStep_eq (hi : Bool) (v : BitVec 64) (s : State) :
    let new := withHalf hi v s.win.irqmask
    irqmaskStep hi v s = { s with
      win := { s.win with irqmask := new }
      out := s.out ++ ((List.range 128).filter (fun k => new.getLsbD k && !s.win.irqmask.getLsbD k && s.win.irqstat.getLsbD k)).map (irqMessage s) } := by
  unfold irqmaskStep
  dsimp only
  rw [withHalf_eq, sendIrqs_eq]
  rfl

theorem clampCap_eq (n : Nat) : clampCap n = max 1200 (min 3000 n) := by
  unfold clampCap
  split
  · omega
  · split <;> omega

/-! ## Registers that hold what is written (Table 21-1) -/

/-- The mailbox is served whatever the port does, and every other register where the port takes the write. -/
theorem exec_registerWrite {off : Nat} {s : State} (served : Accepts s ∨ inMailbox off = true) (v : BitVec 64) :
    exec (.registerWrite off v) s = .next (registerWriteStep off v s) := by
  show Host.Outcome.next (if inMailbox off then _ else _) = _
  rcases served with takes | mailbox
  · rw [hostFlit_of_accepts takes, ite_self]
  · rw [if_pos mailbox]

theorem registerWriteStep_cmdrec {k : Nat} (small : k < 8) (v : BitVec 64) (s : State) :
    registerWriteStep (0x100 + 8 * k) v s = { s with win := { s.win with cmdrec := stSet 0 s.win.cmdrec k v } } := by
  unfold registerWriteStep
  rw [if_neg (by omega), if_pos (by omega), show (0x100 + 8 * k - 0x100) / 8 = k by omega]

theorem registerWriteStep_irqaddr {k : Nat} (small : k < 128) (v : BitVec 64) (s : State) :
    registerWriteStep (0x3100 + 16 * k) v s = { s with win := { s.win with irqaddr := stSet 0 s.win.irqaddr k v } } := by
  unfold registerWriteStep
  rw [if_neg (by omega), if_neg (by omega), if_pos (by omega), show (0x3100 + 16 * k - 0x3100) / 16 = k by omega]
  exact if_pos (by omega)

theorem registerWriteStep_irqdata {k : Nat} (small : k < 128) (v : BitVec 64) (s : State) :
    registerWriteStep (0x3108 + 16 * k) v s = { s with win := { s.win with irqdata := stSet 0 s.win.irqdata k ((v.truncate 32).zeroExtend 64) } } := by
  unfold registerWriteStep
  rw [if_neg (by omega), if_neg (by omega), if_pos (by omega), show (0x3108 + 16 * k - 0x3100) / 16 = k by omega]
  exact if_neg (by omega)

theorem registerWriteStep_mailbox {k : Nat} (small : k < 256) (v : BitVec 64) (s : State) :
    registerWriteStep (0x5100 + 8 * k) v s = { s with win := { s.win with mbox := setLe s.win.mbox (0x100 + 8 * k) 8 v.toNat } } := by
  unfold registerWriteStep
  rw [if_neg (by omega), if_neg (by omega), if_neg (by omega), if_pos (by omega), show 0x5100 + 8 * k - 0x5000 = 0x100 + 8 * k by omega]

/-- The offsets of CMDREC, IRQVEC and the mailbox's data, which hold what is written. -/
def HoldsWrites (off : Nat) : Prop := (0x100 ≤ off ∧ off < 0x140) ∨ (0x3100 ≤ off ∧ off < 0x3900) ∨ (0x5100 ≤ off ∧ off < 0x5900)

theorem registerWriteStep_ignored {off : Nat} (ignores : ¬ HoldsWrites off) (v : BitVec 64) (s : State) : registerWriteStep off v s = s := by
  simp only [HoldsWrites, not_or] at ignores
  obtain ⟨record, vectors, mailbox⟩ := ignores
  unfold registerWriteStep
  rw [if_neg record, if_neg vectors, if_neg mailbox, ite_self]

theorem exec_registerWrite_ignored {off : Nat} (ignores : ¬ HoldsWrites off) (v : BitVec 64) (s : State) : exec (.registerWrite off v) s = .next s := by
  have same := registerWriteStep_ignored ignores v s
  show Host.Outcome.next (if inMailbox off then _ else _) = _
  rw [same, hostFlit_of_same same, ite_self]

/-- A register that reads as something is listed, and not for writing only. -/
theorem windowRead_of_unlisted {off : Nat} (unlisted : InWindow off → WriteOnlyOffset off) (s : State) : windowRead off s = 0 := by
  unfold windowRead
  simp only [InWindow, WriteOnlyOffset, readOnlyOffsets, List.mem_cons, List.not_mem_nil, or_false] at unlisted
  split
  · rfl
  · rw [if_neg (by omega), if_neg (by omega)]
    split <;> omega

/-! ## The aperture (R393) -/

section

variable {m pa n : Nat} {rq : PortReq} {k : State → State} {s : State}

theorem portGate_of_frozen (frozen : isFrozen s m = true) : portGate m pa n rq k s = s := if_pos frozen

theorem portGate_of_running (runs : isFrozen s m = false) : portGate m pa n rq k s = if reaches s m pa n then k s
    else freeze m 0 pa { s with root := { s.root with portHeld := s.root.portHeld ++ [rq] } } := if_neg (by simp [runs])

end

section

variable {pa n : Nat} {s : State} (memory : pa < Config.memBytes)

include memory

theorem apertureRead_of_long (long : Config.memBytes < pa + n) : apertureRead pa n s = s := by
  simp only [apertureRead, Nat.not_le.2 memory, long, if_false, if_true]

variable (within : pa + n ≤ Config.memBytes)

include within

theorem apertureRead_of_frozen (frozen : isFrozen s masterHost = true) : apertureRead pa n s = s := by
  simp only [apertureRead, Nat.not_le.2 memory, Nat.not_lt.2 within, if_false, portGate_of_frozen frozen]

theorem apertureRead_of_running (runs : isFrozen s masterHost = false) : apertureRead pa n s = if reaches s masterHost pa n then
      { s with out := s.out ++ [.readData (if hostPort ∈ s.badPorts ∨ ∃ k < n, isPoisoned s (pa + k) 1 = true then none
        else some (getBytes s.mem pa n))] }
    else freeze masterHost 0 pa { s with root := { s.root with portHeld := s.root.portHeld ++ [.hostRead pa n] } } := by
  have bad : (s.badPorts.contains hostPort || (List.range n).any fun k => isPoisoned s (pa + k) 1) = true
      ↔ hostPort ∈ s.badPorts ∨ ∃ k < n, isPoisoned s (pa + k) 1 = true := by simp
  simp only [apertureRead, Nat.not_le.2 memory, Nat.not_lt.2 within, if_false, portGate_of_running runs, bad, homeRead]

end

section

variable {off : Nat} {s : State}

theorem apertureRead_window (small : off < 2 ^ 20) (served : isFrozen s masterHost = false ∨ (0x5000 ≤ off ∧ off < 0x6000)) :
    apertureRead (Config.memBytes + off) 8 s
      = { s with out := s.out ++ [.readData (if hostPort ∈ s.badPorts then none else some (leBytes (windowRead off s) 8))] } := by
  rw [← inMailbox_iff] at served
  simp only [apertureRead, Nat.le_add_right, if_true, Nat.add_sub_cancel_left, Nat.add_lt_add_iff_left, small, served, true_and,
    List.contains_iff_mem]

theorem apertureRead_window_of_frozen (frozen : isFrozen s masterHost = true ∧ ¬ (0x5000 ≤ off ∧ off < 0x6000)) :
    apertureRead (Config.memBytes + off) 8 s = s := by
  rw [← inMailbox_iff] at frozen
  simp [apertureRead, frozen]

end

section

variable {pa : Nat} {bs : List Byte} {bad : Bool} {s : State}

theorem apertureWrite_of_refused (refused : Config.memBytes < pa + bs.length ∨ isFrozen s masterHost = true) : apertureWrite pa bs bad s = s := by
  simp only [apertureWrite, Bool.or_eq_true, decide_eq_true_eq, gt_iff_lt, refused, if_true]

variable (within : pa + bs.length ≤ Config.memBytes) (runs : isFrozen s masterHost = false)

include within runs

theorem apertureWrite_of_stopped (stopped : s.cp.stopped = true ∧ s.ckpt.st ≠ .idle) :
    apertureWrite pa bs bad s = { s with ckpt := { s.ckpt with held := s.ckpt.held ++ [(pa, bs, bad)] } } := by
  simp [apertureWrite, Nat.not_lt.2 within, runs, stopped]

theorem apertureWrite_of_running (running : ¬ (s.cp.stopped = true ∧ s.ckpt.st ≠ .idle)) :
    apertureWrite pa bs bad s = if reaches s masterHost pa bs.length then hostCommit pa bs bad s
      else freeze masterHost 0 pa { s with root := { s.root with portHeld := s.root.portHeld ++ [.hostWrite pa bs bad] } } := by
  rw [← portGate_of_running runs, ← hostWrite]
  simp only [apertureWrite, Bool.or_eq_true, decide_eq_true_eq, Bool.and_eq_true, gt_iff_lt, Nat.not_lt.2 within, runs, Bool.false_eq_true, or_false,
    if_false, running]

end

/-! ## Power and management (R409, R410) -/

theorem thermalStep_eq (temp : Nat) (s : State) :
    let reads : State := { s with win := { s.win with temp := temp % 256 } }
    thermalStep temp s = if temp < 105 then reads
      else if temp < 115 then { reads with ctxs := s.ctxs.map (fun c => { c with paused := true }), clock := { s.clock with mhz := lowestMhz } }
      else { reads with powered := false } := by
  unfold thermalStep
  dsimp only
  split
  · rfl
  · by_cases off : temp < 115
    · rw [if_neg (by omega), if_pos off]
    · rw [if_pos (by omega), if_neg off]

theorem powerStep_above {watts : Nat} {s : State} (above : s.win.pwrcap < watts) :
    powerStep watts s = { s with win := { s.win with pwr := watts % 4096 }, clock := { s.clock with mhz := max lowestMhz (s.clock.mhz - 25) } } := by
  simp only [powerStep, gt_iff_lt, above, if_true]

theorem powerStep_below {watts : Nat} {s : State} (below : watts < s.win.pwrcap) (cool : s.win.temp < 105) :
    powerStep watts s = { s with win := { s.win with pwr := watts % 4096 }, clock := { s.clock with mhz := min 1200 (s.clock.mhz + 25) } } := by
  simp only [powerStep, gt_iff_lt, Nat.not_lt.2 below.le, below, cool, decide_true, Bool.and_true, if_false, if_true]

/-- The monitoring requests have the numbers 0 to 6. -/
theorem pldmValue_eq (sel : Nat) (s : State) : pldmValue sel s
    = [s.win.pwr, s.win.temp, stateCode s.win.state, s.win.rasCorrected, s.win.rasTransient, s.win.rasLasting, s.win.rasRetry][sel]? := by
  match sel with
  | 0 | 1 | 2 | 3 | 4 | 5 | 6 => rfl
  | n + 7 => rfl

/-! ## The statement -/

/-- Settles O44, register by register and then by what the aperture, the sensors and a monitoring request find. -/
theorem windowAndManagement : Obligations.WindowAndManagement := by
  refine ⟨fun hi v off s refuses => ?refused, fun hi v s takes => ?mask, fun hi v s takes => ?stat, fun v s takes => ?ctxerr, fun v s takes => ?cap,
    fun k v s => ?registers, fun pa n s memory => ?read, fun off s small => ?window, fun s => ?values, fun pa bs s => ?write,
    fun temp watts s => ?power, fun sel s v known => ?pldm⟩
  case refused =>
    refine ⟨?_, ?_, ?_, ?_, fun elsewhere => ?_⟩
    iterate 4 exact congrArg _ (hostFlit_of_refused refuses _)
    exact congrArg _ ((if_neg (mt (inMailbox_iff off).1 elsewhere)).trans (hostFlit_of_refused refuses _))
  case mask => exact congrArg _ ((hostFlit_of_accepts takes _).trans (irqmaskStep_eq hi v s))
  case stat =>
    refine ⟨_, congrArg Host.Outcome.next (hostFlit_of_accepts takes _), rfl, fun k low => ?_⟩
    simp only [BitVec.getLsbD_and, BitVec.getLsbD_not, getLsbD_half hi v low, low, decide_true, Bool.true_and]
  case ctxerr =>
    refine ⟨_, congrArg Host.Outcome.next (hostFlit_of_accepts takes _), rfl, fun k low => ?_⟩
    simp [low]
  case cap => exact congrArg _ ((hostFlit_of_accepts takes _).trans (by rw [clampCap_eq]))
  case registers =>
    refine ⟨fun small takes => ?_, fun small takes => ?_, fun small takes => ?_, fun small => ?_, fun unlisted => ?_, fun fixed => ?_⟩
    · rw [exec_registerWrite (.inl takes), registerWriteStep_cmdrec small]
    · rw [exec_registerWrite (.inl takes), registerWriteStep_irqaddr small]
    · rw [exec_registerWrite (.inl takes), registerWriteStep_irqdata small]
    · rw [exec_registerWrite (.inr ((inMailbox_iff _).2 ⟨by omega, by omega⟩)), registerWriteStep_mailbox small]
    · refine exec_registerWrite_ignored ?_ v s
      simp only [InWindow, WriteOnlyOffset] at unlisted
      simp only [HoldsWrites]
      omega
    · refine exec_registerWrite_ignored ?_ v s
      simp only [readOnlyOffsets, List.mem_cons, List.not_mem_nil, or_false] at fixed
      simp only [HoldsWrites]
      omega
  case read =>
    exact ⟨fun long => congrArg _ (apertureRead_of_long memory long), fun within frozen => congrArg _ (apertureRead_of_frozen memory within frozen),
      fun within runs => congrArg _ (apertureRead_of_running memory within runs)⟩
  case window =>
    exact ⟨fun frozen => congrArg _ (apertureRead_window_of_frozen frozen), fun served => congrArg _ (apertureRead_window small served)⟩
  case values => exact ⟨rfl, rfl, rfl, rfl, rfl, rfl, fun off unlisted => windowRead_of_unlisted unlisted s⟩
  case write =>
    refine ⟨fun refused => congrArg _ (apertureWrite_of_refused refused),
      fun within runs stopped => congrArg _ (apertureWrite_of_stopped within runs stopped),
      fun within running runs => ⟨fun reached => ?_, fun ungranted => ?_⟩⟩
    · exact congrArg _ ((apertureWrite_of_running within runs running).trans (if_pos reached))
    · exact congrArg _ ((apertureWrite_of_running within runs running).trans (if_neg (by simp [ungranted])))
  case power =>
    exact ⟨congrArg _ (thermalStep_eq temp s), congrArg _ (thermalStep_eq temp s), fun above => congrArg _ (powerStep_above above),
      fun below cool => congrArg _ (powerStep_below below cool)⟩
  case pldm =>
    rw [← pldmValue_eq] at known
    show Host.Outcome.next (match pldmValue sel s with | some _ => _ | none => _) = _
    rw [known]

end Sys2Proof.Laws
end

section
/-! PROOF. The packets of a queue at its read index (R170, R171), and doorbells and kicks (R394, R395). -/

namespace Sys2Proof.Laws

open Sys2Proof Sys2Proof.Machine Sys2Proof.Rules

/-! ## The packet at the read index (R170) -/

section

variable {ty q p : Nat} {x : CpQueue} {s u : State}

theorem passOver_of_noSkip (found : s.cp.queues.find? (·.q == q) = some x) (skip : x.skip = 0) : passOver q s = s := by
  simp only [passOver, found, skip, Nat.zero_min, if_true]

/-- A packet that nothing is wrong with acts in the state in which it is the current one. -/
theorem packetStep_of_atPacket (acts : AtPacket ty q x p s u) (act : CpQueue → Nat → State → State) : packetStep ty q act s = act x p u := by
  obtain ⟨runs, found, skip, good, more, type, state⟩ := acts
  unfold packetStep
  simp only [runs, if_true, passOver_of_noSkip found skip, found]
  rw [if_neg (by simp [good, more, skip])]
  rcases state with ⟨current, rfl⟩ | ⟨fresh, rfl, pa, at_, free, clean, read, sound⟩
  · simp only [current, type, if_true]
  · simp only [fresh, at_, free, clean, read, sound, type, Bool.false_eq_true, if_false, if_true]

end

/-! ## What packets do (Table 8-8) -/

section

variable {x : CpQueue} {p h : Nat} {bs : List Byte} {u : State}

theorem launchAct_of_seed {l : BitVec 512} {v : State} (released : x.pct ≤ u.clock.tbase) (good : launchCheck u x.ctx (pkAddr p) = .ok (.inr l))
    (seed : launchSeed x.ctx (pkAddr p) l (BitVec.ofNat 32 (pkCount p)) x.pct
      { n := 0, ctx := x.ctx, count := 0, sigAddr := pkSig p, sigVal := pkSigVal p, queue := some x.q } u = some v) :
    launchAct x p u = retire x 1 v := by
  simp only [launchAct, if_neg (Nat.not_lt.2 released), good, seed]

theorem withWord_of_read (read : cpRead u x.ctx (pkAddr p).toNat 8 = .ok (h, bs)) (k : Bool → State → State) :
    withWord x p k u = k (relHolds (pkCmp p) (BitVec.ofNat 64 (leNat bs)) (pkVal p)) (carries x (readTime h u).1 (readTime h u).2) := by
  simp only [withWord, read, carries]

theorem signalAct_of_released (released : x.pct ≤ u.clock.tbase) (written : x.did = true) : signalAct x p u = retire x 1 (setIrq (69 + x.ctx) u) := by
  simp only [signalAct, queueReleased, ge_iff_le, released, written, decide_true, Bool.not_true, Bool.false_eq_true, if_false, if_true]

theorem signalAct_of_home (released : x.pct ≤ u.clock.tbase) (unwritten : x.did = false)
    (home : engHome u masterCp x.ctx (pkAddr p).toNat (if p / 256 % 2 = 1 then .atomic else .write) 8 = .ok h)
    (clean : p / 256 % 2 = 1 → isX h = true ∨ isPoisoned u h 8 = false) :
    let new := if p / 256 % 2 = 1 then BitVec.ofNat 64 (leNat (homeBytes u h 8)) + pkVal p else pkVal p
    let v := cpStore x.ctx h (leBytes new.toNat 8) u
    signalAct x p u = setCpq x.q (fun y => { y with did := true, pct := max y.pct v.1 }) v.2 := by
  have reads : (decide (p / 256 % 2 = 1) && !isX h && isPoisoned u h 8) = false := by
    by_cases adds : p / 256 % 2 = 1
    · rcases clean adds with far | clean <;> simp [*]
    · simp [adds]
  simp only [signalAct, queueReleased, ge_iff_le, released, unwritten, decide_true, Bool.not_true, Bool.false_eq_true, if_false, home, reads]

theorem patchAct_of_written (written : x.did = true) (released : x.pct ≤ u.clock.tbase) : patchAct x p u = retire x 1 u := by
  simp only [patchAct, queueReleased, ge_iff_le, released, written, decide_true, if_true]

theorem patchAct_of_table {es : List (BitVec 512)} {ws : List (Nat × List Byte)} (unwritten : x.did = false) (table : patchTable u x.ctx p = .ok es)
    (homes : es.mapM (fun e => (engHome u masterCp x.ctx (e.toNat % 2 ^ 64) .write 8).map (fun h => (h, leBytes (e.toNat / 2 ^ 64 % 2 ^ 64) 8))) = .ok ws) :
    let v := ws.foldl (fun (a : Nat × State) w => (max a.1 (cpStore x.ctx w.1 w.2 a.2).1, (cpStore x.ctx w.1 w.2 a.2).2)) (x.pct, u)
    patchAct x p u = setCpq x.q (fun y => { y with did := true, pct := v.1 }) v.2 := by
  have stores : (fun e : BitVec 512 => (engHome u masterCp x.ctx (e.toNat % 2 ^ 64) .write 8).map (fun h => (h, leBytes (e.toNat / 2 ^ 64 % 2 ^ 64) 8)))
      = fun e => engHome u masterCp x.ctx (e.toNat % 2 ^ 64) .write 8 >>= fun h => pure (h, leBytes (e.toNat / 2 ^ 64 % 2 ^ 64) 8) := by
    funext e
    cases engHome u masterCp x.ctx (e.toNat % 2 ^ 64) .write 8 <;> rfl
  rw [stores] at homes
  unfold patchAct
  rw [if_neg (by simp [unwritten]), table]
  dsimp only [bind, Except.bind] at homes ⊢
  rw [homes]

end

/-! ## Doorbells and kicks (R394, R395) -/

section

variable {s : State} {b : Bell} {act : State → State}

theorem ring_of_open (opened : hostOpen s = true ∨ s.cp.bells ≠ []) : ring b act s = bellWaits b s := by
  refine if_pos ?_
  simpa using opened

theorem ring_of_settled (settled : hostOpen s = false) (none : s.cp.bells = []) : ring b act s = act s := if_neg (by simp [settled, none])

end

/-! ## Launches (R171) -/

theorem freeTree_of_lowest {s : State} {n : Nat} (small : n < 4096) (free : ∀ t ∈ s.sched.trees, t.n ≠ n)
    (lowest : ∀ m < n, ∃ t ∈ s.sched.trees, t.n = m) : freeTree s = some n := by
  rw [freeTree, firstFree, List.find?_range_eq_some]
  refine ⟨?_, List.mem_range.2 small, fun m below => ?_⟩
  · simpa using free
  · simpa using lowest m below

theorem freeTree_of_full {s : State} (full : ∀ n < 4096, ∃ t ∈ s.sched.trees, t.n = n) : freeTree s = none := by
  rw [freeTree, firstFree, List.find?_range_eq_none]
  intro n small
  simpa using full n small

theorem affinitySlice_eq (key : Word) : affinitySlice key 0 = if key = 0 then 0 else (key.toNat * 0x9E3779B1 % 2 ^ 32) / 2 ^ 16 % 288 := by
  rw [affinitySlice, BitVec.toNat_mul]
  rfl

theorem launchSeed_of_full {s : State} (full : ∀ n < 4096, ∃ t ∈ s.sched.trees, t.n = n) (c : Nat) (hdr : DWord) (h : BitVec 512) (key : Word)
    (pct : Nat) (tr : Tree) : launchSeed c hdr h key pct tr s = none := by
  unfold launchSeed
  rw [freeTree_of_full full]

theorem launchSeed_of_free {s : State} {n : Nat} (free : freeTree s = some n) (c : Nat) (hdr : DWord) (h : BitVec 512) (key : Word) (pct : Nat)
    (tr : Tree) :
    launchSeed c hdr h key pct tr s = segPush (if key = 0 then 0 else (key.toNat * 0x9E3779B1 % 2 ^ 32) / 2 ^ 16 % 288)
      { ctx := c, tree := n, prio := hdrPrio h, since := s.clock.cycle, pct := pct, entered := s.clock.cycle, work := .task hdr (hdrLb h) (hdrArgs h) 1 0 }
      { s with sched := { s.sched with trees := s.sched.trees ++ [{ tr with n := n, ctx := c, count := 1 }] } } := by
  unfold launchSeed
  rw [free, ← affinitySlice_eq]

end Sys2Proof.Laws
end

section
/-! PROOF. Graphs: when a replay starts, which node is next, what a node does, and how a replay ends (R175 to R177). -/

namespace Sys2Proof.Laws

open Sys2Proof Sys2Proof.Machine Sys2Proof.Rules

/-! ## Nodes (Table 8-10, R177) -/

section

variable {g : Graph} {nodes : List (BitVec 512)} {i p : Nat}

theorem resolved_nodeSt_iff : resolved (nodeSt g i) = true ↔ ¬ NodeOpen g i := by
  rw [resolved, decide_eq_true_iff, NodeOpen, not_and_or, not_not, not_not]
  rfl

theorem precedes_iff : Precedes nodes p i ↔ (((nodes[p]?).map ndSuccs).getD []).contains i = true := by
  cases at_ : nodes[p]? with
  | none => simp [Precedes, at_]
  | some m =>
    simp only [Precedes, at_, Option.some.injEq, exists_eq_left', Option.map_some, Option.getD_some, List.contains_iff_mem, ndSuccs, List.mem_filter,
      List.mem_map, List.mem_range, bne_iff_ne]
    constructor
    · rintro ⟨k, small, rfl, named⟩
      exact ⟨⟨k, small, rfl⟩, named⟩
    · rintro ⟨⟨k, small, rfl⟩, named⟩
      exact ⟨k, small, rfl, named⟩

theorem mem_predsOf : p ∈ predsOf nodes i ↔ p < nodes.length ∧ Precedes nodes p i := by
  rw [predsOf, List.mem_filter, List.mem_range, precedes_iff]

theorem atStart_iff {n : BitVec 512} (node : nodes[i]? = some n) : atStart nodes i = true ↔ ndPred n = 0 := by
  simp only [atStart, node, Option.map_some, Option.getD_some, beq_iff_eq]

theorem lets_iff {m : BitVec 512} (node : nodes[p]? = some m) :
    lets g nodes i p = true ↔ stGet .wait g.st p = .done ∧ (ndType m = 1 ∨ (p, i) ∈ g.sel) := by
  simp only [lets, node, Option.map_some, Option.getD_some, Bool.and_eq_true, decide_eq_true_eq, Bool.or_eq_true, beq_iff_eq, List.any_eq_true,
    ← Prod.mk.injEq, exists_eq_right]
  rfl

/-- A node with predecessors, none of which lets it run, is skipped. -/
theorem nodeSkipped_iff {n : BitVec 512} (node : nodes[i]? = some n) :
    NodeSkipped g nodes i n ↔ (!atStart nodes i && !(predsOf nodes i).isEmpty && !(predsOf nodes i).any (lets g nodes i)) = true := by
  have later : (!atStart nodes i) = true ↔ ndPred n ≠ 0 := by rw [Bool.not_eq_true', ← Bool.not_eq_true, atStart_iff node]
  have named : (!(predsOf nodes i).isEmpty) = true ↔ ∃ p < nodes.length, Precedes nodes p i := by
    simp only [Bool.not_eq_true', List.isEmpty_eq_false_iff_exists_mem, mem_predsOf]
  have unlet : (!(predsOf nodes i).any (lets g nodes i)) = true
      ↔ ∀ p < nodes.length, Precedes nodes p i → stGet .wait g.st p = .done → ∃ m, nodes[p]? = some m ∧ ndType m ≠ 1 ∧ (p, i) ∉ g.sel := by
    rw [Bool.not_eq_true', List.any_eq_false]
    simp only [mem_predsOf, and_imp]
    refine forall₃_congr fun p small _ => ?_
    have pred := List.getElem?_eq_getElem small
    rw [lets_iff pred, pred]
    simp only [Option.some.injEq, exists_eq_left', not_and, not_or, ne_eq]
  rw [NodeSkipped, Bool.and_eq_true, Bool.and_eq_true, later, named, unlet, and_assoc]

/-- What the search for the next node tests. -/
theorem nodeReady_iff (small : i < nodes.length) :
    NodeReady g nodes i ↔ (decide (nodeSt g i = .wait) && (atStart nodes i || (predsOf nodes i).all (fun p => resolved (nodeSt g p)))) = true := by
  have node := List.getElem?_eq_getElem small
  rw [Bool.and_eq_true, Bool.or_eq_true, decide_eq_true_eq, atStart_iff node, List.all_eq_true, NodeReady, node]
  simp only [small, true_and, Option.some.injEq, exists_eq_left', mem_predsOf, and_imp, resolved_nodeSt_iff]
  rfl

theorem nextNode_of_ready (ready : NodeReady g nodes i) (lowest : ∀ j < i, ¬ NodeReady g nodes j) : nextNode g nodes = some i := by
  refine List.find?_range_eq_some.2 ⟨(nodeReady_iff ready.1).1 ready, List.mem_range.2 ready.1, fun j below => ?_⟩
  rw [Bool.not_eq_true', ← Bool.not_eq_true, ← nodeReady_iff (below.trans ready.1)]
  exact lowest j below

end

/-! ## What a node does (R176, R177) -/

section

variable {g : Graph} {nodes : List (BitVec 512)} {i : Nat} {n : BitVec 512} {s : State}

theorem startNode_of_skipped (node : nodes[i]? = some n) (skipped : NodeSkipped g nodes i n) :
    startNode g nodes i n s = some (setNode g.g i .skipped s) := if_pos ((nodeSkipped_iff node).1 skipped)

/-- A node that no patch has changed and that meets Table 8-10 fails no check. -/
theorem nodePasses (good : nodeOk g.nnodes n = true) (unpatched : g.patched.contains i = false) :
    ¬ (!nodeOk g.nnodes n || patchBad g nodes i) = true := by
  simp only [good, patchBad, unpatched, Bool.not_true, Bool.false_and, Bool.or_false, Bool.false_eq_true, not_false_eq_true]

variable (node : nodes[i]? = some n) (kept : ¬ NodeSkipped g nodes i n) (good : nodeOk g.nnodes n = true) (unpatched : g.patched.contains i = false)

include node kept good unpatched

theorem startNode_of_unreleased (launches : ndType n = 1) (unreleased : s.clock.tbase < g.pct) : startNode g nodes i n s = none := by
  unfold startNode
  rw [if_neg (mt (nodeSkipped_iff node).2 kept), if_neg (nodePasses good unpatched), if_pos launches, if_pos unreleased]

theorem startNode_of_launch {h : BitVec 512} (launches : ndType n = 1) (released : g.pct ≤ s.clock.tbase)
    (check : launchCheck s g.ctx (ndAddr n) = .ok (.inr h)) :
    startNode g nodes i n s = (launchSeed g.ctx (ndAddr n) h (ndAff n) g.pct { n := 0, ctx := g.ctx, count := 0, node := some (g.g, i) } s).map
      (setNode g.g i .run) := by
  unfold startNode
  rw [if_neg (mt (nodeSkipped_iff node).2 kept), if_neg (nodePasses good unpatched), if_pos launches, if_neg (Nat.not_lt.2 released), check]

theorem startNode_of_cond {h : Nat} {bs : List Byte} (evaluates : ndType n ≠ 1) (read : cpRead s g.ctx (ndAddr n).toNat 8 = .ok (h, bs)) :
    let r := readTime h s
    let to_ := if relHolds (ndCmp n) (BitVec.ofNat 64 (leNat bs)) (BitVec.ofNat 64 (ndVal n)) then ndSlot n 0 else ndSlot n 1
    startNode g nodes i n s
      = some (setNode g.g i .done (setGraph g.g (fun y => { y with sel := (i, to_) :: y.sel.filter (·.1 != i), pct := max y.pct r.1 }) r.2)) := by
  intro r to_
  unfold startNode
  rw [if_neg (mt (nodeSkipped_iff node).2 kept), if_neg (nodePasses good unpatched), if_neg evaluates, read]

end

/-! ## Replays (R176, R177) -/

/-- What the end of a replay tests: it runs, and every node is resolved. -/
theorem replay_isOver {x : Graph} {s : State} (runs : cpRuns s = true) (running : x.running = true) (closed : ∀ i < x.nnodes, ¬ NodeOpen x i) :
    (!x.running || !cpRuns s || !(List.range x.nnodes).all (fun i => resolved (nodeSt x i))) = false := by
  have resolved : (List.range x.nnodes).all (fun i => resolved (nodeSt x i)) = true :=
    List.all_eq_true.2 fun i small => resolved_nodeSt_iff.2 (closed i (List.mem_range.1 small))
  rw [running, runs, resolved]
  rfl

section

variable {x : Graph} {s : State} (found : s.cp.graphs.find? (·.g == x.g) = some x)

include found

theorem startHeld_of_kept (keeps : x.heldKick = none ∨ x.running = true) : startHeld x.g s = s := by
  simp only [startHeld, found]
  rcases keeps with none | running
  · simp only [none]
  · cases x.heldKick <;> simp [running]

theorem driveGraph_eq : driveGraph x.g s = endIfDone x.g (runNodes x.g (x.nnodes + 1) (startHeld x.g (endIfDone x.g s))) := by
  simp only [driveGraph, found, Option.map_some, Option.getD_some]

/-- The nodes of a replay are all resolved where none is open. -/
theorem endIfDone_of_open (opened : ∃ i < x.nnodes, NodeOpen x i) : endIfDone x.g s = s := by
  obtain ⟨i, small, opened⟩ := opened
  have unresolved : (List.range x.nnodes).all (fun i => resolved (nodeSt x i)) = false :=
    List.all_eq_false.2 ⟨i, List.mem_range.2 small, mt resolved_nodeSt_iff.1 (not_not.2 opened)⟩
  simp only [endIfDone, found, unresolved, Bool.not_false, Bool.or_true, if_true]

variable (runs : cpRuns s = true)

include runs

/-- A kick without a patch table starts a replay. -/
theorem startHeld_of_kick {v : DWord} (held : x.heldKick = some v) (idle : x.running = false) (plain : v.toNat / 256 = 0) :
    startHeld x.g s = setGraph x.g (fun y => { y with
      running := true, st := [], sel := [], heldKick := none, pct := x.pct, sigAt := none, patched := y.patched.eraseDups }) s := by
  simp only [startHeld, found, held, idle, runs, Bool.not_true, Bool.or_false, Bool.false_eq_true, if_false, startReplay, plain, Nat.zero_mul, if_true,
    List.foldl_nil, List.map_nil, List.append_nil]

theorem runNodes_of_next {nodes : List (BitVec 512)} {i : Nat} {n : BitVec 512} (running : x.running = true) (read : graphNodes s x = .ok nodes)
    (next : nextNode x nodes = some i) (node : nodes[i]? = some n) (k : Nat) :
    runNodes x.g (k + 1) s = (startNode x nodes i n s).elim s (runNodes x.g k) := by
  simp only [runNodes, found, running, runs, read, next, node, Bool.not_true, Bool.or_false, Bool.false_eq_true, if_false]
  cases startNode x nodes i n s <;> rfl

section

variable (running : x.running = true) (closed : ∀ i < x.nnodes, ¬ NodeOpen x i)

include running closed

theorem endIfDone_of_signalled {t : Nat} (signal : x.sigAt = some t) : endIfDone x.g s
    = if t ≤ s.clock.tbase then setIrq (69 + x.ctx) (setGraph x.g (fun y => { y with running := false }) s) else s := by
  simp only [endIfDone, found, replay_isOver runs running closed, signal, Bool.false_eq_true, if_false]
  by_cases reached : t ≤ s.clock.tbase
  · rw [if_neg (Nat.not_lt.2 reached), if_pos reached]
  · rw [if_pos (Nat.not_le.1 reached), if_neg reached]

variable (unsignalled : x.sigAt = none)

include unsignalled

theorem endIfDone_of_unreleased (unreleased : s.clock.tbase < x.pct) : endIfDone x.g s = s := by
  simp only [endIfDone, found, replay_isOver runs running closed, unsignalled, unreleased, Bool.false_eq_true, if_false, if_true]

variable (released : x.pct ≤ s.clock.tbase)

include released

theorem endIfDone_of_noSignal (without : x.sigAddr = 0) : endIfDone x.g s = setGraph x.g (fun y => { y with running := false }) s := by
  simp only [endIfDone, found, replay_isOver runs running closed, unsignalled, Nat.not_lt.2 released, without, Bool.false_eq_true, if_false, if_true]

theorem endIfDone_of_signal {h : Nat} (named : x.sigAddr ≠ 0) (home : engHome s masterCp x.ctx x.sigAddr.toNat .write 8 = .ok h) :
    let w := cpStore x.ctx h (leBytes x.sigVal.toNat 8) s
    endIfDone x.g s = setGraph x.g (fun y => { y with sigAt := some w.1, pct := max y.pct w.1 }) w.2 := by
  simp only [endIfDone, found, replay_isOver runs running closed, unsignalled, Nat.not_lt.2 released, named, home, Bool.false_eq_true, if_false]

end

end

end Sys2Proof.Laws
end

section
/-! PROOF. What the packets of a queue, doorbells, kicks and graphs do (R164, R169 to R171, R176, R177, R394, R395). -/

namespace Sys2Proof.Laws

open Sys2Proof Sys2Proof.Machine Sys2Proof.Rules

/-- Settles O42, packet by packet, then by what the window takes, what a graph finds and what a waiting hart reads. -/
theorem packetsAct : Obligations.PacketsAct := by
  refine ⟨fun q p s u v x h acts released good seed => ?launch, fun q p s u x h bs read => ⟨fun acts => ?wait, fun acts => ?cond⟩,
    fun q p h s u x acts released => ⟨fun written => ?signalled, fun unwritten home clean => ?signal⟩, fun q p s u x acts => ?join,
    fun q p s u x acts => ⟨fun written released => ?patched, fun unwritten es ws table homes => ?patch⟩,
    fun q v s takes ready settled none => ?doorbell, fun g v s x takes ready settled none named found => ?kick,
    fun c hdr h key pct tr s => ⟨fun full => launchSeed_of_full full ..,
      fun n small free lowest => launchSeed_of_free (freeTree_of_lowest small free lowest) ..⟩,
    fun s x found runs => ⟨driveGraph_eq found, fun v => startHeld_of_kick found runs, startHeld_of_kept found, endIfDone_of_open found,
      fun running closed => ⟨fun t => endIfDone_of_signalled found runs running closed, endIfDone_of_unreleased found runs running closed,
        endIfDone_of_noSignal found runs running closed,
        fun unsignalled released named h => endIfDone_of_signal found runs running closed unsignalled released named⟩⟩,
    fun s x nodes k i n found runs running read len small node ready lowest => ?node,
    fun k v s refuses => ⟨congrArg _ (hostFlit_of_refused refuses _), congrArg _ (hostFlit_of_refused refuses _)⟩,
    fun k v s takes opened => ?waits, fun s cmp addr v d waiting aligned inside runs granted clean => ?reread⟩
  case launch => exact congrArg _ ((packetStep_of_atPacket acts _).trans (launchAct_of_seed released good seed))
  case wait => exact congrArg _ ((packetStep_of_atPacket acts _).trans (withWord_of_read read _))
  case cond => exact congrArg _ ((packetStep_of_atPacket acts _).trans (withWord_of_read read _))
  case signalled => exact congrArg _ ((packetStep_of_atPacket acts _).trans (signalAct_of_released released written))
  case signal => exact congrArg _ ((packetStep_of_atPacket acts _).trans (signalAct_of_home released unwritten home clean))
  case join =>
    have waits : u.sched.trees.any (·.queue == some x.q) = true ↔ ∃ t ∈ u.sched.trees, t.queue = some x.q := by
      simp only [List.any_eq_true, beq_iff_eq]
    refine congrArg _ ((packetStep_of_atPacket acts _).trans ?_)
    simp only [joinAct, waits]
  case patched => exact congrArg _ ((packetStep_of_atPacket acts _).trans (patchAct_of_written written released))
  case patch => exact congrArg _ ((packetStep_of_atPacket acts _).trans (patchAct_of_table unwritten table homes))
  case doorbell =>
    refine congrArg _ ((hostFlit_of_accepts takes _).trans ((ring_of_settled settled none).trans ?_))
    exact if_neg (not_not.2 ready)
  case kick =>
    refine congrArg _ ((hostFlit_of_accepts takes _).trans ((ring_of_settled settled none).trans ?_))
    rw [kickAct, if_neg (by simp only [ready, named, ne_eq, not_true_eq_false, or_self, not_false_eq_true]), found]
  case node =>
    have goes (u : State) (start : startNode x nodes i n s = some u) : runNodes x.g (k + 1) s = runNodes x.g k u := by
      rw [runNodes_of_next found runs running read (nextNode_of_ready ready lowest) node, start]
      rfl
    have stops (start : startNode x nodes i n s = none) : runNodes x.g (k + 1) s = s := by
      rw [runNodes_of_next found runs running read (nextNode_of_ready ready lowest) node, start]
      rfl
    refine ⟨fun skipped => goes _ (startNode_of_skipped node skipped),
      fun kept good unpatched => ⟨fun launches released h check => ⟨fun u seed => ?_, fun seed => ?_⟩,
      fun launches unreleased => stops (startNode_of_unreleased node kept good unpatched launches unreleased),
      fun evaluates h bs word => goes _ (startNode_of_cond node kept good unpatched evaluates word)⟩⟩
    · exact goes _ ((startNode_of_launch node kept good unpatched launches released check).trans (congrArg _ seed))
    · exact stops ((startNode_of_launch node kept good unpatched launches released check).trans (congrArg _ seed))
  case waits =>
    exact ⟨congrArg _ ((hostFlit_of_accepts takes _).trans (ring_of_open opened)), congrArg _ ((hostFlit_of_accepts takes _).trans (ring_of_open opened))⟩
  case reread =>
    have rereads : s.asHart s.hart.n rereadStep = hartTry cmp addr (BitVec.ofNat 64 v) d s := by
      rw [State.asHart, if_pos rfl, rereadStep, waiting]
    refine congrArg _ (rereads.trans ?_)
    rw [hartTry_of_clean aligned inside runs granted clean, BitVec.toNat_ofNat]

end Sys2Proof.Laws
end

section
/-! PROOF. How a command is taken up, held or ignored (R396, R397), and the ends of the commands that wait (R366, R376). -/

namespace Sys2Proof.Laws

open Sys2Proof Sys2Proof.Machine Sys2Proof.Rules

/-! ## CMDGO (R359, R395, R396) -/

section

variable {ok : State → Bool} {body : State → State} {s : State}

/-- The state with the record that a write to CMDGO, or a held command, is about. -/
def withRecord (s : State) : State :=
  { s with win := { s.win with cmdrec := if s.cp.cmd = .held then s.cp.cmdrec else s.win.cmdrec } }

theorem hearsCommands_iff : HearsCommands s
    ↔ ¬ (s.win.state ≠ .ready || (decide (s.cp.cmd ≠ .held) && (s.win.cmdRes == 1 || !hostTakes s))) = true := by
  have takes : hostTakes s = false ↔ ¬ Accepts s := by rw [← Bool.not_eq_true, hostTakes_iff]
  simp only [HearsCommands, Bool.or_eq_true, Bool.and_eq_true, decide_eq_true_eq, beq_iff_eq, Bool.not_eq_true', takes, not_or, not_not, not_and, ne_eq]
  exact and_congr_right fun _ => ⟨fun h other => ⟨fun busy => other (h (.inl busy)), by_contra fun refuses => other (h (.inr refuses))⟩,
    fun h busy => by_contra fun other => busy.elim (h other).1 (not_not.2 (h other).2)⟩

/-- A command is looked at with its record, and CMDREC then holds again what it held. -/
theorem commandGo_eq : commandGo ok body s = recordKept s (
    if s.win.state ≠ .ready || (decide (s.cp.cmd ≠ .held) && (s.win.cmdRes == 1 || !hostTakes s)) || !ok (withRecord s) then withRecord s
    else if isFrozen s masterCp || hostOpen s then setCmd .held (withRecord s)
    else body (takenUp s)) := by
  unfold commandGo withHeld recordKept takenUp withRecord
  by_cases held : s.cp.cmd = .held
  · simp only [held, if_true]
    rfl
  · simp only [held, if_false]

theorem recordKept_withRecord (s : State) : recordKept s (withRecord s) = s := by
  unfold recordKept withRecord
  split <;> rfl

theorem commandGo_of_unheard (unheard : ¬ HearsCommands s) : commandGo ok body s = s := by
  rw [hearsCommands_iff, not_not] at unheard
  rw [commandGo_eq, if_pos (by rw [unheard, Bool.true_or]), recordKept_withRecord]

variable (hears : HearsCommands s) (mine : ok (withRecord s) = true)

include hears mine

theorem commandGo_unguarded :
    ¬ (s.win.state ≠ .ready || (decide (s.cp.cmd ≠ .held) && (s.win.cmdRes == 1 || !hostTakes s)) || !ok (withRecord s)) = true := by
  rw [mine, Bool.not_true, Bool.or_false]
  exact hearsCommands_iff.1 hears

theorem commandGo_of_now (now : ActsNow s) : commandGo ok body s = recordKept s (body (takenUp s)) := by
  rw [commandGo_eq, if_neg (commandGo_unguarded hears mine), if_neg (by rw [now.1, now.2]; exact Bool.false_ne_true)]

theorem commandGo_of_later (later : ¬ ActsNow s) : commandGo ok body s = commandHeld s := by
  have waits : (isFrozen s masterCp || hostOpen s) = true := by
    by_contra acts
    simp only [Bool.or_eq_true, not_or, Bool.not_eq_true] at acts
    exact later acts
  rw [commandGo_eq, if_neg (commandGo_unguarded hears mine), if_pos waits]
  unfold recordKept setCmd withRecord commandHeld takenUp
  split <;> simp only [if_true]

end

/-! ## What a command leaves (R396) -/

/-- A command goes on as an event of its own. -/
theorem setCmd_busyWith {w : CmdWait} (waits : w ≠ .held) (s : State) : setCmd w s = busyWith w s := by
  simp only [setCmd, busyWith, if_neg waits]

/-- Each instruction of Table 21-3 is the command of its code. -/
theorem exec_command : ∀ p ∈ commandCodes, ∃ body, ∀ s, exec p.1 s = .next (command p.2 body s) := by
  intro p code
  simp only [commandCodes, List.mem_cons, List.not_mem_nil, or_false] at code
  rcases code with rfl | rfl | rfl | rfl | rfl | rfl | rfl | rfl | rfl | rfl <;> exact ⟨_, fun _ => rfl⟩

theorem commandReads_of_granted {c : Nat} {rs : List (Nat × Nat)} {s : State} (reads : ∀ r ∈ rs, granted s masterCp c r.1 r.2 = true)
    (body : State → State) : commandReads c rs body s = body s := by
  have none : rs.find? (fun r => !granted s masterCp c r.1 r.2) = none := List.find?_eq_none.2 fun r mem => by simp [reads r mem]
  rw [commandReads, none]

section

variable {s : State} {c : Nat}

theorem pollCommand_preempt (waits : s.cp.cmd = .preempt c) :
    let idle := coreHolds s c = false ∧ s.cp.resuming.contains c = false ∧ s.swapEnd = none
    (idle → pollCommand s = commandDone 0 s) ∧ (¬ idle → pollCommand s = s) := by
  have idle : (coreHolds s c || s.cp.resuming.contains c || s.swapEnd.isSome) = false
      ↔ coreHolds s c = false ∧ s.cp.resuming.contains c = false ∧ s.swapEnd = none := by
    simp only [Bool.or_eq_false_iff, Option.isSome_eq_false_iff, Option.isNone_iff_eq_none, and_assoc]
  intro i
  unfold pollCommand
  rw [waits]
  exact ⟨fun h => if_neg (Bool.not_eq_true _ ▸ idle.2 h), fun h => if_pos (Bool.eq_true_of_not_eq_false (mt idle.1 h))⟩

theorem pollCommand_resume (waits : s.cp.cmd = .resume c) :
    let idle := s.cp.resuming.contains c = false ∧ s.swapEnd = none
    (idle → pollCommand s = commandDone 0 s) ∧ (¬ idle → pollCommand s = s) := by
  have idle : (s.cp.resuming.contains c || s.swapEnd.isSome) = false ↔ s.cp.resuming.contains c = false ∧ s.swapEnd = none := by
    simp only [Bool.or_eq_false_iff, Option.isSome_eq_false_iff, Option.isNone_iff_eq_none]
  intro i
  unfold pollCommand
  rw [waits]
  exact ⟨fun h => if_neg (Bool.not_eq_true _ ▸ idle.2 h), fun h => if_pos (Bool.eq_true_of_not_eq_false (mt idle.1 h))⟩

theorem pollCommand_inval {n : Nat} {ls : List Nat} (waits : s.cp.cmd = .inval c n ls) :
    let left := ls.filter (lineOpen s n)
    pollCommand s = if left = [] ∧ olderOpen s c n = false then commandDone 0 s else { s with cp := { s.cp with cmd := .inval c n left } } := by
  intro left
  unfold pollCommand
  rw [waits]
  cases rest : left with
  | nil =>
    simp only [left] at rest
    simp only [rest]
    cases olderOpen s c n <;> rfl
  | cons l t =>
    simp only [left] at rest
    simp only [rest]
    rfl

end

end Sys2Proof.Laws
end

section
/-! PROOF. Mapping a queue and its context, and unmapping a context (R155, R156, R170, R174). -/

namespace Sys2Proof.Laws

open Sys2Proof Sys2Proof.Machine Sys2Proof.Rules

/-! ## Descriptors (Tables 8-1 and 8-7) -/

theorem ctxOf_eq (c desc d : Nat) : ctxOf c desc d = contextFrom c desc d := by
  have sys : d.testBit 128 = decide (bitsAt d 128 1 = 1) := Nat.testBit_eq_decide_div_mod_eq
  rw [ctxOf, sys]
  rfl

theorem pcOk_iff (v : DWord) : pcOk v = true ↔ canonical v = true ∧ v.toNat % 4 = 0 := by
  rw [pcOk, Bool.and_eq_true, beq_iff_eq]

theorem ctxDescOk_iff (d : Nat) : ctxDescOk d = true ↔ ContextRecord d := by
  have small (lo : Nat) : (BitVec.ofNat 64 (dfield d lo 64)).toNat = dfield d lo 64 := by
    rw [BitVec.toNat_ofNat, dfield, Nat.mod_mod]
  unfold ctxDescOk ContextRecord
  simp only [Bool.and_eq_true, Bool.or_eq_true, beq_iff_eq, decide_eq_true_eq, canonNat, pow2In_iff, pcOk_iff, imp_iff_not_or, ne_eq, not_not]
  simp only [ctxOf, bitsAt_eq, small]
  exact Iff.of_eq (by ac_rfl)

/-! ## Mapping a queue (R155, R170) -/

section

variable {q c d : Nat} {s : State}

theorem adoptQueue_of_bad (bad : ¬ QueueRecord d) : adoptQueue q c d s = none := by
  unfold adoptQueue
  rw [if_pos (by simpa using mt (queueDescOk_iff d).1 bad)]
  rfl

theorem adoptQueue_of_good (good : QueueRecord d) : adoptQueue q c d s = (queuePages s c d).map (fun pins => queueMapped q c d pins s) := by
  unfold adoptQueue
  rw [if_neg (by simpa using (queueDescOk_iff d).2 good)]
  unfold queuePages
  simp only [bitsAt_eq]
  cases ringPages s c [(dfield d 0 64, 64 * 2 ^ dfield d 64 8), (dfield d 128 64, 4), (dfield d 192 64, 64)] <;> rfl

end

/-! ## Mapping a context (R155, R156) -/

section

variable {c desc : Nat} {s : State}

theorem adoptContext_of_bad (bad : ¬ ContextRecord (getLe s.mem desc 128) ∨ isPoisoned s desc 128 = true) : adoptContext c desc s = none := by
  unfold adoptContext
  rw [← ctxDescOk_iff] at bad
  exact if_pos (by simpa using bad)

/-- A good descriptor's context is mapped where its pages and a tree are found. -/
theorem adoptContext_of_good (good : ContextRecord (getLe s.mem desc 128)) (clean : isPoisoned s desc 128 = false) :
    let x := contextFrom c desc (getLe s.mem desc 128)
    adoptContext c desc s = (contextPages s x).bind fun pins => (freeTree s).map fun n =>
      (commitQuiet c (atAddr x.fqAddr (leBytes 0 4)) 0 .module { s with
        ctxs := s.ctxs ++ [{ x with pins := pins, detTree := n }]
        sched := { s.sched with trees := s.sched.trees ++ [{ n := n, ctx := c, count := 0, detached := true }] } }).1 := by
  intro x
  unfold adoptContext
  dsimp only
  rw [if_neg (by simpa [clean] using (ctxDescOk_iff _).2 good), ctxOf_eq]
  generalize freeTree s = tree
  show (contextPages s x).bind _ = _
  cases contextPages s x with
  | none => rfl
  | some pins => cases tree <;> rfl

end

/-! ## MAP_QUEUE (R155) -/

/-- The state in which the context of a mapping is there: mapped before under the same descriptor, or now; none where it is refused. -/
def contextReady (c desc : Nat) (s : State) : Option State :=
  match s.ctx? c with
  | some x => if x.desc = desc then some s else none
  | none => adoptContext c desc s

section

variable {q c desc qdesc : Nat} {s : State}

theorem contextReady_of_mapped {y : Ctx} (mapped : s.ctx? c = some y) : contextReady c desc s = if y.desc = desc then some s else none := by
  unfold contextReady
  rw [mapped]

theorem contextReady_of_fresh (fresh : s.ctx? c = none) : contextReady c desc s = adoptContext c desc s := by
  unfold contextReady
  rw [fresh]

theorem mapQueue_eq : mapQueue q c desc qdesc s
    = (if isPoisoned s qdesc 64 then none else (contextReady c desc s).bind (adoptQueue q c (getLe s.mem qdesc 64))).elim
      (3, refuseMapping q c desc (getLe s.mem qdesc 64) s) (fun t => (0, t)) := by
  show (match (if isPoisoned s qdesc 64 then none else (contextReady c desc s).bind (adoptQueue q c (getLe s.mem qdesc 64))) with
    | some s => (0, s)
    | none => (3, refuseMapping q c desc (getLe s.mem qdesc 64) s)) = _
  cases (if isPoisoned s qdesc 64 then none else (contextReady c desc s).bind (adoptQueue q c (getLe s.mem qdesc 64))) <;> rfl

theorem mapQueue_of_mapped {t : State} (clean : isPoisoned s qdesc 64 = false)
    (mapped : (contextReady c desc s).bind (adoptQueue q c (getLe s.mem qdesc 64)) = some t) : mapQueue q c desc qdesc s = (0, t) := by
  rw [mapQueue_eq, clean, mapped]
  rfl

theorem mapQueue_of_refused (refused : isPoisoned s qdesc 64 = true ∨ (contextReady c desc s).bind (adoptQueue q c (getLe s.mem qdesc 64)) = none) :
    mapQueue q c desc qdesc s = (3, refuseMapping q c desc (getLe s.mem qdesc 64) s) := by
  rw [mapQueue_eq]
  rcases refused with poisoned | refused
  · rw [if_pos poisoned]
    rfl
  · rw [refused, ite_self]
    rfl

end

/-! ## Unmapping (R174) -/

theorem stow_eq (s : State) :
    s.stow = { s with th := {}, pl := { s.pl with threads := if s.th.live then insThread s.th s.pl.threads else s.pl.threads } } := by
  unfold State.stow
  split <;> rfl

/-- What an unmapping looks at when it drops the work of a context. -/
structure Work where
  ctxs : List Ctx
  queues : List CpQueue
  graphs : List Graph
  sched : Sched
  atts : List Att
  trigs : List TrigRec
  slots : List SaveSlot
  standby : Standby
  faults : List FaultRec
  mem : List Host.Cell
  ctx : Option Nat
  warps : List Warp
  blocks : List Block

def workOf (s : State) : Work where
  ctxs := s.ctxs
  queues := s.cp.queues
  graphs := s.cp.graphs
  sched := s.sched
  atts := s.sl.atts
  trigs := s.sl.trigs
  slots := s.slots
  standby := s.standby
  faults := s.xl.faults
  mem := s.mem
  ctx := s.pl.ctx
  warps := s.pl.warps
  blocks := s.pl.blocks

/-- An unmapping of context `c` keeps until then all that it looks at, and the threads of a plane of another context. -/
structure KeepsWork (c : Nat) (s t : State) : Prop where
  work : workOf t = workOf s
  dead : s.th.live = false → t.th.live = false
  threads : s.pl.ctx ≠ some c → t.pl.threads = s.pl.threads

section

variable {c : Nat} {s t u : State}

theorem KeepsWork.refl (c : Nat) (s : State) : KeepsWork c s s := ⟨rfl, id, fun _ => rfl⟩

theorem KeepsWork.ctx (a : KeepsWork c s t) : t.pl.ctx = s.pl.ctx := congrArg Work.ctx a.work

theorem KeepsWork.trans (a : KeepsWork c s t) (b : KeepsWork c t u) : KeepsWork c s u where
  work := b.work.trans a.work
  dead := b.dead ∘ a.dead
  threads away := (b.threads (a.ctx.trans_ne away)).trans (a.threads away)

theorem KeepsWork.ite {p : Prop} [Decidable p] (a : KeepsWork c s t) (b : KeepsWork c s u) : KeepsWork c s (if p then t else u) := by
  split
  · exact a
  · exact b

theorem keepsWork_leaveWaits (l : List Thread) (s : State) : KeepsWork c s (l.foldl (fun s t => leaveWaits t.slot t.lane s) s) := by
  induction l generalizing s with
  | nil => exact .refl c s
  | cons t l ih => exact KeepsWork.trans (t := leaveWaits t.slot t.lane s) ⟨rfl, id, fun _ => rfl⟩ (ih (leaveWaits t.slot t.lane s))

theorem keepsWork_commandDone (res : Nat) (s : State) : KeepsWork c s (commandDone res s) :=
  .ite ⟨rfl, id, fun _ => rfl⟩ ⟨rfl, id, fun _ => rfl⟩

theorem keepsWork_clusterClear (s : State) : KeepsWork c s (clusterClear c s) := by
  unfold clusterClear State.stowSeq
  dsimp only
  split <;> exact ⟨rfl, id, fun _ => rfl⟩

theorem keepsWork_updThreads (here : s.pl.ctx = some c) (p : Thread → Bool) (f : Thread → Thread) : KeepsWork c s (s.updThreads p f) where
  work := rfl
  dead dead := (congrArg Thread.live (if_neg (by simp [dead]))).trans dead
  threads away := absurd here away

theorem keepsWork_dropTranslations (lo hi : Nat) (s : State) : KeepsWork c s (dropTranslations c lo hi s) := by
  have forgets (p : Thread → Bool) (f : Thread → Thread) : KeepsWork c s (if s.pl.ctx = some c then s.updThreads p f else s) := by
    split
    · next here => exact keepsWork_updThreads here p f
    · exact .refl c s
  exact (forgets _ _).trans ⟨rfl, id, fun _ => rfl⟩

/-- The state in which an unmapping of `c` drops its work: its threads wait for nothing, a copy of the host's is over, the cluster holds nothing of it,
and its translations are gone. -/
def quieted (c : Nat) (s : State) : State :=
  let s := s.stow
  let s := if s.pl.ctx == some c then (s.pl.threads.foldl (fun s t => leaveWaits t.slot t.lane s) s) else s
  let s := if s.cl.copyQ.any (fun x => decide (x.kind = .hostCopy) && x.ctx == c) then commandDone 3 s else s
  dropTranslations c 0 (2 ^ 57) (clusterClear c s)

theorem keepsWork_quieted (c : Nat) (s : State) : KeepsWork c s.stow (quieted c s) :=
  have waits := KeepsWork.ite (p := s.stow.pl.ctx == some c) (keepsWork_leaveWaits s.stow.pl.threads s.stow) (.refl c _)
  have copies := waits.trans (.ite (keepsWork_commandDone 3 _) (.refl c _))
  (copies.trans (keepsWork_clusterClear _)).trans (keepsWork_dropTranslations 0 (2 ^ 57) _)

theorem workOf_stow (s : State) : workOf s.stow = workOf s := by
  rw [stow_eq]
  rfl

/-- The entries of the work queues that an unmapping leaves are not of its context. -/
theorem segOf_without (c q : Nat) (s : State) : ∀ y ∈ segOf { s with sched := s.sched.without c } q, y.ctx ≠ c := by
  intro y mem
  cases found : (s.sched.without c).segs.find? (·.1 == q) with
  | none => simp [segOf, found] at mem
  | some x =>
    have kept := List.mem_of_find?_eq_some found
    simp only [Sched.without, List.mem_filter, List.mem_map] at kept
    obtain ⟨⟨z, -, rfl⟩, -⟩ := kept
    simp only [segOf, found, Option.map_some, Option.getD_some, List.mem_filter, bne_iff_ne] at mem
    exact mem.2

theorem standby_without {b : Standby} (holds : b.holds = some c) (here : Bool) : (b.without c here).st = .empty := by
  have same (p : Prop) [Decidable p] : (if p then b.noEngine else b).holds = some c := by
    split <;> exact holds
  unfold Standby.without
  dsimp only
  rw [if_pos (beq_iff_eq.2 (same _))]

/-- An unmapping drops the work of its context from what it found. -/
theorem unmapContext_spec (c : Nat) (s : State) :
    let u := unmapContext c s
    u.ctxs = s.ctxs.filter (·.n != c) ∧ u.cp.queues = s.cp.queues.filter (·.ctx != c) ∧ u.cp.graphs = s.cp.graphs.filter (·.ctx != c)
    ∧ u.sched = s.sched.without c ∧ u.sl.atts = s.sl.atts.filter (·.ctx != c) ∧ u.sl.trigs = s.sl.trigs.filter (·.ctx != c)
    ∧ u.slots = s.slots.filter (·.ctx != c) ∧ u.xl.faults = s.xl.faults.filter (·.ctx != c) ∧ u.standby = s.standby.without c (s.pl.ctx == some c)
    ∧ u.mem = s.mem := by
  have work : workOf (quieted c s) = workOf s := (keepsWork_quieted c s).work.trans (workOf_stow s)
  have field {α : Type} (f : Work → α) : f (workOf (quieted c s)) = f (workOf s) := congrArg f work
  have here : s.stow.pl.ctx = s.pl.ctx := congrArg Work.ctx (workOf_stow s)
  refine ⟨congrArg (List.filter _) (field Work.ctxs), congrArg (List.filter _) (field Work.queues), congrArg (List.filter _) (field Work.graphs),
    congrArg (Sched.without · c) (field Work.sched), congrArg (List.filter _) (field Work.atts), congrArg (List.filter _) (field Work.trigs),
    congrArg (List.filter _) (field Work.slots), congrArg (List.filter _) (field Work.faults), ?_, field Work.mem⟩
  rw [← here]
  exact congrArg (Standby.without · c _) (field Work.standby)

theorem quieted_dead (c : Nat) (s : State) : (quieted c s).th.live = false := by
  refine (keepsWork_quieted c s).dead ?_
  rw [stow_eq]

theorem living_of_dead (dead : s.th.live = false) : s.living = s.pl.threads := if_neg (by simp [dead])

theorem unmapContext_pl (c : Nat) (s : State) :
    (unmapContext c s).pl = if s.stow.pl.ctx == some c then (quieted c s).pl.cleared else (quieted c s).pl := rfl

/-- The plane of an unmapped context holds no work. -/
theorem unmapContext_here (here : s.pl.ctx = some c) :
    let u := unmapContext c s
    u.pl.ctx = none ∧ u.living = [] ∧ u.pl.warps = [] ∧ u.pl.blocks = [] := by
  have holds : (s.stow.pl.ctx == some c) = true := beq_iff_eq.2 ((congrArg Work.ctx (workOf_stow s)).trans here)
  have cleared := (unmapContext_pl c s).trans (if_pos holds)
  intro u
  rw [show u.living = u.pl.threads from living_of_dead (quieted_dead c s), show u.pl = _ from cleared]
  exact ⟨rfl, rfl, rfl, rfl⟩

/-- The plane of another context stays as it was. -/
theorem unmapContext_away (away : s.pl.ctx ≠ some c) :
    let u := unmapContext c s
    u.pl.ctx = s.pl.ctx ∧ u.living = s.stow.living ∧ u.pl.warps = s.pl.warps ∧ u.pl.blocks = s.pl.blocks := by
  have other : s.stow.pl.ctx ≠ some c := (congrArg Work.ctx (workOf_stow s) : s.stow.pl.ctx = s.pl.ctx).trans_ne away
  have work : workOf (quieted c s) = workOf s := (keepsWork_quieted c s).work.trans (workOf_stow s)
  have kept := (unmapContext_pl c s).trans (if_neg (by simpa using other))
  intro u
  rw [show u.living = u.pl.threads from living_of_dead (quieted_dead c s), living_of_dead (s := s.stow) (by rw [stow_eq]), show u.pl = _ from kept]
  exact ⟨congrArg Work.ctx work, (keepsWork_quieted c s).threads other, congrArg Work.warps work, congrArg Work.blocks work⟩

/-- No translation of an unmapped context is left. -/
theorem unmapContext_coreTlb (c : Nat) (s : State) :
    ∀ t ∈ (unmapContext c s).xl.coreTlb, t.ctx = c → ¬ (t.vpage * 4096 < 2 ^ 57 ∧ 0 < (t.vpage + t.pages) * 4096) := by
  intro t mem own meets
  have kept : (!t.meets c 0 (2 ^ 57)) = true := (List.mem_filter.1 mem).2
  rw [TlbEnt.meets, own, beq_self_eq_true, decide_eq_true meets] at kept
  exact absurd kept (by decide)

end

end Sys2Proof.Laws
end

section
/-! PROOF. What each command of Table 21-3 does with a good record (R155, R170, R172, R174, R175, R366, R376, R397, R404, R406). -/

namespace Sys2Proof.Laws

open Sys2Proof Sys2Proof.Machine Sys2Proof.Rules

/-! ## REG_GRAPH (R175) -/

theorem graphHeaderOk_iff (s : State) (d : Nat) : GraphHeaderOk s d
    ↔ ¬ (d / 2 ^ 256 ≠ 0 ∨ d / 2 ^ 80 % 2 ^ 48 ≠ 0 ∨ (graphOf s d).nnodes = 0 ∨ (graphOf s d).nnodes > 65534)
      ∧ ¬ (!aligned (BitVec.ofNat 64 (graphOf s d).nodes) 64 || !((graphOf s d).sigAddr == 0 || aligned (graphOf s d).sigAddr 8)) = true := by
  simp only [GraphHeaderOk, not_or, ne_eq, not_not, gt_iff_lt, Nat.not_lt, Nat.one_le_iff_ne_zero, Bool.or_eq_true, Bool.not_eq_true', Bool.not_eq_false,
    Bool.or_eq_true, beq_iff_eq, and_assoc]

section

variable {u : State} {h : Nat} {bs : List Byte}

theorem regGraphCmd_of_misaligned (misaligned : aligned (BitVec.ofNat 64 (cmdArg u 0)) 64 = false) :
    regGraphCmd u = graphRefused (cmdCtx u) (cmdArg u 0) u := if_pos (by rw [misaligned]; rfl)

variable (aligned64 : aligned (BitVec.ofNat 64 (cmdArg u 0)) 64 = true) (read : cpRead u (cmdCtx u) (cmdArg u 0) 64 = .ok (h, bs))

include aligned64 read

theorem regGraphCmd_of_badHeader (bad : ¬ GraphHeaderOk u (leNat bs)) : regGraphCmd u = graphRefused (cmdCtx u) (cmdArg u 0) u := by
  rw [graphHeaderOk_iff, not_and_or, not_not, not_not] at bad
  refine (if_neg (by rw [aligned64]; exact Bool.false_ne_true)).trans ?_
  rw [read]
  dsimp only
  split
  · rfl
  · next fits => exact if_pos (bad.resolve_left fits)

/-- The nodes of a graph with a good header are checked. -/
theorem regGraphCmd_of_nodes {nodes : List (BitVec 512)} (good : GraphHeaderOk u (leNat bs)) (found : graphNodes u (graphOf u (leNat bs)) = .ok nodes) :
    let g := graphOf u (leNat bs)
    regGraphCmd u = (graphBad nodes).elim
      (commandDone 0 { u with cp := { u.cp with graphs := u.cp.graphs.filter (fun x => x.g != g.g) ++ [g] } })
      (fun k => graphRefused (cmdCtx u) (nodeVa g k) u) := by
  intro g
  obtain ⟨fits, addresses⟩ := (graphHeaderOk_iff u (leNat bs)).1 good
  refine (if_neg (by rw [aligned64]; exact Bool.false_ne_true)).trans ?_
  rw [read]
  refine (if_neg fits).trans ((if_neg addresses).trans ?_)
  unfold graphOf at found
  rw [found]
  dsimp only
  cases graphBad nodes <;> rfl

end

/-! ## MAP_QUEUE (R155) -/

section

variable {u : State} (descriptor : granted u masterCp (cmdCtx u) (cmdArg u 0) 128 = true)
  (queue : granted u masterCp (cmdCtx u) (cmdArg u 1) 64 = true) (walker : isFrozen u masterWalker = false) (fault : isFrozen u masterFault = false)
  (free : mapBarred u = none)

include descriptor queue walker fault free

theorem mapCmd_of_record {r : Nat × State} {record : Option Nat} (maps : mapQueue (cmdIdx u) (cmdCtx u) (cmdArg u 0) (cmdArg u 1) u = r)
    (lies : refusedAt (cmdCtx u) (cmdArg u 0) (getLe u.mem (cmdArg u 1) 64) u = record) :
    ((r.1 ≠ 3 ∨ record = none) → mapCmd u = commandDone r.1 r.2)
    ∧ ∀ pa, r.1 = 3 → record = some pa → granted u masterCp (cmdCtx u) pa 64 = true → mapCmd u = refusedDone (lineRec r.2 (lineOf pa)).vl r.2 := by
  have reads : ∀ x ∈ [(cmdArg u 0, 128), (cmdArg u 1, 64)], granted u masterCp (cmdCtx u) x.1 x.2 = true := by
    simp [descriptor, queue]
  unfold mapCmd
  rw [commandReads_of_granted reads]
  simp only [walker, fault, free, maps, lies, Bool.or_self, Bool.false_eq_true, if_false]
  refine ⟨fun quiet => ?_, fun pa refused at_ reached => ?_⟩
  · rw [show (if r.1 = 3 then record else none) = none by rcases quiet with accepted | none_ <;> simp [*]]
  · rw [if_pos refused, at_]
    exact if_pos reached

end

/-! ## COPY (R397) -/

section

variable {u : State} (own : cmdArg u 1 = u.xid) (room : copyHeld u < 32)

include own room

omit own in
/-- This cluster's engine has room for the operation. -/
theorem copyCmd_roomy : ¬ (cmdArg u 1 = u.xid ∧ copyHeld u ≥ 32) := fun full => Nat.not_le.2 room full.2

omit room in
theorem masterEngine_eq : masterEngine u 1 = 0x8000 + 4 * cmdArg u 1 + 1 := by rw [own]; rfl

variable {h : Nat}

theorem copyCmd_of_clean (home : engHome u (masterEngine u 1) (cmdCtx u) (cmdArg u 0) .read 64 = .ok h) (clean : readPoisoned u h 64 = false) :
    let op : CopyOp := { id := u.nextId, kind := .hostCopy, slot := cmdArg u 1, block := none, ctx := cmdCtx u, desc := 0
                         addr := BitVec.ofNat 64 (cmdArg u 0) }
    let v : State := { u with nextId := u.nextId + 1 }
    copyCmd u = busyWith .event { v with cl := { v.cl with copyQ := v.cl.copyQ ++ [withDesc v (BitVec.ofNat 512 (leNat (homeBytes u h 64))) op] } } := by
  intro op v
  rw [masterEngine_eq own] at home
  refine (if_neg (copyCmd_roomy room)).trans ?_
  rw [home]
  refine (if_neg (by rw [clean]; exact Bool.false_ne_true)).trans ?_
  exact setCmd_busyWith (by decide) _

theorem copyCmd_of_poisoned (home : engHome u (masterEngine u 1) (cmdCtx u) (cmdArg u 0) .read 64 = .ok h) (poisoned : readPoisoned u h 64 = true) :
    copyCmd u = commandDone 0 { u with win := { u.win with cmdWord := engStatus 0x23 0 1 0 } } := by
  rw [masterEngine_eq own] at home
  refine (if_neg (copyCmd_roomy room)).trans ?_
  rw [home]
  exact if_pos poisoned

/-- A page fault of the descriptor is recorded, and the operation is queued without it. -/
theorem copyCmd_of_fault {va : Nat} {acc : Acc} {v : State} (home : engHome u (masterEngine u 1) (cmdCtx u) (cmdArg u 0) .read 64 = .error (.fault va acc))
    (record : engFault (masterEngine u 1) (cmdCtx u) va acc u = (true, v)) :
    let op : CopyOp := { id := v.nextId, kind := .hostCopy, slot := cmdArg u 1, block := none, ctx := cmdCtx u, desc := 0
                         addr := BitVec.ofNat 64 (cmdArg u 0) }
    copyCmd u = busyWith .event { v with
      nextId := v.nextId + 1, cl := { v.cl with copyQ := v.cl.copyQ ++ [{ op with frozen := some (va, acc), undescribed := true }] } } := by
  intro op
  rw [masterEngine_eq own] at home record
  refine (if_neg (copyCmd_roomy room)).trans ?_
  rw [home]
  dsimp only
  rw [record]
  exact setCmd_busyWith (by decide) _

end

/-! ## INVAL (R248, R376) -/

theorem invalCmd_eq (u : State) :
    let c := cmdCtx u
    let lo := if cmdArg u 1 = 0 then 0 else cmdArg u 0 % 2 ^ 57
    let hi := if cmdArg u 1 = 0 then 2 ^ 57 else cmdArg u 0 % 2 ^ 57 + cmdArg u 1
    let stored := storedUnder u c lo hi
    let v := fun (l : List Nat) => busyWith (.inval c u.nextId l) (dropTranslations c lo hi (fwaitsAgain c lo hi u))
    let left := stored.filter (lineOpen (v stored) u.nextId)
    invalCmd u = if left = [] ∧ olderOpen (v stored) c u.nextId = false then commandDone 0 (v stored) else v left := by
  intro c lo hi stored v left
  have bound : (if cmdArg u 1 = 0 then 2 ^ 57 else lo + cmdArg u 1) = hi := by
    simp only [lo, hi]
    split <;> rfl
  have polls : invalCmd u = pollCommand (v stored) := by
    unfold invalCmd
    dsimp only
    rw [show (if cmdArg u 1 = 0 then 0 else cmdArg u 0 % 2 ^ 57) = lo from rfl, bound, setCmd_busyWith (by nofun)]
    rfl
  rw [polls, pollCommand_inval rfl]
  rfl

/-! ## PREEMPT and RESUME (R366) -/

theorem resumeCtx_eq (c : Nat) (s : State) :
    let v := s.updCtx c (fun x => { x with paused := false })
    let image := (∃ x ∈ s.slots, x.ctx = c) ∨ (s.standby.st = .saving ∧ s.standby.holds = some c)
    resumeCtx c s = if image ∧ c ∉ s.cp.resuming then { v with cp := { v.cp with resuming := v.cp.resuming ++ [c] } } else v := by
  intro v image
  have wanted : ((s.slots.any (·.ctx == c) || (decide (s.standby.st = .saving) && s.standby.holds == some c)) && !v.cp.resuming.contains c) = true
      ↔ image ∧ c ∉ s.cp.resuming := by
    simp [image, v, State.updCtx]
  unfold resumeCtx
  dsimp only
  simp only [show s.updCtx c (fun x => { x with paused := false }) = v from rfl, wanted]

/-! ## CHECKPOINT and RESTORE (R404, R406) -/

theorem headerOk_iff (s : State) (t h : Nat) : headerOk s t h = true ↔ HeaderTaken s.win.modnum t h := by
  simp only [headerOk, HeaderTaken, Bool.and_eq_true, beq_iff_eq, and_assoc]

theorem checkpointCmd_eq (u : State) :
    let target := cmdArg u 1 % 256
    let base := cmdArg u 1 / 256 * 256
    checkpointCmd u = if Config.targetCovers target base then busyWith .event { u with
        ckpt := { st := .armed, t := cmdArg u 0, target := target, base := base, set := moduleSet u (cmdArg u 2), got := u.ckpt.got
                  auto := cmdArg u 3 % 2 == 1 }
        ckptSet := moduleSet u (cmdArg u 2) }
      else commandDone 4 u := by
  intro target base
  rw [← setCmd_busyWith (by decide)]
  unfold checkpointCmd
  dsimp only
  cases Config.targetCovers target base <;> rfl

theorem restoreCmd_spec (u : State) :
    let target := cmdArg u 1 % 256
    let base := cmdArg u 1 / 256 * 256
    let v : State := { u with ckptSet := moduleSet u (cmdArg u 2) }
    let good := Config.targetCovers target base = true ∧ isUnreachable u target = false ∧ readPoisoned v (targetHome target base) 64 = false
      ∧ HeaderTaken u.win.modnum (cmdArg u 0) (targetHeader v target base)
    (good → restoreCmd u = busyWith .event { v with ckpt :=
      { st := .restoring, t := cmdArg u 0, target := target, base := base, set := moduleSet u (cmdArg u 2) } })
    ∧ (¬ good → restoreCmd u = commandDone 4 v) := by
  intro target base v good
  have refused : (!Config.targetCovers target base || isUnreachable v target || readPoisoned v (targetHome target base) 64
      || !headerOk v (cmdArg u 0) (targetHeader v target base)) = true ↔ ¬ good := by
    have taken := headerOk_iff v (cmdArg u 0) (targetHeader v target base)
    have reach : isUnreachable v target = isUnreachable u target := rfl
    simp only [Bool.or_eq_true, Bool.not_eq_true', ← Bool.not_eq_true, taken, reach, good, not_and_or, not_not, or_assoc]
    rfl
  refine ⟨fun fits => ?_, fun fails => if_pos (refused.2 fails)⟩
  rw [← setCmd_busyWith (by decide)]
  exact if_neg (mt refused.1 (not_not.2 fits))

end Sys2Proof.Laws
end

section
/-! PROOF. The ten commands of the host, and BADCMD (R155, R156, R170, R172, R174, R175, R366, R376, R396, R397, R404, R406). -/

namespace Sys2Proof.Laws

open Sys2Proof Sys2Proof.Machine Sys2Proof.Rules

theorem exec_commanded {i : Instr} {k : Nat} {body : State → State} {s t : State} (good : Commanded k s) (runs : exec i s = .next (command k body s))
    (acts : body (takenUp s) = t) : exec i s = .next (recordKept s t) := by
  rw [runs, command_eq good, acts]

theorem setRead_of_granted {u : State} (reads : granted u masterCp (cmdCtx u) (cmdArg u 2) 32 = true) (body : State → State) : setRead body u = body u :=
  commandReads_of_granted (by simpa using reads) body

/-- A mapping under a context that is there maps the queue, or is refused. -/
theorem mapQueue_of_context {q c desc qdesc : Nat} {s : State} {y : Ctx} (clean : isPoisoned s qdesc 64 = false)
    (record : QueueRecord (getLe s.mem qdesc 64)) (mapped : s.ctx? c = some y) :
    let d := getLe s.mem qdesc 64
    let refused := mapQueue q c desc qdesc s = (3, refuseMapping q c desc d s)
    (y.desc ≠ desc → refused) ∧ (queuePages s c d = none → refused)
    ∧ ∀ pins, y.desc = desc → queuePages s c d = some pins → mapQueue q c desc qdesc s = (0, queueMapped q c d pins s) := by
  refine ⟨fun other => mapQueue_of_refused (.inr ?_), fun unmapped => mapQueue_of_refused (.inr (Option.bind_eq_none_iff.2 fun t ready => ?_)),
    fun pins same pages => mapQueue_of_mapped clean ?_⟩
  · rw [contextReady_of_mapped mapped, if_neg other]
    rfl
  · rw [contextReady_of_mapped mapped, Option.ite_none_right_eq_some, Option.some.injEq] at ready
    rw [← ready.2, adoptQueue_of_good record, unmapped]
    rfl
  · rw [contextReady_of_mapped mapped, if_pos same, Option.bind_some, adoptQueue_of_good record, pages]
    rfl

/-- The first mapping of a context maps the context and then the queue, or is refused. -/
theorem mapQueue_of_noContext {q c desc qdesc : Nat} {s : State} (clean : isPoisoned s qdesc 64 = false) (record : QueueRecord (getLe s.mem qdesc 64))
    (fresh : s.ctx? c = none) :
    let D := getLe s.mem desc 128
    let d := getLe s.mem qdesc 64
    let x := contextFrom c desc D
    let refused := mapQueue q c desc qdesc s = (3, refuseMapping q c desc d s)
    (¬ ContextRecord D ∨ isPoisoned s desc 128 = true ∨ contextPages s x = none → refused)
    ∧ ∀ pins n, ContextRecord D → isPoisoned s desc 128 = false → contextPages s x = some pins → freeTree s = some n →
      let v := (commitQuiet c (atAddr x.fqAddr (leBytes 0 4)) 0 .module { s with
        ctxs := s.ctxs ++ [{ x with pins := pins, detTree := n }]
        sched := { s.sched with trees := s.sched.trees ++ [{ n := n, ctx := c, count := 0, detached := true }] } }).1
      (queuePages v c d = none → refused)
      ∧ ∀ qpins, queuePages v c d = some qpins → mapQueue q c desc qdesc s = (0, queueMapped q c d qpins v) := by
  intro D d x refused
  have ready : contextReady c desc s = adoptContext c desc s := contextReady_of_fresh fresh
  refine ⟨fun bad => mapQueue_of_refused (.inr ?_), fun pins n good whole pages free => ?_⟩
  · rw [ready]
    by_cases good : ContextRecord D ∧ isPoisoned s desc 128 = false
    · have unmapped : contextPages s x = none := (bad.resolve_left (not_not.2 good.1)).resolve_left (by rw [good.2]; exact Bool.false_ne_true)
      rw [adoptContext_of_good good.1 good.2, unmapped]
      rfl
    · rw [not_and_or, Bool.not_eq_false] at good
      rw [adoptContext_of_bad good]
      rfl
  · intro v
    have adopted : contextReady c desc s = some v := by
      rw [ready, adoptContext_of_good good whole, pages, free]
      rfl
    refine ⟨fun unmapped => mapQueue_of_refused (.inr ?_), fun qpins qpages => mapQueue_of_mapped clean ?_⟩
    · rw [adopted, Option.bind_some, adoptQueue_of_good record, unmapped]
      rfl
    · rw [adopted, Option.bind_some, adoptQueue_of_good record, qpages]
      rfl

/-- Settles O43, command by command, and then by when CMDGO is heard. -/
theorem commandsRun : Obligations.CommandsRun := by
  refine ⟨fun s good descriptor queue walker fault free => ?map, fun q c desc qdesc s => ?mapping, fun c s => ?unmapping, resumeCtx_eq, fun s good => ?unmap,
    fun s good => ?clear, fun s good => ?preempt, fun s good => ?resume, fun s h bs nodes good aligned64 read header found => ?graph, fun s good => ?badGraph,
    fun s good => ?inval, fun s h good own room => ?copy, fun s good reads => ?checkpoint, fun s good reads => ?restore, fun s hears now bad => ?bad,
    fun s hears later => ?held, fun s unheard => ?unheard⟩
  case map =>
    obtain ⟨quiet, recorded⟩ := mapCmd_of_record descriptor queue walker fault free rfl rfl
    exact ⟨fun h => exec_commanded good rfl (quiet h), fun pa refused at_ reached => exec_commanded good rfl (recorded pa refused at_ reached)⟩
  case mapping =>
    refine ⟨fun bad => mapQueue_of_refused (bad.imp_right fun bad => Option.bind_eq_none_iff.2 fun _ _ => adoptQueue_of_bad bad),
      fun clean record => ⟨fun y => mapQueue_of_context clean record, fun fresh => ?_⟩⟩
    obtain ⟨refused, maps⟩ := mapQueue_of_noContext (q := q) (desc := desc) clean record fresh
    exact ⟨refused, fun pins n good whole pages small unused lowest => maps pins n good whole pages (freeTree_of_lowest small unused lowest)⟩
  case unmapping =>
    obtain ⟨ctxs, queues, graphs, sched, atts, trigs, slots, faults, standby, mem⟩ := unmapContext_spec c s
    refine ⟨ctxs, queues, graphs, ?_, ?_, ?_, ?_, fun q => ?_, ?_, atts, trigs, slots, faults, unmapContext_coreTlb c s, unmapContext_here, unmapContext_away,
      fun holds => ?_, mem⟩
    iterate 4 (rw [sched]; rfl)
    · rw [show segOf (unmapContext c s) q = segOf { s with sched := s.sched.without c } q by rw [segOf, sched]; rfl]
      exact segOf_without c q s
    · rw [sched]; rfl
    · rw [standby]
      exact standby_without holds _
  case unmap => exact exec_commanded good rfl rfl
  case clear => exact exec_commanded good rfl rfl
  case preempt =>
    have waits := setCmd_busyWith (w := .preempt (cmdCtx (takenUp s))) (by nofun)
    obtain ⟨ends, stays⟩ := pollCommand_preempt (s := busyWith (.preempt (cmdCtx (takenUp s))) _) rfl
    exact ⟨fun idle => exec_commanded good rfl (by rw [preemptCmd, waits, ends idle]),
      fun busy => exec_commanded good rfl (by rw [preemptCmd, waits, stays busy])⟩
  case resume =>
    have waits := setCmd_busyWith (w := .resume (cmdCtx (takenUp s))) (by nofun)
    obtain ⟨ends, stays⟩ := pollCommand_resume (s := busyWith (.resume (cmdCtx (takenUp s))) _) rfl
    exact ⟨fun idle => exec_commanded good rfl (by rw [resumeCmd, waits, ends idle]),
      fun busy => exec_commanded good rfl (by rw [resumeCmd, waits, stays busy])⟩
  case graph =>
    have checks := regGraphCmd_of_nodes aligned64 read header found
    exact ⟨fun sound => exec_commanded good rfl (by rw [checks, sound]; rfl), fun k bad => exec_commanded good rfl (by rw [checks, bad]; rfl)⟩
  case badGraph =>
    exact ⟨fun misaligned => exec_commanded good rfl (regGraphCmd_of_misaligned misaligned),
      fun h bs aligned64 read header => exec_commanded good rfl (regGraphCmd_of_badHeader aligned64 read header)⟩
  case inval => exact exec_commanded good rfl (invalCmd_eq _)
  case copy =>
    exact ⟨fun home => ⟨fun clean => exec_commanded good rfl (copyCmd_of_clean own room home clean),
      fun poisoned => exec_commanded good rfl (copyCmd_of_poisoned own room home poisoned)⟩,
      fun va acc v home record => exec_commanded good rfl (copyCmd_of_fault own room home record)⟩
  case checkpoint => exact exec_commanded good rfl ((setRead_of_granted reads _).trans (checkpointCmd_eq _))
  case restore =>
    obtain ⟨taken, refused⟩ := restoreCmd_spec (takenUp s)
    exact ⟨fun fits => exec_commanded good rfl ((setRead_of_granted reads _).trans (taken fits)),
      fun fails => exec_commanded good rfl ((setRead_of_granted reads _).trans (refused fails))⟩
  case bad => exact congrArg _ (commandGo_of_now hears bad now)
  case held =>
    refine ⟨fun bad => congrArg _ (commandGo_of_later hears bad later), fun p code mine good => ?_⟩
    obtain ⟨body, run⟩ := exec_command p code
    rw [run]
    exact congrArg _ (commandGo_of_later hears (Bool.and_eq_true_iff.2 ⟨beq_iff_eq.2 mine, by rw [Bool.not_eq_true']; exact good⟩) later)
  case unheard =>
    refine ⟨congrArg _ (commandGo_of_unheard unheard), fun p code => ?_⟩
    obtain ⟨body, run⟩ := exec_command p code
    rw [run]
    exact congrArg _ (commandGo_of_unheard unheard)

end Sys2Proof.Laws
end
